-- ==== Sys2Proof/Word.lean ====
section
/-! DEFINITION. The word types of the block: bytes, the 32-bit words of registers, satchels and instructions, the
64-bit general registers (R5, R6, R18, R59). -/

namespace Sys2Proof

/-- One byte. -/
abbrev Byte := BitVec 8

/-- A 32-bit word: a control register word, a satchel word, an AFV-2 instruction, a mailbox word (R18, R35, R62). -/
abbrev W32 := BitVec 32

/-- A 64-bit general register (R59). -/
abbrev W64 := BitVec 64

end Sys2Proof
end

