-- ==== Sys2Proof/Syntax.lean ====
section
/-! DEFINITION. The commands of the block: one constructor of `Instr` per row of spec/opcode_table.json, with the
operands that say which part of the block it names and what it brings from outside. -/

namespace Sys2Proof

/-- Who runs an instruction: a worker thread (numbered as in R87), a steward, or the frame that is oldest in one lane
of a pipeline (lane `2 p + l` for lane `l` of pipeline `p`; pipelines 0–15 are IP0–IP15 and 16–31 EP0–EP15). -/
inductive Agent where
  | thread (n : Fin 2048)
  | steward (k : Fin 4)
  | lane (n : Fin 64)
deriving DecidableEq, Repr

/-- Who writes a register: the initiators of R453. -/
inductive Writer where
  | thread (n : Fin 2048)
  | steward (k : Fin 4)
  | window (h : Fin 2)
  | debug
deriving DecidableEq, Repr

/-- Where an issue meets an uncorrectable error: nowhere, on the instruction's fetch, or on the data that it loads (R95). -/
inductive EccHit where
  | none | fetch | load
deriving DecidableEq, Repr

/-- What a port found on a frame it received: the FCS check, and the corrected and uncorrectable codewords and the
corrected symbols that its FEC decoder reports (R136, R140). -/
structure Reception where
  fcsOk : Bool
  corr : BitVec 16
  uncorr : BitVec 16
  syms : BitVec 16
deriving DecidableEq, Repr

/-- A flit as it arrives on a Hamper link: its bytes, and the codewords that carried it which FEC corrected and could not
correct (R386). -/
structure FlitIn where
  bytes : List Byte
  corr : Nat := 0
  uncorr : Nat := 0
deriving DecidableEq, Repr

/-- The sub-port that loses its link, and whether a frame was in reception (R135, R155). -/
structure LinkLoss where
  sub : Fin 8
  midFrame : Bool
deriving DecidableEq, Repr

/-- The lane of a pipeline whose oldest pass ends, and the first slot, if any, at which the rest of the pass meets an
uncorrectable error (R102). -/
structure LaneEnd where
  lane : Fin 2
  ecc : Option (Fin 384)
deriving DecidableEq, Repr

/-- The context whose oldest SEC operation ends, and whether its engine met an uncorrectable error (R251, R279). -/
structure SecEnd where
  ctx : BitVec 20
  eccBad : Bool
deriving DecidableEq, Repr

/-- What the check of one bank at power exit found (R415): the canary did not match, an uncorrectable error stood, how
many errors were corrected. -/
structure BankCheck where
  bank : Fin 181
  canaryBad : Bool
  eccUncorr : Bool
  corrected : Nat
deriving DecidableEq, Repr

/-- A command of the block. -/
inductive Instr where
  /-- ADD (R66): Thread or stage instruction that writes ra + rb modulo 2^64 into rd. -/
  | add (who : Agent) (pr : BitVec 3) (rd ra rb : BitVec 5)
  /-- SUB (R66): Writes ra − rb modulo 2^64 into rd. -/
  | sub (who : Agent) (pr : BitVec 3) (rd ra rb : BitVec 5)
  /-- AND (R66): Writes the bitwise AND of ra and rb into rd. -/
  | and (who : Agent) (pr : BitVec 3) (rd ra rb : BitVec 5)
  /-- OR (R66): Writes the bitwise OR of ra and rb into rd. -/
  | or (who : Agent) (pr : BitVec 3) (rd ra rb : BitVec 5)
  /-- XOR (R66): Writes the bitwise XOR of ra and rb into rd. -/
  | xor (who : Agent) (pr : BitVec 3) (rd ra rb : BitVec 5)
  /-- ANDN (R66): Writes ra AND NOT rb into rd. -/
  | andn (who : Agent) (pr : BitVec 3) (rd ra rb : BitVec 5)
  /-- SHL (R66): Shifts ra left by rb[5:0] into rd. -/
  | shl (who : Agent) (pr : BitVec 3) (rd ra rb : BitVec 5)
  /-- SHR (R66): Shifts ra right with zero fill by rb[5:0] into rd. -/
  | shr (who : Agent) (pr : BitVec 3) (rd ra rb : BitVec 5)
  /-- SRA (R66): Shifts ra right with sign fill by rb[5:0] into rd. -/
  | sra (who : Agent) (pr : BitVec 3) (rd ra rb : BitVec 5)
  /-- ROL (R66): Rotates ra left by rb[5:0] into rd. -/
  | rol (who : Agent) (pr : BitVec 3) (rd ra rb : BitVec 5)
  /-- ROR (R66): Rotates ra right by rb[5:0] into rd. -/
  | ror (who : Agent) (pr : BitVec 3) (rd ra rb : BitVec 5)
  /-- MINU (R66): Writes the unsigned minimum of ra and rb into rd. -/
  | minu (who : Agent) (pr : BitVec 3) (rd ra rb : BitVec 5)
  /-- MAXU (R66): Writes the unsigned maximum of ra and rb into rd. -/
  | maxu (who : Agent) (pr : BitVec 3) (rd ra rb : BitVec 5)
  /-- MINS (R66): Writes the signed minimum of ra and rb into rd. -/
  | mins (who : Agent) (pr : BitVec 3) (rd ra rb : BitVec 5)
  /-- MAXS (R66): Writes the signed maximum of ra and rb into rd. -/
  | maxs (who : Agent) (pr : BitVec 3) (rd ra rb : BitVec 5)
  /-- CLZ (R66): Writes the count of leading zeros of ra into rd. -/
  | clz (who : Agent) (pr : BitVec 3) (rd ra rb : BitVec 5)
  /-- CTZ (R66): Writes the count of trailing zeros of ra into rd. -/
  | ctz (who : Agent) (pr : BitVec 3) (rd ra rb : BitVec 5)
  /-- POPC (R66): Writes the number of ones in ra into rd. -/
  | popc (who : Agent) (pr : BitVec 3) (rd ra rb : BitVec 5)
  /-- BSWAP (R66): Writes ra with its bytes reversed into rd. -/
  | bswap (who : Agent) (pr : BitVec 3) (rd ra rb : BitVec 5)
  /-- ADD32 (R66): Writes (ra + rb)[31:0], zero-extended, into rd. -/
  | add32 (who : Agent) (pr : BitVec 3) (rd ra rb : BitVec 5)
  /-- SUB32 (R66): Writes (ra − rb)[31:0], zero-extended, into rd. -/
  | sub32 (who : Agent) (pr : BitVec 3) (rd ra rb : BitVec 5)
  /-- MUL (R67): Writes the low 64 bits of the product into rd. -/
  | mul (who : Agent) (pr : BitVec 3) (rd ra rb : BitVec 5)
  /-- MULHU (R67): Writes the high 64 bits of the unsigned product into rd. -/
  | mulhu (who : Agent) (pr : BitVec 3) (rd ra rb : BitVec 5)
  /-- MULHS (R67): Writes the high 64 bits of the signed product into rd. -/
  | mulhs (who : Agent) (pr : BitVec 3) (rd ra rb : BitVec 5)
  /-- DIVU (R67): Unsigned division; division by zero gives all ones. -/
  | divu (who : Agent) (pr : BitVec 3) (rd ra rb : BitVec 5)
  /-- REMU (R67): Unsigned remainder; division by zero returns the dividend. -/
  | remu (who : Agent) (pr : BitVec 3) (rd ra rb : BitVec 5)
  /-- DIVS (R67): Signed division truncated toward zero. -/
  | divs (who : Agent) (pr : BitVec 3) (rd ra rb : BitVec 5)
  /-- REMS (R67): Signed remainder that takes the sign of the dividend. -/
  | rems (who : Agent) (pr : BitVec 3) (rd ra rb : BitVec 5)
  /-- CMP (R69): Compares ra and rb under a condition and writes predicates pd and pe by mode. -/
  | cmp (who : Agent) (pr : BitVec 3) (pd : BitVec 3) (mode : BitVec 2) (cond : BitVec 4) (pe : BitVec 3) (ra rb : BitVec 5)
  /-- PAND (R70): Writes pa AND pb into pd. -/
  | pand (who : Agent) (pr : BitVec 3) (pd pa pb : BitVec 3)
  /-- POR (R70): Writes pa OR pb into pd. -/
  | por (who : Agent) (pr : BitVec 3) (pd pa pb : BitVec 3)
  /-- PXOR (R70): Writes pa XOR pb into pd. -/
  | pxor (who : Agent) (pr : BitVec 3) (pd pa pb : BitVec 3)
  /-- PANDN (R70): Writes pa AND NOT pb into pd. -/
  | pandn (who : Agent) (pr : BitVec 3) (pd pa pb : BitVec 3)
  /-- PNOT (R70): Writes NOT pa into pd. -/
  | pnot (who : Agent) (pr : BitVec 3) (pd pa pb : BitVec 3)
  /-- ADDI (R68): Adds a sign-extended immediate to ra. -/
  | addi (who : Agent) (pr : BitVec 3) (rd ra : BitVec 5) (imm : BitVec 14)
  /-- ANDI (R68): ANDs a zero-extended immediate with ra. -/
  | andi (who : Agent) (pr : BitVec 3) (rd ra : BitVec 5) (imm : BitVec 14)
  /-- ORI (R68): ORs a zero-extended immediate with ra. -/
  | ori (who : Agent) (pr : BitVec 3) (rd ra : BitVec 5) (imm : BitVec 14)
  /-- XORI (R68): XORs a zero-extended immediate with ra. -/
  | xori (who : Agent) (pr : BitVec 3) (rd ra : BitVec 5) (imm : BitVec 14)
  /-- SHLI (R68): Shifts ra left by an immediate amount. -/
  | shli (who : Agent) (pr : BitVec 3) (rd ra : BitVec 5) (hi amt : BitVec 6)
  /-- SHRI (R68): Shifts ra right logically by an immediate amount. -/
  | shri (who : Agent) (pr : BitVec 3) (rd ra : BitVec 5) (hi amt : BitVec 6)
  /-- SRAI (R68): Shifts ra right arithmetically by an immediate amount. -/
  | srai (who : Agent) (pr : BitVec 3) (rd ra : BitVec 5) (hi amt : BitVec 6)
  /-- ROLI (R68): Rotates ra left by an immediate amount. -/
  | roli (who : Agent) (pr : BitVec 3) (rd ra : BitVec 5) (hi amt : BitVec 6)
  /-- MOVK (R68): Sets rd to (ra << 14) OR the immediate. -/
  | movk (who : Agent) (pr : BitVec 3) (rd ra : BitVec 5) (imm : BitVec 14)
  /-- EXT (R68): Extracts a bit field of ra into rd, zero- or sign-extended. -/
  | ext (who : Agent) (pr : BitVec 3) (rd ra : BitVec 5) (imm : BitVec 14)
  /-- INS (R68): Inserts the low bits of ra into a bit field of rd. -/
  | ins (who : Agent) (pr : BitVec 3) (rd ra : BitVec 5) (imm : BitVec 14)
  /-- CMPI_EQ (R69): Compares ra with a sign-extended immediate for equality and writes pd. -/
  | cmpiEq (who : Agent) (pr : BitVec 3) (pd : BitVec 3) (mode : BitVec 2) (ra : BitVec 5) (imm : BitVec 14)
  /-- CMPI_LTU (R69): Compares ra unsigned-less-than a zero-extended immediate and writes pd. -/
  | cmpiLtu (who : Agent) (pr : BitVec 3) (pd : BitVec 3) (mode : BitVec 2) (ra : BitVec 5) (imm : BitVec 14)
  /-- CMPI_LTS (R69): Compares ra signed-less-than a sign-extended immediate and writes pd. -/
  | cmpiLts (who : Agent) (pr : BitVec 3) (pd : BitVec 3) (mode : BitVec 2) (ra : BitVec 5) (imm : BitVec 14)
  /-- CMPI_ANY (R69): Tests ra AND a zero-extended immediate for non-zero and writes pd. -/
  | cmpiAny (who : Agent) (pr : BitVec 3) (pd : BitVec 3) (mode : BitVec 2) (ra : BitVec 5) (imm : BitVec 14)
  /-- SGET (R71): Reads one or two words of the held satchel into rd. -/
  | sget (who : Agent) (pr : BitVec 3) (rd : BitVec 5) (imm : BitVec 14)
  /-- SPUT (R72): Writes masked bits of one satchel word, with the field side effects of R38 and the EXC rules of R56. -/
  | sput (who : Agent) (pr : BitVec 3) (n : BitVec 4) (ra rb : BitVec 5)
  /-- LD (R76): Loads a zero-extended little-endian value from the selected memory space. -/
  | ld (who : Agent) (pr : BitVec 3) (rd ra : BitVec 5) (space size : BitVec 2) (off : BitVec 9)
  /-- LDS (R76): Loads a sign-extended value from the selected memory space. -/
  | lds (who : Agent) (pr : BitVec 3) (rd ra : BitVec 5) (space size : BitVec 2) (off : BitVec 9)
  /-- LDBE (R76): Loads a byte-reversed, zero-extended value. -/
  | ldbe (who : Agent) (pr : BitVec 3) (rd ra : BitVec 5) (space size : BitVec 2) (off : BitVec 9)
  /-- ST (R76): Stores a little-endian value into the selected memory space. -/
  | st (who : Agent) (pr : BitVec 3) (rd ra : BitVec 5) (space size : BitVec 2) (off : BitVec 9)
  /-- STBE (R76): Stores a byte-reversed value. -/
  | stbe (who : Agent) (pr : BitVec 3) (rd ra : BitVec 5) (space size : BitVec 2) (off : BitVec 9)
  /-- LDC (R18): Control-space load of a 32- or 64-bit register of an island. -/
  | ldc (who : Agent) (pr : BitVec 3) (rd ra : BitVec 5) (size : BitVec 2) (off : BitVec 9)
  /-- STC (R18): Control-space store to a register of an island, with the held-lower-word rule for 64-bit pairs. -/
  | stc (who : Agent) (pr : BitVec 3) (rs ra : BitVec 5) (size : BitVec 2) (off : BitVec 9)
  /-- GATED_ACCESS_COMPLETE (R23): A control access held at a clock-gated island completes once its clock runs again. -/
  | gatedAccessComplete (island : Fin 256)
  /-- AMO_ADD (R77): Indivisible add to memory returning the old value. -/
  | amoAdd (who : Agent) (pr : BitVec 3) (rd ra rb : BitVec 5) (space : BitVec 2) (wide : Bool)
  /-- AMO_SWAP (R77): Indivisible swap with memory returning the old value. -/
  | amoSwap (who : Agent) (pr : BitVec 3) (rd ra rb : BitVec 5) (space : BitVec 2) (wide : Bool)
  /-- AMO_CAS (R77): Indivisible compare-and-swap returning the old value. -/
  | amoCas (who : Agent) (pr : BitVec 3) (rd ra rb : BitVec 5) (space : BitVec 2) (wide : Bool)
  /-- AMO_AND (R77): Indivisible AND into memory returning the old value. -/
  | amoAnd (who : Agent) (pr : BitVec 3) (rd ra rb : BitVec 5) (space : BitVec 2) (wide : Bool)
  /-- AMO_OR (R77): Indivisible OR into memory returning the old value. -/
  | amoOr (who : Agent) (pr : BitVec 3) (rd ra rb : BitVec 5) (space : BitVec 2) (wide : Bool)
  /-- AMO_MAXU (R77): Indivisible unsigned maximum into memory returning the old value. -/
  | amoMaxu (who : Agent) (pr : BitVec 3) (rd ra rb : BitVec 5) (space : BitVec 2) (wide : Bool)
  /-- AMO_MINU (R77): Indivisible unsigned minimum into memory returning the old value. -/
  | amoMinu (who : Agent) (pr : BitVec 3) (rd ra rb : BitVec 5) (space : BitVec 2) (wide : Bool)
  /-- FENCE (R79): Orders the successor set after the predecessor set of the thread's operations. -/
  | fence (who : Agent) (pr : BitVec 3) (pre succ : BitVec 4)
  /-- B (R81): Branches to PC plus offset. -/
  | branch (who : Agent) (pr : BitVec 3) (off : BitVec 20)
  /-- CALL (R81): Writes PC + 1 into g31 and branches. -/
  | call (who : Agent) (pr : BitVec 3) (off : BitVec 20)
  /-- JR (R81): Jumps to the word index in ra and optionally links. -/
  | jr (who : Agent) (pr : BitVec 3) (rd ra : BitVec 5)
  /-- LOOK (R82): Looks up a key in a table and writes result words and a hit predicate. -/
  | look (who : Agent) (pr : BitVec 3) (rd ra : BitVec 5) (table : BitVec 4) (klen rcnt : BitVec 2) (pd : BitVec 3)
  /-- RCMP (R83): Stage instruction that returns the vector of range comparators matching a value. -/
  | rcmp (who : Agent) (pr : BitVec 3) (rd ra : BitVec 5) (tag : BitVec 4)
  /-- CRC32C (R84): Updates a CRC-32C accumulator with 8 bytes. -/
  | crc32c (who : Agent) (pr : BitVec 3) (rd ra rb : BitVec 5)
  /-- CRC64N (R84): Updates a CRC-64/NVME accumulator with 8 bytes. -/
  | crc64n (who : Agent) (pr : BitVec 3) (rd ra rb : BitVec 5)
  /-- GFMUL (R84): Byte-wise GF(2^8) multiplication. -/
  | gfmul (who : Agent) (pr : BitVec 3) (rd ra rb : BitVec 5)
  /-- GFXOR (R84): Byte-wise syndrome step ra XOR GFMUL(ra, rb). -/
  | gfxor (who : Agent) (pr : BitVec 3) (rd ra rb : BitVec 5)
  /-- GCM_ENC (R248): CIPH job that encrypts and tags data under AES-GCM. -/
  | gcmEnc (who : Agent) (pr : BitVec 3) (rd ra rb : BitVec 5)
  /-- GCM_DEC (R248): CIPH job that decrypts under AES-GCM with release-and-flag. -/
  | gcmDec (who : Agent) (pr : BitVec 3) (rd ra rb : BitVec 5)
  /-- GCM_VERIFY (R248): CIPH job that verifies a GCM tag without output. -/
  | gcmVerify (who : Agent) (pr : BitVec 3) (rd ra rb : BitVec 5)
  /-- GMAC_GEN (R248): CIPH job that produces a GMAC tag. -/
  | gmacGen (who : Agent) (pr : BitVec 3) (rd ra rb : BitVec 5)
  /-- GMAC_VERIFY (R248): CIPH job that verifies a GMAC tag. -/
  | gmacVerify (who : Agent) (pr : BitVec 3) (rd ra rb : BitVec 5)
  /-- XTS_ENC (R248): CIPH job that encrypts whole data units under XTS-AES. -/
  | xtsEnc (who : Agent) (pr : BitVec 3) (rd ra rb : BitVec 5)
  /-- XTS_DEC (R248): CIPH job that decrypts whole data units under XTS-AES. -/
  | xtsDec (who : Agent) (pr : BitVec 3) (rd ra rb : BitVec 5)
  /-- KW_WRAP (R257): CIPH job that wraps the key of AUX_SLOT into a blob. -/
  | kwWrap (who : Agent) (pr : BitVec 3) (rd ra rb : BitVec 5)
  /-- KW_UNWRAP (R257): CIPH job that unwraps a blob and commits AUX_SLOT as a LOAD. -/
  | kwUnwrap (who : Agent) (pr : BitVec 3) (rd ra rb : BitVec 5)
  /-- CIPH_JOB_ADMIT (R235): A waiting bulk job is admitted to an engine once it has room for another bulk operation. -/
  | ciphJobAdmit (c : Fin 8)
  /-- CIPH_JOB_COMPLETE (R249): A cipher job ends and its completion record is written before PROD advances. -/
  | ciphJobComplete (id : W32) (eccBad : Bool)
  /-- QUANTUM_EXPIRE (R235): A bulk operation has run its quantum and is suspended for the next one in round-robin. -/
  | quantumExpire (eng : Fin 64)
  /-- BULK_RESUME (R236): A suspended bulk operation resumes once its engine has no inline work waiting. -/
  | bulkResume (eng : Fin 64)
  /-- KEY_CACHE_FILL (R238): A key cache miss is served from the key store and the latch proceeds. -/
  | keyCacheFill (c : Fin 8) (slot : Fin 262144)
  /-- WAITE (R87): Takes masked event bits or waits until one is set. -/
  | waite (who : Agent) (pr : BitVec 3) (rd ra : BitVec 5)
  /-- WAITE_WAKE (R117): A waiting thread's masked bit is set and the thread becomes ready. -/
  | waiteWake (who : Agent)
  /-- SIGE (R87): Sends an internal event bit to a thread or steward. -/
  | sige (who : Agent) (pr : BitVec 3) (ra rb : BitVec 5)
  /-- SIGE_DELIVER (R88): A SIGE reaches its target and sets the bit, or is discarded at a parked thread. -/
  | sigeDeliver (src dst : Fin 2052)
  /-- SETT (R87): Arms the thread's timer. -/
  | sett (who : Agent) (pr : BitVec 3) (ra : BitVec 5)
  /-- CLRT (R87): Disarms the timer and clears bit 16. -/
  | clrt (who : Agent) (pr : BitVec 3)
  /-- EVRD (R87): Reads the event bits without clearing them. -/
  | evrd (who : Agent) (pr : BitVec 3) (rd : BitVec 5)
  /-- TIMER_FIRE (R87): A thread timer reaches its time and sets event bit 16. -/
  | timerFire (who : Agent)
  /-- POST (R89): Appends a word to a mailbox channel's outbound queue. -/
  | post (who : Agent) (pr : BitVec 3) (ra rb : BitVec 5)
  /-- POST_END (R89): Appends a word and closes the mailbox message. -/
  | postEnd (who : Agent) (pr : BitVec 3) (ra rb : BitVec 5)
  /-- TAKE (R89): Removes the next inbound mailbox word and writes the taken and closing predicates. -/
  | take (who : Agent) (pr : BitVec 3) (rd ra : BitVec 5) (pd pe : BitVec 3)
  /-- MAILBOX_DELIVER (R369): A posted mailbox word becomes visible at the far end. -/
  | mailboxDeliver (ch : Fin 64) (toB : Bool)
  /-- GETW (R90): Takes the next satchel from a bound worker group's queue. -/
  | getw (who : Agent) (pr : BitVec 3) (rd ra : BitVec 5) (pd : BitVec 3)
  /-- DISP_CONT (R90): Releases the held satchel into stepping at POS, or records a CONT verdict in a stage. -/
  | dispCont (who : Agent) (pr : BitVec 3)
  /-- DISP_DROP (R90): Discards the held satchel and frame, or records a DROP verdict. -/
  | dispDrop (who : Agent) (pr : BitVec 3)
  /-- DISP_GROUP (R90): Queues the held satchel to a worker group, or records a GROUP verdict. -/
  | dispGroup (who : Agent) (pr : BitVec 3) (ra : BitVec 5)
  /-- NEWS (R90): Creates a held satchel by internal attach with a frame copied from device space. -/
  | news (who : Agent) (pr : BitVec 3) (rd ra rb : BitVec 5)
  /-- SYSR (R91): Reads a system register. -/
  | sysr (who : Agent) (pr : BitVec 3) (rd ra : BitVec 5)
  /-- SYSW (R91): Writes a system register. -/
  | sysw (who : Agent) (pr : BitVec 3) (ra rb : BitVec 5)
  /-- ICACHE_INV (R92): A write to ICACHE_INV invalidates the steward's instruction cache. -/
  | icacheInv (who : Agent) (pr : BitVec 3) (ra rb : BitVec 5)
  /-- ERET (R97): Returns from a steward exception and clears IN_EXC. -/
  | eret (who : Agent) (pr : BitVec 3)
  /-- WAIT_PWR (R93): Submits the LANTERN.PWR_MODE request and waits for its outcome. -/
  | waitPwr (who : Agent) (pr : BitVec 3) (rd : BitVec 5)
  /-- HALT (R94): CLCTL operation that stops issue in every thread of a cluster. -/
  | halt (who : Agent) (pr : BitVec 3) (ra rb : BitVec 5)
  /-- RELEASE (R94): CLCTL operation that resumes issue in a cluster. -/
  | release (who : Agent) (pr : BitVec 3) (ra rb : BitVec 5)
  /-- RESTART (R94): CLCTL operation that restarts every non-parked thread of a cluster. -/
  | restart (who : Agent) (pr : BitVec 3) (ra rb : BitVec 5)
  /-- TRESTART (R94): Restarts one worker thread. -/
  | trestart (who : Agent) (pr : BitVec 3) (ra : BitVec 5)
  /-- TRAP (R91): Raises the TRAP exception with a 5-bit code. -/
  | trap (who : Agent) (pr : BitVec 3) (code : BitVec 5)
  /-- ISSUE_CYCLE (R111): Each core cycle chooses the thread that issues by floor, high priority and round-robin. -/
  | issueCycle (core : Fin 260) (ecc : EccHit)
  /-- STALEMATE_CYCLE (R119): Each cluster cycle the detector judges the stalemate condition and updates RUN. -/
  | stalemateCycle (cl : Fin 16)
  /-- STALEMATE (R120): RUN reaches 4,096 and the detector records the stalemate and raises its event. -/
  | stalemate (cl : Fin 16)
  /-- STALEMATE_DETECTED_CLEAR (R122): Writing 1 to DETECTED clears it and re-arms the capture into CL.WAIT_SNAP. -/
  | stalemateDetectedClear (cl : Fin 16)
  /-- THREAD_FAULT_POP (R96): Writing 1 to CL.THREAD_FAULT.VALID removes the oldest fault and loads the next. -/
  | threadFaultPop (cl : Fin 16)
  /-- THREAD_FAULT_LOST_CLEAR (R96): Writing 1 to CL.THREAD_FAULT.LOST clears only LOST. -/
  | threadFaultLostClear (cl : Fin 16)
  /-- REGISTER_WRITE (R18): A write to a register without a row of its own, with held lower words for 64-bit pairs. -/
  | registerWrite (who : Writer) (addr : W32) (wide : Bool) (data : W64)
  /-- LANTERN_TICK (R27): Each 40 ns Lantern tick advances TOD and ICT by the addend. -/
  | lanternTick
  /-- SNAP (R30): Requests a joint snapshot of TOD and ICT at the next tick. -/
  | timeSnap
  /-- STEP (R30): Requests that TIME_STEP be added to TOD at the next tick. -/
  | timeStep
  /-- FMT_GEN_WRITE (R42): A write of FAB.FMT_GEN is ignored as a whole if GMIN, GMAX and CUR are inconsistent. -/
  | fmtGenWrite (v : W32)
  /-- FRAME_RECEIVE (R136): A frame is received whole, checked, counted and passed on with a new satchel. -/
  | frameReceive (port : Fin 32) (sub : Fin 8) (data : List Byte) (rx : Reception)
  /-- SIGNAL_DETECT (R152): Signal energy appears on a lane of a wake port and raises a wake. -/
  | signalDetect (port : Fin 32) (sub : Fin 8)
  /-- PFC_RECEIVE (R143): A received PFC frame pauses or resumes the enabled traffic classes. -/
  | pfcReceive (port : Fin 32) (sub : Fin 8) (enable : BitVec 8) (times : BitVec 128)
  /-- PAUSE_RECEIVE (R143): A received PAUSE frame pauses all classes when honoured, otherwise is counted. -/
  | pauseReceive (port : Fin 32) (sub : Fin 8) (time : BitVec 16)
  /-- PAUSE_EXPIRE (R143): A class's pause time runs out and the class may send again. -/
  | pauseExpire (port : Fin 32) (sub : Fin 8) (tc : Fin 8)
  /-- PFC_REPEAT (R144): Every 32,768 quanta while XOFF holds, the PFC frame is sent again. -/
  | pfcRepeat (port : Fin 32) (sub : Fin 8) (tc : Fin 8)
  /-- PFC_WATCHDOG (R146): A class paused for LIMIT becomes stalled and its queued frames are discarded. -/
  | pfcWatchdog (port : Fin 32) (sub : Fin 8) (tc : Fin 8)
  /-- PFC_WD_RESTORE (R146): A stalled class quiet for RESTORE leaves the stall. -/
  | pfcWdRestore (port : Fin 32) (sub : Fin 8) (tc : Fin 8)
  /-- LINK_UP (R135): FEC lock and PCS alignment are reached and LINK is set. -/
  | linkUp (port : Fin 32) (sub : Fin 8)
  /-- LINK_DOWN (R135): FEC lock or alignment is lost and LINK clears. -/
  | linkDown (port : Fin 32) (loss : LinkLoss)
  /-- PORT_MODE_WRITE (R133): A PORT.MODE write whose SPLIT change is ignored while a sub-port is enabled and otherwise zeroes counters. -/
  | portModeWrite (port : Fin 32) (v : W32)
  /-- FRAME_TRANSMIT (R138): The MAC takes a frame, checks its wire length and begins transmission. -/
  | frameTransmit (port : Fin 32) (sub : Fin 8)
  /-- FRAME_TX_COMPLETE (R140): The last byte and FCS are sent, inverted if STOMP is set, and the frame is counted. -/
  | frameTxComplete (port : Fin 32) (sub : Fin 8)
  /-- PTP_POP (R151): Removes the oldest two-step timestamp record. -/
  | ptpPop (port : Fin 32)
  /-- INGRESS_PASS_START (R158): A port arrival or recirculation is granted a lane start and its profile is latched. -/
  | ingressPassStart (pipe : Fin 16) (lane : Fin 2)
  /-- RECIRCULATION (R158): A frame returns to its lane's recirculation queue or is discarded when it is full. -/
  | recirculation (pipe : Fin 16) (lane : Fin 2)
  /-- INGRESS_PASS_END (R164): After stage 11, the pipeline applies exceptions, the verdict and the stepping of its positions. -/
  | ingressPassEnd (pipe : Fin 16) (fin : LaneEnd)
  /-- EGRESS_PASS_END (R167): After stage 11 of an egress pass, RTE and BRG are completed and the verdict applied. -/
  | egressPassEnd (pipe : Fin 16) (fin : LaneEnd)
  /-- PIPE_PROFILE_WRITE (R162): A PIPE.PROFILE write switches the set of programs seen by new frames. -/
  | pipeProfileWrite (pipe : Fin 32) (p : Fin 16) (v : W64)
  /-- PIPE_PROG_WRITE (R162): A write of a stage program or slot binding, ignored while the slot is in use. -/
  | pipeProgWrite (st : Fin 4) (pipe : Fin 32) (stage : Fin 12) (slot : Fin 16) (tbl : Bool) (i : Fin 32) (v : W32)
  /-- SLOT_RELEASE (R162): 1 µs after its last naming ends, a program slot is no longer in use. -/
  | slotRelease (pipe : Fin 32) (stage : Fin 12) (slot : Fin 16)
  /-- PIPE_TABLE_WRITE (R171): A PIPE.TABLE write, locked while in use, that empties the partition's staging buffers. -/
  | pipeTableWrite (pipe : Fin 32) (t : Fin 32) (v : W64)
  /-- REORDER_PASS_OVER (R180): The oldest reorder slot is not released within WAIT and is passed over. -/
  | reorderPassOver (pipe : Fin 16)
  /-- SIDE_SOURCE_ENTRY (R191): A frame waiting at a side source enters the fabric once room exists. -/
  | sideSourceEntry (input : Fin 32)
  /-- FABRIC_SLOT (R187): Each 2 ns slot moves cells through the cyclic connections and releases reassembled frames. -/
  | fabricSlot
  /-- SPILL_PAGE_FLUSH (R200): A partly filled spill page is written when a queue's arrivals pause for 1 µs. -/
  | spillPageFlush (mem : Fin 32) (queue : W32)
  /-- PREFETCH_COMPLETE (R201): A prefetch read from the Coolbox arrives on chip and makes a queue head eligible. -/
  | prefetchComplete (mem : Fin 32) (queue : W32) (eccBad : Bool)
  /-- CAPTURE_RECORD_WRITE (R206): A header capture record is written into the capture ring and PROD advances. -/
  | captureRecordWrite
  /-- CB_REGION_WRITE (R198): A Coolbox region write, ignored and counted when it would overlap or change a region in use. -/
  | cbRegionWrite (r : Fin 3) (v : W32)
  /-- CAPTURE_ENABLE (R207): Writing ENABLE from 0 to 1 starts the capture ring with PROD and CONS zero. -/
  | captureEnable
  /-- TM_DECISION (R212): When a MAC can accept a frame, the traffic manager picks, ages and dequeues a head. -/
  | tmDecision (port : Fin 32) (sub : Fin 8)
  /-- SIDE_SCHED_DECISION (R225): A side scheduler picks a frame when its endpoint can take one. -/
  | sideSchedDecision (endpoint : Fin 8)
  /-- SHAPER_REFILL (R220): At each 1 µs boundary every shaper balance is refilled up to its burst. -/
  | shaperRefill (island : Fin 256)
  /-- SHAPER_CFG_WRITE (R222): A shaper configuration write that keeps the balance and applies RATE from the next boundary. -/
  | shaperCfgWrite (island : Fin 256) (x : Fin 12384) (v : W64)
  /-- QUEUE_WEIGHT_WRITE (R217): A WEIGHT write that recomputes the head's finish tag at the next decision. -/
  | queueWeightWrite (island : Fin 256) (j : Fin 2) (q : Fin 4096) (w : BitVec 16)
  /-- POLICER_REFILL (R227): At each 1 µs boundary the policer buckets are refilled. -/
  | policerRefill (island : Fin 256)
  /-- POLICER_CFG_WRITE (R230): A policer configuration write that keeps bucket contents. -/
  | policerCfgWrite (island : Fin 256) (n : Fin 4096) (v : BitVec 128)
  /-- INLINE_DECRYPT (R234): The cipher island verifies and decrypts a frame's LSC or ESP and returns it to recirculation. -/
  | inlineDecrypt (c : Fin 8)
  /-- INLINE_ENCRYPT (R234): The cipher island encrypts a departing frame's ESP or LSC on its way to the MAC. -/
  | inlineEncrypt (c : Fin 8)
  /-- LOAD (R240): Key store command that commits the staged key and attributes and increments GEN. -/
  | ksLoad (st : Fin 2) (slot : Fin 262144)
  /-- ERASE (R241): Key store command that zeroes a slot, marks it ERASED and stops operations using it. -/
  | ksErase (st : Fin 2) (slot : Fin 262144)
  /-- SET_LIMIT (R244): Key store command that replaces LIMIT and recomputes EXHAUSTED and REKEY_SENT. -/
  | ksSetLimit (st : Fin 2) (slot : Fin 262144)
  /-- READ_META (R239): Key store command that returns a slot's metadata in KS.META. -/
  | ksReadMeta (st : Fin 2) (slot : Fin 262144)
  /-- KS_COMMAND_DONE (R239): A key store command completes and BUSY returns to 0 with its CODE. -/
  | ksCommandDone (st : Fin 2)
  /-- NOTIFY_POST (R244): A queued key notification word is posted once its mailbox queue has room. -/
  | notifyPost
  /-- CQ_CFG_WRITE (R250): A completion queue configuration write, ignored while jobs are pending. -/
  | cqCfgWrite (q : Fin 1024) (v : W64)
  /-- CQ_CONS_WRITE (R250): A CONS write, taken only between CONS and PROD. -/
  | cqConsWrite (q : Fin 1024) (v : W32)
  /-- STS_ARRIVAL (R267): The session unit takes a segment on the fast path, splits PDUs, or hands it to SLOW_GROUP. -/
  | stsArrival (cl : Fin 16)
  /-- STS_DEPARTURE (R271): The session unit completes digests and sequence numbers of an outbound PDU. -/
  | stsDeparture (cl : Fin 16)
  /-- CONTEXT_FETCH_COMPLETE (R263): A context missing from a session unit's cache arrives from the Coolbox. -/
  | contextFetchComplete (cl : Fin 16) (ctx : BitVec 20)
  /-- OPEN (R274): Job command that opens a WRITE, READ, SWEEP or DECANT job on an engine. -/
  | jobOpen (r : Fin 17) (island : Fin 2) (ctx : BitVec 20)
  /-- ABORT (R274): Job command that aborts an open job. -/
  | jobAbort (r : Fin 17) (island : Fin 2) (ctx : BitVec 20)
  /-- INGEST_SEGMENT (R279): A satchel for the shelf set is shaped, digested and added to the stripe in its ingest engine. -/
  | ingestSegment (island : Fin 2)
  /-- SEC_UNIT_OP (R279): A stripe unit's XTS operation completes in a cipher island. -/
  | secUnitOp (op : SecEnd)
  /-- SHELF_RESPONSE (R281): A shelf response reaches its job, which advances or marks the shard failed. -/
  | shelfResponse
  /-- SHELF_TIMEOUT (R281): A shelf command receives no response within TIMEOUT and its shard fails or is erased. -/
  | shelfTimeout (ctx : BitVec 20) (cmd : BitVec 12)
  /-- SHELF_BUSY_RETRY (R281): A command answered BUSY is retried after 10 µs. -/
  | shelfBusyRetry (ctx : BitVec 20) (cmd : BitVec 12)
  /-- UNIT_ARRIVAL (R286): A unit read from a shelf is checked and attached as a satchel or reported erased. -/
  | unitArrival (link : Fin 6) (ctx : BitVec 20) (cmd : BitVec 12)
  /-- HOST_LINK_UP (R293): A host link trains and its data link layer comes up. -/
  | hostLinkUp (h : Fin 2) (speed : Fin 7) (width : Fin 17) (flit : Bool)
  /-- CONFIG_WRITE (R295): A PCIe configuration write without a row of its own. -/
  | configWrite (h fn : Fin 2) (dw : Fin 1024) (be : BitVec 4) (v : W32)
  /-- BME_CLEAR (R312): Clearing Bus Master Enable stops requests, discards completions and stops PF1 queues. -/
  | bmeClear (h fn : Fin 2)
  /-- INITIATE_FUNCTION_LEVEL_RESET (R313): An FLR write stops requests, kills tags and resets the function and its instances. -/
  | initiateFlr (h fn : Fin 2)
  /-- FLR_COMPLETE (R313): A function-level reset finishes and the function is at reset values. -/
  | flrComplete (h fn : Fin 2)
  /-- PERST_ASSERT (R314): PERSTh_N assertion stops link h, kills tags and resets its functions and instances. -/
  | perstAssert (h : Fin 2)
  /-- PERST_RELEASE (R314): PERSTh_N is released and the link trains and serves configuration requests. -/
  | perstRelease (h : Fin 2)
  /-- HOST_LINK_LOSS (R314): Loss of a host link without PERST has the effects of PERST on requests and instances. -/
  | hostLinkLoss (h : Fin 2)
  /-- CONTROL_WINDOW_ACCESS (R303): A PF0 BAR0 window access becomes one control access, writes limited by WIN_WRITE_EN. -/
  | controlWindowAccess (h fn : Fin 2) (off : BitVec 25) (len : Fin 65) (w : Option W64)
  /-- HOST_COMPLETION (R310): A completion for a non-posted request arrives and is delivered, or discarded as late or failed. -/
  | hostCompletion (h : Fin 2) (tag : BitVec 14) (status : BitVec 3) (poisoned : Bool) (data : List Byte)
  /-- COMPLETION_TIMEOUT (R311): A read reaches its completion timeout, fails to its consumer and its tag is quarantined. -/
  | completionTimeout (h : Fin 2) (tag : BitVec 14)
  /-- TAG_QUARANTINE_EXPIRE (R311): A quarantined or dead tag is freed 2T after its timeout. -/
  | tagQuarantineExpire (h : Fin 2) (tag : BitVec 14)
  /-- INT_CAUSE_CLEAR (R306): A W1C write to PF0.INT_CAUSE, after which level causes set again while they hold. -/
  | intCauseClear (h : Fin 2) (v : W32)
  /-- TRANSMIT_DATA (R371): Host write to MB.TX_DATA appending a word from the manager to firmware. -/
  | transmitData (h : Fin 2) (ch : Fin 16) (w : W32)
  /-- TX_END (R371): Host write to MB.TX_END appending a word and closing the message. -/
  | txEnd (h : Fin 2) (ch : Fin 16) (w : W32)
  /-- RX_DATA (R371): Host read of MB.RX_DATA that removes the next word or sets UNDERFLOW. -/
  | rxData (h : Fin 2) (ch : Fin 16)
  /-- CH_FLUSH (R373): Empties both queues of a mailbox channel and wakes drained-empty waiters. -/
  | chFlush (who : Writer) (ch : Fin 64)
  /-- DOORBELL_TX (R331): A doorbell to a transmit or work ring updates TAIL and ARM after the index checks. -/
  | doorbellTx (h : Fin 2) (inst : Fin 4096) (loc : Fin 256) (len : Nat) (v : W64)
  /-- DOORBELL_BUF (R331): A doorbell to a buffer ring updates TAIL and may let waiting deliveries continue. -/
  | doorbellBuf (h : Fin 2) (inst : Fin 4096) (loc : Fin 256) (len : Nat) (v : W64)
  /-- DOORBELL_CPL (R331): A doorbell to a completion ring frees entries and re-arms the interrupt source. -/
  | doorbellCpl (h : Fin 2) (inst : Fin 4096) (loc : Fin 256) (len : Nat) (v : W64)
  /-- TX_DESCRIPTOR_FETCH (R333): The host island begins reading posted transmit descriptors. -/
  | txDescriptorFetch (inst : Fin 4096) (loc : Fin 256)
  /-- TX_CHAIN_ATTACH (R336): A transmit chain is read whole, validated, segmented if TSO, and attached as satchels. -/
  | txChainAttach (inst : Fin 4096) (loc : Fin 256)
  /-- STARVE_EXPIRE (R343): A frame waiting for buffers or completion room past STARVE is dropped. -/
  | starveExpire (inst : Fin 4096) (loc : Fin 256)
  /-- HEAD_PUBLISH (R328): The device publishes HEAD and STATE into a ring control block. -/
  | headPublish (inst : Fin 4096) (loc : Fin 256) (ring : Fin 3)
  /-- MOD_TIME_EXPIRE (R346): MOD_TIME passes since the first unsignalled event and the source fires. -/
  | modTimeExpire (inst : Fin 4096) (loc : Fin 256) (ring : Fin 3)
  /-- INTR_RATE_REFILL (R347): The instance interrupt bucket refills and held firings are sent. -/
  | intrRateRefill (inst : Fin 4096)
  /-- DEV_INFO (R348): Host command that returns build and format information. -/
  | devInfo (ch : Fin 16) (tag : Byte)
  /-- VI_CREATE (R348): Host command that creates an instance bound to the link. -/
  | viCreate (ch : Fin 16) (tag : Byte) (ws : List W32)
  /-- VI_DESTROY (R348): Host command that destroys a quiesced idle instance and increments its generation. -/
  | viDestroy (ch : Fin 16) (tag : Byte) (ws : List W32)
  /-- VI_DB_STOP (R348): Host command that moves an ACTIVE instance to QUIESCED. -/
  | viDbStop (ch : Fin 16) (tag : Byte) (ws : List W32)
  /-- VI_DB_START (R348): Host command that moves a QUIESCED instance to ACTIVE. -/
  | viDbStart (ch : Fin 16) (tag : Byte) (ws : List W32)
  /-- VI_RESET (R352): Host command that resets an instance under the generation fence. -/
  | viReset (ch : Fin 16) (tag : Byte) (ws : List W32)
  /-- VI_QOS (R348): Host command that sets an instance's shaper or side-scheduler weight. -/
  | viQos (ch : Fin 16) (tag : Byte) (ws : List W32)
  /-- QP_CREATE (R349): Host command that creates a queue pair with its rings disabled. -/
  | qpCreate (ch : Fin 16) (tag : Byte) (ws : List W32)
  /-- QP_DESTROY (R348): Host command that destroys a stopped or disabled queue pair. -/
  | qpDestroy (ch : Fin 16) (tag : Byte) (ws : List W32)
  /-- QP_START (R348): Host command that makes a queue pair RUNNING. -/
  | qpStart (ch : Fin 16) (tag : Byte) (ws : List W32)
  /-- QP_STOP (R348): Host command that stops a queue pair at once. -/
  | qpStop (ch : Fin 16) (tag : Byte) (ws : List W32)
  /-- QP_DRAIN (R348): Host command that drains a queue pair to its current TAIL before stopping it. -/
  | qpDrain (ch : Fin 16) (tag : Byte) (ws : List W32)
  /-- QP_DRAIN_DONE (R348): A draining queue pair reaches its TAIL with no delivery in progress and stops. -/
  | qpDrainDone (inst : Fin 4096) (loc : Fin 256)
  /-- QP_DRAIN_TIMEOUT (R348): The drain limit passes; the queue pair stops and the command ends TIMEOUT. -/
  | qpDrainTimeout (inst : Fin 4096) (loc : Fin 256)
  /-- QP_ABORT (R348): Host command that stops a queue pair and drops its waiting frames. -/
  | qpAbort (ch : Fin 16) (tag : Byte) (ws : List W32)
  /-- INTR_BIND (R348): Host command that binds a ring's interrupt source to an entry. -/
  | intrBind (ch : Fin 16) (tag : Byte) (ws : List W32)
  /-- CLUSTER_RESTART (R348): Host command that restarts a cluster and empties its detection window. -/
  | clusterRestart (ch : Fin 16) (tag : Byte) (ws : List W32)
  /-- CAPTURE_EXPORT (R348): Host command that copies capture records to host memory and advances CONS. -/
  | captureExport (ch : Fin 16) (tag : Byte) (ws : List W32)
  /-- RESET_STALE_DRAINED (R352): STALE reaches zero during a reset and the instance returns to its earlier state. -/
  | resetStaleDrained (inst : Fin 4096)
  /-- RESET_SLOW (R352): 1 ms after a reset STALE is still non-zero and RESET_SLOW is reported. -/
  | resetSlow (inst : Fin 4096)
  /-- FERRY_CH_ENABLE (R355): Writing EN from 0 to 1 enables a Ferry channel with HEAD and TAIL zero. -/
  | ferryChEnable (who : Writer) (ch : Fin 64)
  /-- FERRY_CH_DISABLE (R358): Writing EN = 0 disables a channel, acting as STOP if it runs. -/
  | ferryChDisable (who : Writer) (ch : Fin 64)
  /-- FERRY_CH_DISABLED (R358): The issued beats of a disabled channel complete and EN reads 0. -/
  | ferryChDisabled (ch : Fin 64)
  /-- FERRY_TAIL_WRITE (R357): Writing TAIL hands posted descriptors to a Ferry channel. -/
  | ferryTailWrite (who : Writer) (ch : Fin 64) (tail : BitVec 16)
  /-- START (R355): Resumes a STOPPED channel or begins an observation channel. -/
  | ferryStart (who : Writer) (ch : Fin 64)
  /-- STOP (R355): Ends the current descriptor ABORTED and stops the channel. -/
  | ferryStop (who : Writer) (ch : Fin 64)
  /-- FERRY_BEAT (R366): A Ferry beat completes or fails, and the next beat is issued. -/
  | ferryBeat (ch : Fin 64) (eccBad : Bool)
  /-- HAMPER_LINK_ENABLE (R375): Writing HL.CFG.EN = 1 starts link training. -/
  | hamperLinkEnable (link : Fin 6)
  /-- HAMPER_LINK_UP (R375): Training and the bring-up exchange complete and UP is set. -/
  | hamperLinkUp (link : Fin 6) (unit : Bool) (port : BitVec 4) (serial : W64) (credits : BitVec 40)
  /-- TRAIN_RETRY (R375): UP is not reached by 500 ms and training restarts. -/
  | trainRetry (link : Fin 6)
  /-- HAMPER_LINK_DOWN (R376): A Hamper link is lost; messages fail, credits reset and training restarts. -/
  | hamperLinkDown (link : Fin 6) (cause : Fin 3)
  /-- RETRAIN (R386): Brings a Hamper link down and retrains it. -/
  | retrain (link : Fin 6)
  /-- FLIT_RECEIVE (R377): A flit arrives, is checked and returns credits. -/
  | flitReceive (link : Fin 6) (data : FlitIn)
  /-- HAMPER_MESSAGE_RECEIVE (R383): A whole message arrives and is attached, routed to a job or the pair controller, or put in a firmware ring. -/
  | hamperMessageReceive (link : Fin 6)
  /-- FLIT_SEND (R381): A flit is sent on a virtual channel once a credit is held. -/
  | flitSend (link : Fin 6) (vc : Fin 4)
  /-- HAMPER_VC_STALLED (R382): A VC with waiting messages gets no credit for 100 µs and the link is retrained. -/
  | hamperVcStalled (link : Fin 6) (vc : Fin 4)
  /-- HL_FWTX_TAIL_WRITE (R385): Writing HL.FWTX_TAIL hands firmware messages to the Hamper island. -/
  | hlFwtxTailWrite (link : Fin 6) (tail : BitVec 16)
  /-- CLAIM_REFRESH (R391): Every 250 µs in TAKING, ACTIVE or RELEASING the unit sends CLAIM_ASSERT. -/
  | claimRefresh
  /-- PAIR_STATE (R389): A PAIR_STATE message from the peer updates the pair controller's view. -/
  | pairState
  /-- PAIR_STATE_SEND (R391): Every 100 µs, and on change, the controller sends PAIR_STATE. -/
  | pairStateSend
  /-- HANDOVER_REQ (R397): A peer's request makes the holder release control. -/
  | handoverReq
  /-- HANDOVER_ACK (R397): The peer's acknowledgement makes the requester enter TAKING. -/
  | handoverAck
  /-- HANDOVER_RELEASE (R397): The releasing holder's jobs end or HANDOVER_MS passes and it hands over. -/
  | handoverRelease
  /-- HANDOVER_ACK_TIMEOUT (R397): No acknowledgement within HANDOVER_MS + 10 ms and the requester takes over or abandons. -/
  | handoverAckTimeout
  /-- PAIR_START_TIMEOUT (R391): In STARTING, 1 s passes without a peer and the unit enters TAKING. -/
  | pairStartTimeout
  /-- PAIR_PEER_LOST (R395): A standby sees the active peer's loss and takes over if eligible. -/
  | pairPeerLost
  /-- PAIR_PEER_SILENCE (R395): No PAIR_STATE arrives for 500 µs. -/
  | pairPeerSilence
  /-- PAIR_HOLD_IN_CHANGE (R390): PAIR_HOLD_IN changes level, detecting loss, collision or a wake. -/
  | pairHoldInChange (level : Bool)
  /-- HOLD_SAMPLE_COMPLETE (R390): PAIR_HOLD_IN has been deasserted for 10 µs and PAIR_HOLD_OUT is asserted. -/
  | holdSampleComplete
  /-- HOLD_BACKOFF_EXPIRE (R390): The interlock collision back-off ends and the unit samples again. -/
  | holdBackoffExpire
  /-- ECC_WINDOW_END (R394): A 1 s window ends and the ECC rate trigger is judged. -/
  | eccWindowEnd
  /-- STALEMATE_TRIGGER (R394): CLEARED stays 0 for STALE_MS and the stalemate trigger holds. -/
  | stalemateTrigger (cl : Fin 16)
  /-- HOST_LINK_TRIGGER (R394): A masked host link stays down for 100 ms and the host link trigger holds. -/
  | hostLinkTrigger (h : Fin 2)
  /-- TAKING_TIMEOUT (R396): 5 ms in TAKING; the unit enters ACTIVE or fails the takeover. -/
  | takingTimeout
  /-- FAILBACK_HOLDOFF_EXPIRE (R397): A preferred eligible standby has waited HOLDOFF and starts a failback. -/
  | failbackHoldoffExpire
  /-- EN (R391): PAIR.CTL.EN write that turns pairing on into STARTING, or off. -/
  | pairEn (on : Bool)
  /-- SWAP (R397): Starts a planned handover from an eligible standby. -/
  | pairSwap
  /-- FORCE (R395): Makes a standby that is not eligible enter TAKING. -/
  | pairForce
  /-- POWER_ENTRY_COMPLETE (R417): An entry to P1, P2, P3 or P4 finishes and latched wakes are replayed. -/
  | powerEntryComplete
  /-- WAKE_EVENT (R411): An armed wake source is latched and starts the exit. -/
  | wakeEvent (code : Fin 9)
  /-- WAKE_TIMER (R410): ICT reaches LANTERN.WAKE_TIMER and the TIMER wake fires. -/
  | wakeTimer
  /-- POWER_EXIT_COMPLETE (R417): An exit finishes with banks checked, islands released and the pending request started. -/
  | powerExitComplete (checks : List BankCheck) (parity : Option (Fin 256))
  /-- ISLAND_IDLE_GATE (R406): In P1 an island idle for IDLE µs is clock-gated. -/
  | islandIdleGate (island : Fin 256)
  /-- TRIM_CFG_WRITE (R406): A TRIM_CFG write takes effect in P1 within 200 µs. -/
  | trimCfgWrite (v : W64)
  /-- PORST_ASSERT (R446): PORST_N assertion returns every island to reset. -/
  | porstAssert (writing : Bool)
  /-- PORST_RELEASE (R425): PORST_N release starts the Lantern and the boot sequence. -/
  | porstRelease (sbMode : Bool) (sbAddr : BitVec 2)
  /-- ENV_OUT_OF_SPEC (R425): Boot has waited 100 ms for monitors in range and records the fault. -/
  | envOutOfSpec (monitor : Fin 10) (reading : W32)
  /-- BOOT_MONITORS_READY (R425): Supply and clock monitors read in range and boot proceeds to the fuses. -/
  | bootMonitorsReady (preferred : Option (Fin 2)) (badRow : Option (Fin 256))
  /-- IMAGE_COPY_COMPLETE (R423): The image is copied and hashed, then verified and applied or rejected. -/
  | imageCopyComplete (image : List Byte) (readOk : Bool)
  /-- BOOT_RETRY (R421): Every 10 s after a failed boot both slots are tried again. -/
  | bootRetry (preferred : Option (Fin 2))
  /-- REBOOT (R426): Restarts the device at boot step 3, keeping the Lantern and host links. -/
  | reboot (st : Fin 4)
  /-- IMG_WRITE (R427): Host command that writes image bytes into a flash slot. -/
  | imgWrite (ch : Fin 16) (tag : Byte) (ws : List W32)
  /-- IMG_ACTIVATE (R427): Host command that verifies a slot, selects it and reboots. -/
  | imgActivate (ch : Fin 16) (tag : Byte) (ws : List W32) (image : List Byte) (readOk : Bool)
  /-- ROLLBACK_COMMIT (R427): Host command that advances the anti-rollback counter to the running image. -/
  | rollbackCommit (ch : Fin 16) (tag : Byte) (ws : List W32)
  /-- PROGRAM_ROW (R430): Fuse operation that ORs FUSE_DATA into a row. -/
  | programRow (st : Fin 4) (row : Fin 256)
  /-- ROLLBACK_SET (R424): Fuse operation that advances the anti-rollback counter. -/
  | rollbackSet (st : Fin 4)
  /-- LOAD_PAIR_KEY (R430): Fuse operation that loads PAIR_SECRET into a key slot. -/
  | loadPairKey (st : Fin 4)
  /-- FUSE_PROGRAMMED (R430): A fuse operation completes with its code and record. -/
  | fuseProgrammed (readBackOk : Bool)
  /-- ALARM (R432): A Lantern alarm condition starts zeroisation and fail-closed. -/
  | alarm (code : Fin 6) (source : Byte) (reading : W32)
  /-- KEYSTORE_ZEROISED (R258): Zeroisation of the key store completes and is recorded. -/
  | keystoreZeroised
  /-- THERM_WARN (R431): A sensor reaches 100 °C and THERM_WARN holds. -/
  | thermWarn (sensor : Fin 16) (temp : Byte)
  /-- THERM_TRIP (R431): A sensor reaches 105 °C and THERM_TRIP holds until all fall below 100 °C. -/
  | thermTrip (sensor : Fin 16) (temp : Byte)
  /-- CLEAR (R433): Ends fail-closed when no alarm holds and no tamper was seen. -/
  | alarmClear (st : Fin 4)
  /-- TRAILBOOK_WRITE (R435): A queued record is written to the next Trailbook location, freezing on FATAL. -/
  | trailbookWrite
  /-- TB_TOKEN_REFILL (R435): The Trailbook record bucket refills at a 1 µs boundary. -/
  | tbTokenRefill
  /-- TRAILBOOK_READ (R436): A read of a frozen record marks it read and lowers UNREAD. -/
  | trailbookRead (loc : Fin 32768)
  /-- TB_FREEZE_RELEASE (R436): Writing TB.FREEZE.RELEASE ends a freeze when UNREAD is 0. -/
  | tbFreezeRelease
  /-- TB_FW_CODE (R437): Writing TB.FW_CODE commits a firmware record. -/
  | tbFwCode (who : Writer) (code : BitVec 16) (fatal : Bool)
  /-- TB_STATUS (R437): Sideband command that returns the Trailbook head and freeze words. -/
  | tbStatus
  /-- TB_READ (R437): Sideband command that returns up to four records. -/
  | tbRead (loc : Fin 32768) (count : Fin 5)
  /-- TB_RELEASE (R437): Sideband command that acts as the RELEASE write. -/
  | tbRelease
  /-- ALARM_CONDITION_ENDS (R432): An alarm's condition stops holding (rail back in range, clock present again) and its ACTIVE bit clears, which lets a later CLEAR be accepted. -/
  | alarmConditionEnds (code : Fin 6)
  /-- THERM_TRIP_WITHDRAWN (R431): Every sensor falls below 100 °C, so THERM_TRIP and THERM_WARN end, THERM_N is released and the thermal trigger of self-diagnosis clears. -/
  | thermTripWithdrawn (temps : List Byte)
  /-- MEMORY_RESPONSE (R98): A device-space load, AMO or LOOK result, a control-access response or a store acknowledgement returns after its variable latency and makes the waiting thread ready or raises a load ECC exception. -/
  | memoryResponse (who : Agent) (op : W32) (eccBad : Bool)
  /-- SPILL_WRITE_COMPLETE (R202): A spill page write to the Coolbox completes and frees room in the memory's 256 KiB spill write backlog. -/
  | spillWriteComplete (mem : Fin 32)
  /-- FOLLOWER_REALIGNED (R29): The time follower of an island released from clock gating or power-off in P1 is realigned to the Lantern, after which the island accepts frames again. -/
  | followerRealigned (i : Fin 256)
  /-- UNSUPPORTED_REQUEST (R316): A received TLP outside BAR0, an I/O request, an AtomicOp, an unsupported message or a memory request in D3hot is completed with UR or signalled ERR_NONFATAL and logged. -/
  | unsupportedRequest (h : Fin 2) (fn : Fin 3) (posted : Bool)
  /-- RECEIVER_ERROR (R316): The host link detects a link-layer error such as Receiver Error, Bad TLP, Bad DLLP, Malformed TLP or a replay timeout, discards the TLP where stated and sends ERR_COR or ERR_FATAL. -/
  | receiverError (h : Fin 2) (kind : Fin 12)
deriving DecidableEq, Repr

end Sys2Proof
end

