-- ==== Sys2Proof/WellFormed.lean ====
section
/-! DEFINITION. Which commands are well formed: reserved fields of an instruction's encoding are zero, register ranges
stay within g31, and data that a command brings has a length that the spec allows. Meanings are total and do not rest on
it. -/

namespace Sys2Proof

/-- CLZ, CTZ, POPC and BSWAP have rb = g0 (R66). -/
def unaryOk (rb : BitVec 5) : Bool := rb = 0

/-- A bit field of EXT or INS ends within the register and imm[13] is zero (R68). -/
def bitFieldOk (imm : BitVec 14) : Bool :=
  !imm.getLsbD 13 && decide (imm.toNat % 64 + (imm.toNat / 64 % 64 + 1) ≤ 64)

/-- SGET: imm[13:5] zero, and a pair begins at an even word (R71). -/
def sgetOk (imm : BitVec 14) : Bool := decide (imm.toNat < 32) && !(imm.getLsbD 4 && imm.getLsbD 0)

/-- LOOK's key and result registers end at g31 or below (R82). -/
def lookOk (rd ra : BitVec 5) (klen rcnt : BitVec 2) : Bool :=
  decide (ra.toNat + klen.toNat < 32) && decide (rd.toNat + rcnt.toNat < 32)

/-- AMO acts on spaces 0b00 and 0b01 (R77). -/
def amoOk (space : BitVec 2) : Bool := decide (space.toNat < 2)

/-- A host command's message fits its mailbox queue, word 0 included (R348, R369). -/
def messageOk (ws : List W32) : Bool := decide (ws.length < 16)

/-- Well-formed commands. -/
def Instr.wf : Instr → Bool
  | .clz _ _ _ _ rb => unaryOk rb
  | .ctz _ _ _ _ rb => unaryOk rb
  | .popc _ _ _ _ rb => unaryOk rb
  | .bswap _ _ _ _ rb => unaryOk rb
  | .cmp _ _ _ _ cond _ _ _ => decide (cond.toNat < 8)
  | .pnot _ _ _ _ pb => decide (pb = 0)
  | .shli _ _ _ _ hi _ => decide (hi = 0)
  | .shri _ _ _ _ hi _ => decide (hi = 0)
  | .srai _ _ _ _ hi _ => decide (hi = 0)
  | .roli _ _ _ _ hi _ => decide (hi = 0)
  | .ext _ _ _ _ imm => bitFieldOk imm
  | .ins _ _ _ _ imm => bitFieldOk imm && !imm.getLsbD 12
  | .sget _ _ _ imm => sgetOk imm
  | .ldc _ _ _ _ size _ => decide (2 ≤ size.toNat)
  | .stc _ _ _ _ size _ => decide (2 ≤ size.toNat)
  | .amoAdd _ _ _ _ _ space _ => amoOk space
  | .amoSwap _ _ _ _ _ space _ => amoOk space
  | .amoCas _ _ _ _ _ space _ => amoOk space
  | .amoAnd _ _ _ _ _ space _ => amoOk space
  | .amoOr _ _ _ _ _ space _ => amoOk space
  | .amoMaxu _ _ _ _ _ space _ => amoOk space
  | .amoMinu _ _ _ _ _ space _ => amoOk space
  | .look _ _ rd ra _ klen rcnt _ => lookOk rd ra klen rcnt
  | .registerWrite _ addr wide _ => decide (addr.toNat % (if wide then 8 else 4) = 0)
  | .viCreate _ _ ws => messageOk ws
  | .viDestroy _ _ ws => messageOk ws
  | .viDbStop _ _ ws => messageOk ws
  | .viDbStart _ _ ws => messageOk ws
  | .viReset _ _ ws => messageOk ws
  | .viQos _ _ ws => messageOk ws
  | .qpCreate _ _ ws => messageOk ws
  | .qpDestroy _ _ ws => messageOk ws
  | .qpStart _ _ ws => messageOk ws
  | .qpStop _ _ ws => messageOk ws
  | .qpDrain _ _ ws => messageOk ws
  | .qpAbort _ _ ws => messageOk ws
  | .intrBind _ _ ws => messageOk ws
  | .clusterRestart _ _ ws => messageOk ws
  | .captureExport _ _ ws => messageOk ws
  | .imgWrite _ _ ws => messageOk ws
  | .rollbackCommit _ _ ws => messageOk ws
  | .imgActivate _ _ ws image _ => messageOk ws && decide (image.length ≤ 0x4000000)
  | .imageCopyComplete image _ => decide (image.length ≤ 0x4000000)
  | .thermTripWithdrawn temps => decide (temps.length = 16)
  | .powerExitComplete checks _ => checks.all fun x => decide (x.corrected < 65536)
  | _ => true

end Sys2Proof
end

