-- ==== Sys2Proof/Decode.lean ====
section
/-! DEFINITION. The command that a word spells. The rows of spec/opcode_table.json give no bits, so no word spells a
command; AFV-2 instruction words are decoded where the machine fetches them, in Sys2Proof.Machine.Afv. -/

namespace Sys2Proof

/-- The command of a word of the opcode table: none, since no row gives bits. -/
def decodeTableWord (_nbits _w : Nat) : Option Instr := none

end Sys2Proof
end

