-- ==== Sys2Proof/Machine/Bits.lean ====
section
/-! DEFINITION. Bit fields, byte orders, checksums and the byte-wise field arithmetic that the chapters share. -/

namespace Sys2Proof.Machine

/-- The field of width `n` whose lowest bit is `lo` (R5). -/
def fld (x lo n : Nat) : Nat := x / 2 ^ lo % 2 ^ n

/-- `x` with the field of width `n` at `lo` replaced by `v`, of which the low `n` bits are taken. -/
def setFld (x lo n v : Nat) : Nat :=
  x / 2 ^ (lo + n) * 2 ^ (lo + n) + v % 2 ^ n * 2 ^ lo + x % 2 ^ lo

/-- Bit `i` of `x`. -/
def bit (x i : Nat) : Bool := x / 2 ^ i % 2 = 1

/-- One or zero. -/
def b2n (b : Bool) : Nat := if b then 1 else 0

/-- The number of set bits among the low `n` of `x`. -/
def popcount : Nat → Nat → Nat
  | 0, _ => 0
  | n + 1, x => x % 2 + popcount n (x / 2)

/-- `x` read as a signed number of `n` bits. -/
def sgn (n x : Nat) : Int := if x < 2 ^ (n - 1) then (x : Int) else (x : Int) - 2 ^ n

/-- The low `n` bits of `x` sign-extended to `m` bits. -/
def sext (n m x : Nat) : Nat := if fld x (n - 1) 1 = 1 then x % 2 ^ n + (2 ^ m - 2 ^ n) else x % 2 ^ n

/-- The little-endian number of a byte string: the first byte holds bits [7:0] (R6). -/
def leNat : List Byte → Nat
  | [] => 0
  | b :: bs => b.toNat + 256 * leNat bs

/-- The first `n` bytes of `x`, little-endian. -/
def leBytes : Nat → Nat → List Byte
  | 0, _ => []
  | n + 1, x => BitVec.ofNat 8 x :: leBytes n (x / 256)

/-- The big-endian number of a byte string (network order). -/
def beNat (bs : List Byte) : Nat := bs.foldl (fun a b => a * 256 + b.toNat) 0

/-- `x` as `n` bytes in network order. -/
def beBytes (n x : Nat) : List Byte := (leBytes n x).reverse

/-- The `n` bytes of `bs` from offset `o`, with zero where `bs` has ended. -/
def slice (bs : List Byte) (o n : Nat) : List Byte :=
  (List.range n).map fun i => bs.getD (o + i) 0

/-- `bs` with the bytes from offset `o` replaced by `v`, as far as `bs` reaches. -/
def splice (bs : List Byte) (o : Nat) (v : List Byte) : List Byte :=
  bs.take o ++ (v.take (bs.length - o)) ++ bs.drop (o + v.length)

/-- One shift of a reflected CRC with polynomial `poly`. -/
def crcShift (poly c : Nat) : Nat := if c % 2 = 1 then (c / 2) ^^^ poly else c / 2

/-- One byte into a reflected CRC. -/
def crcByte (poly c : Nat) (b : Byte) : Nat :=
  (List.range 8).foldl (fun c _ => crcShift poly c) (c ^^^ b.toNat)

/-- A byte string into a reflected CRC, without initial or final inversion (R84). -/
def crcUpdate (poly c : Nat) (bs : List Byte) : Nat := bs.foldl (crcByte poly) c

/-- The reflected polynomial of CRC-32C. -/
def polyCrc32c : Nat := 0x82F63B78
/-- The reflected polynomial of CRC-64/NVME. -/
def polyCrc64n : Nat := 0x9A6C9329AC4BC9B5

/-- CRC-32C with initial value and final inversion of all ones (R414, R434). -/
def crc32c (bs : List Byte) : Nat := crcUpdate polyCrc32c 0xFFFFFFFF bs ^^^ 0xFFFFFFFF

/-- CRC-64/NVME with initial value and final inversion of all ones. -/
def crc64n (bs : List Byte) : Nat :=
  crcUpdate polyCrc64n 0xFFFFFFFFFFFFFFFF bs ^^^ 0xFFFFFFFFFFFFFFFF

/-- One byte of CRC-16 with polynomial 0x1021, most significant bit first. -/
def crc16Byte (c : Nat) (b : Byte) : Nat :=
  (List.range 8).foldl (fun c _ => if c / 0x8000 % 2 = 1 then ((c * 2) % 0x10000) ^^^ 0x1021 else (c * 2) % 0x10000)
    (c ^^^ (b.toNat * 256))

/-- The Ethernet FCS polynomial, reflected. -/
def polyCrc32 : Nat := 0xEDB88320

/-- Multiplication by x in GF(2^8) under polynomial 0x11D (R84). -/
def gfX (a : Nat) : Nat := if a < 128 then 2 * a else (2 * a) ^^^ 0x11D

/-- Multiplication in GF(2^8) under polynomial 0x11D, over the low `n` bits of `b`. -/
def gfMulN : Nat → Nat → Nat → Nat
  | 0, _, _ => 0
  | n + 1, a, b => (if b % 2 = 1 then a else 0) ^^^ gfMulN n (gfX a) (b / 2)

/-- Multiplication in GF(2^8) under polynomial 0x11D. -/
def gfMul (a b : Nat) : Nat := gfMulN 8 (a % 256) (b % 256)

/-- The power `a^n` in GF(2^8). -/
def gfPow (a : Nat) : Nat → Nat
  | 0 => 1
  | n + 1 => gfMul a (gfPow a n)

/-- The inverse in GF(2^8); zero for zero. -/
def gfInv (a : Nat) : Nat := gfPow a 254

/-- Byte-wise product of two 64-bit values (GFMUL of R84). -/
def gfMulBytes (a b : W64) : W64 :=
  BitVec.ofNat 64 (leNat ((List.range 8).map fun i =>
    BitVec.ofNat 8 (gfMul (fld a.toNat (8 * i) 8) (fld b.toNat (8 * i) 8))))

/-- The byte string exclusive-or of two byte strings, as long as the first. -/
def xorBytes : List Byte → List Byte → List Byte
  | [], _ => []
  | a :: as, [] => a :: as
  | a :: as, b :: bs => (a ^^^ b) :: xorBytes as bs

/-- The ones-complement sum of 16-bit words in network order, folded to 16 bits (checksums of IP, TCP and UDP). -/
def onesSum (bs : List Byte) : Nat :=
  let rec go : List Byte → Nat
    | [] => 0
    | [a] => a.toNat * 256
    | a :: b :: r => a.toNat * 256 + b.toNat + go r
  let t := go bs
  let f := fun x => x % 65536 + x / 65536
  f (f (f t))

/-- The Internet checksum of a byte string. -/
def inetSum (bs : List Byte) : Nat := 65535 - onesSum bs

/-- The first index of the list whose element satisfies `p`. -/
def firstIdx {α : Type} (p : α → Bool) : List α → Option Nat
  | [] => none
  | a :: as => if p a then some 0 else (firstIdx p as).map (· + 1)

/-- The list with the element at `i` removed. -/
def dropAt {α : Type} : Nat → List α → List α
  | _, [] => []
  | 0, _ :: as => as
  | n + 1, a :: as => a :: dropAt n as

end Sys2Proof.Machine
end

