-- ==== Sys2Proof/Machine/Crypto.lean ====
section
/-! DEFINITION. The ciphers and digests that the spec names by their standards: AES (FIPS 197), GCM and GMAC (SP
800-38D), XTS (IEEE 1619), key wrap (RFC 3394), SHA-256 and SHA-384 (FIPS 180-4), ECDSA over P-384 (FIPS 186). PRESUMED:
the standards' text is not in the spec. -/

namespace Sys2Proof.Machine

/-! ### AES -/

/-- Multiplication by x in GF(2^8) under polynomial 0x11B. -/
def aesX (a : Nat) : Nat := if a < 128 then 2 * a else (2 * a) ^^^ 0x11B

/-- Multiplication in GF(2^8) under 0x11B, over the low `n` bits of `b`. -/
def aesMulN : Nat → Nat → Nat → Nat
  | 0, _, _ => 0
  | n + 1, a, b => (if b % 2 = 1 then a else 0) ^^^ aesMulN n (aesX a) (b / 2)

/-- The inverse in that field: the 254th power by square and multiply. -/
def aesInv (a : Nat) : Nat :=
  (List.range 6).foldl (fun r _ => let q := aesMulN 8 r r; aesMulN 8 q a) a |> fun r => aesMulN 8 r r

/-- A byte rotated left. -/
def rotl8 (a n : Nat) : Nat := a * 2 ^ n % 256 + a / 2 ^ (8 - n)

/-- The S-box. -/
def aesSbox (a : Nat) : Nat :=
  let b := aesInv a
  b ^^^ rotl8 b 1 ^^^ rotl8 b 2 ^^^ rotl8 b 3 ^^^ rotl8 b 4 ^^^ 0x63

/-- The inverse S-box. -/
def aesSboxInv (a : Nat) : Nat := aesInv (rotl8 a 1 ^^^ rotl8 a 3 ^^^ rotl8 a 6 ^^^ 0x05)

/-- Byte-wise exclusive or of two lists of numbers. -/
def xorL (a b : List Nat) : List Nat := List.zipWith (· ^^^ ·) a b

/-- One word of the key schedule from the words so far, newest first. -/
def aesNextWord (nk i rcon : Nat) (ws : List (List Nat)) : List Nat :=
  let t := ws.headD []
  let t := if i % nk = 0 then xorL ((t.drop 1 ++ t.take 1).map aesSbox) [rcon, 0, 0, 0]
    else if nk = 8 ∧ i % nk = 4 then t.map aesSbox else t
  xorL (ws.getD (nk - 1) []) t

/-- The key schedule: `left` further words from word `i` on. -/
def aesExpand : Nat → Nat → Nat → Nat → List (List Nat) → List (List Nat)
  | 0, _, _, _, ws => ws
  | left + 1, nk, i, rcon, ws =>
    aesExpand left nk (i + 1) (if i % nk = 0 then aesX rcon else rcon) (aesNextWord nk i rcon ws :: ws)

/-- A list cut into pieces of `n`, at most `fuel` of them. -/
def chunks {α : Type} : Nat → Nat → List α → List (List α)
  | 0, _, _ => []
  | fuel + 1, n, l => if l.isEmpty then [] else l.take n :: chunks fuel n (l.drop n)

/-- The round keys, 16 numbers each, of a key of 16 or 32 bytes. -/
def aesKeys (key : List Byte) : List (List Nat) :=
  let nk := key.length / 4
  let ws := (chunks nk 4 (key.map (·.toNat))).reverse
  chunks 15 16 (aesExpand (4 * (nk + 7) - nk) nk nk 1 ws).reverse.flatten

/-- ShiftRows, or its inverse. -/
def aesShift (inv : Bool) (st : List Nat) : List Nat :=
  (List.range 16).map fun i => st.getD ((4 * ((i / 4 + (if inv then 4 - i % 4 else i % 4)) % 4)) + i % 4) 0

/-- MixColumns with the first row of its matrix. -/
def aesMix (row st : List Nat) : List Nat :=
  (List.range 16).map fun i =>
    (List.range 4).foldl (fun x j => x ^^^ aesMulN 8 (st.getD (i / 4 * 4 + j) 0) (row.getD ((j + 4 - i % 4) % 4) 0)) 0

/-- AES encryption of one block under round keys. -/
def aesEncWith (ks : List (List Nat)) (blk : List Byte) : List Byte :=
  let n := ks.length - 1
  let st := xorL (blk.map (·.toNat)) (ks.getD 0 [])
  let st := (List.range n).foldl (fun st r =>
    let st := aesShift false (st.map aesSbox)
    xorL (if r + 1 = n then st else aesMix [2, 3, 1, 1] st) (ks.getD (r + 1) [])) st
  st.map (BitVec.ofNat 8)

/-- AES decryption of one block under round keys. -/
def aesDecWith (ks : List (List Nat)) (blk : List Byte) : List Byte :=
  let n := ks.length - 1
  let st := xorL (blk.map (·.toNat)) (ks.getD n [])
  let st := (List.range n).foldl (fun st r =>
    let st := xorL ((aesShift true st).map aesSboxInv) (ks.getD (n - 1 - r) [])
    if r + 1 = n then st else aesMix [14, 11, 13, 9] st) st
  st.map (BitVec.ofNat 8)

/-- AES encryption of one block. -/
def aesEnc (key blk : List Byte) : List Byte := aesEncWith (aesKeys key) blk

/-! ### GCM and GMAC -/

/-- Multiplication in the field of GHASH; the first bit of a block is its most significant. -/
def ghashMul (x y : Nat) : Nat :=
  ((List.range 128).foldl (fun (zv : Nat × Nat) i =>
    (if y / 2 ^ (127 - i) % 2 = 1 then zv.1 ^^^ zv.2 else zv.1,
     if zv.2 % 2 = 1 then (zv.2 / 2) ^^^ (0xE1 * 2 ^ 120) else zv.2 / 2)) (0, x)).1

/-- Bytes padded with zeros to a multiple of 16. -/
def pad16 (bs : List Byte) : List Byte := bs ++ List.replicate ((16 - bs.length % 16) % 16) 0

/-- GHASH of additional data and ciphertext under the hash key. -/
def ghash (h : Nat) (aad ct : List Byte) : Nat :=
  let all := pad16 aad ++ pad16 ct ++ beBytes 8 (8 * aad.length) ++ beBytes 8 (8 * ct.length)
  (chunks (all.length / 16) 16 all).foldl (fun z b => ghashMul (z ^^^ beNat b) h) 0

/-- Counter mode from counter `n` of a 96-bit nonce. -/
def gcmCtr (ks : List (List Nat)) (iv : List Byte) (n : Nat) (bs : List Byte) : List Byte :=
  let bl := chunks ((bs.length + 15) / 16) 16 bs
  ((List.range bl.length).map fun i => xorBytes (bl.getD i []) (aesEncWith ks (iv ++ beBytes 4 (n + i)))).flatten

/-- The 16-byte tag of GCM. -/
def gcmTag (ks : List (List Nat)) (iv aad ct : List Byte) : List Byte :=
  let h := beNat (aesEncWith ks (List.replicate 16 0))
  xorBytes (beBytes 16 (ghash h aad ct)) (aesEncWith ks (iv ++ beBytes 4 1))

/-- GCM encryption: ciphertext and tag. -/
def gcmSeal (key iv aad pt : List Byte) : List Byte × List Byte :=
  let ks := aesKeys key
  let ct := gcmCtr ks iv 2 pt
  (ct, gcmTag ks iv aad ct)

/-- GCM decryption: plaintext, and whether the tag matches. -/
def gcmOpen (key iv aad ct tag : List Byte) : List Byte × Bool :=
  let ks := aesKeys key
  (gcmCtr ks iv 2 ct, gcmTag ks iv aad ct == tag)

/-! ### XTS -/

/-- The tweak times α, as a little-endian number. -/
def xtsAlpha (t : Nat) : Nat := if t / 2 ^ 127 = 1 then (2 * t % 2 ^ 128) ^^^ 0x87 else 2 * t

/-- The blocks of a data unit, each under the next power of α. -/
def xtsBlocks (f : List Byte → List Byte) : Nat → List (List Byte) → List Byte
  | _, [] => []
  | t, b :: bs =>
    let tb := leBytes 16 t
    xorBytes (f (xorBytes b tb)) tb ++ xtsBlocks f (xtsAlpha t) bs

/-- One data unit with tweak value `i` under key 1 and key 2. -/
def xtsUnit (enc : Bool) (key1 key2 : List Byte) (i : Nat) (bs : List Byte) : List Byte :=
  let ks := aesKeys key1
  let t := leNat (aesEnc key2 (leBytes 16 i))
  xtsBlocks (if enc then aesEncWith ks else aesDecWith ks) t (chunks (bs.length / 16) 16 bs)

/-! ### Key wrap -/

/-- One step of wrapping: A with the blocks, and the step number. -/
def kwStep (ks : List (List Nat)) (n : Nat) (s : List Byte × List (List Byte)) (t : Nat) : List Byte × List (List Byte) :=
  let i := t % n
  let b := aesEncWith ks (s.1 ++ s.2.getD i [])
  (xorBytes (b.take 8) (beBytes 8 (t + 1)), s.2.set i (b.drop 8))

/-- One step of unwrapping. -/
def kwUnstep (ks : List (List Nat)) (n : Nat) (s : List Byte × List (List Byte)) (t : Nat) : List Byte × List (List Byte) :=
  let i := t % n
  let b := aesDecWith ks (xorBytes s.1 (beBytes 8 (t + 1)) ++ s.2.getD i [])
  (b.take 8, s.2.set i (b.drop 8))

/-- The default initial value. -/
def kwIv : List Byte := List.replicate 8 0xA6

/-- Key wrap of a multiple of 8 bytes. -/
def kwWrap (key p : List Byte) : List Byte :=
  let ks := aesKeys key
  let n := p.length / 8
  let r := (List.range (6 * n)).foldl (kwStep ks n) (kwIv, chunks n 8 p)
  r.1 ++ r.2.flatten

/-- Key unwrap; none where the integrity check fails. -/
def kwUnwrap (key c : List Byte) : Option (List Byte) :=
  let ks := aesKeys key
  let n := c.length / 8 - 1
  let r := (List.range (6 * n)).reverse.foldl (kwUnstep ks n) (c.take 8, chunks n 8 (c.drop 8))
  if r.1 = kwIv then some r.2.flatten else none

/-! ### SHA-2 -/

/-- The greatest number below 2^n whose `e`-th power is at most `x`. -/
def iroot (e x : Nat) : Nat → Nat → Nat
  | 0, acc => acc
  | n + 1, acc => if (acc + 2 ^ n) ^ e ≤ x then iroot e x n (acc + 2 ^ n) else iroot e x n acc

/-- The first 80 primes. -/
def shaPrimes : List Nat := (List.range 410).filter fun p => decide (2 ≤ p) && (List.range 21).all fun d => d < 2 || p ≤ d || p % d ≠ 0

/-- The first 64 bits of the fraction of the square root (2) or cube root (3) of `p`. -/
def rootFrac (e p : Nat) : Nat := iroot e (p * 2 ^ (64 * e)) 70 0 % 2 ^ 64

/-- The parameters of a SHA-2: word width, rounds, and the rotations of its four sigmas (the last of a small one is a
shift). -/
structure Sha where
  w : Nat
  rounds : Nat
  big0 : List Nat
  big1 : List Nat
  small0 : List Nat
  small1 : List Nat
deriving DecidableEq, Repr

/-- SHA-256. -/
def sha256p : Sha := ⟨32, 64, [2, 13, 22], [6, 11, 25], [7, 18, 3], [17, 19, 10]⟩
/-- SHA-512, and with its own initial value SHA-384. -/
def sha512p : Sha := ⟨64, 80, [28, 34, 39], [14, 18, 41], [1, 8, 7], [19, 61, 6]⟩

/-- Rotation right in `w` bits. -/
def rotr (w x n : Nat) : Nat := x / 2 ^ n + x % 2 ^ n * 2 ^ (w - n)

/-- A large sigma. -/
def Sha.big (p : Sha) (r : List Nat) (x : Nat) : Nat :=
  rotr p.w x (r.getD 0 0) ^^^ rotr p.w x (r.getD 1 0) ^^^ rotr p.w x (r.getD 2 0)
/-- A small sigma. -/
def Sha.small (p : Sha) (r : List Nat) (x : Nat) : Nat :=
  rotr p.w x (r.getD 0 0) ^^^ rotr p.w x (r.getD 1 0) ^^^ x / 2 ^ r.getD 2 0

/-- The message schedule, newest word first. -/
def Sha.schedule (p : Sha) : Nat → List Nat → List Nat
  | 0, ws => ws
  | n + 1, ws =>
    let x := (p.small p.small1 (ws.getD 1 0) + ws.getD 6 0 + p.small p.small0 (ws.getD 14 0) + ws.getD 15 0) % 2 ^ p.w
    p.schedule n (x :: ws)

/-- One block into the digest. -/
def Sha.block (p : Sha) (ks : List Nat) (hs : List Nat) (blk : List Byte) : List Nat :=
  let ws := (p.schedule (p.rounds - 16) ((chunks 16 (p.w / 8) blk).map beNat).reverse).reverse
  let m := 2 ^ p.w
  let r := (List.zip ks ws).foldl (fun (v : List Nat) kw =>
    match v with
    | [a, b, c, d, e, f, g, h] =>
      let ch := (e &&& f) ^^^ ((m - 1 - e) &&& g)
      let maj := (a &&& b) ^^^ (a &&& c) ^^^ (b &&& c)
      let t1 := h + p.big p.big1 e + ch + kw.1 + kw.2
      let t2 := p.big p.big0 a + maj
      [(t1 + t2) % m, a, b, c, (d + t1) % m, e, f, g]
    | _ => v) hs
  List.zipWith (fun a b => (a + b) % m) hs r

/-- The digest of a message under an initial value. -/
def Sha.digest (p : Sha) (iv : List Nat) (msg : List Byte) : List Byte :=
  let bs := 2 * p.w
  let z := (bs + (bs - p.w / 4 - 1) - msg.length % bs) % bs
  let all := msg ++ [0x80] ++ List.replicate z 0 ++ beBytes (p.w / 4) (8 * msg.length)
  let ks := ((shaPrimes.take p.rounds).map (rootFrac 3)).map (· / 2 ^ (64 - p.w))
  ((chunks (all.length / bs) bs all).foldl (p.block ks) iv).flatMap (beBytes (p.w / 8))

/-- SHA-256. -/
def sha256 (msg : List Byte) : List Byte :=
  sha256p.digest ((shaPrimes.take 8).map fun p => rootFrac 2 p / 2 ^ 32) msg

/-- SHA-384. -/
def sha384 (msg : List Byte) : List Byte :=
  (sha512p.digest (((shaPrimes.drop 8).take 8).map (rootFrac 2)) msg).take 48

/-! ### ECDSA over P-384 -/

/-- The field prime. -/
def p384 : Nat := 2 ^ 384 - 2 ^ 128 - 2 ^ 96 + 2 ^ 32 - 1
/-- The order of the base point. -/
def n384 : Nat := 0xFFFFFFFFFFFFFFFFFFFFFFFFFFFFFFFFFFFFFFFFFFFFFFFFC7634D81F4372DDF581A0DB248B0A77AECEC196ACCC52973
/-- The coefficient b of the curve; a is −3. -/
def b384 : Nat := 0xB3312FA7E23EE7E4988E056BE3F82D19181D9C6EFE8141120314088F5013875AC656398D8A2ED19D2A85C8EDD3EC2AEF
/-- The base point. -/
def g384 : Nat × Nat :=
  (0xAA87CA22BE8B05378EB1C71EF320AD746E1D3B628BA79B9859F741E082542A385502F25DBF55296C3A545E3872760AB7,
   0x3617DE4A96262C6F5D9E98BF9292DC29F8F41DBD289A147CE9DA3113B5F0B8C00A60B1CE1D7E819D7A431D7C90EA0E5F)

/-- A power modulo `m`, over the low `n` bits of the exponent. -/
def powMod (m : Nat) : Nat → Nat → Nat → Nat
  | 0, _, _ => 1 % m
  | n + 1, a, e => (if e % 2 = 1 then a else 1) * powMod m n (a * a % m) (e / 2) % m

/-- The inverse modulo a prime of 384 bits. -/
def invMod (m a : Nat) : Nat := powMod m 384 (a % m) (m - 2)

/-- Addition of points of the curve; none is the point at infinity. -/
def ecAdd : Option (Nat × Nat) → Option (Nat × Nat) → Option (Nat × Nat)
  | none, q => q
  | p, none => p
  | some (x1, y1), some (x2, y2) =>
    let m := p384
    if x1 = x2 ∧ (y1 + y2) % m = 0 then none else
      let l := if x1 = x2 then (3 * x1 * x1 + (m - 3)) * invMod m (2 * y1) % m
        else (y2 + m - y1) * invMod m (x2 + m - x1) % m
      let x := (l * l + 2 * m - x1 - x2) % m
      some (x, (l * (x1 + m - x) + m - y1) % m)

/-- A multiple of a point, over the low `n` bits of the factor. -/
def ecMul : Nat → Nat → Option (Nat × Nat) → Option (Nat × Nat)
  | 0, _, _ => none
  | n + 1, k, p => ecAdd (if k % 2 = 1 then p else none) (ecMul n (k / 2) (ecAdd p p))

/-- ECDSA verification of a 48-byte digest: public key X ‖ Y and signature r ‖ s, 96 bytes each, big-endian. -/
def ecdsaVerify (pub digest sig : List Byte) : Bool :=
  let x := beNat (slice pub 0 48); let y := beNat (slice pub 48 48)
  let r := beNat (slice sig 0 48); let t := beNat (slice sig 48 48)
  let m := p384
  let ok := decide (x < m ∧ y < m) && decide (y * y % m = (x * x * x + (m - 3) * x + b384) % m)
    && decide (0 < r ∧ r < n384 ∧ 0 < t ∧ t < n384)
  if !ok then false else
    let w := invMod n384 t
    let e := beNat (digest.take 48)
    match ecAdd (ecMul 384 (e * w % n384) (some g384)) (ecMul 384 (r * w % n384) (some (x, y))) with
    | none => false
    | some (a, _) => a % n384 = r

end Sys2Proof.Machine
end

