-- ==== Sys2Proof/Config.lean ====
section
/-! DEFINITION. What an implementation fixes and what the spec leaves open: constants without a value. Nothing in the
model or in a statement can learn a value of theirs, so whatever is proved holds for every value. -/

namespace Sys2Proof.Config

/-- The 64-bit handle that GETW and NEWS write for a frame (R90 names a handle and gives it no form). -/
opaque frameHandle : Nat → W64

/-- A byte that the spec leaves undefined, fresh for each number (R366: destination bytes of a failed beat). -/
opaque freeByte : Nat → Byte

/-- A 32-bit value that the spec leaves open, fresh for each number. -/
opaque freeWord : Nat → W32

/-- Whether segment `i` of the `n`-th cell read bears an uncorrectable error (R192, R194: where errors strike is open). -/
opaque cellEcc : Nat → Nat → Bool

/-- Fuse rows 198, 199, 201 and 202 as they left the factory: SERIAL and MAC_BASE (R428, R451). -/
opaque shippedFuse : Nat → W32

/-- The word at which the boot ROM sets a steward's EVEC (R91: "set by boot ROM"). -/
opaque bootEvec : W32

end Sys2Proof.Config
end

