-- ==== Sys2Proof/Machine/RegMap.lean ====
section
/-! DEFINITION. The control-register map (R7, R8, R10, R18 and the register tables of every chapter): one row per
register or array of registers, with its island, offset, strides, words, fields, access codes and reset values; the
address of each register; the bits of each field. -/

namespace Sys2Proof.Machine

/-- Access codes of R8. `wos` is a write-only field whose value the block keeps for its own use (SALT of R245). -/
inductive Acc where
  | ro | rw | w1c | wo | wos
deriving DecidableEq, Repr

/-- What a write of the register does beyond its access codes: `plain` nothing, any other the named effect. -/
inductive WriteKind where
  | timeCtl
  | plain
  | timeAddend
  | pwrMode
  | trimCfg
  | tbView
  | tbFreeze
  | tbFwData
  | tbFwCode
  | bootCtl
  | alarmCtl
  | fuseCmd
  | fuseRow
  | portMode
  | portSubCfg
  | portPfcWd
  | ptpView
  | ptpPop
  | pipeProfile
  | pipeSlotTbl
  | pipeProg
  | pipeTable
  | pipeSubportCfg
  | pipeReorderCfg
  | shaperCfgK
  | shaperCfg
  | queueCfg
  | queueView
  | tmSubCfg
  | polCfg
  | polView
  | shaperView
  | fmtGen
  | tunProfile
  | memCfg
  | spillCfg
  | spillView
  | cbRegion
  | fabAge
  | capCfg
  | capBase
  | threadFault
  | staleCtl
  | ferryCfg
  | ferryTail
  | ferryCtl
  | chFlush
  | ksStage
  | ksBlock
  | ksCmd
  | ksChan
  | ciphIslandCfg
  | cqCfg
  | cqCons
  | jobCmd
  | devStatus
  | intCause
  | intEn
  | tagView
  | hlCfg
  | creditInit
  | hlRingCfg
  | fwtxTail
  | pairCfg
  | pairDiagCfg
  | pairCtl
  | pairFwState
deriving DecidableEq, Repr

/-- A field: its lowest bit, counted from bit 0 of the register's first word, its width, access code and reset. -/
structure FieldDesc where
  lo : Nat
  width : Nat
  acc : Acc
  reset : Nat
deriving DecidableEq, Repr

/-- A register or an array of registers: first island and how many islands hold it, offset, (stride, count) of each
index from the outermost, words, how many words one write takes together (R18), the effect of a write, its fields. -/
structure RegDesc where
  island : Nat
  islands : Nat
  offset : Nat
  dims : List (Nat × Nat)
  words : Nat
  group : Nat
  kind : WriteKind
  fields : List FieldDesc
deriving DecidableEq, Repr

/-- The place of a field in its register: lowest bit and width. -/
structure Fld where
  lo : Nat
  width : Nat
deriving DecidableEq, Repr

/-- The control address of `offset` in island `i` (R18). -/
def ctlAddr (i offset : Nat) : Nat := i * 0x1000000 + offset

/-- Registers of the Lantern islands, part 0. -/
def regsLantern0 : List RegDesc :=
   -- LANTERN.TIME_CTL (R30)
   [⟨0x0, 1, 0x100, [], 1, 1, .timeCtl, [⟨0, 1, .wo, 0⟩, ⟨1, 1, .wo, 0⟩, ⟨2, 1, .ro, 0⟩]⟩,
   -- LANTERN.TIME_SNAP (R30)
    ⟨0x0, 1, 0x104, [], 5, 1, .plain, [⟨0, 16, .ro, 0⟩, ⟨32, 64, .ro, 0⟩, ⟨96, 64, .ro, 0⟩]⟩,
   -- LANTERN.TIME_ADDEND (R30)
    ⟨0x0, 1, 0x118, [], 1, 1, .timeAddend, [⟨0, 32, .rw, 0x28000000⟩]⟩,
   -- LANTERN.TIME_STEP (R30)
    ⟨0x0, 1, 0x120, [], 2, 1, .plain, [⟨0, 64, .rw, 0⟩]⟩,
   -- LANTERN.BOOT_STATUS (R426)
    ⟨0x0, 1, 0x140, [], 1, 1, .plain, [⟨0, 1, .ro, 0⟩, ⟨1, 1, .ro, 0⟩, ⟨2, 1, .ro, 0⟩, ⟨3, 8, .ro, 0⟩, ⟨11, 8, .ro, 0⟩, ⟨19, 4, .ro, 0⟩]⟩,
   -- LANTERN.ALARM_STATUS (R433)
    ⟨0x0, 1, 0x180, [], 1, 1, .plain, [⟨0, 5, .ro, 0⟩, ⟨5, 5, .ro, 0⟩, ⟨10, 1, .ro, 0⟩, ⟨11, 1, .ro, 0⟩, ⟨12, 1, .ro, 0⟩, ⟨16, 8, .ro, 0⟩]⟩,
   -- LANTERN.PWR_MODE (R409)
    ⟨0x0, 1, 0x200, [], 1, 1, .pwrMode, [⟨0, 3, .rw, 0⟩]⟩,
   -- LANTERN.PWR_STATUS (R409)
    ⟨0x0, 1, 0x204, [], 1, 1, .plain, [⟨0, 3, .ro, 0⟩, ⟨3, 1, .ro, 0⟩, ⟨4, 3, .ro, 0⟩, ⟨7, 1, .ro, 0⟩, ⟨8, 3, .ro, 0⟩, ⟨16, 4, .ro, 0⟩]⟩,
   -- LANTERN.WAKE_EN (R412)
    ⟨0x0, 1, 0x208, [], 1, 1, .plain, [⟨0, 1, .rw, 0⟩, ⟨1, 1, .rw, 0⟩, ⟨2, 1, .rw, 1⟩, ⟨3, 1, .rw, 1⟩, ⟨4, 1, .rw, 0⟩, ⟨5, 1, .rw, 0⟩]⟩,
   -- LANTERN.WAKE_PORTS (R412)
    ⟨0x0, 1, 0x20c, [], 1, 1, .plain, [⟨0, 32, .rw, 0⟩]⟩,
   -- LANTERN.WAKE_TIMER (R412)
    ⟨0x0, 1, 0x210, [], 2, 1, .plain, [⟨0, 64, .rw, 0⟩]⟩,
   -- LANTERN.WAKE_LATCH (R412)
    ⟨0x0, 1, 0x218, [], 1, 1, .plain, [⟨0, 8, .w1c, 0⟩, ⟨8, 5, .ro, 0⟩, ⟨13, 3, .ro, 0⟩, ⟨16, 4, .ro, 0⟩]⟩]

/-- Registers of the Lantern islands, part 1. -/
def regsLantern1 : List RegDesc :=
   -- LANTERN.TRIM_CFG (R409)
   [⟨0x0, 1, 0x220, [], 2, 2, .trimCfg, [⟨0, 32, .rw, 0⟩, ⟨32, 6, .rw, 0⟩, ⟨38, 10, .rw, 0xa⟩]⟩,
   -- LANTERN.RET_SEL[w] (R416)
    ⟨0x0, 1, 0x300, [(0x4, 5)], 1, 1, .plain, [⟨0, 32, .rw, 0xffffffff⟩]⟩,
   -- LANTERN.RET_SEL[5] (R416)
    ⟨0x0, 1, 0x314, [], 1, 1, .plain, [⟨0, 21, .rw, 0x1fffff⟩]⟩,
   -- LANTERN.RET_STATUS[b] (R416)
    ⟨0x0, 1, 0x800, [(0x4, 181)], 1, 1, .plain, [⟨0, 1, .w1c, 0⟩, ⟨1, 1, .w1c, 0⟩, ⟨2, 1, .ro, 0⟩, ⟨3, 1, .ro, 0⟩, ⟨16, 16, .ro, 0⟩]⟩,
   -- TB.HEAD (R437)
    ⟨0x0, 1, 0x1000, [], 1, 1, .tbView, [⟨0, 32, .ro, 0⟩]⟩,
   -- TB.HEAD_LOC (R437)
    ⟨0x0, 1, 0x1004, [], 1, 1, .tbView, [⟨0, 15, .ro, 0⟩]⟩,
   -- TB.FREEZE (R437)
    ⟨0x0, 1, 0x1008, [], 1, 1, .tbFreeze, [⟨0, 1, .ro, 0⟩, ⟨1, 15, .ro, 0⟩, ⟨16, 13, .ro, 0⟩, ⟨29, 1, .wo, 0⟩]⟩,
   -- TB.LOST (R437)
    ⟨0x0, 1, 0x100c, [], 1, 1, .plain, [⟨0, 32, .ro, 0⟩]⟩,
   -- TB.MISSED (R437)
    ⟨0x0, 1, 0x1010, [], 1, 1, .plain, [⟨0, 32, .ro, 0⟩]⟩,
   -- TB.FW_DATA[w] (R437)
    ⟨0x0, 1, 0x1040, [(0x4, 10)], 1, 1, .tbFwData, [⟨0, 32, .wo, 0⟩]⟩,
   -- TB.FW_CODE (R437)
    ⟨0x0, 1, 0x1068, [], 1, 1, .tbFwCode, [⟨0, 16, .wo, 0⟩, ⟨16, 1, .wo, 0⟩]⟩,
   -- LANTERN.BOOT_CTL (R426)
    ⟨0x0, 1, 0x800100, [], 1, 1, .bootCtl, [⟨0, 2, .rw, 0⟩, ⟨2, 1, .wo, 0⟩]⟩]

/-- Registers of the Lantern islands, part 2. -/
def regsLantern2 : List RegDesc :=
   -- LANTERN.ALARM_CTL (R433)
   [⟨0x0, 1, 0x800180, [], 1, 1, .alarmCtl, [⟨0, 1, .wo, 0⟩]⟩,
   -- LANTERN.FUSE_CMD (R430)
    ⟨0x0, 1, 0x800200, [], 1, 1, .fuseCmd, [⟨0, 8, .wo, 0⟩, ⟨8, 2, .wo, 0⟩]⟩,
   -- LANTERN.FUSE_DATA (R430)
    ⟨0x0, 1, 0x800204, [], 1, 1, .plain, [⟨0, 32, .rw, 0⟩]⟩,
   -- LANTERN.FUSE_RESULT (R430)
    ⟨0x0, 1, 0x800208, [], 1, 1, .plain, [⟨0, 1, .ro, 0⟩, ⟨1, 2, .ro, 0⟩]⟩,
   -- LANTERN.KS_GFLOOR[b] (R259)
    ⟨0x0, 1, 0x800400, [(0x4, 64)], 1, 1, .plain, [⟨0, 32, .ro, 0⟩]⟩,
   -- LANTERN.FUSE_ROW[r] (R429)
    ⟨0x0, 1, 0x801000, [(0x4, 256)], 1, 1, .fuseRow, [⟨0, 32, .ro, 0⟩]⟩]

/-- Every register of the Lantern islands. -/
def regsLantern : List RegDesc := regsLantern0 ++ regsLantern1 ++ regsLantern2

/-- Registers of the Port islands, part 0. -/
def regsPort0 : List RegDesc :=
   -- PORT.MODE (R139)
   [⟨0x1, 32, 0x0, [], 1, 1, .portMode, [⟨0, 2, .rw, 0⟩, ⟨2, 1, .rw, 1⟩, ⟨3, 1, .rw, 0⟩, ⟨8, 8, .rw, 0⟩]⟩,
   -- PORT.STATUS (R139)
    ⟨0x1, 32, 0x4, [], 1, 1, .plain, [⟨0, 8, .ro, 0⟩, ⟨8, 8, .ro, 0⟩, ⟨16, 8, .w1c, 0⟩]⟩,
   -- PORT.SUB_CFG[s] (R139)
    ⟨0x1, 32, 0x1000, [(0x100, 8)], 2, 1, .portSubCfg, [⟨0, 14, .rw, 0x5ee⟩, ⟨14, 1, .rw, 0⟩, ⟨16, 8, .rw, 4⟩, ⟨24, 8, .rw, 0⟩, ⟨32, 8, .rw, 0⟩, ⟨40, 1, .rw, 0⟩]⟩,
   -- PORT.PFC_WD[s] (R147)
    ⟨0x1, 32, 0x1008, [(0x100, 8)], 1, 1, .portPfcWd, [⟨0, 16, .rw, 0x3e8⟩, ⟨16, 16, .rw, 0x3e8⟩]⟩,
   -- PORT.PFC_STALL[s] (R147)
    ⟨0x1, 32, 0x100c, [(0x100, 8)], 1, 1, .plain, [⟨0, 8, .ro, 0⟩, ⟨8, 8, .w1c, 0⟩]⟩,
   -- PORT.CNT[s][c] (R142)
    ⟨0x1, 32, 0x2000, [(0x100, 8), (0x8, 32)], 2, 1, .plain, [⟨0, 40, .ro, 0⟩]⟩,
   -- PORT.CNT_HALF[s] (R142)
    ⟨0x1, 32, 0x2800, [(0x4, 8)], 1, 1, .plain, [⟨0, 32, .w1c, 0⟩]⟩,
   -- PORT.PTP_CFG (R151)
    ⟨0x1, 32, 0x100, [], 1, 1, .plain, [⟨0, 1, .rw, 0⟩, ⟨1, 1, .rw, 0⟩, ⟨4, 12, .rw, 0⟩, ⟨16, 12, .rw, 0⟩]⟩,
   -- PORT.PTP_TXTS (R151)
    ⟨0x1, 32, 0x110, [], 4, 1, .ptpView, [⟨0, 64, .ro, 0⟩, ⟨64, 1, .ro, 0⟩, ⟨65, 3, .ro, 0⟩, ⟨68, 4, .ro, 0⟩, ⟨72, 8, .ro, 0⟩, ⟨80, 16, .ro, 0⟩, ⟨96, 1, .ro, 0⟩]⟩,
   -- PORT.PTP_POP (R151)
    ⟨0x1, 32, 0x120, [], 1, 1, .ptpPop, [⟨0, 1, .wo, 0⟩]⟩,
   -- PORT.WAKE_CFG (R154)
    ⟨0x1, 32, 0x200, [], 1, 1, .plain, [⟨0, 1, .rw, 0⟩, ⟨1, 1, .rw, 0⟩]⟩,
   -- PORT.WAKE_PAT[i] (R154)
    ⟨0x1, 32, 0x400, [(0x20, 16)], 8, 1, .plain, [⟨0, 128, .rw, 0⟩, ⟨128, 16, .rw, 0⟩, ⟨144, 1, .rw, 0⟩]⟩]

/-- Every register of the Port islands. -/
def regsPort : List RegDesc := regsPort0

/-- Registers of the Ingress islands, part 0. -/
def regsIngress0 : List RegDesc :=
   -- PIPE.PROFILE[p] (R163)
   [⟨0x21, 32, 0x200, [(0x8, 16)], 2, 2, .pipeProfile, [⟨0, 48, .rw, 0⟩, ⟨48, 12, .rw, 0⟩]⟩,
   -- PIPE.SLOT_TBL[k][n] (R163)
    ⟨0x21, 32, 0x4000, [(0x100, 12), (0x10, 16)], 4, 1, .pipeSlotTbl, ((List.range 15).map fun i => [⟨8 * i, 5, .rw, 0⟩, ⟨8 * i + 7, 1, .rw, 0⟩]).flatten⟩,
   -- PIPE.PROG[k][n][i] (R163)
    ⟨0x21, 32, 0x800000, [(0x1000, 12), (0x80, 16), (0x4, 32)], 1, 1, .pipeProg, [⟨0, 32, .rw, 0⟩]⟩,
   -- PIPE.TABLE[t] (R172)
    ⟨0x21, 32, 0x600, [(0x8, 32)], 2, 2, .pipeTable, [⟨0, 13, .rw, 0⟩, ⟨16, 5, .rw, 0⟩, ⟨21, 2, .rw, 0⟩, ⟨23, 2, .rw, 0⟩, ⟨25, 1, .rw, 0⟩, ⟨26, 1, .rw, 0⟩, ⟨32, 32, .rw, 0⟩]⟩,
   -- PIPE.RCMP[k][i] (R174)
    ⟨0x21, 32, 0x1000, [(0x200, 12), (0x8, 64)], 2, 2, .plain, [⟨0, 16, .rw, 0⟩, ⟨16, 16, .rw, 0⟩, ⟨32, 4, .rw, 0⟩, ⟨36, 1, .rw, 0⟩]⟩,
   -- PIPE.SUBPORT_CFG[j][s] (R175)
    ⟨0x21, 16, 0x100, [(0x20, 2), (0x4, 8)], 1, 1, .pipeSubportCfg, [⟨0, 12, .rw, 0⟩, ⟨12, 4, .rw, 0⟩, ⟨16, 2, .rw, 1⟩, ⟨18, 9, .rw, 0⟩]⟩,
   -- PIPE.SPREAD[s] (R180)
    ⟨0x21, 16, 0x3000, [(0x20, 16)], 8, 8, .plain, [⟨0, 128, .rw, 0⟩, ⟨128, 4, .rw, 0⟩, ⟨132, 1, .rw, 0⟩, ⟨133, 1, .rw, 0⟩, ⟨134, 1, .rw, 0⟩]⟩,
   -- PIPE.REORDER_CFG (R180)
    ⟨0x21, 16, 0x80, [], 1, 1, .pipeReorderCfg, [⟨0, 10, .rw, 0x64⟩]⟩,
   -- PIPE.CNT[c] (R181)
    ⟨0x21, 32, 0x800, [(0x8, 11)], 2, 1, .plain, [⟨0, 40, .ro, 0⟩]⟩,
   -- POL.CFG[n] (ingress) (R231)
    ⟨0x21, 16, 0x60000, [(0x10, 4096)], 4, 4, .polCfg, [⟨0, 20, .rw, 0⟩, ⟨20, 20, .rw, 0⟩, ⟨40, 1, .rw, 0⟩, ⟨41, 1, .rw, 0⟩, ⟨42, 1, .rw, 1⟩, ⟨43, 1, .rw, 0⟩, ⟨44, 8, .rw, 0⟩, ⟨64, 24, .rw, 0x100⟩, ⟨88, 24, .rw, 0x100⟩]⟩,
   -- POL.BAL[n] (R231)
    ⟨0x21, 16, 0x70000, [(0x8, 4096)], 2, 1, .polView, [⟨0, 32, .ro, 0⟩, ⟨32, 32, .ro, 0⟩]⟩,
   -- POL.CNT[n][c] (R231)
    ⟨0x21, 16, 0x80000, [(0x20, 4096), (0x8, 4)], 2, 1, .plain, [⟨0, 40, .ro, 0⟩]⟩]

/-- Every register of the Ingress islands. -/
def regsIngress : List RegDesc := regsIngress0

/-- Registers of the Egress islands, part 0. -/
def regsEgress0 : List RegDesc :=
   -- PIPE.PROFILE[p] (R163)
   [⟨0x21, 32, 0x200, [(0x8, 16)], 2, 2, .pipeProfile, [⟨0, 48, .rw, 0⟩, ⟨48, 12, .rw, 0⟩]⟩,
   -- PIPE.SLOT_TBL[k][n] (R163)
    ⟨0x21, 32, 0x4000, [(0x100, 12), (0x10, 16)], 4, 1, .pipeSlotTbl, ((List.range 15).map fun i => [⟨8 * i, 5, .rw, 0⟩, ⟨8 * i + 7, 1, .rw, 0⟩]).flatten⟩,
   -- PIPE.PROG[k][n][i] (R163)
    ⟨0x21, 32, 0x800000, [(0x1000, 12), (0x80, 16), (0x4, 32)], 1, 1, .pipeProg, [⟨0, 32, .rw, 0⟩]⟩,
   -- PIPE.TABLE[t] (R172)
    ⟨0x21, 32, 0x600, [(0x8, 32)], 2, 2, .pipeTable, [⟨0, 13, .rw, 0⟩, ⟨16, 5, .rw, 0⟩, ⟨21, 2, .rw, 0⟩, ⟨23, 2, .rw, 0⟩, ⟨25, 1, .rw, 0⟩, ⟨26, 1, .rw, 0⟩, ⟨32, 32, .rw, 0⟩]⟩,
   -- PIPE.RCMP[k][i] (R174)
    ⟨0x21, 32, 0x1000, [(0x200, 12), (0x8, 64)], 2, 2, .plain, [⟨0, 16, .rw, 0⟩, ⟨16, 16, .rw, 0⟩, ⟨32, 4, .rw, 0⟩, ⟨36, 1, .rw, 0⟩]⟩,
   -- PIPE.CNT[c] (R181)
    ⟨0x21, 32, 0x800, [(0x8, 11)], 2, 1, .plain, [⟨0, 40, .ro, 0⟩]⟩,
   -- TM.SHAPER_CFG[x], class K x = 12368-12383 (R223)
    ⟨0x31, 16, 0x118280, [(0x8, 16)], 2, 2, .shaperCfgK, [⟨0, 20, .rw, 0x9c40⟩, ⟨20, 1, .rw, 1⟩, ⟨32, 24, .rw, 0x100⟩]⟩,
   -- TM.SHAPER_CFG[x], x = 0-12367 (R223)
    ⟨0x31, 16, 0x100000, [(0x8, 12368)], 2, 2, .shaperCfg, [⟨0, 20, .rw, 0⟩, ⟨20, 1, .rw, 0⟩, ⟨32, 24, .rw, 0x100⟩]⟩,
   -- TM.SHAPER_BAL[x] (R223)
    ⟨0x31, 16, 0x120000, [(0x8, 12384)], 2, 1, .shaperView, [⟨0, 48, .ro, 0⟩]⟩,
   -- TM.QUEUE_CFG[j][q] (R223)
    ⟨0x31, 16, 0x200000, [(0x10000, 2), (0x10, 4096)], 4, 2, .queueCfg, [⟨0, 16, .rw, 0x400⟩, ⟨16, 3, .rw, 0⟩, ⟨19, 12, .rw, 0⟩, ⟨32, 16, .rw, 0x100⟩, ⟨48, 16, .rw, 0xc0⟩, ⟨64, 16, .rw, 0x80⟩]⟩,
   -- TM.SQUEUE_CFG[j][s][l] (R223)
    ⟨0x31, 16, 0x220000, [(0x100, 2), (0x20, 8), (0x8, 4)], 2, 1, .plain, [⟨0, 16, .rw, 0x100⟩, ⟨16, 16, .rw, 0xc0⟩, ⟨32, 16, .rw, 0x80⟩]⟩,
   -- TM.QUEUE_STATE[j][q] (R223)
    ⟨0x31, 16, 0x240000, [(0x8000, 2), (0x8, 4096)], 2, 1, .queueView, [⟨0, 32, .ro, 0⟩, ⟨32, 1, .ro, 0⟩, ⟨33, 1, .ro, 0⟩]⟩]

/-- Registers of the Egress islands, part 1. -/
def regsEgress1 : List RegDesc :=
   -- TM.VTIME[j][s] (R223)
   [⟨0x31, 16, 0x260000, [(0x40, 2), (0x8, 8)], 2, 1, .plain, [⟨0, 48, .ro, 0⟩]⟩,
   -- TM.SUB_CFG[j][s] (R223)
    ⟨0x31, 16, 0x280000, [(0x20, 2), (0x4, 8)], 1, 1, .tmSubCfg, [⟨0, 8, .rw, 0⟩, ⟨8, 24, .rw, 0x924924⟩]⟩,
   -- TM.CNT[j][s][c] (R223)
    ⟨0x31, 16, 0x2a0000, [(0x400, 2), (0x80, 8), (0x8, 6)], 2, 1, .plain, [⟨0, 40, .ro, 0⟩]⟩]

/-- Every register of the Egress islands. -/
def regsEgress : List RegDesc := regsEgress0 ++ regsEgress1

/-- Registers of the Fabric islands, part 0. -/
def regsFabric0 : List RegDesc :=
   -- POL.CFG[n] (fabric) (R231)
   [⟨0x41, 1, 0x60000, [(0x10, 4096)], 4, 4, .polCfg, [⟨0, 20, .rw, 0⟩, ⟨20, 20, .rw, 0⟩, ⟨40, 1, .rw, 0⟩, ⟨41, 1, .rw, 0⟩, ⟨42, 1, .rw, 1⟩, ⟨43, 1, .rw, 0⟩, ⟨44, 8, .rw, 0⟩, ⟨64, 24, .rw, 0x100⟩, ⟨88, 24, .rw, 0x100⟩]⟩,
   -- POL.BAL[n] (fabric) (R231)
    ⟨0x41, 1, 0x70000, [(0x8, 4096)], 2, 1, .polView, [⟨0, 32, .ro, 0⟩, ⟨32, 32, .ro, 0⟩]⟩,
   -- POL.CNT[n][c] (fabric) (R231)
    ⟨0x41, 1, 0x80000, [(0x20, 4096), (0x8, 4)], 2, 1, .plain, [⟨0, 40, .ro, 0⟩]⟩,
   -- FAB.FMT_GEN (R42)
    ⟨0x41, 1, 0x20000, [], 1, 1, .fmtGen, [⟨0, 8, .rw, 0⟩, ⟨8, 8, .rw, 0⟩, ⟨16, 8, .rw, 0⟩]⟩,
   -- FAB.GENEVE_OPT (R45)
    ⟨0x41, 1, 0x20004, [], 1, 1, .plain, [⟨0, 16, .rw, 0xfff3⟩, ⟨16, 7, .rw, 0x2a⟩]⟩,
   -- FAB.EXC_DOUBLE (R52)
    ⟨0x41, 1, 0x20008, [], 2, 1, .plain, [⟨0, 40, .ro, 0⟩]⟩,
   -- FAB.SVC_NOOP_IN[b] (R52)
    ⟨0x41, 1, 0x20100, [(0x8, 14)], 2, 1, .plain, [⟨0, 40, .ro, 0⟩]⟩,
   -- FAB.SVC_NOOP_OUT[b] (R52)
    ⟨0x41, 1, 0x20180, [(0x8, 14)], 2, 1, .plain, [⟨0, 40, .ro, 0⟩]⟩,
   -- FAB.EXC_CNT[r] (R52)
    ⟨0x41, 1, 0x20800, [(0x8, 256)], 2, 1, .plain, [⟨0, 40, .ro, 0⟩]⟩,
   -- FAB.FLOW_CLASS[0] (R177)
    ⟨0x41, 1, 0x30000, [], 4, 4, .plain, [⟨0, 14, .rw, 0⟩, ⟨14, 2, .rw, 0⟩, ⟨16, 4, .rw, 0⟩, ⟨20, 12, .rw, 0⟩, ⟨32, 8, .rw, 0⟩, ⟨40, 12, .rw, 0⟩, ⟨52, 8, .rw, 0⟩, ⟨96, 1, .rw, 1⟩]⟩,
   -- FAB.FLOW_CLASS[f], f = 1-1023 (R177)
    ⟨0x41, 1, 0x30010, [(0x10, 1023)], 4, 4, .plain, [⟨0, 14, .rw, 0⟩, ⟨14, 2, .rw, 0⟩, ⟨16, 4, .rw, 0⟩, ⟨20, 12, .rw, 0⟩, ⟨32, 8, .rw, 0⟩, ⟨40, 12, .rw, 0⟩, ⟨52, 8, .rw, 0⟩, ⟨96, 1, .rw, 0⟩]⟩,
   -- FAB.WGROUP[g] (R178)
    ⟨0x41, 1, 0x34000, [(0x8, 256)], 2, 1, .plain, [⟨0, 4, .rw, 0⟩, ⟨16, 16, .rw, 0x400⟩]⟩]

/-- Registers of the Fabric islands, part 1. -/
def regsFabric1 : List RegDesc :=
   -- FAB.WGROUP_DROP[g] (R178)
   [⟨0x41, 1, 0x35000, [(0x8, 256)], 2, 1, .plain, [⟨0, 40, .ro, 0⟩]⟩,
   -- FAB.TUN_PROFILE[t] (R454)
    ⟨0x41, 1, 0x36000, [(0x10, 256)], 4, 4, .tunProfile, [⟨0, 1, .rw, 0⟩, ⟨1, 1, .rw, 0⟩, ⟨2, 1, .rw, 0⟩, ⟨3, 1, .rw, 0⟩, ⟨4, 1, .rw, 0⟩, ⟨8, 8, .rw, 0⟩, ⟨16, 8, .rw, 0xe⟩, ⟨24, 8, .rw, 0x22⟩]⟩,
   -- FAB.TUN_TEMPLATE[t][w] (R454)
    ⟨0x41, 1, 0x38000, [(0x80, 256), (0x4, 32)], 1, 1, .plain, [⟨0, 32, .rw, 0⟩]⟩,
   -- FAB.MEM_CFG (R196)
    ⟨0x41, 1, 0x40000, [], 1, 1, .memCfg, [⟨0, 9, .rw, 0x30⟩]⟩,
   -- FAB.SPILL_CFG (R202)
    ⟨0x41, 1, 0x40008, [], 2, 2, .spillCfg, [⟨0, 8, .rw, 0x8d⟩, ⟨8, 8, .rw, 0x5e⟩, ⟨16, 8, .rw, 0x10⟩, ⟨24, 8, .rw, 0x10⟩, ⟨32, 1, .rw, 0⟩]⟩,
   -- FAB.SPILL_STATUS[j] (R202)
    ⟨0x41, 1, 0x40100, [(0x4, 32)], 1, 1, .spillView, [⟨0, 8, .ro, 0⟩, ⟨8, 1, .ro, 0⟩, ⟨9, 16, .ro, 0⟩]⟩,
   -- FAB.CB_REGION[r] (R198)
    ⟨0x41, 1, 0x40200, [(0x8, 3)], 1, 1, .cbRegion, [⟨0, 9, .rw, 0⟩, ⟨16, 9, .rw, 0⟩]⟩,
   -- FAB.IACC[e] (R196)
    ⟨0x41, 1, 0x41000, [(0x8, 2048)], 2, 2, .plain, [⟨0, 20, .rw, 0x100⟩, ⟨20, 20, .rw, 0xc0⟩, ⟨40, 20, .rw, 0x400⟩]⟩,
   -- FAB.IACC_USE[e] (R196)
    ⟨0x41, 1, 0x45000, [(0x8, 2048)], 2, 1, .plain, [⟨0, 32, .ro, 0⟩, ⟨32, 1, .ro, 0⟩]⟩,
   -- FAB.AGE[o][c] (R203)
    ⟨0x41, 1, 0x49000, [(0x20, 32), (0x4, 8)], 1, 1, .fabAge, [⟨0, 22, .rw, 0⟩]⟩,
   -- FAB.AGE_K (R203)
    ⟨0x41, 1, 0x49400, [], 1, 1, .fabAge, [⟨0, 22, .rw, 0⟩]⟩,
   -- FAB.MIRROR[m] (R205)
    ⟨0x41, 1, 0x4a000, [(0x10, 16)], 4, 4, .plain, [⟨0, 10, .rw, 0⟩, ⟨10, 10, .rw, 0⟩, ⟨20, 12, .rw, 0⟩, ⟨32, 3, .rw, 0⟩, ⟨35, 12, .rw, 0⟩, ⟨47, 8, .rw, 0⟩, ⟨55, 1, .rw, 0⟩, ⟨64, 20, .rw, 0x40⟩]⟩]

/-- Registers of the Fabric islands, part 2. -/
def regsFabric2 : List RegDesc :=
   -- FAB.MIRROR_CNT[m] (R205)
   [⟨0x41, 1, 0x4a100, [(0x10, 16), (0x8, 2)], 2, 1, .plain, [⟨0, 40, .ro, 0⟩]⟩,
   -- FAB.CAP_CFG (R207)
    ⟨0x41, 1, 0x4b000, [], 1, 1, .capCfg, [⟨0, 1, .rw, 0⟩, ⟨1, 1, .rw, 0⟩, ⟨2, 5, .rw, 0xa⟩, ⟨7, 12, .rw, 0x3e8⟩]⟩,
   -- FAB.CAP_BASE (R207)
    ⟨0x41, 1, 0x4b008, [], 2, 1, .capBase, [⟨0, 48, .rw, 0⟩]⟩,
   -- FAB.CAP_PROD (R207)
    ⟨0x41, 1, 0x4b010, [], 1, 1, .plain, [⟨0, 32, .ro, 0⟩]⟩,
   -- FAB.CAP_CONS (R207)
    ⟨0x41, 1, 0x4b014, [], 1, 1, .plain, [⟨0, 32, .rw, 0⟩]⟩,
   -- FAB.CNT[c] (R208)
    ⟨0x41, 1, 0x4c000, [(0x8, 18)], 2, 1, .plain, [⟨0, 40, .ro, 0⟩]⟩]

/-- Every register of the Fabric islands. -/
def regsFabric : List RegDesc := regsFabric0 ++ regsFabric1 ++ regsFabric2

/-- Registers of the Cluster islands, part 0. -/
def regsCluster0 : List RegDesc :=
   -- CL.THREAD_FAULT (R96)
   [⟨0x42, 16, 0x200, [], 4, 1, .threadFault, [⟨0, 7, .ro, 0⟩, ⟨7, 1, .w1c, 0⟩, ⟨8, 8, .ro, 0⟩, ⟨16, 13, .ro, 0⟩, ⟨29, 1, .ro, 0⟩, ⟨30, 1, .w1c, 0⟩, ⟨32, 48, .ro, 0⟩]⟩,
   -- CL.STALEMATE_CTL (R122)
    ⟨0x42, 16, 0x300, [], 1, 1, .staleCtl, [⟨0, 1, .rw, 1⟩]⟩,
   -- CL.STALEMATE_STATUS (R122)
    ⟨0x42, 16, 0x304, [], 1, 1, .plain, [⟨0, 1, .w1c, 0⟩, ⟨1, 1, .ro, 0⟩, ⟨2, 1, .ro, 1⟩, ⟨16, 13, .ro, 0⟩]⟩,
   -- CL.STALEMATE_COUNT (R122)
    ⟨0x42, 16, 0x308, [], 1, 1, .plain, [⟨0, 32, .ro, 0⟩]⟩,
   -- CL.WAIT_UNDISC (R122)
    ⟨0x42, 16, 0x30c, [], 1, 1, .plain, [⟨0, 32, .ro, 0⟩]⟩,
   -- CL.WAIT_UNDISC_LAST (R122)
    ⟨0x42, 16, 0x310, [], 1, 1, .plain, [⟨0, 7, .ro, 0⟩, ⟨7, 1, .w1c, 0⟩, ⟨8, 13, .ro, 0⟩]⟩,
   -- CL.LOOK_BIND[t] (R173)
    ⟨0x42, 16, 0x400, [(0x4, 16)], 1, 1, .plain, [⟨0, 5, .rw, 0⟩, ⟨5, 5, .rw, 0⟩, ⟨10, 1, .rw, 0⟩]⟩,
   -- CL.STS_CNT (R291)
    ⟨0x42, 16, 0x500, [], 2, 1, .plain, [⟨0, 40, .ro, 0⟩]⟩,
   -- CL.WAIT_SNAP[i] (R122)
    ⟨0x42, 16, 0x1000, [(0x10, 128)], 4, 1, .plain, [⟨0, 64, .ro, 0⟩, ⟨64, 13, .ro, 0⟩, ⟨77, 3, .ro, 0⟩]⟩]

/-- Every register of the Cluster islands. -/
def regsCluster : List RegDesc := regsCluster0

/-- Registers of the Steward islands, part 0. -/
def regsSteward0 : List RegDesc :=
   -- FERRY.CH_CFG[c], c = 16-63 (R355)
   [⟨0x52, 1, 0x10400, [(0x40, 48)], 2, 2, .ferryCfg, [⟨0, 48, .rw, 0⟩, ⟨48, 4, .rw, 4⟩, ⟨52, 1, .rw, 0⟩, ⟨53, 1, .rw, 0⟩]⟩,
   -- FERRY.CH_TAIL[c], c = 16-63 (R355)
    ⟨0x52, 1, 0x10408, [(0x40, 48)], 1, 1, .ferryTail, [⟨0, 16, .rw, 0⟩]⟩,
   -- FERRY.CH_HEAD[c], c = 16-63 (R355)
    ⟨0x52, 1, 0x1040c, [(0x40, 48)], 1, 1, .plain, [⟨0, 16, .ro, 0⟩]⟩,
   -- FERRY.CH_STATUS[c], c = 16-63 (R355)
    ⟨0x52, 1, 0x10410, [(0x40, 48)], 1, 1, .plain, [⟨0, 2, .ro, 0⟩, ⟨2, 3, .ro, 0⟩, ⟨5, 7, .ro, 0⟩, ⟨12, 1, .w1c, 0⟩, ⟨13, 1, .w1c, 0⟩, ⟨14, 1, .w1c, 0⟩, ⟨15, 1, .w1c, 0⟩]⟩,
   -- FERRY.CH_CTL[c], c = 16-63 (R355)
    ⟨0x52, 1, 0x10414, [(0x40, 48)], 1, 1, .ferryCtl, [⟨0, 1, .wo, 0⟩, ⟨1, 1, .wo, 0⟩]⟩,
   -- FERRY.CH_CFG[c], c = 0-15 (R355)
    ⟨0x52, 1, 0x810000, [(0x40, 16)], 2, 2, .ferryCfg, [⟨0, 48, .rw, 0⟩, ⟨48, 4, .rw, 4⟩, ⟨52, 1, .rw, 0⟩, ⟨53, 1, .rw, 0⟩]⟩,
   -- FERRY.CH_TAIL[c], c = 0-15 (R355)
    ⟨0x52, 1, 0x810008, [(0x40, 16)], 1, 1, .ferryTail, [⟨0, 16, .rw, 0⟩]⟩,
   -- FERRY.CH_HEAD[c], c = 0-15 (R355)
    ⟨0x52, 1, 0x81000c, [(0x40, 16)], 1, 1, .plain, [⟨0, 16, .ro, 0⟩]⟩,
   -- FERRY.CH_STATUS[c], c = 0-15 (R355)
    ⟨0x52, 1, 0x810010, [(0x40, 16)], 1, 1, .plain, [⟨0, 2, .ro, 0⟩, ⟨2, 3, .ro, 0⟩, ⟨5, 7, .ro, 0⟩, ⟨12, 1, .w1c, 0⟩, ⟨13, 1, .w1c, 0⟩, ⟨14, 1, .w1c, 0⟩, ⟨15, 1, .w1c, 0⟩]⟩,
   -- FERRY.CH_CTL[c], c = 0-15 (R355)
    ⟨0x52, 1, 0x810014, [(0x40, 16)], 1, 1, .ferryCtl, [⟨0, 1, .wo, 0⟩, ⟨1, 1, .wo, 0⟩]⟩,
   -- MB.CH_FLUSH[c], c = 16-63 (R373)
    ⟨0x52, 1, 0x20040, [(0x4, 48)], 1, 1, .chFlush, [⟨0, 1, .wo, 0⟩]⟩,
   -- MB.CH_FLUSH[c], c = 0-15 (R373)
    ⟨0x52, 1, 0x820000, [(0x4, 16)], 1, 1, .chFlush, [⟨0, 1, .wo, 0⟩]⟩]

/-- Registers of the Steward islands, part 1. -/
def regsSteward1 : List RegDesc :=
   -- KS.STAGE[k][w] (R239)
   [⟨0x52, 1, 0x800000, [(0x100, 2), (0x4, 16)], 1, 1, .ksStage, [⟨0, 32, .wo, 0⟩]⟩,
   -- KS.ATTR[k] (R239)
    ⟨0x52, 1, 0x800040, [(0x100, 2)], 2, 1, .ksBlock, [⟨0, 7, .rw, 0⟩, ⟨7, 1, .rw, 0⟩, ⟨8, 14, .rw, 0x3fff⟩, ⟨32, 32, .rw, 0⟩]⟩,
   -- KS.LIMIT[k] (R239)
    ⟨0x52, 1, 0x800048, [(0x100, 2)], 2, 1, .ksBlock, [⟨0, 64, .rw, 0⟩]⟩,
   -- KS.CMD[k] (R239)
    ⟨0x52, 1, 0x800050, [(0x100, 2)], 1, 1, .ksCmd, [⟨0, 3, .wo, 0⟩, ⟨3, 18, .wo, 0⟩]⟩,
   -- KS.RESULT[k] (R239)
    ⟨0x52, 1, 0x800054, [(0x100, 2)], 1, 1, .ksBlock, [⟨0, 1, .ro, 0⟩, ⟨1, 3, .ro, 0⟩, ⟨4, 1, .w1c, 0⟩]⟩,
   -- KS.META[k] (R239)
    ⟨0x52, 1, 0x800060, [(0x100, 2)], 8, 1, .ksBlock, [⟨0, 256, .ro, 0⟩]⟩,
   -- KS.CHAN_CFG[c] (R254)
    ⟨0x52, 1, 0x801000, [(0x4, 256)], 1, 1, .ksChan, [⟨0, 1, .rw, 0⟩, ⟨1, 1, .rw, 0⟩, ⟨2, 1, .ro, 0⟩]⟩,
   -- KS.NOTIFY_CFG (R244)
    ⟨0x52, 1, 0x801400, [], 1, 1, .plain, [⟨0, 4, .rw, 0⟩, ⟨4, 1, .rw, 0⟩]⟩,
   -- KS.NOTIFY_LOST (R244)
    ⟨0x52, 1, 0x801408, [], 1, 1, .plain, [⟨0, 32, .ro, 0⟩]⟩]

/-- Every register of the Steward islands. -/
def regsSteward : List RegDesc := regsSteward0 ++ regsSteward1

/-- Registers of the Cipher islands, part 0. -/
def regsCipher0 : List RegDesc :=
   -- CIPH.ISLAND_CFG (R236)
   [⟨0x53, 8, 0x0, [], 1, 1, .ciphIslandCfg, [⟨0, 7, .rw, 4⟩]⟩,
   -- CIPH.CQ_CFG[j] (R249)
    ⟨0x53, 8, 0x1000, [(0x10, 128)], 2, 2, .cqCfg, [⟨0, 48, .rw, 0⟩, ⟨48, 5, .rw, 4⟩, ⟨53, 1, .rw, 0⟩]⟩,
   -- CIPH.CQ_PROD[j] (R249)
    ⟨0x53, 8, 0x1008, [(0x10, 128)], 1, 1, .plain, [⟨0, 32, .ro, 0⟩]⟩,
   -- CIPH.CQ_CONS[j] (R249)
    ⟨0x53, 8, 0x100c, [(0x10, 128)], 1, 1, .cqCons, [⟨0, 32, .rw, 0⟩]⟩,
   -- CIPH.CNT[c] (R260)
    ⟨0x53, 8, 0x2000, [(0x8, 15)], 2, 1, .plain, [⟨0, 40, .ro, 0⟩]⟩,
   -- CIPH.CQ_PEND[j] (R250)
    ⟨0x53, 8, 0x3000, [(0x4, 128)], 1, 1, .plain, [⟨0, 17, .ro, 0⟩]⟩,
   -- CIPH.IAR[i] (R245)
    ⟨0x53, 8, 0x800000, [(0x20, 16383)], 8, 8, .plain, [⟨0, 96, .wos, 0⟩, ⟨96, 32, .rw, 0⟩, ⟨128, 64, .rw, 0⟩, ⟨192, 64, .rw, 0⟩]⟩]

/-- Every register of the Cipher islands. -/
def regsCipher : List RegDesc := regsCipher0

/-- Registers of the Ingest islands, part 0. -/
def regsIngest0 : List RegDesc :=
   -- ING.JOB_CMD[r] (R274)
   [⟨0x5b, 2, 0x0, [(0x8, 17)], 1, 1, .jobCmd, [⟨0, 20, .wo, 0⟩, ⟨20, 2, .wo, 0⟩]⟩,
   -- ING.JOB_RESULT[r] (R274)
    ⟨0x5b, 2, 0x4, [(0x8, 17)], 1, 1, .plain, [⟨0, 1, .ro, 0⟩, ⟨1, 3, .ro, 0⟩]⟩,
   -- ING.SHAPER_CFG[x] (R279)
    ⟨0x5b, 2, 0x10000, [(0x8, 256)], 2, 2, .shaperCfg, [⟨0, 20, .rw, 0⟩, ⟨20, 1, .rw, 0⟩, ⟨32, 24, .rw, 0x100⟩]⟩,
   -- ING.SHAPER_BAL[x] (R279)
    ⟨0x5b, 2, 0x12000, [(0x8, 256)], 2, 1, .shaperView, [⟨0, 48, .ro, 0⟩]⟩,
   -- ING.CNT[c] (R291)
    ⟨0x5b, 2, 0x20000, [(0x8, 14)], 2, 1, .plain, [⟨0, 40, .ro, 0⟩]⟩]

/-- Every register of the Ingest islands. -/
def regsIngest : List RegDesc := regsIngest0

/-- Registers of the Host islands, part 0. -/
def regsHost0 : List RegDesc :=
   -- side TM.SHAPER_CFG[12368] (R225)
   [⟨0x61, 8, 0x118280, [], 2, 2, .shaperCfgK, [⟨0, 20, .rw, 0x9c40⟩, ⟨20, 1, .rw, 1⟩, ⟨32, 24, .rw, 0x100⟩]⟩,
   -- side TM.SHAPER_CFG[q] (R225)
    ⟨0x61, 8, 0x100000, [(0x8, 4096)], 2, 2, .shaperCfg, [⟨0, 20, .rw, 0⟩, ⟨20, 1, .rw, 0⟩, ⟨32, 24, .rw, 0x100⟩]⟩,
   -- side TM.SHAPER_CFG[8192+l] (R225)
    ⟨0x61, 8, 0x110000, [(0x8, 4)], 2, 2, .shaperCfg, [⟨0, 20, .rw, 0⟩, ⟨20, 1, .rw, 0⟩, ⟨32, 24, .rw, 0x100⟩]⟩,
   -- side TM.SHAPER_CFG[12352] (R225)
    ⟨0x61, 8, 0x118200, [], 2, 2, .shaperCfg, [⟨0, 20, .rw, 0⟩, ⟨20, 1, .rw, 0⟩, ⟨32, 24, .rw, 0x100⟩]⟩,
   -- side TM.SHAPER_BAL[q] (R225)
    ⟨0x61, 8, 0x120000, [(0x8, 4096)], 2, 1, .shaperView, [⟨0, 48, .ro, 0⟩]⟩,
   -- side TM.SHAPER_BAL[8192+l] (R225)
    ⟨0x61, 8, 0x130000, [(0x8, 4)], 2, 1, .shaperView, [⟨0, 48, .ro, 0⟩]⟩,
   -- side TM.SHAPER_BAL[12352] (R225)
    ⟨0x61, 8, 0x138200, [], 2, 1, .shaperView, [⟨0, 48, .ro, 0⟩]⟩,
   -- side TM.SHAPER_BAL[12368] (R225)
    ⟨0x61, 8, 0x138280, [], 2, 1, .shaperView, [⟨0, 48, .ro, 0⟩]⟩,
   -- side TM.QUEUE_CFG[0][q] (R225)
    ⟨0x61, 8, 0x200000, [(0x10, 4096)], 4, 2, .queueCfg, [⟨0, 16, .rw, 0x400⟩, ⟨16, 3, .rw, 0⟩, ⟨19, 12, .rw, 0⟩, ⟨32, 16, .rw, 0x100⟩, ⟨48, 16, .rw, 0xc0⟩, ⟨64, 16, .rw, 0x80⟩]⟩,
   -- side TM.SQUEUE_CFG[0][0][l] (R225)
    ⟨0x61, 8, 0x220000, [(0x8, 4)], 2, 1, .plain, [⟨0, 16, .rw, 0x100⟩, ⟨16, 16, .rw, 0xc0⟩, ⟨32, 16, .rw, 0x80⟩]⟩,
   -- side TM.QUEUE_STATE[0][q] (R225)
    ⟨0x61, 8, 0x240000, [(0x8, 4096)], 2, 1, .queueView, [⟨0, 32, .ro, 0⟩, ⟨32, 1, .ro, 0⟩, ⟨33, 1, .ro, 0⟩]⟩,
   -- side TM.VTIME[0][0] (R225)
    ⟨0x61, 8, 0x260000, [], 2, 1, .plain, [⟨0, 48, .ro, 0⟩]⟩]

/-- Registers of the Host islands, part 1. -/
def regsHost1 : List RegDesc :=
   -- side TM.SUB_CFG[0][0] (R225)
   [⟨0x61, 8, 0x280000, [], 1, 1, .tmSubCfg, [⟨0, 8, .rw, 0⟩, ⟨8, 24, .rw, 0x924924⟩]⟩,
   -- side TM.CNT[0][0][c] (R225)
    ⟨0x61, 8, 0x2a0000, [(0x8, 6)], 2, 1, .plain, [⟨0, 40, .ro, 0⟩]⟩,
   -- POL.CFG[n] (host, Hamper) (R231)
    ⟨0x61, 8, 0x60000, [(0x10, 4096)], 4, 4, .polCfg, [⟨0, 20, .rw, 0⟩, ⟨20, 20, .rw, 0⟩, ⟨40, 1, .rw, 0⟩, ⟨41, 1, .rw, 0⟩, ⟨42, 1, .rw, 1⟩, ⟨43, 1, .rw, 0⟩, ⟨44, 8, .rw, 0⟩, ⟨64, 24, .rw, 0x100⟩, ⟨88, 24, .rw, 0x100⟩]⟩,
   -- POL.BAL[n] (host, Hamper) (R231)
    ⟨0x61, 8, 0x70000, [(0x8, 4096)], 2, 1, .polView, [⟨0, 32, .ro, 0⟩, ⟨32, 32, .ro, 0⟩]⟩,
   -- POL.CNT[n][c] (host, Hamper) (R231)
    ⟨0x61, 8, 0x80000, [(0x20, 4096), (0x8, 4)], 2, 1, .plain, [⟨0, 40, .ro, 0⟩]⟩,
   -- PF0.DEV_STATUS (R306)
    ⟨0x61, 2, 0x0, [], 1, 1, .devStatus, [⟨0, 1, .ro, 0⟩, ⟨1, 1, .ro, 0⟩, ⟨2, 1, .ro, 0⟩, ⟨3, 1, .ro, 0⟩, ⟨8, 8, .ro, 0⟩]⟩,
   -- PF0.FW_BUILD (R306)
    ⟨0x61, 2, 0x4, [], 1, 1, .plain, [⟨0, 32, .ro, 0⟩]⟩,
   -- PF0.INT_CAUSE (R306)
    ⟨0x61, 2, 0x8, [], 1, 1, .intCause, [⟨0, 1, .w1c, 0⟩, ⟨1, 1, .w1c, 0⟩, ⟨2, 1, .w1c, 0⟩, ⟨3, 1, .w1c, 0⟩, ⟨4, 1, .w1c, 0⟩, ⟨5, 1, .w1c, 0⟩]⟩,
   -- PF0.INT_EN (R306)
    ⟨0x61, 2, 0xc, [], 1, 1, .intEn, [⟨0, 6, .rw, 0⟩]⟩,
   -- HOST.LINK_STATUS (R318)
    ⟨0x61, 2, 0x400, [], 1, 1, .plain, [⟨0, 3, .ro, 0⟩, ⟨3, 5, .ro, 0⟩, ⟨8, 1, .ro, 0⟩, ⟨9, 1, .ro, 0⟩]⟩,
   -- HOST.TAG_STATUS (R311)
    ⟨0x61, 2, 0x408, [], 2, 1, .tagView, [⟨0, 12, .ro, 0⟩, ⟨12, 12, .ro, 0⟩, ⟨24, 12, .ro, 0⟩]⟩,
   -- HOST.EVENT (R315)
    ⟨0x61, 2, 0x410, [], 1, 1, .plain, [⟨0, 1, .w1c, 0⟩, ⟨1, 1, .w1c, 0⟩, ⟨2, 1, .w1c, 0⟩, ⟨3, 1, .w1c, 0⟩, ⟨4, 1, .w1c, 0⟩, ⟨5, 1, .w1c, 0⟩, ⟨6, 1, .w1c, 0⟩]⟩]

/-- Registers of the Host islands, part 2. -/
def regsHost2 : List RegDesc :=
   -- HOST.EVENT_CFG (R315)
   [⟨0x61, 2, 0x414, [], 1, 1, .plain, [⟨0, 8, .rw, 0⟩, ⟨8, 1, .rw, 0⟩]⟩,
   -- HOST.CNT[c] (R318)
    ⟨0x61, 2, 0x800, [(0x8, 15)], 2, 1, .plain, [⟨0, 40, .ro, 0⟩]⟩,
   -- HOST.WIN_WRITE_EN (R303)
    ⟨0x61, 2, 0x800000, [], 4, 1, .plain, [⟨0, 128, .rw, 0⟩]⟩]

/-- Every register of the Host islands. -/
def regsHost : List RegDesc := regsHost0 ++ regsHost1 ++ regsHost2

/-- Registers of the Hamper islands, part 0. -/
def regsHamper0 : List RegDesc :=
   -- side TM.SHAPER_CFG[12368] (R225)
   [⟨0x61, 8, 0x118280, [], 2, 2, .shaperCfgK, [⟨0, 20, .rw, 0x9c40⟩, ⟨20, 1, .rw, 1⟩, ⟨32, 24, .rw, 0x100⟩]⟩,
   -- side TM.SHAPER_CFG[q] (R225)
    ⟨0x61, 8, 0x100000, [(0x8, 4096)], 2, 2, .shaperCfg, [⟨0, 20, .rw, 0⟩, ⟨20, 1, .rw, 0⟩, ⟨32, 24, .rw, 0x100⟩]⟩,
   -- side TM.SHAPER_CFG[8192+l] (R225)
    ⟨0x61, 8, 0x110000, [(0x8, 4)], 2, 2, .shaperCfg, [⟨0, 20, .rw, 0⟩, ⟨20, 1, .rw, 0⟩, ⟨32, 24, .rw, 0x100⟩]⟩,
   -- side TM.SHAPER_CFG[12352] (R225)
    ⟨0x61, 8, 0x118200, [], 2, 2, .shaperCfg, [⟨0, 20, .rw, 0⟩, ⟨20, 1, .rw, 0⟩, ⟨32, 24, .rw, 0x100⟩]⟩,
   -- side TM.SHAPER_BAL[q] (R225)
    ⟨0x61, 8, 0x120000, [(0x8, 4096)], 2, 1, .shaperView, [⟨0, 48, .ro, 0⟩]⟩,
   -- side TM.SHAPER_BAL[8192+l] (R225)
    ⟨0x61, 8, 0x130000, [(0x8, 4)], 2, 1, .shaperView, [⟨0, 48, .ro, 0⟩]⟩,
   -- side TM.SHAPER_BAL[12352] (R225)
    ⟨0x61, 8, 0x138200, [], 2, 1, .shaperView, [⟨0, 48, .ro, 0⟩]⟩,
   -- side TM.SHAPER_BAL[12368] (R225)
    ⟨0x61, 8, 0x138280, [], 2, 1, .shaperView, [⟨0, 48, .ro, 0⟩]⟩,
   -- side TM.QUEUE_CFG[0][q] (R225)
    ⟨0x61, 8, 0x200000, [(0x10, 4096)], 4, 2, .queueCfg, [⟨0, 16, .rw, 0x400⟩, ⟨16, 3, .rw, 0⟩, ⟨19, 12, .rw, 0⟩, ⟨32, 16, .rw, 0x100⟩, ⟨48, 16, .rw, 0xc0⟩, ⟨64, 16, .rw, 0x80⟩]⟩,
   -- side TM.SQUEUE_CFG[0][0][l] (R225)
    ⟨0x61, 8, 0x220000, [(0x8, 4)], 2, 1, .plain, [⟨0, 16, .rw, 0x100⟩, ⟨16, 16, .rw, 0xc0⟩, ⟨32, 16, .rw, 0x80⟩]⟩,
   -- side TM.QUEUE_STATE[0][q] (R225)
    ⟨0x61, 8, 0x240000, [(0x8, 4096)], 2, 1, .queueView, [⟨0, 32, .ro, 0⟩, ⟨32, 1, .ro, 0⟩, ⟨33, 1, .ro, 0⟩]⟩,
   -- side TM.VTIME[0][0] (R225)
    ⟨0x61, 8, 0x260000, [], 2, 1, .plain, [⟨0, 48, .ro, 0⟩]⟩]

/-- Registers of the Hamper islands, part 1. -/
def regsHamper1 : List RegDesc :=
   -- side TM.SUB_CFG[0][0] (R225)
   [⟨0x61, 8, 0x280000, [], 1, 1, .tmSubCfg, [⟨0, 8, .rw, 0⟩, ⟨8, 24, .rw, 0x924924⟩]⟩,
   -- side TM.CNT[0][0][c] (R225)
    ⟨0x61, 8, 0x2a0000, [(0x8, 6)], 2, 1, .plain, [⟨0, 40, .ro, 0⟩]⟩,
   -- POL.CFG[n] (host, Hamper) (R231)
    ⟨0x61, 8, 0x60000, [(0x10, 4096)], 4, 4, .polCfg, [⟨0, 20, .rw, 0⟩, ⟨20, 20, .rw, 0⟩, ⟨40, 1, .rw, 0⟩, ⟨41, 1, .rw, 0⟩, ⟨42, 1, .rw, 1⟩, ⟨43, 1, .rw, 0⟩, ⟨44, 8, .rw, 0⟩, ⟨64, 24, .rw, 0x100⟩, ⟨88, 24, .rw, 0x100⟩]⟩,
   -- POL.BAL[n] (host, Hamper) (R231)
    ⟨0x61, 8, 0x70000, [(0x8, 4096)], 2, 1, .polView, [⟨0, 32, .ro, 0⟩, ⟨32, 32, .ro, 0⟩]⟩,
   -- POL.CNT[n][c] (host, Hamper) (R231)
    ⟨0x61, 8, 0x80000, [(0x20, 4096), (0x8, 4)], 2, 1, .plain, [⟨0, 40, .ro, 0⟩]⟩,
   -- HL.CFG (R386)
    ⟨0x63, 6, 0x0, [], 1, 1, .hlCfg, [⟨0, 1, .rw, 0⟩, ⟨1, 1, .wo, 0⟩]⟩,
   -- HL.STATUS (R386)
    ⟨0x63, 6, 0x4, [], 1, 1, .plain, [⟨0, 1, .ro, 0⟩, ⟨1, 8, .ro, 0⟩, ⟨9, 4, .ro, 0⟩, ⟨13, 1, .ro, 0⟩, ⟨14, 4, .ro, 0⟩]⟩,
   -- HL.CREDIT_INIT[0] (R386)
    ⟨0x63, 6, 0x10, [], 1, 1, .creditInit, [⟨0, 10, .rw, 0x80⟩]⟩,
   -- HL.CREDIT_INIT[1] (R386)
    ⟨0x63, 6, 0x14, [], 1, 1, .creditInit, [⟨0, 10, .rw, 0x3ff⟩]⟩,
   -- HL.CREDIT_INIT[2] (R386)
    ⟨0x63, 6, 0x18, [], 1, 1, .creditInit, [⟨0, 10, .rw, 0x80⟩]⟩,
   -- HL.CREDIT_INIT[3] (R386)
    ⟨0x63, 6, 0x1c, [], 1, 1, .creditInit, [⟨0, 10, .rw, 0x200⟩]⟩,
   -- HL.FWTX_CFG (R386)
    ⟨0x63, 6, 0x100, [], 2, 2, .hlRingCfg, [⟨0, 48, .rw, 0⟩, ⟨48, 4, .rw, 4⟩, ⟨52, 1, .rw, 0⟩]⟩]

/-- Registers of the Hamper islands, part 2. -/
def regsHamper2 : List RegDesc :=
   -- HL.FWTX_TAIL (R386)
   [⟨0x63, 6, 0x108, [], 1, 1, .fwtxTail, [⟨0, 16, .rw, 0⟩]⟩,
   -- HL.FWTX_HEAD (R386)
    ⟨0x63, 6, 0x10c, [], 1, 1, .plain, [⟨0, 16, .ro, 0⟩]⟩,
   -- HL.FWRX_CFG[i] (R386)
    ⟨0x63, 6, 0x110, [(0x10, 2)], 2, 2, .hlRingCfg, [⟨0, 48, .rw, 0⟩, ⟨48, 4, .rw, 4⟩, ⟨52, 1, .rw, 0⟩]⟩,
   -- HL.FWRX_PROD[i] (R386)
    ⟨0x63, 6, 0x118, [(0x10, 2)], 1, 1, .plain, [⟨0, 16, .ro, 0⟩]⟩,
   -- HL.FWRX_CONS[i] (R386)
    ⟨0x63, 6, 0x11c, [(0x10, 2)], 1, 1, .plain, [⟨0, 16, .rw, 0⟩]⟩,
   -- HL.RX_CFG (R384)
    ⟨0x63, 6, 0x200, [], 1, 1, .plain, [⟨0, 1, .rw, 0⟩, ⟨8, 8, .rw, 0⟩]⟩,
   -- HL.RX_DEST[t] (R384)
    ⟨0x63, 6, 0x240, [(0x8, 8)], 2, 2, .plain, [⟨0, 10, .rw, 0x3ff⟩, ⟨10, 12, .rw, 0⟩, ⟨22, 16, .rw, 0xffff⟩]⟩,
   -- HL.CNT[c] (R386)
    ⟨0x63, 6, 0x800, [(0x8, 10)], 2, 1, .plain, [⟨0, 40, .ro, 0⟩]⟩,
   -- PAIR.CFG (R401)
    ⟨0x68, 1, 0x8000, [], 1, 1, .pairCfg, [⟨0, 2, .rw, 0⟩, ⟨2, 4, .rw, 0⟩, ⟨6, 12, .rw, 0x1e⟩, ⟨18, 4, .rw, 1⟩, ⟨22, 8, .rw, 0⟩, ⟨30, 2, .rw, 3⟩]⟩,
   -- PAIR.DIAG_CFG (R401)
    ⟨0x68, 1, 0x8004, [], 1, 1, .pairDiagCfg, [⟨0, 16, .rw, 0x10⟩, ⟨16, 10, .rw, 0xa⟩]⟩,
   -- PAIR.CTL (R401)
    ⟨0x68, 1, 0x8008, [], 1, 1, .pairCtl, [⟨0, 1, .rw, 0⟩, ⟨1, 1, .wo, 0⟩, ⟨2, 1, .wo, 0⟩, ⟨3, 1, .rw, 1⟩, ⟨4, 10, .rw, 0x64⟩]⟩,
   -- PAIR.FW_STATE (R401)
    ⟨0x68, 1, 0x800c, [], 1, 1, .pairFwState, [⟨0, 4, .rw, 0xf⟩, ⟨4, 1, .rw, 0⟩]⟩]

/-- Registers of the Hamper islands, part 3. -/
def regsHamper3 : List RegDesc :=
   -- PAIR.STATUS (R401)
   [⟨0x68, 1, 0x8010, [], 1, 1, .plain, [⟨0, 3, .ro, 0⟩, ⟨3, 1, .ro, 0⟩, ⟨4, 1, .ro, 0⟩, ⟨5, 1, .ro, 0⟩, ⟨6, 1, .ro, 0⟩, ⟨7, 1, .ro, 0⟩, ⟨8, 4, .ro, 0⟩, ⟨12, 6, .ro, 0⟩]⟩,
   -- PAIR.CLAIM (R401)
    ⟨0x68, 1, 0x8014, [], 1, 1, .plain, [⟨0, 32, .ro, 0⟩]⟩,
   -- PAIR.PEER_CLAIM (R401)
    ⟨0x68, 1, 0x8018, [], 1, 1, .plain, [⟨0, 32, .ro, 0⟩]⟩,
   -- PAIR.PEER_GEN (R401)
    ⟨0x68, 1, 0x801c, [], 1, 1, .plain, [⟨0, 24, .ro, 0⟩]⟩,
   -- PAIR.WRAP_SLOT (R401)
    ⟨0x68, 1, 0x808000, [], 1, 1, .plain, [⟨0, 18, .rw, 0⟩]⟩]

/-- Every register of the Hamper islands. -/
def regsHamper : List RegDesc := regsHamper0 ++ regsHamper1 ++ regsHamper2 ++ regsHamper3

/-- The rows that may hold a register of island `i` (R12). -/
def regsOf (i : Nat) : List RegDesc :=
  if i = 0 then regsLantern
  else if i ≤ 0x20 then regsPort
  else if i ≤ 0x30 then regsIngress
  else if i ≤ 0x40 then regsEgress
  else if i ≤ 0x41 then regsFabric
  else if i ≤ 0x51 then regsCluster
  else if i ≤ 0x52 then regsSteward
  else if i ≤ 0x5a then regsCipher
  else if i ≤ 0x5c then regsIngest
  else if i < 0x61 then []
  else if i ≤ 0x62 then regsHost
  else if i ≤ 0x68 then regsHamper
  else []

/-- The word of the array element that offset `r` (from the array's first word) falls in, if any. -/
def wordIn (words : Nat) : List (Nat × Nat) → Nat → Option Nat
  | [], r => if r < 4 * words then some (r / 4) else none
  | (st, n) :: ds, r => if r / st < n then wordIn words ds (r % st) else none

/-- Does register row `d` hold control address `a`, and as which word of the register? -/
def RegDesc.wordAt (d : RegDesc) (a : Nat) : Option Nat :=
  if d.island ≤ a / 0x1000000 ∧ a / 0x1000000 < d.island + d.islands ∧ d.offset ≤ a % 0x1000000 ∧ a % 4 = 0 then
    wordIn d.words d.dims (a % 0x1000000 - d.offset)
  else none

/-- The first row of the list that holds `a`. -/
def findReg : List RegDesc → Nat → Option (RegDesc × Nat)
  | [], _ => none
  | d :: ds, a => match d.wordAt a with
    | some w => some (d, w)
    | none => findReg ds a

/-- The register at control address `a` and which of its words that is; none where no register stands (R20). -/
def regAt (a : Nat) : Option (RegDesc × Nat) := findReg (regsOf (a / 0x1000000)) a

/-- The bits of word `w` that field `f` covers, as a mask of that word. -/
def FieldDesc.maskIn (f : FieldDesc) (w : Nat) : Nat :=
  ((2 ^ f.width - 1) * 2 ^ f.lo / 2 ^ (32 * w)) % 2 ^ 32

/-- The reset value of field `f` within word `w`. -/
def FieldDesc.resetIn (f : FieldDesc) (w : Nat) : Nat :=
  (f.reset * 2 ^ f.lo / 2 ^ (32 * w)) % 2 ^ 32

/-- The bits of word `w` whose access code is `c`. -/
def RegDesc.mask (d : RegDesc) (c : Acc) (w : Nat) : Nat :=
  d.fields.foldl (fun m f => if f.acc = c then m ||| f.maskIn w else m) 0

/-- The Reset column of word `w` of the register (R7). -/
def RegDesc.resetWord (d : RegDesc) (w : Nat) : W32 :=
  BitVec.ofNat 32 (d.fields.foldl (fun m f => m ||| f.resetIn w) 0)

/-- What control address `a` holds after reset (R7); zero where no register stands (R20). -/
def regReset (a : Nat) : W32 :=
  match regAt a with
  | some (d, w) => d.resetWord w
  | none => 0

/-! The address of each register: an island argument first where several islands hold it, then its indices. -/

/-- LANTERN.TIME_CTL (R30). -/
def Reg.timeCtl : Nat := ctlAddr 0x0 (0x100)
/-- LANTERN.TIME_SNAP (R30). -/
def Reg.timeSnap : Nat := ctlAddr 0x0 (0x104)
/-- LANTERN.TIME_ADDEND (R30). -/
def Reg.timeAddend : Nat := ctlAddr 0x0 (0x118)
/-- LANTERN.TIME_STEP (R30). -/
def Reg.timeStep : Nat := ctlAddr 0x0 (0x120)
/-- LANTERN.BOOT_STATUS (R426). -/
def Reg.bootStatus : Nat := ctlAddr 0x0 (0x140)
/-- LANTERN.ALARM_STATUS (R433). -/
def Reg.alarmStatus : Nat := ctlAddr 0x0 (0x180)
/-- LANTERN.PWR_MODE (R409). -/
def Reg.pwrMode : Nat := ctlAddr 0x0 (0x200)
/-- LANTERN.PWR_STATUS (R409). -/
def Reg.pwrStatus : Nat := ctlAddr 0x0 (0x204)
/-- LANTERN.WAKE_EN (R412). -/
def Reg.wakeEn : Nat := ctlAddr 0x0 (0x208)
/-- LANTERN.WAKE_PORTS (R412). -/
def Reg.wakePorts : Nat := ctlAddr 0x0 (0x20c)
/-- LANTERN.WAKE_TIMER (R412). -/
def Reg.wakeTimer : Nat := ctlAddr 0x0 (0x210)
/-- LANTERN.WAKE_LATCH (R412). -/
def Reg.wakeLatch : Nat := ctlAddr 0x0 (0x218)
/-- LANTERN.TRIM_CFG (R409). -/
def Reg.trimCfg : Nat := ctlAddr 0x0 (0x220)
/-- LANTERN.RET_SEL[w] (R416). -/
def Reg.retSel (i : Nat) : Nat := ctlAddr 0x0 (0x300 + 0x4 * i)
/-- LANTERN.RET_SEL[5] (R416). -/
def Reg.retSel5 : Nat := ctlAddr 0x0 (0x314)
/-- LANTERN.RET_STATUS[b] (R416). -/
def Reg.retStatus (i : Nat) : Nat := ctlAddr 0x0 (0x800 + 0x4 * i)
/-- TB.HEAD (R437). -/
def Reg.tbHead : Nat := ctlAddr 0x0 (0x1000)
/-- TB.HEAD_LOC (R437). -/
def Reg.tbHeadLoc : Nat := ctlAddr 0x0 (0x1004)
/-- TB.FREEZE (R437). -/
def Reg.tbFreeze : Nat := ctlAddr 0x0 (0x1008)
/-- TB.LOST (R437). -/
def Reg.tbLost : Nat := ctlAddr 0x0 (0x100c)
/-- TB.MISSED (R437). -/
def Reg.tbMissed : Nat := ctlAddr 0x0 (0x1010)
/-- TB.FW_DATA[w] (R437). -/
def Reg.tbFwData (i : Nat) : Nat := ctlAddr 0x0 (0x1040 + 0x4 * i)
/-- TB.FW_CODE (R437). -/
def Reg.tbFwCode : Nat := ctlAddr 0x0 (0x1068)
/-- LANTERN.BOOT_CTL (R426). -/
def Reg.bootCtl : Nat := ctlAddr 0x0 (0x800100)
/-- LANTERN.ALARM_CTL (R433). -/
def Reg.alarmCtl : Nat := ctlAddr 0x0 (0x800180)
/-- LANTERN.FUSE_CMD (R430). -/
def Reg.fuseCmd : Nat := ctlAddr 0x0 (0x800200)
/-- LANTERN.FUSE_DATA (R430). -/
def Reg.fuseData : Nat := ctlAddr 0x0 (0x800204)
/-- LANTERN.FUSE_RESULT (R430). -/
def Reg.fuseResult : Nat := ctlAddr 0x0 (0x800208)
/-- LANTERN.KS_GFLOOR[b] (R259). -/
def Reg.ksGfloor (i : Nat) : Nat := ctlAddr 0x0 (0x800400 + 0x4 * i)
/-- LANTERN.FUSE_ROW[r] (R429). -/
def Reg.fuseRow (i : Nat) : Nat := ctlAddr 0x0 (0x801000 + 0x4 * i)
/-- PORT.MODE (R139). -/
def Reg.portMode (n : Nat) : Nat := ctlAddr (0x1 + n) (0x0)
/-- PORT.STATUS (R139). -/
def Reg.portStatus (n : Nat) : Nat := ctlAddr (0x1 + n) (0x4)
/-- PORT.SUB_CFG[s] (R139). -/
def Reg.portSubCfg (n i : Nat) : Nat := ctlAddr (0x1 + n) (0x1000 + 0x100 * i)
/-- PORT.PFC_WD[s] (R147). -/
def Reg.portPfcWd (n i : Nat) : Nat := ctlAddr (0x1 + n) (0x1008 + 0x100 * i)
/-- PORT.PFC_STALL[s] (R147). -/
def Reg.portPfcStall (n i : Nat) : Nat := ctlAddr (0x1 + n) (0x100c + 0x100 * i)
/-- PORT.CNT[s][c] (R142). -/
def Reg.portCnt (n i j : Nat) : Nat := ctlAddr (0x1 + n) (0x2000 + 0x100 * i + 0x8 * j)
/-- PORT.CNT_HALF[s] (R142). -/
def Reg.portCntHalf (n i : Nat) : Nat := ctlAddr (0x1 + n) (0x2800 + 0x4 * i)
/-- PORT.PTP_CFG (R151). -/
def Reg.portPtpCfg (n : Nat) : Nat := ctlAddr (0x1 + n) (0x100)
/-- PORT.PTP_TXTS (R151). -/
def Reg.portPtpTxts (n : Nat) : Nat := ctlAddr (0x1 + n) (0x110)
/-- PORT.PTP_POP (R151). -/
def Reg.portPtpPop (n : Nat) : Nat := ctlAddr (0x1 + n) (0x120)
/-- PORT.WAKE_CFG (R154). -/
def Reg.portWakeCfg (n : Nat) : Nat := ctlAddr (0x1 + n) (0x200)
/-- PORT.WAKE_PAT[i] (R154). -/
def Reg.portWakePat (n i : Nat) : Nat := ctlAddr (0x1 + n) (0x400 + 0x20 * i)
/-- PIPE.PROFILE[p] (R163). -/
def Reg.pipeProfile (n i : Nat) : Nat := ctlAddr (0x21 + n) (0x200 + 0x8 * i)
/-- PIPE.SLOT_TBL[k][n] (R163). -/
def Reg.pipeSlotTbl (n i j : Nat) : Nat := ctlAddr (0x21 + n) (0x4000 + 0x100 * i + 0x10 * j)
/-- PIPE.PROG[k][n][i] (R163). -/
def Reg.pipeProg (n i j k : Nat) : Nat := ctlAddr (0x21 + n) (0x800000 + 0x1000 * i + 0x80 * j + 0x4 * k)
/-- PIPE.TABLE[t] (R172). -/
def Reg.pipeTable (n i : Nat) : Nat := ctlAddr (0x21 + n) (0x600 + 0x8 * i)
/-- PIPE.RCMP[k][i] (R174). -/
def Reg.pipeRcmp (n i j : Nat) : Nat := ctlAddr (0x21 + n) (0x1000 + 0x200 * i + 0x8 * j)
/-- PIPE.SUBPORT_CFG[j][s] (R175). -/
def Reg.pipeSubportCfg (n i j : Nat) : Nat := ctlAddr (0x21 + n) (0x100 + 0x20 * i + 0x4 * j)
/-- PIPE.SPREAD[s] (R180). -/
def Reg.pipeSpread (n i : Nat) : Nat := ctlAddr (0x21 + n) (0x3000 + 0x20 * i)
/-- PIPE.REORDER_CFG (R180). -/
def Reg.pipeReorderCfg (n : Nat) : Nat := ctlAddr (0x21 + n) (0x80)
/-- PIPE.CNT[c] (R181). -/
def Reg.pipeCnt (n i : Nat) : Nat := ctlAddr (0x21 + n) (0x800 + 0x8 * i)
/-- TM.SHAPER_CFG[x], class K x = 12368-12383 (R223). -/
def Reg.tmShaperCfgK (n i : Nat) : Nat := ctlAddr (0x31 + n) (0x118280 + 0x8 * i)
/-- TM.SHAPER_CFG[x], x = 0-12367 (R223). -/
def Reg.tmShaperCfg (n i : Nat) : Nat := ctlAddr (0x31 + n) (0x100000 + 0x8 * i)
/-- TM.SHAPER_BAL[x] (R223). -/
def Reg.tmShaperBal (n i : Nat) : Nat := ctlAddr (0x31 + n) (0x120000 + 0x8 * i)
/-- TM.QUEUE_CFG[j][q] (R223). -/
def Reg.tmQueueCfg (n i j : Nat) : Nat := ctlAddr (0x31 + n) (0x200000 + 0x10000 * i + 0x10 * j)
/-- TM.SQUEUE_CFG[j][s][l] (R223). -/
def Reg.tmSqueueCfg (n i j k : Nat) : Nat := ctlAddr (0x31 + n) (0x220000 + 0x100 * i + 0x20 * j + 0x8 * k)
/-- TM.QUEUE_STATE[j][q] (R223). -/
def Reg.tmQueueState (n i j : Nat) : Nat := ctlAddr (0x31 + n) (0x240000 + 0x8000 * i + 0x8 * j)
/-- TM.VTIME[j][s] (R223). -/
def Reg.tmVtime (n i j : Nat) : Nat := ctlAddr (0x31 + n) (0x260000 + 0x40 * i + 0x8 * j)
/-- TM.SUB_CFG[j][s] (R223). -/
def Reg.tmSubCfg (n i j : Nat) : Nat := ctlAddr (0x31 + n) (0x280000 + 0x20 * i + 0x4 * j)
/-- TM.CNT[j][s][c] (R223). -/
def Reg.tmCnt (n i j k : Nat) : Nat := ctlAddr (0x31 + n) (0x2a0000 + 0x400 * i + 0x80 * j + 0x8 * k)
/-- side TM.SHAPER_CFG[12368] (R225). -/
def Reg.sideShaperCfgK (n : Nat) : Nat := ctlAddr (0x61 + n) (0x118280)
/-- side TM.SHAPER_CFG[q] (R225). -/
def Reg.sideShaperCfgQ (n i : Nat) : Nat := ctlAddr (0x61 + n) (0x100000 + 0x8 * i)
/-- side TM.SHAPER_CFG[8192+l] (R225). -/
def Reg.sideShaperCfgL (n i : Nat) : Nat := ctlAddr (0x61 + n) (0x110000 + 0x8 * i)
/-- side TM.SHAPER_CFG[12352] (R225). -/
def Reg.sideShaperCfgS (n : Nat) : Nat := ctlAddr (0x61 + n) (0x118200)
/-- side TM.SHAPER_BAL[q] (R225). -/
def Reg.sideShaperBalQ (n i : Nat) : Nat := ctlAddr (0x61 + n) (0x120000 + 0x8 * i)
/-- side TM.SHAPER_BAL[8192+l] (R225). -/
def Reg.sideShaperBalL (n i : Nat) : Nat := ctlAddr (0x61 + n) (0x130000 + 0x8 * i)
/-- side TM.SHAPER_BAL[12352] (R225). -/
def Reg.sideShaperBalS (n : Nat) : Nat := ctlAddr (0x61 + n) (0x138200)
/-- side TM.SHAPER_BAL[12368] (R225). -/
def Reg.sideShaperBalK (n : Nat) : Nat := ctlAddr (0x61 + n) (0x138280)
/-- side TM.QUEUE_CFG[0][q] (R225). -/
def Reg.sideQueueCfg (n i : Nat) : Nat := ctlAddr (0x61 + n) (0x200000 + 0x10 * i)
/-- side TM.SQUEUE_CFG[0][0][l] (R225). -/
def Reg.sideSqueueCfg (n i : Nat) : Nat := ctlAddr (0x61 + n) (0x220000 + 0x8 * i)
/-- side TM.QUEUE_STATE[0][q] (R225). -/
def Reg.sideQueueState (n i : Nat) : Nat := ctlAddr (0x61 + n) (0x240000 + 0x8 * i)
/-- side TM.VTIME[0][0] (R225). -/
def Reg.sideVtime (n : Nat) : Nat := ctlAddr (0x61 + n) (0x260000)
/-- side TM.SUB_CFG[0][0] (R225). -/
def Reg.sideSubCfg (n : Nat) : Nat := ctlAddr (0x61 + n) (0x280000)
/-- side TM.CNT[0][0][c] (R225). -/
def Reg.sideCnt (n i : Nat) : Nat := ctlAddr (0x61 + n) (0x2a0000 + 0x8 * i)
/-- POL.CFG[n] (ingress) (R231). -/
def Reg.polCfgI (n i : Nat) : Nat := ctlAddr (0x21 + n) (0x60000 + 0x10 * i)
/-- POL.CFG[n] (fabric) (R231). -/
def Reg.polCfgF (i : Nat) : Nat := ctlAddr 0x41 (0x60000 + 0x10 * i)
/-- POL.CFG[n] (host, Hamper) (R231). -/
def Reg.polCfgH (n i : Nat) : Nat := ctlAddr (0x61 + n) (0x60000 + 0x10 * i)
/-- POL.BAL[n] (R231). -/
def Reg.polBal (n i : Nat) : Nat := ctlAddr (0x21 + n) (0x70000 + 0x8 * i)
/-- POL.BAL[n] (fabric) (R231). -/
def Reg.polBalF (i : Nat) : Nat := ctlAddr 0x41 (0x70000 + 0x8 * i)
/-- POL.BAL[n] (host, Hamper) (R231). -/
def Reg.polBalH (n i : Nat) : Nat := ctlAddr (0x61 + n) (0x70000 + 0x8 * i)
/-- POL.CNT[n][c] (R231). -/
def Reg.polCnt (n i j : Nat) : Nat := ctlAddr (0x21 + n) (0x80000 + 0x20 * i + 0x8 * j)
/-- POL.CNT[n][c] (fabric) (R231). -/
def Reg.polCntF (i j : Nat) : Nat := ctlAddr 0x41 (0x80000 + 0x20 * i + 0x8 * j)
/-- POL.CNT[n][c] (host, Hamper) (R231). -/
def Reg.polCntH (n i j : Nat) : Nat := ctlAddr (0x61 + n) (0x80000 + 0x20 * i + 0x8 * j)
/-- FAB.FMT_GEN (R42). -/
def Reg.fmtGen : Nat := ctlAddr 0x41 (0x20000)
/-- FAB.GENEVE_OPT (R45). -/
def Reg.geneveOpt : Nat := ctlAddr 0x41 (0x20004)
/-- FAB.EXC_DOUBLE (R52). -/
def Reg.excDouble : Nat := ctlAddr 0x41 (0x20008)
/-- FAB.SVC_NOOP_IN[b] (R52). -/
def Reg.svcNoopIn (i : Nat) : Nat := ctlAddr 0x41 (0x20100 + 0x8 * i)
/-- FAB.SVC_NOOP_OUT[b] (R52). -/
def Reg.svcNoopOut (i : Nat) : Nat := ctlAddr 0x41 (0x20180 + 0x8 * i)
/-- FAB.EXC_CNT[r] (R52). -/
def Reg.excCnt (i : Nat) : Nat := ctlAddr 0x41 (0x20800 + 0x8 * i)
/-- FAB.FLOW_CLASS[0] (R177). -/
def Reg.flowClass0 : Nat := ctlAddr 0x41 (0x30000)
/-- FAB.FLOW_CLASS[f], f = 1-1023 (R177). -/
def Reg.flowClass (i : Nat) : Nat := ctlAddr 0x41 (0x30010 + 0x10 * i)
/-- FAB.WGROUP[g] (R178). -/
def Reg.wgroup (i : Nat) : Nat := ctlAddr 0x41 (0x34000 + 0x8 * i)
/-- FAB.WGROUP_DROP[g] (R178). -/
def Reg.wgroupDrop (i : Nat) : Nat := ctlAddr 0x41 (0x35000 + 0x8 * i)
/-- FAB.TUN_PROFILE[t] (R454). -/
def Reg.tunProfile (i : Nat) : Nat := ctlAddr 0x41 (0x36000 + 0x10 * i)
/-- FAB.TUN_TEMPLATE[t][w] (R454). -/
def Reg.tunTemplate (i j : Nat) : Nat := ctlAddr 0x41 (0x38000 + 0x80 * i + 0x4 * j)
/-- FAB.MEM_CFG (R196). -/
def Reg.memCfg : Nat := ctlAddr 0x41 (0x40000)
/-- FAB.SPILL_CFG (R202). -/
def Reg.spillCfg : Nat := ctlAddr 0x41 (0x40008)
/-- FAB.SPILL_STATUS[j] (R202). -/
def Reg.spillStatus (i : Nat) : Nat := ctlAddr 0x41 (0x40100 + 0x4 * i)
/-- FAB.CB_REGION[r] (R198). -/
def Reg.cbRegion (i : Nat) : Nat := ctlAddr 0x41 (0x40200 + 0x8 * i)
/-- FAB.IACC[e] (R196). -/
def Reg.iacc (i : Nat) : Nat := ctlAddr 0x41 (0x41000 + 0x8 * i)
/-- FAB.IACC_USE[e] (R196). -/
def Reg.iaccUse (i : Nat) : Nat := ctlAddr 0x41 (0x45000 + 0x8 * i)
/-- FAB.AGE[o][c] (R203). -/
def Reg.fabAge (i j : Nat) : Nat := ctlAddr 0x41 (0x49000 + 0x20 * i + 0x4 * j)
/-- FAB.AGE_K (R203). -/
def Reg.fabAgeK : Nat := ctlAddr 0x41 (0x49400)
/-- FAB.MIRROR[m] (R205). -/
def Reg.mirror (i : Nat) : Nat := ctlAddr 0x41 (0x4a000 + 0x10 * i)
/-- FAB.MIRROR_CNT[m] (R205). -/
def Reg.mirrorCnt (i j : Nat) : Nat := ctlAddr 0x41 (0x4a100 + 0x10 * i + 0x8 * j)
/-- FAB.CAP_CFG (R207). -/
def Reg.capCfg : Nat := ctlAddr 0x41 (0x4b000)
/-- FAB.CAP_BASE (R207). -/
def Reg.capBase : Nat := ctlAddr 0x41 (0x4b008)
/-- FAB.CAP_PROD (R207). -/
def Reg.capProd : Nat := ctlAddr 0x41 (0x4b010)
/-- FAB.CAP_CONS (R207). -/
def Reg.capCons : Nat := ctlAddr 0x41 (0x4b014)
/-- FAB.CNT[c] (R208). -/
def Reg.fabCnt (i : Nat) : Nat := ctlAddr 0x41 (0x4c000 + 0x8 * i)
/-- CL.THREAD_FAULT (R96). -/
def Reg.threadFault (n : Nat) : Nat := ctlAddr (0x42 + n) (0x200)
/-- CL.STALEMATE_CTL (R122). -/
def Reg.staleCtl (n : Nat) : Nat := ctlAddr (0x42 + n) (0x300)
/-- CL.STALEMATE_STATUS (R122). -/
def Reg.staleStatus (n : Nat) : Nat := ctlAddr (0x42 + n) (0x304)
/-- CL.STALEMATE_COUNT (R122). -/
def Reg.staleCount (n : Nat) : Nat := ctlAddr (0x42 + n) (0x308)
/-- CL.WAIT_UNDISC (R122). -/
def Reg.waitUndisc (n : Nat) : Nat := ctlAddr (0x42 + n) (0x30c)
/-- CL.WAIT_UNDISC_LAST (R122). -/
def Reg.waitUndiscLast (n : Nat) : Nat := ctlAddr (0x42 + n) (0x310)
/-- CL.LOOK_BIND[t] (R173). -/
def Reg.lookBind (n i : Nat) : Nat := ctlAddr (0x42 + n) (0x400 + 0x4 * i)
/-- CL.STS_CNT (R291). -/
def Reg.stsCnt (n : Nat) : Nat := ctlAddr (0x42 + n) (0x500)
/-- CL.WAIT_SNAP[i] (R122). -/
def Reg.waitSnap (n i : Nat) : Nat := ctlAddr (0x42 + n) (0x1000 + 0x10 * i)
/-- FERRY.CH_CFG[c], c = 16-63 (R355). -/
def Reg.ferryCfgN (i : Nat) : Nat := ctlAddr 0x52 (0x10400 + 0x40 * i)
/-- FERRY.CH_TAIL[c], c = 16-63 (R355). -/
def Reg.ferryTailN (i : Nat) : Nat := ctlAddr 0x52 (0x10408 + 0x40 * i)
/-- FERRY.CH_HEAD[c], c = 16-63 (R355). -/
def Reg.ferryHeadN (i : Nat) : Nat := ctlAddr 0x52 (0x1040c + 0x40 * i)
/-- FERRY.CH_STATUS[c], c = 16-63 (R355). -/
def Reg.ferryStatusN (i : Nat) : Nat := ctlAddr 0x52 (0x10410 + 0x40 * i)
/-- FERRY.CH_CTL[c], c = 16-63 (R355). -/
def Reg.ferryCtlN (i : Nat) : Nat := ctlAddr 0x52 (0x10414 + 0x40 * i)
/-- FERRY.CH_CFG[c], c = 0-15 (R355). -/
def Reg.ferryCfgS (i : Nat) : Nat := ctlAddr 0x52 (0x810000 + 0x40 * i)
/-- FERRY.CH_TAIL[c], c = 0-15 (R355). -/
def Reg.ferryTailS (i : Nat) : Nat := ctlAddr 0x52 (0x810008 + 0x40 * i)
/-- FERRY.CH_HEAD[c], c = 0-15 (R355). -/
def Reg.ferryHeadS (i : Nat) : Nat := ctlAddr 0x52 (0x81000c + 0x40 * i)
/-- FERRY.CH_STATUS[c], c = 0-15 (R355). -/
def Reg.ferryStatusS (i : Nat) : Nat := ctlAddr 0x52 (0x810010 + 0x40 * i)
/-- FERRY.CH_CTL[c], c = 0-15 (R355). -/
def Reg.ferryCtlS (i : Nat) : Nat := ctlAddr 0x52 (0x810014 + 0x40 * i)
/-- MB.CH_FLUSH[c], c = 16-63 (R373). -/
def Reg.chFlushN (i : Nat) : Nat := ctlAddr 0x52 (0x20040 + 0x4 * i)
/-- MB.CH_FLUSH[c], c = 0-15 (R373). -/
def Reg.chFlushS (i : Nat) : Nat := ctlAddr 0x52 (0x820000 + 0x4 * i)
/-- KS.STAGE[k][w] (R239). -/
def Reg.ksStage (i j : Nat) : Nat := ctlAddr 0x52 (0x800000 + 0x100 * i + 0x4 * j)
/-- KS.ATTR[k] (R239). -/
def Reg.ksAttr (i : Nat) : Nat := ctlAddr 0x52 (0x800040 + 0x100 * i)
/-- KS.LIMIT[k] (R239). -/
def Reg.ksLimit (i : Nat) : Nat := ctlAddr 0x52 (0x800048 + 0x100 * i)
/-- KS.CMD[k] (R239). -/
def Reg.ksCmd (i : Nat) : Nat := ctlAddr 0x52 (0x800050 + 0x100 * i)
/-- KS.RESULT[k] (R239). -/
def Reg.ksResult (i : Nat) : Nat := ctlAddr 0x52 (0x800054 + 0x100 * i)
/-- KS.META[k] (R239). -/
def Reg.ksMeta (i : Nat) : Nat := ctlAddr 0x52 (0x800060 + 0x100 * i)
/-- KS.CHAN_CFG[c] (R254). -/
def Reg.ksChanCfg (i : Nat) : Nat := ctlAddr 0x52 (0x801000 + 0x4 * i)
/-- KS.NOTIFY_CFG (R244). -/
def Reg.ksNotifyCfg : Nat := ctlAddr 0x52 (0x801400)
/-- KS.NOTIFY_LOST (R244). -/
def Reg.ksNotifyLost : Nat := ctlAddr 0x52 (0x801408)
/-- CIPH.ISLAND_CFG (R236). -/
def Reg.ciphIslandCfg (n : Nat) : Nat := ctlAddr (0x53 + n) (0x0)
/-- CIPH.CQ_CFG[j] (R249). -/
def Reg.cqCfg (n i : Nat) : Nat := ctlAddr (0x53 + n) (0x1000 + 0x10 * i)
/-- CIPH.CQ_PROD[j] (R249). -/
def Reg.cqProd (n i : Nat) : Nat := ctlAddr (0x53 + n) (0x1008 + 0x10 * i)
/-- CIPH.CQ_CONS[j] (R249). -/
def Reg.cqCons (n i : Nat) : Nat := ctlAddr (0x53 + n) (0x100c + 0x10 * i)
/-- CIPH.CNT[c] (R260). -/
def Reg.ciphCnt (n i : Nat) : Nat := ctlAddr (0x53 + n) (0x2000 + 0x8 * i)
/-- CIPH.CQ_PEND[j] (R250). -/
def Reg.cqPend (n i : Nat) : Nat := ctlAddr (0x53 + n) (0x3000 + 0x4 * i)
/-- CIPH.IAR[i] (R245). -/
def Reg.ciphIar (n i : Nat) : Nat := ctlAddr (0x53 + n) (0x800000 + 0x20 * i)
/-- ING.JOB_CMD[r] (R274). -/
def Reg.jobCmd (n i : Nat) : Nat := ctlAddr (0x5b + n) (0x0 + 0x8 * i)
/-- ING.JOB_RESULT[r] (R274). -/
def Reg.jobResult (n i : Nat) : Nat := ctlAddr (0x5b + n) (0x4 + 0x8 * i)
/-- ING.SHAPER_CFG[x] (R279). -/
def Reg.ingShaperCfg (n i : Nat) : Nat := ctlAddr (0x5b + n) (0x10000 + 0x8 * i)
/-- ING.SHAPER_BAL[x] (R279). -/
def Reg.ingShaperBal (n i : Nat) : Nat := ctlAddr (0x5b + n) (0x12000 + 0x8 * i)
/-- ING.CNT[c] (R291). -/
def Reg.ingCnt (n i : Nat) : Nat := ctlAddr (0x5b + n) (0x20000 + 0x8 * i)
/-- PF0.DEV_STATUS (R306). -/
def Reg.devStatus (n : Nat) : Nat := ctlAddr (0x61 + n) (0x0)
/-- PF0.FW_BUILD (R306). -/
def Reg.fwBuild (n : Nat) : Nat := ctlAddr (0x61 + n) (0x4)
/-- PF0.INT_CAUSE (R306). -/
def Reg.intCause (n : Nat) : Nat := ctlAddr (0x61 + n) (0x8)
/-- PF0.INT_EN (R306). -/
def Reg.intEn (n : Nat) : Nat := ctlAddr (0x61 + n) (0xc)
/-- HOST.LINK_STATUS (R318). -/
def Reg.linkStatus (n : Nat) : Nat := ctlAddr (0x61 + n) (0x400)
/-- HOST.TAG_STATUS (R311). -/
def Reg.tagStatus (n : Nat) : Nat := ctlAddr (0x61 + n) (0x408)
/-- HOST.EVENT (R315). -/
def Reg.hostEvent (n : Nat) : Nat := ctlAddr (0x61 + n) (0x410)
/-- HOST.EVENT_CFG (R315). -/
def Reg.hostEventCfg (n : Nat) : Nat := ctlAddr (0x61 + n) (0x414)
/-- HOST.CNT[c] (R318). -/
def Reg.hostCnt (n i : Nat) : Nat := ctlAddr (0x61 + n) (0x800 + 0x8 * i)
/-- HOST.WIN_WRITE_EN (R303). -/
def Reg.winWriteEn (n : Nat) : Nat := ctlAddr (0x61 + n) (0x800000)
/-- HL.CFG (R386). -/
def Reg.hlCfg (n : Nat) : Nat := ctlAddr (0x63 + n) (0x0)
/-- HL.STATUS (R386). -/
def Reg.hlStatus (n : Nat) : Nat := ctlAddr (0x63 + n) (0x4)
/-- HL.CREDIT_INIT[0] (R386). -/
def Reg.hlCredit0 (n : Nat) : Nat := ctlAddr (0x63 + n) (0x10)
/-- HL.CREDIT_INIT[1] (R386). -/
def Reg.hlCredit1 (n : Nat) : Nat := ctlAddr (0x63 + n) (0x14)
/-- HL.CREDIT_INIT[2] (R386). -/
def Reg.hlCredit2 (n : Nat) : Nat := ctlAddr (0x63 + n) (0x18)
/-- HL.CREDIT_INIT[3] (R386). -/
def Reg.hlCredit3 (n : Nat) : Nat := ctlAddr (0x63 + n) (0x1c)
/-- HL.FWTX_CFG (R386). -/
def Reg.hlFwtxCfg (n : Nat) : Nat := ctlAddr (0x63 + n) (0x100)
/-- HL.FWTX_TAIL (R386). -/
def Reg.hlFwtxTail (n : Nat) : Nat := ctlAddr (0x63 + n) (0x108)
/-- HL.FWTX_HEAD (R386). -/
def Reg.hlFwtxHead (n : Nat) : Nat := ctlAddr (0x63 + n) (0x10c)
/-- HL.FWRX_CFG[i] (R386). -/
def Reg.hlFwrxCfg (n i : Nat) : Nat := ctlAddr (0x63 + n) (0x110 + 0x10 * i)
/-- HL.FWRX_PROD[i] (R386). -/
def Reg.hlFwrxProd (n i : Nat) : Nat := ctlAddr (0x63 + n) (0x118 + 0x10 * i)
/-- HL.FWRX_CONS[i] (R386). -/
def Reg.hlFwrxCons (n i : Nat) : Nat := ctlAddr (0x63 + n) (0x11c + 0x10 * i)
/-- HL.RX_CFG (R384). -/
def Reg.hlRxCfg (n : Nat) : Nat := ctlAddr (0x63 + n) (0x200)
/-- HL.RX_DEST[t] (R384). -/
def Reg.hlRxDest (n i : Nat) : Nat := ctlAddr (0x63 + n) (0x240 + 0x8 * i)
/-- HL.CNT[c] (R386). -/
def Reg.hlCnt (n i : Nat) : Nat := ctlAddr (0x63 + n) (0x800 + 0x8 * i)
/-- PAIR.CFG (R401). -/
def Reg.pairCfg : Nat := ctlAddr 0x68 (0x8000)
/-- PAIR.DIAG_CFG (R401). -/
def Reg.pairDiagCfg : Nat := ctlAddr 0x68 (0x8004)
/-- PAIR.CTL (R401). -/
def Reg.pairCtl : Nat := ctlAddr 0x68 (0x8008)
/-- PAIR.FW_STATE (R401). -/
def Reg.pairFwState : Nat := ctlAddr 0x68 (0x800c)
/-- PAIR.STATUS (R401). -/
def Reg.pairStatus : Nat := ctlAddr 0x68 (0x8010)
/-- PAIR.CLAIM (R401). -/
def Reg.pairClaim : Nat := ctlAddr 0x68 (0x8014)
/-- PAIR.PEER_CLAIM (R401). -/
def Reg.pairPeerClaim : Nat := ctlAddr 0x68 (0x8018)
/-- PAIR.PEER_GEN (R401). -/
def Reg.pairPeerGen : Nat := ctlAddr 0x68 (0x801c)
/-- PAIR.WRAP_SLOT (R401). -/
def Reg.pairWrapSlot : Nat := ctlAddr 0x68 (0x808000)

/-! The fields. -/

abbrev timeCtl_SNAP : Fld := ⟨0, 1⟩
abbrev timeCtl_STEP : Fld := ⟨1, 1⟩
abbrev timeCtl_SNAP_DONE : Fld := ⟨2, 1⟩
abbrev timeSnap_FRAC : Fld := ⟨0, 16⟩
abbrev timeSnap_TOD_NS : Fld := ⟨32, 64⟩
abbrev timeSnap_ICT_NS : Fld := ⟨96, 64⟩
abbrev timeAddend_ADDEND : Fld := ⟨0, 32⟩
abbrev timeStep_STEP_NS : Fld := ⟨0, 64⟩
abbrev bootStatus_SLOT : Fld := ⟨0, 1⟩
abbrev bootStatus_FALLBACK : Fld := ⟨1, 1⟩
abbrev bootStatus_UNPROVISIONED : Fld := ⟨2, 1⟩
abbrev bootStatus_ROLLBACK : Fld := ⟨3, 8⟩
abbrev bootStatus_COUNTER : Fld := ⟨11, 8⟩
abbrev bootStatus_REASON : Fld := ⟨19, 4⟩
abbrev alarmStatus_ACTIVE : Fld := ⟨0, 5⟩
abbrev alarmStatus_SEEN : Fld := ⟨5, 5⟩
abbrev alarmStatus_FAIL_CLOSED : Fld := ⟨10, 1⟩
abbrev alarmStatus_THERM_WARN : Fld := ⟨11, 1⟩
abbrev alarmStatus_THERM_TRIP : Fld := ⟨12, 1⟩
abbrev alarmStatus_TEMP_MAX : Fld := ⟨16, 8⟩
abbrev pwrMode_TARGET : Fld := ⟨0, 3⟩
abbrev pwrStatus_CUR : Fld := ⟨0, 3⟩
abbrev pwrStatus_BUSY : Fld := ⟨3, 1⟩
abbrev pwrStatus_PEND_TARGET : Fld := ⟨4, 3⟩
abbrev pwrStatus_PEND_VALID : Fld := ⟨7, 1⟩
abbrev pwrStatus_RESUME : Fld := ⟨8, 3⟩
abbrev pwrStatus_LAST_WAKE : Fld := ⟨16, 4⟩
abbrev wakeEn_SIGNAL : Fld := ⟨0, 1⟩
abbrev wakeEn_PATTERN : Fld := ⟨1, 1⟩
abbrev wakeEn_PCIE_H0 : Fld := ⟨2, 1⟩
abbrev wakeEn_PCIE_H1 : Fld := ⟨3, 1⟩
abbrev wakeEn_TIMER : Fld := ⟨4, 1⟩
abbrev wakeEn_PAIR_HOLD : Fld := ⟨5, 1⟩
abbrev wakePorts_PORTS : Fld := ⟨0, 32⟩
abbrev wakeTimer_ICT_NS : Fld := ⟨0, 64⟩
abbrev wakeLatch_EVENTS : Fld := ⟨0, 8⟩
abbrev wakeLatch_PORT : Fld := ⟨8, 5⟩
abbrev wakeLatch_SUBPORT : Fld := ⟨13, 3⟩
abbrev wakeLatch_PATTERN : Fld := ⟨16, 4⟩
abbrev trimCfg_OFF_PORT : Fld := ⟨0, 32⟩
abbrev trimCfg_OFF_HL : Fld := ⟨32, 6⟩
abbrev trimCfg_IDLE : Fld := ⟨38, 10⟩
abbrev retSel_SEL : Fld := ⟨0, 32⟩
abbrev retSel5_SEL : Fld := ⟨0, 21⟩
abbrev retStatus_LOST : Fld := ⟨0, 1⟩
abbrev retStatus_DROPPED : Fld := ⟨1, 1⟩
abbrev retStatus_CANARY_BAD : Fld := ⟨2, 1⟩
abbrev retStatus_ECC_UNCORR : Fld := ⟨3, 1⟩
abbrev retStatus_CORRECTED : Fld := ⟨16, 16⟩
abbrev tbHead_INDEX : Fld := ⟨0, 32⟩
abbrev tbHeadLoc_LOC : Fld := ⟨0, 15⟩
abbrev tbFreeze_FROZEN : Fld := ⟨0, 1⟩
abbrev tbFreeze_FIRST_LOC : Fld := ⟨1, 15⟩
abbrev tbFreeze_UNREAD : Fld := ⟨16, 13⟩
abbrev tbFreeze_RELEASE : Fld := ⟨29, 1⟩
abbrev tbLost_COUNT : Fld := ⟨0, 32⟩
abbrev tbMissed_COUNT : Fld := ⟨0, 32⟩
abbrev tbFwData_WORD : Fld := ⟨0, 32⟩
abbrev tbFwCode_CODE : Fld := ⟨0, 16⟩
abbrev tbFwCode_FATAL : Fld := ⟨16, 1⟩
abbrev bootCtl_SLOT_OVERRIDE : Fld := ⟨0, 2⟩
abbrev bootCtl_REBOOT : Fld := ⟨2, 1⟩
abbrev alarmCtl_CLEAR : Fld := ⟨0, 1⟩
abbrev fuseCmd_ROW : Fld := ⟨0, 8⟩
abbrev fuseCmd_OP : Fld := ⟨8, 2⟩
abbrev fuseData_DATA : Fld := ⟨0, 32⟩
abbrev fuseResult_BUSY : Fld := ⟨0, 1⟩
abbrev fuseResult_CODE : Fld := ⟨1, 2⟩
abbrev ksGfloor_FLOOR : Fld := ⟨0, 32⟩
abbrev fuseRow_ROW : Fld := ⟨0, 32⟩
abbrev portMode_SPLIT : Fld := ⟨0, 2⟩
abbrev portMode_AN : Fld := ⟨2, 1⟩
abbrev portMode_IFACE : Fld := ⟨3, 1⟩
abbrev portMode_SUB_EN : Fld := ⟨8, 8⟩
abbrev portStatus_LINK : Fld := ⟨0, 8⟩
abbrev portStatus_FEC_LOCK : Fld := ⟨8, 8⟩
abbrev portStatus_LINK_LOST : Fld := ⟨16, 8⟩
abbrev portSubCfg_MAXFRAME : Fld := ⟨0, 14⟩
abbrev portSubCfg_OVS_MODE : Fld := ⟨14, 1⟩
abbrev portSubCfg_TRUNC_LEN : Fld := ⟨16, 8⟩
abbrev portSubCfg_PFC_RX : Fld := ⟨24, 8⟩
abbrev portSubCfg_PFC_TX : Fld := ⟨32, 8⟩
abbrev portSubCfg_PAUSE_RX : Fld := ⟨40, 1⟩
abbrev portPfcWd_LIMIT : Fld := ⟨0, 16⟩
abbrev portPfcWd_RESTORE : Fld := ⟨16, 16⟩
abbrev portPfcStall_STALLED : Fld := ⟨0, 8⟩
abbrev portPfcStall_STALL_SEEN : Fld := ⟨8, 8⟩
abbrev portCnt_COUNT : Fld := ⟨0, 40⟩
abbrev portCntHalf_HALF : Fld := ⟨0, 32⟩
abbrev portPtpCfg_ONE_STEP : Fld := ⟨0, 1⟩
abbrev portPtpCfg_TWO_STEP : Fld := ⟨1, 1⟩
abbrev portPtpCfg_RX_DELAY : Fld := ⟨4, 12⟩
abbrev portPtpCfg_TX_DELAY : Fld := ⟨16, 12⟩
abbrev portPtpTxts_TOD_NS : Fld := ⟨0, 64⟩
abbrev portPtpTxts_HALF : Fld := ⟨64, 1⟩
abbrev portPtpTxts_SUBPORT : Fld := ⟨65, 3⟩
abbrev portPtpTxts_MSGTYPE : Fld := ⟨68, 4⟩
abbrev portPtpTxts_DOMAIN : Fld := ⟨72, 8⟩
abbrev portPtpTxts_SEQ_ID : Fld := ⟨80, 16⟩
abbrev portPtpTxts_VALID : Fld := ⟨96, 1⟩
abbrev portPtpPop_POP : Fld := ⟨0, 1⟩
abbrev portWakeCfg_SD_EN : Fld := ⟨0, 1⟩
abbrev portWakeCfg_PAT_EN : Fld := ⟨1, 1⟩
abbrev portWakePat_MASK : Fld := ⟨0, 128⟩
abbrev portWakePat_CHECK : Fld := ⟨128, 16⟩
abbrev portWakePat_ENABLE : Fld := ⟨144, 1⟩
abbrev pipeProfile_SLOT : Fld := ⟨0, 48⟩
abbrev pipeProfile_RUN : Fld := ⟨48, 12⟩
abbrev pipeProg_INSN : Fld := ⟨0, 32⟩
abbrev pipeTable_BASE : Fld := ⟨0, 13⟩
abbrev pipeTable_LOG2_BUCKETS : Fld := ⟨16, 5⟩
abbrev pipeTable_KEYLEN : Fld := ⟨21, 2⟩
abbrev pipeTable_RESULTS : Fld := ⟨23, 2⟩
abbrev pipeTable_DIRECT : Fld := ⟨25, 1⟩
abbrev pipeTable_VALID : Fld := ⟨26, 1⟩
abbrev pipeTable_SEED : Fld := ⟨32, 32⟩
abbrev pipeRcmp_LOW : Fld := ⟨0, 16⟩
abbrev pipeRcmp_HIGH : Fld := ⟨16, 16⟩
abbrev pipeRcmp_TAG : Fld := ⟨32, 4⟩
abbrev pipeRcmp_VALID : Fld := ⟨36, 1⟩
abbrev pipeSubportCfg_DEF_INSTANCE : Fld := ⟨0, 12⟩
abbrev pipeSubportCfg_PROFILE : Fld := ⟨12, 4⟩
abbrev pipeSubportCfg_DEF_VERDICT : Fld := ⟨16, 2⟩
abbrev pipeSubportCfg_DEF_TARGET : Fld := ⟨18, 9⟩
abbrev pipeSpread_GROUP : Fld := ⟨0, 128⟩
abbrev pipeSpread_COUNT_M1 : Fld := ⟨128, 4⟩
abbrev pipeSpread_MODE : Fld := ⟨132, 1⟩
abbrev pipeSpread_REORDER : Fld := ⟨133, 1⟩
abbrev pipeSpread_VALID : Fld := ⟨134, 1⟩
abbrev pipeReorderCfg_WAIT : Fld := ⟨0, 10⟩
abbrev pipeCnt_COUNT : Fld := ⟨0, 40⟩
abbrev tmShaperCfgK_RATE : Fld := ⟨0, 20⟩
abbrev tmShaperCfgK_EN : Fld := ⟨20, 1⟩
abbrev tmShaperCfgK_BURST : Fld := ⟨32, 24⟩
abbrev tmShaperCfg_RATE : Fld := ⟨0, 20⟩
abbrev tmShaperCfg_EN : Fld := ⟨20, 1⟩
abbrev tmShaperCfg_BURST : Fld := ⟨32, 24⟩
abbrev tmShaperBal_BAL : Fld := ⟨0, 48⟩
abbrev tmQueueCfg_WEIGHT : Fld := ⟨0, 16⟩
abbrev tmQueueCfg_SUBPORT : Fld := ⟨16, 3⟩
abbrev tmQueueCfg_OWNER : Fld := ⟨19, 12⟩
abbrev tmQueueCfg_LIMIT_G : Fld := ⟨32, 16⟩
abbrev tmQueueCfg_LIMIT_Y : Fld := ⟨48, 16⟩
abbrev tmQueueCfg_LIMIT_R : Fld := ⟨64, 16⟩
abbrev tmSqueueCfg_LIMIT_G : Fld := ⟨0, 16⟩
abbrev tmSqueueCfg_LIMIT_Y : Fld := ⟨16, 16⟩
abbrev tmSqueueCfg_LIMIT_R : Fld := ⟨32, 16⟩
abbrev tmQueueState_BYTES : Fld := ⟨0, 32⟩
abbrev tmQueueState_ACTIVE : Fld := ⟨32, 1⟩
abbrev tmQueueState_SPILL : Fld := ⟨33, 1⟩
abbrev tmVtime_V : Fld := ⟨0, 48⟩
abbrev tmSubCfg_OVERHEAD : Fld := ⟨0, 8⟩
abbrev tmSubCfg_LEVEL_MAP : Fld := ⟨8, 24⟩
abbrev tmCnt_COUNT : Fld := ⟨0, 40⟩
abbrev sideShaperCfgK_RATE : Fld := ⟨0, 20⟩
abbrev sideShaperCfgK_EN : Fld := ⟨20, 1⟩
abbrev sideShaperCfgK_BURST : Fld := ⟨32, 24⟩
abbrev sideShaperCfgQ_RATE : Fld := ⟨0, 20⟩
abbrev sideShaperCfgQ_EN : Fld := ⟨20, 1⟩
abbrev sideShaperCfgQ_BURST : Fld := ⟨32, 24⟩
abbrev sideShaperCfgL_RATE : Fld := ⟨0, 20⟩
abbrev sideShaperCfgL_EN : Fld := ⟨20, 1⟩
abbrev sideShaperCfgL_BURST : Fld := ⟨32, 24⟩
abbrev sideShaperCfgS_RATE : Fld := ⟨0, 20⟩
abbrev sideShaperCfgS_EN : Fld := ⟨20, 1⟩
abbrev sideShaperCfgS_BURST : Fld := ⟨32, 24⟩
abbrev sideShaperBalQ_BAL : Fld := ⟨0, 48⟩
abbrev sideShaperBalL_BAL : Fld := ⟨0, 48⟩
abbrev sideShaperBalS_BAL : Fld := ⟨0, 48⟩
abbrev sideShaperBalK_BAL : Fld := ⟨0, 48⟩
abbrev sideQueueCfg_WEIGHT : Fld := ⟨0, 16⟩
abbrev sideQueueCfg_SUBPORT : Fld := ⟨16, 3⟩
abbrev sideQueueCfg_OWNER : Fld := ⟨19, 12⟩
abbrev sideQueueCfg_LIMIT_G : Fld := ⟨32, 16⟩
abbrev sideQueueCfg_LIMIT_Y : Fld := ⟨48, 16⟩
abbrev sideQueueCfg_LIMIT_R : Fld := ⟨64, 16⟩
abbrev sideSqueueCfg_LIMIT_G : Fld := ⟨0, 16⟩
abbrev sideSqueueCfg_LIMIT_Y : Fld := ⟨16, 16⟩
abbrev sideSqueueCfg_LIMIT_R : Fld := ⟨32, 16⟩
abbrev sideQueueState_BYTES : Fld := ⟨0, 32⟩
abbrev sideQueueState_ACTIVE : Fld := ⟨32, 1⟩
abbrev sideQueueState_SPILL : Fld := ⟨33, 1⟩
abbrev sideVtime_V : Fld := ⟨0, 48⟩
abbrev sideSubCfg_OVERHEAD : Fld := ⟨0, 8⟩
abbrev sideSubCfg_LEVEL_MAP : Fld := ⟨8, 24⟩
abbrev sideCnt_COUNT : Fld := ⟨0, 40⟩
abbrev polCfgI_CIR : Fld := ⟨0, 20⟩
abbrev polCfgI_PIR : Fld := ⟨20, 20⟩
abbrev polCfgI_MODE : Fld := ⟨40, 1⟩
abbrev polCfgI_AWARE : Fld := ⟨41, 1⟩
abbrev polCfgI_RED_DROP : Fld := ⟨42, 1⟩
abbrev polCfgI_VALID : Fld := ⟨43, 1⟩
abbrev polCfgI_OVERHEAD : Fld := ⟨44, 8⟩
abbrev polCfgI_CBS : Fld := ⟨64, 24⟩
abbrev polCfgI_EBS : Fld := ⟨88, 24⟩
abbrev polCfgF_CIR : Fld := ⟨0, 20⟩
abbrev polCfgF_PIR : Fld := ⟨20, 20⟩
abbrev polCfgF_MODE : Fld := ⟨40, 1⟩
abbrev polCfgF_AWARE : Fld := ⟨41, 1⟩
abbrev polCfgF_RED_DROP : Fld := ⟨42, 1⟩
abbrev polCfgF_VALID : Fld := ⟨43, 1⟩
abbrev polCfgF_OVERHEAD : Fld := ⟨44, 8⟩
abbrev polCfgF_CBS : Fld := ⟨64, 24⟩
abbrev polCfgF_EBS : Fld := ⟨88, 24⟩
abbrev polCfgH_CIR : Fld := ⟨0, 20⟩
abbrev polCfgH_PIR : Fld := ⟨20, 20⟩
abbrev polCfgH_MODE : Fld := ⟨40, 1⟩
abbrev polCfgH_AWARE : Fld := ⟨41, 1⟩
abbrev polCfgH_RED_DROP : Fld := ⟨42, 1⟩
abbrev polCfgH_VALID : Fld := ⟨43, 1⟩
abbrev polCfgH_OVERHEAD : Fld := ⟨44, 8⟩
abbrev polCfgH_CBS : Fld := ⟨64, 24⟩
abbrev polCfgH_EBS : Fld := ⟨88, 24⟩
abbrev polBal_C : Fld := ⟨0, 32⟩
abbrev polBal_E : Fld := ⟨32, 32⟩
abbrev polBalF_C : Fld := ⟨0, 32⟩
abbrev polBalF_E : Fld := ⟨32, 32⟩
abbrev polBalH_C : Fld := ⟨0, 32⟩
abbrev polBalH_E : Fld := ⟨32, 32⟩
abbrev polCnt_COUNT : Fld := ⟨0, 40⟩
abbrev polCntF_COUNT : Fld := ⟨0, 40⟩
abbrev polCntH_COUNT : Fld := ⟨0, 40⟩
abbrev fmtGen_CUR : Fld := ⟨0, 8⟩
abbrev fmtGen_GMIN : Fld := ⟨8, 8⟩
abbrev fmtGen_GMAX : Fld := ⟨16, 8⟩
abbrev geneveOpt_CLASS : Fld := ⟨0, 16⟩
abbrev geneveOpt_TYPE : Fld := ⟨16, 7⟩
abbrev excDouble_COUNT : Fld := ⟨0, 40⟩
abbrev svcNoopIn_COUNT : Fld := ⟨0, 40⟩
abbrev svcNoopOut_COUNT : Fld := ⟨0, 40⟩
abbrev excCnt_COUNT : Fld := ⟨0, 40⟩
abbrev flowClass0_SVC : Fld := ⟨0, 14⟩
abbrev flowClass0_EXC_KIND : Fld := ⟨14, 2⟩
abbrev flowClass0_EG_PROFILE : Fld := ⟨16, 4⟩
abbrev flowClass0_POLICER : Fld := ⟨20, 12⟩
abbrev flowClass0_EXC_GROUP : Fld := ⟨32, 8⟩
abbrev flowClass0_EXC_INSTANCE : Fld := ⟨40, 12⟩
abbrev flowClass0_EXC_QUEUE : Fld := ⟨52, 8⟩
abbrev flowClass0_VALID : Fld := ⟨96, 1⟩
abbrev flowClass_SVC : Fld := ⟨0, 14⟩
abbrev flowClass_EXC_KIND : Fld := ⟨14, 2⟩
abbrev flowClass_EG_PROFILE : Fld := ⟨16, 4⟩
abbrev flowClass_POLICER : Fld := ⟨20, 12⟩
abbrev flowClass_EXC_GROUP : Fld := ⟨32, 8⟩
abbrev flowClass_EXC_INSTANCE : Fld := ⟨40, 12⟩
abbrev flowClass_EXC_QUEUE : Fld := ⟨52, 8⟩
abbrev flowClass_VALID : Fld := ⟨96, 1⟩
abbrev wgroup_CLUSTER : Fld := ⟨0, 4⟩
abbrev wgroup_LIMIT : Fld := ⟨16, 16⟩
abbrev wgroupDrop_COUNT : Fld := ⟨0, 40⟩
abbrev tunProfile_VALID : Fld := ⟨0, 1⟩
abbrev tunProfile_KIND : Fld := ⟨1, 1⟩
abbrev tunProfile_OPT_EN : Fld := ⟨2, 1⟩
abbrev tunProfile_TRUSTED : Fld := ⟨3, 1⟩
abbrev tunProfile_IPV6 : Fld := ⟨4, 1⟩
abbrev tunProfile_TEMPLATE_LEN : Fld := ⟨8, 8⟩
abbrev tunProfile_L3_OFF : Fld := ⟨16, 8⟩
abbrev tunProfile_L4_OFF : Fld := ⟨24, 8⟩
abbrev tunTemplate_BYTES : Fld := ⟨0, 32⟩
abbrev memCfg_MID_LIMIT : Fld := ⟨0, 9⟩
abbrev spillCfg_SPILL_ON : Fld := ⟨0, 8⟩
abbrev spillCfg_SPILL_OFF : Fld := ⟨8, 8⟩
abbrev spillCfg_Q_SPILL_MIN : Fld := ⟨16, 8⟩
abbrev spillCfg_PREFETCH : Fld := ⟨24, 8⟩
abbrev spillCfg_ENABLE : Fld := ⟨32, 1⟩
abbrev spillStatus_OCC : Fld := ⟨0, 8⟩
abbrev spillStatus_SPILLING : Fld := ⟨8, 1⟩
abbrev spillStatus_SPILL_QUEUES : Fld := ⟨9, 16⟩
abbrev cbRegion_BASE : Fld := ⟨0, 9⟩
abbrev cbRegion_SIZE : Fld := ⟨16, 9⟩
abbrev iacc_XOFF : Fld := ⟨0, 20⟩
abbrev iacc_XON : Fld := ⟨20, 20⟩
abbrev iacc_DROP : Fld := ⟨40, 20⟩
abbrev iaccUse_USED : Fld := ⟨0, 32⟩
abbrev iaccUse_XOFF_STATE : Fld := ⟨32, 1⟩
abbrev fabAge_LIMIT : Fld := ⟨0, 22⟩
abbrev fabAgeK_LIMIT : Fld := ⟨0, 22⟩
abbrev mirror_DST : Fld := ⟨0, 10⟩
abbrev mirror_FLOW_CLASS : Fld := ⟨10, 10⟩
abbrev mirror_INSTANCE : Fld := ⟨20, 12⟩
abbrev mirror_TC : Fld := ⟨32, 3⟩
abbrev mirror_QUEUE : Fld := ⟨35, 12⟩
abbrev mirror_TRUNC_LEN : Fld := ⟨47, 8⟩
abbrev mirror_VALID : Fld := ⟨55, 1⟩
abbrev mirror_LIMIT : Fld := ⟨64, 20⟩
abbrev mirrorCnt_COUNT : Fld := ⟨0, 40⟩
abbrev capCfg_ENABLE : Fld := ⟨0, 1⟩
abbrev capCfg_MODE : Fld := ⟨1, 1⟩
abbrev capCfg_LOG2_RECORDS : Fld := ⟨2, 5⟩
abbrev capCfg_RATE : Fld := ⟨7, 12⟩
abbrev capBase_BASE : Fld := ⟨0, 48⟩
abbrev capProd_PROD : Fld := ⟨0, 32⟩
abbrev capCons_CONS : Fld := ⟨0, 32⟩
abbrev fabCnt_COUNT : Fld := ⟨0, 40⟩
abbrev threadFault_THREAD : Fld := ⟨0, 7⟩
abbrev threadFault_VALID : Fld := ⟨7, 1⟩
abbrev threadFault_CODE : Fld := ⟨8, 8⟩
abbrev threadFault_PC : Fld := ⟨16, 13⟩
abbrev threadFault_MORE : Fld := ⟨29, 1⟩
abbrev threadFault_LOST : Fld := ⟨30, 1⟩
abbrev threadFault_ADDR : Fld := ⟨32, 48⟩
abbrev staleCtl_ENABLE : Fld := ⟨0, 1⟩
abbrev staleStatus_DETECTED : Fld := ⟨0, 1⟩
abbrev staleStatus_HOLDING : Fld := ⟨1, 1⟩
abbrev staleStatus_CLEARED : Fld := ⟨2, 1⟩
abbrev staleStatus_RUN : Fld := ⟨16, 13⟩
abbrev staleCount_COUNT : Fld := ⟨0, 32⟩
abbrev waitUndisc_COUNT : Fld := ⟨0, 32⟩
abbrev waitUndiscLast_THREAD : Fld := ⟨0, 7⟩
abbrev waitUndiscLast_VALID : Fld := ⟨7, 1⟩
abbrev waitUndiscLast_PC : Fld := ⟨8, 13⟩
abbrev lookBind_PARTITION : Fld := ⟨0, 5⟩
abbrev lookBind_TABLE : Fld := ⟨5, 5⟩
abbrev lookBind_VALID : Fld := ⟨10, 1⟩
abbrev stsCnt_COUNT : Fld := ⟨0, 40⟩
abbrev waitSnap_MASK : Fld := ⟨0, 64⟩
abbrev waitSnap_PC : Fld := ⟨64, 13⟩
abbrev waitSnap_STATE : Fld := ⟨77, 3⟩
abbrev ferryCfgN_BASE : Fld := ⟨0, 48⟩
abbrev ferryCfgN_LOG2_ENTRIES : Fld := ⟨48, 4⟩
abbrev ferryCfgN_MODE : Fld := ⟨52, 1⟩
abbrev ferryCfgN_EN : Fld := ⟨53, 1⟩
abbrev ferryTailN_TAIL : Fld := ⟨0, 16⟩
abbrev ferryHeadN_HEAD : Fld := ⟨0, 16⟩
abbrev ferryStatusN_STATE : Fld := ⟨0, 2⟩
abbrev ferryStatusN_CAUSE : Fld := ⟨2, 3⟩
abbrev ferryStatusN_CODE : Fld := ⟨5, 7⟩
abbrev ferryStatusN_EVT : Fld := ⟨12, 1⟩
abbrev ferryStatusN_HALF : Fld := ⟨13, 1⟩
abbrev ferryStatusN_FULL : Fld := ⟨14, 1⟩
abbrev ferryStatusN_OBS_OVERRUN : Fld := ⟨15, 1⟩
abbrev ferryCtlN_START : Fld := ⟨0, 1⟩
abbrev ferryCtlN_STOP : Fld := ⟨1, 1⟩
abbrev ferryCfgS_BASE : Fld := ⟨0, 48⟩
abbrev ferryCfgS_LOG2_ENTRIES : Fld := ⟨48, 4⟩
abbrev ferryCfgS_MODE : Fld := ⟨52, 1⟩
abbrev ferryCfgS_EN : Fld := ⟨53, 1⟩
abbrev ferryTailS_TAIL : Fld := ⟨0, 16⟩
abbrev ferryHeadS_HEAD : Fld := ⟨0, 16⟩
abbrev ferryStatusS_STATE : Fld := ⟨0, 2⟩
abbrev ferryStatusS_CAUSE : Fld := ⟨2, 3⟩
abbrev ferryStatusS_CODE : Fld := ⟨5, 7⟩
abbrev ferryStatusS_EVT : Fld := ⟨12, 1⟩
abbrev ferryStatusS_HALF : Fld := ⟨13, 1⟩
abbrev ferryStatusS_FULL : Fld := ⟨14, 1⟩
abbrev ferryStatusS_OBS_OVERRUN : Fld := ⟨15, 1⟩
abbrev ferryCtlS_START : Fld := ⟨0, 1⟩
abbrev ferryCtlS_STOP : Fld := ⟨1, 1⟩
abbrev chFlushN_FLUSH : Fld := ⟨0, 1⟩
abbrev chFlushS_FLUSH : Fld := ⟨0, 1⟩
abbrev ksStage_KEY_WORD : Fld := ⟨0, 32⟩
abbrev ksAttr_MODE_MASK : Fld := ⟨0, 7⟩
abbrev ksAttr_KEY256 : Fld := ⟨7, 1⟩
abbrev ksAttr_IAR : Fld := ⟨8, 14⟩
abbrev ksAttr_KEY_ID : Fld := ⟨32, 32⟩
abbrev ksLimit_LIMIT : Fld := ⟨0, 64⟩
abbrev ksCmd_OP : Fld := ⟨0, 3⟩
abbrev ksCmd_SLOT : Fld := ⟨3, 18⟩
abbrev ksResult_BUSY : Fld := ⟨0, 1⟩
abbrev ksResult_CODE : Fld := ⟨1, 3⟩
abbrev ksResult_OVERRUN : Fld := ⟨4, 1⟩
abbrev ksMeta_META : Fld := ⟨0, 256⟩
abbrev ksChanCfg_JOB_EN : Fld := ⟨0, 1⟩
abbrev ksChanCfg_UNWRAP_EN : Fld := ⟨1, 1⟩
abbrev ksChanCfg_VERIFY_ONLY : Fld := ⟨2, 1⟩
abbrev ksNotifyCfg_CHANNEL : Fld := ⟨0, 4⟩
abbrev ksNotifyCfg_EN : Fld := ⟨4, 1⟩
abbrev ksNotifyLost_COUNT : Fld := ⟨0, 32⟩
abbrev ciphIslandCfg_QUANTUM : Fld := ⟨0, 7⟩
abbrev cqCfg_BASE : Fld := ⟨0, 48⟩
abbrev cqCfg_LOG2_ENTRIES : Fld := ⟨48, 5⟩
abbrev cqCfg_EN : Fld := ⟨53, 1⟩
abbrev cqProd_PROD : Fld := ⟨0, 32⟩
abbrev cqCons_CONS : Fld := ⟨0, 32⟩
abbrev ciphCnt_COUNT : Fld := ⟨0, 40⟩
abbrev cqPend_PENDING : Fld := ⟨0, 17⟩
abbrev ciphIar_SALT : Fld := ⟨0, 96⟩
abbrev ciphIar_SSCI : Fld := ⟨96, 32⟩
abbrev ciphIar_TOP : Fld := ⟨128, 64⟩
abbrev ciphIar_WINDOW : Fld := ⟨192, 64⟩
abbrev jobCmd_CTX : Fld := ⟨0, 20⟩
abbrev jobCmd_OP : Fld := ⟨20, 2⟩
abbrev jobResult_BUSY : Fld := ⟨0, 1⟩
abbrev jobResult_CODE : Fld := ⟨1, 3⟩
abbrev ingShaperCfg_RATE : Fld := ⟨0, 20⟩
abbrev ingShaperCfg_EN : Fld := ⟨20, 1⟩
abbrev ingShaperCfg_BURST : Fld := ⟨32, 24⟩
abbrev ingShaperBal_BAL : Fld := ⟨0, 48⟩
abbrev ingCnt_COUNT : Fld := ⟨0, 40⟩
abbrev devStatus_READY : Fld := ⟨0, 1⟩
abbrev devStatus_BOOT_FAILED : Fld := ⟨1, 1⟩
abbrev devStatus_FAIL_CLOSED : Fld := ⟨2, 1⟩
abbrev devStatus_TB_FROZEN : Fld := ⟨3, 1⟩
abbrev devStatus_FMT_CUR : Fld := ⟨8, 8⟩
abbrev fwBuild_BUILD_ID : Fld := ⟨0, 32⟩
abbrev intCause_MBOX : Fld := ⟨0, 1⟩
abbrev intCause_STATUS : Fld := ⟨1, 1⟩
abbrev intCause_COUNTER : Fld := ⟨2, 1⟩
abbrev intCause_TRAILBOOK : Fld := ⟨3, 1⟩
abbrev intCause_PAIR : Fld := ⟨4, 1⟩
abbrev intCause_INSTANCE : Fld := ⟨5, 1⟩
abbrev intEn_EN : Fld := ⟨0, 6⟩
abbrev linkStatus_SPEED : Fld := ⟨0, 3⟩
abbrev linkStatus_WIDTH : Fld := ⟨3, 5⟩
abbrev linkStatus_FLIT : Fld := ⟨8, 1⟩
abbrev linkStatus_UP : Fld := ⟨9, 1⟩
abbrev tagStatus_OUTSTANDING : Fld := ⟨0, 12⟩
abbrev tagStatus_QUARANTINED : Fld := ⟨12, 12⟩
abbrev tagStatus_DEAD : Fld := ⟨24, 12⟩
abbrev hostEvent_FLR_PF0 : Fld := ⟨0, 1⟩
abbrev hostEvent_FLR_PF1 : Fld := ⟨1, 1⟩
abbrev hostEvent_BME_PF0 : Fld := ⟨2, 1⟩
abbrev hostEvent_BME_PF1 : Fld := ⟨3, 1⟩
abbrev hostEvent_PERST : Fld := ⟨4, 1⟩
abbrev hostEvent_LINK_DOWN : Fld := ⟨5, 1⟩
abbrev hostEvent_DSTATE : Fld := ⟨6, 1⟩
abbrev hostEventCfg_GROUP : Fld := ⟨0, 8⟩
abbrev hostEventCfg_EN : Fld := ⟨8, 1⟩
abbrev hostCnt_COUNT : Fld := ⟨0, 40⟩
abbrev winWriteEn_WRITABLE : Fld := ⟨0, 128⟩
abbrev hlCfg_EN : Fld := ⟨0, 1⟩
abbrev hlCfg_RETRAIN : Fld := ⟨1, 1⟩
abbrev hlStatus_UP : Fld := ⟨0, 1⟩
abbrev hlStatus_FEC_LOCK : Fld := ⟨1, 8⟩
abbrev hlStatus_STALLED : Fld := ⟨9, 4⟩
abbrev hlStatus_PEER_UNIT : Fld := ⟨13, 1⟩
abbrev hlStatus_PEER_PORT : Fld := ⟨14, 4⟩
abbrev hlCredit0_FLITS : Fld := ⟨0, 10⟩
abbrev hlCredit1_FLITS : Fld := ⟨0, 10⟩
abbrev hlCredit2_FLITS : Fld := ⟨0, 10⟩
abbrev hlCredit3_FLITS : Fld := ⟨0, 10⟩
abbrev hlFwtxCfg_BASE : Fld := ⟨0, 48⟩
abbrev hlFwtxCfg_LOG2_ENTRIES : Fld := ⟨48, 4⟩
abbrev hlFwtxCfg_EN : Fld := ⟨52, 1⟩
abbrev hlFwtxTail_TAIL : Fld := ⟨0, 16⟩
abbrev hlFwtxHead_HEAD : Fld := ⟨0, 16⟩
abbrev hlFwrxCfg_BASE : Fld := ⟨0, 48⟩
abbrev hlFwrxCfg_LOG2_ENTRIES : Fld := ⟨48, 4⟩
abbrev hlFwrxCfg_EN : Fld := ⟨52, 1⟩
abbrev hlFwrxProd_PROD : Fld := ⟨0, 16⟩
abbrev hlFwrxCons_CONS : Fld := ⟨0, 16⟩
abbrev hlRxCfg_MODE : Fld := ⟨0, 1⟩
abbrev hlRxCfg_GROUP : Fld := ⟨8, 8⟩
abbrev hlRxDest_DST : Fld := ⟨0, 10⟩
abbrev hlRxDest_QUEUE : Fld := ⟨10, 12⟩
abbrev hlRxDest_NEXTHOP : Fld := ⟨22, 16⟩
abbrev hlCnt_COUNT : Fld := ⟨0, 40⟩
abbrev pairCfg_MODE : Fld := ⟨0, 2⟩
abbrev pairCfg_PREF : Fld := ⟨2, 4⟩
abbrev pairCfg_HOLDOFF : Fld := ⟨6, 12⟩
abbrev pairCfg_SHELF_LOSS_MAX : Fld := ⟨18, 4⟩
abbrev pairCfg_MIRROR_GROUP : Fld := ⟨22, 8⟩
abbrev pairCfg_HOST_MASK : Fld := ⟨30, 2⟩
abbrev pairDiagCfg_ECC_MAX : Fld := ⟨0, 16⟩
abbrev pairDiagCfg_STALE_MS : Fld := ⟨16, 10⟩
abbrev pairCtl_EN : Fld := ⟨0, 1⟩
abbrev pairCtl_SWAP : Fld := ⟨1, 1⟩
abbrev pairCtl_FORCE : Fld := ⟨2, 1⟩
abbrev pairCtl_AUTO_FAILBACK : Fld := ⟨3, 1⟩
abbrev pairCtl_HANDOVER_MS : Fld := ⟨4, 10⟩
abbrev pairFwState_HEALTH_CAP : Fld := ⟨0, 4⟩
abbrev pairFwState_SYNCED : Fld := ⟨4, 1⟩
abbrev pairStatus_ROLE : Fld := ⟨0, 3⟩
abbrev pairStatus_ELIGIBLE : Fld := ⟨3, 1⟩
abbrev pairStatus_PEER_SEEN : Fld := ⟨4, 1⟩
abbrev pairStatus_HOLD_IN : Fld := ⟨5, 1⟩
abbrev pairStatus_HOLD_OUT : Fld := ⟨6, 1⟩
abbrev pairStatus_GEN_COMPAT : Fld := ⟨7, 1⟩
abbrev pairStatus_HEALTH : Fld := ⟨8, 4⟩
abbrev pairStatus_TRIGGERS : Fld := ⟨12, 6⟩
abbrev pairClaim_CLAIM : Fld := ⟨0, 32⟩
abbrev pairPeerClaim_CLAIM : Fld := ⟨0, 32⟩
abbrev pairPeerGen_GEN : Fld := ⟨0, 24⟩
abbrev pairWrapSlot_SLOT : Fld := ⟨0, 18⟩

end Sys2Proof.Machine
end

