-- ==== Sys2Proof/Machine/Tab.lean ====
section
/-! DEFINITION. Sparse tables: lists of (key, value) pairs with strictly rising keys and no entry that holds what an
unlisted key reads as. Memory, the control registers and every large group of like things in State are such tables, so
equal contents are equal data. -/

namespace Sys2Proof.Machine

/-- A sparse table over natural-number keys. -/
abbrev Tab (α : Type) := List (Nat × α)

/-- What key `k` reads as: its entry, else the default `d` of that key. -/
def Tab.get {α : Type} (d : α) : Tab α → Nat → α
  | [], _ => d
  | (a, v) :: t, k => if k = a then v else Tab.get d t k

/-- The entry of `k`, if it is listed. -/
def Tab.find {α : Type} : Tab α → Nat → Option α
  | [], _ => none
  | (a, v) :: t, k => if k = a then some v else Tab.find t k

/-- Remove the entry of `k`. -/
def Tab.del {α : Type} : Tab α → Nat → Tab α
  | [], _ => []
  | (a, v) :: t, k => if k = a then Tab.del t k else (a, v) :: Tab.del t k

/-- List `v` at `k`, in its place in the order. -/
def Tab.put {α : Type} : Tab α → Nat → α → Tab α
  | [], k, v => [(k, v)]
  | (a, w) :: t, k, v =>
    if k = a then (k, v) :: t else if k < a then (k, v) :: (a, w) :: t else (a, w) :: Tab.put t k v

/-- Write `v` at `k`: an entry that would equal the key's default `d` is removed instead of listed. -/
def Tab.set {α : Type} [DecidableEq α] (d : α) (t : Tab α) (k : Nat) (v : α) : Tab α :=
  if v = d then Tab.del t k else Tab.put t k v

/-- Every key of the table is above `b`, and the keys rise strictly. -/
def Tab.risesAbove {α : Type} : Nat → Tab α → Bool
  | _, [] => true
  | b, (a, _) :: t => decide (b < a) && Tab.risesAbove a t

/-- The keys rise strictly. -/
def Tab.rises {α : Type} : Tab α → Bool
  | [] => true
  | (a, _) :: t => Tab.risesAbove a t

/-- No entry holds the default of its key. -/
def Tab.noDefault {α : Type} [DecidableEq α] (d : Nat → α) (t : Tab α) : Bool :=
  t.all fun e => decide (e.2 ≠ d e.1)

/-- The canonical form of a table whose unlisted key `k` reads as `d k`. -/
def Tab.wf {α : Type} [DecidableEq α] (d : Nat → α) (t : Tab α) : Bool :=
  Tab.rises t && Tab.noDefault d t

end Sys2Proof.Machine
end

