-- ==== Sys2Proof/Machine/TypesCore.lean ====
section
/-! DEFINITION. The parts of State that the chapters on the time base, the satchel, the instruction set, the worker
threads, power, boot and the Trailbook name. -/

namespace Sys2Proof.Machine

/-- The two time scales in units of 2^-24 ns (R27, R30), the requests that the next tick serves, and the tick count. -/
structure Clock where
  tod : Nat := 0
  ict : Nat := 0
  snapReq : Bool := false
  stepReq : Bool := false
deriving DecidableEq, Repr

/-- What a thread is doing (R108): ready, in WAITE with its mask and destination, faulted (a steward: halted, R97), or
in WAIT.PWR (R93). PARKED and HALTED are its table entry's and its cluster's. -/
inductive Run where
  | ready
  | waiting (mask : W64) (rd : BitVec 5)
  | faulted
  | waitPwr (rd : BitVec 5)
deriving DecidableEq, Repr

/-- The operations of AMO (R77). -/
inductive AmoOp where
  | add | swap | cas | and | or | maxu | minu
deriving DecidableEq, Repr

/-- The loads of R76. -/
inductive LoadKind where
  | zero | sign | be
deriving DecidableEq, Repr

/-- What an operation does when its response returns: a device-space load, store or AMO (operands of CAS and of the
operation), a LOOK in a table of the cluster, a control access with the value it answers once it has been performed. -/
inductive MemAct where
  | load (k : LoadKind) (rd : BitVec 5) (size : Nat)
  | store (bytes : List Byte)
  | amo (op : AmoOp) (rd : BitVec 5) (size : Nat) (cmp b : W64)
  | look (table : Nat) (key : List Byte) (n : Nat) (rd : BitVec 5) (pd : BitVec 3)
  | ctl (rd : Option (BitVec 5)) (k : LoadKind) (size : Nat) (value : Option Nat)
deriving DecidableEq, Repr

/-- An operation whose response has not returned (R78, R98, R126): its number, what it does, its address, the PC and the
issue count of its instruction. -/
structure MemOp where
  id : Nat
  act : MemAct
  addr : Nat
  pc : Nat
  issued : W64
deriving DecidableEq, Repr

/-- The general registers and predicates of a thread or of a frame in a pipeline (R59). -/
structure Regs where
  g : Vector W64 32 := Vector.replicate 32 0
  p : BitVec 8 := 1
deriving DecidableEq, Repr

/-- The architectural state of a worker thread or steward (R59), its issue count (R91) and outstanding operations. -/
structure Thread where
  r : Regs := {}
  pc : Nat := 0
  ev : W64 := 0
  timer : Option Nat := none
  held : Option Nat := none
  run : Run := .ready
  issued : W64 := 0
  ops : List MemOp := []
deriving DecidableEq, Repr

/-- A binding of an external event bit (R106). -/
structure Binding where
  bit : Nat
  type : Nat
  index : Nat
deriving DecidableEq, Repr

/-- A thread-table entry (R106). -/
structure ThreadEntry where
  parked : Bool := false
  hipri : Bool := false
  ctl : Bool := false
  mbox : Bool := false
  entry : Nat := 0
  g1 : W64 := 0
  g2 : W64 := 0
  binds : List Binding := []
deriving DecidableEq, Repr

/-- A worker core: frame count, round-robin pointer, the thread granted the last cycle (R111). -/
structure CoreSt where
  n : Nat := 0
  rr : Nat := 7
  grant : Option Nat := none
deriving DecidableEq, Repr

/-- One entry of a cluster's fault queue (R96). -/
structure FaultRec where
  thread : Nat
  code : Nat
  pc : Nat
  addr : Nat
deriving DecidableEq, Repr

/-- A worker cluster: released at boot (R425), halted by CLCTL (R94), its queued faults (R96), and the times of the
latest detections (R125). -/
structure Cluster where
  released : Bool := false
  halted : Bool := false
  faults : List FaultRec := []
  detections : List Nat := []
deriving DecidableEq, Repr

/-- A steward: its thread, its system registers (R91) and what its instruction cache holds (R92). -/
structure Steward where
  t : Thread := {}
  evec : W64 := 0
  epc : W64 := 0
  ecause : W64 := 0
  eaddr : W64 := 0
  estatus : W64 := 0
  escratch : W64 := 0
  evbind : Tab W32 := []
  icache : Tab W32 := []
deriving DecidableEq, Repr

/-- A SIGE on the event network (R88); threads are numbered as in R87. -/
structure SigMsg where
  src : Nat
  dst : Nat
  bit : Nat
deriving DecidableEq, Repr

/-- What SEC encrypted a frame under, for what is still to go out of it (R241, R255): key slot, cipher island, and whether
the frame is a unit with its trailer. -/
structure SecMark where
  slot : Nat
  isl : Nat
  unit : Bool
deriving DecidableEq, Repr

/-- A frame, segment or work item: its satchel s0–s15 (R35), its bytes, and what it is charged to while it is buffered:
an ingress accounting entry (R196) or a mirror session (R205), each with the bytes charged; the instance and generation
of the transmit queue that it came from (R322); how many Ferry descriptors name it, and whether only those keep its
bytes (R361); the sub-port whose scheduler took it (R211); what SEC encrypted it under. -/
structure Frame where
  s : Vector W32 16 := Vector.replicate 16 0
  data : List Byte := []
  iacc : Option (Nat × Nat) := none
  mirror : Option (Nat × Nat) := none
  owner : Option (Nat × Nat) := none
  names : Nat := 0
  gone : Bool := false
  sub : Option Nat := none
  sec : Option SecMark := none
deriving DecidableEq, Repr

/-- Who issued a control access; the numbers of R453. -/
inductive Initiator where
  | thread (n : Nat)
  | steward (k : Nat)
  | window (h : Nat)
  | debug
  | hw
deriving DecidableEq, Repr

/-- A control access held at a clock-gated island (R23): its initiator, the operation of the issuing thread that it
completes, the address, size in bytes, and the value of a write. -/
structure GatedAccess where
  who : Initiator
  op : Nat
  addr : Nat
  size : Nat
  wdata : Option Nat
deriving DecidableEq, Repr

/-- The supply of an island (R23, R405). -/
inductive IslandPower where
  | on | gated | off
deriving DecidableEq, Repr

/-- An island: its supply, whether its time follower is aligned (R29), and when (ICT, ns) the power controller last
found it busy in P1 (R406). -/
structure IslandSt where
  power : IslandPower := .on
  aligned : Bool := true
  busyAt : Nat := 0
deriving DecidableEq, Repr

/-- A Trailbook record (R434). -/
structure TbRec where
  todNs : Nat
  frac : Nat
  code : Nat
  island : Nat
  flags : Nat
  boot : Nat
  index : Nat
  data : List Byte
  torn : Bool
deriving DecidableEq, Repr

/-- A record on its way to the Trailbook: its time and content (R434, R435). -/
structure TbQueued where
  tod : Nat
  code : Nat
  island : Nat
  flags : Nat
  data : List Byte
deriving DecidableEq, Repr

/-- The Trailbook: its locations, the queue and token bucket of the writer (in millionths of a record) with the 1 µs
boundaries that it has been refilled for, the next INDEX
and location, the freeze with the locations read since, the boot count, the words of TB.FW_DATA, and when the last record was
written. -/
structure Trailbook where
  recs : Tab TbRec := []
  queue : List TbQueued := []
  tokens : Nat := 4096 * 1000000
  served : Nat := 0
  index : Nat := 0
  loc : Nat := 0
  frozen : Option Nat := none
  read : Tab Bool := []
  bootCount : Nat := 1
  fwData : Tab W32 := []
  wroteAt : Option Nat := none
deriving DecidableEq, Repr

/-- A fuse operation in progress (R430): its OP, its row, FUSE_DATA as written, the CODE it will end with. -/
structure FuseOp where
  op : Nat
  row : Nat
  data : Nat
  code : Nat
deriving DecidableEq, Repr

/-- Where the boot sequence of R425 stands. `off` is P4 or PORST_N low. -/
inductive BootPhase where
  | off | monitors | copying | running | failed
deriving DecidableEq, Repr

/-- The boot sequence: phase, whether REBOOT caused it, the slot tried first and now, the slots rejected with their
REASON, whether the environment fault has been recorded, when boot last failed (ICT, ns), a slot that IMG_ACTIVATE
forces; and what the accepted image gives: ROLLBACK, BUILD_ID, FAULT_STEWARD and the base of the stewards' code. -/
structure Boot where
  phase : BootPhase := .monitors
  reboot : Bool := false
  first : Nat := 0
  slot : Nat := 0
  reasons : List (Nat × Nat) := []
  envRecorded : Bool := false
  failedAt : Nat := 0
  force : Option Nat := none
  rollback : Nat := 0
  buildId : Nat := 0
  faultSteward : Nat := 2
  codeBase : Nat := 0
deriving DecidableEq, Repr

/-- A power transition: an entry or an exit, its target state, the steward whose WAIT.PWR asked for it, and whether a
wake was latched before the entry completed (R408, R411, R417). -/
structure PowerTrans where
  entry : Bool
  target : Nat
  who : Nat
  woken : Bool
  since : Nat
deriving DecidableEq, Repr

/-- The power controller beyond its registers (R407 to R411): the transition in progress, the requester whose entry
to P2 or P3 has been reached, the pending request (target, steward), whether sources are armed, the first wake latched,
the code that ends the request once its exit completes, the host links whose PERST waits for the exit (R419), and whether
an alarm took the key banks' retention supply (R410), and the LINK bits of each port at the last entry (R152). -/
structure Power where
  trans : Option PowerTrans := none
  inState : Option Nat := none
  pend : Option (Nat × Nat) := none
  armed : Bool := false
  firstWake : Nat := 0
  outcome : Nat := 0
  perst : BitVec 2 := 0
  keysOff : Bool := false
  linksAt : Tab Nat := []
deriving DecidableEq, Repr

/-- The pins of R441 that carry state: resets, wake, pair interlock, thermal, sideband alert and the sampled straps. -/
structure Pins where
  porstN : Bool := true
  perstN : Vector Bool 2 := Vector.replicate 2 false
  wakeLow : Bool := false
  holdOut : Bool := false
  holdIn : Bool := false
  thermLow : Bool := false
  sbAlert : Bool := false
  sbMode : Bool := false
  sbAddr : BitVec 2 := 0
deriving DecidableEq, Repr

end Sys2Proof.Machine
end

