-- ==== Sys2Proof/Machine/TypesDma.lean ====
section
/-! DEFINITION. The parts of State that the chapters on Ferry, mailboxes and the cipher engines name. -/

namespace Sys2Proof.Machine

/-- A word in a mailbox queue: the word, whether it closes its message, whether the far end sees it yet (R369). -/
structure MbWord where
  word : Nat
  fin : Bool
  seen : Bool
deriving DecidableEq, Repr

/-- A mailbox channel (R368 to R371): the queues from A to B and from B to A, the words of the open message of each end,
the host's status bits, and the drained-empty source of each end. -/
structure Mbox where
  ab : List MbWord := []
  ba : List MbWord := []
  openA : Nat := 0
  openB : Nat := 0
  overrun : Bool := false
  underflow : Bool := false
  drained : Bool := false
  emptyA : Bool := false
  emptyB : Bool := false
deriving DecidableEq, Repr

/-- A Ferry descriptor as read (R359). -/
structure FerryDesc where
  src : Nat
  dst : Nat
  len : Nat
  host : Nat
  ctrl : Nat
  gen : Nat
deriving DecidableEq, Repr

/-- A Ferry channel beyond its registers: the descriptor in progress, the beats (offset, bytes) still to issue in issue
order, the bytes of completed beats, the issued beat with the host data that has arrived for it and whether its host read
has failed, a STOP or disable asked for, whether an observation pass runs, and the frames that posted entries name
(entry index, frame). -/
structure Ferry where
  desc : Option FerryDesc := none
  beats : List (Nat × Nat) := []
  done : Nat := 0
  issued : Option (Nat × Nat) := none
  got : List Byte := []
  failed : Bool := false
  stop : Bool := false
  disable : Bool := false
  obs : Bool := false
  named : List (Nat × Nat) := []
deriving DecidableEq, Repr

/-- STATE of a key slot (R237). -/
inductive SlotState where
  | empty | loaded | erased | tail
deriving DecidableEq, Repr

/-- A key slot (R237). -/
structure KeySlot where
  key : List Byte := []
  gen : Nat := 0
  st : SlotState := .empty
  lost : Bool := false
  exhausted : Bool := false
  rekeySent : Bool := false
  modeMask : Nat := 0
  key256 : Bool := false
  iar : Nat := 0
  usage : Nat := 0
  limit : Nat := 0
  keyId : Nat := 0
deriving DecidableEq, Repr

/-- What an operation latched: generation and key copies (R238). -/
structure Latch where
  gen : Nat
  key : List Byte
  key2 : List Byte
deriving DecidableEq, Repr

/-- SEC as bulk work (R235, R252, R279, R286): the job's context, encryption or decryption, the unit or, with `single`, a
frame toward one shelf link, the tweak (shard, first data unit and its size, object key), the bytes, the satchel, and the
instance that verify-only use is judged by. -/
structure SecOp where
  ctx : Nat
  w : Bool
  single : Bool
  shard : Nat
  unit : Nat
  du : Nat
  objKey : Nat
  bytes : List Byte
  fid : Option Nat
  inst : Nat
deriving DecidableEq, Repr

/-- A bulk operation, a CIPH job or SEC (R235, R247): its number, island, op, completion queue, whether a worker submitted it, descriptor
address, engine once admitted and whether it runs, latch, bytes written, host data read so far and outstanding read,
the status that stopped it, its place in the instance counts, SEC's own part, and whether its generation was not the
instance's when it was accepted (R322). -/
structure CiphJob where
  id : Nat
  isl : Nat
  op : Nat
  cq : Nat
  worker : Bool
  desc : Nat
  eng : Option Nat := none
  running : Bool := false
  missed : Bool := false
  latch : Option Latch := none
  done : Nat := 0
  src : Option (List Byte) := none
  reading : Bool := false
  fail : Option Nat := none
  inst : Nat := 0
  gen : Nat := 0
  slot : Nat := 0
  sec : Option SecOp := none
  late : Bool := false
deriving DecidableEq, Repr

end Sys2Proof.Machine
end

