-- ==== Sys2Proof/Machine/TypesHost.lean ====
section
/-! DEFINITION. The parts of State that the chapters on host links, rings and instances name. -/

namespace Sys2Proof.Machine

/-- The states of an instance (R320). -/
inductive InstState where
  | free | active | quiesced | resetting
deriving DecidableEq, Repr

/-- An instance (R320 to R324, R347, R348): state and generation, the link it is bound to, PASID, queue pairs allowed,
the counters of its status, OLDEST_STALE, its interrupt bucket (tokens in thousandths, the 1 µs boundaries served, the
sources held), and for a reset the state it returns to, when it began, and whether it is held in RESETTING until STALE is
zero (R323). -/
structure Instance where
  st : InstState := .free
  gen : Nat := 1
  link : Nat := 0
  pasid : Nat := 0
  qpMax : Nat := 0
  resetSlow : Bool := false
  oldestStale : Nat := 0
  dbBad : Nat := 0
  noqDrops : Nat := 0
  intrHeld : Nat := 0
  intrRate : Nat := 0
  intrBurst : Nat := 0
  tokens : Nat := 0
  served : Nat := 0
  held : List Nat := []
  back : InstState := .active
  resetAt : Option Nat := none
  hold : Bool := false
deriving DecidableEq, Repr

/-- The interrupt source of a ring (R346): its entry, moderation, the events not yet signalled, and when
the MOD_TIME that began with the first of them ends (R32). -/
structure IntrSrc where
  store : Bool
  entry : Nat
  modCount : Nat
  modTime : Nat
  autoArm : Bool
  armed : Bool
  events : Nat
  till : Option Nat
deriving DecidableEq, Repr

/-- A ring (R325, R326): base, log2 of its size, TAIL, the next entry the device takes or reserves, the index before
which all is done, the published HEAD, and its interrupt source. -/
structure Ring where
  base : Nat := 0
  log2 : Nat := 6
  tail : Nat := 0
  next : Nat := 0
  done : Nat := 0
  pub : Nat := 0
  src : Option IntrSrc := none
deriving DecidableEq, Repr

/-- A frame on its way into a receive queue (R341, R343): completion entries needed and, once reserved, the first of
them; buffers filled (index, bytes); the buffer index being read; since when it waits. -/
structure Delivery where
  fid : Nat
  need : Nat
  cplAt : Option Nat
  filled : List (Nat × Nat)
  fetching : Option Nat
  waitSince : Option Nat
deriving DecidableEq, Repr

/-- A queue pair (R325, R329, R349). STATE is 0 DISABLED, 1 RUNNING, 2 STOPPED, 3 DRAINING. `chain` and `data` hold the
descriptors and bytes of the open transmit chain, `busy` says that a read of it is outstanding, `ready` that it is whole. -/
structure QPair where
  txq : Nat
  rxq : Nat
  work : Bool
  worker : Bool
  descDst : Bool
  flowClass : Nat
  tc : Nat
  dst : Nat
  queue : Nat
  nexthop : Nat
  group : Nat
  bufSize : Nat
  starve : Nat
  cb : Nat
  tx : Ring
  buf : Ring
  cpl : Ring
  st : Nat := 0
  reason : Nat := 0
  drops : Nat := 0
  drainTail : Option Nat := none
  chain : List (List Byte) := []
  data : List Byte := []
  busy : Bool := false
  ready : Bool := false
  ts : Nat := 0
  deliv : List Delivery := []
deriving DecidableEq, Repr

/-- A host command that has not answered yet (R348): channel, OP, TAG, instance, queue pair, and when its limit ends. -/
structure HostCmd where
  ch : Nat
  op : Nat
  tag : Nat
  inst : Nat
  loc : Nat
  till : Nat
deriving DecidableEq, Repr

/-- A host command that waits for another on its instance (R348): channel, words, and the TAIL that the transmit ring it
names held when it arrived, with that time. -/
structure WaitCmd where
  ch : Nat
  msg : List Nat
  tail : Option Nat
  since : Nat
deriving DecidableEq, Repr

/-- Which block reads host memory (R310), and for what. -/
inductive ReadKind where
  | ferry | cipher | txDesc | txData | bufDesc | ctrlBlock | imgWrite
deriving DecidableEq, Repr

/-- A read of host memory in progress: link, function, PASID, the address of the next piece, the bytes still to come,
those received, and the consumer (block and its own key). Pieces are read one after another (R297). -/
structure Xfer where
  h : Nat
  fn : Nat
  pasid : Nat
  addr : Nat
  left : Nat
  got : List Byte
  kind : ReadKind
  key : Nat
deriving DecidableEq, Repr

/-- What a tag is doing (R311, R313): awaiting its completion, or kept from reuse until a time. -/
inductive TagState where
  | outstanding | quarantined (till : Nat) | dead (till : Nat)
deriving DecidableEq, Repr

/-- A tag of a host link: its function, the read it belongs to, the bytes asked for, issue time (ICT ns), the timeout T
in effect at issue (ns; none while timeouts are disabled), whether BME was cleared since. -/
structure Tag where
  fn : Nat
  xfer : Nat
  len : Nat
  issued : Nat
  timeout : Option Nat
  st : TagState
  discard : Bool
deriving DecidableEq, Repr

/-- An MSI-X table entry or a message store entry (R308). -/
structure IrqEntry where
  addr : Nat := 0
  data : Nat := 0
  mask : Bool := true
  pend : Bool := false
  owner : Nat := 0
deriving DecidableEq, Repr

/-- A posted write of a function in D3hot, which waits for D0 (R319): function, PASID, whether it is payload, address and
bytes. -/
structure HeldWrite where
  fn : Nat
  pasid : Nat
  payload : Bool
  addr : Nat
  bs : List Byte
deriving DecidableEq, Repr

/-- A host link: configuration space words by 1024 f + dword, whether the link is up, whether a function-level reset is
in progress by function, INTA asserted, tags, interrupt entries (PF0 table, PF1 table, message store), when the link went
down, and the posted writes that wait for D0. -/
structure HostLink where
  cfg : Tab W32 := []
  up : Bool := false
  flr : BitVec 2 := 0
  inta : Bool := false
  tags : Tab Tag := []
  msix0 : Tab IrqEntry := []
  msix1 : Tab IrqEntry := []
  store : Tab IrqEntry := []
  lostAt : Nat := 0
  postQ : List HeldWrite := []
deriving DecidableEq, Repr

end Sys2Proof.Machine
end

