-- ==== Sys2Proof/Machine/TypesNet.lean ====
section
/-! DEFINITION. The parts of State that the chapters on ports, pipelines, the fabric, scheduling and policing name. -/

namespace Sys2Proof.Machine

/-- Flow control of one traffic class of a sub-port (R143, R144, R146): when its pause ends, since when it has been
paused without interruption, when the last frame that would pause it arrived, whether XOFF holds and was sent. -/
structure PauseSt where
  till : Option Nat := none
  since : Option Nat := none
  last : Nat := 0
  xoff : Bool := false
  sentAt : Nat := 0
deriving DecidableEq, Repr

/-- A two-step timestamp record (R150): departure TOD in units of 0.5 ns, sub-port, and the PTP fields. -/
structure PtpRec where
  tod2 : Nat
  sub : Nat
  msgType : Nat
  domain : Nat
  seqId : Nat
deriving DecidableEq, Repr

/-- A frame the MAC is sending (R138): its bytes as sent without FCS, the frame, the PTP record it will leave. -/
structure TxFrame where
  fid : Nat
  bytes : List Byte
  ptp : Option PtpRec
deriving DecidableEq, Repr

/-- A sub-port's transmit MAC: frames that its egress pipeline and cipher island have handed over, the frame being sent,
and the PFC frames (class, time) that wait for the frame boundary (R144). -/
structure Mac where
  waiting : List Nat := []
  tx : Option TxFrame := none
  pfc : List (Nat × Nat) := []
deriving DecidableEq, Repr

/-- A verdict of a pass (R102, R175). -/
inductive Verdict where
  | cont | drop | group (target : Nat)
deriving DecidableEq, Repr

/-- Register and predicate writes of a stage instruction that become readable at slot `at_` (R98, R163). -/
structure StageWrite where
  at_ : Nat
  g : List (BitVec 5 × W64)
  p : List (BitVec 3 × Bool)
deriving DecidableEq, Repr

/-- A frame in the stages of a lane: the latched profile, registers, stage and slot, the last verdict, the satchel
exception that a stage has raised, results not yet readable, and the slot of its stage that a branch leads to: the slots
before it execute as empty (R99 to R102, R161). -/
structure Pass where
  fid : Nat
  profile : Nat
  r : Regs := {}
  stage : Nat := 0
  slot : Nat := 0
  verdict : Option Verdict := none
  exc : Option Nat := none
  pend : List StageWrite := []
  skip : Nat := 0
deriving DecidableEq, Repr

/-- A frame waiting to recirculate, with the profile that g15 named for it (R158, R160). -/
structure Recirc where
  fid : Nat
  next : Option Nat
deriving DecidableEq, Repr

/-- A lane of a pipeline: port arrivals (ingress) or frames the traffic manager has dequeued (egress), frames on their
way back, the recirculation queue, the frames in its stages (oldest first), and its cycle within 16 (R158). -/
structure Lane where
  arrivals : List Nat := []
  returning : List Recirc := []
  recirc : List Recirc := []
  passes : List Pass := []
  cycle : Nat := 0
deriving DecidableEq, Repr

/-- A slot of a reorder window (R180): its satchel, when its WAIT ends (ICT, ns; R32), the endpoint whose DISP.CONT has released it. -/
structure ReorderSlot where
  fid : Nat
  due : Nat
  released : Option Nat
deriving DecidableEq, Repr

/-- The reorder window of an ingress pipeline: slots in the order of their SEQ, and satchels passed over. -/
structure Reorder where
  slots : List ReorderSlot := []
  late : List Nat := []
deriving DecidableEq, Repr

/-- A staging buffer of a table partition (R171): the entry it is tagged with and the staged bytes. -/
structure Staging where
  entry : Nat := 0
  bytes : Tab Byte := []
deriving DecidableEq, Repr

/-- A segment of a cell (R192): offset and length in the cell, whether it begins or ends a frame, the frame, ECC. -/
structure Seg where
  off : Nat
  len : Nat
  start : Bool
  fin : Bool
  fid : Nat
  eccBad : Bool
deriving DecidableEq, Repr

/-- A cell (R190, R192); `full` also marks a partly filled cell that has been closed. SEQ is given when it is sent. -/
structure Cell where
  seq : Nat
  input : Nat
  output : Nat
  k : Bool
  segs : List Seg
  full : Bool
deriving DecidableEq, Repr

/-- A cell place of an output memory (R195): the cell's number, the memory, whether class K, and the frames that still
have bytes in it. -/
structure Place where
  id : Nat
  mem : Nat
  k : Bool
  fids : List Nat
deriving DecidableEq, Repr

/-- The cell fabric: slot counter (R187), entry buffers by input, middle queues by (j, o, K), reassembly by
(i, o, K), the next SEQ to send and to release by (i, o, K), frames waiting at side sources by input with the source
last served (R190), frames with a segment that a memory marked ECC_BAD, and the cell places taken in the output
memories, in reassembly and in the output store (R195, R197), with the number of the next cell that takes one. -/
structure Fabric where
  t : Nat := 0
  entry : Tab (List Cell) := []
  mid : Tab (List Cell) := []
  reasm : Tab (List Cell) := []
  sendSeq : Tab Nat := []
  relSeq : Tab Nat := []
  side : Tab (List (Nat × Nat)) := []
  sideLast : Tab Nat := []
  bad : List Nat := []
  places : List Place := []
  nextCell : Nat := 0
deriving DecidableEq, Repr

/-- A frame in an output-store queue: the memory that holds it, the bytes of LEN counted, and the stored cells it
stands in, each with the page of the Coolbox segment that holds it (R195, R197, R200, R218). -/
structure QEnt where
  fid : Nat
  mem : Nat
  len : Nat
  cells : List (Nat × Nat) := []
deriving DecidableEq, Repr

/-- A queue of the output store: on-chip head, Coolbox segment with its unfinished page, the cells in it and the time of the last spilled arrival (R200), spill mode (R199), tags and activity (R216), a WEIGHT or head change to apply
at the next decision (R217). -/
structure OutQ where
  chip : List QEnt := []
  cool : List QEnt := []
  page : Nat := 0
  partial_ : Nat := 0
  lastSpill : Nat := 0
  spill : Bool := false
  s : Nat := 0
  f : Nat := 0
  active : Bool := false
  retag : Bool := false
deriving DecidableEq, Repr

/-- The two buckets of a policer in units of 2^-8 byte (R227). -/
structure PolBal where
  c : Nat := 0
  e : Nat := 0
deriving DecidableEq, Repr

end Sys2Proof.Machine
end

