-- ==== Sys2Proof/Machine/TypesStore.lean ====
section
/-! DEFINITION. The parts of State that the chapters on ingest jobs, Hamper links and pairing name. -/

namespace Sys2Proof.Machine

/-- A shelf command that has no final answer yet (R280, R281): its number within the job, opcode, side (`w`: the write
side), shard, first unit, units, the messages it sends on the data channel, when it was sent, BUSY answers so far, when
it is due again, units received, and whether it has been answered OK. -/
structure ShelfCmd where
  num : Nat
  op : Nat
  w : Bool
  shard : Nat
  unit : Nat
  count : Nat
  data : List (List Byte)
  sentAt : Nat
  busy : Nat := 0
  retryAt : Option Nat := none
  got : Nat := 0
  answered : Bool := false
deriving DecidableEq, Repr

/-- A unit of a job that SEC works on or that waits to be sent (R279, R286): side, shard, unit, the bytes, and for a
decryption the unit satchel. -/
structure UnitOp where
  w : Bool
  shard : Nat
  unit : Nat
  bytes : List Byte
  fid : Option Nat
deriving DecidableEq, Repr

/-- What a session unit holds beside the context of a PDU that is arriving (R268 to R270): the bytes of one to be handed
whole, or the XFER entry of a data PDU as it stood at its header. -/
structure StsRx where
  whole : List Byte := []
  xfer : Nat := 0
deriving DecidableEq, Repr

/-- Where a job stands. -/
inductive JobPhase where
  | manifest | data | closing
deriving DecidableEq, Repr

/-- An OPEN job in its engine (R273 to R290): kind, engine, instance; the object bytes taken in, emitted or decanted so
far and those that FIX has digested on a read; stripes coded on the write side and taken on the read side; the key
generation latched on each side; unit operations; units waiting to be sent; shelf commands; masks of shards failed, opened
and closed (write side), erased for the rest of the job and holding bad units (read side); the shard asked for its
manifest and the manifest read; units at hand on the read side (their satchels, or none where erased) by 2^45 shard +
unit; units asked for by shard; bad units; NOTIFY_GROUP and COOKIE as the engine took them at OPEN; the
island that last encrypted for it; the stripes that hold
bytes of a satchel with AUTH_FAIL set (R255); whether its generation was not the instance's at OPEN (R322). -/
structure StoreJob where
  kind : Nat
  eng : Nat
  inst : Nat
  gen : Nat
  phase : JobPhase
  obj : List Byte := []
  fixed : Nat := 0
  stripes : Nat := 0
  rstripe : Nat := 0
  genR : Option Nat := none
  genW : Option Nat := none
  ops : List UnitOp := []
  ready : List UnitOp := []
  cmdNo : Nat := 0
  cmds : List ShelfCmd := []
  failed : Nat := 0
  opened : Nat := 0
  closed : Nat := 0
  erased : Nat := 0
  badMask : Nat := 0
  metaShard : Nat := 0
  manifest : List Byte := []
  units : Tab (Option Nat) := []
  asked : Tab Nat := []
  bad : Nat := 0
  notify : Nat := 0
  cookie : Nat := 0
  wIsl : Nat := 0
  tainted : List Nat := []
  late : Bool := false
deriving DecidableEq, Repr

/-- What a message carries besides its bytes: the satchel subset of R377 and R378. -/
structure HSubset where
  mu : Nat := 0
  authFail : Nat := 0
  extMask : Nat := 0
  fmtGen : Nat := 0
  inst : Nat := 0
  flowClass : Nat := 0
  tc : Nat := 0
  colour : Nat := 0
  seq : Nat := 0
deriving DecidableEq, Repr

/-- A message to send (R378, R385): bytes, extension words included, how many have gone, and whether it is an entry of
the firmware ring, a shelf command (its job and number), or a frame. -/
structure HMsg where
  sub : HSubset
  bytes : List Byte
  sent : Nat := 0
  fw : Bool := false
  cmd : Option (Nat × Nat) := none
  fid : Option Nat := none
deriving DecidableEq, Repr

/-- A virtual channel of a Hamper link (R377, R379, R381, R382): messages to send, credits held, flits sent, buffers freed
here, the partner's CR_FREED and TX_CNT as last seen, the message being assembled with its flits, and the time since
which messages wait without a credit. -/
structure HVc where
  txq : List HMsg := []
  credits : Nat := 0
  txCnt : Nat := 0
  freed : Nat := 0
  peerFreed : Nat := 0
  rxCnt : Nat := 0
  part : Option (HSubset × List Byte) := none
  partFlits : Nat := 0
  creditAt : Nat := 0
deriving DecidableEq, Repr

/-- A Hamper link: its virtual channels, whole messages received (channel, subset, bytes, flits), the rotation of CR_VC,
when training began, the peer's serial number, when the last flit with a valid CHECK came, and the channel served last. -/
structure HLink where
  vcs : Tab HVc := []
  rx : List (Nat × HSubset × List Byte × Nat) := []
  rot : Nat := 0
  trainAt : Nat := 0
  serial : Nat := 0
  flitAt : Nat := 0
  turn : Nat := 3
deriving DecidableEq, Repr

/-- The pair controller beyond its registers (R390 to R398): epochs; the peer's last PAIR_STATE (time, ROLE) and whether it
has been seen since STARTING; when the role, a handover request and eligibility began; since when PAIR_HOLD_IN is
deasserted, when PAIR_HOLD_OUT was asserted, the end of a back-off; the answer of each shelf link to its last claim and
the claim commands that each has not answered; the ECC window (seconds of ICT) and its errors; the triggers held by events (ECC rate, clusters,
host links, power entry); the sign of the peer's loss that waits to be acted on; messages from the peer that
wait; the PAIR_STATE last sent; when it and the last claim were sent. -/
structure Pair where
  epoch : Nat := 0
  peerEpoch : Nat := 0
  peerAt : Option Nat := none
  peerRole : Nat := 0
  seen : Bool := false
  roleAt : Nat := 0
  reqAt : Option Nat := none
  eligAt : Option Nat := none
  holdFreeAt : Nat := 0
  holdOutAt : Option Nat := none
  backoff : Option Nat := none
  answers : Tab Bool := []
  claims : Tab Nat := []
  eccWin : Nat := 0
  eccErrs : Nat := 0
  eccTrig : Bool := false
  staleTrig : Nat := 0
  hostTrig : Nat := 0
  powerTrig : Bool := false
  lost : Option Nat := none
  inbox : List (List Byte) := []
  said : List Byte := []
  saidAt : Nat := 0
  claimAt : Nat := 0
deriving DecidableEq, Repr

end Sys2Proof.Machine
end

