-- ==== Sys2Proof/Machine/State.lean ====
section
/-! DEFINITION. The state of the block: every register, buffer, queue, counter, mode and pin that the spec gives it, the
queue of waiting commands, and the state after reset. -/

namespace Sys2Proof.Machine

/-- Why a step stops with a fault. No meaning of this model raises it: the spec gives every command an effect. -/
inductive Fault where
  /-- An effect the spec does not describe. Raised by no command. Safe. -/
  | unspecified
deriving DecidableEq, Repr

/-- Why a command has no meaning. -/
inductive Refusal where
  /-- The command of that mnemonic has no meaning yet; raised by its arm of `exec`. Safe: the machine stops. -/
  | notModelled (mnemonic : String)
deriving DecidableEq, Repr

/-- What the block has shown to the outside, oldest first: an observation log of the model. -/
inductive Output where
  /-- A data frame sent by a MAC, with its bytes without FCS; `stomp`: the FCS was inverted (R138). -/
  | portFrame (port sub : Nat) (bytes : List Byte) (stomp : Bool)
  /-- A PFC frame with one class and its time (R144). -/
  | pfc (port sub tc time : Nat)
  /-- The counter interrupt of a port (R141), to both host links. -/
  | counterInt (port : Nat)
  /-- A memory write to the host: link, function, PASID (0: none), Relaxed Ordering, address, bytes (R300). -/
  | hostWrite (h fn pasid : Nat) (ro : Bool) (addr : Nat) (bytes : List Byte)
  /-- A memory read request to the host: link, function, PASID, tag, address, length. -/
  | hostRead (h fn pasid tag addr len : Nat)
  /-- An interrupt message: link, function, address, data (R306, R309). -/
  | msi (h fn addr data : Nat)
  /-- Assert_INTx or Deassert_INTx for INTA (R307). -/
  | intx (h : Nat) (on : Bool)
  /-- A completion to the host: link, status (0 success, 1 UR, 4 CA), data. -/
  | completion (h status : Nat) (bytes : List Byte)
  /-- An error message: link, function, kind (0 ERR_COR, 1 ERR_NONFATAL, 2 ERR_FATAL) (R316). -/
  | errMsg (h fn kind : Nat)
  /-- A response on the sideband (R437). -/
  | sideband (bytes : List Byte)
  /-- Bytes returned to the reader of a register or of the Trailbook. -/
  | readData (bytes : List Byte)
  /-- A Hamper flit sent on a link (R377). -/
  | flit (link : Nat) (bytes : List Byte)
  /-- The link control flit of bring-up step 4: link, device serial number and the flits offered on each virtual channel
  (R375, R377, R381). -/
  | linkHello (link serial : Nat) (credits : List Nat)
  /-- Bytes written into a flash slot at an offset (R427). -/
  | flash (slot offset : Nat) (bytes : List Byte)
  /-- A PM_PME message (R412). -/
  | pme (h : Nat)
deriving DecidableEq, Repr

/-- The state of the block. -/
structure State where
  /-- Commands that wait, first in, first out. -/
  pending : List Instr := []
  /-- The number of the next free value (the model's own). -/
  free : Nat := 0
  out : List Output := []
  mem : List Host.Cell := []
  scratch : Tab Byte := []
  regs : Tab W32 := []
  /-- The 1 µs boundaries of ICT that the shapers (i) and policers (256 + i) of island i have been refilled for. -/
  served : Tab Nat := []
  held : Tab W32 := []
  clock : Clock := {}
  tb : Trailbook := {}
  boot : Boot := {}
  power : Power := {}
  pins : Pins := {}
  fuses : Tab W32 := []
  loaded : Tab W32 := []
  fuseOp : Option FuseOp := none
  temps : Tab Byte := []
  zeroising : Option Nat := none
  isl : Tab IslandSt := []
  threads : Tab Thread := []
  entries : Tab ThreadEntry := []
  cores : Tab CoreSt := []
  clusters : Tab Cluster := []
  stewards : Tab Steward := []
  signals : List SigMsg := []
  gated : List GatedAccess := []
  nextOp : Nat := 0
  frames : Tab Frame := []
  nextFrame : Nat := 0
  attachSeq : Tab Nat := []
  insts : Tab Instance := []
  hosts : Tab HostLink := []
  xfers : Tab Xfer := []
  nextXfer : Nat := 0
  readQ : List Nat := []
  groups : Tab (List Nat) := []
  pauses : Tab PauseSt := []
  ptp : Tab (List PtpRec) := []
  macs : Tab Mac := []
  lanes : Tab Lane := []
  reorder : Tab Reorder := []
  spreadLast : Tab Nat := []
  slotUntil : Tab Nat := []
  staging : Tab Staging := []
  fabric : Fabric := {}
  outQs : Tab OutQ := []
  spillBacklog : Tab Nat := []
  polBal : Tab PolBal := []
  /-- Mirror copies that have not entered the fabric: frame, input and original (R204, R209). -/
  copies : List (Nat × Nat × Nat) := []
  /-- Satchels that the present command has made and that its end is to step. -/
  toStep : List Nat := []
  captureQ : List (List Byte) := []
  captureTokens : Nat := 4096
  captureAt : Nat := 0
  qps : Tab QPair := []
  hostCmds : List HostCmd := []
  cmdWait : List WaitCmd := []
  replies : List (Nat × Nat × Bool) := []
  mboxes : Tab Mbox := []
  mbIntEn : Tab Nat := []
  ferry : Tab Ferry := []
  ferryTurn : Nat := 63
  slots : Tab KeySlot := []
  /-- What an unlisted slot of each key bank holds. -/
  keyBanks : Tab KeySlot := []
  stage : Tab W32 := []
  ksCode : Tab Nat := []
  notify : List Nat := []
  keyCache : Tab (List Nat) := []
  keyMiss : Tab (List Nat) := []
  ciphJobs : List CiphJob := []
  rrEngine : Tab Nat := []
  ciphIn : Tab (List Recirc) := []
  ciphOut : Tab (List Nat) := []
  stsIn : Tab (List Nat) := []
  stsOut : Tab (List Nat) := []
  ctxCache : Tab (List Nat) := []
  /-- A session unit's departure place in a PDU of a connection: data bytes left, the digest so far, whether it has one. -/
  stsTx : Tab (Nat × Nat × Bool) := []
  stsRx : Tab StsRx := []
  ingIn : Tab (List Nat) := []
  jobs : Tab StoreJob := []
  unitIn : List (Nat × List Byte) := []
  shelfResps : List (Nat × List Byte) := []
  hlinks : Tab HLink := []
  pair : Pair := {}
deriving DecidableEq, Repr

/-- The state after reset: PORST_N has just been released, the Lantern runs, and boot waits for its monitors (R425). -/
def State.reset : State := {}

end Sys2Proof.Machine
end

