-- ==== Sys2Proof/Machine/Satchel.lean ====
section
/-! DEFINITION. The satchel: its fields (R37), the words and fields of a frame's satchel, the endpoint encoding (R40). -/

namespace Sys2Proof.Machine

/-- A satchel field: word, lowest bit, width. -/
structure SatField where
  w : Nat
  lo : Nat
  n : Nat
deriving DecidableEq, Repr

abbrev sfInstance : SatField := ⟨0, 0, 12⟩
abbrev sfInstGen : SatField := ⟨0, 12, 16⟩
abbrev sfPhase : SatField := ⟨0, 28, 1⟩
abbrev sfK : SatField := ⟨0, 29, 1⟩
abbrev sfColour : SatField := ⟨0, 30, 2⟩
abbrev sfFmtGen : SatField := ⟨1, 0, 8⟩
abbrev sfExtMask : SatField := ⟨1, 8, 4⟩
abbrev sfFlowClass : SatField := ⟨1, 12, 10⟩
abbrev sfTc : SatField := ⟨1, 22, 3⟩
abbrev sfMirSession : SatField := ⟨1, 25, 4⟩
abbrev sfMirEn : SatField := ⟨1, 29, 1⟩
abbrev sfCapture : SatField := ⟨1, 30, 1⟩
abbrev sfMu : SatField := ⟨1, 31, 1⟩
abbrev sfSvc : SatField := ⟨2, 0, 14⟩
abbrev sfDone : SatField := ⟨2, 14, 14⟩
abbrev sfExc : SatField := ⟨2, 28, 1⟩
abbrev sfAuthFail : SatField := ⟨2, 29, 1⟩
abbrev sfStomp : SatField := ⟨2, 30, 1⟩
abbrev sfTrunc : SatField := ⟨2, 31, 1⟩
abbrev sfReason : SatField := ⟨3, 0, 8⟩
abbrev sfSrc : SatField := ⟨3, 8, 10⟩
abbrev sfDst : SatField := ⟨3, 18, 10⟩
abbrev sfPos : SatField := ⟨3, 28, 4⟩
abbrev sfKeySlot : SatField := ⟨4, 0, 18⟩
abbrev sfKeyGen : SatField := ⟨4, 18, 14⟩
abbrev sfTsLo : SatField := ⟨5, 0, 32⟩
abbrev sfTsHi : SatField := ⟨6, 0, 32⟩
abbrev sfSeq : SatField := ⟨7, 0, 16⟩
abbrev sfHash : SatField := ⟨7, 16, 16⟩
abbrev sfLen : SatField := ⟨8, 0, 16⟩
abbrev sfNextHop : SatField := ⟨8, 16, 16⟩
abbrev sfVni : SatField := ⟨9, 0, 24⟩
abbrev sfTunIdx : SatField := ⟨9, 24, 8⟩
abbrev sfOffL3 : SatField := ⟨10, 0, 8⟩
abbrev sfOffL4 : SatField := ⟨10, 8, 8⟩
abbrev sfOffIl3 : SatField := ⟨10, 16, 8⟩
abbrev sfOffIl4 : SatField := ⟨10, 24, 8⟩
abbrev sfCtx : SatField := ⟨11, 0, 20⟩
abbrev sfQueue : SatField := ⟨11, 20, 12⟩

/-- Word `i` of a satchel. -/
def satWord (v : Vector W32 16) (i : Nat) : Nat := (v[i]?.getD 0).toNat

/-- A satchel with word `i` replaced. -/
def satSetWord (v : Vector W32 16) (i x : Nat) : Vector W32 16 := v.setIfInBounds i (BitVec.ofNat 32 x)

/-- A field of the frame's satchel. -/
def Frame.gf (f : Frame) (x : SatField) : Nat := fld (satWord f.s x.w) x.lo x.n

/-- The frame with a field of its satchel replaced. -/
def Frame.sf (f : Frame) (x : SatField) (v : Nat) : Frame :=
  { f with s := satSetWord f.s x.w (setFld (satWord f.s x.w) x.lo x.n v) }

/-- LEN, the length of the frame as it stands (R37). -/
def Frame.len (f : Frame) : Nat := f.gf sfLen

/-- The frame with new bytes and LEN to match. -/
def Frame.setData (f : Frame) (bs : List Byte) : Frame := ({ f with data := bs }).sf sfLen bs.length

/-- The ingress timestamp in units of 0.5 ns (R37). -/
def Frame.ts (f : Frame) : Nat := f.gf sfTsLo + 2 ^ 32 * f.gf sfTsHi

/-- Is service bit `b` asked for and not yet performed? -/
def Frame.wants (f : Frame) (b : Nat) : Bool := bit (f.gf sfSvc) b && !bit (f.gf sfDone) b

/-- The frame with DONE bit `b` set. -/
def Frame.setDone (f : Frame) (b : Nat) : Frame := f.sf sfDone (f.gf sfDone ||| 2 ^ b)

/-- An offset moved by `d` bytes, or 0xFF where it falls outside the parse window (R38). -/
def moveOff (x : Nat) (d : Int) : Nat :=
  if x = 0xFF then 0xFF else
    let y := (x : Int) + d
    if 0 ≤ y ∧ y < 0xFF then y.toNat else 0xFF

/-- The frame after its front has grown (positive) or shrunk by `d` bytes: the four offsets follow (R38). -/
def Frame.moveOffs (f : Frame) (d : Int) : Frame :=
  ((((f.sf sfOffL3 (moveOff (f.gf sfOffL3) d)).sf sfOffL4 (moveOff (f.gf sfOffL4) d)).sf sfOffIl3
    (moveOff (f.gf sfOffIl3) d)).sf sfOffIl4 (moveOff (f.gf sfOffIl4) d))

/-! The endpoint encoding (R40). -/

/-- A port endpoint. -/
def epIsPort (e : Nat) : Bool := e < 0x100
/-- A host link endpoint. -/
def epIsHost (e : Nat) : Bool := e = 0x100 || e = 0x101
/-- A Hamper link endpoint. -/
def epIsHamper (e : Nat) : Bool := 0x108 ≤ e && e ≤ 0x10D
/-- The shelf set. -/
def epShelfSet : Nat := 0x10E
/-- A cluster endpoint. -/
def epIsCluster (e : Nat) : Bool := 0x110 ≤ e && e ≤ 0x11F
/-- The steward endpoint. -/
def epSteward : Nat := 0x120
/-- An ingest island endpoint. -/
def epIsIngest (e : Nat) : Bool := e = 0x121 || e = 0x122
/-- A value that R40 gives to no endpoint; 0x3FF, unresolved, is apart. -/
def epReserved (e : Nat) : Bool :=
  !(epIsPort e || epIsHost e || epIsHamper e || e = epShelfSet || epIsCluster e || e = epSteward || epIsIngest e
    || e = 0x3FF)

end Sys2Proof.Machine
end

