-- ==== Sys2Proof/Machine/Ops.lean ====
section
/-! DEFINITION. The named operations that every chapter's meanings share: control registers, time, memory, Trailbook
records, frames, threads and their events, taking an exception and returning from one. -/

namespace Sys2Proof.Machine

/-! ### Control registers (R8, R18) -/

/-- The word that the register file holds at a control address. -/
def State.rd (s : State) (a : Nat) : W32 := Tab.get (regReset a) s.regs a

/-- The register file with a word replaced: what the hardware itself writes. -/
def State.wr (s : State) (a : Nat) (v : W32) : State := { s with regs := Tab.set (regReset a) s.regs a v }

/-- `n` consecutive words from address `a` as one number, the lowest address lowest. -/
def State.rdN (s : State) (a : Nat) : Nat → Nat
  | 0 => 0
  | n + 1 => (s.rd a).toNat + 2 ^ 32 * s.rdN (a + 4) n

/-- Write `n` consecutive words from address `a`. -/
def State.wrN (s : State) (a : Nat) : Nat → Nat → State
  | 0, _ => s
  | n + 1, v => (s.wr a (BitVec.ofNat 32 v)).wrN (a + 4) n (v / 2 ^ 32)

/-- The words that a field spans, counted from its first. -/
def Fld.words (f : Fld) : Nat := (f.lo % 32 + f.width + 31) / 32

/-- A field of the register at `a`. -/
def State.rf (s : State) (a : Nat) (f : Fld) : Nat := fld (s.rdN (a + 4 * (f.lo / 32)) f.words) (f.lo % 32) f.width

/-- Set a field of the register at `a`. -/
def State.setRf (s : State) (a : Nat) (f : Fld) (v : Nat) : State :=
  s.wrN (a + 4 * (f.lo / 32)) f.words (setFld (s.rdN (a + 4 * (f.lo / 32)) f.words) (f.lo % 32) f.width v)

/-- Add to a 40-bit counter, which wraps (R52, R140, R181, R208). -/
def State.count (s : State) (a : Nat) (n : Nat := 1) : State :=
  s.wrN a 2 ((s.rdN a 2 + n) % 2 ^ 40)

/-- Add to a 32-bit counter, which wraps. -/
def State.count32 (s : State) (a : Nat) (n : Nat := 1) : State := s.wr a (BitVec.ofNat 32 ((s.rd a).toNat + n))

/-! ### Time (R27, R28, R31) -/

/-- One nanosecond in the units of the time scales. -/
def nsUnit : Nat := 2 ^ 24

/-- ICT in whole nanoseconds. -/
def State.ictNs (s : State) : Nat := s.clock.ict / nsUnit

/-- ICT in units of 0.5 ns, the units of a satchel's TS. -/
def State.ictHalf (s : State) : Nat := s.clock.ict / (nsUnit / 2)

/-- TOD in units of 2^-24 ns of an ICT value in the same units (R28). -/
def State.toTod (s : State) (ict : Nat) : Nat := (s.clock.tod + ict) - s.clock.ict

/-- Has a timer of `ns` nanoseconds started at `t0` (in ICT nanoseconds) fired (R31)? -/
def State.elapsed (s : State) (t0 ns : Nat) : Bool := t0 + ns ≤ s.ictNs

/-- The 1 µs boundaries of ICT so far. -/
def State.micros (s : State) : Nat := s.ictNs / 1000

/-- The refill boundaries that refiller `k` has not been served for (R220, R227). -/
def State.refillsDue (s : State) (k : Nat) : Nat := s.micros - Tab.get 0 s.served k

/-- Refiller `k` has been served up to now. -/
def State.markServed (s : State) (k : Nat) : State := { s with served := Tab.set 0 s.served k s.micros }

/-- Show something to the outside. -/
def State.emit (s : State) (o : Output) : State := { s with out := s.out ++ [o] }

/-! ### Memory -/

/-- What a byte of memory reads as while nothing is listed at its address (DESIGN CHOICE: the spec gives memories no
contents after power-on). -/
def memDefault : Byte := 0

/-- One byte of the device address space. -/
def State.ldByte (s : State) (a : Nat) : Byte := Tab.get memDefault s.mem a

/-- Store one byte. -/
def State.stByte (s : State) (a : Nat) (b : Byte) : State := { s with mem := Tab.set memDefault s.mem a b }

/-- `n` bytes from address `a`. -/
def State.ldBytes (s : State) (a : Nat) : Nat → List Byte
  | 0 => []
  | n + 1 => s.ldByte a :: s.ldBytes (a + 1) n

/-- Store a byte string from address `a`. -/
def State.stBytes (s : State) (a : Nat) : List Byte → State
  | [] => s
  | b :: bs => (s.stByte a b).stBytes (a + 1) bs

/-- A little-endian number of `n` bytes in device memory (R6). -/
def State.ldNat (s : State) (a n : Nat) : Nat := leNat (s.ldBytes a n)

/-- The canonical form of memory. -/
abbrev Memory.wf (m : List Host.Cell) : Bool := Tab.wf (fun _ => memDefault) m

/-- Reserved device addresses (R15, R17). -/
def devReserved (a : Nat) : Bool :=
  (0x0D000000 ≤ a && a < 0x100000000) || 0x1900000000 ≤ a

/-- The first byte of core `c`'s instruction memory, cores numbered 16 k + c (R13). -/
def coreBase (core : Nat) : Nat := 0x0B000000 + core * 0x18000
/-- The first byte of core `c`'s data memory. -/
def coreData (core : Nat) : Nat := coreBase core + 0x8000

/-- Does the byte at `a` lie in some core's instruction memory? -/
def inInsnMem (a : Nat) : Bool := 0x0B000000 ≤ a && a < 0x0C800000 && (a - 0x0B000000) % 0x18000 < 0x8000

/-! ### Trailbook records (R434, R435, R453) -/

/-- The 40 bytes of DATA from (offset, size, value) entries; bytes not named are zero. -/
def recData (items : List (Nat × Nat × Nat)) : List Byte :=
  leBytes 40 (items.foldl (fun acc x => acc ||| (x.2.2 % 2 ^ (8 * x.2.1) * 2 ^ (8 * x.1))) 0)

/-- One record in millionths, the unit of the token bucket. -/
def recToken : Nat := 1000000

/-- One microsecond's tokens for every boundary since the last refill, up to the burst of 4,096 records (R435). -/
def State.tbRefill (s : State) : State :=
  { s with tb := { s.tb with tokens := min (4096 * recToken) (s.tb.tokens + 8192 * (s.micros - s.tb.served)), served := s.micros } }

/-- Hand a record to the Trailbook writer, its bucket refilled for the boundaries passed: a FATAL one is never refused; another needs a token and a place, or is
counted in TB.LOST. -/
def State.recordFlags (s : State) (code island flags : Nat) (data : List Byte) : State :=
  let q : TbQueued := ⟨s.clock.tod, code, island, flags, data⟩
  let s := s.tbRefill
  if bit flags 0 then { s with tb := { s.tb with queue := s.tb.queue ++ [q] } }
  else if recToken ≤ s.tb.tokens ∧ (s.tb.queue.filter fun x => !bit x.flags 0).length < 240 ∧ s.tb.queue.length < 256 then
    { s with tb := { s.tb with queue := s.tb.queue ++ [q], tokens := s.tb.tokens - recToken } }
  else s.count32 Reg.tbLost

/-- A device record that is not FATAL. -/
def State.record (s : State) (code island : Nat) (items : List (Nat × Nat × Nat)) : State :=
  s.recordFlags code island 0 (recData items)

/-- A FATAL device record. -/
def State.recordFatal (s : State) (code island : Nat) (items : List (Nat × Nat × Nat)) : State :=
  s.recordFlags code island 1 (recData items)

/-! ### Frames -/

/-- The frame with number `fid`. -/
def State.frame (s : State) (fid : Nat) : Frame := Tab.get {} s.frames fid

/-- Replace a frame. -/
def State.setFrame (s : State) (fid : Nat) (f : Frame) : State := { s with frames := Tab.put s.frames fid f }

/-- Apply `g` to a frame. -/
def State.modFrame (s : State) (fid : Nat) (g : Frame → Frame) : State := s.setFrame fid (g (s.frame fid))

/-- A new frame, and its number. -/
def State.newFrame (s : State) (f : Frame) : State × Nat :=
  ({ s with frames := Tab.put s.frames s.nextFrame f, nextFrame := s.nextFrame + 1 }, s.nextFrame)

/-- The next sequence number of attach point `k` (R41). -/
def State.nextSeq (s : State) (k : Nat) : State × Nat :=
  let n := Tab.get 0 s.attachSeq k
  ({ s with attachSeq := Tab.set 0 s.attachSeq k ((n + 1) % 65536) }, n)

/-- An instance. VI0 is the device itself and always exists (R320). -/
def State.inst (s : State) (i : Nat) : Instance :=
  Tab.get (if i = 0 then { st := .active, gen := 0 } else {}) s.insts i

/-- Is work of generation `g` of instance `i` stale (R39, R323)? -/
def State.genStale (s : State) (i g : Nat) : Bool := (s.inst i).hold || (s.inst i).gen ≠ g

/-- Replace an instance. -/
def State.setInst (s : State) (i : Nat) (x : Instance) : State := { s with insts := Tab.put s.insts i x }

/-- The reason R39 discards a satchel for: INSTANCE_INVALID, STALE_GEN, or none. -/
def State.fence (s : State) (f : Frame) : Option Nat :=
  let i := s.inst (f.gf sfInstance)
  if i.st = .free then some 0x03 else if i.hold || f.gf sfInstGen ≠ i.gen % 65536 then some 0x04 else none

/-- Count an exception reason (R52). -/
def State.countExc (s : State) (r : Nat) : State := s.count (Reg.excCnt r)

/-- Attach a satchel (R37, R41): a new frame with its bytes, SRC, INSTANCE and its current generation, TS in units of
0.5 ns, the sequence number of attach point `k`, FMT_GEN from FAB.FMT_GEN.CUR and the vector of flow class 0; the
other fields take the Reset values of R37. -/
def State.attach (s : State) (src inst ts k : Nat) (data : List Byte) : State × Nat :=
  let r := s.nextSeq k
  let s := r.1
  let f : Frame := { data := data }
  let f := ((f.sf sfInstance inst).sf sfInstGen (s.inst inst).gen).sf sfFmtGen (s.rf Reg.fmtGen fmtGen_CUR)
  let f := f.sf sfSvc (if s.rf Reg.flowClass0 flowClass0_VALID = 1 then s.rf Reg.flowClass0 flowClass0_SVC else 0)
  let f := ((f.sf sfSrc src).sf sfDst 0x3FF).sf sfTsLo ts
  let f := ((f.sf sfTsHi (ts / 2 ^ 32)).sf sfSeq r.2).sf sfLen data.length
  let f := (f.sf sfNextHop 0xFFFF).sf sfCtx 0xFFFFF
  let f := { f with s := satSetWord f.s 10 0xFFFFFFFF }
  s.newFrame f

/-- The 1 s windows of ICT that have ended are judged: the trigger holds where the last whole one had more than ECC_MAX
errors, and an error at a boundary belongs to the window that begins there (R31, R394). -/
def State.eccRoll (s : State) : State :=
  let w := s.ictNs / 1000000000
  if w = s.pair.eccWin then s else
    let bad := decide (w = s.pair.eccWin + 1 ∧ s.rf Reg.pairDiagCfg pairDiagCfg_ECC_MAX < s.pair.eccErrs)
    { s with pair := { s.pair with eccTrig := bad, eccErrs := 0, eccWin := w } }

/-- An uncorrectable error of SRAM or the Coolbox, as self-diagnosis counts it (R394). -/
def State.eccError (s : State) : State :=
  let s := s.eccRoll
  { s with pair := { s.pair with eccErrs := s.pair.eccErrs + 1 } }

/-! ### Threads and stewards (R59, R108) -/

/-- The thread with a number of R87: worker threads, then St0 to St3 at 0x800. -/
def State.thr (s : State) (n : Nat) : Thread :=
  if n < 2048 then Tab.get {} s.threads n else (Tab.get {} s.stewards (n - 2048)).t

/-- A steward. -/
def State.stw (s : State) (k : Nat) : Steward := Tab.get {} s.stewards k

/-- Replace a steward. -/
def State.setStw (s : State) (k : Nat) (x : Steward) : State := { s with stewards := Tab.put s.stewards k x }

/-- Replace a thread. -/
def State.setThr (s : State) (n : Nat) (t : Thread) : State :=
  if n < 2048 then { s with threads := Tab.put s.threads n t }
  else s.setStw (n - 2048) { s.stw (n - 2048) with t := t }

/-- Apply `g` to a thread. -/
def State.modThr (s : State) (n : Nat) (g : Thread → Thread) : State := s.setThr n (g (s.thr n))

/-- A thread-table entry. -/
def State.entryOf (s : State) (n : Nat) : ThreadEntry := Tab.get {} s.entries n

/-- A cluster. -/
def State.cluster (s : State) (k : Nat) : Cluster := Tab.get {} s.clusters k

/-- Replace a cluster. -/
def State.setCluster (s : State) (k : Nat) (c : Cluster) : State := { s with clusters := Tab.put s.clusters k c }

/-- A core, numbered 16 k + c. -/
def State.core (s : State) (c : Nat) : CoreSt := Tab.get {} s.cores c

/-- Replace a core. -/
def State.setCore (s : State) (c : Nat) (x : CoreSt) : State := { s with cores := Tab.put s.cores c x }

/-- The islands of R12 that hold something. -/
def islandAssigned (i : Nat) : Bool := i ≤ 0x68

/-- An island. -/
def State.island (s : State) (i : Nat) : IslandSt := Tab.get {} s.isl i

/-- Replace an island. -/
def State.setIsland (s : State) (i : Nat) (x : IslandSt) : State := { s with isl := Tab.put s.isl i x }

/-- General register `r`: g0 reads zero (R59). -/
def Regs.get (x : Regs) (r : BitVec 5) : W64 := if r = 0 then 0 else x.g[r.toNat]'r.isLt

/-- Write a general register; a write to g0 is discarded (R59). -/
def Regs.set (x : Regs) (r : BitVec 5) (v : W64) : Regs := if r = 0 then x else { x with g := x.g.set r.toNat v r.isLt }

/-- Predicate `p`: p0 reads 1 (R59). -/
def Regs.pred (x : Regs) (p : BitVec 3) : Bool := if p = 0 then true else x.p.getLsbD p.toNat

/-- Write a predicate; a write to p0 is discarded (R59). -/
def Regs.setPred (x : Regs) (p : BitVec 3) (b : Bool) : Regs :=
  if p = 0 then x else { x with p := BitVec.ofNat 8 (setFld x.p.toNat p.toNat 1 (b2n b)) }

/-! ### Events (R86, R96) -/

/-- Set event bits of a thread. -/
def State.setEv (s : State) (n : Nat) (m : W64) : State := s.modThr n fun t => { t with ev := t.ev ||| m }

/-- The event bits that a binding list gives to a source. -/
def bindMask (bs : List Binding) (type index : Nat) : W64 :=
  bs.foldl (fun m b => if b.type = type ∧ b.index = index then m ||| BitVec.ofNat 64 (2 ^ b.bit) else m) 0

/-- The bindings that a steward's EVBIND registers hold, in the layout of R106. -/
def stwBinds (x : Steward) : List Binding :=
  x.evbind.map fun e => ⟨e.1, fld e.2.toNat 6 4, fld e.2.toNat 10 16⟩

/-- The bindings of a thread or steward. -/
def State.bindsOf (s : State) (n : Nat) : List Binding :=
  if n < 2048 then (s.entryOf n).binds else stwBinds (s.stw (n - 2048))

/-- Set the bit bound to a source at every thread and steward that has it bound. -/
def State.raiseSource (s : State) (type index : Nat) : State :=
  let go := fun (s : State) (n : Nat) =>
    let m := bindMask (s.bindsOf n) type index
    if m = 0 then s else s.setEv n m
  [2048, 2049, 2050, 2051].foldl go (s.entries.foldl (fun s e => go s e.1) s)

/-- Set the bit bound to a source at every steward but one (R97). -/
def State.raiseOthers (s : State) (type index but : Nat) : State :=
  [0, 1, 2, 3].foldl (fun s k =>
    if k = but then s else
      let m := bindMask (stwBinds (s.stw k)) type index
      if m = 0 then s else s.setEv (2048 + k) m) s

/-! ### Exceptions (R95 to R97) -/

/-- A worker thread takes an exception: it is faulted, the cluster queues the fault (at most 128, else LOST), a
THREAD_FAULT record is written and the event of type 0x8 set (R96). -/
def State.faultThread (s : State) (n code pc addr : Nat) : State :=
  let k := n / 128
  let c := s.cluster k
  let s := s.modThr n fun t => { t with run := .faulted, pc := pc }
  let s := if c.faults.length < 128 then
      s.setCluster k { c with faults := c.faults ++ [⟨n % 128, code, pc, addr % 2 ^ 48⟩] }
    else s.setRf (Reg.threadFault k) threadFault_LOST 1
  let s := s.record 0x0050 (0x42 + k) [(0, 2, n), (2, 1, code), (4, 2, pc), (8, 8, addr % 2 ^ 48)]
  s.raiseSource 8 k

/-- A steward takes an exception: EPC, ECAUSE and EADDR are written; with IN_EXC clear it sets IN_EXC and continues at
EVEC; with IN_EXC set it halts, with a STEWARD_HALT record and the event of type 0xB at the others (R97). -/
def State.faultSteward (s : State) (k code pc addr : Nat) : State :=
  let x := s.stw k
  let y := { x with epc := BitVec.ofNat 64 pc, ecause := BitVec.ofNat 64 code, eaddr := BitVec.ofNat 64 addr }
  if bit x.estatus.toNat 0 then
    let s := s.setStw k { y with t := { y.t with run := .faulted, pc := pc } }
    let s := s.recordFatal 0x0051 0x52 [(0, 1, k), (1, 1, code), (4, 4, pc), (8, 8, addr)]
    s.raiseOthers 0xB k k
  else
    s.setStw k { y with estatus := 1, t := { y.t with run := .ready, pc := x.evec.toNat } }

/-- Take an exception at a thread or steward: the one shared operation. -/
def State.takeException (s : State) (n code pc addr : Nat) : State :=
  if n < 2048 then s.faultThread n code pc addr else s.faultSteward (n - 2048) code pc addr

/-- Return from a steward exception: PC from EPC, IN_EXC cleared (R97). -/
def State.returnException (s : State) (k : Nat) : State :=
  let x := s.stw k
  s.setStw k { x with estatus := 0, t := { x.t with pc := x.epc.toNat } }

/-- The exception codes of R95. -/
abbrev excIllegal : Nat := 1
abbrev excPrivileged : Nat := 2
abbrev excMemAlign : Nat := 3
abbrev excMemAccess : Nat := 4
abbrev excCtlAccess : Nat := 5
abbrev excMailboxFull : Nat := 6
abbrev excEcc : Nat := 7
abbrev excSatchelState : Nat := 8
abbrev excBadTarget : Nat := 9
abbrev excTrap : Nat := 10

end Sys2Proof.Machine
end

