-- ==== Sys2Proof/Machine/HostOps.lean ====
section
/-! DEFINITION. Host link operations that other blocks use: configuration space, requests to host memory and their
tags, interrupt causes and messages, error reports, notification groups (R293 to R318). -/

namespace Sys2Proof.Machine

/-- A host link. -/
def State.host (s : State) (h : Nat) : HostLink := Tab.get {} s.hosts h

/-- Replace a host link. -/
def State.setHost (s : State) (h : Nat) (x : HostLink) : State := { s with hosts := Tab.put s.hosts h x }

/-- A fuse row as programmed, over what the factory programmed (R428, R451). -/
def State.fuseProg (s : State) (r : Nat) : W32 :=
  Tab.get 0 s.fuses r ||| (if r = 198 ∨ r = 199 ∨ r = 201 ∨ r = 202 then Config.shippedFuse r else 0)

/-- A fuse row as loaded at the last boot (R429). -/
def State.fuseRow (s : State) (r : Nat) : W32 :=
  Tab.get 0 s.loaded r ||| (if r = 198 ∨ r = 199 ∨ r = 201 ∨ r = 202 then Config.shippedFuse r else 0)

/-- The `n` fuse bits from bit `b` as loaded (R428). -/
def State.fuseBits (s : State) (b n : Nat) : Nat :=
  let rows := (b % 32 + n + 31) / 32
  fld ((List.range rows).foldl (fun acc i => acc + (s.fuseRow (b / 32 + i)).toNat * 2 ^ (32 * i)) 0) (b % 32) n

/-- The reset value of a configuration dword (R295, R296, R297); identity values come from the fuses. -/
def State.cfgReset (s : State) (fn dw : Nat) : W32 :=
  match dw with
  | 0 => 0x82561F7A
  | 1 => 0x00100000
  | 2 => 0x02800010
  | 3 => if fn = 0 then 0x00800000 else 0
  | 4 => 0x00000004
  | 11 =>
    let v := s.fuseBits 6400 16
    let i := s.fuseBits 6416 16
    BitVec.ofNat 32 ((if v = 0 then 0x1F7A else v) + 65536 * i)
  | 13 => 0x00000040
  | 15 => if fn = 0 then 0x00000100 else 0
  | 16 => 0xC0035001
  | 17 => 0x00000008
  | 20 => 0x0002B010
  | 21 => 0x10008022
  | 22 => 0x00002810
  | 23 => 0x00000906
  | 29 => 0x0003001F
  | 31 => 0x0000007E
  | 32 => if fn = 0 then 0x00000006 else 0
  | 44 => if fn = 0 then 0x00070011 else 0x07FF0011
  | 45 => if fn = 0 then 0x00001000 else 0x01100000
  | 46 => if fn = 0 then 0x00001800 else 0x01108000
  | 64 => 0x14820001
  | 67 => 0x00462030
  | 69 => 0x00002000
  | 82 => if fn = 0 then 0x15810003 else 0x25810003
  | 83 => s.fuseRow 198
  | 84 => s.fuseRow 199
  | 86 => if fn = 0 then 0x18410019 else 0
  | 97 => if fn = 0 then 0x19010025 else 0
  | 98 => if fn = 0 then 0x80000001 else 0
  | 100 => if fn = 0 then 0x1C010026 else 0
  | 112 => if fn = 0 then 0x1F01002A else 0
  | 124 => if fn = 0 then 0x21010031 else 0
  | 132 => if fn = 0 then 0x25810027 else 0
  | 151 => 0x00000006
  | 150 => if fn = 0 then 0x0001002F else 0x2681002F
  | 154 => if fn = 1 then 0x0001001B else 0
  | 155 => if fn = 1 then 0x00001400 else 0
  | _ => 0

/-- A dword of configuration space. -/
def State.cfg (s : State) (h fn dw : Nat) : Nat :=
  (Tab.get (s.cfgReset fn dw) (s.host h).cfg (1024 * fn + dw)).toNat

/-- Write a dword of configuration space. -/
def State.setCfg (s : State) (h fn dw v : Nat) : State :=
  let x := s.host h
  s.setHost h { x with cfg := Tab.put x.cfg (1024 * fn + dw) (BitVec.ofNat 32 v) }

/-- Set bits of a dword of configuration space. -/
def State.cfgOr (s : State) (h fn dw m : Nat) : State := s.setCfg h fn dw (s.cfg h fn dw ||| m)

/-- A dword of configuration space as read: Interrupt Status while an enabled cause is set, and the speed and width of
the link in Link Status. -/
def State.cfgRead (s : State) (h fn dw : Nat) : Nat :=
  let v := s.cfg h fn dw
  if dw = 1 then
    v ||| (if fn = 0 ∧ (s.rf (Reg.intCause h) ⟨0, 6⟩ &&& s.rf (Reg.intEn h) intEn_EN) ≠ 0 then 2 ^ 19 else 0)
  else if dw = 24 then
    setFld (setFld v 16 4 (s.rf (Reg.linkStatus h) ⟨0, 3⟩)) 20 6 (s.rf (Reg.linkStatus h) ⟨3, 5⟩)
  else v

/-- Memory Space Enable: without it the function has no BAR to access. -/
def State.mse (s : State) (h fn : Nat) : Bool := bit (s.cfg h fn 1) 1
/-- Bus Master Enable. -/
def State.bme (s : State) (h fn : Nat) : Bool := bit (s.cfg h fn 1) 2
/-- The power state of a function: 0 D0, 3 D3hot. -/
def State.dstate (s : State) (h fn : Nat) : Nat := s.cfg h fn 17 % 4
/-- MSI-X Enable. -/
def State.msixEn (s : State) (h fn : Nat) : Bool := bit (s.cfg h fn 44) 31
/-- MSI-X Function Mask. -/
def State.msixMask (s : State) (h fn : Nat) : Bool := bit (s.cfg h fn 44) 30
/-- Enable Relaxed Ordering. -/
def State.relaxed (s : State) (h fn : Nat) : Bool := bit (s.cfg h fn 22) 4
/-- Max_Payload_Size in bytes, at most the 512 supported (R297). -/
def State.mps (s : State) (h fn : Nat) : Nat := min 512 (128 * 2 ^ fld (s.cfg h fn 22) 5 3)
/-- Max_Read_Request_Size in bytes. -/
def State.mrrs (s : State) (h fn : Nat) : Nat := min 4096 (128 * 2 ^ fld (s.cfg h fn 22) 12 3)
/-- PASID Enable of PF1. -/
def State.pasidEn (s : State) (h : Nat) : Bool := bit (s.cfg h 1 155) 16

/-- The completion timeout T in ns (R299); none with Completion Timeout Disable set. -/
def State.cplTimeout (s : State) (h fn : Nat) : Option Nat :=
  let c := s.cfg h fn 30
  if bit c 4 then none else
    some (match c % 16 with
      | 1 => 100000 | 2 => 10000000 | 5 => 55000000 | 6 => 210000000 | 9 => 900000000
      | 10 => 3500000000 | 13 => 13000000000 | 14 => 64000000000 | _ => 50000000)

/-- The most requests a function may keep outstanding under its tag size (R298). -/
def State.tagLimit (s : State) (h fn : Nat) : Nat :=
  if bit (s.cfg h fn 152) 2 then 2048 else if bit (s.cfg h fn 30) 12 then 768 else 256

/-- Count in HOST.CNT. -/
def State.hostCount (s : State) (h c : Nat) (n : Nat := 1) : State := s.count (Reg.hostCnt h c) n

/-- Can the function issue a request with this PASID (R300, R310)? -/
def State.canIssue (s : State) (h fn pasid : Nat) : Bool :=
  (s.host h).up && s.bme h fn && !(s.host h).flr.getLsbD fn && (pasid = 0 || s.pasidEn h)

/-- Does it issue one now? In D3hot it issues no new request, and what it could issue in D0 waits (R319). -/
def State.issuable (s : State) (h fn pasid : Nat) : Bool := s.canIssue h fn pasid && s.dstate h fn = 0

/-- A write to host memory, in pieces of at most Max_Payload_Size that cross no 4 KiB boundary; `payload` writes carry
Relaxed Ordering where it is enabled (R300). What the function cannot issue is not sent; in D3hot it waits for D0. -/
def State.hostWrite (s : State) (h fn pasid : Nat) (payload : Bool) (addr : Nat) (bs : List Byte) : State :=
  if !s.canIssue h fn pasid then s
  else if !s.issuable h fn pasid then s.setHost h { s.host h with postQ := (s.host h).postQ ++ [⟨fn, pasid, payload, addr, bs⟩] }
  else
    let mps := s.mps h fn
    let rec go : Nat → State → Nat → List Byte → State
      | 0, s, _, _ => s
      | n + 1, s, a, bs =>
        if bs.isEmpty then s else
          let k := min mps (4096 - a % 4096)
          go n ((s.emit (.hostWrite h fn pasid (payload && s.relaxed h fn) a (bs.take k))).hostCount h 1) (a + k) (bs.drop k)
    go bs.length s addr bs

/-- The writes that functions of a link held in D3hot are issued, in order, by those that are in D0 again. -/
def State.wakeWrites (s : State) (h : Nat) : State :=
  let l := s.host h
  l.postQ.foldl (fun s w => s.hostWrite h w.fn w.pasid w.payload w.addr w.bs) (s.setHost h { l with postQ := [] })

/-- The writes that a function held are dropped. -/
def State.dropWrites (s : State) (h fn : Nat) : State :=
  let l := s.host h
  s.setHost h { l with postQ := l.postQ.filter fun w => w.fn ≠ fn }

/-- The lowest tag number not in use. -/
def freeTag : Nat → Nat → Tab Tag → Option Nat
  | 0, _, _ => none
  | n + 1, k, t => match Tab.find t k with
    | none => some k
    | some _ => freeTag n (k + 1) t

/-- Issue the next piece of read `x` if the function issues requests and a tag is free; else it waits (R298, R319). -/
def State.issuePiece (s : State) (x : Nat) : State :=
  match Tab.find s.xfers x with
  | none => s
  | some r =>
    if !s.issuable r.h r.fn r.pasid then { s with readQ := s.readQ ++ [x] } else
    let l := s.host r.h
    let mine := (l.tags.filter fun e => e.2.fn = r.fn).length
    if s.tagLimit r.h r.fn ≤ mine then { s with readQ := s.readQ ++ [x] } else
    match (if l.tags.length < 2048 then freeTag 2049 0 l.tags else none) with
    | none => { s with readQ := s.readQ ++ [x] }
    | some tag =>
      let n := min (min r.left (s.mrrs r.h r.fn)) (4096 - r.addr % 4096)
      let t : Tag := ⟨r.fn, x, n, s.ictNs, s.cplTimeout r.h r.fn, .outstanding, false⟩
      let s := s.setHost r.h { l with tags := Tab.put l.tags tag t }
      ((s.emit (.hostRead r.h r.fn r.pasid tag r.addr n)).hostCount r.h 0)

/-- Start a read of host memory for a consumer: the number of the read, or none where the function cannot issue it and
the access fails at once (R310). -/
def State.hostRead (s : State) (kind : ReadKind) (key h fn pasid addr len : Nat) : State × Option Nat :=
  if !s.canIssue h fn pasid then (s, none) else
    let x := s.nextXfer
    let s := { s with nextXfer := x + 1, xfers := Tab.put s.xfers x ⟨h, fn, pasid, addr, len, [], kind, key⟩ }
    (s.issuePiece x, some x)

/-- Give waiting reads of a link their tags again. -/
def State.wakeReads (s : State) : State :=
  let q := s.readQ
  q.foldl State.issuePiece { s with readQ := [] }

/-! ### Errors (R316) -/

/-- The AER errors of R316: bit in the uncorrectable status register. -/
inductive AerErr where
  | cplTimeout | unexpectedCpl | poisoned | completerAbort | unsupported | malformed
deriving DecidableEq, Repr

/-- The bit of an error in the Uncorrectable Error Status register. -/
def AerErr.bit : AerErr → Nat
  | .cplTimeout => 14 | .unexpectedCpl => 16 | .poisoned => 12 | .completerAbort => 15 | .unsupported => 20
  | .malformed => 18

/-- Has the header of a TLP been received with the error? -/
def AerErr.hasTlp : AerErr → Bool
  | .cplTimeout => false
  | _ => true

/-- The AER header log (dwords 71 to 74) and First Error Pointer (dword 70) of the first unmasked error a function logs;
an error whose status is still set keeps them. Of the header the model knows the address, where one is given; the other
dwords are free values. -/
def State.headerLog (s : State) (h fn : Nat) (e : AerErr) (addr : Option Nat) : State :=
  let first := s.cfg h fn 70 % 32
  let open_ := s.cfg h fn 65 &&& (0xFFFFFFFF ^^^ s.cfg h fn 66)
  if Nat.testBit (s.cfg h fn 66) e.bit || Nat.testBit open_ first then s
  else
    let s := s.setCfg h fn 70 (setFld (s.cfg h fn 70) 0 5 e.bit)
    if !e.hasTlp then s else
      let free := fun n => (Config.freeWord (s.free + n)).toNat
      let w := match addr with
        | some a => if 2 ^ 32 ≤ a then [free 0, free 1, a / 2 ^ 32, a % 2 ^ 32] else [free 0, free 1, a, free 3]
        | none => [free 0, free 1, free 2, free 3]
      let s := { s with free := s.free + 4 }
      (List.range 4).foldl (fun s i => s.setCfg h fn (71 + i) (w.getD i 0)) s

/-- Log an uncorrectable error in a function: its status bit, the header, the bits of Device Status, and, where it is
handled as advisory, Advisory Non-Fatal Error Status (R316). -/
def State.aerLog (s : State) (h fn : Nat) (e : AerErr) (advisory : Bool) (addr : Option Nat) : State :=
  let s := (s.headerLog h fn e addr).cfgOr h fn 65 (2 ^ e.bit)
  let ur := if e = .unsupported then 2 ^ 19 else 0
  let s := if e = .poisoned then s.cfgOr h fn 1 (2 ^ 31) else s
  if Nat.testBit (s.cfg h fn 67) e.bit then s.cfgOr h fn 22 (2 ^ 18 + ur)
  else if advisory then (s.cfgOr h fn 22 (2 ^ 16 + ur)).cfgOr h fn 68 0x2000
  else s.cfgOr h fn 22 (2 ^ 17 + ur)

/-- The message that a function's settings send for an uncorrectable error: 2 ERR_FATAL where its severity is fatal, 0
ERR_COR where it is advisory, else 1 ERR_NONFATAL; none while the error is masked or its reporting is disabled. -/
def State.aerMsg (s : State) (h fn : Nat) (e : AerErr) (advisory : Bool) : Option Nat :=
  let ctl := s.cfg h fn 22
  let serr := Nat.testBit (s.cfg h fn 1) 8
  if Nat.testBit (s.cfg h fn 66) e.bit then none
  else if Nat.testBit (s.cfg h fn 67) e.bit then (if Nat.testBit ctl 2 || serr then some 2 else none)
  else if advisory then (if Nat.testBit ctl 0 && !Nat.testBit (s.cfg h fn 69) 13 then some 0 else none)
  else if Nat.testBit ctl 1 || serr then some 1 else none

/-- Send an error message; with SERR# Enable, Signaled System Error records one that is not correctable. -/
def State.sendErr (s : State) (h fn k : Nat) : State :=
  (if k ≠ 0 ∧ Nat.testBit (s.cfg h fn 1) 8 then s.cfgOr h fn 1 (2 ^ 30) else s).emit (.errMsg h fn k)

/-- An uncorrectable error of one function: logged, and its message sent (R316). `addr`: the address of the TLP. -/
def State.aer (s : State) (h fn : Nat) (e : AerErr) (advisory : Bool) (addr : Option Nat := none) : State :=
  let m := s.aerMsg h fn e advisory
  let s := s.aerLog h fn e advisory addr
  match m with
  | some k => s.sendErr h fn k
  | none => s

/-- An error that belongs to no function: logged in both; the message comes from the lowest function that reports it
(R316). -/
def State.aerBoth (s : State) (h : Nat) (e : AerErr) (advisory : Bool) : State :=
  let m := fun fn => s.aerMsg h fn e advisory
  let t := (s.aerLog h 0 e advisory none).aerLog h 1 e advisory none
  match m 0, m 1 with
  | some k, _ => t.sendErr h 0 k
  | none, some k => t.sendErr h 1 k
  | none, none => t

/-- A correctable link error, logged in both functions; the message comes from the lowest function that reports it. -/
def State.aerCorr (s : State) (h b : Nat) : State :=
  let s := [0, 1].foldl (fun s fn => (s.cfgOr h fn 68 (2 ^ b)).cfgOr h fn 22 (2 ^ 16)) s
  match [0, 1].find? fun fn => Nat.testBit (s.cfg h fn 22) 0 && !Nat.testBit (s.cfg h fn 69) b with
  | some fn => s.sendErr h fn 0
  | none => s

/-! ### Interrupts (R306 to R309) -/

/-- Send the message of an entry, or hold it as pending (R309): the entry, and the state with what was sent. A function in
reset sends nothing (R313); a message that a link which is down should carry is lost with it (R314). -/
def State.sendEntry (s : State) (h fn : Nat) (table : Bool) (e : IrqEntry) : State × IrqEntry :=
  if e.mask || (table && s.msixMask h fn) || !s.msixEn h fn || !s.bme h fn || s.dstate h fn ≠ 0 || (s.host h).flr.getLsbD fn then
    ((if e.pend then s else s.hostCount h 11), { e with pend := true })
  else if !(s.host h).up then (s, { e with pend := false })
  else ((s.emit (.msi h fn e.addr e.data)).hostCount h 10, { e with pend := false })

/-- Fire entry `i` of PF0's MSI-X table. -/
def State.fireMsix0 (s : State) (h i : Nat) : State :=
  let r := s.sendEntry h 0 true (Tab.get {} (s.host h).msix0 i)
  let l := r.1.host h
  r.1.setHost h { l with msix0 := Tab.put l.msix0 i r.2 }

/-- Fire entry `i` of PF1's MSI-X table. -/
def State.fireMsix1 (s : State) (h i : Nat) : State :=
  let r := s.sendEntry h 1 true (Tab.get {} (s.host h).msix1 i)
  let l := r.1.host h
  r.1.setHost h { l with msix1 := Tab.put l.msix1 i r.2 }

/-- Fire entry `e` of the interrupt message store. -/
def State.fireStore (s : State) (h e : Nat) : State :=
  let r := s.sendEntry h 1 false (Tab.get {} (s.host h).store e)
  let l := r.1.host h
  r.1.setHost h { l with store := Tab.put l.store e r.2 }

/-- Send every held message whose masking conditions have ended (R309). -/
def State.sendPending (s : State) (h : Nat) : State :=
  let l := s.host h
  let s := l.msix0.foldl (fun s e => if e.2.pend then s.fireMsix0 h e.1 else s) s
  let s := l.msix1.foldl (fun s e => if e.2.pend then s.fireMsix1 h e.1 else s) s
  l.store.foldl (fun s e => if e.2.pend then s.fireStore h e.1 else s) s

/-- Assert or deassert INTA as R307 states. -/
def State.updateInta (s : State) (h : Nat) : State :=
  let want := (s.rf (Reg.intCause h) ⟨0, 6⟩ &&& s.rf (Reg.intEn h) intEn_EN) ≠ 0 && !s.msixEn h 0
    && !bit (s.cfg h 0 1) 10 && s.dstate h 0 = 0 && !(s.host h).flr.getLsbD 0
  let l := s.host h
  if want == l.inta then s else
    let s := (s.setHost h { l with inta := want }).emit (.intx h want)
    if want then s.hostCount h 12 else s

/-- Set a cause bit of PF0.INT_CAUSE on one link: a rise while enabled sends MSI-X entry `i` (R306). -/
def State.setCause (s : State) (h i : Nat) : State :=
  let f : Fld := ⟨i, 1⟩
  let old := s.rf (Reg.intCause h) f
  let s := s.setRf (Reg.intCause h) f 1
  let s := if old = 0 ∧ bit (s.rf (Reg.intEn h) intEn_EN) i ∧ s.msixEn h 0 then s.fireMsix0 h i else s
  s.updateInta h

/-- Set a cause on both links. -/
def State.setCauses (s : State) (i : Nat) : State := (s.setCause 0 i).setCause 1 i

/-- PF0.DEV_STATUS of both links changes: a field is written and cause STATUS set (an edge, on any change). -/
def State.setDevStatus (s : State) (f : Fld) (v : Nat) : State :=
  [0, 1].foldl (fun s h =>
    if s.rf (Reg.devStatus h) f = v then s else (s.setRf (Reg.devStatus h) f v).setCause h 1) s

/-- Is any PORT.CNT_HALF bit of any port set (cause COUNTER, R141)? -/
def State.counterHalf (s : State) : Bool :=
  s.regs.any fun e => decide (0x1000000 ≤ e.1 ∧ e.1 < 0x21000000 ∧ 0x2800 ≤ e.1 % 0x1000000 ∧ e.1 % 0x1000000 < 0x2820)
    && decide (e.2 ≠ 0)

/-- Raise notification group `g` (source type 0x6). -/
def State.raiseGroup (s : State) (g : Nat) : State := s.raiseSource 6 g

/-- A host link event: HOST.EVENT bit `b`, and its group while enabled (R315). -/
def State.hostEvent (s : State) (h b : Nat) : State :=
  let s := s.setRf (Reg.hostEvent h) ⟨b, 1⟩ 1
  if s.rf (Reg.hostEventCfg h) hostEventCfg_EN = 1 then s.raiseGroup (s.rf (Reg.hostEventCfg h) hostEventCfg_GROUP) else s

end Sys2Proof.Machine
end

