-- ==== Sys2Proof/Machine/Buffers.lean ====
section
/-! DEFINITION. Sub-ports, their counters and PFC; the buffers' charges and how a frame leaves them (R132, R135, R140,
R141, R144, R196, R205, R361). -/

namespace Sys2Proof.Machine

/-! ### Sub-ports and their counters -/

/-- How many sub-ports the port's mode has (R132). -/
def State.subPorts (s : State) (p : Nat) : Nat := 2 ^ s.rf (Reg.portMode p) portMode_SPLIT

/-- Is the sub-port present in its mode and enabled (R132, R135)? -/
def State.subOn (s : State) (p k : Nat) : Bool :=
  decide (k < s.subPorts p) && bit (s.rf (Reg.portMode p) portMode_SUB_EN) k

/-- Does the sub-port report LINK? -/
def State.linked (s : State) (p k : Nat) : Bool := s.subOn p k && bit (s.rf (Reg.portStatus p) portStatus_LINK) k

/-- Set the HALF bit of port counter `c` of sub-port `k`, with the counter interrupt toward both host links (R141, R306). -/
def State.setHalf (s : State) (p k c : Nat) : State :=
  ((s.setRf (Reg.portCntHalf p k) ⟨c, 1⟩ 1).emit (.counterInt p)).setCauses 2

/-- Add to port counter `c` of sub-port `k`; a change of its bit 39 sets its HALF bit (R140, R141). -/
def State.pCount (s : State) (p k c : Nat) (n : Nat := 1) : State :=
  let old := s.rdN (Reg.portCnt p k c) 2
  let s := s.count (Reg.portCnt p k c) n
  if bit old 39 == bit (s.rdN (Reg.portCnt p k c) 2) 39 then s else s.setHalf p k c

/-- The index of a traffic class of a sub-port, which is also its ingress accounting entry (R196). -/
def classKey (p k tc : Nat) : Nat := 8 * (8 * p + k) + tc

/-- Flow control state of a traffic class. -/
def State.pause (s : State) (e : Nat) : PauseSt := Tab.get {} s.pauses e

/-- Replace the flow control state of a traffic class. -/
def State.setPause (s : State) (e : Nat) (x : PauseSt) : State := { s with pauses := Tab.put s.pauses e x }

/-- `n` pause quanta of the port's sub-port rate, in units of 2^-24 ns (R143). -/
def State.quanta (s : State) (p n : Nat) : Nat := n * 64 * s.subPorts p * nsUnit / 100

/-- Is the traffic class stalled by its watchdog (R146)? -/
def State.stalled (s : State) (p k tc : Nat) : Bool := bit (s.rf (Reg.portPfcStall p k) portPfcStall_STALLED) tc

/-- A sub-port's MAC. -/
def State.mac (s : State) (p k : Nat) : Mac := Tab.get {} s.macs (8 * p + k)

/-- Replace a sub-port's MAC. -/
def State.setMac (s : State) (p k : Nat) (m : Mac) : State := { s with macs := Tab.put s.macs (8 * p + k) m }

/-- Is the sub-port present in its port's mode (R132, R133)? -/
def State.subPresent (s : State) (p k : Nat) : Bool := decide (k < s.subPorts p)

/-- A PFC frame leaves the MAC (R140, R144). -/
def State.emitPfc (s : State) (p k tc time : Nat) : State := (s.emit (.pfc p k tc time)).pCount p k 18

/-- Send a PFC frame for accounting entry `e`, if its class may send PFC and its sub-port has LINK: at once, or at the
frame boundary while the MAC sends a frame (R133, R144, R146). -/
def State.sendPfc (s : State) (e time : Nat) : State :=
  let p := e / 64; let k := e / 8 % 8; let tc := e % 8
  if bit (s.rf (Reg.portSubCfg p k) portSubCfg_PFC_TX) tc && !s.stalled p k tc && s.linked p k then
    let s := s.setPause e { s.pause e with xoff := decide (time ≠ 0), sentAt := s.clock.ict }
    let m := s.mac p k
    if m.tx.isNone then s.emitPfc p k tc time
    else s.setMac p k { m with pfc := (m.pfc.filter fun x => x.1 ≠ tc) ++ [(tc, time)] }
  else s

/-- The PFC frames that wait for a frame boundary are sent, before any data frame (R144). -/
def State.flushPfc (s : State) (p k : Nat) : State :=
  let m := s.mac p k
  m.pfc.foldl (fun s x => s.emitPfc p k x.1 x.2) (s.setMac p k { m with pfc := [] })

/-! ### Charges (R196, R205) -/

/-- The XOFF report of accounting entry `e` is made, or clears with a frame of time zero (R144, R196). -/
def State.iaccReport (s : State) (e : Nat) (on : Bool) : State :=
  let old := s.rf (Reg.iaccUse e) iaccUse_XOFF_STATE
  if old = b2n on then s else (s.setRf (Reg.iaccUse e) iaccUse_XOFF_STATE (b2n on)).sendPfc e (if on then 0xFFFF else 0)

/-- End a charge to ingress accounting (R196): USED falls, and the XOFF report clears below XON. -/
def State.iaccRelease (s : State) (e n : Nat) : State :=
  let used := s.rf (Reg.iaccUse e) iaccUse_USED - n
  let s := s.setRf (Reg.iaccUse e) iaccUse_USED used
  let xon := min (s.rf (Reg.iacc e) iacc_XON) (s.rf (Reg.iacc e) iacc_XOFF)
  if used < xon * 4096 then s.iaccReport e false else s

/-- End the charges of a frame that leaves the buffers. The charge to a mirror session is the sum over the frames that
carry it, so it ends with the frame's own mark. -/
def State.uncharge (s : State) (fid : Nat) : State :=
  let f := s.frame fid
  let s := match f.iacc with
    | some (e, n) => s.iaccRelease e n
    | none => s
  s.modFrame fid fun f => { f with iacc := none, mirror := none }

/-- Remove a frame and its satchel; its bytes stay while a Ferry descriptor names it (R361). -/
def State.removeFrame (s : State) (fid : Nat) : State :=
  let s := s.uncharge fid
  if (s.frame fid).names = 0 then { s with frames := Tab.del s.frames fid }
  else s.modFrame fid fun f => { f with gone := true, owner := none }

/-- A Ferry descriptor that named the frame has ended (R361). -/
def State.unname (s : State) (fid : Nat) : State :=
  let f := s.frame fid
  if f.gone && f.names ≤ 1 then { s with frames := Tab.del s.frames fid }
  else s.modFrame fid fun f => { f with names := f.names - 1 }

/-- The bytes of copies charged to mirror session `m` (R205). -/
def State.mirrorUse (s : State) (m : Nat) : Nat :=
  s.frames.foldl (fun n e => match e.2.mirror with
    | some (m', x) => if m' = m then n + x else n
    | none => n) 0

end Sys2Proof.Machine
end

