-- ==== Sys2Proof/Machine/Lantern.lean ====
section
/-! DEFINITION. The Lantern's time base (R27 to R30), Trailbook (R434 to R437) and fuse operations (R428 to R430). -/

namespace Sys2Proof.Machine

/-- The outcome of a command. -/
abbrev Out := Host.Outcome State Fault Refusal

/-! ### Time base -/

/-- A write of LANTERN.TIME_CTL: SNAP asks for a snapshot and clears SNAP_DONE, STEP asks for a step (R30). -/
def State.timeCtlWrite (s : State) (v : Nat) : State :=
  let s := if bit v 0 then ({ s with clock := { s.clock with snapReq := true } }).setRf Reg.timeCtl timeCtl_SNAP_DONE 0
    else s
  if bit v 1 then { s with clock := { s.clock with stepReq := true } } else s

/-- TIME_ADDEND as stored: clamped to within 500 ppm (R30). -/
def clampAddend (v : Nat) : Nat := min (max v 0x27FAE148) 0x28051EB8

/-- TOD after a signed step of `d` ns: never below zero ns, fraction unchanged (R30). -/
def stepTod (tod : Nat) (d : Int) : Nat :=
  ((tod / nsUnit : Nat) + d).toNat % 2 ^ 64 * nsUnit + tod % nsUnit

/-- One Lantern tick: both scales advance by the addend, then a requested step is applied to TOD, then a requested
snapshot is latched (R27, R30). -/
def State.tick (s : State) : State :=
  if s.boot.phase = .off then s else
    let a := (s.rd Reg.timeAddend).toNat
    let wrap := 2 ^ 64 * nsUnit
    let ict := (s.clock.ict + a) % wrap
    let tod := (s.clock.tod + a) % wrap
    let tod := if s.clock.stepReq then stepTod tod (sgn 64 (s.rdN Reg.timeStep 2)) else tod
    let snap := s.clock.snapReq
    let s := { s with clock := { tod := tod, ict := ict, snapReq := false, stepReq := false } }
    if snap then
      let s := s.setRf Reg.timeSnap timeSnap_FRAC (tod % nsUnit / 256)
      let s := s.setRf Reg.timeSnap timeSnap_TOD_NS (tod / nsUnit)
      let s := s.setRf Reg.timeSnap timeSnap_ICT_NS (ict / nsUnit)
      s.setRf Reg.timeCtl timeCtl_SNAP_DONE 1
    else s

/-! ### Trailbook -/

/-- The number of Trailbook locations. -/
def tbSize : Nat := 32768

/-- Does location `x` lie in the frozen run that begins at `first`? -/
def inFrozenRun (first x : Nat) : Bool := (x + tbSize - first) % tbSize < 4096

/-- The location written after `x`: the next in ascending order outside the frozen run (R436). -/
def nextLoc (frozen : Option Nat) (x : Nat) : Nat :=
  let y := (x + 1) % tbSize
  match frozen with
  | some f => if inFrozenRun f y then (f + 4096) % tbSize else y
  | none => y

/-- The 64 bytes of a record, its CRC last; a torn record's CRC fails (R434). -/
def tbRecBytes (r : TbRec) : List Byte :=
  let body := leBytes 8 r.todNs ++ leBytes 2 r.frac ++ leBytes 2 r.code ++ leBytes 1 r.island ++ leBytes 1 r.flags
    ++ leBytes 2 r.boot ++ leBytes 4 r.index ++ slice r.data 0 40
  body ++ leBytes 4 (if r.torn then 2 ^ 32 - 1 - crc32c body else crc32c body)

/-- The 64 bytes of a location; a location never written reads zero (DESIGN CHOICE). -/
def State.tbLoc (s : State) (x : Nat) : List Byte :=
  match Tab.find s.tb.recs x with
  | some r => tbRecBytes r
  | none => List.replicate 64 0

/-- Frozen records not yet read (TB.FREEZE.UNREAD). -/
def State.tbUnread (s : State) : Nat :=
  match s.tb.frozen with
  | some _ => 4096 - s.tb.read.length
  | none => 0

/-- A read of any byte of location `x` marks a frozen record read (R436). -/
def State.tbMarkRead (s : State) (x : Nat) : State :=
  match s.tb.frozen with
  | some f => if inFrozenRun f x then { s with tb := { s.tb with read := Tab.put s.tb.read x true } } else s
  | none => s

/-- Write the oldest queued record to the next location; a FATAL one freezes its run unless a freeze is in force. -/
def State.tbWrite (s : State) (torn : Bool) : State :=
  match s.tb.queue with
  | [] => s
  | q :: rest =>
    let t := s.tb
    let r : TbRec := ⟨q.tod / nsUnit, q.tod % nsUnit / 256, q.code, q.island, q.flags, t.bootCount % 65536, t.index,
      q.data, torn⟩
    let fatal := bit q.flags 0
    let freeze := fatal && t.frozen.isNone
    let frozen := if freeze then some ((t.loc + tbSize - 4095) % tbSize) else t.frozen
    let read := if freeze then [] else t.read
    let t := { t with recs := Tab.put t.recs t.loc r, queue := rest, index := (t.index + 1) % 2 ^ 32 }
    let s := { s with tb := { t with loc := nextLoc frozen t.loc, frozen := frozen, read := read } }
    if freeze then (s.setDevStatus devStatus_TB_FROZEN 1).setCauses 3
    else if fatal then s.count32 Reg.tbMissed else s

/-- RELEASE of the freeze: taken while UNREAD is 0, with a TB_RELEASED record (R436). -/
def State.tbRelease (s : State) : State :=
  match s.tb.frozen with
  | some f =>
    if s.tbUnread = 0 then
      let s := { s with tb := { s.tb with frozen := none, read := [] } }
      let s := s.record 0x0025 0x00 [(0, 2, f), (4, 4, (s.rd Reg.tbMissed).toNat)]
      (s.setDevStatus devStatus_TB_FROZEN 0).setCauses 3
    else s
  | none => s

/-- The island that a record committed by an initiator names (R434). -/
def Initiator.island : Initiator → Nat
  | .thread n => 0x42 + n / 128
  | .steward _ => 0x52
  | .window h => 0x61 + h
  | .debug => 0x00
  | .hw => 0x00

/-- The 2-byte initiator number of R453. -/
def Initiator.code : Initiator → Nat
  | .thread n => n
  | .steward k => 0x800 + k
  | .window h => 0x900 + h
  | .debug => 0xA00
  | .hw => 0xFFFF

/-- The initiator that a writer operand names. -/
def writerInit : Writer → Initiator
  | .thread n => .thread n.val
  | .steward k => .steward k.val
  | .window h => .window h.val
  | .debug => .debug

/-- A write of TB.FW_CODE: codes from 0x8000 commit a firmware record of the words in TB.FW_DATA (R437). -/
def State.tbFwCode (s : State) (who : Initiator) (code : Nat) (fatal : Bool) : State :=
  if code < 0x8000 then s else
    let data := ((List.range 10).map fun w => leBytes 4 (Tab.get 0 s.tb.fwData w).toNat).flatten
    s.recordFlags code who.island (2 + b2n fatal) data

/-- The word of TB.HEAD, TB.HEAD_LOC or TB.FREEZE as read. -/
def State.tbViewWord (s : State) (off : Nat) : Nat :=
  if off = 0x1000 then s.tb.index
  else if off = 0x1004 then s.tb.loc
  else b2n s.tb.frozen.isSome + 2 * s.tb.frozen.getD 0 + 65536 * s.tbUnread

/-- TRAILBOOK_WRITE: one record in 100 ns at most (R435). -/
def execTrailbookWrite (s : State) : Out :=
  .next (if (s.tb.queue.isEmpty || (match s.tb.wroteAt with
      | some t => !s.elapsed t 100
      | none => false)) then s
    else
      let s := s.tbWrite false
      { s with tb := { s.tb with wroteAt := some s.ictNs } })

/-- TB_TOKEN_REFILL: the bucket takes the tokens of the 1 µs boundaries passed (R435). -/
def execTbTokenRefill (s : State) : Out := .next s.tbRefill

/-- TRAILBOOK_READ of a whole record. -/
def execTrailbookRead (loc : Fin 32768) (s : State) : Out :=
  .next ((s.tbMarkRead loc.val).emit (.readData (s.tbLoc loc.val)))

/-- Does the sideband readout work: in P0 and P1, with the Lantern running (R437)? -/
def State.sideband (s : State) : Bool := decide (s.rf Reg.pwrStatus pwrStatus_CUR < 2) && decide (s.boot.phase ≠ .off)

/-- TB_STATUS: the sideband returns the three TB words (R437). -/
def execTbStatus (s : State) : Out :=
  .next (if !s.sideband then s else s.emit (.sideband (leBytes 4 (s.tbViewWord 0x1000) ++ leBytes 4 (s.tbViewWord 0x1004)
    ++ leBytes 4 (s.tbViewWord 0x1008))))

/-- TB_READ: the sideband returns one to four records; another count returns none (R437). -/
def execTbRead (loc : Fin 32768) (count : Fin 5) (s : State) : Out :=
  let locs := (List.range count.val).map fun i => (loc.val + i) % tbSize
  .next (if !s.sideband then s else (locs.foldl State.tbMarkRead s).emit (.sideband (locs.map s.tbLoc).flatten))

/-- TB_RELEASE: acts as the RELEASE write. -/
def execTbRelease (s : State) : Out := .next (if !s.sideband then s else s.tbRelease)

/-! ### Stile fuses -/

/-- The anti-rollback counter: the set bits of the ROLLBACK fuses (R424), which take effect at once (R429). -/
def State.rollbackCounter (s : State) : Nat :=
  ([2, 3, 4, 5].map fun r => popcount 32 (s.fuseProg r).toNat).foldl (· + ·) 0

/-- The bits of row `r` whose lock bit is set (R428); the lock bits take effect at once. -/
def State.fuseLocked (s : State) (r : Nat) : Nat :=
  let l := (s.fuseProg 0).toNat
  let keys := bit l 8; let vo := bit l 9; let pair := bit l 10; let id := bit l 11
  let all := 2 ^ 32 - 1
  if r = 0 then (if id then 0xC else 0)
  else if r = 1 then (if id then 0xFFFF else 0)
  else if 6 ≤ r ∧ r ≤ 53 then (if keys then all else 0)
  else if 54 ≤ r ∧ r ≤ 61 then (if pair then all else 0)
  else if 62 ≤ r ∧ r ≤ 197 then (if vo then all else 0)
  else if 198 ≤ r ∧ r ≤ 201 then (if id then all else 0)
  else if r = 202 then (if id then 0xFFFF else 0)
  else 0

/-- PAIR_SECRET as loaded (R428): 32 bytes. -/
def State.pairSecret (s : State) : Nat := s.fuseBits 1728 256

/-- A write of FUSE_CMD (R430): ignored while BUSY and for OP 0; else the operation begins, with the code it will end
with unless its read-back fails. -/
def State.fuseCmdWrite (s : State) (op row : Nat) : State :=
  if s.rf Reg.fuseResult fuseResult_BUSY = 1 ∨ op = 0 then s else
    let d := (s.rd Reg.fuseData).toNat
    let code :=
      if op = 1 then
        if 2 ≤ row ∧ row ≤ 5 then 2 else if d &&& s.fuseLocked row ≠ 0 then 1 else 0
      else if op = 2 then
        if d % 256 > s.boot.rollback ∨ d % 256 ≤ s.rollbackCounter ∨ d % 256 > 128 then 2 else 0
      else if s.pairSecret = 0 then 2 else 0
    ({ s with fuseOp := some ⟨op, if op = 1 then row else 0, d, code⟩ }).setRf Reg.fuseResult fuseResult_BUSY 1

/-- OR bits into a row. -/
def State.orFuse (s : State) (r v : Nat) : State :=
  { s with fuses := Tab.set 0 s.fuses r (Tab.get 0 s.fuses r ||| BitVec.ofNat 32 v) }

/-- The ROLLBACK fuses with their first `n` bits set. -/
def State.setRollback (s : State) (n : Nat) : State :=
  [0, 1, 2, 3].foldl (fun s i => s.orFuse (2 + i) ((2 ^ n - 1) / 2 ^ (32 * i) % 2 ^ 32)) s

/-- The effect on the fuses of an operation that ends DONE. -/
def State.fuseApply (s : State) (o : FuseOp) : State :=
  if o.op = 1 then s.orFuse o.row o.data else if o.op = 2 then s.setRollback (o.data % 256) else s

end Sys2Proof.Machine
end

