-- ==== Sys2Proof/Machine/PowerOps.lean ====
section
/-! DEFINITION. Wake events as other blocks raise them (R410, R411), and the power state in force. -/

namespace Sys2Proof.Machine

/-- The current power state, LANTERN.PWR_STATUS.CUR (R403). -/
def State.pstate (s : State) : Nat := s.rf Reg.pwrStatus pwrStatus_CUR

/-- Are the clocks of every island but the Lantern, the port receive paths and the host islands stopped: in P2 and P3, and
without power (R403, R405)? -/
def State.stopped (s : State) : Bool := decide (s.boot.phase = .off) || decide (2 ≤ s.pstate)

/-- Has an entry to P2 or deeper passed its step 2, 10 µs after its start: every core is halted, and no Ferry beat, CIPH job
or job command starts (R417)? -/
def State.halting (s : State) : Bool :=
  match s.power.trans with
  | some t => t.entry && decide (2 ≤ t.target) && s.elapsed t.since 10000
  | none => false

/-- Is the block in power state `x`, 2 or 3, or on its way there? Sources are armed from the first step of the entry. -/
def State.entering (s : State) (x : Nat) : Bool :=
  s.pstate = x || (match s.power.trans with
    | some t => t.entry && t.target = x
    | none => false)

/-- Begin the exit from P2 or P3: BUSY, sources disarmed; from P3, WAKE_N is driven low unless the cause is a host
link (R412, R417). -/
def State.startExit (s : State) : State :=
  let w := s.power.firstWake
  let s := if s.pstate = 3 ∧ w ≠ 3 ∧ w ≠ 4 ∧ w ≠ 8 then { s with pins := { s.pins with wakeLow := true } } else s
  let resume := s.rf Reg.pwrStatus pwrStatus_RESUME
  let who := s.power.inState.getD 0
  let s := { s with power := { s.power with armed := false, trans := some ⟨false, resume, who, true, s.ictNs⟩ } }
  (s.setRf Reg.pwrStatus pwrStatus_BUSY 1).setRf Reg.pwrStatus pwrStatus_LAST_WAKE w

/-- Is wake source `code` armed: between the first step of an entry and that of its exit, with its WAKE_EN bit; ALARM
and HOST_BUSY always (R410)? -/
def State.wakeArmed (s : State) (code : Nat) : Bool :=
  s.power.armed && (7 ≤ code || bit (s.rd Reg.wakeEn).toNat (code - 1))

/-- Latch a wake: EVENTS, for the first port wake its place, the first wake's code; in P2 or P3 the exit starts, during
an entry the wake is held for replay (R411); during an exit the event is latched and changes nothing further (R419). -/
def State.latchWake (s : State) (code port sub pat : Nat) : State :=
  let exiting := match s.power.trans with
    | some t => !t.entry
    | none => false
  if code = 0 then s else
  if !(s.wakeArmed code || (exiting && bit (s.rd Reg.wakeEn).toNat (code - 1))) then s else
    let first := decide (s.power.firstWake = 0)
    let noPort := s.rf Reg.wakeLatch wakeLatch_EVENTS % 4 = 0
    let s := s.setRf Reg.wakeLatch ⟨code - 1, 1⟩ 1
    let s := if (code = 1 ∨ code = 2) ∧ noPort then
        ((s.setRf Reg.wakeLatch wakeLatch_PORT port).setRf Reg.wakeLatch wakeLatch_SUBPORT sub).setRf Reg.wakeLatch
          wakeLatch_PATTERN pat
      else s
    if exiting then s else
      let s := if first then { s with power := { s.power with firstWake := code } } else s
      match s.power.trans with
      | some t => { s with power := { s.power with trans := some { t with woken := true } } }
      | none => if s.pstate = 2 ∨ s.pstate = 3 then s.startExit else s

/-- Is port `p` named in WAKE_PORTS (R412)? -/
def State.wakePort (s : State) (p : Nat) : Bool := bit (s.rd Reg.wakePorts).toNat p

end Sys2Proof.Machine
end

