-- ==== Sys2Proof/Machine/Gate.lean ====
section
/-! DEFINITION. What stands between an initiator and a register: clocks that are stopped, supplies that are off, the
secure half, the control window's pages (R19 to R26, R303); the rows of the Lantern's registers. -/

namespace Sys2Proof.Machine

/-! ### Islands with a stopped clock (R23, R25, R406) -/

/-- Does a cluster's every non-parked thread wait or stand faulted? -/
def State.clusterIdle (s : State) (k : Nat) : Bool :=
  (List.range 128).all fun i =>
    let n := 128 * k + i
    (s.entryOf n).parked || (match (s.thr n).run with
      | .waiting _ _ => true
      | .faulted => true
      | _ => false)

/-- Does an island of the pipeline, cluster, cipher or ingest kinds hold no work and no transfer in a crossing? -/
def State.islandIdle (s : State) (i : Nat) : Bool :=
  if 0x21 ≤ i ∧ i ≤ 0x40 then
    let p := i - 0x21
    [2 * p, 2 * p + 1].all fun key =>
      let l := Tab.get {} s.lanes key
      l.arrivals.isEmpty && l.returning.isEmpty && l.recirc.isEmpty && l.passes.isEmpty
        && (key < 32 || s.outQs.all fun e => e.1 / 8192 ≠ key - 32 || (e.2.chip.isEmpty && e.2.cool.isEmpty))
  else if 0x42 ≤ i ∧ i ≤ 0x51 then
    let k := i - 0x42
    s.clusterIdle k && (Tab.get [] s.stsIn k).isEmpty && (Tab.get [] s.stsOut k).isEmpty
      && !(s.signals.any fun m => m.dst / 128 = k)
  else if 0x53 ≤ i ∧ i ≤ 0x5A then
    let c := i - 0x53
    (Tab.get [] s.ciphIn c).isEmpty && (Tab.get [] s.ciphOut c).isEmpty && s.ciphJobs.all fun j => j.isl ≠ c
  else if i = 0x5B ∨ i = 0x5C then
    (Tab.get [] s.ingIn (i - 0x5B)).isEmpty && s.jobs.all fun e => e.2.eng / 4 ≠ i - 0x5B
  else false

/-- Is an island's clock stopped: gated, with no work that has started it again (R23, R25)? -/
def State.gatedNow (s : State) (i : Nat) : Bool := decide ((s.island i).power = .gated) && s.islandIdle i

/-- Does a control access wait at the island: its clock is stopped, or earlier accesses wait there and keep their
order (R21, R23, R25)? -/
def State.holds (s : State) (i : Nat) : Bool :=
  s.gatedNow i || s.gated.any fun x => x.addr / 0x1000000 = i

/-- Does an island accept frames: its supply is on and its time follower aligned (R29)? -/
def State.accepts (s : State) (i : Nat) : Bool := decide ((s.island i).power ≠ .off) && (s.island i).aligned

/-- FOLLOWER_REALIGNED: the follower of a released island is aligned, and the island accepts frames (R29). An island
that is off, or whose clock is stopped, has not been released. -/
def execFollowerRealigned (i : Fin 256) (s : State) : Out :=
  .next (if (s.island i.val).power = .off || s.gatedNow i.val then s else s.setIsland i.val { s.island i.val with power := .on, aligned := true })

/-- Does a crossing hold a transfer: a control access, a signal, an operation of a thread, a mailbox word on its way,
a frame between a port, a pipeline, a cipher island, a session unit and an ingest island, a Ferry beat (R25, R26)? -/
def State.crossing (s : State) : Bool :=
  !s.gated.isEmpty || !s.signals.isEmpty
    || (s.threads.any fun e => !e.2.ops.isEmpty) || (s.stewards.any fun e => !e.2.t.ops.isEmpty)
    || (s.mboxes.any fun e => (e.2.ab ++ e.2.ba).any fun w => !w.seen)
    || (s.lanes.any fun e => !e.2.arrivals.isEmpty || !e.2.returning.isEmpty)
    || (s.ciphIn.any fun e => !e.2.isEmpty) || (s.ciphOut.any fun e => !e.2.isEmpty)
    || (s.stsIn.any fun e => !e.2.isEmpty) || (s.stsOut.any fun e => !e.2.isEmpty)
    || (s.ingIn.any fun e => !e.2.isEmpty) || (s.ferry.any fun e => e.2.issued.isSome)

/-- Does the crossing between port `p` and its pipeline, or a Hamper island and the rest, hold a transfer (R26)? -/
def State.islandCrossing (s : State) (i : Nat) : Bool :=
  (s.gated.any fun x => x.addr / 0x1000000 = i)
    || (decide (1 ≤ i ∧ i ≤ 0x20) && s.lanes.any fun e => e.2.arrivals.any fun fid =>
      (s.frame fid).gf sfSrc < 0x100 && (s.frame fid).gf sfSrc / 8 = i - 1)
    || (decide (0x63 ≤ i ∧ i ≤ 0x68) && (let l : HLink := Tab.get {} s.hlinks (i - 0x63)
      !l.rx.isEmpty || l.vcs.any fun e => !e.2.txq.isEmpty))

/-! ### Initiators (R19, R20, R303, R428) -/

/-- The number of R87 of a thread or steward. -/
def Initiator.num : Initiator → Option Nat
  | .thread n => some n
  | .steward k => some (2048 + k)
  | _ => none

/-- May the initiator reach the secure half? -/
def Initiator.secure : Initiator → Bool
  | .steward k => k < 2
  | .hw => true
  | _ => false

/-- May the initiator reach the secure half: St0, St1, and the debug port while DEBUG_LOCK is 0 (R19, R428)? -/
def State.secureOk (s : State) (who : Initiator) : Bool := who.secure || (decide (who = .debug) && s.fuseBits 0 2 = 0)

/-- An access to a secure half by an initiator other than St0 and St1: refused with a CTL_SECURE_DENIED record (R19). -/
def State.secureDenied (s : State) (who : Initiator) (a : Nat) : State :=
  s.record 0x0040 (a / 0x1000000) [(0, 2, who.code), (4, 4, a)]

/-- May the thread issue at all (R108 to R110, R403, R417)? -/
def State.threadReady (s : State) (n : Nat) : Bool :=
  decide (s.boot.phase = .running) && decide (s.pstate < 2) && !s.halting && decide ((s.thr n).run = .ready)
    && (2048 ≤ n || ((s.cluster (n / 128)).released && !(s.cluster (n / 128)).halted && !(s.entryOf n).parked))

/-- The control address that offset `o` of the control window maps (R303); none for pages that read zero. -/
def windowAddr (o : Nat) : Option Nat :=
  let p := o / 0x10000
  let r := o % 0x10000
  if p < 64 then some (ctlAddr (1 + p) r)
  else if p < 68 then some (ctlAddr 0x41 (0x20000 + 0x10000 * (p - 64) + r))
  else if p < 84 then some (ctlAddr (0x42 + (p - 68)) r)
  else if p = 84 then some (ctlAddr 0 r)
  else if p < 93 then some (ctlAddr (0x53 + (p - 85)) r)
  else if p < 95 then some (ctlAddr (0x5B + (p - 93)) (0x20000 + r))
  else if p < 101 then some (ctlAddr (0x63 + (p - 95)) r)
  else if p < 103 then some (ctlAddr (0x61 + (p - 101)) r)
  else none

/-- Does a page of link `h`'s control window map the control address, and may the host write that page (R303)? -/
def State.windowWrites (s : State) (h a : Nat) : Bool :=
  (List.range 103).any fun p => windowAddr (0x10000 * p + a % 0x10000) = some a && bit (s.rdN (Reg.winWriteEn h) 4) p

/-- Can an initiator write at all: a thread or steward that issues, the host a page that it may write, the debug port
while DEBUG_LOCK is below 2 (R303, R428)? -/
def State.canWrite (s : State) (who : Initiator) (a : Nat) : Bool :=
  decide (s.boot.phase ≠ .off) && (match who with
    | .thread n => s.threadReady n
    | .steward k => s.threadReady (2048 + k)
    | .window h => s.windowWrites h a
    | .debug => decide (s.fuseBits 0 2 < 2)
    | .hw => true)

/-- Does control space deny the access: a worker thread without the CTL grant, an unassigned island, a misaligned
address (R18 to R20)? -/
def State.ctlDenied (s : State) (who : Initiator) (a size : Nat) : Bool :=
  (match who with
    | .thread n => !(s.entryOf n).ctl
    | _ => false) || !islandAssigned (a / 0x1000000) || decide (a % size ≠ 0)

/-- A denied access raises the control-access exception at the thread or steward that issued it. -/
def State.denyWrite (s : State) (who : Initiator) (a : Nat) : State :=
  match who.num with
  | some n => s.takeException n excCtlAccess (s.thr n).pc a
  | none => s

/-- An access to an island that is off: a CTL_ISLAND_OFF record (R23). -/
def State.offRecord (s : State) (who : Initiator) (a : Nat) (write : Bool) : State :=
  s.record 0x0041 (a / 0x1000000) [(0, 2, who.code), (2, 1, b2n write), (4, 4, a)]

/-- A write of `v` reaches its island: discarded at one that is off, held where accesses wait, else `f` performs it. A
write of 16 bytes is held as its two pairs (R23). -/
def State.reach (s : State) (who : Initiator) (a size v : Nat) (f : State → State) : State :=
  let i := a / 0x1000000
  if (s.island i).power = .off then s.offRecord who a true
  else if s.holds i then
    { s with gated := s.gated ++ (if size = 16 then [⟨who, 0, a, 8, some (v % 2 ^ 64)⟩, ⟨who, 0, a + 8, 8, some (v / 2 ^ 64)⟩]
      else [⟨who, 0, a, size, some v⟩]) }
  else f s

/-- A row by which an initiator writes `size` bytes of control space at `a`: `f` is the write itself (R18 to R23). -/
def State.writeBy (s : State) (who : Initiator) (a size v : Nat) (f : State → State) : State :=
  if !s.canWrite who a then s
  else if s.ctlDenied who a size then s.denyWrite who a
  else if 0x800000 ≤ a % 0x1000000 ∧ !s.secureOk who then (s.secureDenied who a).denyWrite who a
  else s.reach who a size v f

/-- Forget the held words of a group. -/
def State.dropHeld (s : State) (a : Nat) : Nat → State
  | 0 => s
  | n + 1 => ({ s with held := Tab.del s.held a }).dropHeld (a + 4) n

/-- A row that writes a register and names no initiator: the write meets the island's supply and clock, and replaces
words held for its group (R18, R23). -/
def State.rowWrite (s : State) (a size v : Nat) (f : State → State) : State :=
  if s.boot.phase = .off then s else s.reach .hw a size v fun s => f (s.dropHeld a (size / 4))

/-! ### Rows of the Lantern's registers (R30, R436, R437) -/

/-- SNAP: a write of 1 to TIME_CTL.SNAP. -/
def execTimeSnap (s : State) : Out := .next (s.rowWrite Reg.timeCtl 4 1 fun s => s.timeCtlWrite 1)
/-- STEP: a write of 1 to TIME_CTL.STEP. -/
def execTimeStep (s : State) : Out := .next (s.rowWrite Reg.timeCtl 4 2 fun s => s.timeCtlWrite 2)

/-- TB_FREEZE_RELEASE. -/
def execTbFreezeRelease (s : State) : Out := .next (s.rowWrite Reg.tbFreeze 4 (2 ^ 29) State.tbRelease)

/-- TB_FW_CODE. -/
def execTbFwCode (who : Writer) (code : BitVec 16) (fatal : Bool) (s : State) : Out :=
  let x := writerInit who
  .next (s.writeBy x Reg.tbFwCode 4 (code.toNat + 65536 * b2n fatal) fun s => s.tbFwCode x code.toNat fatal)

end Sys2Proof.Machine
end

