-- ==== Sys2Proof/Machine/Mailbox.lean ====
section
/-! DEFINITION. The mailboxes (R368 to R373) and the access checks that the host's register areas share (R305, R313,
R316, R317). -/

namespace Sys2Proof.Machine

/-- A mailbox channel. -/
def State.mbox (s : State) (c : Nat) : Mbox := Tab.get {} s.mboxes c
/-- Replace a mailbox channel. -/
def State.setMbox (s : State) (c : Nat) (b : Mbox) : State := { s with mboxes := Tab.set {} s.mboxes c b }

/-- The end at which an agent stands in a channel: true for A, false for B, none where it may not use it (R89, R368). -/
def State.mbEnd (s : State) (n c : Nat) : Option Bool :=
  if n < 2048 then (if 32 ≤ c ∧ c < 64 ∧ (s.entryOf n).mbox then some false else none)
  else if 64 ≤ c then none
  else if 16 ≤ c then some true
  else if 2050 ≤ n then none
  else some (s.fuseBits (32 + c) 1 == n - 2048)

/-- Set the bit bound to a source at every thread and steward that stands at one end of the channel. -/
def State.raiseEnd (s : State) (type c : Nat) (a : Bool) : State :=
  let go := fun (s : State) (n : Nat) =>
    let m := bindMask (s.bindsOf n) type c
    if m ≠ 0 ∧ s.mbEnd n c = some a then s.setEv n m else s
  [2048, 2049, 2050, 2051].foldl go (s.entries.foldl (fun s e => go s e.1) s)

/-- Does a link's mailbox condition hold for channel 16 + i (R371, R372)? -/
def State.mbCond (s : State) (h i : Nat) : Bool :=
  let en := Tab.get 0 s.mbIntEn (h * 16 + i)
  let b := s.mbox (16 + i)
  (bit en 0 && b.ab.any fun w => w.seen) || (bit en 1 && b.drained)

/-- Cause MBOX of each link is set while any of its conditions holds (R306, R372). -/
def State.mbCheck (s : State) : State :=
  [0, 1].foldl (fun s h => if (List.range 16).any (s.mbCond h) then s.setCause h 0 else s) s

/-- A word appended to the outbound queue of an end; none where it is rejected (R369). -/
def Mbox.post (b : Mbox) (a : Bool) (w : Nat) (fin : Bool) : Option Mbox :=
  let q := if a then b.ab else b.ba
  let n := if a then b.openA else b.openB
  if 16 ≤ q.length ∨ 16 ≤ n then none else
    let q := q ++ [MbWord.mk (w % 2 ^ 32) fin false]
    let n := if fin then 0 else n + 1
    some (if a then { b with ab := q, openA := n, emptyA := false } else { b with ba := q, openB := n, emptyB := false })

/-- The next word that an end sees, and the channel without it: emptying a queue starts the drained-empty source of the
other end, and TAKE of the last word from B to A sets DRAINED (R370, R371). -/
def Mbox.take (b : Mbox) (a : Bool) : Option (MbWord × Mbox) :=
  match (if a then b.ba else b.ab) with
  | [] => none
  | w :: r =>
    if !w.seen then none
    else if a then some (w, { b with ba := r, emptyB := b.emptyB || r.isEmpty, drained := b.drained || r.isEmpty })
    else some (w, { b with ab := r, emptyA := b.emptyA || r.isEmpty })

/-- A word posted by firmware or the host at an end: none where it is rejected. -/
def State.mbPost (s : State) (c : Nat) (a : Bool) (w : Nat) (fin : Bool) : Option State :=
  match (s.mbox c).post a w fin with
  | none => none
  | some b => some (s.setMbox c b)

/-- The responses that firmware holds for a channel follow into its queue as room appears (R348). -/
def State.postReplies : Nat → Nat → State → State
  | 0, _, s => s
  | fuel + 1, c, s =>
    match s.replies.find? fun r => r.1 = c with
    | none => s
    | some r =>
      match s.mbPost c true r.2.1 r.2.2 with
      | none => s
      | some s => postReplies fuel c { s with replies := s.replies.erase r }

/-- A response on a mailbox channel: its words, the last of which closes it. -/
def State.respond (s : State) (c : Nat) (ws : List Nat) : State :=
  let rs := (List.range ws.length).map fun i => (c, ws.getD i 0, decide (i + 1 = ws.length))
  State.postReplies 16 c { s with replies := s.replies ++ rs }

/-- A word taken at an end, with the drained-empty event of the other end. -/
def State.mbTake (s : State) (c : Nat) (a : Bool) : Option (MbWord × State) :=
  match (s.mbox c).take a with
  | none => none
  | some (w, b) =>
    let s := s.setMbox c b
    let s := if (if a then b.ba else b.ab).isEmpty then s.raiseEnd 3 c (!a) else s
    some (w, if 16 ≤ c ∧ c < 32 then (State.postReplies 16 c s).mbCheck else s)

/-- The OPs that the base firmware serves (R348, R427). -/
def hostOps : List Nat := [0x01, 0x10, 0x11, 0x12, 0x13, 0x14, 0x15, 0x20, 0x21, 0x22, 0x23, 0x24, 0x25, 0x26, 0x30, 0x31, 0x40, 0x41, 0x42]

/-- While READY is 1, firmware takes each message at the front of host channel 16 + ch whose OP it does not know, and
answers BAD_OP (R350). A message with a known OP stays for its command. -/
def State.answerUnknown : Nat → Nat → State → State
  | 0, _, s => s
  | fuel + 1, ch, s =>
    let b := s.mbox (16 + ch)
    match firstIdx (fun w : MbWord => w.fin) b.ba with
    | none => s
    | some i =>
      let m := b.ba.take (i + 1)
      let w := match m with
        | x :: _ => x.word
        | [] => 0
      if hostOps.contains (w % 256) || !m.all (fun x => x.seen) || s.stopped || s.rf (Reg.devStatus (ch / 8)) devStatus_READY = 0 then s
      else
        let r := b.ba.drop (i + 1)
        let s := s.setMbox (16 + ch) { b with ba := r, emptyB := b.emptyB || r.isEmpty, drained := b.drained || r.isEmpty }
        answerUnknown fuel ch ((s.respond (16 + ch) [w % 65536 + 65536]).mbCheck)

/-- The oldest word not yet visible at the far end becomes visible (R369, R370). -/
def State.mbDeliver (s : State) (c : Nat) (toB : Bool) : State :=
  let b := s.mbox c
  let q := if toB then b.ab else b.ba
  match firstIdx (fun w : MbWord => !w.seen) q with
  | none => s
  | some i =>
    let q := q.take i ++ (q.drop i).take 1 |>.map fun w => { w with seen := true }
    let rest := (if toB then b.ab else b.ba).drop (i + 1)
    let s := s.setMbox c (if toB then { b with ab := q ++ rest } else { b with ba := q ++ rest })
    let s := (s.raiseEnd 2 c (!toB)).mbCheck
    if !toB ∧ 16 ≤ c ∧ c < 32 then State.answerUnknown 16 (c - 16) s else s

/-- MB.CH_FLUSH (R373). -/
def State.mbFlush (s : State) (c : Nat) : State :=
  let s := s.setMbox c { emptyA := true, emptyB := true }
  (s.raiseEnd 3 c true).raiseEnd 3 c false

/-- A function-level reset of PF0 (R372): the link's MB.INT_EN, the host's status bits and the open message of each
host channel. -/
def State.mbFlr (s : State) (h : Nat) : State :=
  (List.range 16).foldl (fun s i =>
    let b := s.mbox (16 + i)
    let ba := (b.ba.reverse.dropWhile fun w => !w.fin).reverse
    let s := s.setMbox (16 + i) { b with ba := ba, openB := 0, overrun := false, underflow := false, drained := false }
    { s with mbIntEn := Tab.set 0 s.mbIntEn (h * 16 + i) 0 }) s

/-! ### Accesses by the host (R305, R313, R316) -/

/-- Does a memory access of link `h` reach a function's BAR? Where it does not: nothing while the link is down; during
a function-level reset a write is discarded and a read completed with UR, nothing logged; in D3hot, and without Memory
Space Enable, an Unsupported Request. -/
def State.barGate (s : State) (h fn : Nat) (write : Bool) : Option State :=
  if !(s.host h).up then some s
  else if (s.host h).flr.getLsbD fn then some (if write then s else s.emit (.completion h 1 []))
  else if !s.mse h fn || s.dstate h fn ≠ 0 then
    some (if write then s.aer h fn .unsupported false else (s.emit (.completion h 1 [])).aer h fn .unsupported true)
  else none

/-- A bad BAR access (R305). -/
def State.barBad (s : State) (h fn : Nat) (write : Bool) : State :=
  let s := (s.hostCount h 8).cfgOr h fn 1 (2 ^ 27)
  if write then s.aer h fn .completerAbort false else (s.emit (.completion h 4 [])).aer h fn .completerAbort true

/-- A host word to channel 16 + i: appended, or rejected with OVERRUN, MBOX_OVERRUN and Completer Abort with the header
of the write, whose address in BAR0 is logged (R317). -/
def State.mbHostWrite (s : State) (h i w : Nat) (fin : Bool) : State :=
  match s.mbPost (16 + i) false w fin with
  | some s => s.mbCheck
  | none =>
    let s := s.setMbox (16 + i) { s.mbox (16 + i) with overrun := true }
    let bar := s.cfg h 0 4 / 16 * 16 + 2 ^ 32 * s.cfg h 0 5
    let a := bar + 0x10000 + 0x1000 * i + (if fin then 4 else 0)
    ((s.hostCount h 9).cfgOr h 0 1 (2 ^ 27)).aer h 0 .completerAbort false (some a)

/-- A host read of MB.RX_DATA: the word and the state; an empty queue reads 0 and sets UNDERFLOW. -/
def State.mbHostRead (s : State) (i : Nat) : State × Nat :=
  match s.mbTake (16 + i) false with
  | some (w, s) => (s, w.word)
  | none => (s.setMbox (16 + i) { s.mbox (16 + i) with underflow := true }, 0)

/-- MB.STATUS as read (R371). -/
def State.mbStatus (s : State) (i : Nat) : Nat :=
  let b := s.mbox (16 + i)
  let vis := b.ab.filter fun w => w.seen
  let fin := match vis with
    | w :: _ => w.fin
    | [] => false
  vis.length + 32 * b2n fin + 64 * (16 - b.ba.length) + 2048 * b2n b.overrun + 4096 * b2n b.underflow + 8192 * b2n b.drained

/-- A host read of a mailbox register at offset `o` of channel 16 + i. -/
def State.mbRegRead (s : State) (h i o : Nat) : State × Nat :=
  if o = 8 then s.mbHostRead i
  else if o = 12 then (s, s.mbStatus i)
  else if o = 16 then (s, Tab.get 0 s.mbIntEn (h * 16 + i))
  else (s, 0)

/-- A host write of a mailbox register. -/
def State.mbRegWrite (s : State) (h i o v : Nat) : State :=
  if o = 0 then s.mbHostWrite h i v false
  else if o = 4 then s.mbHostWrite h i v true
  else if o = 12 then
    let b := s.mbox (16 + i)
    (s.setMbox (16 + i) { b with overrun := b.overrun && !bit v 11, underflow := b.underflow && !bit v 12, drained := b.drained && !bit v 13 }).mbCheck
  else if o = 16 then ({ s with mbIntEn := Tab.set 0 s.mbIntEn (h * 16 + i) (v % 4) }).mbCheck
  else s

/-- A word written to a host register of a mailbox channel, past the checks of the BAR. -/
def State.mbHostPost (s : State) (h i w : Nat) (fin : Bool) : State :=
  match s.barGate h 0 true with
  | some s => s
  | none => s.mbHostWrite h i w fin

/-- TRANSMIT_DATA: a host write of MB.TX_DATA. -/
def execTransmitData (h : Fin 2) (ch : Fin 16) (w : W32) (s : State) : Out :=
  .next (s.mbHostPost h.val ch.val w.toNat false)

/-- TX_END: a host write of MB.TX_END. -/
def execTxEnd (h : Fin 2) (ch : Fin 16) (w : W32) (s : State) : Out :=
  .next (s.mbHostPost h.val ch.val w.toNat true)

/-- RX_DATA: a host read of MB.RX_DATA. -/
def execRxData (h : Fin 2) (ch : Fin 16) (s : State) : Out :=
  .next (match s.barGate h.val 0 false with
    | some s => s
    | none =>
      let r := s.mbHostRead ch.val
      r.1.emit (.completion h.val 0 (leBytes 4 r.2)))

/-- MAILBOX_DELIVER: a posted word becomes visible at the far end. -/
def execMailboxDeliver (ch : Fin 64) (toB : Bool) (s : State) : Out :=
  if s.stopped then .next s else
  .next (s.mbDeliver ch.val toB)

end Sys2Proof.Machine
end

