-- ==== Sys2Proof/Machine/Seg.lean ====
section
/-! DEFINITION. Checksum and segmentation offload: SEG at arrival and departure (R345) and TSO (R337). -/

namespace Sys2Proof.Machine

/-- What SEG finds at OFF_L3: version, whether the IP header is inconsistent, the header's bytes (IPv4), the end of the
IP payload, the upper-layer protocol with its offset where it is not a fragment, and the pseudo-header addresses. -/
structure IpInfo where
  ver : Nat
  bad : Bool
  hlen : Nat
  fin : Nat
  proto : Option (Nat × Nat)
  addrs : List Byte
deriving DecidableEq, Repr

/-- A big-endian 16-bit field. -/
def be16At (d : List Byte) (o : Nat) : Nat := beNat (slice d o 2)
/-- A byte as a number. -/
def byteAt (d : List Byte) (o : Nat) : Nat := (d.getD o 0).toNat

/-- The chain of IPv6 headers from one of type `nh` at `o`, up to `fin` (R345). -/
def v6Walk : Nat → List Byte → Nat → Nat → Nat → Option (Nat × Nat)
  | 0, _, _, _, _ => none
  | fuel + 1, d, nh, o, fin =>
    if nh = 0 ∨ nh = 43 ∨ nh = 60 then
      if fin < o + 8 then none else v6Walk fuel d (byteAt d o) (o + 8 * (byteAt d (o + 1) + 1)) fin
    else if nh = 44 then
      if fin < o + 8 ∨ be16At d (o + 2) / 8 ≠ 0 ∨ be16At d (o + 2) % 2 = 1 then none
      else v6Walk fuel d (byteAt d o) (o + 8) fin
    else some (nh, o)

/-- The IP header at offset `l3` of a frame; none where there is none. -/
def ipInfo (d : List Byte) (l3 : Nat) : Option IpInfo :=
  if l3 = 0xFF ∨ d.length ≤ l3 then none else
    let v := byteAt d l3 / 16
    if v = 4 then
      let ihl := 4 * (byteAt d l3 % 16)
      let total := be16At d (l3 + 2)
      let frag := be16At d (l3 + 6) % 2 ^ 14 % 2 ^ 13 ≠ 0 ∨ be16At d (l3 + 6) / 2 ^ 13 % 2 = 1
      some ⟨4, decide (ihl < 20 ∨ total < ihl ∨ d.length < l3 + total ∨ d.length < l3 + 20), ihl, l3 + total,
        if frag then none else some (byteAt d (l3 + 9), l3 + ihl), slice d (l3 + 12) 8⟩
    else if v = 6 then
      let fin := l3 + 40 + be16At d (l3 + 4)
      some ⟨6, decide (d.length < fin ∨ d.length < l3 + 40), 40, fin, v6Walk 64 d (byteAt d (l3 + 6)) (l3 + 40) fin,
        slice d (l3 + 8) 32⟩
    else none

/-- Is the protocol found TCP (6) or UDP (17), beginning exactly at OFF_L4? -/
def IpInfo.l4 (i : IpInfo) (l4 : Nat) : Option Nat :=
  match i.proto with
  | some (p, o) => if l4 ≠ 0xFF ∧ o = l4 ∧ (p = 6 ∨ p = 17) then some p else none
  | none => none

/-- Does the TCP or UDP header fit within the IP payload? -/
def IpInfo.fits (i : IpInfo) (d : List Byte) (p l4 : Nat) : Bool :=
  if p = 17 then decide (l4 + 8 ≤ i.fin)
  else decide (l4 + 20 ≤ i.fin ∧ 5 ≤ byteAt d (l4 + 12) / 16 ∧ l4 + 4 * (byteAt d (l4 + 12) / 16) ≤ i.fin)

/-- The pseudo-header. -/
def IpInfo.pseudo (i : IpInfo) (p l4 : Nat) : List Byte :=
  let n := i.fin - l4
  if i.ver = 4 then i.addrs ++ [0, BitVec.ofNat 8 p] ++ beBytes 2 n else i.addrs ++ beBytes 4 n ++ [0, 0, 0, BitVec.ofNat 8 p]

/-- Where the checksum of a protocol stands in its header. -/
def l4SumAt (p : Nat) : Nat := if p = 17 then 6 else 16

/-- The results of SEG at arrival: L3, L4, each 0 not checked, 1 good, 2 bad. -/
def segCheck (d : List Byte) (l3 l4 : Nat) : Nat × Nat :=
  match ipInfo d l3 with
  | none => (0, 0)
  | some i =>
    let r3 := if i.ver = 6 then 0 else if i.bad ∨ onesSum (slice d l3 i.hlen) ≠ 65535 then 2 else 1
    let r4 := match i.l4 l4 with
      | none => 0
      | some p =>
        if i.bad then 2
        else if !i.fits d p l4 then 2
        else if p = 17 ∧ i.ver = 4 ∧ be16At d (l4 + 6) = 0 then 0
        else if onesSum (i.pseudo p l4 ++ slice d l4 (i.fin - l4)) = 65535 then 1 else 2
    (r3, r4)

/-- SEG at departure: the frame with its checksums inserted, or none where it raises SEG_INVALID. -/
def segInsert (d : List Byte) (l3 l4 : Nat) : Option (List Byte) :=
  match ipInfo d l3 with
  | none => some d
  | some i =>
    if i.bad then none else
      let p := i.l4 l4
      let misfit := match p with
        | some p => !i.fits d p l4
        | none => false
      if misfit then none else
        let d := if i.ver = 4 then
            let z := splice d (l3 + 10) [0, 0]
            splice z (l3 + 10) (beBytes 2 (inetSum (slice z l3 i.hlen)))
          else d
        match p with
        | none => some d
        | some p =>
          let z := splice d (l4 + l4SumAt p) [0, 0]
          let c := inetSum (i.pseudo p l4 ++ slice z l4 (i.fin - l4))
          some (splice z (l4 + l4SumAt p) (beBytes 2 (if p = 17 ∧ c = 0 then 65535 else c)))

/-- The payload of a TSO chain in pieces of at most `mss` bytes; at least one piece. -/
def tsoPieces : Nat → List Byte → Nat → List (List Byte)
  | 0, _, _ => []
  | fuel + 1, bs, mss => if bs.length ≤ mss then [bs] else bs.take mss :: tsoPieces fuel (bs.drop mss) mss

/-- One TSO segment: piece `n` (the first is 0) after `before` payload bytes, `last` where it is the last. -/
def tsoSegment (hdr piece : List Byte) (i : IpInfo) (l3 l4 n before : Nat) (last : Bool) : List Byte :=
  let d := hdr ++ piece
  let d := if i.ver = 4 then
      splice (splice d (l3 + 2) (beBytes 2 (d.length - l3))) (l3 + 4) (beBytes 2 ((be16At hdr (l3 + 4) + n) % 65536))
    else splice d (l3 + 4) (beBytes 2 (d.length - l3 - 40))
  let d := splice d (l4 + 4) (beBytes 4 ((beNat (slice hdr (l4 + 4) 4) + before) % 2 ^ 32))
  let f := byteAt hdr (l4 + 13)
  let f := if last then f else f &&& 0xF6
  let f := if n = 0 then f else f &&& 0x7F
  splice d (l4 + 13) [BitVec.ofNat 8 f]

/-- The segments of a TSO chain (R337); none where the request is SEG_INVALID. -/
def tsoCut (d : List Byte) (l3 l4 mss : Nat) : Option (List (List Byte)) :=
  if mss < 64 ∨ l4 = 0xFF then none else
    match ipInfo d l3 with
    | none => none
    | some i =>
      if i.l4 l4 ≠ some 6 then none else
        let h := l4 + 4 * (byteAt d (l4 + 12) / 16)
        if h < l4 + 20 ∨ 256 < h ∨ d.length < h then none else
          let ps := tsoPieces d.length (d.drop h) mss
          let go := fun (acc : List (List Byte) × Nat × Nat) (p : List Byte) =>
            (acc.1 ++ [tsoSegment (d.take h) p i l3 l4 acc.2.1 acc.2.2 (decide (acc.2.1 + 1 = ps.length))], acc.2.1 + 1,
              acc.2.2 + p.length)
          some (ps.foldl go ([], 0, 0)).1

end Sys2Proof.Machine
end

