-- ==== Sys2Proof/Machine/Ports.lean ====
section
/-! DEFINITION. Network ports and MAC (R132 to R155). -/

namespace Sys2Proof.Machine

/-- Is the traffic class paused by received PFC or PAUSE and not stalled (R143, R146)? -/
def State.paused (s : State) (p k tc : Nat) : Bool :=
  match (s.pause (classKey p k tc)).till with
  | some t => decide (s.clock.ict < t) && !s.stalled p k tc
  | none => false

/-- One traffic class receives a pause of `n` quanta: a stalled class only restarts its quiet time; otherwise the pause
replaces the remaining time, and zero ends it (R143, R146). -/
def State.pauseClass (s : State) (p k tc n : Nat) : State :=
  let e := classKey p k tc
  let x := s.pause e
  if s.stalled p k tc then (if n = 0 then s else s.setPause e { x with last := s.clock.ict })
  else if n = 0 then s.setPause e { x with till := none, since := none }
  else
    let since := match x.till, x.since with
      | some t, some t0 => if s.clock.ict < t then t0 else s.clock.ict
      | _, _ => s.clock.ict
    s.setPause e { x with till := some (s.clock.ict + s.quanta p n), since := some since, last := s.clock.ict }

/-- A received PFC frame: counted, and each class enabled in it and in PFC_RX takes its time (R143). -/
def State.pfcRx (s : State) (p k enable times : Nat) : State :=
  let s := s.pCount p k 10
  (List.range 8).foldl (fun s tc =>
    if bit enable tc && bit (s.rf (Reg.portSubCfg p k) portSubCfg_PFC_RX) tc then
      s.pauseClass p k tc (fld times (16 * tc) 16)
    else s) s

/-- A received PAUSE frame: counted; honoured for every class with PAUSE_RX = 1 while PFC_RX is zero (R143). -/
def State.pauseRx (s : State) (p k n : Nat) : State :=
  let s := s.pCount p k 9
  if s.rf (Reg.portSubCfg p k) portSubCfg_PAUSE_RX = 1 ∧ s.rf (Reg.portSubCfg p k) portSubCfg_PFC_RX = 0 then
    (List.range 8).foldl (fun s tc => s.pauseClass p k tc n) s
  else s

/-- A MAC control frame, consumed by the MAC (R136 step 4, R143). -/
def State.macControl (s : State) (p k : Nat) (d : List Byte) : State :=
  let op := beNat (slice d 14 2)
  if op = 0x0101 then
    let times := (List.range 8).foldl (fun acc tc => acc + beNat (slice d (18 + 2 * tc) 2) * 2 ^ (16 * tc)) 0
    s.pfcRx p k (beNat (slice d 16 2)) times
  else if op = 0x0001 then s.pauseRx p k (beNat (slice d 16 2))
  else s.pCount p k 9

/-- The Ethernet FCS of a frame. -/
def ethFcs (d : List Byte) : Nat := crcUpdate polyCrc32 0xFFFFFFFF d ^^^ 0xFFFFFFFF

/-- The check value of R153. -/
def wakeCrc (bs : List Byte) : Nat := bs.foldl crc16Byte 0xFFFF

/-- The bytes of a frame that a mask selects, in ascending order. -/
def maskBytes (mask : Nat) (d : List Byte) : List Byte :=
  ((List.range 128).filter fun j => bit mask j).map fun j => d.getD j 0

/-- The lowest-numbered wake pattern that the frame (with its FCS) matches (R152). -/
def State.wakeMatch (s : State) (p : Nat) (d : List Byte) : Option Nat :=
  (List.range 16).find? fun i =>
    let a := Reg.portWakePat p i
    let mask := s.rf a portWakePat_MASK
    s.rf a portWakePat_ENABLE = 1 && mask ≠ 0 && decide (mask < 2 ^ d.length)
      && wakeCrc (maskBytes mask d) = s.rf a portWakePat_CHECK

/-- The bytes that a truncated oversize frame keeps (R137, R139). -/
def State.truncLen (s : State) (p k : Nat) : Nat :=
  let t := s.rf (Reg.portSubCfg p k) portSubCfg_TRUNC_LEN * 64
  let m := s.rf (Reg.portSubCfg p k) portSubCfg_MAXFRAME
  if m < t then m / 64 * 64 else t

/-- The counter of a destination address: RX_BROADCAST, RX_MULTICAST or RX_UNICAST. -/
def castCounter (d : List Byte) : Nat :=
  if slice d 0 6 = List.replicate 6 255 then 4 else if bit (d.getD 0 0).toNat 0 then 3 else 2

/-- Pass a received frame on with a new satchel: attach at the port, into its ingress lane (R41, R136). TS is the arrival's
ICT less RX_DELAY; the spec is silent on an ICT below RX_DELAY, where the model's TS is 0 (DESIGN CHOICE, log entry 133). -/
def State.portAttach (s : State) (p k : Nat) (d : List Byte) (trunc : Bool) : State :=
  let inst := s.rf (Reg.pipeSubportCfg (p / 2) (p % 2) k) pipeSubportCfg_DEF_INSTANCE
  let ts := s.ictHalf - s.rf (Reg.portPtpCfg p) portPtpCfg_RX_DELAY
  let r := s.attach (8 * p + k) inst ts (p / 2) d
  let s := r.1.modFrame r.2 fun f => f.sf sfTrunc (b2n trunc)
  let l := Tab.get {} s.lanes p
  { s with lanes := Tab.put s.lanes p { l with arrivals := l.arrivals ++ [r.2] } }

/-- Do the receive path and filters of port `p` stay on in P3: named in WAKE_PORTS, with PAT_EN (R405)? -/
def State.listens (s : State) (p : Nat) : Bool := s.wakePort p && s.rf (Reg.portWakeCfg p) portWakeCfg_PAT_EN = 1

/-- A frame meets the wake patterns (R152): in P2 and P3 it is not forwarded, a match raises the wake, and a frame without
one counts as discarded in P2 (R419). In P0 and P1 a match is counted and the frame goes on, unless it wakes an entry
that runs: it is latched then and not forwarded. Answers whether the frame goes on. -/
def State.wakeFilter (s : State) (p k : Nat) (d : List Byte) : State × Bool :=
  let m := if s.rf (Reg.portWakeCfg p) portWakeCfg_PAT_EN = 1 then s.wakeMatch p d else none
  let low := decide (2 ≤ s.pstate)
  let wakes := s.wakePort p && s.wakeArmed 2
  match m with
  | some i =>
    let s := if low then s else s.pCount p k 28
    (if wakes then s.latchWake 2 p k i else s, !low && !wakes)
  | none => if low then (if s.pstate = 2 then s.pCount p k 14 else s, false) else (s, true)

/-- The receive MAC's checks in the order of R136. A truncated length above the data length keeps FCS bytes as frame data:
the spec keeps the first TRUNC_LEN × 64 bytes and drops the FCS, and does not say which prevails (DESIGN CHOICE, log entry
142). -/
def State.frameRx (s : State) (p k : Nat) (d : List Byte) (fcsOk : Bool) : State :=
  let len := d.length + 4
  let full := d ++ leBytes 4 (ethFcs d)
  if s.boot.phase = .off || !s.linked p k then s
  else if s.pstate = 3 then (if s.listens p && fcsOk && 64 ≤ len then (s.wakeFilter p k full).1 else s)
  else if !s.accepts (1 + p) then s
  else
    let max := s.rf (Reg.portSubCfg p k) portSubCfg_MAXFRAME
    if len < 64 then s.pCount p k 6
    else if !fcsOk then s.pCount p k 5
    else
      let r := s.wakeFilter p k full
      let s := r.1
      if !r.2 then s
      else if max < len then
        if s.rf (Reg.portSubCfg p k) portSubCfg_OVS_MODE = 0 then s.pCount p k 7
        else if beNat (slice d 12 2) = 0x8808 then s.macControl p k d
        else
          let s := (((s.pCount p k 8).pCount p k 0).pCount p k 1 len).pCount p k (castCounter d)
          s.portAttach p k (full.take (s.truncLen p k)) true
      else if beNat (slice d 12 2) = 0x8808 then s.macControl p k d
      else
        let s := ((s.pCount p k 0).pCount p k 1 len).pCount p k (castCounter d)
        s.portAttach p k d false

/-- LINK of a sub-port falls (R135, R139, R140); waiting PFC frames are not sent. -/
def State.linkFall (s : State) (p k : Nat) : State :=
  let s := s.setMac p k { s.mac p k with pfc := [] }
  if bit (s.rf (Reg.portStatus p) portStatus_LINK) k then
    let s := (s.setRf (Reg.portStatus p) ⟨k, 1⟩ 0).setRf (Reg.portStatus p) ⟨8 + k, 1⟩ 0
    (s.setRf (Reg.portStatus p) ⟨16 + k, 1⟩ 1).pCount p k 30
  else s.setRf (Reg.portStatus p) ⟨8 + k, 1⟩ 0

/-- A write of PORT.MODE (R133): one that would change SPLIT while a sub-port is enabled is ignored as a whole; a
change of SPLIT zeroes the port's counters, with the HALF bits of those whose bit 39 falls (R141), and empties its
timestamp queue; LINK of disabled sub-ports reads 0. -/
def State.portModeSet (s : State) (p v : Nat) : State :=
  let split := s.rf (Reg.portMode p) portMode_SPLIT
  let change := decide (fld v 0 2 ≠ split)
  if change && s.rf (Reg.portMode p) portMode_SUB_EN ≠ 0 then s else
    let s := s.wr (Reg.portMode p) (BitVec.ofNat 32 (v &&& 0xFF0F))
    let s := if change then
        let lo := ctlAddr (1 + p) 0x2000
        let s := (List.range 256).foldl (fun s i =>
          if bit (s.rdN (Reg.portCnt p (i / 32) (i % 32)) 2) 39 then s.setHalf p (i / 32) (i % 32) else s) s
        { s with regs := s.regs.filter fun e => !(decide (lo ≤ e.1 ∧ e.1 < lo + 0x800)), ptp := Tab.del s.ptp p }
      else s
    (List.range 8).foldl (fun s k => if s.subOn p k then s else s.linkFall p k) s

/-- Where the PTP header of an event message lies, and the UDP version that carries it (0 none, 4, 6) (R149). -/
def ptpHeader (d : List Byte) : Option (Nat × Nat) :=
  let ty := fun o => beNat (slice d o 2)
  let vlan := fun o => if ty o = 0x8100 ∨ ty o = 0x88A8 then o + 4 else o
  let o := vlan (vlan 12)
  let h :=
    if ty o = 0x88F7 then some (o + 2, 0)
    else if ty o = 0x0800 ∧ (d.getD (o + 11) 0).toNat = 17 then
      let u := o + 2 + 4 * fld (d.getD (o + 2) 0).toNat 0 4
      if ty (u + 2) = 319 then some (u + 8, 4) else none
    else if ty o = 0x86DD ∧ (d.getD (o + 8) 0).toNat = 17 then
      let u := o + 42
      if ty (u + 2) = 319 then some (u + 8, 6) else none
    else none
  match h with
  | some (x, v) => if x + 34 ≤ min 128 d.length ∧ (d.getD x 0).toNat % 16 < 4 then some (x, v) else none
  | none => none

/-- A checksum field after the words `old` it covers became `new_` (ones-complement update). -/
def sumUpdate (ck : Nat) (old new_ : List Byte) : Nat :=
  let t := (65535 - ck) + (65535 - onesSum old) + onesSum new_
  let t := t % 65536 + t / 65536
  let t := t % 65536 + t / 65536
  65535 - t

/-- The frame as sent and its two-step record: one-step insertion into a Sync without twoStepFlag while ONE_STEP is 1,
else a record while TWO_STEP is 1 (R149, R150). -/
def State.ptpSend (s : State) (p k : Nat) (d : List Byte) : List Byte × Option PtpRec :=
  match ptpHeader d with
  | none => (d, none)
  | some (h, v) =>
    let tod2 := s.clock.tod / (nsUnit / 2) + s.rf (Reg.portPtpCfg p) portPtpCfg_TX_DELAY
    let ty := (d.getD h 0).toNat % 16
    let two := bit (d.getD (h + 6) 0).toNat 1
    if ty = 0 ∧ !two ∧ s.rf (Reg.portPtpCfg p) portPtpCfg_ONE_STEP = 1 then
      let ns := tod2 / 2
      let stamp := beBytes 6 (ns / 1000000000) ++ beBytes 4 (ns % 1000000000)
      let d' := splice d (h + 34) stamp
      if v = 4 then (splice d' (h - 2) [0, 0], none)
      else if v = 6 then
        let ck := sumUpdate (beNat (slice d (h - 2) 2)) (slice d (h + 34) 10) stamp
        (splice d' (h - 2) (beBytes 2 (if ck = 0 then 0xFFFF else ck)), none)
      else (d', none)
    else if s.rf (Reg.portPtpCfg p) portPtpCfg_TWO_STEP = 1 then
      (d, some ⟨tod2, k, ty, (d.getD (h + 4) 0).toNat, beNat (slice d (h + 30) 2)⟩)
    else (d, none)

/-- May the MAC start the frame: class K, or of a class that is not paused (R143, R145)? -/
def State.txReady (s : State) (p k fid : Nat) : Bool :=
  (s.frame fid).gf sfK = 1 || !s.paused p k ((s.frame fid).gf sfTc)

/-- FRAME_RECEIVE, with the codewords that FEC corrected, those that it could not correct, and the symbols corrected, in
the frame's reception (R140). -/
def execFrameReceive (port : Fin 32) (sub : Fin 8) (data : List Byte) (rx : Reception) (s : State) : Out :=
  let p := port.val; let k := sub.val
  .next (if s.linked p k && s.accepts (1 + p) && decide (s.pstate ≠ 3) then
      (((s.pCount p k 11 rx.corr.toNat).pCount p k 12 rx.uncorr.toNat).pCount p k 13 rx.syms.toNat).frameRx p k data rx.fcsOk
    else s.frameRx p k data rx.fcsOk)

/-- SIGNAL_DETECT: with SD_EN, energy on a lane of a sub-port whose LINK was 0 at the entry raises the SIGNAL wake (R152,
R410). -/
def execSignalDetect (port : Fin 32) (sub : Fin 8) (s : State) : Out :=
  .next (if s.rf (Reg.portWakeCfg port.val) portWakeCfg_SD_EN = 1 && s.wakePort port.val && s.subPresent port.val sub.val
      && !bit (Tab.get 0 s.power.linksAt port.val) sub.val
    then s.latchWake 1 port.val sub.val 0 else s)

/-- PFC_RECEIVE. -/
def execPfcReceive (port : Fin 32) (sub : Fin 8) (enable : BitVec 8) (times : BitVec 128) (s : State) : Out :=
  .next (if s.linked port.val sub.val && s.accepts (1 + port.val) then s.pfcRx port.val sub.val enable.toNat times.toNat else s)

/-- PAUSE_RECEIVE. -/
def execPauseReceive (port : Fin 32) (sub : Fin 8) (time : BitVec 16) (s : State) : Out :=
  .next (if s.linked port.val sub.val && s.accepts (1 + port.val) then s.pauseRx port.val sub.val time.toNat else s)

/-- PAUSE_EXPIRE: a pause whose time has run out ends (R143). -/
def execPauseExpire (port : Fin 32) (sub : Fin 8) (tc : Fin 8) (s : State) : Out :=
  let e := classKey port.val sub.val tc.val
  let x := s.pause e
  .next (match x.till with
    | some t => if t ≤ s.clock.ict then s.setPause e { x with till := none, since := none } else s
    | none => s)

/-- PFC_REPEAT: the PFC frame is sent again once 32,768 quanta have passed while XOFF holds (R144). -/
def execPfcRepeat (port : Fin 32) (sub : Fin 8) (tc : Fin 8) (s : State) : Out :=
  let e := classKey port.val sub.val tc.val
  .next (if !s.stopped ∧ s.rf (Reg.iaccUse e) iaccUse_XOFF_STATE = 1 ∧ (s.pause e).sentAt + s.quanta port.val 32768 ≤ s.clock.ict
    then s.sendPfc e 0xFFFF else s)

/-- PFC_WATCHDOG: a class paused without interruption for LIMIT becomes stalled, with a record (R146). -/
def execPfcWatchdog (port : Fin 32) (sub : Fin 8) (tc : Fin 8) (s : State) : Out :=
  let p := port.val; let k := sub.val
  let e := classKey p k tc.val
  let x := s.pause e
  let limit := s.rf (Reg.portPfcWd p k) portPfcWd_LIMIT * 100000 * nsUnit
  .next (match x.since, x.till with
    | some t0, some t1 =>
      if s.subPresent p k ∧ limit ≠ 0 ∧ t0 + limit ≤ s.clock.ict ∧ t0 + limit ≤ t1 ∧ !s.stalled p k tc.val then
        let s := (s.setRf (Reg.portPfcStall p k) ⟨tc.val, 1⟩ 1).setRf (Reg.portPfcStall p k) ⟨8 + tc.val, 1⟩ 1
        s.record 0x0060 (1 + p) [(0, 1, k), (1, 1, tc.val)]
      else s
    | _, _ => s)

/-- PFC_WD_RESTORE: a stalled class that no pausing frame has reached for RESTORE leaves the stall (R146). -/
def execPfcWdRestore (port : Fin 32) (sub : Fin 8) (tc : Fin 8) (s : State) : Out :=
  let p := port.val; let k := sub.val
  let e := classKey p k tc.val
  let x := s.pause e
  let quiet := s.rf (Reg.portPfcWd p k) portPfcWd_RESTORE * 100000 * nsUnit
  .next (if s.stalled p k tc.val ∧ x.last + quiet ≤ s.clock.ict then
      (s.setRf (Reg.portPfcStall p k) ⟨tc.val, 1⟩ 0).setPause e { x with till := none, since := none }
    else s)

/-- LINK_UP: FEC lock and PCS alignment hold (R135). -/
def execLinkUp (port : Fin 32) (sub : Fin 8) (s : State) : Out :=
  let p := port.val; let k := sub.val
  .next (if s.subOn p k then (s.setRf (Reg.portStatus p) ⟨k, 1⟩ 1).setRf (Reg.portStatus p) ⟨8 + k, 1⟩ 1 else s)

/-- LINK_DOWN: FEC lock or alignment is lost (R135); a frame being received is discarded as an FCS error (R155). -/
def execLinkDown (port : Fin 32) (loss : LinkLoss) (s : State) : Out :=
  let p := port.val; let k := loss.sub.val
  .next ((if loss.midFrame && s.linked p k && s.accepts (1 + p) then s.pCount p k 5 else s).linkFall p k)

/-- PORT_MODE_WRITE. -/
def execPortModeWrite (port : Fin 32) (v : W32) (s : State) : Out := 
  .next (s.rowWrite (Reg.portMode port.val) 4 v.toNat fun s => s.portModeSet port.val v.toNat)

/-- FRAME_TRANSMIT: the MAC takes the next frame that it may start; one whose length on the wire exceeds MAXFRAME is discarded and
counted, another is padded, stamped where it is a PTP event message, and its transmission begins (R138, R149). -/
def execFrameTransmit (port : Fin 32) (sub : Fin 8) (s : State) : Out :=
  if s.stopped then .next s else
  let p := port.val; let k := sub.val
  let m := s.mac p k
  .next (match m.tx, m.waiting.find? (s.txReady p k) with
    | none, some fid =>
      let rest := m.waiting.erase fid
      if !s.linked p k then s else
        let d := (s.frame fid).data
        let d := d ++ List.replicate (60 - d.length) 0
        if s.rf (Reg.portSubCfg p k) portSubCfg_MAXFRAME < d.length + 4 then
          ((s.setMac p k { m with waiting := rest }).removeFrame fid).pCount p k 31
        else
          let r := s.ptpSend p k d
          s.setMac p k { m with waiting := rest, tx := some ⟨fid, r.1, r.2⟩ }
    | _, _ => s)

/-- FRAME_TX_COMPLETE: the last byte and FCS are sent, inverted with STOMP; the frame is counted, a two-step record is
queued or lost, and the satchel removed; waiting PFC frames follow (R35, R138, R140, R144, R150). -/
def execFrameTxComplete (port : Fin 32) (sub : Fin 8) (s : State) : Out :=
  let p := port.val; let k := sub.val
  let m := s.mac p k
  .next (match m.tx with
    | none => s
    | some t =>
      let stomp := decide ((s.frame t.fid).gf sfStomp = 1)
      let s := (s.setMac p k { m with tx := none }).emit (.portFrame p k t.bytes stomp)
      let s := (s.pCount p k 15).pCount p k 16 (t.bytes.length + 4)
      let s := if stomp then s.pCount p k 17 else s
      let s := match t.ptp with
        | some x =>
          let q := Tab.get [] s.ptp p
          if q.length < 64 then { s with ptp := Tab.put s.ptp p (q ++ [x]) } else s.pCount p k 29
        | none => s
      (s.removeFrame t.fid).flushPfc p k)

/-- A write of PTP_POP.POP: the oldest record goes (R151). -/
def State.ptpPop (s : State) (p : Nat) : State :=
  match Tab.get [] s.ptp p with
  | [] => s
  | _ :: q => { s with ptp := if q = [] then Tab.del s.ptp p else Tab.put s.ptp p q }

/-- PTP_POP. -/
def execPtpPop (port : Fin 32) (s : State) : Out := .next (s.rowWrite (Reg.portPtpPop port.val) 4 1 fun s => s.ptpPop port.val)

/-- A word of PORT.PTP_TXTS as read: the oldest record (R151). -/
def State.ptpWord (s : State) (p w : Nat) : Nat :=
  match Tab.get [] s.ptp p with
  | [] => 0
  | x :: _ =>
    let v := x.tod2 / 2 % 2 ^ 64 + 2 ^ 64 * (x.tod2 % 2 + 2 * x.sub + 16 * x.msgType + 256 * x.domain
      + 65536 * x.seqId) + 2 ^ 96
    fld v (32 * w) 32

end Sys2Proof.Machine
end

