-- ==== Sys2Proof/Machine/Fabric.lean ====
section
/-! DEFINITION. The cell fabric: links, entry, cells, the cyclic schedule, reassembly, and the queues of the output
stores with spill (R183 to R202), and the virtual-time tags those queues keep (R216). -/

namespace Sys2Proof.Machine

/-- Count in FAB.CNT. -/
def State.fabCount (s : State) (c : Nat) : State := s.count (Reg.fabCnt c)

/-- The input link of a source (R183, R184). -/
def inputLink (src hash : Nat) : Nat :=
  if epIsPort src then src / 8
  else if epIsHost src then 24 + 4 * (src - 0x100) + hash % 4
  else if epIsHamper src then 4 * (src - 0x108) + hash % 4
  else if epIsCluster src then 2 * (src - 0x110) + hash % 2
  else if epIsIngest src then 16 * (src - 0x121) + hash % 16
  else 31

/-- The output link toward a destination (R183, R184). -/
def outputLink (dst hash : Nat) : Nat :=
  if epIsPort dst then dst / 8 else if epIsHost dst then 24 + 4 * (dst - 0x100) + hash % 4
  else 4 * (dst - 0x108) + hash % 4

/-! ### Output-store queues -/

/-- The owner of a destination's queues: 0–31 a port, 32–33 a host link, 34–39 a Hamper link. -/
def ownerOf (dst : Nat) : Nat :=
  if epIsPort dst then dst / 8 else if epIsHost dst then 32 + (dst - 0x100) else 34 + (dst - 0x108)

/-- Queue numbers of an owner: weighted `q`, strict level `l` of sub-port `k`, class K of sub-port `k`. -/
def qWeighted (owner q : Nat) : Nat := owner * 8192 + q
/-- A strict-level queue. -/
def qStrict (owner k l : Nat) : Nat := owner * 8192 + 4096 + 4 * k + l
/-- A class K queue. -/
def qClassK (owner k : Nat) : Nat := owner * 8192 + 4160 + k

/-- The island of an owner's scheduler: its pair's traffic manager, or the endpoint's own island (R210, R225). -/
def tmIsland (owner : Nat) : Nat := if owner < 32 then 0x31 + owner / 2 else 0x61 + (owner - 32)
/-- The port index j of an owner within its scheduler's registers. -/
def tmJ (owner : Nat) : Nat := if owner < 32 then owner % 2 else 0

/-- TM.QUEUE_CFG of weighted queue `q`. -/
def qCfgAddr (owner q : Nat) : Nat := ctlAddr (tmIsland owner) (0x200000 + 0x10000 * tmJ owner + 16 * q)
/-- TM.SQUEUE_CFG of strict level `l`. -/
def sqCfgAddr (owner k l : Nat) : Nat := ctlAddr (tmIsland owner) (0x220000 + 0x100 * tmJ owner + 0x20 * k + 8 * l)
/-- TM.SUB_CFG of sub-port `k`. -/
def subCfgAddr (owner k : Nat) : Nat := ctlAddr (tmIsland owner) (0x280000 + 0x20 * tmJ owner + 4 * k)
/-- TM.VTIME of sub-port `k`. -/
def vtimeAddr (owner k : Nat) : Nat := ctlAddr (tmIsland owner) (0x260000 + 0x40 * tmJ owner + 8 * k)
/-- TM.CNT counter `c` of sub-port `k`. -/
def tmCntAddr (owner k c : Nat) : Nat := ctlAddr (tmIsland owner) (0x2A0000 + 0x400 * tmJ owner + 0x80 * k + 8 * c)

/-- The queue with a number. -/
def State.outQ (s : State) (q : Nat) : OutQ := Tab.get {} s.outQs q
/-- Replace a queue. -/
def State.setOutQ (s : State) (q : Nat) (x : OutQ) : State := { s with outQs := Tab.put s.outQs q x }

/-- The cell places that a frame of `len` bytes takes in an output store (R195). -/
def places (len : Nat) : Nat := (len + 255) / 256

/-- Is the queue number that of a class K queue? -/
def qIsK (q : Nat) : Bool := 4160 ≤ q % 8192

/-- Class K cell places in use in memory `m`: at entry, in middle queues, in reassembly and in the output store. -/
def State.kUse (s : State) (m : Nat) : Nat :=
  let f := s.fabric
  ((Tab.get [] f.entry m).filter fun c => c.k).length
    + (List.range 32).foldl (fun n o => n + (Tab.get [] f.mid ((32 * m + o) * 2 + 1)).length) 0
    + (f.places.filter fun p => p.k && p.mem = m).length

/-- Cell places in use in the output store of memory `m` (R195, R197). -/
def State.storeUse (s : State) (m : Nat) : Nat := (s.fabric.places.filter fun p => !p.k && p.mem = m).length

/-- Cell places of an output store: 3,008 KiB of 512-byte places. -/
def storePlaces : Nat := 6016

/-- A memory's SPILLING state follows its occupancy with hysteresis (R199). -/
def State.updateSpilling (s : State) (m : Nat) : State :=
  let occ := s.storeUse m * 512
  let on := s.rf Reg.spillCfg spillCfg_SPILL_ON
  let off := min (s.rf Reg.spillCfg spillCfg_SPILL_OFF) (on - 1)
  let now := s.rf (Reg.spillStatus m) spillStatus_SPILLING
  if now = 0 ∧ on * 16384 ≤ occ then s.setRf (Reg.spillStatus m) spillStatus_SPILLING 1
  else if now = 1 ∧ occ < off * 16384 then s.setRf (Reg.spillStatus m) spillStatus_SPILLING 0 else s

/-- A cell has arrived at output `o`: it takes a place for the frames it carries. -/
def State.takePlace (s : State) (o : Nat) (c : Cell) : State :=
  let fids := (c.segs.map fun x => x.fid).filter fun i => (Tab.find s.frames i).isSome
  let fb := s.fabric
  if fids.isEmpty then s
  else { s with fabric := { fb with places := fb.places ++ [Place.mk fb.nextCell o c.k fids], nextCell := fb.nextCell + 1 } }.updateSpilling o

/-- A frame leaves the output memories: a place is free once no frame has bytes in it, and the spill state of the
memory follows (R199). -/
def State.freePlaces (s : State) (fid : Nat) : State :=
  let ms := ((s.fabric.places.filter fun p => p.fids.contains fid).map fun p => p.mem).eraseDups
  let ps := (s.fabric.places.map fun p => { p with fids := p.fids.filter fun i => i ≠ fid }).filter fun p => !p.fids.isEmpty
  ms.foldl State.updateSpilling { s with fabric := { s.fabric with places := ps } }

/-- The stored cells that a frame stands in. -/
def State.cellsOf (s : State) (fid : Nat) : List Nat :=
  (s.fabric.places.filter fun p => p.fids.contains fid).map fun p => p.id

/-- FAB.SPILL_STATUS of memory `m` as read (R202). -/
def State.spillStatusWord (s : State) (m : Nat) : Nat :=
  let qs := (s.outQs.filter fun e => e.2.spill && (e.2.chip ++ e.2.cool).any fun x => x.mem = m).length
  s.storeUse m * 512 / 16384 % 256 + 256 * s.rf (Reg.spillStatus m) spillStatus_SPILLING + 512 * (qs % 65536)

/-- The 2 KiB pages that a Coolbox segment uses (R200). -/
def segPages (l : List QEnt) : Nat := ((l.flatMap fun e => e.cells).map (·.2)).eraseDups.length

/-- The pages of the spill region that are free (R198, R200). -/
def State.spillFree (s : State) : Nat :=
  s.rf (Reg.cbRegion 0) cbRegion_SIZE * 131072 - s.outQs.foldl (fun n e => n + segPages e.2.cool) 0

/-- Bytes of frames in a queue (R218). -/
def OutQ.bytes (q : OutQ) : Nat := (q.chip ++ q.cool).foldl (fun n x => n + x.len) 0

/-- The charged length of R215. -/
def chargedLen (len ovh : Nat) : Nat := (max 1 ((len : Int) + sgn 8 ovh)).toNat

/-- The cost of a frame in a queue of weight `w` (R216). -/
def qCost (lc w : Nat) : Nat := if w = 0 then 0 else lc * 65536 / w

/-- Tags are 48 bits wide. -/
def tagMod : Nat := 2 ^ 48
/-- `a` is before `b` within the half-range (R216). -/
def tagBefore (a b : Nat) : Bool := decide (0 < (b + tagMod - a) % tagMod ∧ (b + tagMod - a) % tagMod < 2 ^ 47)

/-- The cost of the head of weighted queue `q` of an owner under its present weight, at sub-port `k`. -/
def State.headCost (s : State) (owner q k : Nat) (x : QEnt) : Nat :=
  qCost (chargedLen (s.frame x.fid).len (s.rf (subCfgAddr owner k) tmSubCfg_OVERHEAD)) (s.rf (qCfgAddr owner q) tmQueueCfg_WEIGHT)

/-- The sub-port that weighted queue `q` serves. -/
def State.qSub (s : State) (owner q : Nat) : Nat := s.rf (qCfgAddr owner q) tmQueueCfg_SUBPORT

/-! ### Pipeline counters -/

/-- Count in PIPE.CNT of ingress pipeline `n`, or of egress pipeline `n` − 16. -/
def State.pipeCount (s : State) (n c : Nat) (k : Nat := 1) : State :=
  s.count (ctlAddr (if n < 16 then 0x21 + n else 0x31 + (n - 16)) (0x800 + 8 * c)) k

/-! ### The reorder window (R180) -/

/-- A pipeline's reorder window. -/
def State.window (s : State) (n : Nat) : Reorder := Tab.get {} s.reorder n
/-- Replace a reorder window. -/
def State.setWindow (s : State) (n : Nat) (w : Reorder) : State := { s with reorder := Tab.put s.reorder n w }

/-- Is the frame one of a pipeline's window: the pipeline, if it holds a slot. -/
def State.slotOf (s : State) (fid : Nat) : Option Nat :=
  (s.reorder.find? fun e => e.2.slots.any fun x => x.fid = fid).map (·.1)

/-- The pipeline whose window passed the frame's slot over, if any. -/
def State.lateOf (s : State) (fid : Nat) : Option Nat :=
  (s.reorder.find? fun e => e.2.late.contains fid).map (·.1)

/-- The frame's slot is released without an order promise (R180). -/
def State.releaseSlot (s : State) (fid : Nat) : State :=
  let go := fun (e : Nat × Reorder) => (e.1, Reorder.mk (e.2.slots.filter fun x => x.fid ≠ fid) (e.2.late.filter fun x => x ≠ fid))
  { s with reorder := s.reorder.map go }

/-- The oldest slots that have waited their WAIT are passed over: the frames become late (R180, R31). -/
def State.passOver : Nat → Nat → State → State
  | 0, _, s => s
  | fuel + 1, n, s =>
    let w := s.window n
    match w.slots with
    | x :: rest =>
      if x.released.isNone && decide (x.due ≤ s.ictNs) then passOver fuel n (s.setWindow n ⟨rest, w.late ++ [x.fid]⟩) else s
    | [] => s

/-- A window passes over what is due. -/
def State.passOverDue (s : State) (n : Nat) : State := s.passOver ((s.window n).slots.length) n

/-- A satchel's slot is released in any way but by DISP.CONT: what has waited its WAIT is passed over first, and the
release of a slot that was passed over is counted (R180, R182). -/
def State.leaveWindow (s : State) (fid : Nat) : State :=
  let s := match s.slotOf fid with
    | some n => s.passOverDue n
    | none => s
  match s.lateOf fid with
  | some n => (s.releaseSlot fid).pipeCount n 7
  | none => s.releaseSlot fid

/-- Discard a frame for good: its slot of a reorder window is released (R180), its cell places and its charges end. -/
def State.discard (s : State) (fid : Nat) : State := ((s.leaveWindow fid).freePlaces fid).removeFrame fid

/-! ### The output store -/

/-- The queue that the output store puts a frame into (R211, R225), with the sub-port that counts it and, for a
weighted queue, its number. -/
def State.pickQueue (s : State) (f : Frame) : Nat × Nat × Option Nat :=
  let dst := f.gf sfDst
  let owner := ownerOf dst
  let k := if epIsPort dst then dst % 8 else 0
  if f.gf sfK = 1 then (qClassK owner k, k, none) else
    let lv := fld (s.rd (subCfgAddr owner k)).toNat (8 + 3 * f.gf sfTc) 3
    if lv < 4 then (qStrict owner k lv, k, none)
    else
      let q := if epIsHost dst then f.gf sfInstance else f.gf sfQueue
      (qWeighted owner q, if owner < 32 then s.qSub owner q else 0, some q)

/-- The queue limit in bytes for a colour: 0 green, 1 yellow, 2 and 3 red (R218). -/
def State.qLimit (s : State) (owner k : Nat) (q : Option Nat) (lv colour : Nat) : Nat :=
  let c := min colour 2
  4096 * (match q with
    | some q => s.rf (qCfgAddr owner q) (if c = 0 then tmQueueCfg_LIMIT_G else if c = 1 then tmQueueCfg_LIMIT_Y
        else tmQueueCfg_LIMIT_R)
    | none => s.rf (sqCfgAddr owner k lv) (if c = 0 then tmSqueueCfg_LIMIT_G else if c = 1 then tmSqueueCfg_LIMIT_Y
        else tmSqueueCfg_LIMIT_R))

/-- The pages that a frame's cells take in a segment: a cell that the segment holds already keeps its page, each other
one takes the next place of the page being filled, four to a page (R200). -/
def spillCells (held : List (Nat × Nat)) : List Nat → Nat → Nat → List (Nat × Nat)
  | [], _, _ => []
  | c :: cs, page, part =>
    match held.find? fun h => h.1 = c with
    | some h => h :: spillCells held cs page part
    | none => (c, page) :: (if part = 3 then spillCells held cs (page + 1) 0 else spillCells held cs page (part + 1))

/-- Does a memory's spill write backlog of 256 KiB have room for `n` pages (R197, R202)? -/
def State.backlogRoom (s : State) (m n : Nat) : Bool := decide (Tab.get 0 s.spillBacklog m + 2048 * n ≤ 262144)

/-- Append a frame to the Coolbox segment of its queue, which is in spill mode from then on: full pages go to the write
backlog (R200); with too few free pages or a full backlog the frame is discarded (R202). -/
def State.spillAppend (s : State) (qn : Nat) (e : QEnt) : State :=
  let x := s.outQ qn
  let held := x.cool.flatMap fun y => y.cells
  let e := { e with cells := spillCells held (s.cellsOf e.fid) x.page x.partial_ }
  let part := x.partial_ + (e.cells.filter fun c => !held.contains c).length
  if s.spillFree + segPages x.cool < segPages (x.cool ++ [e]) then (s.fabCount 5).discard e.fid
  else if !s.backlogRoom e.mem (max 1 (part / 4)) then (s.fabCount 6).discard e.fid
  else
    let y := { x with spill := true, cool := x.cool ++ [e], page := x.page + part / 4, partial_ := part % 4, lastSpill := s.ictNs }
    let s := (s.freePlaces e.fid).setOutQ qn y
    ({ s with spillBacklog := Tab.set 0 s.spillBacklog e.mem (Tab.get 0 s.spillBacklog e.mem + part / 4 * 2048) }).fabCount 4

/-- The output store takes a frame: the fence of R39, the queue of R211, the limits of R218, spill mode under R199, and
the activation of an empty weighted queue under R216. -/
def State.storeEnqueue (s : State) (fid m : Nat) : State :=
  let f := s.frame fid
  match s.fence f with
  | some r => (s.countExc r).discard fid
  | none =>
    let dst := f.gf sfDst
    let owner := ownerOf dst
    let p := s.pickQueue f
    let qn := p.1; let k := p.2.1
    let x := s.outQ qn
    let e : QEnt := ⟨fid, m, f.len, (s.cellsOf fid).map fun c => (c, 0)⟩
    let lv := qn % 8192 - 4096 - 4 * k
    if !qIsK qn && s.qLimit owner k p.2.2 lv (f.gf sfColour) < x.bytes + f.len then
      (s.count (tmCntAddr owner k (2 + min 2 (f.gf sfColour)))).discard fid
    else
      let onchip := x.chip.foldl (fun n y => n + y.len) 0
      let enter := !x.spill && !qIsK qn && s.rf Reg.spillCfg spillCfg_ENABLE = 1
        && s.rf (Reg.cbRegion 0) cbRegion_SIZE ≠ 0 && s.rf (Reg.spillStatus m) spillStatus_SPILLING = 1
        && decide (s.rf Reg.spillCfg spillCfg_Q_SPILL_MIN * 4096 ≤ onchip)
      let x := match p.2.2 with
        | some q =>
          if x.chip.isEmpty && x.cool.isEmpty then
            let v := s.rf (vtimeAddr owner k) tmVtime_V
            { x with s := v, f := (v + s.headCost owner q k e) % tagMod, active := true }
          else x
        | none => x
      if x.spill || enter then (s.setOutQ qn x).spillAppend qn e
      else s.setOutQ qn { x with chip := x.chip ++ [e] }

/-! ### Entry (R185, R190, R191, R195, R196) -/

/-- The sum of a cell's segment lengths. -/
def Cell.used (c : Cell) : Nat := c.segs.foldl (fun n x => n + x.len) 0
/-- The frame starts in a cell. -/
def Cell.starts (c : Cell) : Nat := (c.segs.filter fun x => x.start).length

/-- The cell header as the tag path carries it (R192): the segments' fields from bit 32 on, 32 bits each; SAT is the place
of the frame begun among the satchels carried. -/
def Cell.header (c : Cell) : Nat :=
  let seg := fun (n : Nat) (x : Seg) =>
    x.off + 2 ^ 8 * x.len + 2 ^ 17 * b2n x.start + 2 ^ 18 * b2n x.fin
      + 2 ^ 19 * (if x.start then (c.segs.take n).countP fun y => y.start else 0) + 2 ^ 21 * b2n x.eccBad
  c.seq % 2 ^ 16 + 2 ^ 16 * c.input + 2 ^ 21 * c.output + 2 ^ 26 * b2n c.k + 2 ^ 28 * (c.segs.length - 1) + 2 ^ 30 * c.starts
    + (c.segs.zipIdx.map fun e => 2 ^ (32 * e.2 + 32) * seg e.2 e.1).sum

/-- Append a frame of `left` bytes to the cells of its (input, output, K) pair: the cell being filled first, then new
cells; a cell is full at 256 bytes or three frame starts (R190). `fuel` bounds the cells. -/
def addCells : Nat → List Cell → Nat → Nat → Bool → Nat → Bool → Nat → List Cell
  | 0, cs, _, _, _, _, _, _ => cs
  | fuel + 1, cs, i, o, k, fid, start, left =>
    if left = 0 then cs else
      let fill := match firstIdx (fun c : Cell => c.output == o && c.k == k && !c.full) cs with
        | some n => some (n, cs.getD n (Cell.mk 0 i o k [] false))
        | none => none
      let c : Cell := match fill with
        | some (_, c) => c
        | none => Cell.mk 0 i o k [] false
      let n := min left (256 - c.used)
      let c := { c with segs := c.segs ++ [Seg.mk c.used n start (decide (n = left)) fid false] }
      let c := { c with full := decide (c.used = 256 ∨ c.starts = 3) }
      let cs := match fill with
        | some (m, _) => cs.set m c
        | none => cs ++ [c]
      addCells fuel cs i o k fid false (left - n)

/-- The new cells that a frame needs at input `i`. -/
def State.newCells (s : State) (i o : Nat) (k : Bool) (fid len : Nat) : Nat :=
  let cs := Tab.get [] s.fabric.entry i
  (addCells (places len + 2) cs i o k fid true len).length - cs.length

/-- Does a class K frame find the reserve of memory `i` full (R195)? -/
def State.kFull (s : State) (i o : Nat) (k : Bool) (fid len : Nat) : Bool :=
  k && decide (128 < s.kUse i + s.newCells i o k fid len)

/-- Does input `i` accept the frame (R191)? Room for a class K frame is judged in the reserve; at most 32 cells of the
entry buffer, where no class K cell stands, wait for its output. -/
def State.entryRoom (s : State) (i o : Nat) (k : Bool) (fid len : Nat) : Bool :=
  let data := (Tab.get [] s.fabric.entry i).filter fun c => !c.k
  !s.kFull i o k fid len && (k || decide (data.length + s.newCells i o k fid len ≤ 256))
    && decide ((data.filter fun c => c.output = o).length ≤ 32)

/-- The frame enters the fabric at input `i` (R190). -/
def State.enterCells (s : State) (fid i : Nat) : State :=
  let f := s.frame fid
  let o := outputLink (f.gf sfDst) (f.gf sfHash)
  let k := decide (f.gf sfK = 1)
  let cs := addCells (places f.len + 2) (Tab.get [] s.fabric.entry i) i o k fid true f.len
  ({ s with fabric := { s.fabric with entry := Tab.put s.fabric.entry i cs } }).fabCount 0

/-- A frame from a port lane at its input: ingress accounting first (not for class K), then the conditions of R191. -/
def State.portEntry (s : State) (fid : Nat) : State :=
  let f := s.frame fid
  let src := f.gf sfSrc
  let p := src / 8; let sub := src % 8
  let i := p
  let o := outputLink (f.gf sfDst) (f.gf sfHash)
  let k := decide (f.gf sfK = 1)
  if k then
    if s.kFull i o k fid f.len then (((s.fabCount 3).fabCount 1).pCount p sub 14).discard fid
    else if s.entryRoom i o k fid f.len then s.enterCells fid i
    else ((s.fabCount 1).pCount p sub 14).discard fid
  else
    let e := classKey p sub (f.gf sfTc)
    let used := s.rf (Reg.iaccUse e) iaccUse_USED + f.len
    if s.rf (Reg.iacc e) iacc_DROP * 4096 < used then
      let s := if s.rf (Reg.iacc e) iacc_XOFF * 4096 ≤ used then s.iaccReport e true else s
      ((s.fabCount 2).pCount p sub 14).discard fid
    else if s.entryRoom i o k fid f.len then
      let s := s.setRf (Reg.iaccUse e) iaccUse_USED used
      let s := s.modFrame fid fun f => { f with iacc := some (e, f.len) }
      let s := if s.rf (Reg.iacc e) iacc_XOFF * 4096 ≤ used then s.iaccReport e true else s
      s.enterCells fid i
    else ((s.fabCount 1).pCount p sub 14).discard fid

/-- A frame from a side source waits at its input until it is accepted (R191); `src` names the source. -/
def State.sideEntry (s : State) (fid i src : Nat) : State :=
  let q := Tab.get [] s.fabric.side i
  { s with fabric := { s.fabric with side := Tab.put s.fabric.side i (q ++ [(src, fid)]) } }

/-- The first waiting frame of the source that follows `last` in cyclic order of source numbers. -/
def nextSide (q : List (Nat × Nat)) (last : Nat) : Option (Nat × Nat) :=
  let above := q.filter fun x => last < x.1
  let pool := if above.isEmpty then q else above
  match pool.map (·.1) with
  | [] => none
  | x :: xs => pool.find? fun y => y.1 = xs.foldl min x

/-- The copies that OBS made enter their inputs, each after its original: one whose original still waits at a side source
stays; a copy that finds no room is discarded and counted (R205, R209). -/
def State.settleCopies (s : State) : State :=
  let waits := fun (x : Nat × Nat × Nat) => (Tab.get [] s.fabric.side x.2.1).any fun y => y.2 = x.2.2
  (s.copies.filter fun x => !waits x).foldl (fun s x =>
    let f := s.frame x.1
    let k := decide (f.gf sfK = 1)
    let m := f.gf sfMirSession
    if s.entryRoom x.2.1 (outputLink (f.gf sfDst) (f.gf sfHash)) k x.1 f.len then
      (s.count (Reg.mirrorCnt m 0)).enterCells x.1 x.2.1
    else (s.count (Reg.mirrorCnt m 1)).removeFrame x.1) { s with copies := s.copies.filter waits }

/-- SIDE_SOURCE_ENTRY: the next side source of the input enters its frame once room exists (R190, R191); a class K frame
that finds the reserve full is discarded (R195). A mirror copy that waited for it comes after it (R209). -/
def execSideSourceEntry (input : Fin 32) (s : State) : Out :=
  if s.stopped then .next s else
  let i := input.val
  let q := Tab.get [] s.fabric.side i
  .next (match nextSide q (Tab.get 0 s.fabric.sideLast i) with
    | none => s
    | some (src, fid) =>
      let f := s.frame fid
      let o := outputLink (f.gf sfDst) (f.gf sfHash)
      let k := decide (f.gf sfK = 1)
      let fb := { s.fabric with side := Tab.put s.fabric.side i (q.erase (src, fid)), sideLast := Tab.set 0 s.fabric.sideLast i src }
      if s.kFull i o k fid f.len then ((({ s with fabric := fb } : State).fabCount 3).discard fid).settleCopies
      else if s.entryRoom i o k fid f.len then (({ s with fabric := fb } : State).enterCells fid i).settleCopies
      else s)

/-! ### The cyclic schedule (R187 to R189, R193, R194) -/

/-- Can memory `j` take a class K cell that comes from memory `i`? -/
def State.kRoom (s : State) (i j : Nat) : Bool := decide (i = j) || decide (s.kUse j < 128)

/-- Data cells in the middle region of `j`. -/
def State.midUse (s : State) (j : Nat) : Nat :=
  (List.range 32).foldl (fun n o => n + (Tab.get [] s.fabric.mid ((32 * j + o) * 2)).length) 0

/-- Does the data queue for output `o` in `j` admit a cell (R189)? -/
def State.midRoom (s : State) (j o : Nat) : Bool :=
  decide ((Tab.get [] s.fabric.mid ((32 * j + o) * 2)).length < s.rf Reg.memCfg memCfg_MID_LIMIT) && decide (s.midUse j < 1792)

/-- Input `i` sends a cell to middle buffer `j`, the first found in the order of R188. -/
def State.sendInput (s : State) (i j : Nat) : State :=
  let cs := Tab.get [] s.fabric.entry i
  let pick := match firstIdx (fun c : Cell => c.k && s.kRoom i j) cs with
    | some n => some n
    | none => match firstIdx (fun c : Cell => !c.k && c.full && s.midRoom j c.output) cs with
      | some n => some n
      | none => firstIdx (fun c : Cell => !c.k && !c.full && s.midRoom j c.output) cs
  match pick with
  | none => s
  | some n =>
    match cs[n]? with
    | none => s
    | some c =>
      let tri := (32 * i + c.output) * 2 + b2n c.k
      let mq := (32 * j + c.output) * 2 + b2n c.k
      let fb := s.fabric
      let c := { c with seq := Tab.get 0 fb.sendSeq tri, full := true }
      let fb := { fb with entry := Tab.put fb.entry i (dropAt n cs), sendSeq := Tab.set 0 fb.sendSeq tri ((c.seq + 1) % 65536) }
      { s with fabric := { fb with mid := Tab.put fb.mid mq (Tab.get [] fb.mid mq ++ [c]) } }

/-- The cell with sequence number `n` among those arrived. -/
def takeSeq (n : Nat) (cs : List Cell) : Option (Cell × List Cell) :=
  match firstIdx (fun c : Cell => c.seq == n) cs with
  | some i => (cs[i]?).map fun c => (c, dropAt i cs)
  | none => none

/-- Reassembly at output `o` releases, in sequence, the frames whose last segment has arrived (R194). -/
def State.releaseCells : Nat → Nat → Nat → State → State
  | 0, _, _, s => s
  | fuel + 1, tri, o, s =>
    let fb := s.fabric
    let n := Tab.get 0 fb.relSeq tri
    match takeSeq n (Tab.get [] fb.reasm tri) with
    | none => s
    | some (c, rest) =>
      let bad := fb.bad ++ (c.segs.filter fun x => x.eccBad).map (·.fid)
      let fb := { fb with reasm := Tab.put fb.reasm tri rest, relSeq := Tab.set 0 fb.relSeq tri ((n + 1) % 65536), bad := bad }
      let s := { s with fabric := fb }
      let ends := (c.segs.filter fun x => x.fin).map (·.fid)
      let s := ends.foldl (fun s fid =>
        if bad.contains fid then
          ({ s with fabric := { s.fabric with bad := s.fabric.bad.filter (· ≠ fid) } }.fabCount 9).discard fid
        else s.storeEnqueue fid o) s
      releaseCells fuel tri o s

/-- Memory `j` reads a cell: a segment with an uncorrectable error is marked ECC_BAD (R192). Where errors strike is free. -/
def State.readCell (s : State) (c : Cell) : State × Cell :=
  let segs := c.segs.zipIdx.map fun e => { e.1 with eccBad := e.1.eccBad || Config.cellEcc s.free e.2 }
  let t := { s with free := s.free + 1 }
  (if segs.any fun x => x.eccBad then t.eccError else t, { c with segs := segs })

/-- Middle buffer `j` sends a cell to output `o` (R189): the head of its K queue where the reserve has room, else of its
data queue where the output store can take it, or for a queue in spill mode the spill write backlog (R197). -/
def State.sendMiddle (s : State) (j o : Nat) : State :=
  let kq := (32 * j + o) * 2 + 1
  let dq := (32 * j + o) * 2
  let move := fun (q : Nat) (c : Cell) (rest : List Cell) =>
    let tri := (32 * c.input + o) * 2 + b2n c.k
    let r := s.readCell c
    let fb := { r.1.fabric with mid := Tab.put s.fabric.mid q rest }
    let fb := { fb with reasm := Tab.put fb.reasm tri (Tab.get [] fb.reasm tri ++ [r.2]) }
    let s := ({ r.1 with fabric := fb } : State).takePlace o c
    s.releaseCells ((Tab.get [] fb.reasm tri).length) tri o
  let data := match Tab.get [] s.fabric.mid dq with
    | c :: rest =>
      let spilled := c.segs.any fun x => (s.outQ (s.pickQueue (s.frame x.fid)).1).spill
      if (if spilled then s.backlogRoom o 1 else decide (s.storeUse o < storePlaces)) then move dq c rest else s
    | [] => s
  match Tab.get [] s.fabric.mid kq with
  | c :: rest => if s.kRoom j o then move kq c rest else data
  | [] => data

/-- One 2 ns slot: middle buffers to outputs, then inputs to middle buffers, so that a cell written in slot t leaves in
t + 1 at the earliest (R187). -/
def State.fabricSlot (s : State) : State :=
  let t := s.fabric.t
  let s := (List.range 32).foldl (fun s j => s.sendMiddle j ((j + t) % 32)) s
  let s := (List.range 32).foldl (fun s i => s.sendInput i ((i + t) % 32)) s
  { s with fabric := { s.fabric with t := t + 1 } }

/-- FABRIC_SLOT. -/
def execFabricSlot (s : State) : Out :=
  if s.stopped then .next s else
  .next s.fabricSlot

/-! ### Spill (R200 to R202) -/

/-- SPILL_PAGE_FLUSH: the partly filled page of a queue whose spilled arrivals paused for 1 µs is written (R200). -/
def execSpillPageFlush (mem : Fin 32) (queue : W32) (s : State) : Out :=
  if s.stopped then .next s else
  let x := s.outQ queue.toNat
  .next (if x.partial_ ≠ 0 ∧ s.elapsed x.lastSpill 1000 then
      let s := s.setOutQ queue.toNat { x with page := x.page + 1, partial_ := 0 }
      { s with spillBacklog := Tab.set 0 s.spillBacklog mem.val (Tab.get 0 s.spillBacklog mem.val + 2048) }
    else s)

/-- SPILL_WRITE_COMPLETE: a page of the backlog is in the Coolbox (R202). -/
def execSpillWriteComplete (mem : Fin 32) (s : State) : Out :=
  if s.stopped then .next s else
  .next { s with spillBacklog := Tab.set 0 s.spillBacklog mem.val (Tab.get 0 s.spillBacklog mem.val - 2048) }

/-- Has a frame reached the age limit of its class at output `o` (R203)? Shard traffic, which crosses no output memory,
stands at 32 and does not age. -/
def State.expired (s : State) (f : Frame) (o : Nat) : Bool :=
  let lim := if f.gf sfK = 1 then s.rf Reg.fabAgeK fabAgeK_LIMIT else s.rf (Reg.fabAge o (f.gf sfTc)) fabAge_LIMIT
  decide (o < 32 ∧ lim ≠ 0 ∧ lim * 2000 ≤ s.ictHalf - f.ts)

/-- The queue leaves spill mode when its segment has become empty; a queue without frames becomes inactive. -/
def OutQ.settle (x : OutQ) : OutQ :=
  let x := if x.cool.isEmpty then { x with spill := false, partial_ := 0 } else x
  if x.chip.isEmpty && x.cool.isEmpty then { x with active := false } else x

/-- A weighted queue's head has been replaced: S is kept and F recomputed (R216). Other queues keep no tags. -/
def State.retagHead (s : State) (qn : Nat) : State :=
  let owner := qn / 8192; let q := qn % 8192
  let x := s.outQ qn
  match x.chip with
  | e :: _ =>
    if q < 4096 then
      let k := if owner < 32 then s.qSub owner q else 0
      s.setOutQ qn { x with f := (x.s + s.headCost owner q k e) % tagMod, active := true }
    else s
  | [] => s

/-- Bytes of a queue on chip. -/
def OutQ.onChip (x : OutQ) : Nat := x.chip.foldl (fun n y => n + y.len) 0

/-- A frame's cells come back on chip: those that stand there already take it in, each other one takes a place. -/
def State.placeOnChip (s : State) (e : QEnt) : State :=
  let ids := e.cells.map (·.1)
  let have' := s.fabric.places.map fun p => if ids.contains p.id then { p with fids := p.fids ++ [e.fid] } else p
  let fresh := ids.filter fun c => !(s.fabric.places.any fun p => p.id = c)
  ({ s with fabric := { s.fabric with places := have' ++ fresh.map fun c => Place.mk c e.mem false [e.fid] } }).updateSpilling e.mem

/-- Has the store of the frame's memory a free place for each cell of it that is not on chip? -/
def State.chipRoom (s : State) (e : QEnt) : Bool :=
  decide (s.storeUse e.mem + (e.cells.filter fun c => !(s.fabric.places.any fun p => p.id = c.1)).length ≤ storePlaces)

/-- PREFETCH_COMPLETE: a prefetch read arrives, as long as fewer than PREFETCH bytes of the queue are on chip and its
first spilled frame finds room there (R195, R201). The frames of a page with an uncorrectable error are discarded
(CB_ECC); a frame past its age limit is discarded instead of moved (AGE_DROP, AGE_DROP_CB) (R203, R209). -/
def execPrefetchComplete (mem : Fin 32) (queue : W32) (eccBad : Bool) (s : State) : Out :=
  if s.stopped then .next s else
  let qn := queue.toNat
  let x := s.outQ qn
  .next (match x.cool with
    | [] => s
    | e :: rest =>
      if e.mem ≠ mem.val ∨ s.rf Reg.spillCfg spillCfg_PREFETCH * 4096 ≤ x.onChip then s
      else if eccBad then
        let page := (e.cells.map (·.2)).headD 0
        let hit := fun (y : QEnt) => y.cells.any fun c => c.2 = page
        let lost := e :: rest.takeWhile hit
        let s := s.setOutQ qn ({ x with cool := rest.dropWhile hit } : OutQ).settle
        lost.foldl (fun s y => (s.fabCount 10).discard y.fid) s.eccError
      else if s.expired (s.frame e.fid) e.mem then
        (((s.setOutQ qn ({ x with cool := rest } : OutQ).settle).fabCount 7).fabCount 8).discard e.fid
      else if s.chipRoom e then
        let s := (s.placeOnChip e).setOutQ qn ({ x with chip := x.chip ++ [e], cool := rest } : OutQ).settle
        if x.chip.isEmpty then s.retagHead qn else s
      else s)

end Sys2Proof.Machine
end

