-- ==== Sys2Proof/Machine/Sched.lean ====
section
/-! DEFINITION. Scheduling, shaping and policing (R210 to R232). -/

namespace Sys2Proof.Machine

/-! ### Shapers (R219 to R223, R279) -/

/-- TM.SHAPER_CFG and TM.SHAPER_BAL of shaper `x` in an island; the ingest islands hold theirs elsewhere. -/
def shaperCfgAddr (island x : Nat) : Nat :=
  ctlAddr island (if island = 0x5B ∨ island = 0x5C then 0x10000 + 8 * x else 0x100000 + 8 * x)
/-- The balance of shaper `x`. -/
def shaperBalAddr (island x : Nat) : Nat :=
  ctlAddr island (if island = 0x5B ∨ island = 0x5C then 0x12000 + 8 * x else 0x120000 + 8 * x)

/-- Does island `i` hold shaper `x` (R219, R225, R279)? -/
def shaperExists (i x : Nat) : Bool :=
  if 0x31 ≤ i ∧ i ≤ 0x40 then x < 12384
  else if 0x61 ≤ i ∧ i ≤ 0x68 then x < 4096 || (8192 ≤ x && x < 8196) || x = 12352 || x = 12368
  else (i = 0x5B || i = 0x5C) && x < 256

/-- Is shaper `x` of island `i` a class K shaper? -/
def shaperIsK (i x : Nat) : Bool := i ≠ 0x5B && i ≠ 0x5C && 12368 ≤ x

/-- A shaper's balance, signed, in units of 2^-8 byte. -/
def State.shaperBal (s : State) (i x : Nat) : Int := sgn 48 (s.rf (shaperBalAddr i x) tmShaperBal_BAL)

/-- Set a shaper's balance. -/
def State.setShaperBal (s : State) (i x : Nat) (v : Int) : State :=
  s.setRf (shaperBalAddr i x) tmShaperBal_BAL (v % 2 ^ 48).toNat

/-- A shaper's limit in units of 2^-8 byte. -/
def State.shaperLimit (s : State) (i x : Nat) : Int := (s.rf (shaperCfgAddr i x) tmShaperCfg_BURST * 64 * 256 : Nat)

/-- The refills of `n` boundaries: RATE × 32 units each, up to BURST × 64 bytes (R220). -/
def State.refillShaper (s : State) (i n x : Nat) : State :=
  s.setShaperBal i x (min (s.shaperBal i x + (n * (s.rf (shaperCfgAddr i x) tmShaperCfg_RATE * 32) : Nat)) (s.shaperLimit i x))

/-- Every shaper of an island whose configuration or balance differs from reset, and the class K shapers. -/
def State.liveShapers (s : State) (i : Nat) : List Nat :=
  let base := shaperCfgAddr i 0
  let listed := (s.regs.filter fun e => base ≤ e.1 && e.1 < base + 8 * 12384).map fun e => (e.1 - base) / 8
  let k := if 0x31 ≤ i ∧ i ≤ 0x40 then (List.range 16).map (12368 + ·) else [12368]
  ((listed ++ k).filter (shaperExists i)).eraseDups

/-- The refills of an island's shapers for the 1 µs boundaries that have passed. Whatever reads or changes a balance or
a configuration comes after them, so a refill precedes a decision at the same ICT (R220, R232). -/
def State.refillShapers (s : State) (i : Nat) : State :=
  let n := s.refillsDue i
  if n = 0 then s else ((s.liveShapers i).foldl (fun s x => s.refillShaper i n x) s).markServed i

/-- A write of a shaper's configuration (R222, R223): RATE at most 800,000 and for class K at least 1,000, BURST at least
1; a positive balance above a new limit falls to it. -/
def State.shaperCfgSet (s : State) (i x v : Nat) : State :=
  if !shaperExists i x then s else
    let s := s.refillShapers i
    let rate := min (fld v 0 20) 800000
    let rate := if shaperIsK i x then max rate 1000 else rate
    let burst := max (fld v 32 24) 1
    let s := s.wrN (shaperCfgAddr i x) 2 (rate + 2 ^ 20 * fld v 20 1 + 2 ^ 32 * burst)
    if s.shaperLimit i x < s.shaperBal i x then s.setShaperBal i x (s.shaperLimit i x) else s

/-- Does shaper `x` admit a frame (R221)? -/
def State.shaperOpen (s : State) (i x : Nat) : Bool :=
  s.rf (shaperCfgAddr i x) tmShaperCfg_EN = 0 || decide (0 ≤ s.shaperBal i x)

/-- Charge `lc` bytes to shaper `x` if it is enabled (R221). -/
def State.chargeShaper (s : State) (i lc x : Nat) : State :=
  if s.rf (shaperCfgAddr i x) tmShaperCfg_EN = 0 then s
  else s.setShaperBal i x (s.shaperBal i x - (lc * 256 : Nat))

/-- SHAPER_REFILL: the boundaries of 1 µs in an island (R220, R279). -/
def execShaperRefill (island : Fin 256) (s : State) : Out :=
  if s.stopped then .next s else .next (s.refillShapers island.val)

/-- SHAPER_CFG_WRITE. -/
def execShaperCfgWrite (island : Fin 256) (x : Fin 12384) (v : W64) (s : State) : Out :=
  .next (s.rowWrite (shaperCfgAddr island.val x.val) 8 v.toNat fun s => s.shaperCfgSet island.val x.val v.toNat)

/-! ### Queue configuration (R217, R223) -/

/-- The owner that port index `j` of a scheduler's island stands for. -/
def ownerAt (island j : Nat) : Option Nat :=
  if 0x31 ≤ island ∧ island ≤ 0x40 then some (2 * (island - 0x31) + j)
  else if 0x61 ≤ island ∧ island ≤ 0x68 ∧ j = 0 then some (32 + (island - 0x61)) else none

/-- A write of bytes 0–7 of TM.QUEUE_CFG: a new WEIGHT takes effect at the next decision (R217). -/
def State.queueCfgSet (s : State) (owner q v : Nat) : State :=
  let a := qCfgAddr owner q
  let old := s.rf a tmQueueCfg_WEIGHT
  let s := s.wrN a 2 (setFld v 31 1 0)
  let qn := qWeighted owner q
  let x := s.outQ qn
  if old ≠ fld v 0 16 ∧ x.active then s.setOutQ qn { x with retag := true } else s

/-- QUEUE_WEIGHT_WRITE. -/
def execQueueWeightWrite (island : Fin 256) (j : Fin 2) (q : Fin 4096) (w : BitVec 16) (s : State) : Out :=
  .next (match ownerAt island.val j.val with
    | some o =>
      let a := qCfgAddr o q.val
      let v := setFld (s.rdN a 2) 0 16 w.toNat
      s.rowWrite a 8 v fun s => s.queueCfgSet o q.val v
    | none => s)

/-! ### Selection (R212 to R216) -/

/-- The shapers on a data frame's path under SHP (R219, R225). -/
def shaperPath (owner k q : Nat) (f : Frame) : List Nat :=
  let j := tmJ owner
  let queue := if q < 4096 then 4096 * j + q else 8192 + 32 * j + (q - 4096)
  let sub := 12352 + 8 * j + k
  if owner < 32 then [queue, 8256 + f.gf sfInstance, sub] else [queue, sub]

/-- Is SHP set in the satchel's SVC: is the frame charged to its shapers at dequeue (R213, R214)? -/
def Frame.shaped (f : Frame) : Bool := bit (f.gf sfSvc) 4

/-- Is SHP, at departure position 0, still to be performed (R50)? The ingest islands step it so (R279). -/
def Frame.shpDue (f : Frame) : Bool := f.wants 4 && f.gf sfPos = 0

/-- Is the class K shaper of the sub-port open? -/
def State.kOpen (s : State) (owner k : Nat) : Bool := s.shaperOpen (tmIsland owner) (12368 + 8 * tmJ owner + k)

/-- Is the head of a strict or weighted queue eligible (R213)? -/
def State.headEligible (s : State) (owner k q : Nat) : Bool :=
  match (s.outQ (owner * 8192 + q)).chip with
  | [] => false
  | e :: _ =>
    let f := s.frame e.fid
    !(decide (owner < 32) && s.paused owner k (f.gf sfTc)) &&
      (!f.shaped || (shaperPath owner k q f).all (s.shaperOpen (tmIsland owner))) &&
      (4096 ≤ q || s.rf (qCfgAddr owner q) tmQueueCfg_WEIGHT ≠ 0)

/-- The eligible weighted queue with the smallest finish tag; equal tags go to the lowest number (R212). -/
def State.bestWeighted (s : State) (owner k : Nat) : Option Nat :=
  let pool := s.outQs.filter fun e => owner * 8192 ≤ e.1 && e.1 < owner * 8192 + 4096
    && (32 ≤ owner || s.qSub owner (e.1 % 8192) = k) && s.headEligible owner k (e.1 % 8192)
  (pool.foldl (fun (b : Option (Nat × Nat)) e => match b with
    | none => some (e.1, e.2.f)
    | some (q, f) => if tagBefore e.2.f f then some (e.1, e.2.f) else some (q, f)) none).map (·.1)

/-- The first eligible candidate in the order of R212. -/
def State.pickHead (s : State) (owner k : Nat) : Option Nat :=
  if !(s.outQ (qClassK owner k)).chip.isEmpty && s.kOpen owner k then some (qClassK owner k)
  else match (List.range 4).find? fun l => s.headEligible owner k (4096 + 4 * k + l) with
    | some l => some (qStrict owner k l)
    | none => s.bestWeighted owner k

/-- A WEIGHT written since the last decision: the heads' finish tags are recomputed, unless WEIGHT is zero (R217). -/
def State.retagQueues (s : State) (owner k : Nat) : State :=
  s.outQs.foldl (fun s e =>
    if e.2.retag && decide (owner * 8192 ≤ e.1 ∧ e.1 < owner * 8192 + 4096)
        && (32 ≤ owner || s.qSub owner (e.1 % 8192) = k) && s.rf (qCfgAddr owner (e.1 % 8192)) tmQueueCfg_WEIGHT ≠ 0 then
      (s.setOutQ e.1 { e.2 with retag := false }).retagHead e.1
    else s) s

/-- Take the head off a queue. -/
def State.popHead (s : State) (qn : Nat) : State :=
  let x := s.outQ qn
  s.setOutQ qn ({ x with chip := x.chip.tail } : OutQ).settle

/-- The virtual time of a weighted group moves with the selection of a queue with finish tag `f` (R216). -/
def State.chargeVtime (s : State) (owner k qn f : Nat) : State :=
  let v := s.rf (vtimeAddr owner k) tmVtime_V
  let s := if tagBefore v f then s.setRf (vtimeAddr owner k) tmVtime_V f else s
  (s.setOutQ qn { s.outQ qn with s := f }).retagHead qn

/-- What a selected head is discarded for, in the order of R214: age, a stalled class, the fence. -/
def State.dropSelected (s : State) (owner k mem : Nat) (fid : Nat) : Option State :=
  let f := s.frame fid
  if s.expired f mem then some ((s.fabCount 7).discard fid)
  else if owner < 32 && f.gf sfK = 0 && s.stalled owner k (f.gf sfTc) then
    some ((s.pCount owner k (20 + f.gf sfTc)).discard fid)
  else match s.fence f with
    | some r => some ((s.countExc r).discard fid)
    | none => none

/-- A surviving head leaves its queue: counted, SHP performed with its charges if it is set, virtual time charged (R214, R219, R221). -/
def State.dequeue (s : State) (owner k qn fid : Nat) : State :=
  let f := s.frame fid
  let isl := tmIsland owner
  let lc := chargedLen f.len (s.rf (subCfgAddr owner k) tmSubCfg_OVERHEAD)
  let tag := (s.outQ qn).f
  let s := (s.popHead qn).count (tmCntAddr owner k 0)
  let s := s.count (tmCntAddr owner k 1) f.len
  let s := if qIsK qn then s.count (tmCntAddr owner k 5) else s
  let path := if qIsK qn then [12368 + 8 * tmJ owner + k] else shaperPath owner k (qn % 8192) f
  let s := if f.shaped then path.foldl (fun s x => s.chargeShaper isl lc x) s else s
  let s := if f.shaped then s.modFrame fid fun f => f.setDone 4 else s
  let s := if qn % 8192 < 4096 then s.chargeVtime owner k qn tag else s
  (s.freePlaces fid).uncharge fid

/-- One decision of a scheduler: the frame dequeued, if any (R212, R214, R225). -/
def State.decideLoop : Nat → Nat → Nat → State → State × Option Nat
  | 0, _, _, s => (s, none)
  | fuel + 1, owner, k, s =>
    match s.pickHead owner k with
    | none => (s, none)
    | some qn =>
      match (s.outQ qn).chip with
      | [] => (s, none)
      | e :: _ =>
        match s.dropSelected owner k e.mem e.fid with
        | some s => decideLoop fuel owner k (((s.popHead qn).retagHead qn).updateSpilling e.mem)
        | none => ((s.dequeue owner k qn e.fid).updateSpilling e.mem, some e.fid)

/-- One decision. -/
def State.schedule (s : State) (owner k : Nat) : State × Option Nat :=
  let s := (s.refillShapers (tmIsland owner)).retagQueues owner k
  s.decideLoop (s.frames.length + 1) owner k

/-- TM.QUEUE_STATE as read (R218, R223). -/
def State.queueStateWord (s : State) (owner q : Nat) : Nat :=
  let x := s.outQ (qWeighted owner q)
  x.bytes % 2 ^ 32 + 2 ^ 32 * b2n x.active + 2 ^ 33 * b2n x.spill

/-! ### Policers (R226 to R231) -/

/-- Does island `i` hold a policer bank (R226)? -/
def polBank (i : Nat) : Bool := (0x21 ≤ i && i ≤ 0x30) || i = 0x41 || (0x61 ≤ i && i ≤ 0x68)
/-- POL.CFG of policer `n` in an island. -/
def polCfgAddr (i n : Nat) : Nat := ctlAddr i (0x60000 + 16 * n)
/-- POL.CNT of policer `n`. -/
def polCntAddr (i n c : Nat) : Nat := ctlAddr i (0x80000 + 32 * n + 8 * c)

/-- The buckets of a policer. -/
def State.pol (s : State) (i n : Nat) : PolBal := Tab.get {} s.polBal (4096 * i + n)
/-- Set the buckets of a policer. -/
def State.setPol (s : State) (i n : Nat) (b : PolBal) : State := { s with polBal := Tab.set {} s.polBal (4096 * i + n) b }

/-- The limits CBS and EBS in units of 2^-8 byte. -/
def State.polLimits (s : State) (i n : Nat) : Nat × Nat :=
  (s.rf (polCfgAddr i n) polCfgI_CBS * 16384, s.rf (polCfgAddr i n) polCfgI_EBS * 16384)

/-- The refills of a policer's buckets for `m` boundaries (R227, R230). -/
def State.refillPol (s : State) (i m n : Nat) : State :=
  let a := polCfgAddr i n
  let b := s.pol i n
  let l := s.polLimits i n
  let cir := s.rf a polCfgI_CIR
  let c := b.c + m * (cir * 32)
  if s.rf a polCfgI_MODE = 0 then
    s.setPol i n ⟨min c l.1, if l.1 < c then min (b.e + (c - l.1)) l.2 else b.e⟩
  else s.setPol i n ⟨min c l.1, min (b.e + m * (max cir (s.rf a polCfgI_PIR) * 32)) l.2⟩

/-- The refills of an island's policers for the 1 µs boundaries that have passed; metering, configuration and reads come
after them (R227). -/
def State.refillPolicers (s : State) (i : Nat) : State :=
  let m := s.refillsDue (256 + i)
  if m = 0 ∨ !polBank i then s else
    let base := polCfgAddr i 0
    let ns := ((s.regs.filter fun e => base ≤ e.1 && e.1 < base + 0x10000).map fun e => (e.1 - base) / 16).eraseDups
    (ns.foldl (fun s n => s.refillPol i m n) s).markServed (256 + i)

/-- POLICER_REFILL. -/
def execPolicerRefill (island : Fin 256) (s : State) : Out :=
  if s.stopped then .next s else .next (s.refillPolicers island.val)

/-- A whole write of POL.CFG (R230, R231): OVERHEAD at least −64, CBS at least 1; a bucket above its limit is reduced. -/
def State.polCfgSet (s : State) (i n v : Nat) : State :=
  if !polBank i then s else
    let s := s.refillPolicers i
    let ov := if sgn 8 (fld v 44 8) < -64 then 0xC0 else fld v 44 8
    let w := fld v 0 44 + 2 ^ 44 * ov + 2 ^ 64 * max 1 (fld v 64 24) + 2 ^ 88 * fld v 88 24
    let s := s.wrN (polCfgAddr i n) 4 w
    let b := s.pol i n
    let l := s.polLimits i n
    s.setPol i n ⟨min b.c l.1, min b.e l.2⟩

/-- POLICER_CFG_WRITE. -/
def execPolicerCfgWrite (island : Fin 256) (n : Fin 4096) (v : BitVec 128) (s : State) : Out :=
  .next (s.rowWrite (polCfgAddr island.val n.val) 16 v.toNat fun s => s.polCfgSet island.val n.val v.toNat)

/-- POL.BAL as read: both buckets in bytes. -/
def State.polBalWord (s : State) (i n : Nat) : Nat :=
  let b := s.pol i n
  b.c / 256 % 2 ^ 32 + 2 ^ 32 * (b.e / 256 % 2 ^ 32)

/-- The colour out (0 green, 1 yellow, 2 red) and the charges to C and E, in the order of R228. -/
def polColour (mode colour b c e : Nat) : Nat × Bool × Bool :=
  if 2 ≤ colour then (2, false, false)
  else if mode = 0 then
    if colour = 0 && b ≤ c then (0, true, false)
    else if b ≤ e then (1, false, true) else (2, false, false)
  else if e < b then (2, false, false)
  else if colour = 0 && b ≤ c then (0, true, true) else (1, false, true)

/-- POL meters a frame in an island's bank (R227 to R229): the new state, and whether the frame was discarded. -/
def State.police (s : State) (i fid : Nat) : State × Bool :=
  let f := s.frame fid
  let n := s.rf (ctlAddr 0x41 (0x30000 + 16 * f.gf sfFlowClass)) flowClass_POLICER
  let a := polCfgAddr i n
  if s.rf a polCfgI_VALID = 0 then (s, false) else
    let s := s.refillPolicers i
    let b := s.pol i n
    let lc := chargedLen f.len (s.rf a polCfgI_OVERHEAD)
    let colour := if s.rf a polCfgI_AWARE = 0 then 0 else f.gf sfColour
    let r := polColour (s.rf a polCfgI_MODE) colour lc (b.c / 256) (b.e / 256)
    let s := s.setPol i n ⟨if r.2.1 then b.c - 256 * lc else b.c, if r.2.2 then b.e - 256 * lc else b.e⟩
    let s := (s.count (polCntAddr i n r.1)).modFrame fid fun f => f.sf sfColour r.1
    if r.1 = 2 ∧ s.rf a polCfgI_RED_DROP = 1 then ((s.count (polCntAddr i n 3)).discard fid, true) else (s, false)

end Sys2Proof.Machine
end

