-- ==== Sys2Proof/Machine/Services.lean ====
section
/-! DEFINITION. What stepping shares: flow class records and the SVC load, worker groups, spread sets and the reorder
window, mirror copies and header capture, tunnels, the edits of RTE (R38, R45, R46, R51, R166, R167, R177 to R180,
R204 to R207, R454). -/

namespace Sys2Proof.Machine

/-! ### Service orders (R48, R49) -/

/-- The service bit at each position of a phase: 0 arrival, 1 departure. -/
def orderOf (phase pos : Nat) : Nat :=
  (if phase = 0 then [0, 1, 2, 3, 7, 5, 6, 8, 9, 12, 11, 10, 4, 13]
   else [4, 6, 5, 10, 11, 12, 9, 8, 7, 2, 1, 0, 13, 3]).getD pos 14

/-- Count a no-op of service `b` in a phase (R52). -/
def State.noop (s : State) (phase b : Nat) : State :=
  s.count (if phase = 0 then Reg.svcNoopIn b else Reg.svcNoopOut b)

/-! ### Flow classes (R177) -/

/-- The address of a flow class record. -/
def flowClassAddr (f : Nat) : Nat := ctlAddr 0x41 (0x30000 + 16 * f)

/-- SVC of a flow class; zero for a record that is not in use. -/
def State.classSvc (s : State) (f : Nat) : Nat :=
  if s.rf (flowClassAddr f) flowClass_VALID = 1 then s.rf (flowClassAddr f) flowClass_SVC else 0

/-- FLOW_CLASS has been written: SVC is loaded, and each of its bits with DONE clear below POS is counted as a no-op of
the phase (R38, R51). -/
def State.loadSvc (s : State) (fid : Nat) : State :=
  let f := s.frame fid
  let s := s.modFrame fid fun f => f.sf sfSvc (s.classSvc (f.gf sfFlowClass))
  let f := (s.frame fid).sf sfPos (f.gf sfPos)
  let ph := f.gf sfPhase
  (List.range (min 14 (f.gf sfPos))).foldl (fun s p =>
    if f.wants (orderOf ph p) then s.noop ph (orderOf ph p) else s) s

/-- INSTANCE has been written: INST_GEN takes the instance's current generation (R38). -/
def State.loadGen (s : State) (fid : Nat) : State :=
  s.modFrame fid fun f => f.sf sfInstGen (s.inst (f.gf sfInstance)).gen

/-! ### Worker groups (R178) -/

/-- The work queue of a group. -/
def State.groupQ (s : State) (g : Nat) : List Nat := Tab.get [] s.groups g

/-- Replace a group's queue. -/
def State.setGroupQ (s : State) (g : Nat) (q : List Nat) : State := { s with groups := Tab.set [] s.groups g q }

/-- Queue a satchel to a worker group, whose source of type 0x1 then holds (R86): the fence of R39 first, then the
group's LIMIT; a full queue discards it. -/
def State.toGroup (s : State) (g fid : Nat) : State :=
  match s.fence (s.frame fid) with
  | some r => (s.countExc r).discard fid
  | none =>
    let q := s.groupQ g
    if q.length < s.rf (Reg.wgroup g) wgroup_LIMIT then (s.setGroupQ g (q ++ [fid])).raiseSource 1 g
    else (s.count (Reg.wgroupDrop g)).discard fid

/-! ### Spread sets and the reorder window (R179, R180) -/

/-- PIPE.SPREAD of set `k` in ingress pipeline `n`, as one number. -/
def State.spreadSet (s : State) (n k : Nat) : Nat := s.rdN (ctlAddr (0x21 + n) (0x3000 + 0x20 * k)) 8

/-- Sequence number `a` is before `b` within the half-range. -/
def seqBefore (a b : Nat) : Bool := decide (0 < (b + 65536 - a) % 65536 ∧ (b + 65536 - a) % 65536 < 32768)

/-- A frame takes a slot of a window, whose slots stand in the order of their SEQ (R180). -/
def State.takeSlot (s : State) (n fid : Nat) : State :=
  let w := s.window n
  let due := s.ictNs + s.rf (ctlAddr (0x21 + n) 0x80) pipeReorderCfg_WAIT * 1000
  let first := w.slots.takeWhile fun x => !seqBefore ((s.frame fid).gf sfSeq) ((s.frame x.fid).gf sfSeq)
  s.setWindow n { w with slots := first ++ ReorderSlot.mk fid due none :: w.slots.drop first.length }

/-- A GROUP verdict with a target in the encoding of a stage: a worker group, a spread set, or a bad target that drops
the frame (R175, R179, R180). -/
def State.applyGroup (s : State) (n target fid : Nat) : State :=
  if target < 0x100 then s.toGroup target fid
  else if 0x10F < target then (s.pipeCount n 5).discard fid
  else
    let k := target - 0x100
    let v := s.spreadSet n k
    if !bit v 134 then (s.pipeCount n 5).discard fid else
      let count := fld v 128 4 + 1
      let rr := if bit v 132 then false else true
      let last := Tab.get (count - 1) s.spreadLast (16 * n + k)
      let i := if rr then (last + 1) % count else (s.frame fid).gf sfHash * count / 65536
      let s := if rr then { s with spreadLast := Tab.put s.spreadLast (16 * n + k) i } else s
      if bit v 133 then
        let s := s.passOverDue n
        if 4096 ≤ (s.window n).slots.length then (s.pipeCount n 6).discard fid
        else ((s.takeSlot n fid).passOverDue n).toGroup (fld v (8 * i) 8) fid
      else s.toGroup (fld v (8 * i) 8) fid

/-- The frame's slot is released by DISP.CONT: it goes on once every earlier slot has been. -/
def State.markReleased (s : State) (n fid via : Nat) : State :=
  let w := s.window n
  s.setWindow n { w with slots := w.slots.map fun x => if x.fid = fid then { x with released := some via } else x }

/-- The frames that may go on now, in order, each with the endpoint that released it: released slots with none
unreleased before them. -/
def State.takeReleased (s : State) (n : Nat) : State × List (Nat × Nat) :=
  let w := s.window n
  let go := w.slots.takeWhile fun x => x.released.isSome
  (if go.isEmpty then s else s.setWindow n { w with slots := w.slots.drop go.length },
    go.map fun x => (x.fid, x.released.getD epSteward))

/-! ### Mirror copies (R204, R205) -/

/-- OBS makes a mirror copy: it waits for the end of the present command at input `i`. -/
def State.mirrorCopy (s : State) (fid i : Nat) : State :=
  let f := s.frame fid
  let m := f.gf sfMirSession
  let a := Reg.mirror m
  let n := s.rf a mirror_TRUNC_LEN * 64
  let cut := decide (n ≠ 0 ∧ n < f.len)
  let data := if cut then f.data.take n else f.data
  let g := { f with iacc := none, mirror := some (m, data.length) }.setData data
  let g := if cut then g.sf sfTrunc 1 else g
  let g := ((g.sf sfFlowClass (s.rf a mirror_FLOW_CLASS)).sf sfInstance (s.rf a mirror_INSTANCE)).sf sfTc (s.rf a mirror_TC)
  let g := ((g.sf sfQueue (s.rf a mirror_QUEUE)).sf sfDst (s.rf a mirror_DST)).sf sfPhase 1
  let g := { (g.sf sfPos 0) with s := satSetWord (g.sf sfPos 0).s 2 (satWord (g.sf sfPos 0).s 2 % 2 ^ 14 + satWord (g.sf sfPos 0).s 2 / 2 ^ 29 * 2 ^ 29) }
  let g := ((g.sf sfMirEn 0).sf sfCapture 0).sf sfReason 0
  let bad := s.rf a mirror_VALID = 0 || !epIsPort (s.rf a mirror_DST)
    || decide (s.rf a mirror_LIMIT * 4096 < s.mirrorUse m + data.length)
  if bad then s.count (Reg.mirrorCnt m 1) else
    let r := s.newFrame g
    let s := (r.1.loadGen r.2).loadSvc r.2
    { s with copies := s.copies ++ [(r.2, i, fid)] }

/-! ### Header capture (R206, R207) -/

/-- The record that OBS takes, without RSEQ. -/
def State.captureBytes (s : State) (fid : Nat) : List Byte :=
  let f := s.frame fid
  let tod := s.toTod (f.ts * 2 ^ 23)
  leBytes 8 (tod / nsUnit) ++ leBytes 2 (tod % nsUnit / 2 ^ 23 * 0x8000) ++ leBytes 2 f.len
    ++ leBytes 2 (f.gf sfSrc + 1024 * f.gf sfPhase + 2048 * f.gf sfTrunc + 4096 * f.gf sfK)
    ++ leBytes 2 (f.gf sfFlowClass + 1024 * f.gf sfTc)
    ++ leBytes 4 (satWord f.s 0) ++ leBytes 4 (satWord f.s 2) ++ leBytes 4 (satWord f.s 3) ++ leBytes 4 0
    ++ slice f.data 0 96

/-- OBS with CAPTURE: a record, if the token bucket lets it pass; with ENABLE 0 a counted no-op. -/
def State.capture (s : State) (fid : Nat) : State :=
  if s.rf Reg.capCfg capCfg_ENABLE = 0 then s.noop ((s.frame fid).gf sfPhase) 7 else
    let us := s.ictNs / 1000
    let tokens := min 4096 (s.captureTokens + (us - s.captureAt) * s.rf Reg.capCfg capCfg_RATE)
    let s := { s with captureAt := us }
    if tokens = 0 then { s with captureTokens := 0 }.fabCount 13
    else { s with captureTokens := tokens - 1, captureQ := s.captureQ ++ [s.captureBytes fid] }

/-- CAPTURE_RECORD_WRITE: the next record goes into the ring, then PROD advances; a full ring of mode 0 discards it. -/
def execCaptureRecordWrite (s : State) : Out :=
  if s.stopped then .next s else
  .next (match s.captureQ with
    | [] => s
    | r :: rest =>
      let s := { s with captureQ := rest }
      let prod := s.rf Reg.capProd capProd_PROD
      let size := 2 ^ s.rf Reg.capCfg capCfg_LOG2_RECORDS
      if s.rf Reg.capCfg capCfg_ENABLE = 0 then s
      else if s.rf Reg.capCfg capCfg_MODE = 0 ∧ (prod + 2 ^ 32 - s.rf Reg.capCons capCons_CONS) % 2 ^ 32 = size then s.fabCount 12
      else
        let s := s.stBytes (s.rf Reg.capBase capBase_BASE + prod % size * 128) (splice r 0x1C (leBytes 4 prod))
        (s.setRf Reg.capProd capProd_PROD (prod + 1)).fabCount 11)

/-- OBS acts: the copy and the record (R53). -/
def State.observe (s : State) (fid i : Nat) : State :=
  let f := s.frame fid
  let s := if f.gf sfMirEn = 1 then s.mirrorCopy fid i else s
  if f.gf sfCapture = 1 then s.capture fid else s

/-- The first device address of Coolbox unit `u` of 256 MiB (R198). -/
def coolUnit (u : Nat) : Nat := 0x100000000 + u * 0x10000000

/-- A write of FAB.CB_REGION (R198). -/
def State.cbRegionSet (s : State) (r v : Nat) : State :=
  let base := fld v 0 9; let size := fld v 16 9
  let locked := decide (384 < base + size)
    || ([0, 1, 2].any fun q => q ≠ r && (let b := s.rf (Reg.cbRegion q) cbRegion_BASE; let n := s.rf (Reg.cbRegion q) cbRegion_SIZE;
        decide (n ≠ 0 ∧ size ≠ 0 ∧ base < b + n ∧ b < base + size)))
    || (r = 0 && s.outQs.any fun e => e.2.spill)
    || (r = 2 && s.rf Reg.capCfg capCfg_ENABLE = 1)
  if locked then s.fabCount 15 else s.wr (Reg.cbRegion r) (BitVec.ofNat 32 (base + 65536 * size))

/-- CB_REGION_WRITE. -/
def execCbRegionWrite (r : Fin 3) (v : W32) (s : State) : Out := 
  .next (s.rowWrite (Reg.cbRegion r.val) 4 v.toNat fun s => s.cbRegionSet r.val v.toNat)

/-- Does the capture ring lie inside its region, aligned to its own size (R207)? -/
def State.captureRingOk (s : State) (log2 : Nat) : Bool :=
  let base := s.rf Reg.capBase capBase_BASE
  let size := 128 * 2 ^ log2
  let lo := coolUnit (s.rf (Reg.cbRegion 2) cbRegion_BASE)
  let hi := coolUnit (s.rf (Reg.cbRegion 2) cbRegion_BASE + s.rf (Reg.cbRegion 2) cbRegion_SIZE)
  decide (base % size = 0 ∧ lo ≤ base ∧ base + size ≤ hi)

/-- A write of FAB.CAP_CFG (R207): LOG2_RECORDS only while ENABLE is 0, a reserved value ignores the write, a start
with the ring outside its region is ignored; ENABLE from 0 to 1 zeroes PROD and CONS. -/
def State.capCfgSet (s : State) (v : Nat) : State :=
  let on := s.rf Reg.capCfg capCfg_ENABLE
  let log := fld v 2 5
  let rate := max 1 (min 4000 (fld v 7 12))
  let put := fun (s : State) (en l : Nat) => s.wr Reg.capCfg (BitVec.ofNat 32 (en + 2 * fld v 1 1 + 4 * l + 128 * rate))
  if log < 10 ∨ 28 < log then s
  else if on = 1 then put s (fld v 0 1) (s.rf Reg.capCfg capCfg_LOG2_RECORDS)
  else if fld v 0 1 = 1 then
    if s.captureRingOk log then ((put s 1 log).setRf Reg.capProd capProd_PROD 0).setRf Reg.capCons capCons_CONS 0 else s
  else put s 0 log

/-- CAPTURE_ENABLE: a write of 1 to ENABLE with the other fields as they stand. -/
def execCaptureEnable (s : State) : Out := 
  let v := setFld (s.rd Reg.capCfg).toNat 0 1 1
  .next (s.rowWrite Reg.capCfg 4 v fun s => s.capCfgSet v)

/-! ### Routing and bridging (R166, R167) -/

/-- The first nibble of the byte at OFF_L3: 4 or 6 for an IP header, else 0. -/
def Frame.ipVersion (f : Frame) : Nat :=
  let o := f.gf sfOffL3
  if o = 0xFF ∨ f.data.length ≤ o then 0 else
    let n := (f.data.getD o 0).toNat / 16
    if n = 4 ∨ n = 6 then n else 0

/-- The offset of the TTL or hop limit. -/
def Frame.ttlAt (f : Frame) : Nat := f.gf sfOffL3 + (if f.ipVersion = 4 then 8 else 7)

/-- DST, QUEUE and NEXTHOP from g12 or g13 (R165). -/
def Frame.takeRoute (f : Frame) (g : Nat) : Frame :=
  ((f.sf sfDst (fld g 1 10)).sf sfQueue (fld g 11 12)).sf sfNextHop (fld g 23 16)

/-- RTE in an egress pipeline: a non-zero TTL or hop limit falls by one, and the IPv4 header checksum follows (R167). -/
def Frame.decTtl (f : Frame) : Frame :=
  let v := f.ipVersion
  let a := f.ttlAt
  let t := (f.data.getD a 0).toNat
  if v = 0 ∨ t = 0 ∨ f.data.length ≤ a then f else
    let d := splice f.data a [BitVec.ofNat 8 (t - 1)]
    if v = 4 then
      let c := f.gf sfOffL3 + 10
      let x := 65535 - beNat (slice f.data c 2) + 0xFEFF
      let x := x % 65536 + x / 65536
      { f with data := splice d c (beBytes 2 (65535 - x)) }
    else { f with data := d }

/-! ### Tunnels (R43, R45, R46, R166, R454) -/

/-- A received subset meets the accepted generations: EXT_MASK, the words s12–s15 and FMT_GEN, or none where MU forbids
it (R43). -/
def State.acceptExt (s : State) (gen mask mu : Nat) (ext : List Nat) (f : Frame) : Option Frame :=
  if s.rf Reg.fmtGen fmtGen_GMIN ≤ gen ∧ gen ≤ s.rf Reg.fmtGen fmtGen_GMAX then
    let f := (f.sf sfExtMask mask).sf sfFmtGen gen
    some { f with s := (List.range 4).foldl (fun v i => satSetWord v (12 + i) (ext.getD i 0)) f.s }
  else if mu = 0 then
    let f := (f.sf sfExtMask 0).sf sfFmtGen (s.rf Reg.fmtGen fmtGen_CUR)
    some { f with s := (List.range 4).foldl (fun v i => satSetWord v (12 + i) 0) f.s }
  else none

/-- The words of the set bits of a mask, in ascending order, from packed words. -/
def unpackExt (mask : Nat) : List Nat → List Nat → List Nat
  | [], _ => []
  | i :: is, ws => if bit mask i then ws.headD 0 :: unpackExt mask is ws.tail else 0 :: unpackExt mask is ws

/-- The options of a Geneve header: (offset, class, type byte, length in words), up to the end of the options. -/
def geneveOpts : Nat → List Byte → Nat → Nat → List (Nat × Nat × Nat × Nat)
  | 0, _, _, _ => []
  | fuel + 1, d, o, left =>
    if left < 4 then [] else
      let cls := beNat (slice d o 2)
      let ty := (d.getD (o + 2) 0).toNat
      let n := (d.getD (o + 3) 0).toNat % 32
      (o, cls, ty, n) :: geneveOpts fuel d (o + 4 + 4 * n) (left - 4 - 4 * n)

/-- A reason that raises, or the frame as it goes on, each with the state. -/
abbrev Stepped := Except (Nat × State) (State × Frame)

/-- The satchel option among the bytes to be removed (R46): the first one is accepted under R43, the others counted as
malformed options of pipeline `n`; a bad Length, which is also one that runs past the options, raises PARSE_MALFORMED.
The Geneve base header begins at `o`. -/
def State.takeOption (s : State) (n : Option Nat) (f : Frame) (o trusted decap : Nat) : Stepped :=
  let len := 4 * ((f.data.getD o 0).toNat % 64)
  let left := min len (decap - (o + 8))
  let fin := o + 8 + left
  let opts := geneveOpts 64 f.data (o + 8) left
  let mine := opts.filter fun x => x.2.1 = s.rf Reg.geneveOpt geneveOpt_CLASS && x.2.2.1 % 128 = s.rf Reg.geneveOpt geneveOpt_TYPE
  match mine with
  | [] => .ok (s, f)
  | (o, _, ty, n4) :: rest =>
    let s := match n with
      | some n => s.pipeCount n 8 rest.length
      | none => s
    let a := beNat (slice f.data (o + 4) 4)
    let mask := fld a 20 4
    if n4 < 2 ∨ n4 ≠ 2 + popcount 4 mask ∨ fin < o + 4 + 4 * n4 then .error (0x02, s) else
      let ws := (List.range 4).map fun i => beNat (slice f.data (o + 12 + 4 * i) 4)
      match s.acceptExt (fld a 24 8) mask (ty / 128) (unpackExt mask [0, 1, 2, 3] ws) f with
      | none => .error (0x11, s)
      | some f => .ok (s, if trusted = 1 then (f.sf sfTc (fld a 7 3)).sf sfColour (fld a 5 2) else f)

/-- A tunnel profile's field. -/
def State.tun (s : State) (f : Frame) (x : Fld) : Nat := s.rf (Reg.tunProfile (f.gf sfTunIdx)) x

/-- TUN at arrival (R166): the bytes that g14 names are removed from the front, after recognising the option. The Geneve
header is taken to follow the UDP header at OFF_L4. -/
def State.decap (s : State) (pipe : Option Nat) (g14 : Nat) (f : Frame) : Stepped :=
  let n := fld g14 0 8
  if !bit g14 32 then .error (0x0F, s)
  else if s.tun f tunProfile_VALID = 0 then .error (0x10, s)
  else if n = 0 ∨ f.len ≤ n then .error (0x02, s)
  else
    let l4 := f.gf sfOffL4
    let r := if s.tun f tunProfile_KIND = 1 ∧ s.tun f tunProfile_OPT_EN = 1 ∧ l4 ≠ 0xFF
      then s.takeOption pipe f (l4 + 8) (s.tun f tunProfile_TRUSTED) n else .ok (s, f)
    match r with
    | .error e => .error e
    | .ok (s, f) =>
      let f := (f.setData (f.data.drop n)).moveOffs (-(n : Int))
      .ok (s, f.sf sfVni (fld g14 8 24))

/-- The satchel option of R45. -/
def State.satOption (s : State) (f : Frame) : List Byte :=
  let mask := f.gf sfExtMask
  let a := f.gf sfFmtGen * 2 ^ 24 + mask * 2 ^ 20 + f.gf sfFlowClass * 2 ^ 10 + f.gf sfTc * 128 + f.gf sfColour * 32
  let b := f.gf sfSvc * 2 ^ 18 + f.gf sfSeq * 4
  beBytes 2 (s.rf Reg.geneveOpt geneveOpt_CLASS) ++ [BitVec.ofNat 8 (128 * f.gf sfMu + s.rf Reg.geneveOpt geneveOpt_TYPE)]
    ++ [BitVec.ofNat 8 (2 + popcount 4 mask)] ++ beBytes 4 a ++ beBytes 4 b
    ++ (List.range 4).flatMap fun i => if bit mask i then beBytes 4 (satWord f.s (12 + i)) else []

/-- The template of a tunnel profile. -/
def State.tunTemplate (s : State) (t n : Nat) : List Byte :=
  ((List.range 32).flatMap fun w => leBytes 4 (s.rd (Reg.tunTemplate t w)).toNat).take n

/-- TUN at departure (R454): what it prepends, or the reason it raises. -/
def State.encap (s : State) (f : Frame) : Except Nat Frame :=
  let n := s.tun f tunProfile_TEMPLATE_LEN
  let l3 := s.tun f tunProfile_L3_OFF
  let l4 := s.tun f tunProfile_L4_OFF
  if s.tun f tunProfile_VALID = 0 ∨ n < l4 + 16 then .error 0x10 else
    let tpl := s.tunTemplate (f.gf sfTunIdx) n
    let opt := if s.tun f tunProfile_KIND = 1 ∧ s.tun f tunProfile_OPT_EN = 1 then s.satOption f else []
    let base := l4 + 8
    let tpl := splice tpl (base + 4) (beBytes 3 (f.gf sfVni))
    let tpl := if opt.isEmpty then tpl else
      splice tpl base [BitVec.ofNat 8 ((tpl.getD base 0).toNat / 64 * 64 + opt.length / 4)]
    let hdr := tpl.take (base + 8) ++ opt ++ tpl.drop (base + 8)
    let all := hdr ++ f.data
    if 65535 < all.length then .error 0x20 else
      let v6 := s.tun f tunProfile_IPV6 = 1
      let all := splice all (l4) (beBytes 2 (0xC000 + f.gf sfHash % 2 ^ 14))
      let ulen := all.length - l4
      let all := splice all (l4 + 4) (beBytes 2 ulen ++ [0, 0])
      let all := if v6 then
          let all := splice all (l3 + 4) (beBytes 2 (all.length - l3 - 40))
          let ph := slice all (l3 + 8) 32 ++ beBytes 4 ulen ++ [0, 0, 0, 17]
          let c := inetSum (ph ++ all.drop l4)
          splice all (l4 + 6) (beBytes 2 (if c = 0 then 0xFFFF else c))
        else
          let all := splice all (l3 + 2) (beBytes 2 (all.length - l3))
          let ihl := 4 * ((all.getD l3 0).toNat % 16)
          let all := splice all (l3 + 10) [0, 0]
          splice all (l3 + 10) (beBytes 2 (inetSum (slice all l3 ihl)))
      let d : Int := (hdr.length : Nat)
      let il3 := moveOff (f.gf sfOffL3) d
      let il4 := moveOff (f.gf sfOffL4) d
      .ok (((((f.setData all).sf sfOffIl3 il3).sf sfOffIl4 il4).sf sfOffL3 l3).sf sfOffL4 l4)

end Sys2Proof.Machine
end

