-- ==== Sys2Proof/Machine/RingOps.lean ====
section
/-! DEFINITION. Rings: publications, interrupt sources, transmit chains, host delivery and doorbells (R325 to R347). -/

namespace Sys2Proof.Machine

/-- The key of queue pair `loc` of an instance. -/
def qpKey (inst loc : Nat) : Nat := inst * 256 + loc
/-- A queue pair. -/
def State.qp (s : State) (k : Nat) : Option QPair := Tab.find s.qps k
/-- Replace a queue pair. -/
def State.setQp (s : State) (k : Nat) (q : QPair) : State := { s with qps := Tab.put s.qps k q }
/-- The host link of a queue pair's instance. -/
def State.qpLink (s : State) (k : Nat) : Nat := (s.inst (k / 256)).link
/-- The PASID of a queue pair's instance. -/
def State.qpPasid (s : State) (k : Nat) : Nat := (s.inst (k / 256)).pasid

/-- Ring 0 transmit, 1 buffer, 2 completion. -/
def QPair.ring (q : QPair) (r : Nat) : Ring := if r = 0 then q.tx else if r = 1 then q.buf else q.cpl
/-- Replace a ring. -/
def QPair.setRing (q : QPair) (r : Nat) (x : Ring) : QPair :=
  if r = 0 then { q with tx := x } else if r = 1 then { q with buf := x } else { q with cpl := x }
/-- The entry size of a ring (R325). -/
def ringEntry (r : Nat) : Nat := if r = 1 then 16 else 32
/-- The difference of two indices. -/
def idxSub (a b : Nat) : Nat := (a + 32768 - b % 32768) % 32768
/-- The address of entry `x` of a ring. -/
def QPair.entry (q : QPair) (r x : Nat) : Nat := (q.ring r).base + ringEntry r * (x % 2 ^ (q.ring r).log2)

/-! ### Interrupt sources (R346, R347) -/

/-- Send the interrupt of source `src` (2 × local number + 0 transmit, 1 completion) of an instance. -/
def State.sendSource (s : State) (i src : Nat) : State :=
  match s.qp (qpKey i (src / 2)) with
  | none => s
  | some q =>
    match (q.ring (if src % 2 = 0 then 0 else 2)).src with
    | none => s
    | some x => if x.store then s.fireStore (s.inst i).link x.entry else s.fireMsix1 (s.inst i).link x.entry

/-- The tokens of the 1 µs boundaries that have passed, then held firings in ascending order of source, one per token
(R347). -/
def State.refillIntr (s : State) (i : Nat) : State :=
  let x := s.inst i
  if x.intrRate = 0 then s else
    let n := s.micros - x.served
    let s := s.setInst i { x with tokens := min (x.tokens + n * x.intrRate) (x.intrBurst * 1000), served := s.micros }
    (x.held.mergeSort).foldl (fun s src =>
      let y := s.inst i
      if 1000 ≤ y.tokens then (s.setInst i { y with tokens := y.tokens - 1000, held := y.held.erase src }).sendSource i src
      else s) s

/-- A firing passes the instance's bucket, refilled first, or is held (R347). -/
def State.fireSource (s : State) (i src : Nat) : State :=
  if (s.inst i).intrRate = 0 then s.sendSource i src
  else
    let s := s.refillIntr i
    let x := s.inst i
    if x.held.contains src then s
    else if 1000 ≤ x.tokens then (s.setInst i { x with tokens := x.tokens - 1000 }).sendSource i src
    else s.setInst i { x with held := x.held ++ [src], intrHeld := (x.intrHeld + 1) % 2 ^ 32 }

/-- An armed source with unsignalled events fires after MOD_COUNT of them or MOD_TIME after the first (R346). -/
def State.fireIf (s : State) (k r : Nat) : State :=
  match s.qp k with
  | none => s
  | some q =>
    match (q.ring r).src with
    | none => s
    | some x =>
      let due := match x.till with
        | some t => decide (t ≤ s.ictNs)
        | none => false
      if x.armed && x.events ≠ 0 && (decide (x.modCount ≤ x.events) || due) then
        let y := { x with events := 0, till := none, armed := x.autoArm }
        (s.setQp k (q.setRing r { q.ring r with src := some y })).fireSource (k / 256) (2 * (k % 256) + (if r = 0 then 0 else 1))
      else s

/-- A publication that advances HEAD is an event of the ring's source. -/
def State.ringEvent (s : State) (k r : Nat) : State :=
  match s.qp k with
  | none => s
  | some q =>
    match (q.ring r).src with
    | none => s
    | some x =>
      let y := { x with events := x.events + 1, till := some (x.till.getD (s.ictNs + x.modTime * 1000)) }
      (s.setQp k (q.setRing r { q.ring r with src := some y })).fireIf k r

/-- A doorbell with ARM re-arms the source of its ring. -/
def State.armRing (s : State) (k r : Nat) : State :=
  match s.qp k with
  | none => s
  | some q =>
    match (q.ring r).src with
    | none => s
    | some x => (s.setQp k (q.setRing r { q.ring r with src := some { x with armed := true } })).fireIf k r

/-! ### Publication (R327, R328) -/

/-- Write HEAD, STATE, REASON, DROPS and TOD into a ring control block; nothing where PF1 cannot issue the write. HEAD of a
work ring is the one firmware last published (R340). -/
def State.publish (s : State) (k r : Nat) : State :=
  match s.qp k with
  | none => s
  | some q =>
    let h := s.qpLink k
    let x := q.ring r
    if !s.canIssue h 1 (s.qpPasid k) then s else
      let bs := leBytes 2 x.done ++ leBytes 1 q.st ++ leBytes 1 q.reason ++ leBytes 4 (if r = 2 then q.drops else 0)
        ++ leBytes 8 (s.clock.tod / nsUnit)
      let s := s.hostWrite h 1 (s.qpPasid k) false (q.cb + 64 * r + 0x20) bs
      let s := s.setQp k (q.setRing r { x with pub := x.done })
      if x.done ≠ x.pub then s.ringEvent k r else s

/-- Publish all three control blocks, completion before buffer ring. -/
def State.publishAll (s : State) (k : Nat) : State := ((s.publish k 0).publish k 2).publish k 1

/-- The device publishes a ring's HEAD: the buffer ring's after the completion ring's (R328); a work ring's is firmware's
to publish (R340). -/
def State.headPublish (s : State) (k r : Nat) : State :=
  match s.qp k with
  | none => s
  | some q =>
    if r = 0 ∧ q.work then s
    else if r = 1 ∧ q.cpl.done ≠ q.cpl.pub then (s.publish k 2).publish k 1
    else s.publish k r

/-- HEAD_PUBLISH. -/
def execHeadPublish (inst : Fin 4096) (loc : Fin 256) (ring : Fin 3) (s : State) : Out :=
  if s.stopped then .next s else
  .next (s.headPublish (qpKey inst.val loc.val) ring.val)

/-- Bytes that firmware writes to host memory through PF1 of link `h` with a PASID: where they cover HEAD of the transmit
control block of a work ring, they publish that HEAD, and an advance is an event of the ring (R340, R346). -/
def State.watchHead (s : State) (h pasid a : Nat) (bs : List Byte) : State :=
  s.qps.foldl (fun s e =>
    let x := e.2.cb + 0x20
    if e.2.work ∧ s.qpLink e.1 = h ∧ s.qpPasid e.1 = pasid ∧ a ≤ x ∧ x + 2 ≤ a + bs.length then
      match s.qp e.1 with
      | none => s
      | some q =>
        let n := leNat (slice bs (x - a) 2) % 32768
        let t := s.setQp e.1 { q with tx := { q.tx with done := n, next := n, pub := n } }
        if n ≠ q.tx.pub then t.ringEvent e.1 0 else t
    else s) s

/-- MOD_TIME_EXPIRE. -/
def execModTimeExpire (inst : Fin 4096) (loc : Fin 256) (ring : Fin 3) (s : State) : Out :=
  if s.stopped then .next s else
  .next (s.fireIf (qpKey inst.val loc.val) ring.val)
/-- INTR_RATE_REFILL. -/
def execIntrRateRefill (inst : Fin 4096) (s : State) : Out :=
  if s.stopped then .next s else
  .next (s.refillIntr inst.val)

/-! ### Stops (R329) -/

/-- Forget the reads of host memory that a queue pair waits for: their data is dropped when it comes. -/
def State.cancelReads (s : State) (k : Nat) : State :=
  { s with xfers := s.xfers.filter fun e =>
      !(decide ((e.2.kind = .txDesc ∨ e.2.kind = .txData ∨ e.2.kind = .bufDesc) ∧ e.2.key = k)
        || decide (e.2.kind = .ctrlBlock ∧ e.2.key / 4 = k)) }

/-- The delivery at the head of a queue pair ends without entries: the completion entries reserved for it and the buffers
it took go back to their rings. -/
def QPair.unreserve (q : QPair) : QPair :=
  { q with cpl := { q.cpl with next := q.cpl.done }, buf := { q.buf with next := q.buf.done } }

/-- Drop every delivery of a queue pair without entries: fenced frames are counted by the fence, others in DROPS. -/
def State.dropDeliveries (s : State) (k : Nat) : State :=
  match s.qp k with
  | none => s
  | some q =>
    let s := s.setQp k { q.unreserve with deliv := [] }
    q.deliv.foldl (fun s d =>
      match s.fence (s.frame d.fid) with
      | some r => (s.countExc r).discard d.fid
      | none =>
        match s.qp k with
        | some q => (s.setQp k { q with drops := (q.drops + 1) % 2 ^ 32 }).discard d.fid
        | none => s.discard d.fid) s

/-- The open transmit chain is discarded, and the ring goes back to its first descriptor; a chain that has been read
whole stays to be attached (R339). -/
def QPair.closeChain (q : QPair) : QPair :=
  if q.ready then q else { q with tx := { q.tx with next := q.tx.done }, chain := [], data := [], busy := false, ready := false }

/-- A queue pair stops with a reason; one that is DISABLED does so only where every queue stops, with reason BME or LOST
(R312, R354); outstanding descriptor and buffer reads are forgotten; `drop`: deliveries are
dropped without entries. -/
def State.qpStop (s : State) (k reason : Nat) (drop : Bool) : State :=
  match s.qp k with
  | none => s
  | some q =>
    if q.st = 0 ∧ reason ≠ 2 ∧ reason ≠ 7 then s else
      let s := s.setQp k { q.closeChain with st := 2, reason := reason, drainTail := none }
      let s := if drop then (s.cancelReads k).dropDeliveries k
        else { s with xfers := s.xfers.filter fun e => !decide ((e.2.kind = .txDesc ∨ e.2.kind = .txData) ∧ e.2.key = k) }
      s.publishAll k

/-- A failed access of a queue pair: it stops with HOST_ERR; one that has stopped already keeps its reason and drops what
it was delivering. -/
def State.qpHostErr (s : State) (k : Nat) : State :=
  match s.qp k with
  | some q => if q.st = 2 then ((s.cancelReads k).dropDeliveries k).publishAll k else s.qpStop k 3 true
  | none => s

/-! ### Host delivery (R341 to R344) -/

/-- A completion entry (R344). -/
def State.cplEntry (s : State) (fid idx len : Nat) (first last disc : Bool) : List Byte :=
  let f := s.frame fid
  let tod := s.toTod (f.ts * 2 ^ 23)
  let nh := f.gf sfNextHop
  let sums := if 0xFFF0 ≤ nh ∧ nh ≤ 0xFFFE then nh % 4 * 64 + nh / 4 % 4 * 256 else 0
  let flags := b2n first + 2 * b2n last + 4 * b2n disc + 8 * f.gf sfAuthFail + 16 * f.gf sfExc + 32 * f.gf sfTrunc + sums
  leBytes 2 (idx % 32768) ++ leBytes 2 len ++ leBytes 2 flags ++ leBytes 1 (if f.gf sfExc = 1 then f.gf sfReason else 0)
    ++ leBytes 1 (f.gf sfTc + 8 * f.gf sfColour) ++ leBytes 4 (f.gf sfFlowClass + 1024 * f.gf sfSrc) ++ leBytes 4 (f.gf sfVni)
    ++ leBytes 8 (tod / nsUnit) ++ leBytes 2 (tod % nsUnit / 2 ^ 23 * 0x8000) ++ leBytes 2 (f.gf sfHash) ++ leBytes 4 (f.gf sfCtx)

/-- Write the completion entries of a delivery for the buffers it filled. -/
def State.writeEntries (s : State) (k : Nat) (d : Delivery) (disc : Bool) : State :=
  match s.qp k with
  | none => s
  | some q =>
    let n := d.filled.length
    (List.range n).foldl (fun s i =>
      let b := d.filled.getD i (0, 0)
      s.hostWrite (s.qpLink k) 1 (s.qpPasid k) false (q.entry 2 (d.cplAt.getD 0 + i))
        (s.cplEntry d.fid b.1 b.2 (i = 0) (decide (i + 1 = n)) disc)) s

/-- Drop the delivery at place `n` of a queue pair under R343: DROPS, and DISCARD entries for the buffers it filled. A
frame that the fence discards has neither (R353, R354). -/
def State.dropDelivery (s : State) (k n : Nat) : State :=
  match s.qp k with
  | none => s
  | some q =>
    match q.deliv[n]? with
    | none => s
    | some d =>
      match s.fence (s.frame d.fid) with
      | some r =>
        let q := if n = 0 ∧ d.cplAt.isSome then q.unreserve else q
        ((s.setQp k { q with deliv := dropAt n q.deliv }).countExc r).discard d.fid
      | none =>
      let s := s.writeEntries k d true
      let cpl := match d.cplAt with
        | some c => { q.cpl with next := (c + d.filled.length) % 32768, done := (c + d.filled.length) % 32768 }
        | none => q.cpl
      let buf := if d.filled.isEmpty then q.buf else { q.buf with done := q.buf.next }
      (s.setQp k { q with deliv := dropAt n q.deliv, cpl := cpl, buf := buf, drops := (q.drops + 1) % 2 ^ 32 }).discard d.fid

/-- The waiting frames of a host island (R343). -/
def State.waitingFrames (s : State) (h : Nat) : Nat :=
  s.qps.foldl (fun n e => if s.qpLink e.1 = h then n + (e.2.deliv.filter fun d => d.waitSince.isSome).length else n) 0

/-- Every delivery of a blocked queue waits from now; one for which no place is free is dropped at once. -/
def State.startWaits (s : State) (k : Nat) : State :=
  match s.qp k with
  | none => s
  | some q =>
    (List.range q.deliv.length).reverse.foldl (fun s i =>
      match s.qp k with
      | none => s
      | some q =>
        match q.deliv[i]? with
        | some d =>
          if d.waitSince.isSome then s
          else if 64 ≤ s.waitingFrames (s.qpLink k) then s.dropDelivery k i
          else s.setQp k { q with deliv := q.deliv.set i { d with waitSince := some s.ictNs } }
        | none => s) s

/-- Deliver the frames of a queue pair in order, as far as room, buffers and reads allow. -/
def State.pump : Nat → Nat → State → State
  | 0, _, s => s
  | fuel + 1, k, s =>
    match s.qp k with
    | none => s
    | some q =>
      match q.deliv with
      | [] => s
      | d :: rest =>
        if d.fetching.isSome then s
        else match s.fence (s.frame d.fid) with
          | some r => pump fuel k (((s.setQp k { q.unreserve with deliv := rest }).countExc r).discard d.fid)
          | none =>
            match d.cplAt with
            | none =>
              if idxSub q.cpl.next q.cpl.tail + d.need ≤ 2 ^ q.cpl.log2 then
                let d := { d with cplAt := some q.cpl.next, waitSince := none }
                pump fuel k (s.setQp k { q with deliv := d :: rest, cpl := { q.cpl with next := (q.cpl.next + d.need) % 32768 } })
              else s.startWaits k
            | some c =>
              if d.need ≤ d.filled.length then
                let s := s.writeEntries k d false
                let e := (c + d.need) % 32768
                let s := s.setQp k { q with deliv := rest, cpl := { q.cpl with done := e }, buf := { q.buf with done := q.buf.next } }
                pump fuel k (s.removeFrame d.fid)
              else if q.buf.next = q.buf.tail then s.startWaits k
              else
                let x := q.buf.next
                let d := { d with fetching := some x, waitSince := none }
                let s := s.setQp k { q with deliv := d :: rest, buf := { q.buf with next := (x + 1) % 32768 } }
                let r := s.hostRead .bufDesc k (s.qpLink k) 1 (s.qpPasid k) (q.entry 1 x) 16
                match r.2 with
                | some _ => r.1
                | none => r.1.qpHostErr k

/-- Run a queue pair's deliveries on. -/
def State.pumpQ (s : State) (k : Nat) : State :=
  match s.qp k with
  | some q => State.pump (3 * q.deliv.length + 4) k s
  | none => s

/-- The buffer descriptor that a delivery waited for has arrived: the next piece of the frame is written into the buffer. -/
def State.bufDescData (s : State) (k : Nat) (bs : Option (List Byte)) : State :=
  match s.qp k, bs with
  | some q, some bs =>
    (match q.deliv with
      | d :: rest =>
        match d.fetching with
        | none => s
        | some x =>
          let f := s.frame d.fid
          match s.fence f with
          | some r => (((s.setQp k { q.unreserve with deliv := rest }).countExc r).discard d.fid).pumpQ k
          | none =>
            let piece := (f.data.drop (d.filled.length * q.bufSize)).take q.bufSize
            if !s.canIssue (s.qpLink k) 1 (s.qpPasid k) then s.qpHostErr k else
              let s := s.hostWrite (s.qpLink k) 1 (s.qpPasid k) true (leNat (bs.take 8)) piece
              let d := { d with fetching := none, filled := d.filled ++ [(x, piece.length)] }
              (s.setQp k { q with deliv := d :: rest }).pumpQ k
      | [] => s)
  | some _, none => s.qpHostErr k
  | none, _ => s

/-- Count a frame discarded at HDL for instance state or QUEUE. -/
def State.noqDrop (s : State) (i fid : Nat) : State :=
  let x := s.inst i
  (s.setInst i { x with noqDrops := (x.noqDrops + 1) % 2 ^ 32 }).discard fid

/-- HDL delivers a frame to queue `loc` of instance `i` (R341). -/
def State.hdl (s : State) (fid i loc : Nat) : State :=
  match s.fence (s.frame fid) with
  | some r => (s.countExc r).discard fid
  | none =>
    if (s.inst i).st ≠ .active ∨ 256 ≤ loc then s.noqDrop i fid else
      let k := qpKey i loc
      match s.qp k with
      | none => s.noqDrop i fid
      | some q =>
        if q.st ≠ 1 ∧ q.st ≠ 3 then
          (s.setQp k { q with drops := (q.drops + 1) % 2 ^ 32 }).discard fid
        else
          let need := ((s.frame fid).len + q.bufSize - 1) / q.bufSize
          (s.setQp k { q with deliv := q.deliv ++ [⟨fid, need, none, [], none, none⟩] }).pumpQ k

/-- STARVE_EXPIRE: the frames of a queue pair that have waited STARVE are dropped, and delivery goes on. -/
def State.starve (s : State) (k : Nat) : State :=
  match s.qp k with
  | none => s
  | some q =>
    let due := fun (d : Delivery) => match d.waitSince with
      | some t => s.elapsed t (q.starve * 1000)
      | none => false
    let idx := (List.range q.deliv.length).filter fun i => (q.deliv[i]?.map due).getD false
    if idx.isEmpty then s else (idx.reverse.foldl (fun s i => s.dropDelivery k i) s).pumpQ k

/-- STARVE_EXPIRE. -/
def execStarveExpire (inst : Fin 4096) (loc : Fin 256) (s : State) : Out :=
  if s.stopped then .next s else
  .next (s.starve (qpKey inst.val loc.val))

/-! ### Transmit (R333 to R335, R339) -/

/-- The index that the transmit ring is served up to. -/
def QPair.txLimit (q : QPair) : Nat := q.drainTail.getD q.tx.tail

/-- Start reading the next posted descriptor. -/
def State.txFetch (s : State) (k : Nat) : State :=
  match s.qp k with
  | none => s
  | some q =>
    if q.work ∨ q.busy ∨ q.ready ∨ (q.st ≠ 1 ∧ q.st ≠ 3) ∨ q.tx.next = q.txLimit then s else
      let q := if q.chain.isEmpty then { q with ts := s.ictHalf } else q
      let s := s.setQp k { q with busy := true }
      let r := s.hostRead .txDesc k (s.qpLink k) 1 (s.qpPasid k) (q.entry 0 q.tx.next) 32
      match r.2 with
      | some _ => r.1
      | none => r.1.qpHostErr k

/-- TX_DESCRIPTOR_FETCH. -/
def execTxDescriptorFetch (inst : Fin 4096) (loc : Fin 256) (s : State) : Out :=
  if s.stopped then .next s else
  .next (s.txFetch (qpKey inst.val loc.val))

/-- FLAGS of a transmit descriptor. -/
def txFlags (d : List Byte) : Nat := leNat (slice d 0x0A 2)
/-- LEN of a transmit descriptor. -/
def txLen (d : List Byte) : Nat := leNat (slice d 0x08 2)

/-- Does a descriptor break R335, after the chain read so far? -/
def QPair.descBad (q : QPair) (d : List Byte) : Bool :=
  let f := txFlags d
  let first := bit f 0
  (first == !q.chain.isEmpty) || decide (32 ≤ q.chain.length) || decide (txLen d = 0)
    || decide (65535 < q.data.length + txLen d) || decide (f / 16 ≠ 0) || decide (leNat (slice d 0x18 8) ≠ 0)
    || (first && (decide (leNat (slice d 0x10 4) / 2 ^ 20 ≠ 0) || decide (leNat (slice d 0x14 4) / 2 ^ 22 ≠ 0)
      || (bit f 3 && !q.descDst)))

/-- A transmit descriptor has arrived: it is checked, and its buffer is read. -/
def State.txDescData (s : State) (k : Nat) (bs : Option (List Byte)) : State :=
  match s.qp k, bs with
  | some q, some d =>
    if q.descBad d then s.qpStop k 4 true
    else
      let s := s.setQp k { q with chain := q.chain ++ [d] }
      let r := s.hostRead .txData k (s.qpLink k) 1 (s.qpPasid k) (leNat (slice d 0 8)) (txLen d)
      match r.2 with
      | some _ => r.1
      | none => r.1.qpHostErr k
  | some _, none => s.qpHostErr k
  | none, _ => s

/-- The buffer of the last descriptor read has arrived: with LAST the chain is whole and HEAD passes it; otherwise the
next descriptor is read once it is posted. -/
def State.txDataData (s : State) (k : Nat) (bs : Option (List Byte)) : State :=
  match s.qp k, bs with
  | some q, some b =>
    let next := (q.tx.next + 1) % 32768
    let q := { q with data := q.data ++ b, tx := { q.tx with next := next }, busy := false }
    if bit (txFlags (q.chain.getLastD [])) 1 then s.setQp k { q with ready := true, tx := { q.tx with done := next } }
    else (s.setQp k q).txFetch k
  | some _, none => s.qpHostErr k
  | none, _ => s

/-! ### Doorbells (R304, R330 to R333, R340) -/

/-- Count a doorbell in DB_BAD. -/
def State.dbBad (s : State) (i : Nat) : State :=
  let x := s.inst i
  s.setInst i { x with dbBad := (x.dbBad + 1) % 2 ^ 32 }

/-- A TAIL for ring `r` (R332, R340): the ring takes it, or the queue pair stops with INDEX; a TAIL equal to the previous
one changes nothing. -/
def State.takeTail (s : State) (k r t : Nat) : State :=
  match s.qp k with
  | none => s
  | some q =>
    let x := q.ring r
    let n := 2 ^ x.log2
    let first := if r = 2 then decide (idxSub x.pub t ≤ n) else decide (idxSub t x.pub ≤ n)
    if !(first && decide (idxSub t x.tail ≤ n)) then s.qpStop k 5 true
    else if t = x.tail then s
    else
      let s := s.setQp k (q.setRing r { x with tail := t })
      if r = 0 then (if q.work then s.raiseGroup q.group else s) else s.pumpQ k

/-- The control block that a fetch-form doorbell reads has arrived (R333). -/
def State.ctrlBlockData (s : State) (key : Nat) (bs : Option (List Byte)) : State :=
  let k := key / 4
  match s.qp k, bs with
  | some q, some b =>
    let t := leNat (b.take 2)
    if (q.st ≠ 1 ∧ q.st ≠ 3) ∨ 32768 ≤ t then s.dbBad (k / 256) else s.takeTail k (key % 4) t
  | some _, none => s.qpHostErr k
  | none, _ => s

/-- One doorbell slot write to ring `r` of queue pair `k`, past R304. -/
def State.ringBell (s : State) (k r v : Nat) : State :=
  match s.qp k with
  | none => s.dbBad (k / 256)
  | some q =>
    if q.st ≠ 1 ∧ q.st ≠ 3 then s.dbBad (k / 256) else
      let s := if bit v 16 then s.armRing k r else s
      let t := v % 65536
      if v / 131072 ≠ 0 ∨ (32768 ≤ t ∧ t ≠ 0xFFFF) then s.dbBad (k / 256)
      else if t = 0xFFFF then
        let x := s.hostRead .ctrlBlock (4 * k + r) (s.qpLink k) 1 (s.qpPasid k) (q.cb + 64 * r) 2
        match x.2 with
        | some _ => x.1
        | none => x.1.qpHostErr k
      else s.takeTail k r t

/-- Is a doorbell of instance `i` through link `h` accepted (R304, R313, R320)? Where it is not, the state that counts
it: DB_BAD too where the instance is not ACTIVE. -/
def State.bellGate (s : State) (h i : Nat) : Option State :=
  if !(s.host h).up then some s
  else
    let rej := s.hostCount h 7
    if (s.inst i).st ≠ .active then some (rej.dbBad i)
    else if (s.host h).flr.getLsbD 1 ∨ s.rf (Reg.devStatus h) devStatus_READY = 0 ∨ (s.inst i).link ≠ h ∨ i = 0 ∨ s.dstate h 1 ≠ 0 then some rej
    else none

/-- A write to a doorbell page of link `h` at ring slot `r`, of `len` bytes: 4 bytes, or 8 aligned bytes that act as two
doorbells, lower slot first; other accesses are bad BAR accesses (R330). Without Memory Space Enable the page is outside
BAR0. -/
def State.doorbell (s : State) (h i loc r len v : Nat) : State :=
  let k := qpKey i loc
  if !(s.host h).up then s
  else if !(s.host h).flr.getLsbD 1 && !s.mse h 1 then s.aer h 1 .unsupported false
  else if !(len = 4 || (len = 8 && r % 2 = 0)) && !(s.host h).flr.getLsbD 1 then s.barBad h 1 true
  else match s.bellGate h i with
    | some s => s
    | none =>
      let s := if r = 3 then s else s.ringBell k r (v % 2 ^ 32)
      if len = 8 ∧ r = 0 then s.ringBell k 1 (v / 2 ^ 32) else s

/-- DOORBELL_TX. -/
def execDoorbellTx (h : Fin 2) (inst : Fin 4096) (loc : Fin 256) (len : Nat) (v : W64) (s : State) : Out :=
  .next (s.doorbell h.val inst.val loc.val 0 len v.toNat)
/-- DOORBELL_BUF. -/
def execDoorbellBuf (h : Fin 2) (inst : Fin 4096) (loc : Fin 256) (len : Nat) (v : W64) (s : State) : Out :=
  .next (s.doorbell h.val inst.val loc.val 1 len v.toNat)
/-- DOORBELL_CPL. -/
def execDoorbellCpl (h : Fin 2) (inst : Fin 4096) (loc : Fin 256) (len : Nat) (v : W64) (s : State) : Out :=
  .next (s.doorbell h.val inst.val loc.val 2 len v.toNat)

/-! ### Attach (R336, R337) -/

/-- HASH of a queue pair's frames. -/
def txHash (inst loc : Nat) : Nat := crcUpdate polyCrc32c 0 (leBytes 4 (inst * 256 + loc)) / 65536

/-- A satchel attached at a transmit queue. -/
def State.txAttach (s : State) (k : Nat) (q : QPair) (d data : List Byte) : State × Nat :=
  let i := k / 256
  let h := s.qpLink k
  let r := s.attach (0x100 + h) i q.ts (1000 + q.txq) data
  let dest := leNat (slice d 0x14 4)
  let ovr := bit (txFlags d) 3
  let s := r.1.modFrame r.2 fun f =>
    let f := ((f.sf sfFlowClass q.flowClass).sf sfTc q.tc).sf sfOffL3 (byteAt d 0x0E)
    let f := ((f.sf sfOffL4 (byteAt d 0x0F)).sf sfCtx (leNat (slice d 0x10 4))).sf sfHash (txHash i (k % 256))
    let f := (f.sf sfDst (if ovr then fld dest 0 10 else q.dst)).sf sfQueue (if ovr then fld dest 10 12 else q.queue)
    { f.sf sfNextHop q.nexthop with owner := some (i, (s.inst i).gen) }
  (s.loadSvc r.2, r.2)

/-- The satchels of a chain that has been read whole: the state, the frames in order, and whether the one frame of an
invalid TSO request is to raise SEG_INVALID. -/
def State.attachChain (s : State) (k : Nat) (q : QPair) : State × List Nat × Bool :=
  let d := q.chain.headD []
  let cut := if bit (txFlags d) 2 then tsoCut q.data (byteAt d 0x0E) (byteAt d 0x0F) (leNat (slice d 0x0C 2)) else some [q.data]
  match cut with
  | none => let r := s.txAttach k q d q.data; (r.1, [r.2], true)
  | some ps =>
    let r := ps.foldl (fun (acc : State × List Nat) p => let x := acc.1.txAttach k q d p; (x.1, acc.2 ++ [x.2])) (s, [])
    (r.1, r.2, false)

end Sys2Proof.Machine
end

