-- ==== Sys2Proof/Machine/Instances.lean ====
section
/-! DEFINITION. Instances: states, generations, work counts, reset; the host commands that name an instance
(R320 to R324, R346, R348 to R353). -/

namespace Sys2Proof.Machine

/-! ### Work of an instance (R322 to R324) -/

/-- Does a lane hold the frame? -/
def Lane.has (l : Lane) (fid : Nat) : Bool :=
  l.arrivals.contains fid || (l.returning ++ l.recirc).any (fun x => x.fid = fid) || l.passes.any fun x => x.fid = fid

/-- Is the frame in one of the queues of a table? -/
def inQueues (t : Tab (List Nat)) (fid : Nat) : Bool := t.any fun e => e.2.contains fid

/-- The kind of island that holds a frame, as a bit of BLOCKS (R324). -/
def State.frameBlock (s : State) (fid : Nat) : Nat :=
  if s.lanes.any fun e => e.2.has fid then 0
  else if s.outQs.any fun e => e.2.cool.any fun x => x.fid = fid then 2
  else if inQueues s.groups fid || inQueues s.stsIn fid || inQueues s.stsOut fid || s.threads.any (fun e => e.2.held = some fid) then 3
  else if (s.ciphIn.any fun e => e.2.any fun x => x.fid = fid) || inQueues s.ciphOut fid then 4
  else if inQueues s.ingIn fid then 5
  else if s.qps.any fun e => e.2.deliv.any fun d => d.fid = fid then 6
  else if s.hlinks.any fun e => e.2.vcs.any fun v => v.2.txq.any fun m => m.fid = some fid then 7
  else 1

/-- The generations and blocks of an instance's work: satchels of its transmit queues, deliveries to its receive queues,
CIPH jobs and ingest jobs; no generation for a job accepted with another than the current one, and for any work while a
reset is held. The device's own work is never counted. -/
def State.work (s : State) (i : Nat) : List (Option Nat × Nat) :=
  if i = 0 then [] else
    (s.frames.filterMap fun e => match e.2.owner with
      | some (j, g) => if j = i then some (some g, s.frameBlock e.1) else none
      | none => none)
    ++ (s.qps.filter fun e => e.1 / 256 = i).flatMap (fun e => e.2.deliv.map fun d =>
      let f := s.frame d.fid
      (some (if f.gf sfInstance = i then f.gf sfInstGen else (s.inst i).gen), 6))
    ++ (s.ciphJobs.filter fun j => j.sec.isNone && j.inst = i).map (fun j => (if j.late then none else some j.gen, 4))
    ++ (s.jobs.filter fun e => e.2.inst = i).map (fun e => (if e.2.late then none else some e.2.gen, 5))

/-- Is a piece of the instance's work of its current generation? -/
def Instance.current (x : Instance) (w : Option Nat × Nat) : Bool := !x.hold && w.1 = some x.gen

/-- INFLIGHT. -/
def State.inflight (s : State) (i : Nat) : Nat := ((s.work i).filter fun w => (s.inst i).current w).length
/-- STALE. -/
def State.staleWork (s : State) (i : Nat) : Nat := ((s.work i).filter fun w => !(s.inst i).current w).length
/-- BLOCKS. -/
def State.blocks (s : State) (i : Nat) : Nat :=
  ((s.work i).filter fun w => !(s.inst i).current w).foldl (fun n w => n ||| 2 ^ w.2) 0

/-- The generation after `g`; 0 is skipped (R321). -/
def nextGen (g : Nat) : Nat := if g = 65535 then 1 else g + 1

/-- Would an increment reach OLDEST_STALE while stale work remains (R323)? -/
def State.genWrap (s : State) (i : Nat) : Bool :=
  decide (s.staleWork i ≠ 0) && nextGen (s.inst i).gen = (s.inst i).oldestStale

/-- Increment an instance's generation: INFLIGHT moves into STALE (R321 to R324). -/
def State.bumpGen (s : State) (i : Nat) : State :=
  let x := s.inst i
  let rises := decide (s.staleWork i = 0) && decide (s.inflight i ≠ 0)
  s.setInst i { x with gen := nextGen x.gen, resetSlow := false, oldestStale := if rises then x.gen else x.oldestStale }

/-- STALE may have risen from zero through work accepted with an older generation. -/
def State.noteStale (s : State) (i before : Nat) : State :=
  if before = 0 ∧ s.staleWork i ≠ 0 then s.setInst i { s.inst i with oldestStale := (s.inst i).gen } else s

/-- STATE as a number. -/
def InstState.code : InstState → Nat
  | .free => 0
  | .active => 1
  | .quiesced => 2
  | .resetting => 3

/-- Word `w` of the instance status (R324). -/
def State.instStatus (s : State) (i w : Nat) : Nat :=
  let x := s.inst i
  match w with
  | 0 => x.st.code + 4 * x.link + 8 * b2n x.resetSlow + 16 * x.qpMax + 65536 * x.gen
  | 1 => s.inflight i
  | 2 => s.staleWork i
  | 3 => x.oldestStale + 65536 * s.blocks i
  | 4 => x.dbBad
  | 5 => x.noqDrops
  | 6 => x.intrHeld
  | _ => 0

/-! ### Reset (R352) -/

/-- A queue pair at an instance reset: STOPPED with reason RESET, indices zero, control blocks published, bindings
kept. -/
def State.qpReset (s : State) (k : Nat) : State :=
  let s := (s.cancelReads k).dropDeliveries k
  match s.qp k with
  | none => s
  | some q =>
    let z := fun (r : Ring) => { r with tail := 0, next := 0, done := 0, pub := 0, src := r.src.map fun x => { x with events := 0, till := none } }
    (s.setQp k { q with tx := z q.tx, buf := z q.buf, cpl := z q.cpl, st := 2, reason := 6, drainTail := none, chain := [], data := [], busy := false, ready := false }).publishAll k

/-- PENDING of the message store entries of an instance is cleared. -/
def State.clearStore (s : State) (i : Nat) : State :=
  let h := (s.inst i).link
  let l := s.host h
  s.setHost h { l with store := l.store.map fun e => (e.1, if e.2.owner = i then { e.2 with pend := false } else e.2) }

/-- An instance reset begins: RESETTING, generation incremented, every queue pair stopped. `hold`: the increment reached
OLDEST_STALE, and the instance stays in RESETTING until STALE is zero, through further increments too (R323). -/
def State.resetInst (s : State) (i : Nat) : State :=
  let hold := s.genWrap i || (s.inst i).hold
  let s := s.bumpGen i
  let x := s.inst i
  let back := if x.st = .resetting then x.back else x.st
  let s := s.setInst i { x with st := .resetting, back := back, held := [], hold := hold, resetAt := if hold then none else some s.ictNs }
  let s := (s.qps.filter fun e => e.1 / 256 = i).foldl (fun s e => s.qpReset e.1) s
  s.clearStore i

/-! ### Host commands (R348, R350) -/

/-- Command status codes. -/
abbrev csOk : Nat := 0
abbrev csBadOp : Nat := 1
abbrev csBadArg : Nat := 2
abbrev csBadState : Nat := 3
abbrev csNoResource : Nat := 4
abbrev csBusy : Nat := 5
abbrev csResetSlow : Nat := 6
abbrev csGenWrap : Nat := 7
abbrev csTimeout : Nat := 8
abbrev csReset : Nat := 9

/-- What a command comes to: a response at once, or an outstanding command with the end of its limit. -/
inductive CmdEnd where
  | now (st : Nat) (ws : List Nat)
  | later (loc till : Nat)
deriving DecidableEq, Repr

/-- The link that the commands of host channel `ch` (channel 16 + ch) act for. -/
def cmdLink (ch : Nat) : Nat := ch / 8

/-- A command completes: the response, and cause INSTANCE for a VI_ command. -/
def State.cmdFinish (s : State) (ch op tag st : Nat) (ws : List Nat) : State :=
  let s := s.respond (16 + ch) ((op + 256 * tag + 65536 * st) :: ws)
  if 0x10 ≤ op ∧ op ≤ 0x15 then s.setCause (cmdLink ch) 5 else s

/-- Every command that waits for or is outstanding on an instance ends RESET (R350, R354). -/
def State.endCommands (s : State) (i : Nat) : State :=
  let out := s.hostCmds.filter fun c => c.inst = i
  let wait := s.cmdWait.filter fun c => (c.msg.getD 1 0) % 4096 = i
  let s := { s with hostCmds := s.hostCmds.filter fun c => c.inst ≠ i, cmdWait := s.cmdWait.filter fun c => (c.msg.getD 1 0) % 4096 ≠ i }
  let s := out.foldl (fun s c => s.cmdFinish c.ch c.op c.tag csReset []) s
  wait.foldl (fun s c => s.cmdFinish c.ch (c.msg.headD 0 % 256) (fld (c.msg.headD 0) 8 8) csReset []) s

/-- The lowest number not in use. -/
def freeNum : Nat → Nat → List Nat → Nat
  | 0, n, _ => n
  | fuel + 1, n, used => if used.contains n then freeNum fuel (n + 1) used else n

/-- VI_CREATE. -/
def State.viCreate (s : State) (h : Nat) (w : Nat → Nat) : State × CmdEnd :=
  let i := fld (w 1) 0 12
  let qm := fld (w 1) 12 9
  if i = 0 ∨ qm = 0 ∨ 256 < qm ∨ fld (w 2) 0 20 = 0 then (s, .now csBadArg [])
  else if (s.inst i).st ≠ .free then (s, .now csBadState [])
  else
    let burst := max 1 (fld (w 3) 16 8)
    let x := { s.inst i with st := .active, link := h, pasid := fld (w 2) 0 20, qpMax := qm, intrRate := fld (w 3) 0 16, intrBurst := burst, tokens := burst * 1000, served := s.micros, held := [], resetAt := none }
    ((s.setInst i x).setRf (qCfgAddr (32 + h) i) tmQueueCfg_OWNER i, .now csOk [x.gen])

/-- Release the entries that a queue pair's sources are bound to. -/
def State.unbind (s : State) (k r : Nat) : State :=
  match s.qp k with
  | none => s
  | some q =>
    match (q.ring r).src with
    | none => s
    | some x =>
      let s := s.setQp k (q.setRing r { q.ring r with src := none })
      let used := (s.qps.filter fun e => e.1 / 256 = k / 256).any fun e => [0, 2].any fun r =>
        match (e.2.ring r).src with
        | some y => y.store == x.store && y.entry = x.entry
        | none => false
      if used then s else
        let h := s.qpLink k
        let l := s.host h
        if x.store then s.setHost h { l with store := Tab.put l.store x.entry { Tab.get {} l.store x.entry with owner := 0 } }
        else s.setHost h { l with msix1 := Tab.put l.msix1 x.entry { Tab.get {} l.msix1 x.entry with owner := 0 } }

/-- Remove a queue pair. -/
def State.qpRemove (s : State) (k : Nat) : State :=
  let s := (((s.cancelReads k).dropDeliveries k).unbind k 0).unbind k 2
  { s with qps := Tab.del s.qps k }

/-- VI_DESTROY. -/
def State.viDestroy (s : State) (i : Nat) : State × CmdEnd :=
  if (s.inst i).st ≠ .quiesced ∨ s.inflight i ≠ 0 then (s, .now csBadState [])
  else if s.genWrap i then (s, .now csGenWrap [])
  else
    let s := (s.qps.filter fun e => e.1 / 256 = i).foldl (fun s e => s.qpRemove e.1) s
    let s := s.bumpGen i
    let s := s.setInst i { s.inst i with st := .free }
    (s, .now csOk [(s.inst i).gen])

/-- VI_QOS. -/
def State.viQos (s : State) (h i : Nat) (w : Nat → Nat) : State × CmdEnd :=
  let t := fld (w 1) 12 5
  let v := fld (w 2) 0 21 + 2 ^ 32 * fld (w 3) 0 24
  if 16 < t then (s, .now csBadArg [])
  else if t < 16 then (s.shaperCfgSet (0x31 + t) (8256 + i) v, .now csOk [])
  else
    let o := 32 + h
    let s := s.shaperCfgSet (0x61 + h) i v
    (s.queueCfgSet o i (setFld (s.rdN (qCfgAddr o i) 2) 0 16 (fld (w 4) 0 16)), .now csOk [])

/-- A 64-bit IOVA in two words. -/
def iova (w : Nat → Nat) (n : Nat) : Nat := w n % 2 ^ 32 + 2 ^ 32 * (w (n + 1) % 2 ^ 32)

/-- QP_CREATE (R349). -/
def State.qpCreate (s : State) (i : Nat) (w : Nat → Nat) : State × CmdEnd :=
  let loc := fld (w 1) 12 8
  let lt := fld (w 4) 8 4; let lb := fld (w 4) 12 4; let lc := fld (w 4) 16 4
  let buf := fld (w 4) 20 7
  let tx := iova w 6; let cb := iova w 8; let rb := iova w 10; let rc := iova w 12
  let sizeBad := fun (l : Nat) => decide (l < 6 ∨ 14 < l)
  let mis := fun (a e l : Nat) => decide (a % max 4096 (e * 2 ^ l) ≠ 0)
  let k := qpKey i loc
  if fld (w 1) 23 9 ≠ 0 ∨ fld (w 2) 23 9 ≠ 0 ∨ fld (w 3) 28 4 ≠ 0 ∨ fld (w 4) 27 5 ≠ 0 ∨ fld (w 5) 10 22 ≠ 0 then (s, .now csBadArg [])
  else if sizeBad lt || sizeBad lb || sizeBad lc || decide (buf = 0 ∨ 64 < buf) then (s, .now csBadArg [])
  else if mis tx 32 lt || mis rb 16 lb || mis rc 32 lc || decide (cb % 256 ≠ 0) then (s, .now csBadArg [])
  else if (s.inst i).qpMax ≤ loc then (s, .now csNoResource [])
  else if (s.qp k).isSome then (s, .now csBadState [])
  else
    let txq := freeNum 65536 0 (s.qps.map fun e => e.2.txq)
    let rxq := freeNum 65536 0 (s.qps.map fun e => e.2.rxq)
    if 65536 ≤ txq ∨ 65536 ≤ rxq then (s, .now csNoResource [])
    else
      let st := fld (w 5) 0 10
      let q : QPair :=
        { txq := txq, rxq := rxq, work := bit (w 1) 20, worker := bit (w 1) 21, descDst := bit (w 1) 22, flowClass := fld (w 2) 0 10, tc := fld (w 2) 10 3, dst := fld (w 2) 13 10, queue := fld (w 3) 0 12, nexthop := fld (w 3) 12 16, group := fld (w 4) 0 8, bufSize := buf * 1024, starve := if st = 0x3FF then 50 else min st 1000, cb := cb, tx := { base := tx, log2 := lt }, buf := { base := rb, log2 := lb }, cpl := { base := rc, log2 := lc } }
      (s.setQp k q, .now csOk [txq + 65536 * rxq])

/-- INTR_BIND. -/
def State.intrBind (s : State) (i : Nat) (w : Nat → Nat) : State × CmdEnd :=
  let k := qpKey i (fld (w 1) 12 8)
  let r := if bit (w 1) 20 then 2 else 0
  let store := bit (w 1) 21
  let e := fld (w 2) 0 16
  let mc := fld (w 2) 16 9
  let mt := fld (w 3) 0 10
  if (!store && decide (2048 ≤ e)) || decide (mc = 0 ∨ 256 < mc ∨ 1000 < mt) then (s, .now csBadArg [])
  else if (s.qp k).isNone then (s, .now (if (s.inst i).qpMax ≤ fld (w 1) 12 8 then csNoResource else csBadState) [])
  else
    let h := s.qpLink k
    let l := s.host h
    let o := (Tab.get {} (if store then l.store else l.msix1) e).owner
    if o ≠ 0 ∧ o ≠ i then (s, .now csBadState [])
    else
      let old := (s.qp k).bind fun q => (q.ring r).src
      let s := s.unbind k r
      match s.qp k with
      | none => (s, .now csBadState [])
      | some q =>
        let ev := (old.map fun x => x.events).getD 0
        let till := old.bind fun x => x.till
        let s := s.setQp k (q.setRing r { q.ring r with src := some ⟨store, e, mc, mt, bit (w 3) 10, true, ev, till⟩ })
        let l := s.host h
        let s := if store then s.setHost h { l with store := Tab.put l.store e { Tab.get {} l.store e with owner := i } }
          else s.setHost h { l with msix1 := Tab.put l.msix1 e { Tab.get {} l.msix1 e with owner := i } }
        (s.fireIf k r, .now csOk [])

/-- Drop the waiting deliveries of a queue pair as R343 describes. -/
def State.dropWaiting (s : State) (k : Nat) : State :=
  match s.qp k with
  | none => s
  | some q =>
    (List.range q.deliv.length).reverse.foldl (fun s n =>
      match (s.qp k).bind fun q => q.deliv[n]? with
      | some d => if d.waitSince.isSome then s.dropDelivery k n else s
      | none => s) s

/-- The commands on one queue pair; `at_`: the TAIL its transmit ring held when the command arrived, and when that was. -/
def State.qpCommand (s : State) (op i : Nat) (w : Nat → Nat) (at_ : Option Nat × Nat) : State × CmdEnd :=
  let loc := fld (w 1) 12 8
  let k := qpKey i loc
  match s.qp k with
  | none => (s, .now (if (s.inst i).qpMax ≤ loc then csNoResource else csBadState) [])
  | some q =>
    let idle := q.st = 0 ∨ q.st = 2
    match op with
    | 0x21 => if idle then (s.qpRemove k, .now csOk []) else (s, .now csBadState [])
    | 0x22 => if idle then ((s.setQp k { q with st := 1 }).publishAll k, .now csOk []) else (s, .now csBadState [])
    | 0x23 => (if idle then s else s.qpStop k 1 false, .now csOk [])
    | 0x24 =>
      if q.st ≠ 1 then (s, .now csBadState [])
      else
        let us := fld (w 2) 0 20
        ((s.setQp k { q with st := 3, drainTail := some (at_.1.getD q.tx.tail) }).publishAll k,
          .later loc (at_.2 + 1000 * (if us = 0 then 10000 else us)))
    | _ => ((if idle then s else s.qpStop k 1 false).dropWaiting k, .now csOk [])

/-- A command that names one instance, for link `h`; `w n` is word `n` of its message. -/
def State.instCommand (s : State) (h op : Nat) (w : Nat → Nat) (at_ : Option Nat × Nat) : State × CmdEnd :=
  let i := fld (w 1) 0 12
  let x := s.inst i
  if op = 0x10 then s.viCreate h w
  else if i = 0 then (s, .now csBadArg [])
  else if x.st = .free then (s, .now csBadState [])
  else if x.link ≠ h then (s, .now csBadArg [])
  else if op = 0x11 then s.viDestroy i
  else if op = 0x12 then
    (if x.st = .active then (s.setInst i { x with st := .quiesced }, .now csOk []) else (s, .now csBadState []))
  else if op = 0x13 then
    (if x.st = .quiesced then (s.setInst i { x with st := .active }, .now csOk []) else (s, .now csBadState []))
  else if op = 0x14 then
    (if x.st = .resetting then (s, .now csBadState [])
      else if s.genWrap i then (s, .now csGenWrap [])
      else (s.resetInst i, .later 0 0))
  else if x.st = .resetting then (s, .now csBadState [])
  else if op = 0x15 then s.viQos h i w
  else if op = 0x20 then s.qpCreate i w
  else if op = 0x26 then s.intrBind i w
  else s.qpCommand op i w at_

/-- Perform a command that names an instance, and finish it unless it stays outstanding. -/
def State.instPerform (s : State) (ch : Nat) (msg : List Nat) (at_ : Option Nat × Nat) : State :=
  let op := msg.headD 0 % 256
  let tag := fld (msg.headD 0) 8 8
  let r := s.instCommand (cmdLink ch) op (fun n => msg.getD n 0) at_
  match r.2 with
  | .now st ws => r.1.cmdFinish ch op tag st ws
  | .later loc till => { r.1 with hostCmds := r.1.hostCmds ++ [⟨ch, op, tag, msg.getD 1 0 % 4096, loc, till⟩] }

/-- The commands that wait for an instance go on, in order, while none is outstanding on it. A VI_RESET that
arrives behind a QP_DRAIN does not wait (R354). -/
def State.runWaiting : Nat → Nat → State → State
  | 0, _, s => s
  | fuel + 1, i, s =>
    if s.hostCmds.any fun c => c.inst = i then s else
      match s.cmdWait.find? fun c => (c.msg.getD 1 0) % 4096 = i with
      | none => s
      | some c => runWaiting fuel i (({ s with cmdWait := s.cmdWait.erase c }).instPerform c.ch c.msg (c.tail, c.since))

/-- A host command whose message has closed on channel 16 + ch leaves the channel's queue, if it stands at its front. -/
def State.takeMessage (s : State) (ch : Nat) (msg : List Nat) : State :=
  let b := s.mbox (16 + ch)
  let n := msg.length
  let front := b.ba.take n
  if front.map (fun w => w.word) = msg ∧ front.map (fun w => w.fin) = (List.range n).map (fun i => decide (i + 1 = n)) then
    let r := b.ba.drop n
    let s := s.setMbox (16 + ch) { b with ba := r, emptyB := b.emptyB || r.isEmpty, drained := b.drained || r.isEmpty }
    State.answerUnknown 16 ch s.mbCheck
  else s

/-- Is a VI_RESET of instance `i` through link `h` performed (R320, R323, R350)? -/
def State.resettable (s : State) (h i : Nat) : Bool :=
  let x := s.inst i
  i ≠ 0 && (x.st = .active || x.st = .quiesced) && x.link = h && !s.genWrap i

/-- A host command: served once READY is 1; a TAG that is outstanding completes with BUSY; commands that name one
instance are performed one at a time. `perform` carries out the commands that name none. -/
def State.hostCommand (s : State) (ch op tag : Nat) (ws : List W32) (perform : State → Nat → (Nat → Nat) → State × CmdEnd) : State :=
  let h := cmdLink ch
  let msg := (op + 256 * tag) :: ws.map fun w => w.toNat
  if s.stopped || s.rf (Reg.devStatus h) devStatus_READY = 0 then s else
    let s := s.takeMessage ch msg
    let out := (s.hostCmds.filter fun c => c.ch = ch).map (fun c => c.tag)
      ++ (s.cmdWait.filter fun c => c.ch = ch).map fun c => fld (c.msg.headD 0) 8 8
    if out.contains tag ∨ 8 ≤ out.length then s.cmdFinish ch op tag csBusy []
    else if 0x10 ≤ op ∧ op ≤ 0x26 then
      let i := msg.getD 1 0 % 4096
      let tail := (s.qp (qpKey i (fld (msg.getD 1 0) 12 8))).map fun q => q.tx.tail
      if op = 0x14 ∧ s.resettable h i ∧ s.hostCmds.any (fun c => c.inst = i ∧ c.op = 0x24) then (s.endCommands i).instPerform ch msg (tail, s.ictNs)
      else if s.hostCmds.any fun c => c.inst = i then { s with cmdWait := s.cmdWait ++ [⟨ch, msg, tail, s.ictNs⟩] }
      else s.instPerform ch msg (tail, s.ictNs)
    else
      let r := perform s h (fun n => msg.getD n 0)
      match r.2 with
      | .now st rs => r.1.cmdFinish ch op tag st rs
      | .later loc till => { r.1 with hostCmds := r.1.hostCmds ++ [⟨ch, op, tag, 4096, loc, till⟩] }

/-- A command that names an instance. -/
def State.instHostCommand (s : State) (ch op tag : Nat) (ws : List W32) : State :=
  s.hostCommand ch op tag ws fun s _ _ => (s, .now csBadArg [])

/-- An outstanding command ends. -/
def State.endOutstanding (s : State) (i op st : Nat) (ws : List Nat) : State :=
  match s.hostCmds.find? fun c => c.inst = i ∧ c.op = op with
  | some c => State.runWaiting (s.cmdWait.length) i (({ s with hostCmds := s.hostCmds.erase c }).cmdFinish c.ch op c.tag st ws)
  | none => s

/-- RESET_STALE_DRAINED: STALE reads zero, and the instance returns to its earlier state (R352 step 4). -/
def State.resetDrained (s : State) (i : Nat) : State :=
  let x := s.inst i
  if x.st = .resetting ∧ s.staleWork i = 0 then
    (s.setInst i { x with st := x.back, resetAt := none, hold := false }).endOutstanding i 0x14 csOk [x.gen, 0]
  else s

/-- RESET_SLOW: 1 ms after the reset began STALE is still non-zero (R352 step 5). -/
def State.resetLate (s : State) (i : Nat) : State :=
  let x := s.inst i
  match x.resetAt with
  | none => s
  | some t =>
    if x.st = .resetting ∧ s.elapsed t 1000000 ∧ s.staleWork i ≠ 0 then
      let b := s.blocks i
      let n := s.staleWork i
      let s := s.setInst i { x with st := x.back, resetAt := none, resetSlow := true }
      if s.hostCmds.any fun c => c.inst = i ∧ c.op = 0x14 then s.endOutstanding i 0x14 csResetSlow [x.gen, b]
      else (s.record 0x0080 0x52 [(0, 2, i), (2, 1, b), (4, 4, n)]).setCause x.link 5
    else s

/-- QP_DRAIN_DONE: a draining queue pair has served its transmit ring to the TAIL of the command, and no delivery to it
is in progress. -/
def State.drainDone (s : State) (k : Nat) : State :=
  match s.qp k with
  | none => s
  | some q =>
    let served := q.work || (decide (q.tx.done = q.txLimit) && q.chain.isEmpty)
    if q.st = 3 ∧ served ∧ q.deliv.isEmpty then
      (s.qpStop k 1 false).endOutstanding (k / 256) 0x24 csOk []
    else s

/-- QP_DRAIN_TIMEOUT: the limit passes, and the queue pair stops all the same. -/
def State.drainTimeout (s : State) (k : Nat) : State :=
  match s.hostCmds.find? fun c => c.inst = k / 256 ∧ c.op = 0x24 ∧ c.loc = k % 256 with
  | none => s
  | some c =>
    if c.till ≤ s.ictNs then
      let s := match s.qp k with
        | some q => if q.st = 3 then s.qpStop k 1 false else s
        | none => s
      s.endOutstanding (k / 256) 0x24 csTimeout []
    else s

/-- VI_CREATE. -/
def execViCreate (ch : Fin 16) (tag : Byte) (ws : List W32) (s : State) : Out := .next (s.instHostCommand ch.val 0x10 tag.toNat ws)
/-- VI_DESTROY. -/
def execViDestroy (ch : Fin 16) (tag : Byte) (ws : List W32) (s : State) : Out := .next (s.instHostCommand ch.val 0x11 tag.toNat ws)
/-- VI_DB_STOP. -/
def execViDbStop (ch : Fin 16) (tag : Byte) (ws : List W32) (s : State) : Out := .next (s.instHostCommand ch.val 0x12 tag.toNat ws)
/-- VI_DB_START. -/
def execViDbStart (ch : Fin 16) (tag : Byte) (ws : List W32) (s : State) : Out := .next (s.instHostCommand ch.val 0x13 tag.toNat ws)
/-- VI_RESET. -/
def execViReset (ch : Fin 16) (tag : Byte) (ws : List W32) (s : State) : Out := .next (s.instHostCommand ch.val 0x14 tag.toNat ws)
/-- VI_QOS. -/
def execViQos (ch : Fin 16) (tag : Byte) (ws : List W32) (s : State) : Out := .next (s.instHostCommand ch.val 0x15 tag.toNat ws)
/-- QP_CREATE. -/
def execQpCreate (ch : Fin 16) (tag : Byte) (ws : List W32) (s : State) : Out := .next (s.instHostCommand ch.val 0x20 tag.toNat ws)
/-- QP_DESTROY. -/
def execQpDestroy (ch : Fin 16) (tag : Byte) (ws : List W32) (s : State) : Out := .next (s.instHostCommand ch.val 0x21 tag.toNat ws)
/-- QP_START. -/
def execQpStart (ch : Fin 16) (tag : Byte) (ws : List W32) (s : State) : Out := .next (s.instHostCommand ch.val 0x22 tag.toNat ws)
/-- QP_STOP. -/
def execQpStop (ch : Fin 16) (tag : Byte) (ws : List W32) (s : State) : Out := .next (s.instHostCommand ch.val 0x23 tag.toNat ws)
/-- QP_DRAIN. -/
def execQpDrain (ch : Fin 16) (tag : Byte) (ws : List W32) (s : State) : Out := .next (s.instHostCommand ch.val 0x24 tag.toNat ws)
/-- QP_ABORT. -/
def execQpAbort (ch : Fin 16) (tag : Byte) (ws : List W32) (s : State) : Out := .next (s.instHostCommand ch.val 0x25 tag.toNat ws)
/-- INTR_BIND. -/
def execIntrBind (ch : Fin 16) (tag : Byte) (ws : List W32) (s : State) : Out := .next (s.instHostCommand ch.val 0x26 tag.toNat ws)
/-- RESET_STALE_DRAINED. -/
def execResetStaleDrained (inst : Fin 4096) (s : State) : Out :=
  if s.stopped then .next s else
  .next (s.resetDrained inst.val)
/-- RESET_SLOW. -/
def execResetSlow (inst : Fin 4096) (s : State) : Out :=
  if s.stopped then .next s else
  .next (s.resetLate inst.val)
/-- QP_DRAIN_DONE. -/
def execQpDrainDone (inst : Fin 4096) (loc : Fin 256) (s : State) : Out :=
  if s.stopped then .next s else
  .next (s.drainDone (qpKey inst.val loc.val))
/-- QP_DRAIN_TIMEOUT. -/
def execQpDrainTimeout (inst : Fin 4096) (loc : Fin 256) (s : State) : Out :=
  if s.stopped then .next s else
  .next (s.drainTimeout (qpKey inst.val loc.val))

/-- DEV_INFO. -/
def State.devInfo (s : State) : State × CmdEnd :=
  let g := (s.rd Reg.fmtGen).toNat
  (s, .now csOk [s.boot.buildId, g % 2 ^ 24, 65536 - s.qps.length])
/-- DEV_INFO. -/
def execDevInfo (ch : Fin 16) (tag : Byte) (s : State) : Out :=
  .next (s.hostCommand ch.val 0x01 tag.toNat [] fun s _ _ => s.devInfo)

/-- CAPTURE_EXPORT: records from CONS onward, as far as they exist and the ring has not overwritten them, go to host
memory from PF0, and CONS passes them. -/
def State.captureExport (s : State) (h : Nat) (w : Nat → Nat) : State × CmdEnd :=
  let size := 2 ^ s.rf Reg.capCfg capCfg_LOG2_RECORDS
  let prod := s.rf Reg.capProd capProd_PROD
  let cons := s.rf Reg.capCons capCons_CONS
  let have_ := (prod + 2 ^ 32 - cons) % 2 ^ 32
  let first := if size < have_ then (prod + 2 ^ 32 - size) % 2 ^ 32 else cons
  let n := min (min have_ size) (fld (w 3) 0 24)
  if !s.canIssue h 0 0 then (s, .now csOk [0, first]) else
    let base := s.rf Reg.capBase capBase_BASE
    let bs := (List.range n).flatMap fun i => s.ldBytes (base + (first + i) % 2 ^ 32 % size * 128) 128
    let s := s.hostWrite h 0 0 true (iova w 1) bs
    (s.setRf Reg.capCons capCons_CONS (first + n), .now csOk [n, first])
/-- CAPTURE_EXPORT. -/
def execCaptureExport (ch : Fin 16) (tag : Byte) (ws : List W32) (s : State) : Out :=
  .next (s.hostCommand ch.val 0x31 tag.toNat ws fun s h w => s.captureExport h w)

end Sys2Proof.Machine
end

