-- ==== Sys2Proof/Machine/Pipes.lean ====
section
/-! DEFINITION. The registers and tables of the pipelines: profiles and program slots, table descriptors, staged table
stores, lookups and range comparators (R82, R83, R160 to R163, R168 to R175), and the banks of R413. -/

namespace Sys2Proof.Machine

/-! ### Banks (R413, R416) -/

/-- The bank that holds a device address. -/
def bankOf (a : Nat) : Option Nat :=
  if a < 0x08000000 then some (a / 0x400000)
  else if a < 0x0A000000 then some (32 + (a - 0x08000000) / 0x200000)
  else if a < 0x0B000000 then some (48 + (a - 0x0A000000) / 0x80000)
  else if a < 0x0C800000 then some (80 + (a - 0x0B000000) / 0x180000)
  else if a < 0x0D000000 then some (96 + (a - 0x0C800000) / 0x100000)
  else if 0x100000000 ≤ a ∧ a < 0x1900000000 then some (177 + a / 256 % 4)
  else none

/-- Is the bank marked LOST or DROPPED? -/
def State.bankMarked (s : State) (b : Nat) : Bool := (s.rd (Reg.retStatus b)).toNat % 4 ≠ 0

/-- Does the address lie in a marked bank? -/
def State.addrLost (s : State) (a : Nat) : Bool :=
  match bankOf a with
  | some b => s.bankMarked b
  | none => false

/-! ### Program slots (R160 to R163) -/

/-- The island of pipeline `n`, 0–15 ingress and 16–31 egress. -/
def pipeIsland (n : Nat) : Nat := 0x21 + n

/-- PIPE.PROFILE of a pipeline as a 64-bit value. -/
def State.profile (s : State) (n p : Nat) : Nat := s.rdN (ctlAddr (pipeIsland n) (0x200 + 8 * p)) 2

/-- Does a profile value run slot `m` at stage `k`? -/
def profileRuns (v k m : Nat) : Bool := bit v (48 + k) && fld v (4 * k) 4 = m

/-- Does some profile of the pipeline name the slot with its RUN bit? -/
def State.slotNamed (s : State) (n k m : Nat) : Bool := (List.range 16).any fun p => profileRuns (s.profile n p) k m

/-- The key of a slot among those whose naming has ended. -/
def slotKey (n k m : Nat) : Nat := (n * 12 + k) * 16 + m

/-- Is a program slot in use (R162)? -/
def State.slotInUse (s : State) (n k m : Nat) : Bool :=
  s.slotNamed n k m || (Tab.find s.slotUntil (slotKey n k m)).isSome

/-- A write of PIPE.PROFILE[p]: the slots whose last naming it ends stay in use for 1 µs. -/
def State.profileSet (s : State) (n p v : Nat) : State :=
  let old := s.profile n p
  let s := s.wrN (ctlAddr (pipeIsland n) (0x200 + 8 * p)) 2 (v % 2 ^ 60)
  (List.range 12).foldl (fun s k =>
    let m := fld old (4 * k) 4
    if bit old (48 + k) && !s.slotNamed n k m then { s with slotUntil := Tab.put s.slotUntil (slotKey n k m) (s.ictNs + 1000) }
    else s) s

/-- PIPE_PROFILE_WRITE. -/
def execPipeProfileWrite (pipe : Fin 32) (p : Fin 16) (v : W64) (s : State) : Out :=
  .next (s.rowWrite (Reg.pipeProfile pipe.val p.val) 8 v.toNat fun s => s.profileSet pipe.val p.val v.toNat)

/-- SLOT_RELEASE: 1 µs after the write that ended its last naming, the slot is no longer in use. -/
def execSlotRelease (pipe : Fin 32) (stage : Fin 12) (slot : Fin 16) (s : State) : Out :=
  let k := slotKey pipe.val stage.val slot.val
  .next (match Tab.find s.slotUntil k with
    | some t => if t ≤ s.ictNs then { s with slotUntil := Tab.del s.slotUntil k } else s
    | none => s)

/-- A word of PIPE.SLOT_TBL; ignored and counted while its slot is in use. -/
def State.slotTblSet (s : State) (n k m w v : Nat) : State :=
  if s.slotInUse n k m then s.pipeCount n 10
  else s.wr (ctlAddr (pipeIsland n) (0x4000 + 0x100 * k + 0x10 * m + 4 * w)) (BitVec.ofNat 32 (v &&& (if w = 3 then 0x9F9F9F else 0x9F9F9F9F)))

/-- A word of PIPE.PROG; ignored and counted while its slot is in use. -/
def State.progSet (s : State) (n k m i v : Nat) : State :=
  if s.slotInUse n k m then s.pipeCount n 10
  else s.wr (ctlAddr (pipeIsland n) (0x800000 + 0x1000 * k + 0x80 * m + 4 * i)) (BitVec.ofNat 32 v)

/-- PIPE_PROG_WRITE: a word of a stage program (secure half) or of a slot's table bindings. -/
def execPipeProgWrite (st : Fin 4) (pipe : Fin 32) (stage : Fin 12) (slot : Fin 16) (tbl : Bool) (i : Fin 32) (v : W32)
    (s : State) : Out :=
  .next (if tbl then
      s.writeBy (.steward st.val) (Reg.pipeSlotTbl pipe.val stage.val slot.val + 4 * (i.val % 4)) 4 v.toNat
        fun s => s.slotTblSet pipe.val stage.val slot.val (i.val % 4) v.toNat
    else s.writeBy (.steward st.val) (Reg.pipeProg pipe.val stage.val slot.val i.val) 4 v.toNat
      fun s => s.progSet pipe.val stage.val slot.val i.val v.toNat)

/-! ### Table descriptors (R168, R172) -/

/-- A table descriptor. -/
structure Tdesc where
  base : Nat
  log2 : Nat
  klen : Nat
  res : Nat
  direct : Bool
  valid : Bool
  seed : Nat
deriving DecidableEq, Repr

/-- The descriptor that a 64-bit value of PIPE.TABLE holds; KEYLEN and RESULTS as counts of 8-byte words. -/
def tdescOf (v : Nat) : Tdesc :=
  ⟨64 * fld v 0 13, fld v 16 5, fld v 21 2 + 1, fld v 23 2 + 1, bit v 25, bit v 26, fld v 32 32⟩

/-- PIPE.TABLE[t] of the pipeline that owns partition `q`. -/
def State.tdesc (s : State) (q t : Nat) : Tdesc := tdescOf (s.rdN (ctlAddr (pipeIsland q) (0x600 + 8 * t)) 2)

/-- Bytes of an entry's slot. -/
def Tdesc.slot (d : Tdesc) : Nat := (8 + (if d.direct then 0 else 8 * d.klen) + 8 * d.res + 15) / 16 * 16
/-- Bytes of a table. -/
def Tdesc.size (d : Tdesc) : Nat := 2 ^ d.log2 * 4 * d.slot

/-- The entry that a byte of partition `q` belongs to, and its place in it: that of the lowest-numbered valid descriptor
whose range holds it (R171). -/
def State.entryAt (s : State) (q off : Nat) : Option (Nat × Nat) :=
  match (List.range 32).find? fun t => (s.tdesc q t).valid && decide ((s.tdesc q t).base ≤ off ∧ off < (s.tdesc q t).base + (s.tdesc q t).size) with
  | some t =>
    let d := s.tdesc q t
    some (d.base + (off - d.base) / d.slot * d.slot, (off - d.base) % d.slot)
  | none => none

/-- The first device address of partition `q`. -/
def partBase (q : Nat) : Nat := 0x0A000000 + q * 0x80000

/-- The 8-byte words that a staging buffer holds. -/
def Staging.words (b : Staging) : Nat := ((b.bytes.map fun e => e.1 / 8).eraseDups).length

/-- Empty the staging buffer with a key, counting its uncommitted words. -/
def State.dropStaging (s : State) (q key : Nat) : State :=
  match Tab.find s.staging key with
  | some b => ({ s with staging := Tab.del s.staging key }).pipeCount q 9 b.words
  | none => s

/-- Empty every staging buffer of a partition. -/
def State.dropStagings (s : State) (q : Nat) : State :=
  s.staging.foldl (fun s e => if e.1 / 260 = q then s.dropStaging q e.1 else s) s

/-- Is a table locked: named by a slot in use or by a valid CL.LOOK_BIND entry (R162)? -/
def State.tableLocked (s : State) (n t : Nat) : Bool :=
  ((List.range 12).any fun k => (List.range 16).any fun m => s.slotInUse n k m &&
    (List.range 15).any fun j =>
      let b := fld (s.rdN (ctlAddr (pipeIsland n) (0x4000 + 0x100 * k + 0x10 * m)) 4) (8 * j) 8
      bit b 7 && b % 32 = t)
  || (List.range 16).any fun c => (List.range 16).any fun j =>
      let b := (s.rd (Reg.lookBind c j)).toNat
      bit b 10 && b % 32 = n && fld b 5 5 = t

/-- A write of PIPE.TABLE[t] (R162, R168, R171, R172). -/
def State.tableSet (s : State) (n t v : Nat) : State :=
  if s.tableLocked n t then s.pipeCount n 10 else
    let d := tdescOf v
    let old := s.tdesc n t
    if 16 < d.log2 ∨ 0x80000 < d.base + d.size then s else
      let s := s.wrN (ctlAddr (pipeIsland n) (0x600 + 8 * t)) 2 (fld v 0 13 + 2 ^ 16 * fld v 16 11 + 2 ^ 32 * fld v 32 32)
      let changed := old.base ≠ d.base || old.log2 ≠ d.log2 || old.klen ≠ d.klen || old.res ≠ d.res || old.direct != d.direct
      if (d.valid && !old.valid) || (old.valid && changed) then s.dropStagings n else s

/-- PIPE_TABLE_WRITE. -/
def execPipeTableWrite (pipe : Fin 32) (t : Fin 32) (v : W64) (s : State) : Out :=
  .next (s.rowWrite (Reg.pipeTable pipe.val t.val) 8 v.toNat fun s => s.tableSet pipe.val t.val v.toNat)

/-! ### Stores to device space (R171) -/

/-- The staging buffer of an initiator: the worker core of a thread, or a steward. -/
def stagingKey (q n : Nat) : Nat := 260 * q + (if n < 2048 then n / 8 else 256 + (n - 2048))

/-- A store by thread or steward `n` to a table partition: staged, committed with its entry's control word, or written
directly where the byte belongs to no entry. -/
def State.tableStore (s : State) (n a : Nat) (bs : List Byte) : State :=
  let q := (a - 0x0A000000) / 0x80000
  let off := (a - 0x0A000000) % 0x80000
  match s.entryAt q off with
  | none => s.stBytes a bs
  | some (e, o) =>
    let key := stagingKey q n
    let s := match Tab.find s.staging key with
      | some b => if b.entry = e then s else s.dropStaging q key
      | none => s
    let b := Tab.get { entry := e } s.staging key
    if o < 8 then
      let s := b.bytes.foldl (fun s x => s.stByte (partBase q + e + x.1) x.2) s
      ({ s with staging := Tab.del s.staging key }).stBytes a bs
    else
      let bytes := (List.range bs.length).foldl (fun t i => Tab.put t (o + i) (bs.getD i 0)) b.bytes
      { s with staging := Tab.put s.staging key { b with bytes := bytes } }

/-- A store by thread or steward `n` to device space. -/
def State.devStore (s : State) (n a : Nat) (bs : List Byte) : State :=
  if 0x0A000000 ≤ a ∧ a < 0x0B000000 then s.tableStore n a bs else s.stBytes a bs

/-! ### Lookups (R82, R169, R170) -/

/-- The way of a bucket whose entry is valid and holds the key: the entry's partition offset. -/
def State.findWay (s : State) (q : Nat) (d : Tdesc) (b : Nat) (key : List Byte) : Option Nat :=
  ((List.range 4).map fun w => d.base + (4 * b + w) * d.slot).find? fun e =>
    bit (s.ldByte (partBase q + e)).toNat 0 && s.ldBytes (partBase q + e + 8) key.length = key

/-- The entry that a lookup of table `t` in partition `q` hits. -/
def State.lookEntry (s : State) (q t : Nat) (key : List Byte) : Option Nat :=
  let d := s.tdesc q t
  if !d.valid || key.length ≠ 8 * d.klen || s.bankMarked (48 + q) then none
  else if d.direct then
    let e := d.base + leNat (key.take 8) % 2 ^ (d.log2 + 2) * d.slot
    if bit (s.ldByte (partBase q + e)).toNat 0 then some e else none
  else
    let h := crcUpdate polyCrc32c d.seed key
    let b1 := h % 2 ^ d.log2
    let x := h / 65536 % 2 ^ d.log2 ^^^ b1
    let b2 := if x = b1 then b1 ^^^ 1 else x
    match s.findWay q d b1 key with
    | some e => some e
    | none => if d.log2 = 0 then none else s.findWay q d b2 key

/-- A lookup: the result words on a hit, extra words zero. -/
def State.lookup (s : State) (q t : Nat) (key : List Byte) (n : Nat) : Option (List W64) :=
  match s.lookEntry q t key with
  | none => none
  | some e =>
    let d := s.tdesc q t
    let o := partBase q + e + 8 + (if d.direct then 0 else 8 * d.klen)
    some ((List.range n).map fun i => if i < d.res then BitVec.ofNat 64 (s.ldNat (o + 8 * i) 8) else 0)

/-- RCMP (R83, R174): the comparators of a stage that carry the tag and whose range holds the value. -/
def State.rangeCmp (s : State) (n stage tag v : Nat) : W64 :=
  BitVec.ofNat 64 ((List.range 64).foldl (fun m i =>
    let c := s.rdN (ctlAddr (pipeIsland n) (0x1000 + 0x200 * stage + 8 * i)) 2
    if bit c 36 && fld c 32 4 = tag && decide (fld c 0 16 ≤ v ∧ v ≤ fld c 16 16) then m + 2 ^ i else m) 0)

end Sys2Proof.Machine
end

