-- ==== Sys2Proof/Machine/FerryOps.lean ====
section
/-! DEFINITION. Ferry DMA (R355 to R367). -/

namespace Sys2Proof.Machine

/-- Offset `o` in the registers of channel `c` (R355). -/
def ferryAddr (c o : Nat) : Nat := ctlAddr 0x52 ((if c < 16 then 0x810000 else 0x10000) + 0x40 * c + o)

/-- A field of CH_CFG. -/
def State.fCfg (s : State) (c : Nat) (f : Fld) : Nat := s.rf (ferryAddr c 0) f
/-- TAIL. -/
def State.fTail (s : State) (c : Nat) : Nat := s.rf (ferryAddr c 8) ferryTailN_TAIL
/-- HEAD. -/
def State.fHead (s : State) (c : Nat) : Nat := s.rf (ferryAddr c 0xC) ferryHeadN_HEAD
/-- A field of CH_STATUS. -/
def State.fStat (s : State) (c : Nat) (f : Fld) : Nat := s.rf (ferryAddr c 0x10) f
/-- Set a field of CH_STATUS. -/
def State.setFStat (s : State) (c : Nat) (f : Fld) (v : Nat) : State := s.setRf (ferryAddr c 0x10) f v

/-- A channel. -/
def State.ferryCh (s : State) (c : Nat) : Ferry := Tab.get {} s.ferry c
/-- Replace a channel. -/
def State.setFerry (s : State) (c : Nat) (f : Ferry) : State := { s with ferry := Tab.set {} s.ferry c f }

/-- Set EVT, HALF or FULL, with the event of type 0x4 (R356). -/
def State.ferryFlag (s : State) (c : Nat) (f : Fld) : State := (s.setFStat c f 1).raiseSource 4 c

/-- The channel enters STOPPED with a cause. -/
def State.ferryStopped (s : State) (c cause : Nat) : State :=
  (s.setFStat c ferryStatusN_STATE 2).setFStat c ferryStatusN_CAUSE cause

/-- The address of ring entry `x`. -/
def State.ferryEntry (s : State) (c x : Nat) : Nat :=
  s.fCfg c ferryCfgN_BASE / 32 * 32 + 32 * (x % 2 ^ s.fCfg c ferryCfgN_LOG2_ENTRIES)

/-! ### Descriptors (R359, R363 to R365) -/

/-- A descriptor as it stands in memory. -/
def State.ferryRead (s : State) (a : Nat) : FerryDesc :=
  ⟨s.ldNat a 8, s.ldNat (a + 8) 8, s.ldNat (a + 0x10) 4, s.ldNat (a + 0x14) 4, s.ldNat (a + 0x18) 4, s.ldNat (a + 0x1C) 4⟩

/-- SRC_SPACE: 0 device, 1 host, 2 frame. -/
def FerryDesc.srcSpace (d : FerryDesc) : Nat := fld d.ctrl 0 2
/-- DST_SPACE: 0 device, 1 host. -/
def FerryDesc.dstSpace (d : FerryDesc) : Nat := fld d.ctrl 2 2
/-- SRC_WRAP. -/
def FerryDesc.srcWrap (d : FerryDesc) : Nat := fld d.ctrl 5 5
/-- DST_WRAP. -/
def FerryDesc.dstWrap (d : FerryDesc) : Nat := fld d.ctrl 10 5
/-- INSTANCE. -/
def FerryDesc.inst (d : FerryDesc) : Nat := fld d.ctrl 15 12
/-- PASID. -/
def FerryDesc.pasid (d : FerryDesc) : Nat := fld d.host 0 20
/-- LINK. -/
def FerryDesc.link (d : FerryDesc) : Nat := fld d.host 20 1
/-- The function that host accesses are issued from (R361). -/
def FerryDesc.fn (d : FerryDesc) : Nat := if d.pasid = 0 then 0 else 1
/-- The start address of the source; the byte offset for a frame. -/
def FerryDesc.srcStart (d : FerryDesc) : Nat := if d.srcSpace = 2 then fld d.src 32 16 else d.src

/-- The address of byte `i` of a side with start `a` and wrap `w` (R363). -/
def sideAddr (a w i : Nat) : Nat := if w = 0 then a + i else a / 2 ^ w * 2 ^ w + (a + i) % 2 ^ w

/-- The contiguous pieces of a side, in order. -/
def sidePieces (a w n : Nat) : List (Nat × Nat) :=
  if w = 0 then [(a, n)] else
    let first := min n (2 ^ w - a % 2 ^ w)
    if first < n then [(a, first), (a / 2 ^ w * 2 ^ w, n - first)] else [(a, n)]

/-- Do two lists of pieces share a byte? -/
def piecesMeet (p q : List (Nat × Nat)) : Bool :=
  p.any fun x => q.any fun y => decide (x.1 < y.1 + y.2 ∧ y.1 < x.1 + x.2)

/-- Does a range of device addresses touch a reserved one (R15, R17)? -/
def rangeReserved (a n : Nat) : Bool := !(decide (a + n ≤ 0x0D000000) || decide (0x100000000 ≤ a ∧ a + n ≤ 0x1900000000))

/-- Same-space ranges that overlap (R364). -/
def FerryDesc.overlaps (d : FerryDesc) : Bool :=
  d.srcSpace = d.dstSpace && piecesMeet (sidePieces d.srcStart d.srcWrap d.len) (sidePieces d.dst d.dstWrap d.len)

/-- Is the wrap value one of the reserved encodings? -/
def wrapBad (w : Nat) : Bool := (1 ≤ w && w ≤ 5) || w = 31

/-- BAD_DESC (R365). -/
def FerryDesc.bad (d : FerryDesc) : Bool :=
  decide (d.len = 0 ∨ 16777216 < d.len) || decide (fld d.host 21 11 ≠ 0) || decide (fld d.ctrl 27 4 ≠ 0)
    || decide (fld d.gen 16 16 ≠ 0) || decide (d.srcSpace = 3) || decide (2 ≤ d.dstSpace)
    || wrapBad d.srcWrap || wrapBad d.dstWrap
    || (d.srcWrap ≠ 0 && decide (2 ^ d.srcWrap < d.len)) || (d.dstWrap ≠ 0 && decide (2 ^ d.dstWrap < d.len))
    || (d.overlaps && (d.srcWrap ≠ 0 || d.dstWrap ≠ 0))

/-- The frame that a handle names (R361); the form of a handle is open. -/
def State.frameOf (s : State) (handle : Nat) : Option Nat :=
  (s.frames.find? fun e => (Config.frameHandle e.1).toNat % 2 ^ 32 = handle % 2 ^ 32).map (·.1)

/-- The frame that the descriptor of entry `x` reads. -/
def State.ferryFrame (s : State) (c x : Nat) (d : FerryDesc) : Option Nat :=
  match (s.ferryCh c).named.find? fun e => e.1 = x with
  | some e => some e.2
  | none => s.frameOf d.src

/-- ADDR_ERR (R365): a reserved device address, or a range beyond the frame's LEN. -/
def State.ferryAddrBad (s : State) (c x : Nat) (d : FerryDesc) : Bool :=
  let ps := sidePieces d.srcStart d.srcWrap d.len
  (match d.srcSpace with
    | 0 => ps.any fun p => rangeReserved p.1 p.2
    | 2 => match s.ferryFrame c x d with
      | some fid => ps.any fun p => decide ((s.frame fid).len < p.1 + p.2)
      | none => true
    | _ => false)
  || (d.dstSpace = 0 && (sidePieces d.dst d.dstWrap d.len).any fun p => rangeReserved p.1 p.2)

/-- The beats of a transfer in ascending order: the bytes of each 64-byte block of the destination (R362). -/
def beatList : Nat → FerryDesc → Nat → List (Nat × Nat)
  | 0, _, _ => []
  | fuel + 1, d, o =>
    if d.len ≤ o then [] else
      let n := min (64 - sideAddr d.dst d.dstWrap o % 64) (d.len - o)
      (o, n) :: beatList fuel d (o + n)

/-- The beats in issue order: descending where an overlapping copy moves upward (R364). -/
def FerryDesc.beats (d : FerryDesc) : List (Nat × Nat) :=
  let bs := beatList (d.len / 64 + 2) d 0
  if d.overlaps && decide (d.srcStart < d.dst) then bs.reverse else bs

/-! ### Running a channel -/

/-- Why the next beat cannot be issued: STALE_GEN, LOST, HOST_ERR (R361, R365). -/
def State.beatRefused (s : State) (d : FerryDesc) (first : Bool) (o n : Nat) : Option Nat :=
  let host := d.srcSpace = 1 || d.dstSpace = 1
  if d.inst ≠ 0 ∧ (first ∨ host) ∧ s.genStale d.inst (fld d.gen 0 16) then some 0x06
  else if d.srcSpace = 0 && (List.range n).any fun i => s.addrLost (sideAddr d.srcStart d.srcWrap (o + i)) then some 0x07
  else if host && !s.canIssue d.link d.fn d.pasid then some 0x02
  else none

/-- Start the host read of the part of the issued beat that has not arrived. -/
def State.ferryFetch (s : State) (c : Nat) : State :=
  let f := s.ferryCh c
  match f.desc, f.issued with
  | some d, some (o, n) =>
    let have_ := f.got.length
    if d.srcSpace = 1 ∧ have_ < n then
      let a := sideAddr d.srcStart d.srcWrap (o + have_)
      let k := match sidePieces a d.srcWrap (n - have_) with
        | p :: _ => p.2
        | [] => n - have_
      let r := s.hostRead .ferry c d.link d.fn d.pasid a k
      match r.2 with
      | some _ => r.1
      | none => r.1.setFerry c { f with failed := true }
    else s
  | _, _ => s

/-- Host data for the issued beat of a channel has arrived, or its read has failed. -/
def State.ferryData (s : State) (c : Nat) (bs : Option (List Byte)) : State :=
  let f := s.ferryCh c
  match bs with
  | some bs => (s.setFerry c { f with got := f.got ++ bs }).ferryFetch c
  | none => s.setFerry c { f with failed := true }

/-- Issue the next beat. -/
def State.ferryIssue (s : State) (c : Nat) : State :=
  let f := s.ferryCh c
  match f.beats with
  | [] => s
  | b :: rest => (s.setFerry c { f with issued := some b, beats := rest, got := [], failed := false }).ferryFetch c

/-- The frame that entry `x` names is kept until its descriptor ends (R361); `own`: only where OWN is 1. -/
def State.ferryName (s : State) (c x : Nat) (own : Bool) : State :=
  let d := s.ferryRead (s.ferryEntry c x)
  let f := s.ferryCh c
  if d.srcSpace = 2 && (bit d.ctrl 31 || !own) && !f.named.any (fun e => e.1 = x) then
    match s.frameOf d.src with
    | some fid => (s.modFrame fid fun g => { g with names := g.names + 1 }).setFerry c { f with named := f.named ++ [(x, fid)] }
    | none => s
  else s

/-- The descriptor of entry `x` has ended: its frame is kept no longer for it. -/
def State.ferryEndName (s : State) (c x : Nat) : State :=
  let f := s.ferryCh c
  let s := (f.named.filter fun e => e.1 = x).foldl (fun s e => s.unname e.2) s
  s.setFerry c { f with named := f.named.filter fun e => e.1 ≠ x }

/-- A descriptor ends: RESULT, then CTRL with OWN clear, HEAD, and EVT with INT (R360, R361). -/
def State.ferryFinish (s : State) (c st done : Nat) : State :=
  let f := s.ferryCh c
  let x := s.fHead c
  let a := s.ferryEntry c x
  let ctrl := s.ldNat (a + 0x18) 4
  let s := (s.stBytes (a + 0x1C) (leBytes 4 (done + 2 ^ 25 * st))).stBytes (a + 0x18) (leBytes 4 (ctrl % 2 ^ 31))
  let s := (s.setFerry c { f with desc := none, beats := [], done := 0, issued := none, got := [], failed := false }).ferryEndName c x
  let s := s.setRf (ferryAddr c 0xC) ferryHeadN_HEAD (x + 1)
  if bit ctrl 4 then s.ferryFlag c ferryStatusN_EVT else s

/-- An observation channel stops on an error (R367). -/
def State.ferryObsError (s : State) (c st : Nat) : State :=
  let f := s.ferryCh c
  let s := s.setFerry c { f with desc := none, beats := [], done := 0, issued := none, got := [], failed := false, obs := false, stop := false }
  ((s.ferryEndName c (s.fHead c)).ferryStopped c 4).setFStat c ferryStatusN_CODE st

/-- Free bytes at the destination of a beat that failed (R366). -/
def State.ferrySpoil (s : State) (d : FerryDesc) (o n : Nat) : State :=
  if d.dstSpace = 0 then
    let bs := (List.range n).map fun i => Config.freeByte (s.free + i)
    { s.stBytes (sideAddr d.dst d.dstWrap o) bs with free := s.free + n }
  else s

/-- Bring a channel to its next issued beat, to IDLE or to STOPPED; a power entry holds it before a new beat (R417). -/
def State.ferryRun : Nat → Nat → State → State
  | 0, _, s => s
  | fuel + 1, c, s =>
    let f := s.ferryCh c
    match f.desc with
    | some d =>
      if f.issued.isSome then s
      else if f.stop then
        if f.obs then
          let s := (s.setFerry c { f with desc := none, beats := [], done := 0, obs := false }).ferryEndName c (s.fHead c)
          if f.disable then s else (s.setFerry c { s.ferryCh c with stop := false }).ferryStopped c 2
        else ferryRun fuel c (s.ferryFinish c 0x08 f.done)
      else if s.halting then s
      else match f.beats with
        | [] => s
        | (o, n) :: _ =>
          match s.beatRefused d (f.done = 0) o n with
          | some st => if f.obs then s.ferryObsError c st else ferryRun fuel c (s.ferryFinish c st f.done)
          | none => s.ferryIssue c
    | none =>
      if f.disable then s
      else if f.stop then (s.setFerry c { f with stop := false }).ferryStopped c 2
      else
        let x := s.fHead c
        let a := s.ferryEntry c x
        if x = s.fTail c then s.setFStat c ferryStatusN_STATE 0
        else if s.halting then s.setFStat c ferryStatusN_STATE 1
        else if s.addrLost a then s.ferryStopped c 3
        else
          let d := s.ferryRead a
          if !bit d.ctrl 31 then s.ferryStopped c 1
          else
            let s := (s.setFStat c ferryStatusN_STATE 1).ferryName c x true
            let f := s.ferryCh c
            if d.bad then ferryRun fuel c (s.ferryFinish c 0x05 0)
            else if s.ferryAddrBad c x d then ferryRun fuel c (s.ferryFinish c 0x01 0)
            else ferryRun fuel c (s.setFerry c { f with desc := some d, beats := d.beats, done := 0 })

/-- Run a channel on; each posted descriptor takes at most three rounds. -/
def State.ferryGo (s : State) (c : Nat) : State := State.ferryRun (3 * ((s.fTail c + 65536 - s.fHead c) % 65536) + 4) c s

/-! ### Register writes (R355, R357, R358) -/

/-- Forget which frames the posted entries of a channel name. -/
def State.ferryUnname (s : State) (c : Nat) : State :=
  let f := s.ferryCh c
  (f.named.foldl (fun s e => s.unname e.2) s).setFerry c { f with named := [] }

/-- A write of EN = 0 (R358): at once where the channel is IDLE or STOPPED; else no further beat is issued, and
FERRY_CH_DISABLED completes it. -/
def State.ferryDisable (s : State) (c : Nat) : State :=
  let st := s.fStat c ferryStatusN_STATE
  if st = 1 ∨ st = 3 then
    let s := s.setFerry c { s.ferryCh c with stop := true, disable := true }
    s.ferryGo c
  else ((s.ferryUnname c).ferryStopped c 2).setRf (ferryAddr c 0) ferryCfgN_EN 0

/-- A 64-bit write of CH_CFG. -/
def State.ferryCfgSet (s : State) (c v : Nat) : State :=
  let same := fld v 0 48 / 32 = s.fCfg c ferryCfgN_BASE / 32 && fld v 48 4 = s.fCfg c ferryCfgN_LOG2_ENTRIES
    && fld v 52 1 = s.fCfg c ferryCfgN_MODE
  if fld v 48 4 < 4 then s
  else if s.fCfg c ferryCfgN_EN = 1 then
    if !same || bit v 53 then s else s.ferryDisable c
  else
    let s := s.wrN (ferryAddr c 0) 2 (fld v 0 48 / 32 * 32 + 2 ^ 48 * fld v 48 6)
    if bit v 53 then
      let s := s.ferryUnname c
      let s := (s.setRf (ferryAddr c 8) ferryTailN_TAIL 0).setRf (ferryAddr c 0xC) ferryHeadN_HEAD 0
      s.setFStat c ferryStatusN_STATE 0
    else s

/-- A write of TAIL (R357): ignored where it would make more than 2^n entries outstanding; an IDLE channel in normal mode
starts. -/
def State.ferryTailSet (s : State) (c v : Nat) : State :=
  let t := v % 65536
  let old := s.fTail c
  if 2 ^ s.fCfg c ferryCfgN_LOG2_ENTRIES < (t + 65536 - s.fHead c) % 65536 then s else
    let s := s.setRf (ferryAddr c 8) ferryTailN_TAIL t
    let fresh := (t + 65536 - old) % 65536
    let s := if s.fCfg c ferryCfgN_EN = 1 ∧ s.fCfg c ferryCfgN_MODE = 0 ∧ fresh ≤ 2 ^ s.fCfg c ferryCfgN_LOG2_ENTRIES
      then (List.range fresh).foldl (fun s i => s.ferryName c ((old + i) % 65536) true) s else s
    if s.fCfg c ferryCfgN_EN = 1 ∧ s.fCfg c ferryCfgN_MODE = 0 ∧ s.fStat c ferryStatusN_STATE = 0 then s.ferryGo c else s

/-- START of an observation channel (R367): the descriptor at HEAD is read once. -/
def State.ferryObserve (s : State) (c : Nat) : State :=
  let x := s.fHead c
  let a := s.ferryEntry c x
  if s.addrLost a then s.ferryStopped c 3 else
    let s := s.ferryName c x false
    let d := s.ferryRead a
    if d.bad || d.dstWrap = 0 || 2 ^ d.dstWrap ≠ d.len then s.ferryObsError c 0x05
    else if s.ferryAddrBad c x d then s.ferryObsError c 0x01
    else
      let f := s.ferryCh c
      let s := s.setFStat c ferryStatusN_STATE 3
      (s.setFerry c { f with desc := some d, beats := d.beats, done := 0, obs := true, stop := false }).ferryGo c

/-- A write of CH_CTL: START, with the frames that the posted entries name by now, or STOP. -/
def State.ferryCtlSet (s : State) (c v : Nat) : State :=
  let st := s.fStat c ferryStatusN_STATE
  if s.fCfg c ferryCfgN_EN = 0 ∨ (s.ferryCh c).disable then s
  else if bit v 1 then
    if st = 1 ∨ st = 3 then (s.setFerry c { s.ferryCh c with stop := true }).ferryGo c
    else if st = 0 then s.ferryStopped c 2 else s
  else if bit v 0 then
    if s.fCfg c ferryCfgN_MODE = 1 then (if st = 3 then s else s.ferryObserve c)
    else if st = 2 then
      let n := (s.fTail c + 65536 - s.fHead c) % 65536
      ((List.range n).foldl (fun s i => s.ferryName c ((s.fHead c + i) % 65536) true) s).ferryGo c
    else s
  else s

/-! ### Beats (R362, R366, R367) -/

/-- The source bytes of a beat. -/
def State.beatBytes (s : State) (c : Nat) (d : FerryDesc) (o n : Nat) : List Byte :=
  match d.srcSpace with
  | 0 => (List.range n).map fun i => s.ldByte (sideAddr d.srcStart d.srcWrap (o + i))
  | 1 => ((s.ferryCh c).got).take n
  | _ => match s.ferryFrame c (s.fHead c) d with
    | some fid => (List.range n).map fun i => (s.frame fid).data.getD (sideAddr d.srcStart d.srcWrap (o + i)) 0
    | none => List.replicate n 0

/-- Write a beat to its destination. -/
def State.beatWrite (s : State) (d : FerryDesc) (o : Nat) (bs : List Byte) : State :=
  let a := sideAddr d.dst d.dstWrap o
  if d.dstSpace = 0 then s.stBytes a bs
  else
    let t := s.hostWrite d.link d.fn d.pasid true a bs
    if d.fn = 1 ∧ s.canIssue d.link 1 d.pasid then t.watchHead d.link d.pasid a bs else t

/-- The halves of an observation pass that end with a beat (R367). -/
def State.obsFlags (s : State) (c len before after : Nat) : State :=
  let put := fun (s : State) (f : Fld) =>
    (if s.fStat c f = 1 then s.setFStat c ferryStatusN_OBS_OVERRUN 1 else s).ferryFlag c f
  let s := if before < len / 2 ∧ len / 2 ≤ after then put s ferryStatusN_HALF else s
  if after = len then put s ferryStatusN_FULL else s

/-- The issued beat completes or fails, and the channel goes on. -/
def State.ferryBeat (s : State) (c : Nat) (eccBad : Bool) : State :=
  let f := s.ferryCh c
  match f.desc, f.issued with
  | some d, some (o, n) =>
    if d.srcSpace = 1 ∧ !f.failed ∧ f.got.length < n then s else
      let last := f.beats.isEmpty
      let err := if d.srcSpace = 1 && f.failed then some 0x02
        else if eccBad && d.srcSpace ≠ 1 then some 0x03
        else if d.dstSpace = 1 && !s.canIssue d.link d.fn d.pasid then some 0x02
        else none
      match err with
      | some e =>
        let s := s.ferrySpoil d o n
        let s := if e = 0x03 then s.eccError else s
        let st := if last then 0x04 else e
        if f.obs then
          if f.disable then (s.setFerry c { f with desc := none, beats := [], done := 0, issued := none, obs := false }).ferryEndName c (s.fHead c)
          else s.ferryObsError c st
        else (s.ferryFinish c st f.done).ferryGo c
      | none =>
        let s := s.beatWrite d o (s.beatBytes c d o n)
        let f := { f with done := f.done + n, issued := none, got := [], failed := false }
        if f.obs then
          let s := if f.disable then s else s.obsFlags c d.len (f.done - n) f.done
          let f := if last then { f with beats := d.beats, done := 0 } else f
          (s.setFerry c f).ferryGo c
        else if last ∧ !f.stop then ((s.setFerry c f).ferryFinish c 0x00 d.len).ferryGo c
        else (s.setFerry c f).ferryGo c
  | _, _ => s

/-- Has channel `c` an issued beat that can complete? -/
def State.ferryReady (s : State) (c : Nat) : Bool :=
  let f := s.ferryCh c
  match f.desc, f.issued with
  | some d, some (_, n) => d.srcSpace ≠ 1 || f.failed || decide (n ≤ f.got.length)
  | _, _ => false

/-- Is it the turn of channel `c`: no channel between the one served last and `c` has a beat ready (R127, R355)? -/
def State.ferryTurnOf (s : State) (c : Nat) : Bool :=
  s.ferryReady c && !(List.range ((c + 127 - s.ferryTurn) % 64)).any fun i => s.ferryReady ((s.ferryTurn + 1 + i) % 64)

/-- The channels whose ring lies in bank `b` stop with cause LOST (R357, R416). -/
def State.ferryLose (s : State) (b : Nat) : State :=
  (List.range 64).foldl (fun s c =>
    let inBank := (List.range (2 ^ s.fCfg c ferryCfgN_LOG2_ENTRIES)).any fun i => bankOf (s.ferryEntry c i) = some b
    if s.fCfg c ferryCfgN_EN = 1 ∧ s.fStat c ferryStatusN_STATE ≠ 2 ∧ inBank then
      let f := s.ferryCh c
      let s := s.setFerry c { f with desc := none, beats := [], done := 0, issued := none, got := [], failed := false, obs := false, stop := f.disable }
      if f.disable then s else s.ferryStopped c 3
    else s) s

/-- FERRY_BEAT: the channels with work are served in round-robin, and a beat named out of turn is not served; no beat completes in P2 and P3, whose entry has let the issued ones end (R417). -/
def execFerryBeat (ch : Fin 64) (eccBad : Bool) (s : State) : Out :=
  .next (if s.pstate = 2 ∨ s.pstate = 3 ∨ !s.ferryTurnOf ch.val then s
    else ({ s with ferryTurn := ch.val } : State).ferryBeat ch.val eccBad)

/-- FERRY_CH_DISABLED: the issued beats of a disabled channel have completed. -/
def execFerryChDisabled (ch : Fin 64) (s : State) : Out :=
  let c := ch.val
  let f := s.ferryCh c
  .next (if f.disable ∧ f.issued.isNone ∧ f.desc.isNone then
      let s := s.ferryUnname c
      ((s.setFerry c {}).ferryStopped c 2).setRf (ferryAddr c 0) ferryCfgN_EN 0
    else s)

end Sys2Proof.Machine
end

