-- ==== Sys2Proof/Machine/KeyStore.lean ====
section
/-! DEFINITION. The key store: slots, commands, usage limits and their notifications, the latch and its checks, the key
caches (R237 to R246, R254, R256 to R259). -/

namespace Sys2Proof.Machine

/-! ### Slots (R237, R242, R259) -/

/-- A key slot; an unlisted slot holds what its bank's slots were last left with. -/
def State.slot (s : State) (n : Nat) : KeySlot := Tab.get (Tab.get {} s.keyBanks (n / 4096)) s.slots n

/-- Replace a slot; KS_GFLOOR of its bank follows the largest generation assigned. -/
def State.setSlot (s : State) (n : Nat) (k : KeySlot) : State :=
  let s := { s with slots := Tab.put s.slots n k }
  let a := Reg.ksGfloor (n / 4096)
  if (s.rd a).toNat < k.gen then s.wr a (BitVec.ofNat 32 k.gen) else s

/-- The largest generation. -/
def genMax : Nat := 0xFFFFFFFF

/-- Is fail-closed in force (R258, R433)? -/
def State.failClosed (s : State) : Bool := s.rf Reg.alarmStatus alarmStatus_FAIL_CLOSED = 1

/-- Does slot `n` head an XTS-AES-256 pair? -/
def State.slotPair (s : State) (n : Nat) : Bool := n % 2 = 0 && (s.slot (n + 1)).st = .tail

/-- STATE as a number. -/
def SlotState.code : SlotState → Nat
  | .empty => 0 | .loaded => 1 | .erased => 2 | .tail => 3

/-- Bytes 0x20–0x3F of a slot. -/
def KeySlot.meta_ (k : KeySlot) : List Byte :=
  let flags := k.st.code + 4 * b2n k.lost + 8 * b2n k.exhausted + 16 * b2n k.rekeySent + 32 * k.modeMask
    + 4096 * b2n k.key256 + 8192 * k.iar
  leBytes 4 k.gen ++ leBytes 4 flags ++ leBytes 8 k.usage ++ leBytes 8 k.limit ++ leBytes 4 k.keyId ++ leBytes 4 0

/-- Does MODE_MASK permit a use of XTS? -/
def maskXts (m : Nat) : Bool := bit m 2 || bit m 4

/-! ### Key caches and running work (R238, R240, R241) -/

/-- Every island's key cache drops a slot. -/
def State.dropCached (s : State) (n : Nat) : State :=
  { s with keyCache := s.keyCache.map fun e => (e.1, e.2.filter (· ≠ n)) }

/-- Count in CIPH.CNT of cipher island `c`. -/
def State.ciphCount (s : State) (c x : Nat) (n : Nat := 1) : State := s.count (Reg.ciphCnt c x) n

/-- The transmissions whose encryption a predicate stops: STOMP is set (R255). -/
def State.stompTx (s : State) (hit : Frame → Bool) : State :=
  s.macs.foldl (fun s e => match e.2.tx with
    | some t =>
      let f := s.frame t.fid
      if f.gf sfPhase = 1 && (bit (f.gf sfDone) 0 || bit (f.gf sfDone) 1) && f.gf sfStomp = 0 && hit f then
        (s.modFrame t.fid fun f => f.sf sfStomp 1).ciphCount (e.1 / 8 / 4) 5
      else s
    | none => s) s

/-- What SEC has encrypted and a Hamper link has sent in part: AUTH_FAIL is set in the satchel, in the flits that follow
and, of a unit, in its trailer; sent bytes stay (R255, R283). -/
def State.flagTx (s : State) (hit : SecMark → Bool) : State :=
  let mark := fun (m : HMsg) => if m.sent = 0 then none else m.fid.bind fun i => (s.frame i).sec.filter hit
  let flag := fun (m : HMsg) => match mark m with
    | some k =>
      let at_ := m.bytes.length - 8
      { m with sub := { m.sub with authFail := 1 }, bytes := if k.unit then splice m.bytes at_ [m.bytes.getD at_ 0 ||| 1] else m.bytes }
    | none => m
  let vc := fun (e : Nat × HVc) => (e.1, { e.2 with txq := e.2.txq.map flag })
  let ms := s.hlinks.flatMap fun e => e.2.vcs.flatMap fun v => v.2.txq
  let s' := { s with hlinks := s.hlinks.map fun e => (e.1, { e.2 with vcs := e.2.vcs.map vc }) }
  ms.foldl (fun t m => match mark m, m.fid with
    | some k, some i => (t.modFrame i fun f => f.sf sfAuthFail 1).ciphCount k.isl 4
    | _, _ => t) s'

/-- Work latched on a slot stops: jobs end with `code`, their key copies zeroed, and a departure that is still being
sent is stomped, or flagged on a Hamper link, whatever generation it latched (R241, R255). -/
def State.stopLatched (s : State) (n code : Nat) : State :=
  let hit := fun (j : CiphJob) => decide (j.slot = n) && j.latch.isSome && j.fail.isNone
  let s := s.ciphJobs.foldl (fun s j => if hit j then s.ciphCount j.isl 6 else s) s
  let zero := fun (j : CiphJob) => { j with fail := some code, latch := j.latch.map fun l => Latch.mk l.gen [] [] }
  let s := { s with ciphJobs := s.ciphJobs.map fun j => if hit j then zero j else j }
  (s.stompTx fun f => f.gf sfKeySlot = n).flagTx fun k => k.slot = n

/-! ### Usage (R243, R244) -/

/-- The threshold of REKEY_DUE. -/
def rekeyAt (limit : Nat) : Nat := limit - limit / 8

/-- Post a notification word, or let it wait; beyond 64 it is lost. -/
def State.notifyWord (s : State) (w : Nat) : State :=
  if s.rf Reg.ksNotifyCfg ksNotifyCfg_EN = 0 then s else
    let c := s.rf Reg.ksNotifyCfg ksNotifyCfg_CHANNEL
    match (if s.notify.isEmpty then s.mbPost c false w true else none) with
    | some s => s
    | none => if s.notify.length < 64 then { s with notify := s.notify ++ [w] } else s.count32 Reg.ksNotifyLost

/-- A usage event of a slot: its record and its notification (kind 0 REKEY_DUE, 1 KEY_EXHAUSTED). -/
def State.usageEvent (s : State) (n kind : Nat) : State :=
  (s.record (0x0070 + kind) 0x52 [(0, 4, n), (8, 8, (s.slot n).usage)]).notifyWord (n + 2 ^ 18 * kind)

/-- Set REKEY_SENT and EXHAUSTED as USAGE requires, with their events. -/
def State.usageCheck (s : State) (n : Nat) : State :=
  let k := s.slot n
  let s := if rekeyAt k.limit ≤ k.usage ∧ !k.rekeySent then (s.setSlot n { k with rekeySent := true }).usageEvent n 0 else s
  let k := s.slot n
  if k.limit ≤ k.usage ∧ !k.exhausted then (s.setSlot n { k with exhausted := true }).usageEvent n 1 else s

/-- USAGE increments by `u`. -/
def State.addUsage (s : State) (n u : Nat) : State :=
  let k := s.slot n
  if u = 0 then s else (s.setSlot n { k with usage := (k.usage + u) % 2 ^ 64 }).usageCheck n

/-- NOTIFY_POST: waiting words are posted in order while the queue has room. -/
def State.postNotify : Nat → State → State
  | 0, s => s
  | fuel + 1, s =>
    match s.notify with
    | [] => s
    | w :: rest =>
      match s.mbPost (s.rf Reg.ksNotifyCfg ksNotifyCfg_CHANNEL) false w true with
      | some s => postNotify fuel { s with notify := rest }
      | none => s

/-- NOTIFY_POST. -/
def execNotifyPost (s : State) : Out :=
  if s.stopped then .next s else
  .next (State.postNotify 64 s)

/-! ### Commands (R239 to R244) -/

/-- The commit of LOAD: the slot's new version. Work in flight keeps its latch. -/
def State.commitSlot (s : State) (n : Nat) (k : KeySlot) : State :=
  let old := s.slot n
  (s.setSlot n { k with gen := old.gen + 1, st := .loaded, lost := false, exhausted := false, rekeySent := false }).dropCached n

/-- A pair headed by slot `n` is dissolved: the tail becomes EMPTY. -/
def State.dissolve (s : State) (n : Nat) : State :=
  if s.slotPair n then s.setSlot (n + 1) { gen := min genMax ((s.slot (n + 1)).gen + 1) } else s

/-- A LOAD of one key, or of a pair with its second key. -/
def State.loadKey (s : State) (n : Nat) (k : KeySlot) (tail : Option (List Byte)) : State :=
  match tail with
  | none => (s.dissolve n).commitSlot n k
  | some key2 =>
    let t : KeySlot := { key := key2, gen := (s.slot (n + 1)).gen + 1, st := .tail }
    ((s.commitSlot n k).setSlot (n + 1) t).dropCached (n + 1)

/-- May slot `n` be written by a LOAD of a key or pair: its generation and, for a pair, that of its tail? -/
def State.genRoom (s : State) (n : Nat) (pair : Bool) : Bool :=
  decide ((s.slot n).gen < genMax) && (!pair || decide ((s.slot (n + 1)).gen < genMax))

/-- A block's staged words from word `w` on, as bytes. -/
def State.staged (s : State) (k w : Nat) : List Byte :=
  (List.range 8).flatMap fun i => leBytes 4 (Tab.get 0 s.stage (16 * k + w + i)).toNat

/-- LOAD from block `k`: the state and the CODE. -/
def State.ksLoad (s : State) (k n : Nat) : State × Nat :=
  let mask := s.rf (Reg.ksAttr k) ksAttr_MODE_MASK
  let k256 := decide (s.rf (Reg.ksAttr k) ksAttr_KEY256 = 1)
  let pair := k256 && maskXts mask
  if pair && (n % 2 = 1 || n = 262143) then (s, 1)
  else if !s.genRoom n pair then (s, 3)
  else
    let lim := s.rf (Reg.ksLimit k) ksLimit_LIMIT
    let raw := s.staged k 0
    let key := if k256 || maskXts mask then raw else raw.take 16 ++ List.replicate 16 0
    let slot : KeySlot := { key := key, modeMask := mask, key256 := k256, iar := s.rf (Reg.ksAttr k) ksAttr_IAR, limit := if lim = 0 then 2 ^ 64 - 1 else lim, keyId := s.rf (Reg.ksAttr k) ksAttr_KEY_ID }
    (s.loadKey n slot (if pair then some (s.staged k 8) else none), 0)

/-- ERASE of one slot. -/
def State.eraseSlot (s : State) (n : Nat) : State :=
  let s := s.stopLatched n 3
  let k := s.slot n
  (s.setSlot n { k with key := [], st := .erased, gen := k.gen + 1 }).dropCached n

/-- ERASE: the state and the CODE. -/
def State.ksErase (s : State) (n : Nat) : State × Nat :=
  let pair := s.slotPair n
  if !s.genRoom n pair then (s, 3)
  else if pair then ((s.eraseSlot n).eraseSlot (n + 1), 0) else (s.eraseSlot n, 0)

/-- SET_LIMIT: EXHAUSTED is recomputed, and REKEY_SENT cleared below the new threshold, with no event (R244). -/
def State.ksSetLimit (s : State) (k n : Nat) : State × Nat :=
  let lim := s.rf (Reg.ksLimit k) ksLimit_LIMIT
  let lim := if lim = 0 then 2 ^ 64 - 1 else lim
  let x := s.slot n
  (s.setSlot n { x with limit := lim, exhausted := decide (lim ≤ x.usage), rekeySent := x.rekeySent && decide (rekeyAt lim ≤ x.usage) }, 0)

/-- READ_META. -/
def State.ksReadMeta (s : State) (k n : Nat) : State × Nat :=
  (s.setRf (Reg.ksMeta k) ksMeta_META (leNat (s.slot n).meta_), 0)

/-- The staging of a block is zeroed. -/
def State.zeroStage (s : State) (k : Nat) : State := { s with stage := s.stage.filter fun e => e.1 / 16 ≠ k }

/-- A KS.CMD write to block `k`: ignored with OVERRUN while BUSY, ignored for a reserved OP; else the command is
performed, and KS_COMMAND_DONE returns BUSY to 0. -/
def State.ksCmdWrite (s : State) (k op n : Nat) : State :=
  if op = 0 ∨ 4 < op then s
  else if s.rf (Reg.ksResult k) ksResult_BUSY = 1 then s.setRf (Reg.ksResult k) ksResult_OVERRUN 1
  else
    let r := if s.failClosed then (s, 2)
      else if (s.slot n).st = .tail then (s, 1)
      else if op = 1 then s.ksLoad k n
      else if op = 2 then s.ksErase n
      else if op = 3 then s.ksSetLimit k n
      else s.ksReadMeta k n
    let s := (r.1.zeroStage k).setRf (Reg.ksResult k) ksResult_BUSY 1
    { s with ksCode := Tab.set 0 s.ksCode k r.2 }

/-- A key store command completes. -/
def State.ksDone (s : State) (k : Nat) : State :=
  if s.rf (Reg.ksResult k) ksResult_BUSY = 0 then s else
    (s.setRf (Reg.ksResult k) ksResult_BUSY 0).setRf (Reg.ksResult k) ksResult_CODE (Tab.get 0 s.ksCode k)

/-- A write of KS.CMD by St0 or St1 in its own command block. -/
def State.ksCommand (s : State) (k op n : Nat) : State :=
  s.writeBy (.steward k) (Reg.ksCmd k) 4 (op + 8 * n) fun s => s.ksCmdWrite k op n

/-- LOAD. -/
def execKsLoad (st : Fin 2) (slot : Fin 262144) (s : State) : Out := .next (s.ksCommand st.val 1 slot.val)
/-- ERASE. -/
def execKsErase (st : Fin 2) (slot : Fin 262144) (s : State) : Out := .next (s.ksCommand st.val 2 slot.val)
/-- SET_LIMIT. -/
def execKsSetLimit (st : Fin 2) (slot : Fin 262144) (s : State) : Out := .next (s.ksCommand st.val 3 slot.val)
/-- READ_META. -/
def execKsReadMeta (st : Fin 2) (slot : Fin 262144) (s : State) : Out := .next (s.ksCommand st.val 4 slot.val)
/-- KS_COMMAND_DONE. -/
def execKsCommandDone (st : Fin 2) (s : State) : Out :=
  if s.stopped then .next s else
  .next (s.ksDone st.val)

/-- The commit of LOAD_PAIR_KEY (R430); nothing where the slot refuses a LOAD. -/
def State.loadPairKey (s : State) (n : Nat) : State :=
  if (s.slot n).st = .tail ∨ !s.genRoom n false ∨ s.failClosed then s else
    let k : KeySlot := { key := leBytes 32 s.pairSecret, modeMask := 64, key256 := true, iar := 0x3FFF, limit := 2 ^ 64 - 1 }
    s.loadKey n k none

/-! ### The latch (R238) -/

/-- Is cipher channel of slot `n` verify-only (R254, R428)? -/
def State.slotVerifyOnly (s : State) (n : Nat) : Bool := s.fuseBits (1984 + n / 1024) 1 = 1
/-- Is instance `i` verify-only? Bit 0 is ignored. -/
def State.instVerifyOnly (s : State) (i : Nat) : Bool := i ≠ 0 && s.fuseBits (2240 + i) 1 = 1

/-- The checks of R238 from order 3 on, for a use with mode bit `mb`: the order number of the first that fails. `assoc`:
LSC or ESP, which need a record; `vo`: refused to verify-only use; `enc`: an encryption. -/
def State.latchCheck (s : State) (n mb : Nat) (assoc vo enc : Bool) : Option Nat :=
  let k := s.slot n
  if s.failClosed then some 1
  else if k.lost then some 3
  else if k.st = .empty then some 4
  else if k.st = .erased then some 5
  else if k.st = .tail || !bit k.modeMask mb || (assoc && k.iar = 0x3FFF) then some 6
  else if vo then some 7
  else if enc && k.exhausted then some 8
  else none

/-- Does an island's cache hold the slot? -/
def State.cached (s : State) (c n : Nat) : Bool := (Tab.get [] s.keyCache c).contains n

/-- A latch that misses the cache waits for KEY_CACHE_FILL; the miss is counted once. -/
def State.missKey (s : State) (c n : Nat) : State :=
  let q := Tab.get [] s.keyMiss c
  if q.contains n then s else ({ s with keyMiss := Tab.put s.keyMiss c (q ++ [n]) }).ciphCount c 12

/-- A miss is served: the slot enters the cache of 4,096 entries, the oldest leaving. -/
def State.fillKey (s : State) (c n : Nat) : State :=
  let q := Tab.get [] s.keyMiss c
  if !q.contains n then s else
    let k := Tab.get [] s.keyCache c
    { s with keyMiss := Tab.set [] s.keyMiss c (q.filter (· ≠ n)), keyCache := Tab.put s.keyCache c ((k ++ [n]).drop (k.length + 1 - 4096)) }

/-- The AES key of a slot for GCM, GMAC and key wrap. -/
def KeySlot.aes (k : KeySlot) : List Byte := slice k.key 0 (if k.key256 then 32 else 16)

/-- Key 1 and key 2 of a slot for XTS. -/
def State.xtsKeys (s : State) (n : Nat) : List Byte × List Byte :=
  let k := s.slot n
  if k.key256 then (slice k.key 0 32, slice (s.slot (n + 1)).key 0 32) else (slice k.key 0 16, slice k.key 16 16)

/-- The 128-bit tweak value of R252. -/
def xtsTweak (objKey shard u : Nat) : Nat := objKey % 2 ^ 64 + 2 ^ 64 * (shard % 32) + 2 ^ 72 * (u % 2 ^ 40)

/-- The data units of a buffer, from unit `u` on. -/
def xtsUnits (enc : Bool) (k1 k2 : List Byte) (objKey shard u du : Nat) (bs : List Byte) : List Byte :=
  let us := chunks (bs.length / du) du bs
  ((List.range us.length).map fun i => xtsUnit enc k1 k2 (xtsTweak objKey shard (u + i)) (us.getD i [])).flatten

/-! ### Zeroisation and retention loss (R258, R259) -/

/-- Zeroisation: every slot EMPTY with GEN incremented and LOST cleared, the association records cleared, the key
caches emptied, and jobs that hold a latch completed with CLOSED. -/
def State.zeroise (s : State) : State :=
  let wipe := fun (k : KeySlot) => ({ gen := min genMax (k.gen + 1) } : KeySlot)
  let banks := (List.range 64).map fun b => (b, wipe (Tab.get {} s.keyBanks b))
  let slots := s.slots.map fun e => (e.1, wipe e.2)
  let s := { s with slots := slots, keyBanks := banks, keyCache := [], keyMiss := [] }
  let up := fun (s : State) (b g : Nat) => if (s.rd (Reg.ksGfloor b)).toNat < g then s.wr (Reg.ksGfloor b) (BitVec.ofNat 32 g) else s
  let s := banks.foldl (fun s e => up s e.1 e.2.gen) s
  let s := slots.foldl (fun s e => up s (e.1 / 4096) e.2.gen) s
  let iar := fun (a : Nat) => decide (0x53 ≤ a / 0x1000000 ∧ a / 0x1000000 ≤ 0x5A ∧ 0x800000 ≤ a % 0x1000000)
  { s with regs := s.regs.filter fun e => !iar e.1 }

/-- The first steps of R258: every running and suspended job ends with CLOSED, transmissions under encryption are
stomped, key caches are cleared. -/
def State.closeCrypto (s : State) : State :=
  let stop := fun (j : CiphJob) => if j.eng.isSome && j.fail.isNone then { j with fail := some 7, latch := j.latch.map fun l => Latch.mk l.gen [] [] } else j
  let s := { s with ciphJobs := s.ciphJobs.map stop, keyCache := [], keyMiss := [] }
  (s.stompTx fun _ => true).flagTx fun _ => true

/-- A key bank is lost (R259). -/
def State.loseKeyBank (s : State) (b : Nat) : State :=
  let g := min genMax ((s.rd (Reg.ksGfloor b)).toNat + 1)
  let s := s.wr (Reg.ksGfloor b) (BitVec.ofNat 32 g)
  { s with slots := s.slots.filter fun e => e.1 / 4096 ≠ b, keyBanks := Tab.put s.keyBanks b { gen := g, lost := true } }

end Sys2Proof.Machine
end

