-- ==== Sys2Proof/Machine/Cipher.lean ====
section
/-! DEFINITION. The cipher islands: bulk jobs and their completion queues, inline LSC and ESP (R233 to R257). -/

namespace Sys2Proof.Machine

/-! ### Descriptors (R247, R248) -/

/-- A CIPH job descriptor. -/
structure CDesc where
  key : Nat
  aux : Nat
  inst : Nat
  gen : Nat
  flags : Nat
  src : Nat
  dst : Nat
  len : Nat
  aadLen : Nat
  pad : Nat
  aad : Nat
  iv : List Byte
  cookie : Nat
deriving DecidableEq, Repr

/-- The descriptor at a device address. -/
def State.cdesc (s : State) (a : Nat) : CDesc :=
  ⟨s.ldNat a 4, s.ldNat (a + 4) 4, s.ldNat (a + 8) 2, s.ldNat (a + 0xA) 2, s.ldNat (a + 0xC) 4, s.ldNat (a + 0x10) 8,
   s.ldNat (a + 0x18) 8, s.ldNat (a + 0x20) 4, s.ldNat (a + 0x24) 2, s.ldNat (a + 0x26) 2, s.ldNat (a + 0x28) 8,
   s.ldBytes (a + 0x30) 12, s.ldNat (a + 0x3C) 4⟩

/-- Is op one of the jobs of R248? -/
def ciphOpOk (op : Nat) : Bool := [1, 2, 3, 4, 5, 8, 9, 0x10, 0x11].contains op
/-- Does the job read a tag after LENGTH bytes? -/
def opHasTag (op : Nat) : Bool := op = 2 || op = 3 || op = 5
/-- The bit of MODE_MASK that permits a job. -/
def opMode (op : Nat) : Nat := if op ≤ 3 then 3 else if op ≤ 5 then 5 else if op ≤ 9 then 4 else 6
/-- Is the job an encryption, GMAC_GEN or KW_WRAP? -/
def opCounts (op : Nat) : Bool := op = 1 || op = 4 || op = 8 || op = 0x10
/-- May a verify-only channel or instance run the job (R256)? -/
def opVerifies (op : Nat) : Bool := op = 3 || op = 4 || op = 5 || op = 0x10 || op = 0x11

/-- SRC_HOST. -/
def CDesc.srcHost (d : CDesc) : Bool := bit d.flags 0
/-- DST_HOST. -/
def CDesc.dstHost (d : CDesc) : Bool := bit d.flags 1
/-- LINK. -/
def CDesc.link (d : CDesc) : Nat := fld d.flags 2 1
/-- PASID. -/
def CDesc.pasid (d : CDesc) : Nat := fld d.flags 12 20
/-- The function that host accesses are issued from. -/
def CDesc.fn (d : CDesc) : Nat := if d.pasid = 0 then 0 else 1
/-- The data unit of an XTS job in bytes (R253). -/
def CDesc.du (d : CDesc) : Nat := if (d.iv.getD 9 0).toNat = 0 then 512 else 4096
/-- The bytes that a job reads at SRC. -/
def CDesc.inLen (d : CDesc) (op : Nat) : Nat := if op = 0x10 then 0 else d.len + (if opHasTag op then 16 else 0)
/-- The bytes that a job writes at DST when it succeeds; `blob`: those of the wrapped AUX_SLOT. -/
def CDesc.outLen (d : CDesc) (op blob : Nat) : Nat :=
  if op = 1 then d.len + 16 else if op = 2 ∨ op = 8 ∨ op = 9 then d.len else if op = 4 then 16 else if op = 0x10 then blob else 0
/-- Does the job have output that it writes as it runs? -/
def opStreams (op : Nat) : Bool := op = 1 || op = 2 || op = 8 || op = 9

/-- BAD_DESC: a rule of R247, R248 or R253 is broken. -/
def CDesc.bad (d : CDesc) (op : Nat) : Bool :=
  let gcm := decide (op ≤ 3); let xts := op = 8 || op = 9; let kw := op = 0x10 || op = 0x11
  let b := fun i => (d.iv.getD i 0).toNat
  decide (2 ^ 18 ≤ d.key ∨ 2 ^ 18 ≤ d.aux ∨ 4096 ≤ d.inst ∨ fld d.flags 3 9 ≠ 0 ∨ 16777216 < d.len ∨ d.pad ≠ 0)
    || (!kw && d.aux ≠ 0) || (!gcm && d.aadLen ≠ 0)
    || (if gcm then false else if xts then decide (2 ^ 40 ≤ d.aad) else d.aad ≠ 0)
    || (xts && (decide (32 ≤ b 8) || decide (1 < b 9) || b 10 ≠ 0 || b 11 ≠ 0 || d.len = 0 || d.len % d.du ≠ 0))
    || (kw && d.iv.any (· ≠ 0)) || (op = 0x10 && d.len ≠ 0) || (op = 0x11 && !([48, 64, 96].contains d.len))

/-- ADDR_ERR: a device range of the job lies outside the SRAM pools and the Coolbox. -/
def CDesc.addrBad (d : CDesc) (op blob : Nat) : Bool :=
  (!d.srcHost && d.inLen op ≠ 0 && rangeReserved d.src (d.inLen op))
    || (!d.dstHost && d.outLen op blob ≠ 0 && rangeReserved d.dst (d.outLen op blob))
    || (d.aadLen ≠ 0 && rangeReserved d.aad d.aadLen)

/-- Why the descriptor itself is not read: BAD_DESC, ADDR_ERR, LOST. -/
def State.descRefused (s : State) (a : Nat) : Option Nat :=
  if a % 64 ≠ 0 then some 0x0D else if rangeReserved a 64 then some 0x0A else if s.addrLost a then some 0x09 else none

/-! ### Completion queues (R249, R250) -/

/-- An offset in the completion-queue registers of queue `q`. -/
def cqAddr (q o : Nat) : Nat := ctlAddr (0x53 + q / 128) (0x1000 + 16 * (q % 128) + o)
/-- PENDING of queue `q`. -/
def State.cqPending (s : State) (q : Nat) : Nat := (s.ciphJobs.filter fun j => j.cq = q && j.sec.isNone).length
/-- PROD. -/
def State.cqProd (s : State) (q : Nat) : Nat := (s.rd (cqAddr q 8)).toNat
/-- CONS. -/
def State.cqCons (s : State) (q : Nat) : Nat := (s.rd (cqAddr q 0xC)).toNat

/-- A write of CQ_CFG (R249, R250): reserved sizes ignore the write, and while PENDING is not zero so does a change of
BASE or LOG2_ENTRIES or a start; EN from 0 to 1 zeroes PROD and CONS. -/
def State.cqCfgSet (s : State) (q v : Nat) : State :=
  let a := cqAddr q 0
  let log := fld v 48 5
  let on := s.rf a cqCfg_EN
  let start := decide (fld v 53 1 = 1 ∧ on = 0)
  let change := decide (fld v 0 48 / 64 * 64 ≠ s.rf a cqCfg_BASE ∨ log ≠ s.rf a cqCfg_LOG2_ENTRIES)
  if log < 4 ∨ 16 < log then s
  else if (start || change) && s.cqPending q ≠ 0 then s
  else
    let s := s.wrN a 2 (fld v 0 48 / 64 * 64 + 2 ^ 48 * fld v 48 6)
    if start then (s.wr (cqAddr q 8) 0).wr (cqAddr q 0xC) 0 else s

/-- A write of CQ_CONS, taken only between CONS and PROD (R250). -/
def State.cqConsSet (s : State) (q v : Nat) : State :=
  let c := s.cqCons q
  if (v + 2 ^ 32 - c) % 2 ^ 32 ≤ (s.cqProd q + 2 ^ 32 - c) % 2 ^ 32 then s.wr (cqAddr q 0xC) (BitVec.ofNat 32 v)
  else s.ciphCount (q / 128) 14

/-- CQ_CFG_WRITE. -/
def execCqCfgWrite (q : Fin 1024) (v : W64) (s : State) : Out := 
  .next (s.rowWrite (cqAddr q.val 0) 8 v.toNat fun s => s.cqCfgSet q.val v.toNat)
/-- CQ_CONS_WRITE. -/
def execCqConsWrite (q : Fin 1024) (v : W32) (s : State) : Out := 
  .next (s.rowWrite (cqAddr q.val 0xC) 4 v.toNat fun s => s.cqConsSet q.val v.toNat)

/-! ### Submission (R85, R235, R249) -/

/-- CIPH: the job is accepted, or refused with 0 and counted in CQ_REFUSED. -/
def State.submitJob (s : State) (worker : Bool) (op desc q : Nat) : State × Bool :=
  let c := q / 128
  let cfg := cqAddr q 0
  let waiting := (s.ciphJobs.filter fun j => j.isl = c && j.eng.isNone && j.sec.isNone).length
  let used : Nat := (s.cqProd q + 2 ^ 32 - s.cqCons q) % 2 ^ 32 + s.cqPending q
  if s.rf cfg cqCfg_EN = 0 || decide (256 ≤ waiting ∨ 2 ^ s.rf cfg cqCfg_LOG2_ENTRIES ≤ used) then (s.ciphCount c 13, false)
  else
    let ok := (s.descRefused desc).isNone
    let d := s.cdesc desc
    let inst := if ok then d.inst % 4096 else 0
    let before := s.staleWork inst
    let j : CiphJob := { id := s.nextOp, isl := c, op := op, cq := q, worker := worker, desc := desc, inst := inst, gen := if ok then d.gen else 0, late := s.genStale inst d.gen, slot := if ok then d.key % 2 ^ 18 else 0 }
    let s := { s with ciphJobs := s.ciphJobs ++ [j], nextOp := s.nextOp + 1 }
    (s.noteStale inst before, true)

/-! ### Running a job (R235, R236, R238, R255) -/

/-- Replace a job. -/
def State.setJob (s : State) (j : CiphJob) : State := { s with ciphJobs := s.ciphJobs.map fun x => if x.id = j.id then j else x }

/-- A SEC operation latched another generation than the first unit of its job (R279). -/
def keyChanged : Nat := 0x100

/-- The job status of a failed check of R238. -/
def checkStatus (order : Nat) : Nat :=
  match order with
  | 1 => 0x07 | 2 => 0x08 | 3 => 0x09 | 4 => 0x02 | 5 => 0x03 | 6 => 0x05 | 7 => 0x06 | _ => 0x04

/-- A wrapped key's plaintext: ATTR and KEY of a slot (R257). -/
def State.wrapPlain (s : State) (n : Nat) : List Byte :=
  let k := s.slot n
  let pair := s.slotPair n && maskXts k.modeMask && k.key256
  let key := if pair then slice k.key 0 32 ++ slice (s.slot (n + 1)).key 0 32
    else if k.key256 || maskXts k.modeMask then slice k.key 0 32 else slice k.key 0 16
  leBytes 8 (k.keyId + 2 ^ 32 * k.modeMask + 2 ^ 39 * b2n k.key256 + 2 ^ 40 * b2n pair) ++ leBytes 8 k.limit
    ++ leBytes 8 k.usage ++ key

/-- The bytes of a slot's wrapped blob: ATTR and KEY, and the integrity value (R257). -/
def State.blobLen (s : State) (n : Nat) : Nat := (s.wrapPlain n).length + 8

/-- What the AUX_SLOT of a key-wrap job refuses: for KW_WRAP the state of the slot, for KW_UNWRAP UNWRAP_DENIED. -/
def State.auxCheck (s : State) (op aux : Nat) (pair : Bool) : Option Nat :=
  let k := s.slot aux
  if op = 0x10 then
    if k.lost then some 0x09 else if k.st = .empty then some 0x02 else if k.st = .erased then some 0x03
    else if k.st = .tail then some 0x05 else none
  else if op = 0x11 then
    if k.st = .tail || !s.genRoom aux pair || s.rf (Reg.ksChanCfg (aux / 1024)) ksChanCfg_UNWRAP_EN = 0
      || (pair && (aux % 2 = 1 || aux = 262143)) then some 0x0E else none
  else none

/-- Why a job's latch is refused, as its status; none where it is served. -/
def State.jobCheck (s : State) (j : CiphJob) (d : CDesc) : Option Nat :=
  let n := d.key % 2 ^ 18
  let kw := j.op = 0x10 || j.op = 0x11
  let closedTo := fun m => j.worker && s.rf (Reg.ksChanCfg (m / 1024)) ksChanCfg_JOB_EN = 0
  let vo := !opVerifies j.op && (s.slotVerifyOnly n || s.instVerifyOnly d.inst)
  if s.failClosed then some 7
  else if d.inst ≠ 0 ∧ s.genStale d.inst d.gen then some 8
  else match s.latchCheck n (opMode j.op) false vo (opCounts j.op) with
    | some o => if 6 < o && (closedTo n || (kw && closedTo d.aux)) then some 5 else some (checkStatus o)
    | none =>
      if closedTo n || (kw && closedTo d.aux) then some 5
      else s.auxCheck j.op d.aux (d.len = 96)

/-- Read the input of a latched job: device bytes at once, host bytes by a read. -/
def State.jobInput (s : State) (j : CiphJob) (d : CDesc) : State :=
  let n := d.inLen j.op
  if n = 0 then s.setJob { j with src := some [] }
  else if d.srcHost then
    let r := s.hostRead .cipher j.id d.link d.fn d.pasid d.src n
    match r.2 with
    | some _ => r.1.setJob { j with reading := true }
    | none => r.1.setJob { j with fail := some 0x0B }
  else s.setJob { j with src := some (s.ldBytes d.src n) }

/-- The latch of a job whose slot is in the cache (R238), and the use it counts (R243). -/
def State.jobLatch (s : State) (j : CiphJob) (d : CDesc) : State :=
  let n := d.key % 2 ^ 18
  match s.jobCheck j d with
  | some st =>
    let s := if st = 4 then s.ciphCount j.isl 7 else if st = 6 then s.ciphCount j.isl 8 else s
    s.setJob { j with fail := some st, missed := false }
  | none =>
    let keys := if opMode j.op = 4 then s.xtsKeys n else ((s.slot n).aes, [])
    let j := { j with latch := some (Latch.mk (s.slot n).gen keys.1 keys.2), missed := false }
    let s := if opCounts j.op && j.op ≠ 8 then s.addUsage n 1 else s
    s.jobInput j d

/-- The latch of a SEC operation (R238); a unit that latches another generation than the first of its job is marked
`keyChanged`. -/
def State.secLatch (s : State) (j : CiphJob) (x : SecOp) : State :=
  let vo := s.slotVerifyOnly j.slot || s.instVerifyOnly x.inst
  match s.latchCheck j.slot 2 false vo x.w with
  | some o =>
    let s := if o = 8 then s.ciphCount j.isl 7 else if o = 7 then s.ciphCount j.isl 8 else s
    s.setJob { j with fail := some (checkStatus o), missed := false }
  | none =>
    let gen := (s.slot j.slot).gen
    let keys := s.xtsKeys j.slot
    let j := { j with latch := some (Latch.mk gen keys.1 keys.2), missed := false, src := some x.bytes }
    match if x.single then none else Tab.find s.jobs x.ctx with
    | none => s.setJob j
    | some b =>
      if (if x.w then b.genW else b.genR).getD gen ≠ gen then s.setJob { j with fail := some keyChanged }
      else
        let b := if x.w then { b with genW := some gen } else { b with genR := some gen }
        { s with jobs := Tab.put s.jobs x.ctx b }.setJob j

/-- The first block of an operation that an engine begins: a descriptor's own checks, then the latch or a cache miss. -/
def State.jobStart (s : State) (j : CiphJob) : State :=
  match j.sec with
  | some x => if s.failClosed || s.cached j.isl j.slot then s.secLatch j x else (s.missKey j.isl j.slot).setJob { j with missed := true }
  | none =>
  match s.descRefused j.desc with
  | some st => s.setJob { j with fail := some st }
  | none =>
    let d := s.cdesc j.desc
    if d.bad j.op then s.setJob { j with fail := some 0x0D }
    else if d.addrBad j.op (s.blobLen d.aux) then s.setJob { j with fail := some 0x0A }
    else if s.failClosed || s.cached j.isl (d.key % 2 ^ 18) then s.jobLatch j d
    else (s.missKey j.isl (d.key % 2 ^ 18)).setJob { j with missed := true }

/-- The job that an engine runs. -/
def State.engineJob (s : State) (e : Nat) : Option CiphJob := s.ciphJobs.find? fun j => j.eng = some e && j.running

/-- Let job `j` run on its engine: a new one begins, an old one goes on. -/
def State.runJob (s : State) (j : CiphJob) : State :=
  let j := { j with running := true }
  let s := { s.setJob j with rrEngine := Tab.put s.rrEngine (j.eng.getD 0) j.id }
  if j.latch.isNone ∧ j.fail.isNone ∧ !j.missed then s.jobStart j else s

/-- The engine of island `c` with the fewest admitted bulk operations, and their number; ties go to the lowest. -/
def State.bestEngine (s : State) (c : Nat) : Nat × Nat :=
  (List.range 8).foldl (fun (b : Nat × Nat) i =>
    let n := (s.ciphJobs.filter fun j => j.eng = some (8 * c + i)).length
    if n < b.2 then (8 * c + i, n) else b) (8 * c, (s.ciphJobs.filter fun j => j.eng = some (8 * c)).length)

/-- The data bytes of an operation: those it is suspended and resumed by. -/
def State.dataLen (s : State) (j : CiphJob) : Nat :=
  match j.sec with
  | some x => x.bytes.length
  | none => (s.cdesc j.desc).len

/-- The cipher island with the fewest bulk bytes queued; ties go to the lowest. -/
def State.bulkIsland (s : State) : Nat :=
  let load := fun c => (s.ciphJobs.filter fun j => j.isl = c).foldl (fun n j => n + (s.dataLen j - j.done)) 0
  ((List.range 8).foldl (fun (b : Nat × Nat) c => if load c < b.2 then (c, load c) else b) (0, load 0)).1

/-- SEC goes to the island with the fewest bulk bytes queued, and waits there for an engine. -/
def State.secQueue (s : State) (slot : Nat) (x : SecOp) : State :=
  let j : CiphJob := { id := s.nextOp, isl := s.bulkIsland, op := if x.w then 8 else 9, cq := 0, worker := false, desc := 0, slot := slot, sec := some x }
  { s with ciphJobs := s.ciphJobs ++ [j], nextOp := s.nextOp + 1 }

/-- CIPH_JOB_ADMIT: the oldest waiting operation of an island goes to the engine with the fewest bulk operations, below 1,024
of them; an idle engine begins it. -/
def State.admitJob (s : State) (c : Nat) : State :=
  let b := s.bestEngine c
  match s.ciphJobs.find? fun j => j.isl = c && j.eng.isNone with
  | none => s
  | some j =>
    if 1024 ≤ b.2 ∨ (s.halting ∧ j.sec.isNone) then s else
      let idle := (s.engineJob b.1).isNone
      let j := { j with eng := some b.1 }
      let s := (s.setJob j).ciphCount c 1
      if idle then s.runJob j else s

/-- The output of a job from its whole input, without a tag that is written last. -/
def jobOut (op : Nat) (d : CDesc) (l : Latch) (src : List Byte) : List Byte :=
  let body := src.take d.len
  let obj := leNat (d.iv.take 8)
  let shard := (d.iv.getD 8 0).toNat
  if op = 1 ∨ op = 2 then gcmCtr (aesKeys l.key) d.iv 2 body
  else if op = 8 ∨ op = 9 then xtsUnits (op = 8) l.key l.key2 obj shard d.aad d.du body
  else []

/-- Write output bytes of a job from offset `o`: none on success, else the status that stops it. Before each write to
host memory the instance's generation is compared. -/
def State.jobWrite (s : State) (d : CDesc) (o : Nat) (bs : List Byte) : State × Option Nat :=
  if bs.isEmpty then (s, none)
  else if d.dstHost then
    if d.inst ≠ 0 ∧ s.genStale d.inst d.gen then (s, some 8)
    else if !s.canIssue d.link d.fn d.pasid then (s, some 0x0B)
    else (s.hostWrite d.link d.fn d.pasid true (d.dst + o) bs, none)
  else (s.stBytes (d.dst + o) bs, none)

/-- Process a job up to `upto` bytes of its data: output is written as it is produced, and XTS encryption counts its
blocks. -/
def State.jobProgress (s : State) (j : CiphJob) (upto : Nat) : State :=
  match j.latch, j.src with
  | some l, some src =>
    if j.fail.isSome then s
    else if j.sec.isSome then
      let upto := min upto src.length
      let s := s.setJob { j with done := upto }
      if j.op = 8 then s.addUsage j.slot ((upto - j.done) / 16) else s
    else
      let d := s.cdesc j.desc
      let out := jobOut j.op d l src
      let upto := min upto d.len
      let r := s.jobWrite d j.done ((out.drop j.done).take (upto - j.done))
      match r.2 with
      | some st => r.1.setJob { j with fail := some st }
      | none =>
        let s := r.1.setJob { j with done := upto }
        if j.op = 8 then s.addUsage j.slot ((upto - j.done) / 16) else s
  | _, _ => s

/-- The next admitted job of an engine after the last it served, in round-robin order. -/
def State.nextJob (s : State) (e : Nat) : Option CiphJob :=
  let last := Tab.get 0 s.rrEngine e
  let mine := s.ciphJobs.filter fun j => j.eng = some e
  match mine.find? fun j => last < j.id with
  | some j => some j
  | none => mine.head?

/-- QUANTUM_EXPIRE: the running operation of an engine has processed QUANTUM, and the next one is resumed; an
operation that has not latched, waits for data or has stopped stays. -/
def State.quantumExpire (s : State) (e : Nat) : State :=
  match s.engineJob e with
  | none => s
  | some j =>
    let q := s.rf (Reg.ciphIslandCfg (e / 8)) ciphIslandCfg_QUANTUM * 1024
    if j.latch.isNone ∨ j.src.isNone ∨ j.fail.isSome ∨ s.dataLen j ≤ j.done + q then s else
      let s := s.jobProgress j (j.done + q)
      match s.ciphJobs.find? (fun x => x.id = j.id), s.nextJob e with
      | some j', some n =>
        if n.id = j.id then s else (s.setJob { j' with running := false }).runJob n
      | _, _ => s

/-- BULK_RESUME: an engine without a running operation resumes the next, while its island has no inline work waiting. -/
def State.bulkResume (s : State) (e : Nat) : State :=
  let c := e / 8
  if (s.engineJob e).isSome || Tab.get [] s.ciphIn c ≠ [] || Tab.get [] s.ciphOut c ≠ [] then s else
    match s.nextJob e with
    | some j => s.runJob j
    | none => s

/-- Inline work takes an engine: where all eight run bulk operations, the earliest admitted one is suspended (R236). -/
def State.takeEngine (s : State) (c : Nat) : State :=
  let busy := (List.range 8).all fun i => (s.engineJob (8 * c + i)).isSome
  if !busy then s else
    match s.ciphJobs.find? fun j => j.isl = c && j.running with
    | some j => (s.setJob { j with running := false }).ciphCount c 2
    | none => s

/-- Host data for a job has arrived, or its read has failed. -/
def State.ciphData (s : State) (id : Nat) (bs : Option (List Byte)) : State :=
  match s.ciphJobs.find? fun j => j.id = id with
  | none => s
  | some j => match bs with
    | some bs => s.setJob { j with src := some bs, reading := false }
    | none => s.setJob { j with reading := false, fail := some (j.fail.getD 0x0B) }

/-- The commit of an unwrapped key: a LOAD with USAGE from ATTR and its flags recomputed; none where the slot, or the tail
of a pair, refuses a LOAD by then (R240, R242). -/
def State.unwrapCommit (s : State) (n : Nat) (p : List Byte) : Option State :=
  let a := leNat (p.take 8)
  let key := p.drop 24
  if (s.slot n).st = .tail || !s.genRoom n (key.length = 64) then none else some <|
  let lim := leNat (slice p 8 8)
  let k : KeySlot := { key := slice key 0 32, modeMask := fld a 32 7, key256 := bit a 39, iar := 0x3FFF, limit := if lim = 0 then 2 ^ 64 - 1 else lim, keyId := fld a 0 32, usage := leNat (slice p 16 8) }
  let s := s.loadKey n k (if key.length = 64 then some (key.drop 32) else none)
  let x := s.slot n
  s.setSlot n { x with exhausted := decide (x.limit ≤ x.usage), rekeySent := decide (rekeyAt x.limit ≤ x.usage) }

/-- The end of a job that has met no failure: the rest of its output, its tag or its wrapped key; the status. -/
def State.jobEnd (s : State) (j : CiphJob) (d : CDesc) (l : Latch) (src : List Byte) : State × Nat × Nat :=
  let s := s.jobProgress j d.len
  match (s.ciphJobs.find? fun x => x.id = j.id) with
  | none => (s, 0, 0)
  | some j =>
    match j.fail with
    | some st => (s, st, if opStreams j.op then j.done else 0)
    | none =>
      let body := src.take d.len
      let tag := src.drop d.len
      let put := fun (o : Nat) (bs : List Byte) =>
        let r := s.jobWrite d o bs
        match r.2 with
        | some st => (r.1, st, o)
        | none => (r.1, 0, o + bs.length)
      let aad := s.ldBytes d.aad d.aadLen
      let ks := aesKeys l.key
      match j.op with
      | 1 => put d.len (gcmTag ks d.iv aad (jobOut 1 d l src))
      | 2 => (s, if gcmTag ks d.iv aad body = tag then 0 else 1, d.len)
      | 3 => (s, if gcmTag ks d.iv aad body = tag then 0 else 1, 0)
      | 4 => put 0 (gcmTag ks d.iv body [])
      | 5 => (s, if gcmTag ks d.iv body [] = tag then 0 else 1, 0)
      | 0x10 =>
        if d.addrBad j.op (s.blobLen d.aux) then (s, 0x0A, 0) else put 0 (kwWrap l.key (s.wrapPlain d.aux))
      | 0x11 => match kwUnwrap l.key body with
        | some p => match s.unwrapCommit d.aux p with
          | some s => (s, 0, 0)
          | none => (s, 0x0E, 0)
        | none => (s, 1, 0)
      | _ => (s, 0, d.len)

/-- Write a job's completion record and advance PROD (R249). -/
def State.jobRecord (s : State) (j : CiphJob) (st written : Nat) : State :=
  let unread := (s.descRefused j.desc).isSome && j.latch.isNone
  let cookie := if unread then 0 else (s.cdesc j.desc).cookie
  let gen := match j.latch with
    | some l => l.gen
    | none => 0
  let outs := decide (st ≠ 0 ∧ written ≠ 0)
  let flag := outs && decide (st ≠ 8)
  let s := if flag then s.ciphCount j.isl 4 else s
  let q := j.cq
  let cfg := cqAddr q 0
  let prod := s.cqProd q
  let a := s.rf cfg cqCfg_BASE / 64 * 64 + 16 * (prod % 2 ^ s.rf cfg cqCfg_LOG2_ENTRIES)
  let rec_ := leBytes 4 cookie ++ leBytes 1 st ++ leBytes 1 (b2n flag + 2 * b2n outs) ++ [0, 0] ++ leBytes 4 written ++ leBytes 4 gen
  let s := (s.stBytes a rec_).wr (cqAddr q 8) (BitVec.ofNat 32 (prod + 1))
  let s := { s with ciphJobs := s.ciphJobs.filter fun x => x.id ≠ j.id }
  s.raiseSource 5 q

/-- The output bytes that a job has written before its end. -/
def CiphJob.written (j : CiphJob) : Nat := if opStreams j.op then j.done else 0

/-- CIPH_JOB_COMPLETE: a job that has stopped, or has its input, ends. -/
def State.jobComplete (s : State) (id : Nat) (eccBad : Bool) : State :=
  match s.ciphJobs.find? fun j => j.id = id && j.sec.isNone with
  | none => s
  | some j =>
    match j.fail with
    | some st => if j.running || st = 7 || st = 9 then s.jobRecord j st j.written else s
    | none =>
      if !j.running then s else
        match j.latch, j.src with
        | some l, some src =>
          if eccBad then (s.ciphCount j.isl 11).jobRecord j 0x0C j.written else
            let d := s.cdesc j.desc
            let r := s.jobEnd j d l src
            match r.1.ciphJobs.find? (fun x => x.id = id) with
            | some j => r.1.jobRecord j r.2.1 r.2.2
            | none => r.1
        | _, _ => s

/-- KEY_CACHE_FILL: the slot enters the cache, and the latches of the jobs that wait for it proceed. -/
def State.keyFill (s : State) (c n : Nat) : State :=
  let s := s.fillKey c n
  s.ciphJobs.foldl (fun s j =>
    if j.isl = c && j.missed && j.slot = n && s.cached c n then
      match j.sec with
      | some x => s.secLatch j x
      | none => s.jobLatch j (s.cdesc j.desc)
    else s) s

/-- CIPH_JOB_ADMIT. -/
def execCiphJobAdmit (c : Fin 8) (s : State) : Out :=
  if s.stopped then .next s else
  .next (s.admitJob c.val)
/-- CIPH_JOB_COMPLETE. -/
def execCiphJobComplete (id : W32) (eccBad : Bool) (s : State) : Out :=
  if s.stopped then .next s else
  .next (s.jobComplete id.toNat eccBad)
/-- QUANTUM_EXPIRE. -/
def execQuantumExpire (eng : Fin 64) (s : State) : Out :=
  if s.stopped then .next s else
  .next (s.quantumExpire eng.val)
/-- BULK_RESUME. -/
def execBulkResume (eng : Fin 64) (s : State) : Out :=
  if s.stopped then .next s else
  .next (s.bulkResume eng.val)
/-- KEY_CACHE_FILL. -/
def execKeyCacheFill (c : Fin 8) (slot : Fin 262144) (s : State) : Out :=
  if s.stopped then .next s else
  .next (s.keyFill c.val slot.val)

/-! ### Inline LSC and ESP (R234, R238, R243, R245, R246) -/

/-- What an inline operation comes to: done, stalled on a key cache miss, or a satchel reason. -/
inductive InlineEnd where
  | done | stall | reason (code : Nat)
deriving DecidableEq, Repr

/-- The reason of a failed check for LSC (0) or ESP (1). -/
def inlineReason (svc order : Nat) : Nat :=
  match order with
  | 1 => 0x1E | 3 => 0x1F | 4 => 0x19 | 5 => 0x1A | 6 => if svc = 0 then 0x0B else 0x0D | 7 => 0x1D | _ => 0x1B

/-- An association record's packet number is refused (R246). -/
def pnRefused (top window n : Nat) : Bool :=
  decide (n = 0) || decide (n + 64 ≤ top) || (decide (n ≤ top) && bit window (top - n))

/-- TOP and WINDOW after packet number `n` has passed. -/
def pnAccept (top window n : Nat) : Nat × Nat :=
  if top < n then (n, if 64 ≤ n - top then 1 else (window * 2 ^ (n - top) + 1) % 2 ^ 64)
  else (top, window ||| 2 ^ (top - n))

/-- The 64-bit packet number of an XPN frame that carries its low half (802.1AEbw). -/
def xpnRecover (top low : Nat) : Nat :=
  let lap := top - 63
  let hi := lap / 2 ^ 32
  (if low < 2 ^ 31 ∧ 2 ^ 31 ≤ lap % 2 ^ 32 then hi + 1 else hi) * 2 ^ 32 + low

/-- The 64-bit sequence number of an ESP packet that carries its low half (RFC 4303, window of 64). -/
def esnRecover (top low : Nat) : Nat :=
  let tl := top % 2 ^ 32; let th := top / 2 ^ 32
  let h := if 63 ≤ tl then (if tl - 63 ≤ low then th else th + 1)
    else if (tl + 2 ^ 32 - 63) % 2 ^ 32 ≤ low then th - 1 else th
  h * 2 ^ 32 + low

/-- A received frame opened: the frame without its security bytes, the packet number, and whether the tag passed. -/
structure Opened where
  frame : Frame
  pn : Nat
  ok : Bool
deriving DecidableEq, Repr

/-- A MACsec frame (R48 position 0): SecTAG and ICV removed. None where no SecTAG stands. -/
def State.lscOpen (s : State) (iar : Nat) (k : KeySlot) (f : Frame) : Option Opened :=
  let d := f.data
  let tci := byteAt d 14
  let sc := bit tci 5
  let n := if sc then 16 else 8
  if be16At d 12 ≠ 0x88E5 ∨ d.length < 12 + n + 16 then none else
    let sl := byteAt d 15 % 64
    let rest := d.drop (12 + n)
    let m := if sl ≠ 0 ∧ sl + 16 ≤ rest.length then sl else rest.length - 16
    let body := rest.take m
    let tag := slice rest m 16
    let pn := xpnRecover (s.rf iar ciphIar_TOP) (beNat (slice d 16 4))
    let iv := xorBytes (beBytes 4 (s.rf iar ciphIar_SSCI) ++ beBytes 8 pn) (leBytes 12 (s.rf iar ciphIar_SALT))
    let hdr := d.take (12 + n)
    let r := if bit tci 3 then gcmOpen k.aes iv hdr body tag else (body, (gcmOpen k.aes iv (hdr ++ body) [] tag).2)
    some ⟨(f.setData (d.take 12 ++ r.1)).moveOffs (-(n : Int)), pn, r.2⟩

/-- An offset beyond `at_` moved by `d`. -/
def moveBeyond (at_ x : Nat) (d : Int) : Nat := if x ≤ at_ then x else moveOff x d

/-- The inner offsets of a frame moved by `d`, where they lie beyond OFF_L4. -/
def Frame.moveInner (f : Frame) (d : Int) : Frame :=
  let l4 := f.gf sfOffL4
  (f.sf sfOffIl3 (moveBeyond l4 (f.gf sfOffIl3) d)).sf sfOffIl4 (moveBeyond l4 (f.gf sfOffIl4) d)

/-- An IP packet whose payload from OFF_L4 on has become `body` with protocol `nh`: length, protocol and IPv4 checksum
follow. -/
def ipRebuild (d : List Byte) (l3 l4 nh : Nat) (body : List Byte) : List Byte :=
  let all := d.take l4 ++ body
  if byteAt d l3 / 16 = 4 then
    let all := splice (splice all (l3 + 2) (beBytes 2 (all.length - l3))) (l3 + 9) [BitVec.ofNat 8 nh]
    let all := splice all (l3 + 10) [0, 0]
    splice all (l3 + 10) (beBytes 2 (inetSum (slice all l3 (4 * (byteAt d l3 % 16)))))
  else splice (splice all (l3 + 4) (beBytes 2 (all.length - l3 - 40))) (l3 + 6) [BitVec.ofNat 8 nh]

/-- The protocol that the IP header at `l3` names. -/
def ipProto (d : List Byte) (l3 : Nat) : Nat := if byteAt d l3 / 16 = 4 then byteAt d (l3 + 9) else byteAt d (l3 + 6)

/-- The end of the IP packet at `l3`. -/
def ipFin (d : List Byte) (l3 : Nat) : Nat :=
  min d.length (if byteAt d l3 / 16 = 4 then l3 + be16At d (l3 + 2) else l3 + 40 + be16At d (l3 + 4))

/-- An ESP packet in transport mode (R48 position 1): ESP header, trailer and ICV removed. None where OFF_L4 names no
ESP header. -/
def State.espOpen (s : State) (iar : Nat) (k : KeySlot) (f : Frame) : Option Opened :=
  let d := f.data
  let l3 := f.gf sfOffL3; let l4 := f.gf sfOffL4
  let fin := ipFin d l3
  if l3 = 0xFF ∨ l4 = 0xFF ∨ fin < l4 + 34 then none else
    let spi := slice d l4 4
    let sn := esnRecover (s.rf iar ciphIar_TOP) (beNat (slice d (l4 + 4) 4))
    let iv := leBytes 4 (s.rf iar ciphIar_SALT) ++ slice d (l4 + 8) 8
    let body := slice d (l4 + 16) (fin - 16 - (l4 + 16))
    let r := gcmOpen k.aes iv (spi ++ beBytes 8 sn) body (slice d (fin - 16) 16)
    let p := r.1
    let nh := byteAt p (p.length - 1)
    let pad := byteAt p (p.length - 2)
    let load := p.take (p.length - 2 - pad)
    some ⟨(f.setData (ipRebuild d l3 l4 nh load)).moveInner (-16), sn, r.2⟩

/-- Arrival LSC (0) or ESP (1) on a frame in cipher island `c`. -/
def State.inlineOpen (s : State) (c svc fid : Nat) : State × InlineEnd :=
  let f := s.frame fid
  let n := f.gf sfKeySlot
  let k := s.slot n
  let iar := Reg.ciphIar c k.iar
  let vo := s.slotVerifyOnly n || s.instVerifyOnly (f.gf sfInstance)
  if s.failClosed then (s, .reason 0x1E)
  else if !s.cached c n then (s.missKey c n, .stall)
  else
    let s := (s.takeEngine c).ciphCount c 0
    let opened := if svc = 0 then s.lscOpen iar k f else s.espOpen iar k f
    match s.latchCheck n svc true vo false with
    | some 7 =>
      let ok := match opened with
        | some o => o.ok
        | none => false
      ((s.ciphCount c 8).ciphCount c (if ok then 9 else 10), .reason 0x1D)
    | some o => (s, .reason (inlineReason svc o))
    | none =>
      match opened with
      | none => (s, .reason (if svc = 0 then 0x0B else 0x0D))
      | some o =>
        let top := s.rf iar ciphIar_TOP; let win := s.rf iar ciphIar_WINDOW
        if pnRefused top win o.pn then (s, .reason (if svc = 0 then 0x0C else 0x0E))
        else
          let s := s.modFrame fid fun f => f.sf sfKeyGen k.gen
          if !o.ok then (s.ciphCount c 3, .reason 0x1C)
          else
            let w := pnAccept top win o.pn
            let s := (s.setRf iar ciphIar_TOP w.1).setRf iar ciphIar_WINDOW w.2
            (s.setFrame fid (o.frame.sf sfKeyGen k.gen), .done)

/-- The bytes that departure LSC or ESP adds to a frame. -/
def Frame.sealGrowth (f : Frame) (svc : Nat) : Nat :=
  if svc = 0 then 24 else
    let pl := ipFin f.data (f.gf sfOffL3) - f.gf sfOffL4
    32 + 2 + (4 - (pl + 2) % 4) % 4

/-- A departing frame under MACsec, with a SecTAG that names no SCI; its association number is open. -/
def State.lscSeal (s : State) (iar : Nat) (k : KeySlot) (f : Frame) : State × Frame :=
  let pn := k.usage
  let body := f.data.drop 12
  let an := (Config.freeWord s.free).toNat % 4
  let hdr := f.data.take 12 ++ [0x88, 0xE5, BitVec.ofNat 8 (0x0C + an), BitVec.ofNat 8 (if body.length < 48 then body.length else 0)] ++ beBytes 4 pn
  let iv := xorBytes (beBytes 4 (s.rf iar ciphIar_SSCI) ++ beBytes 8 pn) (leBytes 12 (s.rf iar ciphIar_SALT))
  let r := gcmSeal k.aes iv hdr body
  ({ s with free := s.free + 1 }, (f.setData (hdr ++ r.1 ++ r.2)).moveOffs 8)

/-- A departing frame under ESP in transport mode; the SPI is open. -/
def State.espSeal (s : State) (iar : Nat) (k : KeySlot) (f : Frame) : State × Frame :=
  let d := f.data
  let l3 := f.gf sfOffL3; let l4 := f.gf sfOffL4
  let load := slice d l4 (ipFin d l3 - l4)
  let pad := (4 - (load.length + 2) % 4) % 4
  let p := load ++ (List.range pad).map (fun i => BitVec.ofNat 8 (i + 1)) ++ [BitVec.ofNat 8 pad, BitVec.ofNat 8 (ipProto d l3)]
  let spi := beBytes 4 (Config.freeWord s.free).toNat
  let sn := k.usage
  let iv := beBytes 8 sn
  let r := gcmSeal k.aes (leBytes 4 (s.rf iar ciphIar_SALT) ++ iv) (spi ++ beBytes 8 sn) p
  let body := spi ++ beBytes 4 sn ++ iv ++ r.1 ++ r.2
  ({ s with free := s.free + 1 }, (f.setData (ipRebuild d l3 l4 50 body)).moveInner 16)

/-- Departure LSC (0) or ESP (1) on a frame in cipher island `c`. -/
def State.inlineSeal (s : State) (c svc fid : Nat) : State × InlineEnd :=
  let f := s.frame fid
  let n := f.gf sfKeySlot
  let vo := s.slotVerifyOnly n || s.instVerifyOnly (f.gf sfInstance)
  let l3 := f.gf sfOffL3; let l4 := f.gf sfOffL4
  if s.failClosed then (s, .reason 0x1E)
  else if !s.cached c n then (s.missKey c n, .stall)
  else
    let s := (s.takeEngine c).ciphCount c 0
    match s.latchCheck n svc true vo true with
    | some o =>
      let s := if o = 7 then s.ciphCount c 8 else if o = 8 then s.ciphCount c 7 else s
      (s, .reason (inlineReason svc o))
    | none =>
      if svc = 1 ∧ (l3 = 0xFF ∨ l4 = 0xFF ∨ ipFin f.data l3 < l4) then (s, .reason 0x0D)
      else if 65535 < f.len + f.sealGrowth svc then (s, .reason 0x20)
      else
        let s := s.addUsage n 1
        let k := s.slot n
        let iar := Reg.ciphIar c k.iar
        let r := if svc = 0 then s.lscSeal iar k f else s.espSeal iar k f
        (r.1.setFrame fid (r.2.sf sfKeyGen k.gen), .done)

end Sys2Proof.Machine
end

