-- ==== Sys2Proof/Machine/Alu.lean ====
section
/-! DEFINITION. The 64-bit computations of AFV-2: the ALU group, multiplication and division, immediates, bit fields,
conditions and helpers (R66 to R70, R84). -/

namespace Sys2Proof.Machine

/-- The ALU group of major 0x00 (R66). -/
inductive AluOp where
  | add | sub | and | or | xor | andn | shl | shr | sra | rol | ror | minu | maxu | mins | maxs
  | clz | ctz | popc | bswap | add32 | sub32
deriving DecidableEq, Repr

/-- The multiply and divide group of major 0x01 (R67). -/
inductive MulOp where
  | mul | mulhu | mulhs | divu | remu | divs | rems
deriving DecidableEq, Repr

/-- The predicate logic of major 0x03 (R70). -/
inductive PredOp where
  | and | or | xor | andn | not
deriving DecidableEq, Repr

/-- The immediate operations ADDI, ANDI, ORI, XORI, MOVK (R68). -/
inductive ImmOp where
  | addi | andi | ori | xori | movk
deriving DecidableEq, Repr

/-- The shifts by an immediate (R68). -/
inductive ShiftOp where
  | shl | shr | sra | rol
deriving DecidableEq, Repr

/-- The helpers of major 0x06 (R84). -/
inductive HelpOp where
  | crc32c | crc64n | gfmul | gfxor
deriving DecidableEq, Repr

/-- The number of leading zeros of the low `n` bits of `x`. -/
def clzN : Nat → Nat → Nat
  | 0, _ => 0
  | n + 1, x => if x / 2 ^ n % 2 = 1 then 0 else 1 + clzN n x

/-- The number of trailing zeros of the low `n` bits of `x`. -/
def ctzN : Nat → Nat → Nat
  | 0, _ => 0
  | n + 1, x => if x % 2 = 1 then 0 else 1 + ctzN n (x / 2)

/-- The bytes of a 64-bit value reversed. -/
def bswap64 (x : W64) : W64 := BitVec.ofNat 64 (beNat (leBytes 8 x.toNat))

/-- The shifts and rotates, by the low six bits of the amount (R66, R68). -/
def shiftVal (op : ShiftOp) (a : W64) (n : Nat) : W64 :=
  match op with
  | .shl => a <<< (n % 64)
  | .shr => a >>> (n % 64)
  | .sra => a.sshiftRight (n % 64)
  | .rol => a.rotateLeft (n % 64)

/-- The result of the ALU group (R66). -/
def aluVal (op : AluOp) (a b : W64) : W64 :=
  match op with
  | .add => a + b
  | .sub => a - b
  | .and => a &&& b
  | .or => a ||| b
  | .xor => a ^^^ b
  | .andn => a &&& ~~~b
  | .shl => shiftVal .shl a b.toNat
  | .shr => shiftVal .shr a b.toNat
  | .sra => shiftVal .sra a b.toNat
  | .rol => shiftVal .rol a b.toNat
  | .ror => a.rotateRight (b.toNat % 64)
  | .minu => if a.toNat ≤ b.toNat then a else b
  | .maxu => if a.toNat ≤ b.toNat then b else a
  | .mins => if a.toInt ≤ b.toInt then a else b
  | .maxs => if a.toInt ≤ b.toInt then b else a
  | .clz => BitVec.ofNat 64 (clzN 64 a.toNat)
  | .ctz => BitVec.ofNat 64 (ctzN 64 a.toNat)
  | .popc => BitVec.ofNat 64 (popcount 64 a.toNat)
  | .bswap => bswap64 a
  | .add32 => BitVec.ofNat 64 ((a.toNat + b.toNat) % 2 ^ 32)
  | .sub32 => BitVec.ofNat 64 ((a.toNat % 2 ^ 32 + 2 ^ 32 - b.toNat % 2 ^ 32) % 2 ^ 32)

/-- Must `rb` be g0 for this operation (R66)? -/
def AluOp.unary : AluOp → Bool
  | .clz | .ctz | .popc | .bswap => true
  | _ => false

/-- The results of the multiply and divide group; division by zero and -2^63 / -1 as R67 states. -/
def mulVal (op : MulOp) (a b : W64) : W64 :=
  match op with
  | .mul => a * b
  | .mulhu => BitVec.ofNat 64 (a.toNat * b.toNat / 2 ^ 64)
  | .mulhs => BitVec.ofInt 64 (a.toInt * b.toInt / 2 ^ 64)
  | .divu => if b = 0 then BitVec.allOnes 64 else BitVec.ofNat 64 (a.toNat / b.toNat)
  | .remu => if b = 0 then a else BitVec.ofNat 64 (a.toNat % b.toNat)
  | .divs => if b = 0 then BitVec.allOnes 64 else BitVec.ofInt 64 (Int.tdiv a.toInt b.toInt)
  | .rems => if b = 0 then a else BitVec.ofInt 64 (Int.tmod a.toInt b.toInt)

/-- A 14-bit immediate sign-extended. -/
def immS (i : BitVec 14) : W64 := i.signExtend 64
/-- A 14-bit immediate zero-extended. -/
def immZ (i : BitVec 14) : W64 := i.setWidth 64

/-- The immediate operations (R68). -/
def immVal (op : ImmOp) (a : W64) (i : BitVec 14) : W64 :=
  match op with
  | .addi => a + immS i
  | .andi => a &&& immZ i
  | .ori => a ||| immZ i
  | .xori => a ^^^ immZ i
  | .movk => (a <<< 14) ||| immZ i

/-- EXT (R68): the field of `a`, sign-extended when imm[12] is 1; none where it raises ILLEGAL. -/
def extVal (a : W64) (i : BitVec 14) : Option W64 :=
  let pos := fld i.toNat 0 6
  let len := fld i.toNat 6 6 + 1
  if pos + len > 64 ∨ fld i.toNat 13 1 = 1 then none
  else if fld i.toNat 12 1 = 1 then some (BitVec.ofNat 64 (sext len 64 (fld a.toNat pos len)))
  else some (BitVec.ofNat 64 (fld a.toNat pos len))

/-- INS (R68): `d` with a field replaced by the low bits of `a`; none where it raises ILLEGAL. -/
def insVal (d a : W64) (i : BitVec 14) : Option W64 :=
  let pos := fld i.toNat 0 6
  let len := fld i.toNat 6 6 + 1
  if pos + len > 64 ∨ fld i.toNat 12 2 ≠ 0 then none
  else some (BitVec.ofNat 64 (setFld d.toNat pos len a.toNat))

/-- The conditions of CMP (R69); none for the reserved values 8 to 15. -/
def condVal (c : Nat) (a b : W64) : Option Bool :=
  match c with
  | 0 => some (a == b)
  | 1 => some (a != b)
  | 2 => some (decide (a.toNat < b.toNat))
  | 3 => some (decide (b.toNat ≤ a.toNat))
  | 4 => some (decide (a.toInt < b.toInt))
  | 5 => some (decide (b.toInt ≤ a.toInt))
  | 6 => some ((a &&& b) != 0)
  | 7 => some ((a &&& b) == 0)
  | _ => none

/-- The new value of pd under the mode of R69. -/
def cmpMode (mode : Nat) (old c : Bool) : Bool :=
  match mode with
  | 0 => c
  | 1 => old && c
  | 2 => old || c
  | _ => !c

/-- The predicate operations (R70). -/
def predVal (op : PredOp) (a b : Bool) : Bool :=
  match op with
  | .and => a && b
  | .or => a || b
  | .xor => a != b
  | .andn => a && !b
  | .not => !a

/-- The helpers (R84). -/
def helpVal (op : HelpOp) (a b : W64) : W64 :=
  match op with
  | .crc32c => BitVec.ofNat 64 (crcUpdate polyCrc32c (a.toNat % 2 ^ 32) (leBytes 8 b.toNat))
  | .crc64n => BitVec.ofNat 64 (crcUpdate polyCrc64n a.toNat (leBytes 8 b.toNat))
  | .gfmul => gfMulBytes a b
  | .gfxor => a ^^^ gfMulBytes a b

end Sys2Proof.Machine
end

