-- ==== Sys2Proof/Machine/Afv.lean ====
section
/-! DEFINITION. AFV-2 instructions as the machine runs them, and the decoding of an instruction word (R62, R63, R65 to
R91). -/

namespace Sys2Proof.Machine

/-- The conditions that CMPI has (R69). -/
inductive ImmCond where
  | eq | ltu | lts | any
deriving DecidableEq, Repr

/-- An instruction of AFV-2 without its predicate selector. -/
inductive Afv where
  | alu (op : AluOp) (rd ra rb : BitVec 5)
  | mul (op : MulOp) (rd ra rb : BitVec 5)
  | cmp (pd : BitVec 3) (mode : BitVec 2) (cond : BitVec 4) (pe : BitVec 3) (ra rb : BitVec 5)
  | pred (op : PredOp) (pd pa pb : BitVec 3)
  | sput (n : BitVec 4) (ra rb : BitVec 5)
  | amo (op : AmoOp) (rd ra rb : BitVec 5) (space : BitVec 2) (wide : Bool)
  | help (op : HelpOp) (rd ra rb : BitVec 5)
  | ciph (mode : Nat) (rd ra rb : BitVec 5)
  | imm (op : ImmOp) (rd ra : BitVec 5) (i : BitVec 14)
  | shift (op : ShiftOp) (rd ra : BitVec 5) (hi amt : BitVec 6)
  | ext (rd ra : BitVec 5) (i : BitVec 14)
  | ins (rd ra : BitVec 5) (i : BitVec 14)
  | cmpi (cc : ImmCond) (pd : BitVec 3) (mode : BitVec 2) (ra : BitVec 5) (i : BitVec 14)
  | sget (rd : BitVec 5) (i : BitVec 14)
  | load (k : LoadKind) (rd ra : BitVec 5) (space size : BitVec 2) (off : BitVec 9)
  | store (be : Bool) (rs ra : BitVec 5) (space size : BitVec 2) (off : BitVec 9)
  | branch (off : BitVec 20)
  | call (off : BitVec 20)
  | jr (rd ra : BitVec 5)
  | look (rd ra : BitVec 5) (table : BitVec 4) (klen rcnt : BitVec 2) (pd : BitVec 3)
  | rcmp (rd ra : BitVec 5) (tag : BitVec 4)
  | waite (rd ra : BitVec 5)
  | sige (ra rb : BitVec 5)
  | sett (ra : BitVec 5)
  | clrt
  | evrd (rd : BitVec 5)
  | post (fin : Bool) (ra rb : BitVec 5)
  | take (rd ra : BitVec 5) (pd pe : BitVec 3)
  | fence (pre succ : BitVec 4)
  | getw (rd ra : BitVec 5) (pd : BitVec 3)
  | dispCont
  | dispDrop
  | dispGroup (ra : BitVec 5)
  | news (rd ra rb : BitVec 5)
  | sysr (rd ra : BitVec 5)
  | sysw (ra rb : BitVec 5)
  | eret
  | waitPwr (rd : BitVec 5)
  | clctl (ra rb : BitVec 5)
  | trestart (ra : BitVec 5)
  | trap (code : BitVec 5)
deriving DecidableEq, Repr

/-- The results of the operations that only compute (R66 to R70, R84): register writes and predicate writes; none where
they raise ILLEGAL. Other instructions have no such result. -/
inductive Pure where
  | no
  | bad
  | ok (g : List (BitVec 5 × W64)) (p : List (BitVec 3 × Bool))
deriving DecidableEq, Repr

/-- The width of an instruction word's field as a bit vector. -/
def wf (w : W32) (lo n : Nat) : BitVec n := BitVec.ofNat n (fld w.toNat lo n)

/-- rd, ra and rb of a word. -/
def wRd (w : W32) : BitVec 5 := wf w 21 5
/-- The ra field. -/
def wRa (w : W32) : BitVec 5 := wf w 16 5
/-- The rb field. -/
def wRb (w : W32) : BitVec 5 := wf w 11 5
/-- The immediate of the I format. -/
def wImm (w : W32) : BitVec 14 := BitVec.ofNat 14 (fld w.toNat 26 1 * 8192 + fld w.toNat 3 13)

/-- The ALU operation of a func value (R66). -/
def aluOfFunc (f : Nat) : Option AluOp :=
  if f = 0x0F then none else
    [AluOp.add, .sub, .and, .or, .xor, .andn, .shl, .shr, .sra, .rol, .ror, .minu, .maxu, .mins, .maxs, .add,
     .clz, .ctz, .popc, .bswap, .add32, .sub32][f]?

/-- The operation of a func value of major 0x01 (R67). -/
def mulOfFunc (f : Nat) : Option MulOp :=
  match f with
  | 0 => some .mul | 1 => some .mulhu | 2 => some .mulhs
  | 8 => some .divu | 9 => some .remu | 10 => some .divs | 11 => some .rems
  | _ => none

/-- AMO's operation code (R77). -/
def amoOfCode (f : Nat) : Option AmoOp := [AmoOp.add, .swap, .cas, .and, .or, .maxu, .minu][f]?

/-- Keep a decoded instruction only where its reserved fields are zero (R63). -/
def clean (ok : Bool) (i : Afv) : Option Afv := if ok then some i else none

/-- Major 0x38: events and the timer (R87). -/
def decodeEvent (w : W32) (op : Nat) : Option Afv :=
  let rd := wRd w; let ra := wRa w; let rb := wRb w
  let pd := fld w.toNat 3 3
  match op with
  | 0 => clean (rb = 0 ∧ pd = 0) (.waite rd ra)
  | 1 => clean (rd = 0 ∧ pd = 0) (.sige ra rb)
  | 2 => clean (rd = 0 ∧ rb = 0 ∧ pd = 0) (.sett ra)
  | 3 => clean (rd = 0 ∧ ra = 0 ∧ rb = 0 ∧ pd = 0) .clrt
  | 4 => clean (ra = 0 ∧ rb = 0 ∧ pd = 0) (.evrd rd)
  | _ => none

/-- Major 0x39: mailboxes (R89). -/
def decodeMail (w : W32) (op : Nat) : Option Afv :=
  let rd := wRd w; let ra := wRa w; let rb := wRb w
  let pd := fld w.toNat 3 3
  match op with
  | 0 => clean (rd = 0 ∧ pd = 0) (.post false ra rb)
  | 1 => clean (rd = 0 ∧ pd = 0) (.post true ra rb)
  | 2 => clean (fld w.toNat 14 2 = 0) (.take rd ra (wf w 3 3) (wf w 11 3))
  | _ => none

/-- Major 0x3B: work items (R90). -/
def decodeWork (w : W32) (op : Nat) : Option Afv :=
  let rd := wRd w; let ra := wRa w; let rb := wRb w
  let pd := fld w.toNat 3 3
  match op with
  | 0 => clean (rb = 0) (.getw rd ra (wf w 3 3))
  | 1 => clean (rd = 0 ∧ ra = 0 ∧ rb = 0 ∧ pd = 0) .dispCont
  | 2 => clean (rd = 0 ∧ ra = 0 ∧ rb = 0 ∧ pd = 0) .dispDrop
  | 3 => clean (rd = 0 ∧ rb = 0 ∧ pd = 0) (.dispGroup ra)
  | 4 => clean (pd = 0) (.news rd ra rb)
  | _ => none

/-- Major 0x3C: system and privileged instructions (R91). -/
def decodeSystem (w : W32) (op : Nat) : Option Afv :=
  let rd := wRd w; let ra := wRa w; let rb := wRb w
  let pd := fld w.toNat 3 3
  if pd ≠ 0 then none else
    match op with
    | 0 => clean (rb = 0) (.sysr rd ra)
    | 1 => clean (rd = 0) (.sysw ra rb)
    | 2 => clean (rd = 0 ∧ ra = 0 ∧ rb = 0) .eret
    | 3 => clean (ra = 0 ∧ rb = 0) (.waitPwr rd)
    | 4 => clean (rd = 0) (.clctl ra rb)
    | 5 => clean (rd = 0 ∧ rb = 0) (.trestart ra)
    | 6 => clean (rd = 0 ∧ ra = 0) (.trap rb)
    | _ => none

/-- The A, K, B, T and M formats by major opcode. -/
def decodeMajor (w : W32) (m : Nat) : Option Afv :=
  let x := w.toNat
  let rd := wRd w; let ra := wRa w; let rb := wRb w
  let func := fld x 3 8
  let mem := fun (i : BitVec 5 → BitVec 5 → BitVec 2 → BitVec 2 → BitVec 9 → Afv) => some (i rd ra (wf w 14 2) (wf w 12 2) (wf w 3 9))
  match m with
  | 0x00 => (aluOfFunc func).bind fun op => clean (!op.unary || rb = 0) (.alu op rd ra rb)
  | 0x01 => (mulOfFunc func).map fun op => .mul op rd ra rb
  | 0x02 => clean (fld x 3 1 = 0 ∧ fld x 7 4 < 8) (.cmp (wf w 23 3) (wf w 21 2) (wf w 7 4) (wf w 4 3) ra rb)
  | 0x03 =>
    let z := fld x 21 2 = 0 ∧ fld x 16 2 = 0 ∧ fld x 11 2 = 0
    let pb := fld x 13 3
    ([PredOp.and, .or, .xor, .andn, .not][func]?).bind fun op =>
      clean (z ∧ (op ≠ .not ∨ pb = 0)) (.pred op (wf w 23 3) (wf w 18 3) (wf w 13 3))
  | 0x04 => clean (rd = 0 ∧ fld x 3 4 = 0) (.sput (wf w 7 4) ra rb)
  | 0x05 => (amoOfCode (fld x 6 3)).bind fun op =>
      clean (fld x 3 2 = 0 ∧ fld x 9 2 < 2) (.amo op rd ra rb (wf w 9 2) (bit x 5))
  | 0x06 => ([HelpOp.crc32c, .crc64n, .gfmul, .gfxor][func]?).map fun op => .help op rd ra rb
  | 0x07 => some (.ciph func rd ra rb)
  | 0x28 => mem (.load .zero)
  | 0x29 => mem (.load .sign)
  | 0x2A => mem (.load .be)
  | 0x2B => mem (.store false)
  | 0x2C => mem (.store true)
  | 0x30 => clean (fld x 23 3 = 0) (.branch (wf w 3 20))
  | 0x31 => clean (fld x 23 3 = 0) (.call (wf w 3 20))
  | 0x32 => clean (rb = 0 ∧ func = 0) (.jr rd ra)
  | 0x34 => clean (fld x 3 2 = 0) (.look rd ra (wf w 12 4) (wf w 10 2) (wf w 8 2) (wf w 5 3))
  | 0x35 => clean (fld x 3 2 = 0 ∧ fld x 5 7 = 0) (.rcmp rd ra (wf w 12 4))
  | 0x38 => decodeEvent w (fld x 6 5)
  | 0x39 => decodeMail w (fld x 6 5)
  | 0x3A => clean (fld x 6 5 = 1 ∧ fld x 25 1 = 0 ∧ fld x 20 1 = 0 ∧ rb = 0 ∧ fld x 3 3 = 0) (.fence (wf w 21 4) (wf w 16 4))
  | 0x3B => decodeWork w (fld x 6 5)
  | 0x3C => decodeSystem w (fld x 6 5)
  | _ => none

/-- The I format by major pair; none for the pairs that it does not use. -/
def decodeImm (w : W32) (pair : Nat) : Option Afv :=
  let rd := wRd w; let ra := wRa w; let i := wImm w
  let pd : BitVec 3 := wf w 23 3
  let mode : BitVec 2 := wf w 21 2
  match pair with
  | 4 => some (.imm .addi rd ra i)
  | 5 => some (.imm .andi rd ra i)
  | 6 => some (.imm .ori rd ra i)
  | 7 => some (.imm .xori rd ra i)
  | 8 => some (.shift ([ShiftOp.shl, .shr, .sra, .rol].getD (fld i.toNat 6 2) .shl) rd ra
      (BitVec.ofNat 6 (fld i.toNat 8 6)) (BitVec.ofNat 6 (fld i.toNat 0 6)))
  | 9 => some (.imm .movk rd ra i)
  | 10 => some (.ext rd ra i)
  | 11 => some (.ins rd ra i)
  | 12 => some (.cmpi .eq pd mode ra i)
  | 13 => some (.cmpi .ltu pd mode ra i)
  | 14 => some (.cmpi .lts pd mode ra i)
  | 15 => some (.cmpi .any pd mode ra i)
  | 16 => clean (ra = 0) (.sget rd i)
  | _ => none

/-- The instruction that a word encodes; none for a word that raises ILLEGAL by its encoding alone (R63), which a field
that the instruction does not use makes when it is not zero (log entry 119). The fields of an immediate are left to the
instruction. -/
def afvDecode (w : W32) : Option Afv :=
  let m := fld w.toNat 26 6
  if 8 ≤ m ∧ m < 0x22 then decodeImm w (m / 2) else decodeMajor w m

/-- The predicate selector of a word (R64). -/
def afvPred (w : W32) : BitVec 3 := wf w 0 3

/-- The sign- or zero-extended immediate of a CMPI. -/
def ImmCond.extend (c : ImmCond) (i : BitVec 14) : W64 :=
  match c with
  | .eq | .lts => immS i
  | .ltu | .any => immZ i

/-- The condition code that a CMPI tests. -/
def ImmCond.code (c : ImmCond) : Nat :=
  match c with
  | .eq => 0 | .ltu => 2 | .lts => 4 | .any => 6

/-! ### Encoding (R62 to R91) -/

/-- The A and K formats: major, rd, ra, rb, func, predicate selector (R62). -/
def aForm (m : Nat) (rd ra rb : BitVec 5) (func : Nat) (pr : BitVec 3) : W32 :=
  BitVec.ofNat 32 (m * 2 ^ 26 + rd.toNat * 2 ^ 21 + ra.toNat * 2 ^ 16 + rb.toNat * 2 ^ 11 + func * 2 ^ 3 + pr.toNat)

/-- The I format by its major pair; bit 26 is bit 13 of the immediate. -/
def iForm (pair : Nat) (rd ra : BitVec 5) (i : BitVec 14) (pr : BitVec 3) : W32 :=
  BitVec.ofNat 32 (pair * 2 ^ 27 + i.toNat / 2 ^ 13 * 2 ^ 26 + rd.toNat * 2 ^ 21 + ra.toNat * 2 ^ 16
    + i.toNat % 2 ^ 13 * 2 ^ 3 + pr.toNat)

/-- The M format. -/
def mForm (m : Nat) (rd ra : BitVec 5) (space size : BitVec 2) (off : BitVec 9) (pr : BitVec 3) : W32 :=
  BitVec.ofNat 32 (m * 2 ^ 26 + rd.toNat * 2 ^ 21 + ra.toNat * 2 ^ 16 + space.toNat * 2 ^ 14 + size.toNat * 2 ^ 12
    + off.toNat * 2 ^ 3 + pr.toNat)

/-- The B format. -/
def bForm (m : Nat) (off : BitVec 20) (pr : BitVec 3) : W32 :=
  BitVec.ofNat 32 (m * 2 ^ 26 + off.toNat * 2 ^ 3 + pr.toNat)

/-- The E format. -/
def eForm (m : Nat) (rd ra rb : BitVec 5) (op : Nat) (pd pr : BitVec 3) : W32 :=
  BitVec.ofNat 32 (m * 2 ^ 26 + rd.toNat * 2 ^ 21 + ra.toNat * 2 ^ 16 + rb.toNat * 2 ^ 11 + op * 2 ^ 6
    + pd.toNat * 2 ^ 3 + pr.toNat)

/-- The T format. -/
def tForm (m : Nat) (rd ra : BitVec 5) (table : BitVec 4) (klen rcnt : BitVec 2) (pd pr : BitVec 3) : W32 :=
  BitVec.ofNat 32 (m * 2 ^ 26 + rd.toNat * 2 ^ 21 + ra.toNat * 2 ^ 16 + table.toNat * 2 ^ 12 + klen.toNat * 2 ^ 10
    + rcnt.toNat * 2 ^ 8 + pd.toNat * 2 ^ 5 + pr.toNat)

/-- The func value of R66. -/
def AluOp.func : AluOp → Nat
  | .add => 0 | .sub => 1 | .and => 2 | .or => 3 | .xor => 4 | .andn => 5 | .shl => 6 | .shr => 7 | .sra => 8
  | .rol => 9 | .ror => 10 | .minu => 11 | .maxu => 12 | .mins => 13 | .maxs => 14 | .clz => 16 | .ctz => 17
  | .popc => 18 | .bswap => 19 | .add32 => 20 | .sub32 => 21

/-- The func value of R67. -/
def MulOp.func : MulOp → Nat
  | .mul => 0 | .mulhu => 1 | .mulhs => 2 | .divu => 8 | .remu => 9 | .divs => 10 | .rems => 11

/-- The func value of R70. -/
def PredOp.func : PredOp → Nat
  | .and => 0 | .or => 1 | .xor => 2 | .andn => 3 | .not => 4

/-- The op of R84. -/
def HelpOp.func : HelpOp → Nat
  | .crc32c => 0 | .crc64n => 1 | .gfmul => 2 | .gfxor => 3

/-- The operation of R77. -/
def AmoOp.code : AmoOp → Nat
  | .add => 0 | .swap => 1 | .cas => 2 | .and => 3 | .or => 4 | .maxu => 5 | .minu => 6

/-- The kind of R68. -/
def ShiftOp.kind : ShiftOp → Nat
  | .shl => 0 | .shr => 1 | .sra => 2 | .rol => 3

/-- The major pair of R65. -/
def ImmOp.pair : ImmOp → Nat
  | .addi => 4 | .andi => 5 | .ori => 6 | .xori => 7 | .movk => 9

/-- The major pair of R65. -/
def ImmCond.pair : ImmCond → Nat
  | .eq => 12 | .ltu => 13 | .lts => 14 | .any => 15

/-- The major of R65. -/
def loadMajor : LoadKind → Nat
  | .zero => 0x28 | .sign => 0x29 | .be => 0x2A

/-- A predicate in rd[25:23] with a mode in rd[22:21] (R69). -/
def pdMode (pd : BitVec 3) (mode : BitVec 2) : BitVec 5 := BitVec.ofNat 5 (pd.toNat * 4 + mode.toNat)

/-- A predicate in the upper bits of a register field (R70). -/
def predHi (p : BitVec 3) : BitVec 5 := BitVec.ofNat 5 (p.toNat * 4)

/-- An instruction whose operands have an encoding: rb is g0 for the unary operations, a condition is below 8, pb is p0
for PNOT, AMO's space is 0b00 or 0b01, a cipher op has eight bits (R66, R69, R70, R77, R85). -/
def Afv.wf : Afv → Bool
  | .alu op _ _ rb => !op.unary || decide (rb = 0)
  | .cmp _ _ cond _ _ _ => decide (cond.toNat < 8)
  | .pred op _ _ pb => decide (op ≠ .not ∨ pb = 0)
  | .amo _ _ _ _ space _ => decide (space.toNat < 2)
  | .ciph mode _ _ _ => decide (mode < 256)
  | _ => true

/-- The word of an instruction under predicate `pr`; fields that it does not use are zero. -/
def afvEncode (a : Afv) (pr : BitVec 3) : W32 :=
  match a with
  | .alu op rd ra rb => aForm 0x00 rd ra rb op.func pr
  | .mul op rd ra rb => aForm 0x01 rd ra rb op.func pr
  | .cmp pd mode cond pe ra rb => aForm 0x02 (pdMode pd mode) ra rb (cond.toNat * 16 + pe.toNat * 2) pr
  | .pred op pd pa pb => aForm 0x03 (predHi pd) (predHi pa) (predHi pb) op.func pr
  | .sput n ra rb => aForm 0x04 0 ra rb (n.toNat * 16) pr
  | .amo op rd ra rb space wide => aForm 0x05 rd ra rb (space.toNat * 64 + op.code * 8 + b2n wide * 4) pr
  | .help op rd ra rb => aForm 0x06 rd ra rb op.func pr
  | .ciph mode rd ra rb => aForm 0x07 rd ra rb mode pr
  | .imm op rd ra i => iForm op.pair rd ra i pr
  | .shift op rd ra hi amt => iForm 8 rd ra (BitVec.ofNat 14 (hi.toNat * 256 + op.kind * 64 + amt.toNat)) pr
  | .ext rd ra i => iForm 10 rd ra i pr
  | .ins rd ra i => iForm 11 rd ra i pr
  | .cmpi cc pd mode ra i => iForm cc.pair (pdMode pd mode) ra i pr
  | .sget rd i => iForm 16 rd 0 i pr
  | .load k rd ra space size off => mForm (loadMajor k) rd ra space size off pr
  | .store be rs ra space size off => mForm (if be then 0x2C else 0x2B) rs ra space size off pr
  | .branch off => bForm 0x30 off pr
  | .call off => bForm 0x31 off pr
  | .jr rd ra => aForm 0x32 rd ra 0 0 pr
  | .look rd ra table klen rcnt pd => tForm 0x34 rd ra table klen rcnt pd pr
  | .rcmp rd ra tag => tForm 0x35 rd ra tag 0 0 0 pr
  | .waite rd ra => eForm 0x38 rd ra 0 0 0 pr
  | .sige ra rb => eForm 0x38 0 ra rb 1 0 pr
  | .sett ra => eForm 0x38 0 ra 0 2 0 pr
  | .clrt => eForm 0x38 0 0 0 3 0 pr
  | .evrd rd => eForm 0x38 rd 0 0 4 0 pr
  | .post fin ra rb => eForm 0x39 0 ra rb (b2n fin) 0 pr
  | .take rd ra pd pe => eForm 0x39 rd ra (BitVec.ofNat 5 pe.toNat) 2 pd pr
  | .fence pre succ => eForm 0x3A (BitVec.ofNat 5 pre.toNat) (BitVec.ofNat 5 succ.toNat) 0 1 0 pr
  | .getw rd ra pd => eForm 0x3B rd ra 0 0 pd pr
  | .dispCont => eForm 0x3B 0 0 0 1 0 pr
  | .dispDrop => eForm 0x3B 0 0 0 2 0 pr
  | .dispGroup ra => eForm 0x3B 0 ra 0 3 0 pr
  | .news rd ra rb => eForm 0x3B rd ra rb 4 0 pr
  | .sysr rd ra => eForm 0x3C rd ra 0 0 0 pr
  | .sysw ra rb => eForm 0x3C 0 ra rb 1 0 pr
  | .eret => eForm 0x3C 0 0 0 2 0 pr
  | .waitPwr rd => eForm 0x3C rd 0 0 3 0 pr
  | .clctl ra rb => eForm 0x3C 0 ra rb 4 0 pr
  | .trestart ra => eForm 0x3C 0 ra 0 5 0 pr
  | .trap code => eForm 0x3C 0 0 code 6 0 pr

end Sys2Proof.Machine
end

