-- ==== Sys2Proof/Machine/Hamper.lean ====
section
/-! DEFINITION. Hamper links: flits, credits, messages and the firmware rings (R374 to R386). -/

namespace Sys2Proof.Machine

/-! ### Links and their registers -/

/-- A register of link `n`. -/
def hlAddr (n o : Nat) : Nat := ctlAddr (0x63 + n) o
/-- A link. -/
def State.hl (s : State) (n : Nat) : HLink := Tab.get {} s.hlinks n
/-- Replace a link. -/
def State.setHl (s : State) (n : Nat) (x : HLink) : State := { s with hlinks := Tab.put s.hlinks n x }
/-- A virtual channel of a link. -/
def State.hvc (s : State) (n v : Nat) : HVc := Tab.get {} (s.hl n).vcs v
/-- Replace a virtual channel. -/
def State.setHvc (s : State) (n v : Nat) (x : HVc) : State :=
  let l := s.hl n
  s.setHl n { l with vcs := Tab.put l.vcs v x }
/-- Is the link up? -/
def State.hlUp (s : State) (n : Nat) : Bool := s.rf (hlAddr n 4) hlStatus_UP = 1
/-- Is the link enabled? -/
def State.hlEn (s : State) (n : Nat) : Bool := s.rf (hlAddr n 0) hlCfg_EN = 1
/-- Is pairing on? -/
def State.pairOn (s : State) : Bool := s.rf Reg.pairCtl pairCtl_EN = 1
/-- Is `n` a shelf link: HL0–HL4, and HL5 while pairing is off (R40)? -/
def State.isShelf (s : State) (n : Nat) : Bool := decide (n < 5) || (decide (n = 5) && !s.pairOn)
/-- Count in HL.CNT. -/
def State.hlCount (s : State) (n c : Nat) (k : Nat := 1) : State := s.count (hlAddr n (0x800 + 8 * c)) k

/-! ### Messages to send (R378, R383, R385) -/

/-- The satchel subset of a message that carries no satchel. -/
def State.plainSubset (s : State) : HSubset := { fmtGen := s.rf Reg.fmtGen fmtGen_CUR }

/-- The subset of a satchel. -/
def Frame.subset (f : Frame) : HSubset :=
  ⟨f.gf sfMu, f.gf sfAuthFail, f.gf sfExtMask, f.gf sfFmtGen, f.gf sfInstance, f.gf sfFlowClass, f.gf sfTc, f.gf sfColour, f.gf sfSeq⟩

/-- Queue a message on a virtual channel of a link that is up. -/
def State.hlSend (s : State) (n v : Nat) (m : HMsg) : State :=
  let c := s.hvc n v
  s.setHvc n v { c with txq := c.txq ++ [m], creditAt := if c.txq.isEmpty then s.ictNs else c.creditAt }

/-- A frame becomes a message of the data channel, its extension words first. -/
def State.hlSendFrame (s : State) (n fid : Nat) : State :=
  let f := s.frame fid
  let ext := (List.range 4).flatMap fun i => if bit (f.gf sfExtMask) i then leBytes 4 (satWord f.s (12 + i)) else []
  s.hlSend n 1 { sub := f.subset, bytes := ext ++ f.data, fid := some fid }

/-- The entry at HEAD of the firmware transmit ring becomes a message, while the ring holds one, the link is up and no
earlier entry is waiting; an entry of LEN 0 is passed over. -/
def State.fwNext : Nat → Nat → State → State
  | 0, _, s => s
  | fuel + 1, n, s =>
    let cfg := hlAddr n 0x100
    let head := s.rf (hlAddr n 0x10C) hlFwtxHead_HEAD
    let busy := (s.hl n).vcs.any fun e => e.2.txq.any fun m => m.fw
    if s.rf cfg hlFwtxCfg_EN = 0 || head = s.rf (hlAddr n 0x108) hlFwtxTail_TAIL || !s.hlUp n || busy then s else
      let a := s.rf cfg hlFwtxCfg_BASE / 16 * 16 + 16 * (head % 2 ^ s.rf cfg hlFwtxCfg_LOG2_ENTRIES)
      let len := s.ldNat (a + 8) 2
      let ctrl := s.ldNat (a + 0xA) 1
      if len = 0 then fwNext fuel n (s.setRf (hlAddr n 0x10C) hlFwtxHead_HEAD (head + 1))
      else
        let sub := { s.plainSubset with extMask := fld ctrl 2 4, mu := fld ctrl 6 1 }
        s.hlSend n (ctrl % 4) { sub := sub, bytes := s.ldBytes (s.ldNat a 8) len, fw := true }

/-- The firmware ring of link `n` goes on. -/
def State.fwPump (s : State) (n : Nat) : State :=
  State.fwNext ((s.rf (hlAddr n 0x108) hlFwtxTail_TAIL + 65536 - s.rf (hlAddr n 0x10C) hlFwtxHead_HEAD) % 65536 + 1) n s

/-- A write of HL.FWTX_TAIL. -/
def State.fwTailSet (s : State) (n v : Nat) : State := (s.setRf (hlAddr n 0x108) hlFwtxTail_TAIL v).fwPump n

/-- HL_FWTX_TAIL_WRITE. -/
def execHlFwtxTailWrite (link : Fin 6) (tail : BitVec 16) (s : State) : Out :=
  .next (s.rowWrite (hlAddr link.val 0x108) 4 tail.toNat fun s => s.fwTailSet link.val tail.toNat)

/-- A write of a ring configuration register at offset `o` (R386): only while the link's EN or the ring's own EN is 0;
reserved sizes ignore the write; EN from 0 to 1 zeroes the indices. -/
def State.hlRingSet (s : State) (n o v : Nat) : State :=
  let a := hlAddr n o
  let on := s.rf a hlFwtxCfg_EN
  let log := fld v 48 4
  if (s.hlEn n && on = 1) || decide (log < 4) || decide (12 < log) then s else
    let s := s.wrN a 2 (fld v 0 53)
    let s := if on = 0 ∧ bit v 52 then (s.wr (a + 8) 0).wr (a + 12) 0 else s
    if o = 0x100 then s.fwPump n else s

/-- A write of HL.CREDIT_INIT[v] (R386). -/
def State.creditInitSet (s : State) (n v x : Nat) : State :=
  let x := max 1 (x % 1024)
  let others := ((List.range 4).filter (· ≠ v)).foldl (fun t w => t + (s.rd (hlAddr n (0x10 + 4 * w))).toNat % 1024) 0
  if s.hlEn n || decide (2048 < others + x) then s else s.wr (hlAddr n (0x10 + 4 * v)) (BitVec.ofNat 32 x)

/-! ### Flits (R377 to R381) -/

/-- The device serial number, from the Stile fuses. -/
def State.deviceSerial (s : State) : Nat := (s.fuseRow 198).toNat + 2 ^ 32 * (s.fuseRow 199).toNat

/-- CHECK of a flit with header bytes 0–13 and 240 payload bytes. -/
def flitCheck (hdr payload : List Byte) : Nat := (hdr ++ payload).foldl crc16Byte 0xFFFF

/-- The bytes of a flit. -/
def flitBytes (v : Nat) (start fin : Bool) (cnt crVc freed : Nat) (sub : HSubset) (payload : List Byte) : List Byte :=
  let w0 := v + 4 * b2n start + 8 * b2n fin + 16 * payload.length + 4096 * (cnt % 1024) + 2 ^ 22 * crVc
  let w1 := freed % 1024 + 1024 * sub.mu + 2048 * sub.authFail + 4096 * sub.extMask + 65536 * sub.fmtGen
  let w2 := sub.inst + 4096 * sub.flowClass + 2 ^ 22 * sub.tc + 2 ^ 25 * sub.colour
  let hdr := leBytes 4 w0 ++ leBytes 4 w1 ++ leBytes 4 w2 ++ leBytes 2 sub.seq
  let body := slice payload 0 240
  hdr ++ leBytes 2 (flitCheck hdr body) ++ body

/-- The subset that a flit's header carries. -/
def flitSubset (b : List Byte) : HSubset :=
  let w1 := leNat (slice b 4 4); let w2 := leNat (slice b 8 4)
  ⟨fld w1 10 1, fld w1 11 1, fld w1 12 4, fld w1 16 8, fld w2 0 12, fld w2 12 10, fld w2 22 3, fld w2 25 2, leNat (slice b 12 2)⟩

/-- A message has been sent whole: a firmware entry is passed by HEAD, a frame is removed. -/
def State.hlSent (s : State) (n : Nat) (m : HMsg) : State :=
  let s := if m.fw then (s.setRf (hlAddr n 0x10C) hlFwtxHead_HEAD (s.rf (hlAddr n 0x10C) hlFwtxHead_HEAD + 1)).fwPump n else s
  match m.fid with
  | some fid => s.removeFrame fid
  | none => s

/-- Can channel `v` send a flit: a message waits and a credit is held? -/
def State.vcReady (s : State) (n v : Nat) : Bool := !(s.hvc n v).txq.isEmpty && (s.hvc n v).credits ≠ 0

/-- Is a flit of channel `v` due: no channel between the one served last and `v` can send (R127), or none can at all? -/
def State.vcTurn (s : State) (n v : Nat) : Bool :=
  let last := (s.hl n).turn
  if s.vcReady n v then !(List.range ((v + 7 - last) % 4)).any fun i => s.vcReady n ((last + 1 + i) % 4)
  else !(List.range 4).any fun w => s.vcReady n w

/-- Step 4 of bring-up (R375): with FEC lock on every lane, the unit sends its serial number and the buffers it offers. -/
def State.hlHello (s : State) (n : Nat) : State :=
  let s := (s.setRf (hlAddr n 4) ⟨1, 8⟩ 0xFF).hlCount n 0
  s.emit (.linkHello n s.deviceSerial ((List.range 4).map fun v => (s.rd (hlAddr n (0x10 + 4 * v))).toNat % 1024))

/-- Send the next flit on virtual channel `v`; where no channel can send one, a link control flit. In training an enabled
link sends the flit of step 4. -/
def State.flitSend (s : State) (n v : Nat) : State :=
  if !s.hlUp n then (if s.hlEn n then s.hlHello n else s)
  else if !s.vcTurn n v then s
  else
    let l := s.hl n
    let crVc := l.rot
    let freed := (s.hvc n crVc).freed
    let s := (s.setHl n { l with rot := (l.rot + 1) % 4 }).hlCount n 0
    let c := s.hvc n v
    match c.txq with
    | m :: rest =>
      if c.credits = 0 then s.emit (.flit n (flitBytes 0 false false 0 crVc freed {} [])) else
        let piece := (m.bytes.drop m.sent).take 240
        let fin := decide (m.bytes.length ≤ m.sent + 240)
        let cnt := (c.txCnt + 1) % 1024
        let s := s.emit (.flit n (flitBytes v (m.sent = 0) fin cnt crVc freed m.sub piece))
        let q := if fin then rest else { m with sent := m.sent + 240 } :: rest
        let s := (s.setHl n { s.hl n with turn := v }).setHvc n v { c with txq := q, credits := c.credits - 1, txCnt := cnt }
        if fin then s.hlSent n m else s
    | [] => s.emit (.flit n (flitBytes 0 false false 0 crVc freed {} []))

/-- FLIT_SEND. -/
def execFlitSend (link : Fin 6) (vc : Fin 4) (s : State) : Out :=
  if s.stopped then .next s else
  .next (s.flitSend link.val vc.val)

/-- The credits that a received flit returns (R381). -/
def State.takeCredits (s : State) (n crVc freed : Nat) : State :=
  let c := s.hvc n crVc
  let d := (freed + 1024 - c.peerFreed) % 1024
  if d = 0 then s else s.setHvc n crVc { c with credits := c.credits + d, peerFreed := freed, creditAt := s.ictNs }

/-- A data flit with a valid CHECK (R378, R379). -/
def State.flitData (s : State) (n v : Nat) (start fin : Bool) (cnt : Nat) (sub : HSubset) (payload : List Byte) : State :=
  let c := s.hvc n v
  let gap := (cnt + 1024 - c.rxCnt - 1) % 1024
  let broken := gap ≠ 0 || (start && c.part.isSome)
  let s := if broken then s.hlCount n 3 else s
  let c := if broken then { c with freed := (c.freed + gap + c.partFlits) % 1024, part := none, partFlits := 0 } else c
  let c := { c with rxCnt := cnt }
  let asm := if start then some (sub, payload) else c.part.map fun p => ({ p.1 with authFail := max p.1.authFail sub.authFail }, p.2 ++ payload)
  match asm with
  | none => s.setHvc n v { c with freed := (c.freed + 1) % 1024 }
  | some p =>
    let k := c.partFlits + 1
    if fin then
      let s := s.setHvc n v { c with part := none, partFlits := 0 }
      let l := s.hl n
      s.setHl n { l with rx := l.rx ++ [(v, p.1, p.2, k)] }
    else s.setHvc n v { c with part := some p, partFlits := k }

/-- A flit arrives (R377, R379, R381). -/
def State.flitReceive (s : State) (n : Nat) (i : FlitIn) : State :=
  if !s.hlUp n then s else
    let s := ((s.hlCount n 1).hlCount n 4 i.corr).hlCount n 5 i.uncorr
    let b := slice i.bytes 0 256
    if flitCheck (b.take 14) (b.drop 16) ≠ leNat (slice b 14 2) then s.hlCount n 2 else
      let w0 := leNat (slice b 0 4)
      let plen := fld w0 4 8
      let s := (s.setHl n { s.hl n with flitAt := s.ictNs }).takeCredits n (fld w0 22 2) (leNat (slice b 4 4) % 1024)
      if plen = 0 then s else s.flitData n (w0 % 4) (bit w0 2) (bit w0 3) (fld w0 12 10) (flitSubset b) (slice b 16 (min plen 240))

/-- FLIT_RECEIVE. -/
def execFlitReceive (link : Fin 6) (data : FlitIn) (s : State) : Out :=
  if s.stopped then .next s else
  .next (s.flitReceive link.val data)

/-! ### The firmware receive rings (R383, R385) -/

/-- A message for the firmware ring of VC 0 or 2: above 48 bytes, to a full or disabled ring, or with MU set outside the
accepted generations it is discarded and counted. -/
def State.fwReceive (s : State) (n v : Nat) (sub : HSubset) (bytes : List Byte) : State :=
  let i := v / 2
  let cfg := hlAddr n (0x110 + 16 * i)
  let prod := s.rf (hlAddr n (0x118 + 16 * i)) hlFwrxProd_PROD
  let cons := s.rf (hlAddr n (0x11C + 16 * i)) hlFwrxCons_CONS
  let ok := decide (s.rf Reg.fmtGen fmtGen_GMIN ≤ sub.fmtGen ∧ sub.fmtGen ≤ s.rf Reg.fmtGen fmtGen_GMAX)
  let extBytes := 4 * popcount 4 sub.extMask
  let msg := bytes.drop extBytes
  let full := decide ((prod + 65536 - cons) % 65536 = 2 ^ s.rf cfg hlFwrxCfg_LOG2_ENTRIES)
  if decide (48 < msg.length) || msg.isEmpty || s.rf cfg hlFwrxCfg_EN = 0 || full || (!ok && sub.mu = 1) then s.hlCount n 9
  else
    let gen := if ok then sub.fmtGen else s.rf Reg.fmtGen fmtGen_CUR
    let a := s.rf cfg hlFwrxCfg_BASE / 16 * 16 + 64 * (prod % 2 ^ s.rf cfg hlFwrxCfg_LOG2_ENTRIES)
    let e := leBytes 1 msg.length ++ leBytes 1 (b2n (!ok && sub.extMask ≠ 0)) ++ leBytes 1 gen ++ List.replicate 13 0 ++ slice msg 0 48
    ((s.stBytes a e).setRf (hlAddr n (0x118 + 16 * i)) hlFwrxProd_PROD (prod + 1)).raiseSource 7 (4 * n + v)

/-! ### Bring-up and loss (R375, R376, R382) -/

/-- EN is written 1: training begins. -/
def State.hlEnable (s : State) (n : Nat) : State :=
  if s.hlEn n then s else (s.setRf (hlAddr n 0) hlCfg_EN 1).setHl n { s.hl n with trainAt := s.ictNs }

/-- Training ends: UP, the peer's kind, port and serial number, and the credits that it offers, after the unit's own part
of step 4. -/
def State.hlBringUp (s : State) (n : Nat) (unit : Bool) (port serial : Nat) (credits : Nat) : State :=
  if !s.hlEn n || s.hlUp n then s else
    let s := if s.rf (hlAddr n 4) ⟨1, 8⟩ = 0 then s.hlHello n else s
    let st := 1 + 2 * 0xFF + 8192 * b2n unit + 16384 * (port % 16)
    let s := s.wr (hlAddr n 4) (BitVec.ofNat 32 st)
    let vcs := (List.range 4).map fun v => (v, ({ credits := fld credits (10 * v) 10, creditAt := s.ictNs } : HVc))
    (s.setHl n { s.hl n with vcs := vcs, rot := 0, serial := serial, flitAt := s.ictNs, turn := 3 }).fwPump n

/-- A link goes down: partly received messages are discarded, waiting messages failed to their senders, credits
forgotten; training starts again. Answers whether it was up. -/
def State.hlDrop (s : State) (n : Nat) : State × Bool :=
  if !s.hlUp n then (s, false) else
    let l := s.hl n
    let msgs := l.vcs.flatMap fun e => e.2.txq
    let st := (s.rd (hlAddr n 4)).toNat
    let s := s.wr (hlAddr n 4) (BitVec.ofNat 32 (setFld st 0 9 0))
    let s := s.setHl n { l with vcs := [], rx := l.rx.map fun m => (m.1, m.2.1, m.2.2.1, 0), trainAt := s.ictNs }
    (msgs.foldl (fun s m => s.hlSent n m) s, true)

end Sys2Proof.Machine
end

