-- ==== Sys2Proof/Machine/Verdict.lean ====
section
/-! DEFINITION. Satchel exceptions (R50, R52, R54, R55, R58). -/

namespace Sys2Proof.Machine

/-- The reasons without an exception verdict (R57). -/
def reasonBare (r : Nat) : Bool := r = 0x03 || r = 0x04 || r = 0x1C || r = 0x1D || r = 0x1E

/-- Apply the exception verdict of the satchel's flow class; a record not in use acts as DROP (R55, R177). -/
def State.excVerdict (s : State) (fid : Nat) : State :=
  let a := flowClassAddr ((s.frame fid).gf sfFlowClass)
  let kind := if s.rf a flowClass_VALID = 1 then s.rf a flowClass_EXC_KIND else 0
  if kind = 1 then s.toGroup (s.rf a flowClass_EXC_GROUP) fid
  else if kind = 2 then s.hdl fid (s.rf a flowClass_EXC_INSTANCE) (s.rf a flowClass_EXC_QUEUE)
  else s.discard fid

/-- Raise a satchel exception: EXC and REASON are set and counted and POS stays; a satchel whose EXC is already 1 is
discarded with its first code. Its slot of a reorder window is released (R180). -/
def State.raiseExc (s : State) (fid reason : Nat) : State :=
  if (s.frame fid).gf sfExc = 1 then (s.count Reg.excDouble).discard fid
  else
    let s := ((s.modFrame fid fun f => (f.sf sfExc 1).sf sfReason reason).countExc reason).leaveWindow fid
    if reasonBare reason then s.discard fid else s.excVerdict fid

end Sys2Proof.Machine
end

