-- ==== Sys2Proof/Machine/Store.lean ====
section
/-! DEFINITION. Contexts, ingest jobs, the code, the shelf command set, reading, sweeps and Decant (R262 to R264, R273 to
R291). -/

namespace Sys2Proof.Machine

/-! ### Contexts (R262, R263) -/

/-- The device address of context `n`; none where it is absent. -/
def State.ctxAddr (s : State) (n : Nat) : Option Nat :=
  if n < 131072 then some (0x08000000 + 256 * n)
  else
    let size := s.rf (Reg.cbRegion 1) cbRegion_SIZE * 0x10000000
    let o := 256 * (n - 131072)
    if n < 0xFFFFF ∧ o + 256 ≤ size then some (coolUnit (s.rf (Reg.cbRegion 1) cbRegion_BASE) + o) else none

/-- `n` bytes at offset `o` of a context, as a number; zero for an absent one. -/
def State.ctxN (s : State) (c o n : Nat) : Nat :=
  match s.ctxAddr c with
  | some a => s.ldNat (a + o) n
  | none => 0

/-- Write bytes at offset `o` of a context. -/
def State.ctxPut (s : State) (c o : Nat) (bs : List Byte) : State :=
  match s.ctxAddr c with
  | some a => s.stBytes (a + o) bs
  | none => s

/-- Does the context lie in a bank marked LOST? -/
def State.ctxLost (s : State) (c : Nat) : Bool :=
  match s.ctxAddr c with
  | some a => s.addrLost a
  | none => false

/-- KIND of a context; reserved values act as free. -/
def State.ctxKind (s : State) (c : Nat) : Nat :=
  let k := s.ctxN c 0 4 % 16
  if k ≤ 6 then k else 0

/-! ### Jobs (R273, R277, R278) -/

/-- The job open under a context. -/
def State.job (s : State) (c : Nat) : Option StoreJob := Tab.find s.jobs c
/-- Replace a job. -/
def State.setJb (s : State) (c : Nat) (j : StoreJob) : State := { s with jobs := Tab.put s.jobs c j }
/-- The ingest island of a job's engine. -/
def StoreJob.isl (j : StoreJob) : Nat := j.eng / 4
/-- Count in ING.CNT of an island. -/
def State.ingCount (s : State) (i c : Nat) (n : Nat := 1) : State := s.count (Reg.ingCnt i c) n

/-- One side of a job: object key, K, M, unit bytes, bits [8:0] of GEOM, key slot and map. -/
structure Side where
  objKey : Nat
  k : Nat
  m : Nat
  u : Nat
  geom : Nat
  slot : Nat
  map : Nat
deriving DecidableEq, Repr

/-- The fields of a side that begin at offset `o`. -/
def State.sideAt (s : State) (c o : Nat) : Side :=
  let g := s.ctxN c (o + 8) 4
  ⟨s.ctxN c o 8, g % 32, fld g 5 3, if bit g 8 then 4096 else 512, g % 512, s.ctxN c (o + 12) 4 % 2 ^ 18, s.ctxN c (o + 16) 8⟩

/-- The write side (B of a DECANT, A of a WRITE) or the read side (A) of a job. -/
def State.sideOf (s : State) (c : Nat) (w : Bool) : Side := s.sideAt c (if w && s.ctxKind c = 6 then 0x30 else 0x18)
/-- The Hamper link of a shard. -/
def Side.link (d : Side) (i : Nat) : Nat := fld d.map (3 * i) 3
/-- LENGTH of the object. -/
def State.jobLen (s : State) (c : Nat) : Nat := s.ctxN c 8 8 % 2 ^ 48
/-- Units of a shard. -/
def Side.units (d : Side) (len : Nat) : Nat := (len + d.k * d.u - 1) / (d.k * d.u)

/-- The coefficient of data unit `i` in parity unit `j` (R278). -/
def rsCoef (j i : Nat) : Nat := gfInv ((16 + j) ^^^ i)

/-- Parity unit `j` of a stripe. -/
def rsParity (j u : Nat) (data : List (List Byte)) : List Byte :=
  (List.range data.length).foldl (fun acc i =>
    let c := rsCoef j i
    xorBytes acc ((data.getD i []).map fun b => BitVec.ofNat 8 (gfMul c b.toNat))) (List.replicate u 0)

/-- One row of the generator: a data shard's unit vector, or the coefficients of a parity shard. -/
def rsRow (k shard : Nat) : List Nat :=
  (List.range k).map fun i => if shard < k then (if i = shard then 1 else 0) else rsCoef (shard - k) i

/-- A row of numbers and bytes, scaled. -/
def rsScale (c : Nat) (r : List Nat × List Byte) : List Nat × List Byte :=
  (r.1.map (gfMul c), r.2.map fun b => BitVec.ofNat 8 (gfMul c b.toNat))
/-- The sum of two rows. -/
def rsAdd (a b : List Nat × List Byte) : List Nat × List Byte := (List.zipWith (· ^^^ ·) a.1 b.1, xorBytes a.2 b.2)

/-- Elimination of column `c`, with the pivot moved to place `c`. -/
def rsStep (rows : List (List Nat × List Byte)) (c : Nat) : List (List Nat × List Byte) :=
  match firstIdx (fun r : List Nat × List Byte => r.1.getD c 0 != 0) (rows.drop c) with
  | none => rows
  | some i =>
    let p := rows.getD (c + i) ([], [])
    let rest := rows.take c ++ rows.getD c ([], []) :: rows.drop (c + 1)
    let rest := if i = 0 then rest else rest.set (c + i) (rows.getD c ([], []))
    let p := rsScale (gfInv (p.1.getD c 0)) p
    ((List.range rest.length).map fun x =>
      if x = c then p else
        let r := rest.getD x ([], [])
        rsAdd r (rsScale (r.1.getD c 0) p))

/-- The data units of a stripe from any K of its units (shard, bytes). -/
def rsRebuild (k : Nat) (have_ : List (Nat × List Byte)) : List (List Byte) :=
  let rows := (have_.take k).map fun x => (rsRow k x.1, x.2)
  ((List.range k).foldl rsStep rows).map (·.2)

/-! ### The end of a job (R275, R276) -/

/-- The key of a unit in the unit table. -/
def unitKey (shard u : Nat) : Nat := shard * 2 ^ 45 + u

/-- Does the job's instance still carry its generation (R39)? -/
def State.jobFresh (s : State) (j : StoreJob) : Bool := !s.genStale j.inst j.gen

/-- The 32 bytes of a shelf command. -/
def shelfBytes (op abort count job claim shard du objKey unit : Nat) : List Byte :=
  leBytes 1 op ++ leBytes 1 abort ++ leBytes 2 count ++ leBytes 4 job ++ leBytes 4 claim ++ leBytes 1 shard ++ leBytes 1 du
    ++ [0, 0] ++ leBytes 8 objKey ++ leBytes 8 unit

/-- CLAIM as shelf commands carry it: zero in INTERLOCK mode. -/
def State.shelfClaim (s : State) : Nat :=
  if s.rf Reg.pairCfg pairCfg_MODE = 1 then 0 else (s.rd Reg.pairClaim).toNat

/-- Send a shelf command on the command channel of its shard's link. -/
def State.shelfMsg (s : State) (c num : Nat) (d : Side) (op abort count shard unit : Nat) : State :=
  let b := shelfBytes op abort count (c + 2 ^ 20 * (num % 4096)) s.shelfClaim shard (if d.u = 4096 then 1 else 0) d.objKey unit
  s.hlSend (d.link shard) 0 { sub := s.plainSubset, bytes := b, cmd := some (c, num) }

/-- Bytes for the data channel of link `n` wait in weighted queue 4,088 + e of its side scheduler (R280); `mark`: what
SEC encrypted them under. -/
def State.shardData (s : State) (c : Nat) (j : StoreJob) (n : Nat) (mark : Option SecMark) (bs : List Byte) : State :=
  let f : Frame := { data := bs, sec := mark }
  let f := ((f.sf sfInstance j.inst).sf sfInstGen j.gen).sf sfFmtGen (s.rf Reg.fmtGen fmtGen_CUR)
  let f := ((f.sf sfSrc (0x121 + j.isl)).sf sfDst (0x108 + n)).sf sfLen bs.length
  let f := ((f.sf sfPhase 1).sf sfPos 14).sf sfCtx c
  let f := (f.sf sfTsLo s.ictHalf).sf sfTsHi (s.ictHalf / 2 ^ 32)
  let q := 4088 + j.eng
  let r := s.newFrame (f.sf sfQueue q)
  let s := r.1
  let owner := 34 + n
  let qn := qWeighted owner q
  let x := s.outQ qn
  let e : QEnt := ⟨r.2, 32, bs.length, []⟩
  let v := s.rf (vtimeAddr owner 0) tmVtime_V
  let x := if x.chip.isEmpty && x.cool.isEmpty then { x with s := v, f := (v + s.headCost owner q 0 e) % tagMod, active := true } else x
  s.setOutQ qn { x with chip := x.chip ++ [e] }

/-- The shards of the write side that the job has opened and neither closed nor given up, each told to discard. -/
def State.abortShards (s : State) (c : Nat) (j : StoreJob) : State :=
  let d := s.sideOf c true
  (List.range (d.k + d.m)).foldl (fun s i =>
    if bit j.opened i && !bit j.closed i && s.hlUp (d.link i) then s.shelfMsg c (j.cmdNo + i) d 3 1 0 i 0 else s) s

/-- FAILED_MASK. -/
def StoreJob.failMask (j : StoreJob) : Nat := (j.failed ||| j.erased ||| j.badMask) % 2 ^ 20

/-- A job ends with a status: shards aborted where it failed, the record in PRIVATE and STATE, and the satchel for
NOTIFY_GROUP. Where the context itself lies in a bank marked LOST nothing is written there and no shard is closed (R292). -/
def State.endJob (s : State) (c st : Nat) : State :=
  match s.job c with
  | none => s
  | some j =>
    let good := decide (st ≤ 1)
    let writes := decide (j.kind = 3 ∨ j.kind = 6)
    let lost := s.ctxLost c
    let s := if writes && !good && !lost then s.abortShards c j else s
    let s := s.ingCount j.isl (if st = 0 then 1 else if st = 1 then 2 else 3)
    let s := if st = 5 then s.ingCount j.isl 12 else s
    let rec_ := leBytes 4 j.cookie ++ leBytes 1 st ++ leBytes 1 j.kind ++ [0, 0] ++ leBytes 4 j.failMask ++ leBytes 4 j.bad
      ++ leBytes 8 j.obj.length ++ leBytes 8 (crc64n j.obj) ++ sha256 j.obj
    let hdr := s.ctxN c 0 4
    let s := if lost then s else (s.ctxPut c 0x58 rec_).ctxPut c 0 (leBytes 4 (setFld hdr 4 2 (if good then 2 else 3)))
    let sat := j.units.filterMap (·.2) ++ j.ops.filterMap (·.fid)
    let mine := fun (x : CiphJob) => x.sec.any fun o => o.ctx = c && !o.single
    let s := sat.foldl State.discard { s with jobs := Tab.del s.jobs c, ciphJobs := s.ciphJobs.filter fun x => !mine x }
    let r := s.attach (0x121 + j.isl) j.inst s.ictHalf (217 + j.isl) rec_
    let s := r.1.modFrame r.2 fun f => f.sf sfCtx c
    let g := j.notify
    if (s.fence (s.frame r.2)).isSome || decide ((s.groupQ g).length < s.rf (Reg.wgroup g) wgroup_LIMIT) then s.toGroup g r.2
    else (s.discard r.2).ingCount j.isl 13

/-- OFFSET follows the object bytes. -/
def State.putOffset (s : State) (c : Nat) (j : StoreJob) : State := s.ctxPut c 0x10 (leBytes 8 j.obj.length)

/-! ### Shelf commands (R280 to R284) -/

/-- FLAGS of a command: AUTH_FAIL where a unit that follows bears it (R283). -/
def unitFlags (op : Nat) (data : List (List Byte)) : Nat :=
  if op = 2 && data.any fun b => bit (byteAt b (b.length - 8)) 0 then 2 else 0

/-- What the units of a UNIT_WRITE were encrypted under. -/
def State.unitMark (s : State) (c : Nat) (j : StoreJob) (op : Nat) : Option SecMark :=
  if op = 2 && j.genW.isSome then some ⟨(s.sideOf c true).slot, j.wIsl, true⟩ else none

/-- Issue a shelf command of a job; INST_GEN is compared first. The messages of `data` follow on the data channel. Answers
with the job STALE_GEN ended, or with the command outstanding; a shard whose link is down is left to the caller. -/
def State.shelfCmd (s : State) (c : Nat) (w : Bool) (op shard unit count : Nat) (data : List (List Byte)) : State :=
  match s.job c with
  | none => s
  | some j =>
    if !s.jobFresh j then s.endJob c 9 else
      let d := s.sideOf c w
      let s := s.shelfMsg c j.cmdNo d op (unitFlags op data) count shard unit
      let s := data.foldl (fun s b => s.shardData c j (d.link shard) (s.unitMark c j op) b) s
      let x : ShelfCmd := { num := j.cmdNo % 4096, op := op, w := w, shard := shard, unit := unit, count := count, data := data, sentAt := s.ictNs }
      s.setJb c { j with cmdNo := j.cmdNo + 1, cmds := j.cmds ++ [x] }

/-- A unit as it travels: ciphertext and trailer, with AUTH_FAIL where its stripe holds bytes that must not be trusted. -/
def unitWire (bad : Bool) (bs : List Byte) : List Byte := bs ++ leBytes 8 (crc64n bs) ++ leBytes 8 (b2n bad)

/-! ### Manifests (R282) -/

/-- Bytes 0x00–0x3F of the manifest of an object. -/
def manifestHead (obj : List Byte) (geom seq : Nat) : List Byte :=
  sha256 obj ++ leBytes 8 (crc64n obj) ++ leBytes 6 obj.length ++ leBytes 2 geom ++ leBytes 4 seq ++ List.replicate 12 0

/-- The GMAC tag of a manifest under a slot. -/
def State.manifestTag (s : State) (slot objKey seq : Nat) (head : List Byte) : List Byte :=
  gcmTag (aesKeys (s.slot slot).aes) (leBytes 8 objKey ++ leBytes 4 seq) (leBytes 8 objKey ++ head) []

/-- The job status of a failed check of R238. -/
def jobCheckStatus (o : Nat) : Nat := if o = 3 then 0x0A else 0x40 + checkStatus o

/-- The engine completes the manifest of the write side, or the status that ends the job. -/
def State.buildManifest (s : State) (c : Nat) (j : StoreJob) : State × Option Nat :=
  let d := s.sideOf c true
  let at_ := s.ctxN c (if j.kind = 6 then 0x50 else 0x48) 4
  let seq := s.ctxN c 0xE0 4
  let head := manifestHead j.obj d.geom seq
  let slot := at_ % 2 ^ 18
  if !bit at_ 31 then (s.ctxPut c 0xB0 (head ++ List.replicate 16 0), none)
  else match s.latchCheck slot 5 false false true with
    | some o => (s, some (jobCheckStatus o))
    | none =>
      let tag := s.manifestTag slot d.objKey seq head
      ((s.addUsage slot 1).ctxPut c 0xB0 (head ++ tag), none)

/-! ### The write side (R279 to R281) -/

/-- Send what the write side has ready: SHARD_OPEN before a shard's first unit, then UNIT_WRITE of up to 64 units. -/
def State.flushReady (s : State) (c : Nat) : State :=
  match s.job c with
  | none => s
  | some j =>
    let d := s.sideOf c true
    let s := s.setJb c { j with ready := [] }
    (List.range (d.k + d.m)).foldl (fun s i =>
      let us := j.ready.filter fun x => x.shard = i
      let live := match s.job c with
        | some j => !bit j.failed i
        | none => false
      if us.isEmpty || !live then s else
        let isOpen := match s.job c with
          | some j => bit j.opened i
          | none => true
        let s := if isOpen then s else s.shelfCmd c true 1 i 0 0 []
        let s := match s.job c with
          | some j => s.setJb c { j with opened := setFld j.opened i 1 1 }
          | none => s
        (chunks us.length 64 us).foldl (fun s b =>
          (s.shelfCmd c true 2 i ((b.headD ⟨true, i, 0, [], none⟩).unit) b.length (b.map fun x => unitWire (j.tainted.contains x.unit) x.bytes)).ingCount j.isl 6 b.length) s) s

/-- The write side goes on: the manifest and SHARD_CLOSE once the last stripe has been written, the job's end once every
close has been answered. -/
def State.writeAdvance (s : State) (c : Nat) : State :=
  match s.job c with
  | none => s
  | some j =>
    let d := s.sideOf c true
    let idle := !(j.cmds.any fun x => x.w) && j.ops.isEmpty && j.ready.isEmpty
    if !idle then s
    else if j.phase = .closing then s.endJob c (if j.failMask = 0 ∧ j.bad = 0 then 0 else 1)
    else if j.obj.length = s.jobLen c ∧ j.stripes = d.units (s.jobLen c) ∧ (j.kind = 3 ∨ j.rstripe = (s.sideOf c false).units (s.jobLen c)) then
      let r := s.buildManifest c j
      match r.2 with
      | some st => r.1.endJob c st
      | none =>
        let s := r.1.setJb c { j with phase := .closing }
        let man := match s.ctxAddr c with
          | some a => s.ldBytes (a + 0xB0) 80
          | none => []
        (List.range (d.k + d.m)).foldl (fun s i => if bit j.failed i then s else s.shelfCmd c true 3 i 0 0 [man]) s
    else s

/-- A shard of the write side fails (R281). -/
def State.shardFail (s : State) (c i : Nat) : State :=
  match s.job c with
  | none => s
  | some j =>
    let j := { j with failed := setFld j.failed i 1 1, cmds := j.cmds.filter fun x => !(x.w && x.shard = i), ready := j.ready.filter fun x => x.shard ≠ i }
    let s := s.setJb c j
    if (s.sideOf c true).m < popcount 20 j.failed then s.endJob c 6 else s.writeAdvance c

/-- Shards of the write side whose link is down fail. -/
def State.failDownShards (s : State) (c : Nat) : State :=
  let d := s.sideOf c true
  (List.range (d.k + d.m)).foldl (fun s i =>
    let live := match s.job c with
      | some j => !bit j.failed i
      | none => false
    if live && !s.hlUp (d.link i) then s.shardFail c i else s) s

/-- The units of stripe `n` of an object: K data units, then M parity units. -/
def stripeUnits (d : Side) (obj : List Byte) (n : Nat) : List (List Byte) :=
  let data := (List.range d.k).map fun i => slice obj (n * d.k * d.u + i * d.u) d.u
  data ++ (List.range d.m).map fun j => rsParity j d.u data

/-- A unit of a job asks the cipher islands for its operation (R279, R286). -/
def State.unitQueue (s : State) (c : Nat) (o : UnitOp) : State :=
  match s.job c with
  | none => s
  | some j =>
    let d := s.sideOf c o.w
    s.secQueue d.slot ⟨c, o.w, false, o.shard, o.unit, d.u, d.objKey, o.bytes, o.fid, j.inst⟩

/-- Code the stripes that the object bytes at hand complete; `sec` asks the cipher islands for one operation per unit,
without it the units are ready as they are. -/
def State.encodeStripes : Nat → Nat → Bool → State → State
  | 0, _, _, s => s
  | fuel + 1, c, sec, s =>
    match s.job c with
    | none => s
    | some j =>
      let d := s.sideOf c true
      let len := s.jobLen c
      if j.stripes < d.units len ∧ (min len ((j.stripes + 1) * d.k * d.u) ≤ j.obj.length) then
        let us := stripeUnits d j.obj j.stripes
        let ops := (List.range us.length).map fun i => UnitOp.mk true i j.stripes (us.getD i []) none
        let j := { j with stripes := j.stripes + 1 }
        if sec then encodeStripes fuel c sec (ops.foldl (fun s o => s.unitQueue c o) (s.setJb c { j with ops := j.ops ++ ops }))
        else encodeStripes fuel c sec (s.setJb c { j with ready := j.ready ++ ops })
      else s

/-- FIX at departure (R279): the frame's bytes join the object. None where no OPEN WRITE job of the satchel's INSTANCE is
named; bytes beyond LENGTH end the job OVERRUN. -/
def State.fixWrite (s : State) (fid : Nat) : Option State :=
  let f := s.frame fid
  let c := f.gf sfCtx
  match s.job c with
  | none => none
  | some j =>
    if j.kind ≠ 3 ∨ j.inst ≠ f.gf sfInstance then none
    else if s.jobLen c < j.obj.length + f.data.length then some (s.endJob c 7)
    else
      let w := (s.sideOf c true).k * (s.sideOf c true).u
      let hit := (List.range ((j.obj.length + f.data.length - 1) / w + 1)).filter fun n => j.obj.length / w ≤ n
      let j := { j with obj := j.obj ++ f.data, tainted := if f.gf sfAuthFail = 1 then j.tainted ++ hit else j.tainted }
      some (((s.setJb c j).putOffset c j).ingCount j.isl 4 f.data.length)

/-- ERC at departure toward the shelf set: the current stripe is filled, and whole stripes are coded. -/
def State.ercWrite (s : State) (fid : Nat) : State :=
  let f := s.frame fid
  let c := f.gf sfCtx
  match s.job c with
  | none => s
  | some j =>
    if j.kind ≠ 3 then s else
      let sec := f.wants 12
      let s := State.encodeStripes (j.obj.length + 2) c sec s
      if sec then s else ((s.flushReady c).failDownShards c).writeAdvance c

/-- Are K and M of the satchel's context out of range (R57)? An absent context has none. -/
def State.ercBad (s : State) (f : Frame) : Bool :=
  let d := s.sideOf (f.gf sfCtx) true
  !decide (1 ≤ d.k ∧ d.k ≤ 16 ∧ d.m ≤ 4)

/-- SEC at departure toward a single shelf link: the whole data units of the frame under KEY_A of its job. -/
def State.secSingle (s : State) (fid : Nat) : State :=
  let f := s.frame fid
  let c := f.gf sfCtx
  let d := s.sideOf c true
  let off := match s.job c with
    | some j => (j.obj.length - f.data.length) / d.u
    | none => 0
  s.secQueue d.slot ⟨c, true, true, 0, off, d.u, d.objKey, f.data.take (f.data.length / d.u * d.u), some fid, f.gf sfInstance⟩

/-! ### The read side (R285 to R290) -/

/-- Ask the next shard for its manifest; no shard left ends the job ATTEST_FAIL. -/
def State.askManifest : Nat → Nat → State → State
  | 0, c, s => s.endJob c 5
  | fuel + 1, c, s =>
    match s.job c with
    | none => s
    | some j =>
      let d := s.sideOf c false
      if d.k + d.m ≤ j.metaShard then s.endJob c 5
      else if s.hlUp (d.link j.metaShard) then s.shelfCmd c false 5 j.metaShard 0 0 []
      else askManifest fuel c (s.setJb c { j with metaShard := j.metaShard + 1, erased := setFld j.erased j.metaShard 1 1 })

/-- Ask for the next windows of the data shards (all shards of a SWEEP), at most four commands outstanding per shard. -/
def State.askUnits : Nat → Nat → Nat → State → State
  | 0, _, _, s => s
  | fuel + 1, c, i, s =>
    match s.job c with
    | none => s
    | some j =>
      let d := s.sideOf c false
      let next := Tab.get 0 j.asked i
      let n := d.units (s.jobLen c)
      let busy := (j.cmds.filter fun x => !x.w && x.shard = i).length
      if bit j.erased i || decide (n ≤ next) || decide (4 ≤ busy) then s else
        let k := min 64 (n - next)
        askUnits fuel c i ((s.setJb c { j with asked := Tab.set 0 j.asked i (next + k) }).shelfCmd c false 4 i next k [])

/-- What is known of unit `u` of a shard: its satchel, that it is erased, or nothing yet. -/
def StoreJob.unit? (j : StoreJob) (shard u : Nat) : Option (Option Nat) :=
  match Tab.find j.units (unitKey shard u) with
  | some x => some x
  | none => if bit j.erased shard then some none else none

/-- Is a unit being read? -/
def StoreJob.reading (j : StoreJob) (shard u : Nat) : Bool :=
  j.cmds.any (fun x => !x.w && x.op = 4 && x.shard = shard && decide (x.unit + x.got ≤ u ∧ u < x.unit + x.count))
    || j.ops.any (fun o => !o.w && o.shard = shard && o.unit = u)

/-- The stripes from `u` on, at most 64, in which a data unit is erased. -/
def StoreJob.erasedRun (j : StoreJob) (k : Nat) : Nat → Nat → Nat
  | 0, _ => 0
  | fuel + 1, u => if (List.range k).any fun i => j.unit? i u = some none then 1 + j.erasedRun k fuel (u + 1) else 0

/-- What the read side can do about its next stripe. -/
inductive StripeStep where
  | wait
  | ask (shard : Nat)
  | fail (lost : List Nat)
  | take (data : List (List Byte)) (lost : List Nat)
deriving DecidableEq, Repr

/-- The next stripe of a READ or DECANT: whole, rebuilt from any K units, or still short of units. -/
def State.stripeStep (s : State) (j : StoreJob) (d : Side) : StripeStep :=
  let u := j.rstripe
  let data := (List.range d.k).map fun i => j.unit? i u
  if data.any (· == none) then .wait else
    let lost := (List.range d.k).filter fun i => j.unit? i u = some none
    let got := (List.range (d.k + d.m)).filterMap fun i => match j.unit? i u with
      | some (some fid) => some (i, (s.frame fid).data)
      | _ => none
    if lost.isEmpty then .take ((got.filter fun x => x.1 < d.k).map (·.2)) []
    else if d.k ≤ got.length then .take (rsRebuild d.k got) lost
    else match ((List.range d.m).map (d.k + ·)).find? fun p => j.unit? p u = none with
      | some p => if j.reading p u then .wait else .ask p
      | none => .fail []

/-- The next stripe of a SWEEP: all its units known. -/
def State.sweepStep (s : State) (j : StoreJob) (d : Side) : StripeStep :=
  let u := j.rstripe
  let all := (List.range (d.k + d.m)).map fun i => j.unit? i u
  if all.any (· == none) then .wait else
    let lost := (List.range (d.k + d.m)).filter fun i => j.unit? i u = some none
    let got := (List.range (d.k + d.m)).filterMap fun i => match j.unit? i u with
      | some (some fid) => some (i, (s.frame fid).data)
      | _ => none
    if d.m < lost.length then .fail lost
    else
      let data := rsRebuild d.k got
      let off := (List.range d.m).filter fun p => match j.unit? (d.k + p) u with
        | some (some fid) => (s.frame fid).data != rsParity p d.u data
        | _ => false
      .take data (lost ++ off.map (d.k + ·))

/-- The unit satchels of the stripe just taken are consumed. -/
def State.consumeStripe (s : State) (c : Nat) (j : StoreJob) (d : Side) : State :=
  let ks := (List.range (d.k + d.m)).map fun i => unitKey i j.rstripe
  let fids := ks.filterMap fun k => (Tab.find j.units k).bind id
  let s := fids.foldl State.discard s
  (s.setJb c { j with units := j.units.filter fun e => !ks.contains e.1 }).ingCount j.isl 7 fids.length

/-- Emit the data units of a stripe as satchels at arrival position 11 (R288); the command's end steps them. -/
def State.emitStripe (s : State) (c : Nat) (j : StoreJob) (d : Side) (bs : List Byte) : State :=
  let fids := (List.range (d.k + d.m)).filterMap fun i => (j.unit? i j.rstripe).bind id
  let src := match fids with
    | [] => 0x108 + d.link 0
    | x :: xs => (s.frame (xs.foldl min x)).gf sfSrc
  let out := s.ctxN c 0x50 4
  (chunks d.k d.u bs).foldl (fun s b =>
    let r := s.attach src j.inst s.ictHalf (217 + j.isl) b
    let s := r.1.modFrame r.2 fun f => ((((f.sf sfDst (fld out 0 10)).sf sfQueue (fld out 10 12)).sf sfFlowClass (fld out 22 10)).sf sfCtx c).sf sfPos 11
    let s := (s.modFrame r.2 fun f => (f.setDone 12).setDone 11).loadSvc r.2
    { s with toStep := s.toStep ++ [r.2] }) s

/-- Discard one stripe's satchels but one, on which ERC_UNRECOVERABLE is raised (R287). -/
def State.raiseStripe (s : State) (c : Nat) (j : StoreJob) (d : Side) : State :=
  let fids := (List.range (d.k + d.m)).filterMap fun i => (j.unit? i j.rstripe).bind id
  match fids with
  | [] => s
  | x :: _ => (s.setJb c { j with units := j.units.filter fun e => e.2 ≠ some x }).raiseExc x 0x17

/-- The read side takes every stripe that it can. -/
def State.takeStripes : Nat → Nat → State → State
  | 0, _, s => s
  | fuel + 1, c, s =>
    match s.job c with
    | none => s
    | some j =>
      let d := s.sideOf c false
      let len := s.jobLen c
      let n := d.units len
      if j.phase ≠ .data then s
      else if n ≤ j.rstripe then
        if j.kind = 4 then s
        else if manifestHead j.obj d.geom 0 |>.take 0x30 |> (· ≠ j.manifest.take 0x30) then s.endJob c 2
        else if j.kind = 5 then s.endJob c (if j.failMask = 0 ∧ j.bad = 0 then 0 else 1)
        else s.writeAdvance c
      else
        match (if j.kind = 5 then s.sweepStep j d else s.stripeStep j d) with
        | .wait => s
        | .ask p => s.shelfCmd c false 4 p j.rstripe (j.erasedRun d.k (min 64 (n - j.rstripe)) j.rstripe) []
        | .fail lost =>
          let j := { j with bad := j.bad + lost.length, badMask := lost.foldl (fun m i => setFld m i 1 1) j.badMask }
          ((s.setJb c j).raiseStripe c j d).endJob c 3
        | .take data lost =>
          let bs := data.flatten.take (len - j.rstripe * d.k * d.u)
          let mask := lost.foldl (fun m i => setFld m i 1 1) j.badMask
          let s := if j.kind = 4 then (s.emitStripe c j d bs).ingCount j.isl 5 bs.length else s
          let s := s.ingCount j.isl 9 ((lost.filter fun i => i < d.k).length)
          let s := s.consumeStripe c j d
          let j := (s.job c).getD j
          let j := { j with obj := j.obj ++ bs, rstripe := j.rstripe + 1, bad := j.bad + lost.length, badMask := mask }
          let s := (s.setJb c j).putOffset c j
          let s := if j.kind = 6 then State.encodeStripes (j.obj.length + 2) c true s else s
          takeStripes fuel c s

/-- The read side goes on. -/
def State.readAdvance (s : State) (c : Nat) : State :=
  match s.job c with
  | none => s
  | some j =>
    if j.phase ≠ .data ∨ j.kind = 3 then s else
      let d := s.sideOf c false
      let shards := if j.kind = 5 then d.k + d.m else d.k
      let s := (List.range shards).foldl (fun s i => State.askUnits 5 c i s) s
      State.takeStripes (d.units (s.jobLen c) + 1) c s

/-- A shard of the read side is erased for the rest of the job. -/
def State.shardErase (s : State) (c i : Nat) : State :=
  match s.job c with
  | none => s
  | some j =>
    let asking := j.phase = .manifest && j.metaShard = i
    let s := s.setJb c { j with erased := setFld j.erased i 1 1, cmds := j.cmds.filter fun x => x.w || x.shard ≠ i, metaShard := if asking then i + 1 else j.metaShard }
    if asking then State.askManifest 21 c s else s.readAdvance c

/-- Units of a command that will not come are erased. -/
def StoreJob.eraseUnits (j : StoreJob) (x : ShelfCmd) : StoreJob :=
  let us := (List.range (x.count - x.got)).map fun n => unitKey x.shard (x.unit + x.got + n)
  { j with cmds := j.cmds.filter (fun y => y.num ≠ x.num), units := us.foldl (fun t k => Tab.put t k none) j.units, badMask := setFld j.badMask x.shard 1 1 }

/-- The manifest that a shard returned is verified, and reading begins (R285). -/
def State.checkManifest (s : State) (c : Nat) : State :=
  match s.job c with
  | none => s
  | some j =>
    let d := s.sideOf c false
    let m := j.manifest
    let s := if j.kind = 6 then s else s.ctxPut c 0xB0 m
    let at_ := s.ctxN c 0x48 4
    let slot := at_ % 2 ^ 18
    let tag := s.manifestTag slot d.objKey (leNat (slice m 0x30 4)) (m.take 0x40)
    let bad := if !bit at_ 31 then none
      else match s.latchCheck slot 5 false false false with
        | some o => some (if o = 3 then 0x0A else 5)
        | none => if tag = slice m 0x40 16 then none else some 5
    match bad with
    | some st => s.endJob c st
    | none =>
      if leNat (slice m 0x28 6) ≠ s.jobLen c ∨ leNat (slice m 0x2E 2) ≠ d.geom then s.endJob c 4
      else (s.setJb c { j with phase := .data }).readAdvance c

/-- A read command that has been answered OK and has all its data is done. -/
def State.readSettle (s : State) (c : Nat) (x : ShelfCmd) : State :=
  match s.job c with
  | none => s
  | some j =>
    let j := { j with cmds := j.cmds.map fun y => if y.num = x.num then x else y }
    let full := x.answered && decide (x.got = if x.op = 5 then 1 else x.count)
    if !full then s.setJb c j
    else
      let s := s.setJb c { j with cmds := j.cmds.filter fun y => y.num ≠ x.num }
      if x.op = 5 then s.checkManifest c else s.readAdvance c

/-- FIX at arrival on an emitted satchel (R288): the digests advance; on the last byte they are compared. -/
def State.fixRead (s : State) (fid : Nat) : State × Bool :=
  let f := s.frame fid
  let c := f.gf sfCtx
  match s.job c with
  | none => (s, true)
  | some j =>
    if j.kind ≠ 4 then (s, true) else
      let n := j.fixed + f.data.length
      let s := s.setJb c { j with fixed := n }
      if n < s.jobLen c then (s, true)
      else if (manifestHead j.obj 0 0).take 0x28 = j.manifest.take 0x28 then (s, true)
      else (s.endJob c 2, false)

/-- READ jobs that have emitted everything end. -/
def State.finishReads (s : State) : State :=
  s.jobs.foldl (fun s e =>
    let done := e.2.kind = 4 && e.2.phase = .data && decide ((s.sideOf e.1 false).units (s.jobLen e.1) ≤ e.2.rstripe)
    if done then s.endJob e.1 (if e.2.failMask = 0 ∧ e.2.bad = 0 then 0 else 1) else s) s

/-! ### Opening and aborting (R274) -/

/-- Is every map entry of a side a shelf link, and are its K and M in range? -/
def State.sideOk (s : State) (d : Side) : Bool :=
  decide (1 ≤ d.k ∧ d.k ≤ 16 ∧ d.m ≤ 4) && (List.range (d.k + d.m)).all fun i => s.isShelf (d.link i)

/-- The CODE that OPEN of context `c` in ingest island `n` ends with. -/
def State.openCode (s : State) (n c : Nat) : Nat :=
  let k := s.ctxKind c
  let hdr := s.ctxN c 0 4
  let e := fld hdr 6 3
  if (s.ctxAddr c).isNone || s.ctxLost c || decide (k < 3) || fld hdr 4 2 = 1 || (s.job c).isSome || decide (e / 4 ≠ n) then 1
  else if !s.sideOk (s.sideAt c 0x18) || (k = 6 && !s.sideOk (s.sideAt c 0x30)) || s.jobLen c = 0 then 3
  else if 128 ≤ (s.jobs.filter fun x => x.2.eng = e).length then 2
  else 0

/-- Is JOB_CMD register `r` the initiator's own: that of its cluster, or the stewards' (R274)? -/
def Initiator.ownsJobCmd (who : Initiator) (r : Nat) : Bool :=
  match who with
  | .thread n => n / 128 = r
  | .steward _ => r = 16
  | _ => false

/-- OPEN. -/
def State.openJob (s : State) (c : Nat) : State :=
  let hdr := s.ctxN c 0 4
  let k := s.ctxKind c
  let inst := fld hdr 10 12
  let before := s.staleWork inst
  let j : StoreJob := { kind := k, eng := fld hdr 6 3, inst := inst, gen := s.ctxN c 4 2, late := s.genStale inst (s.ctxN c 4 2), phase := if k = 3 then .data else .manifest, notify := fld hdr 22 8, cookie := s.ctxN c 0x54 4 }
  let s := (s.ctxPut c 0 (leBytes 4 (setFld hdr 4 2 1))).ctxPut c 0x10 (leBytes 8 0)
  let s := ((s.setJb c j).noteStale inst before).ingCount j.isl 0
  if k = 3 then s else State.askManifest 21 c s

/-- A write of JOB_CMD by register `r` of island `n`. -/
def State.jobCmdWrite (s : State) (n r op c : Nat) : State :=
  let put := fun (s : State) (code : Nat) => s.setRf (Reg.jobResult n r) jobResult_CODE code
  if op = 1 then
    let code := s.openCode n c
    put (if code = 0 then s.openJob c else s) code
  else if op = 2 then
    let mine := match s.job c with
      | some j => decide (j.isl = n)
      | none => false
    if mine then put (s.endJob c 8) 0 else put s 4
  else s

/-! ### SEC operations (R235, R238, R255, R279, R286) -/

/-- The reason that SEC raises on a satchel for a status of R251. -/
def secReason (st : Nat) : Nat :=
  match st with
  | 3 => 0x1A | 4 => 0x1B | 6 => 0x1D | 7 => 0x1E | 9 => 0x1F | 0x0C => 0x1C | _ => 0x19

/-- The job status for one. -/
def secStatus (st : Nat) : Nat := if st = 9 then 0x0A else if st = keyChanged then 0x0B else 0x40 + st

/-- A unit operation has stopped with a status: the satchel of a read takes its reason, and the job ends. -/
def State.unitRefused (s : State) (x : SecOp) (st : Nat) : State :=
  let s := match s.job x.ctx with
    | some j => s.setJb x.ctx { j with ops := j.ops.filter fun o => !(o.w = x.w && o.shard = x.shard && o.unit = x.unit) }
    | none => s
  let s := match x.fid with
    | some fid => if st = keyChanged then s.discard fid else s.raiseExc fid (secReason st)
    | none => s
  s.endJob x.ctx (secStatus st)

/-- A unit operation of a job is done with output `bs` under generation `gen` in island `isl`. -/
def State.unitDone (s : State) (x : SecOp) (isl gen : Nat) (bs : List Byte) : State :=
  let c := x.ctx
  match s.job c with
  | none => s
  | some j =>
    let rest := j.ops.filter fun o => !(o.w = x.w && o.shard = x.shard && o.unit = x.unit)
    if x.w then
      let s := s.setJb c { j with ops := rest, wIsl := isl, ready := j.ready ++ [UnitOp.mk true x.shard x.unit bs none] }
      if rest.any (·.w) then s else ((s.flushReady c).failDownShards c).writeAdvance c
    else
      let s := match x.fid with
        | some fid => s.modFrame fid fun f => ((({ f with data := bs }).setDone 12).sf sfPos 10).sf sfKeyGen gen
        | none => s
      (s.setJb c { j with ops := rest, units := Tab.put j.units (unitKey x.shard x.unit) x.fid }).readAdvance c

/-- The oldest SEC operation of a context that can end: one that has stopped, or runs on its engine with its latch. -/
def State.secReady (s : State) (c : Nat) : Option (CiphJob × SecOp) :=
  s.ciphJobs.findSome? fun j => match j.sec with
    | some x =>
      let ends := match j.fail with
        | some st => j.running || st = 7 || st = 9
        | none => j.running && j.latch.isSome
      if x.ctx = c && ends then some (j, x) else none
    | none => none

/-- SEC_UNIT_OP: that operation ends. For a frame toward one shelf link, answers the frame and the reason it is refused
for, if any. -/
def State.secEnd (s : State) (c : Nat) (eccBad : Bool) : State × Option (Nat × Option Nat) :=
  match s.secReady c with
  | none => (s, none)
  | some (j, x) =>
    let ecc := eccBad && j.fail.isNone
    let s := if ecc then s.ciphCount j.isl 11 else s.jobProgress j x.bytes.length
    let s := { s with ciphJobs := s.ciphJobs.filter fun y => y.id ≠ j.id }
    let bs := match j.latch with
      | some l => xtsUnits x.w l.key l.key2 x.objKey x.shard x.unit x.du x.bytes
      | none => []
    let gen := match j.latch with
      | some l => l.gen
      | none => 0
    match (if ecc then some 0x0C else j.fail), x.single with
    | some st, true => (s, x.fid.map fun fid => (fid, some (secReason st)))
    | none, true =>
      let f := fun (f : Frame) => { f with data := bs ++ f.data.drop bs.length, sec := some ⟨j.slot, j.isl, false⟩ }.sf sfKeyGen gen
      match x.fid with
      | some fid => (s.modFrame fid f, some (fid, none))
      | none => (s, none)
    | some st, false => (s.unitRefused x st, none)
    | none, false =>
      match s.job c with
      | none => (s, none)
      | some b => if s.jobFresh b then (s.unitDone x j.isl gen bs, none) else (s.endJob c 9, none)

/-! ### Responses, timeouts and units (R281, R283 to R287) -/

/-- The command of a job with a number. -/
def StoreJob.cmd? (j : StoreJob) (num : Nat) : Option ShelfCmd := j.cmds.find? fun x => x.num = num

/-- A command has failed for good: a shard of the write side fails; a read command's units are erased, and a shard that
gave no manifest is passed. -/
def State.cmdFail (s : State) (c : Nat) (x : ShelfCmd) : State :=
  match s.job c with
  | none => s
  | some j =>
    if x.w then s.shardFail c x.shard
    else if x.op = 5 then
      State.askManifest 21 c (s.setJb c { j with cmds := j.cmds.filter (fun y => y.num ≠ x.num), metaShard := x.shard + 1, badMask := setFld j.badMask x.shard 1 1 })
    else (s.setJb c (j.eraseUnits x)).readAdvance c

/-- Has a command waited TIMEOUT for its answer (R281, R31)? One that was answered BUSY waits for its retry instead. -/
def State.cmdExpired (s : State) (c : Nat) (x : ShelfCmd) : Bool :=
  let t := s.ctxN c 0x4C 4 % 2 ^ 24
  x.retryAt.isNone && s.elapsed x.sentAt ((if t = 0 then 10000 else t) * 1000)

/-- A command's TIMEOUT has ended: a shard of the write side fails, one of the read side is erased (R281, R287). -/
def State.cmdTimeout (s : State) (c : Nat) (j : StoreJob) (x : ShelfCmd) : State :=
  let s := s.ingCount j.isl 10
  if x.w then s.shardFail c x.shard else s.shardErase c x.shard

/-- A response to command `num` of a job; one that comes when TIMEOUT has ended is discarded (R292). -/
def State.shelfAnswer (s : State) (c num st : Nat) : State :=
  match s.job c with
  | none => s
  | some j =>
    match j.cmd? num with
    | none => s
    | some x =>
      if s.cmdExpired c x then s.cmdTimeout c j x
      else if st = 0 then
        if x.w then
          let closed := if x.op = 3 then setFld j.closed x.shard 1 1 else j.closed
          (s.setJb c { j with cmds := j.cmds.filter (fun y => y.num ≠ num), closed := closed }).writeAdvance c
        else s.readSettle c { x with answered := true }
      else
        let s := s.ingCount j.isl 11
        if st = 7 ∧ x.busy < 8 then
          let y := { x with busy := x.busy + 1, retryAt := some (s.ictNs + 10000) }
          s.setJb c { j with cmds := j.cmds.map fun z => if z.num = num then y else z }
        else s.cmdFail c x

/-- SHELF_RESPONSE: the oldest response reaches its engine. -/
def State.shelfResponse (s : State) : State :=
  match s.shelfResps with
  | [] => s
  | (_, b) :: rest =>
    let jf := leNat (slice b 4 4)
    ({ s with shelfResps := rest }).shelfAnswer (jf % 2 ^ 20) (jf / 2 ^ 20) (byteAt b 0)

/-- SHELF_TIMEOUT: no response, or not all its data, within TIMEOUT. -/
def State.shelfTimeout (s : State) (c num : Nat) : State :=
  match s.job c with
  | none => s
  | some j =>
    match j.cmd? num with
    | none => s
    | some x =>
      if s.cmdExpired c x then s.cmdTimeout c j x else s

/-- SHELF_BUSY_RETRY: a command answered BUSY is sent again after 10 µs. -/
def State.shelfRetry (s : State) (c num : Nat) : State :=
  match s.job c with
  | none => s
  | some j =>
    match j.cmd? num with
    | none => s
    | some x =>
      match x.retryAt with
      | none => s
      | some t =>
        if s.ictNs < t then s
        else if !s.jobFresh j then s.endJob c 9
        else
          let d := s.sideOf c x.w
          let y := { x with retryAt := none, sentAt := s.ictNs, got := 0, answered := false }
          let s := s.setJb c { j with cmds := j.cmds.map fun z => if z.num = num then y else z }
          let s := s.shelfMsg c num d x.op (unitFlags x.op x.data) x.count x.shard x.unit
          x.data.foldl (fun s b => s.shardData c j (d.link x.shard) (s.unitMark c j x.op) b) s

/-- UNIT_ARRIVAL: the oldest message of unit data on a link belongs to command `num` of a job (R286). -/
def State.unitArrival (s : State) (n c num : Nat) : State :=
  match s.unitIn.find? fun x => x.1 = n with
  | none => s
  | some (l, bs) =>
    let s := { s with unitIn := s.unitIn.erase (l, bs) }
    match s.job c with
    | none => s
    | some j =>
      match j.cmd? num with
      | none => s
      | some x =>
        if s.cmdExpired c x then s.cmdTimeout c j x
        else if x.op = 5 then (s.setJb c { j with manifest := slice bs 0 80 }).readSettle c { x with got := 1 }
        else if x.op ≠ 4 ∨ x.count ≤ x.got then s
        else
          let d := s.sideOf c false
          let u := x.unit + x.got
          let ct := slice bs 0 d.u
          let ok := decide (bs.length = d.u + 16) && leNat (slice bs d.u 8) = crc64n ct && !bit (byteAt bs (d.u + 8)) 0
          let y := { x with got := x.got + 1 }
          if ok then
            let r := s.attach (0x108 + n) j.inst s.ictHalf (100 + n) ct
            let s := r.1.modFrame r.2 fun f => ((f.sf sfCtx c).sf sfNextHop num).sf sfPos 9
            let o := UnitOp.mk false x.shard u ct (some r.2)
            ((s.setJb c { j with ops := j.ops ++ [o] }).unitQueue c o).readSettle c y
          else
            ((s.ingCount j.isl 8).setJb c { j with units := Tab.put j.units (unitKey x.shard u) none, badMask := setFld j.badMask x.shard 1 1 }).readSettle c y

/-- A Hamper link is lost: its shards fail or are erased (R281, R287). -/
def State.storeLinkLost (s : State) (n : Nat) : State :=
  s.jobs.foldl (fun s e =>
    let c := e.1
    let w := decide (e.2.kind = 3 ∨ e.2.kind = 6)
    let dw := s.sideOf c true
    let dr := s.sideOf c false
    let s := if w then (List.range (dw.k + dw.m)).foldl (fun s i => if dw.link i = n then s.shardFail c i else s) s else s
    if e.2.kind = 3 then s
    else (List.range (dr.k + dr.m)).foldl (fun s i => if dr.link i = n then s.shardErase c i else s) s) s

end Sys2Proof.Machine
end

