-- ==== Sys2Proof/Machine/Session.lean ====
section
/-! DEFINITION. The session units: NVMe/TCP at arrival and at departure (R262, R263, R265 to R272). -/

namespace Sys2Proof.Machine

/-! ### Connections (R263, R266, R271) -/

/-- The cluster whose session unit serves a context. -/
def stsCluster (c : Nat) : Nat := c / 8192 % 16

/-- Is the context at hand in its session unit? Extension entries must be in the cache. -/
def State.ctxCached (s : State) (cl c : Nat) : Bool := decide (c < 131072) || (Tab.get [] s.ctxCache cl).contains c

/-- The extension entry enters the cache of 256, the oldest leaving. -/
def State.ctxFill (s : State) (cl c : Nat) : State :=
  let q := Tab.get [] s.ctxCache cl
  if c < 131072 ∨ (s.ctxAddr c).isNone ∨ stsCluster c ≠ cl ∨ q.contains c then s
  else { s with ctxCache := Tab.put s.ctxCache cl ((q ++ [c]).drop (q.length + 1 - 256)) }

/-- A bit of the context's HDR. -/
def State.cxBit (s : State) (c b : Nat) : Bool := bit (s.ctxN c 0 4) b
/-- Is the header digest in use? -/
def State.cxHd (s : State) (c : Nat) : Bool := s.cxBit c 4
/-- Is the data digest in use? -/
def State.cxDd (s : State) (c : Nat) : Bool := s.cxBit c 5

/-- The reason that STS raises before it looks at the segment: no connection, or a context in a LOST bank. -/
def State.stsRefuse (s : State) (f : Frame) : Option Nat :=
  let c := f.gf sfCtx
  if (s.ctxAddr c).isNone then some 0x13
  else if s.ctxLost c then some 0x1F
  else
    let hdr := s.ctxN c 0 4
    let i := fld hdr 8 12
    if (s.ctxKind c ≠ 1 ∧ s.ctxKind c ≠ 2) ∨ i ≠ f.gf sfInstance ∨ s.genStale i (s.ctxN c 4 2) then some 0x13 else none

/-- FAST is cleared. -/
def State.clearFast (s : State) (c : Nat) : State := s.ctxPut c 0 (leBytes 4 (setFld (s.ctxN c 0 4) 6 1 0))

/-- The TCP segment of a frame: where its header and its payload begin, and where the payload ends. -/
def tcpSpan (f : Frame) : Option (Nat × Nat × Nat) :=
  let l4 := f.gf sfOffL4
  match ipInfo f.data (f.gf sfOffL3) with
  | none => none
  | some i =>
    if i.bad ∨ i.l4 l4 ≠ some 6 ∨ !i.fits f.data 6 l4 then none
    else some (l4, l4 + 4 * (byteAt f.data (l4 + 12) / 16), i.fin)

/-- Are No-Operation, End of List and Timestamps the only TCP options? -/
def tcpOptsOk : Nat → List Byte → Bool
  | 0, _ => true
  | fuel + 1, o =>
    match o with
    | [] => true
    | k :: _ =>
      if k = 0 then true
      else if k = 1 then tcpOptsOk fuel (o.drop 1)
      else if k = 8 ∧ byteAt o 1 = 10 ∧ 10 ≤ o.length then tcpOptsOk fuel (o.drop 10)
      else false

/-- Does the segment meet the conditions of the fast path (R267)? -/
def State.stsFast (s : State) (c : Nat) (d : List Byte) (l4 pay : Nat) : Bool :=
  let flags := byteAt d (l4 + 13)
  s.cxBit c 6 && decide (beNat (slice d (l4 + 4) 4) = s.ctxN c 8 4) && (flags = 0x10 || flags = 0x18)
    && tcpOptsOk 40 (slice d (l4 + 20) (pay - l4 - 20))

/-! ### PDUs (R268 to R270, R272) -/

/-- The header length of a PDU type, and the role it belongs to (1 target, 2 initiator). -/
def pduKind (ty : Nat) : Option (Nat × Nat) :=
  match ty with
  | 0 => some (128, 1) | 1 => some (128, 2) | 2 => some (24, 1) | 3 => some (24, 2) | 4 => some (72, 1)
  | 5 => some (24, 2) | 6 => some (24, 1) | 7 => some (24, 2) | 9 => some (24, 2) | _ => none

/-- The bytes of the header digest of a type. -/
def pduHd (ty : Nat) (hdgst : Bool) : Nat := if hdgst && (ty = 4 || ty = 5 || ty = 6 || ty = 7 || ty = 9) then 4 else 0

/-- The bytes of the data digest of a type: only capsules and data PDUs bear one. -/
def pduDd (ty : Nat) (ddgst : Bool) : Nat := if ddgst && (ty = 4 || ty = 6 || ty = 7) then 4 else 0

/-- Is a PDU of the type handed whole with its data (R268)? -/
def pduHanded (ty : Nat) : Bool := ty = 2 || ty = 3 || ty = 4

/-- What becomes of a piece of a segment. -/
inductive PieceEnd where
  | go (ctx : Option Nat) (dst queue : Nat)
  | group (g : Nat)
  | raise (reason : Nat)
deriving DecidableEq, Repr

/-- A piece of a segment: its bytes, whether the headers of the frame stand before them, how its offsets move, its end. -/
structure Piece where
  bytes : List Byte
  hdrs : Bool
  dest : PieceEnd
deriving DecidableEq, Repr

/-- Where the session unit stands in a segment: the state, the payload still to take, bytes left of the PDU (digest
included) with the accumulator, the header bytes at hand, what the unit holds of a PDU to be handed whole or the transfer
of the data PDU in progress, the pieces made, and whether the walk has stopped, with the payload handed to SLOW_GROUP. -/
structure StsRun where
  s : State
  buf : List Byte
  left : Nat
  acc : Nat
  hdr : List Byte
  rx : StsRx := {}
  out : List Piece := []
  stop : Bool := false
  slow : Option (List Byte) := none

/-- The register of CRC-32C after a string and its own digest. -/
def crcResidue : Nat := 0xB798B438

/-- The offloaded transfer that carries a command identifier. -/
def State.xferOf (s : State) (c cid : Nat) : Option Nat :=
  (List.range 12).find? fun x =>
    let v := s.ctxN c (0x40 + 16 * x) 16
    fld v 16 2 ≠ 0 && fld v 0 16 = cid

/-- A raise ends the walk: the satchel carries the rest of the segment. -/
def StsRun.fail (r : StsRun) (reason : Nat) : StsRun :=
  { r with out := r.out ++ [⟨r.buf, true, .raise reason⟩], buf := [], left := 0, acc := 0, hdr := [], rx := {}, stop := true }

/-- Where a transfer's data goes. -/
def pieceTo (v : Nat) : PieceEnd :=
  let t := fld v 18 20
  if fld v 16 2 = 1 then .go (some t) 0x10E 0
  else if fld v 16 2 = 2 then .group (t % 256)
  else .go none (0x100 + t % 2) (fld t 1 12)

/-- The end of a PDU with data: its digest, the completion that SUCCESS carries, FAST of a termination. `piece` is the
piece that carries the end. -/
def StsRun.pduEnd (r : StsRun) (c : Nat) (piece : Piece) : StsRun :=
  let ty := byteAt r.hdr 0
  let bad := pduDd ty (r.s.cxDd c) = 4 && r.acc ≠ crcResidue
  let v := r.rx.xfer
  let s := if bad ∧ fld v 16 2 = 1 then r.s.endJob (fld v 18 20) 0x0C else r.s
  let out := if bad then r.out ++ [{ piece with hdrs := piece.hdrs || piece.bytes.isEmpty, dest := .raise 0x15 }]
    else if piece.bytes.isEmpty then r.out else r.out ++ [piece]
  let out := if !bad ∧ ty = 7 ∧ bit (byteAt r.hdr 1) 3 then out ++ [⟨r.hdr, true, .group (s.ctxN c 6 1)⟩] else out
  let r := { r with s := s, out := out, hdr := [], acc := 0, left := 0, rx := {} }
  if ty = 2 ∨ ty = 3 then { r with s := s.clearFast c, stop := true, slow := if r.buf.isEmpty then none else some r.buf } else r

/-- Data bytes of the current PDU (R268 to R270): as many as the segment brings. A PDU that is handed whole waits in the
unit for its end; one too long for a frame cannot be. A transfer whose REMAIN has reached 0 is over. -/
def StsRun.data (r : StsRun) (c : Nat) : StsRun :=
  let ty := byteAt r.hdr 0
  let dd := pduDd ty (r.s.cxDd c)
  let n := min r.left r.buf.length
  let k := min n (r.left - dd)
  let body := r.buf.take k
  let acc := crcUpdate polyCrc32c r.acc (r.buf.take n)
  let r1 := { r with buf := r.buf.drop n, left := r.left - n, acc := acc }
  let fin := r1.left = 0
  if pduHanded ty then
    let whole := r.rx.whole ++ body
    let r1 := { r1 with rx := { r.rx with whole := whole } }
    if fin then r1.pduEnd c ⟨whole, true, .group (r.s.ctxN c 6 1)⟩ else r1
  else if body.isEmpty then (if fin then r1.pduEnd c ⟨[], false, .raise 0⟩ else r1)
  else
    let cid := leNat (slice r.hdr 8 2)
    match r.s.xferOf c cid with
    | none => r.fail 0x14
    | some x =>
      let v := r.s.ctxN c (0x40 + 16 * x) 16
      let t := min k (fld v 72 32)
      let v' := setFld (setFld v 40 32 (fld v 40 32 + t)) 72 32 (fld v 72 32 - t)
      let v' := if fld v 72 32 = t then setFld v' 16 2 0 else v'
      let s := r.s.ctxPut c (0x40 + 16 * x) (leBytes 16 v')
      let p : Piece := ⟨body.take t, fld v 16 2 ≠ 1, pieceTo v⟩
      if t < k then
        let out := if t = 0 then r.out else r.out ++ [p]
        StsRun.fail { r with s := s, out := out, buf := r.buf.drop t } 0x14
      else
        let r1 := { r1 with s := s }
        if fin then r1.pduEnd c p else { r1 with out := r1.out ++ [p] }

/-- The header of a PDU is at hand with its digest: it is checked, and handled by its type (R268, R269). `raw` are the
bytes of the PDU's header and digest. -/
def StsRun.header (r : StsRun) (c : Nat) (raw rest : List Byte) : StsRun :=
  let ty := byteAt raw 0
  let hlen := byteAt raw 2
  let plen := leNat (slice raw 4 4)
  let hd := pduHd ty (r.s.cxHd c)
  let dd := pduDd ty (r.s.cxDd c)
  let g := r.s.ctxN c 6 1
  let digest := decide (hd = 4) && leNat (slice raw hlen 4) ≠ crcUpdate polyCrc32c 0xFFFFFFFF (raw.take hlen) ^^^ 0xFFFFFFFF
  let bears := decide (hlen + hd < plen) && (ty = 4 || ty = 6 || ty = 7)
  if digest then r.fail 0x15
  else if byteAt raw 3 ≠ (if bears then hlen + hd else 0) then r.fail 0x14
  else if ty = 6 ∨ ty = 7 then
    let len := leNat (slice raw 16 4)
    match r.s.xferOf c (leNat (slice raw 8 2)) with
    | none => r.fail 0x14
    | some x =>
      let v := r.s.ctxN c (0x40 + 16 * x) 16
      if plen ≠ hlen + hd + len + (if len = 0 then 0 else dd) ∨ fld v 40 32 ≠ leNat (slice raw 12 4) then r.fail 0x14
      else
        let r := { r with buf := rest, hdr := raw, rx := { xfer := v }, acc := 0xFFFFFFFF, left := plen - hlen - hd }
        if r.left = 0 then
          let r := if ty = 7 ∧ bit (byteAt raw 1) 3 then { r with out := r.out ++ [⟨raw, true, .group g⟩] } else r
          { r with hdr := [], rx := {}, acc := 0 }
        else r
  else if pduHanded ty ∧ hlen + hd < plen then
    let n := plen - hlen - hd
    if n ≤ dd ∧ ty = 4 then r.fail 0x14 else
      { r with buf := rest, hdr := raw, rx := { whole := raw }, acc := 0xFFFFFFFF, left := n }
  else { r with buf := rest, hdr := raw, acc := crcResidue }.pduEnd c ⟨raw, true, .group g⟩

/-- The next step of the walk through a segment: data of the PDU in progress, or the next header (R272). -/
def StsRun.next (r : StsRun) (c : Nat) : StsRun :=
  if r.left ≠ 0 then r.data c else
    let all := r.hdr ++ r.buf
    if all.length < 8 then { r with hdr := all, buf := [] } else
      let ty := byteAt all 0
      match pduKind ty with
      | none => r.fail 0x14
      | some (hlen, role) =>
        let t := hlen + pduHd ty (r.s.cxHd c)
        if role ≠ r.s.ctxKind c ∨ byteAt all 2 ≠ hlen ∨ leNat (slice all 4 4) < t then r.fail 0x14
        else if t ≤ 32 then
          if all.length < t then { r with hdr := all, buf := [] } else r.header c (all.take t) (all.drop t)
        else if r.hdr.isEmpty ∧ t ≤ r.buf.length then r.header c (all.take t) (all.drop t)
        else { r with s := r.s.clearFast c, slow := some r.buf, stop := true }

/-- The walk through a segment's payload. -/
def StsRun.walk : Nat → Nat → StsRun → StsRun
  | 0, _, r => r
  | fuel + 1, c, r => if r.stop || r.buf.isEmpty then r else walk fuel c (r.next c)

/-- A piece takes its satchel: the frame with the piece's bytes, its offsets adjusted, and its end. Answers the satchels
that go on. A PDU too long for one frame raises LEN_OVERFLOW. -/
def State.stsPiece (s : State) (fid : Nat) (g : Frame) (pay : Nat) (p : Piece) : State × List Nat :=
  let long := decide (65535 < pay + p.bytes.length) && p.hdrs
  let f := if long then g else if p.hdrs then g.setData (g.data.take pay ++ p.bytes) else (g.setData p.bytes).moveOffs (-(pay : Int))
  let s := s.setFrame fid f
  match if long then .raise 0x20 else p.dest with
  | .go ctx dst q =>
    let s := s.modFrame fid fun f =>
      let f := match ctx with
        | some c => f.sf sfCtx c
        | none => f.sf sfQueue q
      ((f.sf sfDst dst).setDone 9).sf sfPos 9
    (s, [fid])
  | .group g => (s.toGroup g fid, [])
  | .raise r => (s.raiseExc fid r, [])

/-- The satchel goes to SLOW_GROUP and is counted (R267). -/
def State.stsSlow (s : State) (c fid : Nat) : State :=
  (s.count (ctlAddr (0x42 + stsCluster c) 0x500)).toGroup (fld (s.ctxN c 0 4) 20 8) fid

/-- The hardware fields of the connection after a segment. -/
def State.stsStore (s : State) (c rcv : Nat) (r : StsRun) : State :=
  let st := if r.left ≠ 0 then r.left % 2 ^ 32 + 2 ^ 32 * r.acc else 2 ^ 32 * r.hdr.length
  let s := { s with stsRx := Tab.set {} s.stsRx c r.rx }
  ((s.ctxPut c 8 (leBytes 4 rcv)).ctxPut c 0x14 (leBytes 8 st)).ctxPut c 0x20 (slice r.hdr 0 32)

/-- STS at arrival on one frame: the satchels that go on from position 9. -/
def State.stsArrive (s : State) (fid : Nat) : State × List Nat :=
  let f := s.frame fid
  let c := f.gf sfCtx
  match s.stsRefuse f with
  | some r => (s.raiseExc fid r, [])
  | none =>
    match tcpSpan f with
    | none => (s.stsSlow c fid, [])
    | some (l4, pay, fin) =>
      if !s.stsFast c f.data l4 pay then (s.stsSlow c fid, []) else
        let body := slice f.data pay (fin - pay)
        let seq := beNat (slice f.data (l4 + 4) 4)
        let ack := beNat (slice f.data (l4 + 8) 4)
        let una := s.ctxN c 0x10 4
        let up := (ack + 2 ^ 32 - una) % 2 ^ 32
        let lim := (s.ctxN c 0xC 4 + 2 ^ 32 - una) % 2 ^ 32
        let s := if 0 < up ∧ up ≤ lim then s.ctxPut c 0x10 (leBytes 4 ack) else s
        let st := s.ctxN c 0x14 8
        let left := st % 2 ^ 32
        let hdr := slice (leBytes 32 (s.ctxN c 0x20 32)) 0 (if left ≠ 0 then 32 else min 32 (st / 2 ^ 32))
        let r := StsRun.walk (body.length + 2) c { s := s, buf := body, left := left, acc := st / 2 ^ 32, hdr := hdr, rx := Tab.get {} s.stsRx c }
        let rest := r.slow.getD []
        let s := r.s.stsStore c (seq + (body.length - rest.length)) r
        let ps := r.out
        let g := f
        let step := fun (acc : State × List Nat × Bool) (p : Piece) =>
          let mk := if acc.2.2 then acc.1.newFrame g else (acc.1, fid)
          let x := mk.1.stsPiece mk.2 g pay p
          (x.1, acc.2.1 ++ x.2, true)
        let a := ps.foldl step (s, [], false)
        match r.slow with
        | some b =>
          let mk := if a.2.2 then a.1.newFrame g else (a.1, fid)
          ((mk.1.setFrame mk.2 (g.setData (g.data.take pay ++ b))).stsSlow c mk.2, a.2.1)
        | none => if a.2.2 then (a.1, a.2.1) else (a.1.discard fid, [])

/-! ### Departure (R271) -/

/-- The payload of a departing frame with its digests: bytes out, data bytes left of the PDU in progress, accumulator, and
whether that PDU bears a data digest. -/
def stsBuild (hdgst ddgst : Bool) : Nat → List Byte → Nat → Nat → Bool → List Byte × Nat × Nat × Bool
  | 0, bs, left, acc, dd => (bs, left, acc, dd)
  | fuel + 1, bs, left, acc, dd =>
    if bs.isEmpty then ([], left, acc, dd)
    else if left ≠ 0 then
      let n := min left bs.length
      let acc := crcUpdate polyCrc32c acc (bs.take n)
      let dig := if n = left ∧ dd then leBytes 4 (acc ^^^ 0xFFFFFFFF) else []
      let r := stsBuild hdgst ddgst fuel (bs.drop n) (left - n) acc dd
      (bs.take n ++ dig ++ r.1, r.2)
    else
      let hlen := byteAt bs 2
      let hd := pduHd (byteAt bs 0) hdgst
      if bs.length < hlen + hd ∨ hlen < 8 then (bs, 0, 0, false) else
        let dig := slice bs hlen hd
        let dig := if hd = 4 ∧ leNat dig = 0 then leBytes 4 (crcUpdate polyCrc32c 0xFFFFFFFF (bs.take hlen) ^^^ 0xFFFFFFFF) else dig
        let dd := pduDd (byteAt bs 0) ddgst
        let data := leNat (slice bs 4 4) - hlen - hd
        let data := if data = 0 then 0 else data - dd
        let r := stsBuild hdgst ddgst fuel (bs.drop (hlen + hd)) data 0xFFFFFFFF (dd = 4)
        (bs.take hlen ++ dig ++ r.1, r.2)

/-- The IP header with its length field grown by `n` bytes. -/
def ipGrow (d : List Byte) (l3 n : Nat) : List Byte :=
  if byteAt d l3 / 16 = 4 then splice d (l3 + 2) (beBytes 2 (be16At d (l3 + 2) + n)) else splice d (l3 + 4) (beBytes 2 (be16At d (l3 + 4) + n))

/-- STS at departure on one frame: the reason raised, if any. -/
def State.stsDepart (s : State) (fid : Nat) : State × Option Nat :=
  let f := s.frame fid
  let c := f.gf sfCtx
  match s.stsRefuse f with
  | some r => (s, some r)
  | none =>
    match tcpSpan f with
    | none => (s, none)
    | some (l4, pay, fin) =>
      let body := slice f.data pay (fin - pay)
      let tx := Tab.get (0, 0, false) s.stsTx c
      let r := stsBuild (s.cxHd c) (s.cxDd c) (body.length + 2) body tx.1 tx.2.1 tx.2.2
      let grow := r.1.length - body.length
      if 65535 < f.len + grow then (s, some 0x20) else
        let nxt := s.ctxN c 0xC 4
        let d := splice f.data (l4 + 4) (beBytes 4 nxt)
        let d := ipGrow (d.take pay ++ r.1 ++ d.drop fin) (f.gf sfOffL3) grow
        let s := (s.setFrame fid (f.setData d)).ctxPut c 0xC (leBytes 4 (nxt + r.1.length))
        ({ s with stsTx := Tab.set (0, 0, false) s.stsTx c (if r.2.1 = 0 then (0, 0, false) else r.2) }, none)

/-- CONTEXT_FETCH_COMPLETE: an extension entry enters its session unit's cache. -/
def execContextFetchComplete (cl : Fin 16) (ctx : BitVec 20) (s : State) : Out :=
  if s.stopped then .next s else
  .next (s.ctxFill cl.val ctx.toNat)

end Sys2Proof.Machine
end

