-- ==== Sys2Proof/Machine/Stepping.lean ====
section
/-! DEFINITION. The stepping procedure: arrival and departure positions, the turn, entry to the fabric and the bulk
paths, release by DISP.CONT, and what the end of a command settles (R48 to R53, R56, R58, R157, R164 to R167, R180,
R184, R185, R338, R384). -/

namespace Sys2Proof.Machine

/-! ### Where a satchel goes on from -/

/-- What stepping is told by who hands the satchel on: the side endpoint, or none for a port lane; g12 to g14 of the
pass that has ended, and the profile that its g15 names (R165, R184). -/
structure StepCtx where
  via : Option Nat
  g12 : Nat := 0
  g13 : Nat := 0
  g14 : Nat := 0
  next : Option Nat := none

/-- The context of a satchel that a side endpoint hands on. -/
def StepCtx.side (e : Nat) : StepCtx := { via := some e }

/-- The input link of a satchel under a context. -/
def StepCtx.input (x : StepCtx) (f : Frame) : Nat := inputLink (x.via.getD (f.gf sfSrc)) (f.gf sfHash)

/-- A lane: `2 p + l` for lane l of pipeline p; ingress lanes are numbered by port, egress lanes from 32 on. -/
def State.lane (s : State) (n : Nat) : Lane := Tab.get {} s.lanes n
/-- Replace a lane. -/
def State.setLane (s : State) (n : Nat) (l : Lane) : State := { s with lanes := Tab.put s.lanes n l }

/-- A frame is on its way back to its lane (R157). -/
def State.returnTo (s : State) (port fid : Nat) (next : Option Nat) : State :=
  let l := s.lane port
  s.setLane port { l with returning := l.returning ++ [⟨fid, next⟩] }

/-- The ingest island of the engine that a satchel's CTX names: that of its job, else of the context's ENGINE. -/
def State.ingIslandOf (s : State) (c : Nat) : Nat :=
  match s.job c with
  | some j => j.isl
  | none => fld (s.ctxN c 0 4) 6 3 / 4

/-- The island whose policer bank meters a satchel (R226). -/
def polIslandOf (src : Nat) : Nat :=
  if epIsPort src then 0x21 + src / 16 else if epIsHost src then 0x61 + (src - 0x100)
  else if epIsHamper src then 0x63 + (src - 0x108) else 0x41

/-- Is the endpoint a shelf link (R40)? -/
def State.epShelf (s : State) (e : Nat) : Bool := epIsHamper e && s.isShelf (e - 0x108)

/-! ### Entry to the fabric and the bulk paths (R185) -/

/-- A satchel for a cluster or the steward meets the tests of R185 in order. -/
def State.enterGroup (s : State) (fid : Nat) : State :=
  let f := s.frame fid
  let dst := f.gf sfDst
  let g := f.gf sfQueue % 256
  match s.fence f with
  | some r => (s.countExc r).discard fid
  | none =>
    if epIsCluster dst && s.rf (Reg.wgroup g) wgroup_CLUSTER ≠ dst - 0x110 then (s.fabCount 16).discard fid
    else s.toGroup g fid

/-- A satchel waits at the ingest island that serves it. -/
def State.enterIngest (s : State) (n fid : Nat) : State :=
  { s with ingIn := Tab.set [] s.ingIn n (Tab.get [] s.ingIn n ++ [fid]) }

/-- The fabric entry stage takes a satchel in the departure phase toward DST. -/
def State.enterFabric (s : State) (x : StepCtx) (fid : Nat) : State :=
  let f := s.frame fid
  let dst := f.gf sfDst
  if dst = epShelfSet then s.enterIngest (s.ingIslandOf (f.gf sfCtx)) fid
  else if epIsIngest dst then s.enterIngest (dst - 0x121) fid
  else if epIsCluster dst || dst = epSteward then s.enterGroup fid
  else match x.via with
    | none => s.portEntry fid
    | some e => s.sideEntry fid (x.input f) e

/-- The turn (R50): NO_DEST, or the departure phase begins. -/
def State.turn (s : State) (x : StepCtx) (fid : Nat) : State :=
  let dst := (s.frame fid).gf sfDst
  if dst = 0x3FF ∨ epReserved dst then s.raiseExc fid 0x05
  else (s.modFrame fid fun f => ((f.sf sfPhase 1).sf sfPos 0).sf sfDone 0).enterFabric x fid

/-! ### One position -/

/-- What a service that is due comes to: a counted no-op, performed, an exception, or the satchel has left stepping. -/
inductive Acted where
  | skip
  | did (s : State)
  | raise (s : State) (code : Nat)
  | gone (s : State)

/-- A cipher service: fail-closed goes before truncation (R53). -/
def State.cryptoBar (s : State) (f : Frame) : Option Nat :=
  if s.failClosed then some 0x1E else if f.gf sfTrunc = 1 then some 0x07 else none

/-- A whole-frame service on a truncated frame raises TRUNCATED (R53). -/
def Frame.truncBar (f : Frame) : Option Nat := if f.gf sfTrunc = 1 then some 0x07 else none

/-- Act unless a bar stands. -/
def State.unless (s : State) (bar : Option Nat) (go : Acted) : Acted :=
  match bar with
  | some c => .raise s c
  | none => go

/-- Does the satchel's lookup result come from the pass registers? -/
def StepCtx.fromPass (x : StepCtx) (f : Frame) : Bool := epIsPort (f.gf sfSrc) && x.via.isNone

/-- ROUTER_MAC (R165, R338, R384). -/
def StepCtx.routerMac (x : StepCtx) (f : Frame) : Bool := x.fromPass f && bit x.g12 39

/-- BRG at arrival (R53, R166). -/
def State.arriveBrg (s : State) (x : StepCtx) (fid : Nat) : Acted :=
  let f := s.frame fid
  if x.routerMac f then (if bit (f.gf sfSvc) 6 then .skip else .raise s 0x08)
  else .did (if x.fromPass f && bit x.g12 0 then s.setFrame fid (f.takeRoute x.g12) else s)

/-- RTE at arrival (R53, R166). -/
def State.arriveRte (s : State) (x : StepCtx) (fid : Nat) : Acted :=
  let f := s.frame fid
  let valid := if x.fromPass f then bit x.g13 0 else decide (f.gf sfDst ≠ 0x3FF)
  if bit (f.gf sfSvc) 5 && !x.routerMac f then .skip
  else if f.ipVersion = 0 then .raise s 0x02
  else if (f.data.getD f.ttlAt 0).toNat ≤ 1 then .raise s 0x0A
  else if !valid then .raise s 0x09
  else .did (if x.fromPass f then s.setFrame fid (f.takeRoute x.g13) else s)

/-- TUN at arrival: the frame goes back for another pass (R157, R166). -/
def State.arriveTun (s : State) (x : StepCtx) (fid : Nat) : Acted :=
  let f := s.frame fid
  let port := f.gf sfSrc / 8
  match s.decap (some (port / 2)) x.g14 f with
  | .error (c, s) => .raise s c
  | .ok (s, f) => .gone ((s.setFrame fid ((f.setDone 2).sf sfPos 3)).returnTo port fid x.next)

/-- SEG at arrival records its results in NEXTHOP unless DST is a port (R345). -/
def State.arriveSeg (s : State) (fid : Nat) : State :=
  let f := s.frame fid
  let r := segCheck f.data (f.gf sfOffL3) (f.gf sfOffL4)
  if epIsPort (f.gf sfDst) then s else s.setFrame fid (f.sf sfNextHop (0xFFF0 + 4 * r.2 + r.1))

/-- Service `b`, due at its arrival position. -/
def State.arriveAct (s : State) (x : StepCtx) (fid b : Nat) : Acted :=
  let f := s.frame fid
  let src := f.gf sfSrc
  let port := epIsPort src
  match b with
  | 0 | 1 => if !port then .skip else
      s.unless (s.cryptoBar f)
        (.gone { s with ciphIn := Tab.set [] s.ciphIn (src / 32) (Tab.get [] s.ciphIn (src / 32) ++ [⟨fid, x.next⟩]) })
  | 2 => if port then s.arriveTun x fid else .skip
  | 3 => if f.gf sfK = 1 then .skip else
      let r := s.police (polIslandOf src) fid
      if r.2 then .gone r.1 else .did r.1
  | 7 => .did (s.observe fid (x.input f))
  | 5 => s.arriveBrg x fid
  | 6 => s.arriveRte x fid
  | 8 => if port then s.unless f.truncBar (.did (s.arriveSeg fid)) else .skip
  | 9 => if !port then .skip else
      let cl := stsCluster (f.gf sfCtx)
      s.unless f.truncBar (.gone { s with stsIn := Tab.set [] s.stsIn cl (Tab.get [] s.stsIn cl ++ [fid]) })
  | 12 => if s.epShelf src then s.unless (s.cryptoBar f) (.did s) else .skip
  | 11 => if s.epShelf src then s.unless f.truncBar (.did s) else .skip
  | 10 => if s.epShelf src then
      s.unless f.truncBar (if s.ctxLost (f.gf sfCtx) then .raise s 0x1F else
        let r := s.fixRead fid; if r.2 then .did r.1 else .raise r.1 0x16)
      else .skip
  | _ => .skip

/-- The input at which a departure-phase mirror copy enters: that of the output or endpoint that makes it (R184). -/
def departInput (f : Frame) : Nat :=
  let d := f.gf sfDst
  if epIsPort d || epIsHost d || epIsHamper d then outputLink d (f.gf sfHash) else inputLink d (f.gf sfHash)

/-- Service `b`, due at its departure position. -/
def State.departAct (s : State) (fid b : Nat) : Acted :=
  let f := s.frame fid
  let dst := f.gf sfDst
  let port := epIsPort dst
  let shelf := s.epShelf dst || dst = epShelfSet
  match b with
  | 4 => if epIsCluster dst || dst = epSteward then .skip else .did s
  | 6 => if port then .did (s.modFrame fid Frame.decTtl) else .skip
  | 5 => if port then .did s else .skip
  | 10 => if !shelf then .skip else
      s.unless f.truncBar (if s.ctxLost (f.gf sfCtx) then .raise s 0x1F else match s.fixWrite fid with
        | some s => .did s
        | none => .raise s 0x18)
  | 11 => if dst ≠ epShelfSet then .skip else
      s.unless f.truncBar (if s.ctxLost (f.gf sfCtx) then .raise s 0x1F
        else if s.ercBad f then .raise s 0x18 else .did (s.ercWrite fid))
  | 12 => if !shelf then .skip else
      s.unless (s.cryptoBar f) (if dst = epShelfSet then .did s
        else if s.ctxLost (f.gf sfCtx) then .raise s 0x1F else .gone (s.secSingle fid))
  | 9 => if !port then .skip else
      let cl := stsCluster (f.gf sfCtx)
      s.unless f.truncBar (.gone { s with stsOut := Tab.set [] s.stsOut cl (Tab.get [] s.stsOut cl ++ [fid]) })
  | 8 => if !port then .skip else
      s.unless f.truncBar (match segInsert f.data (f.gf sfOffL3) (f.gf sfOffL4) with
        | some d => .did (s.setFrame fid (f.setData d))
        | none => .raise s 0x12)
  | 7 => .did (s.observe fid (departInput f))
  | 2 => if !port then .skip else
      match s.encap f with
      | .ok f => .did (s.setFrame fid f)
      | .error c => .raise s c
  | 0 | 1 => if !port then .skip else
      s.unless (s.cryptoBar f)
        (.gone { s with ciphOut := Tab.set [] s.ciphOut (dst / 32) (Tab.get [] s.ciphOut (dst / 32) ++ [fid]) })
  | 13 => if epIsHost dst then .gone ((s.modFrame fid fun f => f.setDone 13).hdl fid (f.gf sfInstance) (f.gf sfQueue)) else .skip
  | _ => .skip

/-! ### The loop (R50) -/

/-- POS advances by one; with `b`, after service `b` has been performed. -/
def State.advance (s : State) (fid : Nat) (b : Option Nat) : State :=
  s.modFrame fid fun f =>
    let f := match b with
      | some b => f.setDone b
      | none => f
    f.sf sfPos (f.gf sfPos + 1)

/-- The arrival phase from POS. `fuel` exceeds the 15 positions. -/
def State.arriveLoop : Nat → StepCtx → Nat → State → State
  | 0, _, _, s => s
  | fuel + 1, x, fid, s =>
    let f := s.frame fid
    let p := f.gf sfPos
    if 14 ≤ p then s.turn x fid else
      let b := orderOf 0 p
      if !f.wants b then arriveLoop fuel x fid (s.advance fid none) else
        match s.arriveAct x fid b with
        | .skip => arriveLoop fuel x fid ((s.noop 0 b).advance fid none)
        | .did s => arriveLoop fuel x fid (s.advance fid (some b))
        | .raise s c => s.raiseExc fid c
        | .gone s => s

/-- The satchel is removed at DST (R35, R50, R185); a port sends it from the sub-port that scheduled it (R211). -/
def State.removeAt (s : State) (fid : Nat) : State :=
  let dst := (s.frame fid).gf sfDst
  if epIsPort dst then
    let k := (s.frame fid).sub.getD (dst % 8)
    let m := s.mac (dst / 8) k
    s.setMac (dst / 8) k { m with waiting := m.waiting ++ [fid] }
  else if epIsHamper dst then s.hlSendFrame (dst - 0x108) fid
  else if epIsCluster dst || dst = epSteward then (s.fabCount 17).discard fid
  else s.discard fid

/-- The departure phase from POS, once the scheduler or the endpoint has the frame. -/
def State.departLoop : Nat → Nat → State → State
  | 0, _, s => s
  | fuel + 1, fid, s =>
    let f := s.frame fid
    let p := f.gf sfPos
    if 14 ≤ p then s.removeAt fid
    else if p = 12 ∧ epIsHost (f.gf sfDst) ∧ !bit (f.gf sfSvc) 13 then s.raiseExc fid 0x06
    else
      let b := orderOf 1 p
      if !f.wants b then departLoop fuel fid (s.advance fid none) else
        match s.departAct fid b with
        | .skip => departLoop fuel fid ((s.noop 1 b).advance fid none)
        | .did s => departLoop fuel fid (s.advance fid (some b))
        | .raise s c => s.raiseExc fid c
        | .gone s => s

/-- Step a satchel in the arrival phase. -/
def State.arrive (s : State) (x : StepCtx) (fid : Nat) : State := s.arriveLoop 16 x fid
/-- Step a satchel in the departure phase. -/
def State.depart (s : State) (fid : Nat) : State := s.departLoop 16 fid

/-! ### Resuming and releasing (R56, R157, R180, R185) -/

/-- A satchel goes on at POS from the endpoint `e`: back to its lane, through the arrival phase, into the fabric again,
or through the departure steps of a cluster or the steward. The spec names only DISP.CONT by a worker as the way back to the
lane (R157): a port satchel in the arrival phase below position 8 that a steward releases, or that firmware resumes by
clearing EXC (R56), takes it too, with the profile of its sub-port (DESIGN CHOICE, log entry 135). A satchel whose generation
has passed enters no recirculation queue (R39, R182). -/
def State.goOn (s : State) (e fid : Nat) : State :=
  let f := s.frame fid
  let src := f.gf sfSrc
  let dst := f.gf sfDst
  if f.gf sfPhase = 0 then
    if epIsPort src ∧ f.gf sfPos < 8 then
      match s.fence f with
      | some r => (s.countExc r).discard fid
      | none => s.returnTo (src / 8) fid none
    else s.arrive (.side e) fid
  else if dst = 0x3FF ∨ epReserved dst then s.raiseExc fid 0x05
  else if epIsCluster dst || dst = epSteward then s.depart fid
  else s.enterFabric (.side e) fid

/-- Satchels of a window that nothing holds back go on (R180). -/
def State.runWindow (s : State) (n : Nat) : State :=
  let r := s.takeReleased n
  r.2.foldl (fun s x => s.goOn x.2 x.1) r.1

/-- A satchel is released by DISP.CONT, or by clearing EXC, at endpoint `e`: held back by its window, or on at once. -/
def State.release (s : State) (e fid : Nat) : State :=
  let s := match s.slotOf fid with
    | some n => s.passOverDue n
    | none => s
  match s.slotOf fid with
  | some n => (s.markReleased n fid e).runWindow n
  | none =>
    match s.lateOf fid with
    | some n => ((s.releaseSlot fid).pipeCount n 7).goOn e fid
    | none => s.goOn e fid

/-- DISP.CONT: with EXC set, the release counts as an exception on a satchel whose EXC is already 1 (R58, R90); a satchel
whose instance was reset is discarded before any queue, and its slot released (R39, R182). -/
def State.dispContinue (s : State) (e fid : Nat) : State :=
  if (s.frame fid).gf sfExc = 1 then (s.count Reg.excDouble).discard fid
  else match s.fence (s.frame fid) with
    | some r => (s.countExc r).discard fid
    | none => s.release e fid

/-! ### What the end of a command settles -/

/-- Satchels that storage has emitted are stepped from position 11 (R288). -/
def State.drainEmitted : Nat → State → State
  | 0, s => s
  | fuel + 1, s =>
    match s.toStep with
    | [] => s
    | fid :: rest =>
      drainEmitted fuel (({ s with toStep := rest }).arrive (.side (0x121 + s.ingIslandOf ((s.frame fid).gf sfCtx))) fid)

/-- Windows whose oldest slots have been released, emitted satchels, READ jobs that are done, and mirror copies. -/
def State.settle (s : State) : State :=
  let s := s.reorder.foldl (fun s e => s.runWindow e.1) s
  (s.drainEmitted (s.toStep.length + 1)).finishReads.settleCopies

/-- The end of a command that may have stepped satchels. -/
def done (s : State) : Out := .next s.settle

/-- REORDER_PASS_OVER: the oldest unreleased slots that have waited WAIT are passed over, and what they held back goes
on (R180). -/
def execReorderPassOver (pipe : Fin 16) (s : State) : Out :=
  if s.stopped then .next s else
  done (s.passOverDue pipe.val)

end Sys2Proof.Machine
end

