-- ==== Sys2Proof/Machine/Stages.lean ====
section
/-! DEFINITION. Results of the computing instructions, satchel and frame-window access, and the stage profile: the
programs that a pass runs (R64 to R76, R82 to R84, R98 to R102, R160 to R163). -/

namespace Sys2Proof.Machine

/-! ### Results (R66 to R70, R84) -/

/-- CMP and CMPI write pd under the mode, and pe its negation (R69). -/
def cmpResult (r : Regs) (pd : BitVec 3) (mode : BitVec 2) (pe : BitVec 3) (c : Bool) : Pure :=
  let v := cmpMode mode.toNat (r.pred pd) c
  .ok [] ((pd, v) :: (if pe = 0 then [] else [(pe, !v)]))

/-- The writes of an instruction that only computes. -/
def pureVal (a : Afv) (r : Regs) : Pure :=
  match a with
  | .alu op rd ra rb => if op.unary && rb ≠ 0 then .bad else .ok [(rd, aluVal op (r.get ra) (r.get rb))] []
  | .mul op rd ra rb => .ok [(rd, mulVal op (r.get ra) (r.get rb))] []
  | .cmp pd mode cond pe ra rb =>
    match condVal cond.toNat (r.get ra) (r.get rb) with
    | some c => cmpResult r pd mode pe c
    | none => .bad
  | .pred op pd pa pb => if op = .not ∧ pb ≠ 0 then .bad else .ok [] [(pd, predVal op (r.pred pa) (r.pred pb))]
  | .help op rd ra rb => .ok [(rd, helpVal op (r.get ra) (r.get rb))] []
  | .imm op rd ra i => .ok [(rd, immVal op (r.get ra) i)] []
  | .shift op rd ra hi amt => if hi = 0 then .ok [(rd, shiftVal op (r.get ra) amt.toNat)] [] else .bad
  | .ext rd ra i =>
    match extVal (r.get ra) i with
    | some v => .ok [(rd, v)] []
    | none => .bad
  | .ins rd ra i =>
    match insVal (r.get rd) (r.get ra) i with
    | some v => .ok [(rd, v)] []
    | none => .bad
  | .cmpi cc pd mode ra i =>
    match condVal cc.code (r.get ra) (cc.extend i) with
    | some c => cmpResult r pd mode 0 c
    | none => .bad
  | _ => .no

/-- Apply register and predicate writes in order. -/
def Regs.writes (r : Regs) (g : List (BitVec 5 × W64)) (p : List (BitVec 3 × Bool)) : Regs :=
  p.foldl (fun r x => r.setPred x.1 x.2) (g.foldl (fun r x => r.set x.1 x.2) r)

/-! ### Satchel access (R37, R38, R56, R71, R72) -/

/-- The bits of a satchel word that software writes; K only where `k` allows it. DONE and EXC have rules of their own. -/
def satMask (n : Nat) (k : Bool) : Nat :=
  [0xC0000FFF + (if k then 0x20000000 else 0), 0xFFFFFF00, 0, 0x0FFC00FF, 0x3FFFF, 0, 0, 0xFFFF0000, 0xFFFF0000,
   0xFFFFFFFF, 0xFFFFFFFF, 0xFFFFFFFF, 0xFFFFFFFF, 0xFFFFFFFF, 0xFFFFFFFF, 0xFFFFFFFF].getD n 0

/-- SGET's value; none where it raises ILLEGAL. -/
def sgetVal (f : Frame) (i : BitVec 14) : Option W64 :=
  let n := fld i.toNat 0 4
  let pair := bit i.toNat 4
  if fld i.toNat 5 9 ≠ 0 ∨ (pair ∧ n % 2 = 1) then none
  else some (BitVec.ofNat 64 (satWord f.s n + (if pair then 2 ^ 32 * satWord f.s (n + 1) else 0)))

/-- What a SPUT does to EXC (R56): nothing, a raise with its reason, or a resume. -/
inductive ExcWrite where
  | keep
  | raise (reason : Nat)
  | resume
deriving DecidableEq, Repr

/-- The reason that a firmware raise takes (R56). -/
def fwReason (r : Nat) : Nat := if 0x80 ≤ r ∧ r ≤ 0xFE then r else 0x80

/-- The satchel words after a SPUT of word `n`, without EXC and the loads. -/
def sputFrame (f : Frame) (n a m : Nat) (k : Bool) : Frame :=
  let old := satWord f.s n
  if n = 2 then { f with s := satSetWord f.s 2 (old ||| (a &&& m &&& 0x0FFFC000)) }
  else
    let w := m &&& satMask n k
    { f with s := satSetWord f.s n ((old &&& (0xFFFFFFFF ^^^ w)) ||| (a &&& w)) }

/-- SPUT on a frame's satchel: the word, the loads of INST_GEN and SVC, and what its write of EXC means (R38, R72). A
raise leaves EXC to R54; a resume has cleared EXC and REASON. -/
def State.sput (s : State) (fid : Nat) (n : Nat) (a m : W64) (k : Bool) : State × ExcWrite :=
  let a := a.toNat % 2 ^ 32
  let m := m.toNat % 2 ^ 32
  let s := s.modFrame fid fun f => sputFrame f n a m k
  let s := if n = 0 ∧ fld m 0 12 ≠ 0 then s.loadGen fid else s
  let s := if n = 1 ∧ fld m 12 10 ≠ 0 then s.loadSvc fid else s
  let f := s.frame fid
  if n ≠ 2 ∨ !bit m 28 ∨ f.gf sfExc = fld a 28 1 then (s, .keep)
  else if bit a 28 then (s, .raise (fwReason (f.gf sfReason)))
  else (s.setFrame fid ((f.sf sfExc 0).sf sfReason 0), .resume)

/-! ### The frame window (R75, R76) -/

/-- The bytes that an access of `size` code moves. -/
def accBytes (size : BitVec 2) : Nat := 2 ^ size.toNat

/-- The effective address (R74). -/
def effAddr (base : W64) (off : BitVec 9) : Nat := (base + off.signExtend 64).toNat

/-- Does an access touch byte 256 or above? -/
def windowMiss (a n : Nat) : Bool := decide (256 < a + n)

/-- `n` bytes of the window; bytes at or beyond LEN read zero. -/
def Frame.windowLoad (f : Frame) (a n : Nat) : List Byte := (List.range n).map fun i => f.data.getD (a + i) 0

/-- Store into the window; bytes at or beyond LEN are discarded. -/
def Frame.windowStore (f : Frame) (a : Nat) (bs : List Byte) : Frame :=
  { f with data := splice f.data a (bs.take (f.data.length - a)) }

/-- The register value of a load. -/
def loadVal (k : LoadKind) (bs : List Byte) : W64 :=
  match k with
  | .zero => BitVec.ofNat 64 (leNat bs)
  | .sign => BitVec.ofNat 64 (sext (8 * bs.length) 64 (leNat bs))
  | .be => BitVec.ofNat 64 (beNat bs)

/-- The bytes of a store. -/
def storeVal (be : Bool) (v : W64) (n : Nat) : List Byte :=
  let bs := leBytes n v.toNat
  if be then bs.reverse else bs

/-- The key of a LOOK: `n` registers from `ra`. -/
def lookKey (r : Regs) (ra : BitVec 5) (n : Nat) : List Byte :=
  (List.range n).flatMap fun i => leBytes 8 (r.get (ra + BitVec.ofNat 5 i)).toNat

/-- Does a LOOK name registers beyond g31? -/
def lookBad (rd ra : BitVec 5) (klen rcnt : BitVec 2) : Bool :=
  decide (31 < ra.toNat + klen.toNat) || decide (31 < rd.toNat + rcnt.toNat)

/-- The register writes of a hit. -/
def lookWrites (rd : BitVec 5) (ws : List W64) : List (BitVec 5 × W64) :=
  (List.range ws.length).map fun i => (rd + BitVec.ofNat 5 i, ws.getD i 0)

/-- Does a LOOK of table `t` in partition `q` read a bank marked LOST (R82)? -/
def State.lookLost (s : State) (q t : Nat) : Bool := (s.tdesc q t).valid && s.bankMarked (48 + q)

/-! ### A stage's slot (R98 to R102) -/

/-- Results that have become readable by slot `t` of the pass are written. -/
def Pass.commit (p : Pass) (t : Nat) : Pass :=
  let due := p.pend.filter fun x => decide (x.at_ ≤ t)
  { p with r := due.foldl (fun r x => r.writes x.g x.p) p.r, pend := p.pend.filter fun x => !decide (x.at_ ≤ t) }

/-- The slot of the pass that is next to run, counted from stage 0. -/
def Pass.now (p : Pass) : Nat := 32 * p.stage + p.slot

/-- A stage begins: g16 to g31 and p1 to p7 read zero (R100). -/
def Pass.enter (p : Pass) : Pass :=
  let r : Regs := { g := Vector.ofFn fun i => if i.val < 16 then p.r.g[i] else 0, p := 1 }
  { p with r := r, pend := p.pend.map fun x => { x with g := x.g.filter fun y => decide (y.1.toNat < 16), p := [] } }

/-- Move to the next slot of the stage; slot 32 is the next stage's slot 0. -/
def Pass.step (p : Pass) : Pass :=
  if p.slot + 1 < 32 then ({ p with slot := p.slot + 1 }).commit (p.now + 1)
  else (({ p with stage := p.stage + 1, slot := 0, skip := 0 }).commit (p.now + 1)).enter

/-- Results readable `n` slots later. -/
def Pass.later (p : Pass) (n : Nat) (g : List (BitVec 5 × W64)) (q : List (BitVec 3 × Bool)) : Pass :=
  { p with pend := p.pend ++ [⟨p.now + n, g, q⟩] }

/-- A stage raises a satchel exception (R102). -/
def Pass.raise (p : Pass) (reason : Nat) : Pass := { p with exc := some reason }

/-- How many slots later a computed result is readable, none where the stage profile has no such operation (R65, R98). -/
def stageDelay (a : Afv) : Option Nat :=
  match a with
  | .alu .. | .cmp .. | .pred .. | .imm .. | .shift .. | .ext .. | .ins .. | .cmpi .. => some 1
  | .mul op _ _ _ => if op = .mul ∨ op = .mulhu ∨ op = .mulhs then some 3 else none
  | .help op _ _ _ => if op = .crc32c then some 2 else none
  | _ => none

/-- LOOK in a stage: the table that the running slot binds (R82, R161). -/
def State.stageLook (s : State) (n : Nat) (p : Pass) (rd ra : BitVec 5) (table : Nat) (klen rcnt : BitVec 2)
    (pd : BitVec 3) : Pass :=
  if lookBad rd ra klen rcnt then p.raise 0x21 else
    let m := fld p.profile (4 * p.stage) 4
    let b := fld (s.rdN (ctlAddr (pipeIsland n) (0x4000 + 0x100 * p.stage + 0x10 * m)) 4) (8 * table) 8
    let bound := table ≠ 15 && bit b 7
    let key := lookKey p.r ra (klen.toNat + 1)
    if bound && s.lookLost n (b % 32) then (p.later 12 [] [(pd, false)]).raise 0x1F else
      match (if bound then s.lookup n (b % 32) key (rcnt.toNat + 1) else none) with
      | some ws => p.later 12 (lookWrites rd ws) [(pd, true)]
      | none => p.later 12 [] [(pd, false)]

/-- An instruction of a stage program in its slot: the state and the pass. An instruction that would raise an exception
of R95, or that the stage profile does not have, raises STAGE_FAULT. -/
def State.stageRun (s : State) (n : Nat) (p : Pass) (a : Afv) : State × Pass :=
  let r := p.r
  match a with
  | .sput w ra rb =>
    let x := s.sput p.fid w.toNat (r.get ra) (r.get rb) (n < 16 && p.stage = 0)
    (x.1, match x.2 with
      | .raise c => p.raise c
      | _ => p)
  | .sget rd i =>
    (s, match sgetVal (s.frame p.fid) i with
      | some v => p.later 1 [(rd, v)] []
      | none => p.raise 0x21)
  | .load k rd ra space size off =>
    let m := accBytes size
    let ea := effAddr (r.get ra) off
    (s, if space ≠ 2 then p.raise 0x21 else if windowMiss ea m then p.raise 0x01
      else p.later 2 [(rd, loadVal k ((s.frame p.fid).windowLoad ea m))] [])
  | .store be rs ra space size off =>
    let m := accBytes size
    let ea := effAddr (r.get ra) off
    if space ≠ 2 then (s, p.raise 0x21) else if windowMiss ea m then (s, p.raise 0x01)
    else (s.modFrame p.fid fun f => f.windowStore ea (storeVal be (r.get rs) m), p)
  | .branch off =>
    let t := (p.slot : Int) + off.toInt
    (s, if 1 ≤ off.toInt ∧ t ≤ 32 then { p with skip := t.toNat } else p.raise 0x21)
  | .look rd ra table klen rcnt pd => (s, s.stageLook n p rd ra table.toNat klen rcnt pd)
  | .rcmp rd ra tag => (s, p.later 2 [(rd, s.rangeCmp n p.stage tag.toNat ((r.get ra).toNat % 65536))] [])
  | .dispCont => (s, { p with verdict := some .cont })
  | .dispDrop => (s, { p with verdict := some .drop })
  | .dispGroup ra => (s, { p with verdict := some (.group (r.get ra).toNat) })
  | _ =>
    (s, match stageDelay a, pureVal a r with
      | some d, .ok g q => p.later d g q
      | _, _ => p.raise 0x21)

/-- Does the slot that a pass stands at execute as empty: after an exception of its stage, or before the slot that a branch
leads to (R64, R102)? -/
def Pass.empty (p : Pass) : Bool := p.exc.isSome || decide (p.slot < p.skip)

/-- A pass runs instruction `a` under predicate `pr` in its slot. -/
def State.slotInsn (s : State) (n : Nat) (pr : BitVec 3) (a : Afv) (p : Pass) : State × Pass :=
  if 12 ≤ p.stage then (s, p)
  else if p.empty || !p.r.pred pr then (s, p.step)
  else
    let x := s.stageRun (n / 2) p a
    (x.1, x.2.step)

/-- A pass runs the word of its slot in the program that its profile names, empty where the stage does not run; a word that
decodes to no instruction raises STAGE_FAULT, and so does an uncorrectable error at slot `ecc` of the pass, on the fetch of
the instruction or on its load (R102). -/
def State.slotWord (s : State) (n : Nat) (ecc : Option Nat) (p : Pass) : State × Pass :=
  if 12 ≤ p.stage then (s, p)
  else if p.empty || !bit p.profile (48 + p.stage) then (s, p.step)
  else if ecc = some p.now then (s.eccError, (p.raise 0x21).step)
  else
    let w := s.rd (Reg.pipeProg (n / 2) p.stage (fld p.profile (4 * p.stage) 4) p.slot)
    match afvDecode w with
    | some a => s.slotInsn n (afvPred w) a p
    | none => (s, (if p.r.pred (afvPred w) then p.raise 0x21 else p).step)

/-- The younger passes of a lane, each in its own slot (R156). -/
def State.restCycle (s : State) (n : Nat) : List Pass → State × List Pass
  | [] => (s, [])
  | p :: ps =>
    let x := s.slotWord n none p
    let y := x.1.restCycle n ps
    (y.1, x.2 :: y.2)

/-- One pipeline cycle of lane `n`: every frame in its stages moves on by one slot, the oldest by `f`, the younger ones by
their programs, so frames keep their distances (R99, R156). -/
def State.laneCycle (s : State) (n : Nat) (f : State → Pass → State × Pass) : State :=
  let x := match (s.lane n).passes with
    | [] => (s, [])
    | p :: ps =>
      let x := f s p
      let y := x.1.restCycle n ps
      (y.1, x.2 :: y.2)
  let l := x.1.lane n
  x.1.setLane n { l with passes := x.2, cycle := (l.cycle + 1) % 16 }

/-- A pipeline cycle in which the oldest pass of lane `n` runs an instruction; nothing where no pass is in the stages. -/
def State.stageInsn (s : State) (n : Nat) (pr : BitVec 3) (a : Afv) : State :=
  match (s.lane n).passes with
  | [] => s
  | p :: _ => if 12 ≤ p.stage then s else s.laneCycle n fun s p => s.slotInsn n pr a p

/-- Pipeline cycles of lane `n` until its oldest pass has left stage 11. `fuel` exceeds the slots of a pass. -/
def State.stagesRest : Nat → Nat → Option Nat → State → State
  | 0, _, _, s => s
  | fuel + 1, n, ecc, s =>
    match (s.lane n).passes with
    | [] => s
    | p :: _ => if 12 ≤ p.stage then s else stagesRest fuel n ecc (s.laneCycle n fun s p => s.slotWord n ecc p)

/-! ### Starts (R156 to R161) -/

/-- The cycle in which a lane may start a frame: the frames in its stages move on, so a stage holds at most 32 (R156). -/
def State.startCycle (s : State) (n : Nat) : State := s.laneCycle n fun s p => s.slotWord n none p

/-- Put a frame into stage 0 of a lane under a profile value. -/
def State.startPass (s : State) (n fid v : Nat) : State :=
  let l := s.lane n
  s.setLane n { l with passes := l.passes ++ [{ fid := fid, profile := v }] }

/-- The first class K frame of a recirculation queue, else its first frame. -/
def State.pickRecirc (s : State) (q : List Recirc) : Option Recirc :=
  match q.find? fun x => (s.frame x.fid).gf sfK = 1 with
  | some x => some x
  | none => q.head?

/-- PROFILE of a frame's sub-port. -/
def State.subProfile (s : State) (src : Nat) : Nat :=
  s.rf (Reg.pipeSubportCfg (src / 16) (src / 8 % 2) (src % 8)) pipeSubportCfg_PROFILE

/-- A start of the ingress lane of port `n`: one cycle in 16 goes to a waiting recirculation, the others to an arrival
first (R158, R160). -/
def State.passStart (s : State) (n : Nat) : State :=
  let turn := decide ((s.lane n).cycle = 0)
  let s := s.startCycle n
  let l := s.lane n
  let again := s.pickRecirc l.recirc
  let recirc := fun (x : Recirc) =>
    let l := s.lane n
    let s := s.setLane n { l with recirc := l.recirc.erase x }
    let p := match x.next with
      | some p => p
      | none => s.subProfile ((s.frame x.fid).gf sfSrc)
    (s.pipeCount (n / 2) 1).startPass n x.fid (s.profile (n / 2) p)
  let fresh := fun (fid : Nat) (rest : List Nat) =>
    let s := s.setLane n { s.lane n with arrivals := rest }
    (s.pipeCount (n / 2) 0).startPass n fid (s.profile (n / 2) (s.subProfile ((s.frame fid).gf sfSrc)))
  match turn, again, l.arrivals with
  | true, some x, _ => recirc x
  | _, _, fid :: rest => fresh fid rest
  | _, some x, [] => recirc x
  | _, none, [] => s

/-- INGRESS_PASS_START. -/
def execIngressPassStart (pipe : Fin 16) (lane : Fin 2) (s : State) : Out :=
  if s.stopped || !s.accepts (0x21 + pipe.val) then .next s else
  .next (s.passStart (2 * pipe.val + lane.val))

/-- RECIRCULATION: the oldest frame on its way back enters the recirculation queue or is discarded (R158). -/
def execRecirculation (pipe : Fin 16) (lane : Fin 2) (s : State) : Out :=
  if s.stopped then .next s else
  let n := 2 * pipe.val + lane.val
  let l := s.lane n
  match l.returning with
  | [] => .next s
  | x :: rest =>
    let k := decide ((s.frame x.fid).gf sfK = 1)
    let room := decide (l.recirc.length < (if k then 512 else 480))
    done (if room then s.setLane n { l with returning := rest, recirc := l.recirc ++ [x] }
      else ((s.setLane n { l with returning := rest }).pipeCount pipe.val 2).discard x.fid)

/-! ### End of pass (R164, R167) -/

/-- The oldest pass of a lane runs to the end and leaves it; `ecc` is the slot of the pass, counted from stage 0, at which
its fetch or load meets an uncorrectable error. -/
def State.finishPass (s : State) (n : Nat) (ecc : Option Nat) : State × Option Pass :=
  let s := s.stagesRest 400 n ecc
  match (s.lane n).passes with
  | [] => (s, none)
  | p :: rest => (s.setLane n { s.lane n with passes := rest }, some p)

/-- A verdict's number in SUBPORT_CFG (R175). -/
def defVerdict (kind target : Nat) : Verdict := if kind = 0 then .cont else if kind = 2 then .group target else .drop

/-- The end of an ingress pass. -/
def State.ingressEnd (s : State) (n : Nat) (p : Pass) : State :=
  let pipe := n / 2
  match p.exc with
  | some c => s.raiseExc p.fid c
  | none =>
    let src := (s.frame p.fid).gf sfSrc
    let a := Reg.pipeSubportCfg pipe (src / 8 % 2) (src % 8)
    let s := if p.verdict.isNone then s.pipeCount pipe 3 else s
    match p.verdict.getD (defVerdict (s.rf a pipeSubportCfg_DEF_VERDICT) (s.rf a pipeSubportCfg_DEF_TARGET)) with
    | .drop => (s.pipeCount pipe 4).discard p.fid
    | .group t => s.applyGroup pipe t p.fid
    | .cont =>
      let g := fun r => (p.r.get r).toNat
      s.arrive { via := none, g12 := g 12, g13 := g 13, g14 := g 14,
                 next := if bit (g 15) 4 then some (g 15 % 16) else none } p.fid

/-- INGRESS_PASS_END. -/
def execIngressPassEnd (pipe : Fin 16) (fin : LaneEnd) (s : State) : Out :=
  if s.stopped then .next s else
  let n := 2 * pipe.val + fin.lane.val
  match s.finishPass n (fin.ecc.map Fin.val) with
  | (s, none) => .next s
  | (s, some p) => done (s.ingressEnd n p)

/-- The end of an egress pass. -/
def State.egressEnd (s : State) (n : Nat) (p : Pass) : State :=
  let pipe := n / 2
  match p.exc with
  | some c => s.raiseExc p.fid c
  | none =>
    match p.verdict with
    | none => (s.pipeCount pipe 3).depart p.fid
    | some .cont => s.depart p.fid
    | some .drop => (s.pipeCount pipe 4).discard p.fid
    | some (.group _) => (s.pipeCount pipe 5).discard p.fid

/-- EGRESS_PASS_END. -/
def execEgressPassEnd (pipe : Fin 16) (fin : LaneEnd) (s : State) : Out :=
  if s.stopped then .next s else
  let n := 32 + 2 * pipe.val + fin.lane.val
  match s.finishPass n (fin.ecc.map Fin.val) with
  | (s, none) => .next s
  | (s, some p) => done (s.egressEnd n p)

/-! ### Dequeue (R159, R212, R225) -/

/-- TM_DECISION: when the MAC of a sub-port can accept a frame, one is dequeued and starts its egress pass. -/
def execTmDecision (port : Fin 32) (sub : Fin 8) (s : State) : Out :=
  if s.stopped || !s.accepts (0x31 + port.val / 2) then .next s else
  let p := port.val
  if !s.linked p sub.val || (s.mac p sub.val).waiting.any (s.txReady p sub.val) then .next s
  else
    let r := (s.startCycle (32 + p)).schedule p sub.val
    let s := r.1
    done (match r.2 with
      | none => s
      | some fid => (s.modFrame fid fun f => { f with sub := some sub.val }).startPass (32 + p) fid (s.profile (16 + p / 2) (s.rf (flowClassAddr ((s.frame fid).gf sfFlowClass)) flowClass_EG_PROFILE)))

/-- SIDE_SCHED_DECISION: the side scheduler of a host link (0, 1) or Hamper link (2 to 7) gives its endpoint a frame. -/
def execSideSchedDecision (endpoint : Fin 8) (s : State) : Out :=
  if s.stopped then .next s else
  let e := endpoint.val
  let ready := e < 2 || (s.hlUp (e - 2) && decide (0 < (s.hvc (e - 2) 1).credits))
  if !ready then .next s
  else
    let r := s.schedule (32 + e) 0
    done (match r.2 with
      | none => r.1
      | some fid => r.1.depart fid)

end Sys2Proof.Machine
end

