-- ==== Sys2Proof/Machine/Paths.lean ====
section
/-! DEFINITION. The blocks that stepping hands satchels to, and what comes back from them: cipher islands, session units,
ingest engines, shelf traffic, transmit chains (R164, R234, R266, R271, R279, R286, R338). -/

namespace Sys2Proof.Machine

/-! ### Cipher islands (R233, R234) -/

/-- INLINE_DECRYPT: the oldest arriving frame of cipher island `c` is verified and decrypted and goes back to its lane;
it waits on a key cache miss, and a failed check raises. -/
def execInlineDecrypt (c : Fin 8) (s : State) : Out :=
  if s.stopped || !s.accepts (0x53 + c.val) then .next s else
  match Tab.get [] s.ciphIn c.val with
  | [] => .next s
  | x :: rest =>
    let f := s.frame x.fid
    let svc := orderOf 0 (f.gf sfPos)
    let pop := fun (s : State) => { s with ciphIn := Tab.set [] s.ciphIn c.val rest }
    match s.inlineOpen c.val svc x.fid with
    | (s, .stall) => .next s
    | (s, .done) => .next (((pop s).advance x.fid (some svc)).returnTo (f.gf sfSrc / 8) x.fid x.next)
    | (s, .reason r) => done ((pop s).raiseExc x.fid r)

/-- INLINE_ENCRYPT: the oldest departing frame of cipher island `c` is encrypted and its departure steps go on. -/
def execInlineEncrypt (c : Fin 8) (s : State) : Out :=
  if s.stopped || !s.accepts (0x53 + c.val) then .next s else
  match Tab.get [] s.ciphOut c.val with
  | [] => .next s
  | fid :: rest =>
    let svc := orderOf 1 ((s.frame fid).gf sfPos)
    let pop := fun (s : State) => { s with ciphOut := Tab.set [] s.ciphOut c.val rest }
    match s.inlineSeal c.val svc fid with
    | (s, .stall) => .next s
    | (s, .done) => done (((pop s).advance fid (some svc)).depart fid)
    | (s, .reason r) => done ((pop s).raiseExc fid r)

/-! ### Session units (R263, R266 to R272) -/

/-- STS_ARRIVAL: the session unit of a cluster takes its oldest segment once its context is at hand. -/
def execStsArrival (cl : Fin 16) (s : State) : Out :=
  if s.stopped || !s.accepts (0x42 + cl.val) then .next s else
  match Tab.get [] s.stsIn cl.val with
  | [] => .next s
  | fid :: rest =>
    let c := (s.frame fid).gf sfCtx
    if (s.ctxAddr c).isSome && !s.ctxCached cl.val c then .next s
    else
      let r := ({ s with stsIn := Tab.set [] s.stsIn cl.val rest }).stsArrive fid
      done (r.2.foldl (fun s f => s.arrive (.side (0x110 + cl.val)) f) r.1)

/-- STS_DEPARTURE: the session unit completes the PDUs of its oldest departing frame. -/
def execStsDeparture (cl : Fin 16) (s : State) : Out :=
  if s.stopped || !s.accepts (0x42 + cl.val) then .next s else
  match Tab.get [] s.stsOut cl.val with
  | [] => .next s
  | fid :: rest =>
    let c := (s.frame fid).gf sfCtx
    if (s.ctxAddr c).isSome && !s.ctxCached cl.val c then .next s
    else
      match ({ s with stsOut := Tab.set [] s.stsOut cl.val rest }).stsDepart fid with
      | (s, none) => done ((s.advance fid (some 9)).depart fid)
      | (s, some r) => done (s.raiseExc fid r)

/-! ### Ingest engines (R274, R279, R281 to R288) -/

/-- INGEST_SEGMENT: the oldest satchel of an ingest island meets the fence of R39; SHP waits for, and charges, the shaper
that its context names; then FIX, ERC and SEC act and the satchel is removed. -/
def execIngestSegment (island : Fin 2) (s : State) : Out :=
  if s.stopped || !s.accepts (0x5B + island.val) then .next s else
  let n := island.val
  match Tab.get [] s.ingIn n with
  | [] => .next s
  | fid :: rest =>
    let f := s.frame fid
    let pop := fun (s : State) => { s with ingIn := Tab.set [] s.ingIn n rest }
    match s.fence f with
    | some r => done (((pop s).countExc r).discard fid)
    | none =>
      let s := s.refillShapers (0x5B + n)
      let x := s.ctxN (f.gf sfCtx) 6 1
      if !f.shpDue then done ((pop s).depart fid)
      else if !s.shaperOpen (0x5B + n) x then .next s
      else done ((((pop s).chargeShaper (0x5B + n) f.len x).modFrame fid fun f => f.setDone 4).depart fid)

/-- A write of JOB_CMD by the initiator whose register `r` is (R274). -/
def State.jobCommand (s : State) (n r op c : Nat) : State :=
  if s.halting then s else s.rowWrite (Reg.jobCmd n r) 4 (c + 2 ^ 20 * op) fun s => s.jobCmdWrite n r op c

/-- OPEN: a job command written to register `r` of an ingest island. -/
def execJobOpen (r : Fin 17) (island : Fin 2) (ctx : BitVec 20) (s : State) : Out :=
  if s.stopped then .next s else
  done (s.jobCommand island.val r.val 1 ctx.toNat)
/-- ABORT. -/
def execJobAbort (r : Fin 17) (island : Fin 2) (ctx : BitVec 20) (s : State) : Out :=
  if s.stopped then .next s else
  done (s.jobCommand island.val r.val 2 ctx.toNat)

/-- SEC_UNIT_OP: an operation of SEC ends in its cipher island: that of a unit of a job, or of a frame toward one shelf
link, which goes on departing or takes its exception. -/
def execSecUnitOp (op : SecEnd) (s : State) : Out :=
  if s.stopped then .next s else
  match s.secEnd op.ctx.toNat op.eccBad with
  | (s, some (fid, none)) => done ((s.advance fid (some 12)).depart fid)
  | (s, some (fid, some r)) => done (s.raiseExc fid r)
  | (s, none) => done s
/-- SHELF_TIMEOUT of one outstanding command of a job. -/
def execShelfTimeout (ctx : BitVec 20) (cmd : BitVec 12) (s : State) : Out :=
  if s.stopped then .next s else
  done (s.shelfTimeout ctx.toNat cmd.toNat)
/-- SHELF_BUSY_RETRY of one command of a job. -/
def execShelfBusyRetry (ctx : BitVec 20) (cmd : BitVec 12) (s : State) : Out :=
  if s.stopped then .next s else
  done (s.shelfRetry ctx.toNat cmd.toNat)
/-- UNIT_ARRIVAL: the oldest message of unit data on a link belongs to a command of a job. -/
def execUnitArrival (link : Fin 6) (ctx : BitVec 20) (cmd : BitVec 12) (s : State) : Out :=
  if s.stopped then .next s else
  done (s.unitArrival link.val ctx.toNat cmd.toNat)

/-! ### Transmit chains (R336 to R338) -/

/-- TX_CHAIN_ATTACH: a chain that has been read whole becomes satchels; a DIRECT queue steps them at once, a WORKER
queue gives them to its group, and an invalid TSO request raises SEG_INVALID. -/
def execTxChainAttach (inst : Fin 4096) (loc : Fin 256) (s : State) : Out :=
  if s.stopped then .next s else
  let k := qpKey inst.val loc.val
  match s.qp k with
  | none => .next s
  | some q =>
    if !q.ready then .next s
    else
      let h := s.qpLink k
      let r := s.attachChain k q
      let s := r.1.setQp k { q with chain := [], data := [], ready := false }
      let go := fun (s : State) (fid : Nat) =>
        if r.2.2 then s.raiseExc fid 0x12
        else if q.worker then s.toGroup q.group fid
        else s.arrive (.side (0x100 + h)) fid
      done (r.2.1.foldl go s)

end Sys2Proof.Machine
end

