-- ==== Sys2Proof/Machine/Pair.lean ====
section
/-! DEFINITION. The pair controller, what brings a Hamper link up or down, and where arriving messages go (R375, R376,
R382 to R384, R387 to R402). -/

namespace Sys2Proof.Machine

/-! ### Registers of the controller (R391, R392, R394, R398, R401) -/

/-- Roles of R391. -/
abbrev roleOff : Nat := 0
abbrev roleStarting : Nat := 1
abbrev roleStandby : Nat := 2
abbrev roleTaking : Nat := 3
abbrev roleActive : Nat := 4
abbrev roleReleasing : Nat := 5

/-- ROLE. -/
def State.role (s : State) : Nat := s.rf Reg.pairStatus pairStatus_ROLE
/-- Change what the pair controller holds beyond its registers. -/
def State.modPair (s : State) (g : Pair → Pair) : State := { s with pair := g s.pair }
/-- MODE: 0 CLAIM, 1 INTERLOCK, 2 BOTH. -/
def State.pairMode (s : State) : Nat := s.rf Reg.pairCfg pairCfg_MODE

/-- Shelf links that answer CLAIM_REJECTED. -/
def State.rejecting (s : State) : List Nat :=
  (List.range 6).filter fun n => s.isShelf n && s.hlUp n && Tab.find s.pair.answers n = some false

/-- Shelf links with EN = 1 that are down or, for a holder, answer CLAIM_REJECTED. -/
def State.shelvesLost (s : State) (role : Nat) : Nat :=
  ((List.range 6).filter fun n => s.isShelf n && s.hlEn n
    && (!s.hlUp n || ((role = roleActive || role = roleReleasing) && s.rejecting.contains n))).length

/-- TRIGGERS under a role. -/
def State.triggers (s : State) (role : Nat) : Nat :=
  let p := s.pair
  s.rf Reg.alarmStatus alarmStatus_THERM_TRIP + 2 * b2n p.eccTrig
    + 4 * b2n ((List.range 16).any fun c => bit p.staleTrig c && s.rf (Reg.staleStatus c) staleStatus_CLEARED = 0)
    + 8 * b2n ((List.range 2).any fun h => bit p.hostTrig h && bit (s.rf Reg.pairCfg pairCfg_HOST_MASK) h && !(s.host h).up)
    + 16 * b2n (decide (s.rf Reg.pairCfg pairCfg_SHELF_LOSS_MAX < s.shelvesLost role))
    + 32 * b2n p.powerTrig

/-- GEN_COMPAT: the peer's CUR as last received lies in the unit's own window (R398). -/
def State.genCompat (s : State) : Bool :=
  let cur := s.rf Reg.pairPeerGen pairPeerGen_GEN % 256
  s.pair.seen && decide (s.rf Reg.fmtGen fmtGen_GMIN ≤ cur ∧ cur ≤ s.rf Reg.fmtGen fmtGen_GMAX)

/-- HEALTH under a role (R392). -/
def State.health (s : State) (role : Nat) : Nat :=
  if s.triggers role ≠ 0 then 0 else
    let h := min 15 (s.rf Reg.pairFwState pairFwState_HEALTH_CAP)
    if role = roleStandby && !s.genCompat then min h 1 else h

/-- ELIGIBLE under a role (R398). -/
def State.pairElig (s : State) (role : Nat) : Bool :=
  role = roleStandby && s.pair.seen && s.rf Reg.pairFwState pairFwState_SYNCED = 1 && s.genCompat && decide (2 ≤ s.health role)

/-- The message PAIR_STATE (R389). -/
def State.pairStateBytes (s : State) : List Byte :=
  leBytes 1 0x18 ++ leBytes 1 s.role
    ++ leBytes 2 (s.rf Reg.pairFwState pairFwState_SYNCED + 2 * s.rf Reg.pairStatus pairStatus_ELIGIBLE)
    ++ leBytes 1 (s.rf Reg.fmtGen fmtGen_CUR) ++ leBytes 1 (s.rf Reg.fmtGen fmtGen_GMIN) ++ leBytes 2 (s.rf Reg.fmtGen fmtGen_GMAX)
    ++ leBytes 8 (s.rd Reg.pairClaim).toNat ++ leBytes 16 s.deviceSerial

/-- Send a pair control message on HL5. -/
def State.pairMsg (s : State) (b : List Byte) : State :=
  if s.hlUp 5 then s.hlSend 5 0 { sub := s.plainSubset, bytes := b } else s

/-- Send PAIR_STATE. -/
def State.sayPair (s : State) : State :=
  let b := s.pairStateBytes
  (s.modPair fun p => { p with said := b, saidAt := s.ictNs }).pairMsg b

/-- The controller's registers follow the role and what it depends on; a change of ROLE, ELIGIBLE, PEER_SEEN or
GEN_COMPAT sets cause PAIR, and a change of PAIR_STATE's contents is sent at once (R391, R401). -/
def State.pairSet (s : State) (role : Nat) : State :=
  let old := (s.rd Reg.pairStatus).toNat
  let on := s.pairOn
  let trig := if on then s.triggers role else 0
  let health := if on then s.health role else 0
  let elig := on && s.pairElig role
  let seen := on && s.pair.peerAt.isSome
  let st := role + 8 * b2n elig + 16 * b2n seen + 32 * b2n s.pins.holdIn + 64 * b2n s.pins.holdOut
    + 128 * b2n (on && s.genCompat) + 256 * health + 4096 * trig
  let s := s.wr Reg.pairStatus (BitVec.ofNat 32 st)
  let claim := if on then s.rf Reg.pairCfg pairCfg_PREF * 2 ^ 28 + health * 2 ^ 24 + s.pair.epoch % 2 ^ 24 else 0
  let s := s.wr Reg.pairClaim (BitVec.ofNat 32 claim)
  let s := s.modPair fun p => { p with eligAt := if elig then (if p.eligAt.isSome then p.eligAt else some s.ictNs) else none }
  let s := if (old % 32 ≠ st % 32) ∨ (bit old 7 ≠ bit st 7) then s.setCauses 4 else s
  if on && s.pairStateBytes ≠ s.pair.said then s.sayPair else s

/-! ### Claims and the interlock (R387, R389, R390) -/

/-- Send a claim command to every shelf link that is up; INTERLOCK mode sends none (R388). -/
def State.claimSend (s : State) (op : Nat) : State :=
  let s := s.modPair fun p => { p with claimAt := s.ictNs }
  if s.pairMode = 1 then s else
    ((List.range 6).filter fun n => s.isShelf n && s.hlUp n).foldl (fun s n =>
      let b := shelfBytes op 0 0 0 (s.rd Reg.pairClaim).toNat 0 0 0 0
      let s := s.hlSend n 0 { sub := s.plainSubset, bytes := b }
      s.modPair fun p => { p with claims := Tab.set 0 p.claims n (Tab.get 0 p.claims n + 1) }) s

/-- Drive PAIR_HOLD_OUT. -/
def State.holdOutSet (s : State) (b : Bool) : State :=
  let s := { s with pins := { s.pins with holdOut := b } }
  (s.setRf Reg.pairStatus pairStatus_HOLD_OUT (b2n b)).modPair fun p => { p with holdOutAt := if b then some s.ictNs else none }

/-- Enter a role. -/
def State.enterRole (s : State) (role : Nat) : State :=
  let s := s.modPair fun p =>
    { p with roleAt := s.ictNs, answers := if role = roleActive ∨ role = roleReleasing then p.answers else [], reqAt := none,
             lost := none }
  let s := if role ≤ roleStandby then s.holdOutSet false else s
  s.pairSet role

/-- Give up control (R393). -/
def State.giveUp (s : State) : State :=
  let claim := (s.rd Reg.pairClaim).toNat
  let s := (s.claimSend 0x10).record 0x00A0 0x68 [(0, 1, s.rf Reg.pairStatus pairStatus_TRIGGERS), (4, 4, claim)]
  s.enterRole roleStandby

/-- The triggers held by a cluster or a host link end with what they hold for (R394). -/
def State.trigTidy (s : State) : State :=
  let stale := (List.range 16).foldl (fun m c => if s.rf (Reg.staleStatus c) staleStatus_CLEARED = 0 then m else setFld m c 1 0) s.pair.staleTrig
  let host := (List.range 2).foldl (fun m h => if (s.host h).up then setFld m h 1 0 else m) s.pair.hostTrig
  if stale = s.pair.staleTrig ∧ host = s.pair.hostTrig then s else s.modPair fun p => { p with staleTrig := stale, hostTrig := host }

/-- After a change of what health depends on: the registers, a claim with the new health, or giving up (R392, R393). -/
def State.pairUpdate (s : State) : State :=
  let s := s.trigTidy
  if !s.pairOn then s else
    let h := s.rf Reg.pairStatus pairStatus_HEALTH
    let role := s.role
    let s := s.pairSet role
    let h' := s.rf Reg.pairStatus pairStatus_HEALTH
    if role < roleTaking then s else if h' = 0 then s.giveUp else if h ≠ h' then s.claimSend 0x10 else s

/-- A unit enters ACTIVE (R396). -/
def State.enterActive (s : State) : State :=
  let s := s.enterRole roleActive
  (s.record 0x00A2 0x68 [(0, 4, (s.rd Reg.pairClaim).toNat)]).pairUpdate

/-- Does a unit in TAKING meet what its mode asks for: the interlock, every shelf link that is up answering OK? -/
def State.takingMet (s : State) : Bool :=
  (s.pairMode = 0 || s.pins.holdOut) && (s.pairMode = 1 ||
    ((List.range 6).filter fun n => s.isShelf n && s.hlUp n).all fun n => Tab.find s.pair.answers n = some true)

/-- TAKING goes on to ACTIVE once its conditions are met. -/
def State.takingGo (s : State) : State := if s.role = roleTaking ∧ s.takingMet then s.enterActive else s

/-- Enter TAKING: EPOCH becomes one more than the larger of both units' (R392); in CLAIM mode claims are sent (R396). -/
def State.enterTaking (s : State) : State :=
  let s := s.modPair fun p => { p with epoch := (max p.epoch p.peerEpoch + 1) % 2 ^ 24 }
  let s := s.enterRole roleTaking
  if s.rf Reg.pairStatus pairStatus_HEALTH = 0 then s.giveUp
  else if s.pairMode = 0 then (s.claimSend 0x10).takingGo else s

/-- CLAIM_REFRESH: in TAKING, ACTIVE and RELEASING a claim to every shelf link that is up, 250 µs after the last; in BOTH
mode not before the interlock is held (R391, R396). -/
def execClaimRefresh (s : State) : Out :=
  .next (if roleTaking ≤ s.role ∧ s.elapsed s.pair.claimAt 250000 ∧ (s.role ≠ roleTaking ∨ s.pairMode = 0 ∨ s.pins.holdOut) then (s.claimSend 0x10).takingGo else s)

/-- A shelf link's answer to a claim (R389, R396): rejected by too many links, a holder is demoted. -/
def State.claimAnswer (s : State) (n st : Nat) : State :=
  let s := s.modPair fun p => { p with claims := Tab.set 0 p.claims n (Tab.get 0 p.claims n - 1) }
  if s.role < roleTaking then s else
    let s := if st = 0 ∨ st = 5 then s.modPair fun p => { p with answers := Tab.put p.answers n (decide (st = 0)) } else s
    if s.role = roleTaking then s.takingGo
    else if s.role = roleActive ∧ s.rf Reg.pairCfg pairCfg_SHELF_LOSS_MAX < s.rejecting.length then
      let mask := s.rejecting.foldl (fun m n => m + 2 ^ n) 0
      (s.record 0x00A4 0x68 [(0, 1, mask)]).enterRole roleStandby
    else s.pairUpdate

/-- SHELF_RESPONSE: the oldest response reaches its ingest engine, or the pair controller where it answers a claim: JOB
is zero, the link owes an answer, and no job at context 0 has command 0 outstanding. -/
def execShelfResponse (s : State) : Out :=
  if s.stopped then .next s else
  match s.shelfResps with
  | [] => .next s
  | (n, b) :: rest =>
    let jobs := match s.job 0 with
      | some j => j.cmds.any fun x => x.num = 0
      | none => false
    if leNat (slice b 4 4) = 0 ∧ Tab.get 0 s.pair.claims n ≠ 0 ∧ !jobs then
      .next (({ s with shelfResps := rest }).claimAnswer n (leNat (slice b 0 1)))
    else done s.shelfResponse

/-- HOLD_SAMPLE_COMPLETE: PAIR_HOLD_IN has been deasserted for 10 µs while the unit samples, and PAIR_HOLD_OUT is
asserted (R390). -/
def execHoldSampleComplete (s : State) : Out :=
  let p := s.pair
  let since := max p.holdFreeAt p.roleAt
  let ok := s.role = roleTaking && s.pairMode ≠ 0 && !s.pins.holdOut && !s.pins.holdIn && p.backoff.isNone
    && s.rf Reg.pairStatus pairStatus_HEALTH ≠ 0 && s.elapsed since 10000
  .next (if ok then
      let s := s.holdOutSet true
      (if s.pairMode = 2 then s.claimSend 0x10 else s).takingGo
    else s)

/-- HOLD_BACKOFF_EXPIRE: the unit samples again. -/
def execHoldBackoffExpire (s : State) : Out :=
  .next (match s.pair.backoff with
    | some t => if t ≤ s.ictNs then s.modPair fun p => { p with backoff := none, holdFreeAt := max p.holdFreeAt s.ictNs } else s
    | none => s)

/-- PAIR_HOLD_IN_CHANGE: the new level; a wake source while EN is 1; asserted within 10 µs after the unit's own assertion
it is a collision, deasserted it is a sign that the active peer is lost (R390, R395, R410). -/
def execPairHoldInChange (level : Bool) (s : State) : Out :=
  if s.pins.holdIn = level then .next s else
    let s := { s with pins := { s.pins with holdIn := level } }
    let s := s.setRf Reg.pairStatus pairStatus_HOLD_IN (b2n level)
    let s := if s.pairOn then s.latchWake 6 0 0 0 else s
    let now := s.ictNs
    .next (if level then
        match s.pair.holdOutAt with
        | some t =>
          if now < t + 10000 then
            let wait := 20000 * (16 - s.rf Reg.pairCfg pairCfg_PREF) + 1000 * (1 + (Config.freeWord s.free).toNat % 16)
            let s := ({ s with free := s.free + 1 }.holdOutSet false).modPair fun p => { p with backoff := some (now + wait) }
            if s.role = roleActive then s.enterTaking else s
          else s
        | none => s
      else
        let s := s.modPair fun p => { p with holdFreeAt := now }
        if s.pairOn ∧ s.role = roleStandby ∧ s.pairMode ≠ 0 ∧ roleTaking ≤ s.pair.peerRole ∧ s.pair.lost.isNone then
          s.modPair fun p => { p with lost := some 3 }
        else s)

/-! ### The heartbeat (R391, R395) -/

/-- The oldest message from the peer, if it has the opcode. -/
def State.takePair (s : State) (op : Nat) : Option (State × List Byte) :=
  match s.pair.inbox with
  | b :: rest => if leNat (slice b 0 1) = op then some (s.modPair fun p => { p with inbox := rest }, b) else none
  | [] => none

/-- From STARTING (R391): TAKING without a peer, or before a lower claim that holds no control; else STANDBY. -/
def State.leaveStarting (s : State) : State :=
  let own := (s.rd Reg.pairClaim).toNat
  if !s.pair.seen || (s.pair.peerRole < roleTaking && (s.rd Reg.pairPeerClaim).toNat < own) then s.enterTaking
  else s.enterRole roleStandby

/-- PAIR_STATE: the peer's view is updated; a holder that reports HEALTH 0 or a lower role is lost (R395). -/
def execPairState (s : State) : Out :=
  match s.takePair 0x18 with
  | none => .next s
  | some (s, b) =>
    let role := leNat (slice b 1 1)
    let claim := leNat (slice b 8 4)
    let was := s.pair.peerRole
    let sign := if roleTaking ≤ was then (if fld claim 24 4 = 0 then some 0 else if role < roleTaking then some 1 else none) else none
    let s := (s.setRf Reg.pairPeerGen pairPeerGen_GEN (leNat (slice b 4 3))).wr Reg.pairPeerClaim (BitVec.ofNat 32 claim)
    let s := s.modPair fun p =>
      { p with peerAt := some s.ictNs, peerRole := role, peerEpoch := claim % 2 ^ 24, seen := true,
               lost := if s.role = roleStandby ∧ p.lost.isNone then sign else p.lost }
    .next (if s.role = roleStarting then s.pairUpdate.leaveStarting else s.pairUpdate)

/-- PAIR_STATE_SEND: 100 µs after the last (R391). -/
def execPairStateSend (s : State) : Out :=
  .next (if s.pairOn ∧ s.elapsed s.pair.saidAt 100000 then s.sayPair else s)

/-- PAIR_PEER_SILENCE: no PAIR_STATE for 500 µs. -/
def execPairPeerSilence (s : State) : Out :=
  .next (match s.pair.peerAt with
    | some t =>
      if s.elapsed t 500000 then
        let s := s.modPair fun p =>
          { p with peerAt := none,
                   lost := if s.role = roleStandby ∧ roleTaking ≤ p.peerRole ∧ p.lost.isNone then some 2 else p.lost }
        s.pairUpdate
      else s
    | none => s)

/-- PAIR_START_TIMEOUT: one second in STARTING. -/
def execPairStartTimeout (s : State) : Out :=
  .next (if s.role = roleStarting ∧ s.elapsed s.pair.roleAt 1000000000 then s.leaveStarting else s)

/-- PAIR_PEER_LOST: a standby that has seen a sign of the active peer's loss records it and takes over if it is eligible,
else it sets cause PAIR (R395). -/
def execPairPeerLost (s : State) : Out :=
  .next (match s.pair.lost with
    | some sign =>
      if s.role ≠ roleStandby then s.modPair fun p => { p with lost := none } else
        let elig := s.rf Reg.pairStatus pairStatus_ELIGIBLE
        let s := s.record 0x00A1 0x68 [(0, 1, sign), (1, 1, elig)]
        let s := s.modPair fun p => { p with lost := none, peerRole := 0 }
        if elig = 1 then s.enterTaking else s.setCauses 4
    | none => s)

/-! ### Handover (R397) -/

/-- Ask the peer for control. -/
def State.askHandover (s : State) : State :=
  (s.pairMsg (leBytes 32 0x19)).modPair fun p => { p with reqAt := some s.ictNs }

/-- SWAP: an eligible standby starts a handover. -/
def State.pairSwap (s : State) : State :=
  if s.role = roleStandby ∧ s.rf Reg.pairStatus pairStatus_ELIGIBLE = 1 then s.askHandover else s

/-- FORCE: a standby that is not eligible enters TAKING (R395). -/
def State.pairForce (s : State) : State :=
  if s.role = roleStandby ∧ s.rf Reg.pairStatus pairStatus_ELIGIBLE = 0 then s.enterTaking else s

/-- FAILBACK_HOLDOFF_EXPIRE: a preferred standby has been eligible for HOLDOFF. -/
def execFailbackHoldoffExpire (s : State) : Out :=
  let ok := s.role = roleStandby && s.rf Reg.pairCtl pairCtl_AUTO_FAILBACK = 1 && decide (roleTaking ≤ s.pair.peerRole)
    && decide (fld (s.rd Reg.pairPeerClaim).toNat 28 4 < s.rf Reg.pairCfg pairCfg_PREF) && s.pair.reqAt.isNone
  .next (match s.pair.eligAt with
    | some t => if ok ∧ s.elapsed t (s.rf Reg.pairCfg pairCfg_HOLDOFF * 1000000000) then s.askHandover else s
    | none => s)

/-- HANDOVER_REQ: the holder enters RELEASING. -/
def execHandoverReq (s : State) : Out :=
  .next (match s.takePair 0x19 with
    | some (s, _) => if s.role = roleActive then s.enterRole roleReleasing else s
    | none => s)

/-- HANDOVER_RELEASE: no job is open, or HANDOVER_MS has passed: control is handed over and jobs still open end SHELF. -/
def execHandoverRelease (s : State) : Out :=
  let idle := s.jobs.isEmpty
  if s.role ≠ roleReleasing ∨ !(idle || s.elapsed s.pair.roleAt (s.rf Reg.pairCtl pairCtl_HANDOVER_MS * 1000000)) then .next s
  else
    let n := s.jobs.length
    let s := (s.claimSend 0x11).holdOutSet false
    let s := s.jobs.foldl (fun s e => s.endJob e.1 6) s
    let s := (s.pairMsg (leBytes 32 0x1A)).enterRole roleStandby
    done (s.record 0x00A5 0x68 [(0, 1, b2n (!idle)), (4, 4, n)])

/-- HANDOVER_ACK: the requester enters TAKING. -/
def execHandoverAck (s : State) : Out :=
  .next (match s.takePair 0x1A with
    | some (s, _) => if s.pair.reqAt.isSome ∧ s.role = roleStandby then s.enterTaking else s
    | none => s)

/-- HANDOVER_ACK_TIMEOUT: in CLAIM mode the requester takes over; else it abandons, and a failback waits a new HOLDOFF. -/
def execHandoverAckTimeout (s : State) : Out :=
  .next (match s.pair.reqAt with
    | some t =>
      if s.role = roleStandby ∧ s.elapsed t ((s.rf Reg.pairCtl pairCtl_HANDOVER_MS + 10) * 1000000) then
        if s.pairMode = 0 then s.enterTaking
        else s.modPair fun p => { p with reqAt := none, eligAt := p.eligAt.map fun _ => s.ictNs }
      else s
    | none => s)

/-- TAKING_TIMEOUT: 5 ms in TAKING. Too many rejecting links, or an interlock not obtained, fail the takeover; else the
unit enters ACTIVE (R396). -/
def execTakingTimeout (s : State) : Out :=
  .next (if s.role ≠ roleTaking ∨ !s.elapsed s.pair.roleAt 5000000 then s else
    let bad := s.rejecting
    if s.rf Reg.pairCfg pairCfg_SHELF_LOSS_MAX < bad.length ∨ (s.pairMode ≠ 0 ∧ !s.pins.holdOut) then
      let s := s.claimSend 0x11
      (s.record 0x00A3 0x68 [(0, 1, bad.foldl (fun m n => m + 2 ^ n) 0)]).enterRole roleStandby
    else s.enterActive)

/-! ### Self-diagnosis (R394) -/

/-- ECC_WINDOW_END: the windows that have ended by ICT are judged. -/
def execEccWindowEnd (s : State) : Out := .next s.eccRoll.pairUpdate

/-- STALEMATE_TRIGGER: a cluster's CLEARED has been 0 for STALE_MS since its detection. -/
def execStalemateTrigger (cl : Fin 16) (s : State) : Out :=
  let c := cl.val
  .next (match (s.cluster c).detections.getLast? with
    | some t =>
      if s.rf (Reg.staleStatus c) staleStatus_CLEARED = 0 ∧ s.elapsed t (s.rf Reg.pairDiagCfg pairDiagCfg_STALE_MS * 1000000) then
        (s.modPair fun p => { p with staleTrig := setFld p.staleTrig c 1 1 }).pairUpdate
      else s
    | none => s)

/-- HOST_LINK_TRIGGER: a link named in HOST_MASK has been down for 100 ms. -/
def execHostLinkTrigger (h : Fin 2) (s : State) : Out :=
  .next (if bit (s.rf Reg.pairCfg pairCfg_HOST_MASK) h.val ∧ !(s.host h.val).up ∧ s.elapsed (s.host h.val).lostAt 100000000 then
      (s.modPair fun p => { p with hostTrig := setFld p.hostTrig h.val 1 1 }).pairUpdate
    else s)

/-! ### PAIR.CTL (R401) -/

/-- A write of PAIR.CTL: EN turns pairing on into STARTING, or off. -/
def State.pairCtlSet (s : State) (v : Nat) : State :=
  let ms := min 1000 (max 1 (fld v 4 10))
  let was := s.pairOn
  let s := s.wr Reg.pairCtl (BitVec.ofNat 32 (fld v 0 1 + 8 * fld v 3 1 + 16 * ms))
  let s := if bit v 0 && !was then
      (s.modPair fun p => { p with peerAt := none, peerRole := 0, seen := false, inbox := [], said := [], backoff := none }).enterRole roleStarting
    else if !bit v 0 && was then s.enterRole roleOff
    else s.pairUpdate
  let s := if bit v 1 then s.pairSwap else s
  if bit v 2 then s.pairForce else s

/-- PAIR.CTL with the bits [2:0] given and its other fields as they stand. -/
def State.pairCtlBits (s : State) (b : Nat) : State := s.pairCtlSet (setFld (s.rd Reg.pairCtl).toNat 0 3 b)

/-- A write of PAIR.CTL with its low bits as given and the others as they stand. -/
def State.pairRow (s : State) (b : Nat) : State :=
  s.rowWrite Reg.pairCtl 4 (setFld (s.rd Reg.pairCtl).toNat 0 3 b) fun s => s.pairCtlBits b

/-- EN: pairing is turned on or off. -/
def execPairEn (on : Bool) (s : State) : Out := .next (s.pairRow (b2n on))
/-- SWAP. -/
def execPairSwap (s : State) : Out := .next (s.pairRow (b2n s.pairOn + 2))
/-- FORCE. -/
def execPairForce (s : State) : Out := .next (s.pairRow (b2n s.pairOn + 4))

/-! ### Hamper links up and down (R375, R376, R382, R386) -/

/-- A link goes down: messages fail to their senders, shard commands and claims on it count as lost. -/
def State.hlLose (s : State) (n : Nat) : State × Bool :=
  match s.hlDrop n with
  | (s, false) => (s, false)
  | (s, true) =>
    let s := s.modPair fun p => { p with claims := Tab.del p.claims n, answers := Tab.del p.answers n }
    (((s.storeLinkLost n).pairUpdate).takingGo, true)

/-- Link loss with its cause: the record and the count. -/
def State.hlDown (s : State) (n cause : Nat) : State :=
  match s.hlLose n with
  | (s, false) => s
  | (s, true) => (s.record 0x0090 (0x63 + n) [(0, 1, n), (1, 1, cause)]).hlCount n 6

/-- A write of HL.CFG. -/
def State.hlCfgSet (s : State) (n v : Nat) : State :=
  if !bit v 0 then (((s.hlLose n).1.setRf (hlAddr n 0) hlCfg_EN 0).setRf (hlAddr n 4) ⟨1, 8⟩ 0).pairUpdate
  else
    let s := s.hlEnable n
    (if bit v 1 then s.hlDown n 4 else s).pairUpdate

/-- HAMPER_LINK_ENABLE. -/
def execHamperLinkEnable (link : Fin 6) (s : State) : Out :=
  .next (s.rowWrite (hlAddr link.val 0) 4 1 fun s => s.hlCfgSet link.val 1)

/-- HAMPER_LINK_UP: training and the bring-up exchange complete. -/
def execHamperLinkUp (link : Fin 6) (unit : Bool) (port : BitVec 4) (serial : W64) (credits : BitVec 40) (s : State) : Out :=
  if s.stopped || (s.island (0x63 + link.val)).power = .off then .next s else
  .next (s.hlBringUp link.val unit port.toNat serial.toNat credits.toNat).pairUpdate

/-- TRAIN_RETRY: UP was not reached within 500 ms. -/
def execTrainRetry (link : Fin 6) (s : State) : Out :=
  let n := link.val
  .next (if !s.stopped && (s.island (0x63 + n)).power ≠ .off && s.hlEn n && !s.hlUp n && s.elapsed (s.hl n).trainAt 500000000 then
      ((s.hlCount n 7).setRf (hlAddr n 4) ⟨1, 8⟩ 0).setHl n { s.hl n with trainAt := s.ictNs }
    else s)

/-- HAMPER_LINK_DOWN: FEC lock lost for 10 µs (0), a run of uncorrectable codewords (1), or no flit with a valid CHECK for
10 µs (2). -/
def execHamperLinkDown (link : Fin 6) (cause : Fin 3) (s : State) : Out :=
  if s.stopped ∨ (cause.val = 2 ∧ !s.elapsed (s.hl link.val).flitAt 10000) then .next s
  else done (s.hlDown link.val cause.val)

/-- RETRAIN. -/
def execRetrain (link : Fin 6) (s : State) : Out :=
  done (s.rowWrite (hlAddr link.val 0) 4 3 fun s => s.hlCfgSet link.val 3)

/-- HAMPER_VC_STALLED: messages wait on a channel without a credit for 100 µs (R382). -/
def execHamperVcStalled (link : Fin 6) (vc : Fin 4) (s : State) : Out :=
  if s.stopped then .next s else
  let n := link.val
  let c := s.hvc n vc.val
  if !s.hlUp n ∨ c.txq.isEmpty ∨ c.credits ≠ 0 ∨ !s.elapsed c.creditAt 100000 then .next s
  else
    let s := s.setRf (hlAddr n 4) ⟨9 + vc.val, 1⟩ 1
    done (((s.record 0x0091 (0x63 + n) [(0, 1, n), (1, 1, vc.val)]).hlCount n 8).hlDown n 3)

/-! ### Arriving messages (R383, R384) -/

/-- A message becomes a satchel: SRC, INSTANCE and the other fields of its subset; none where R43 refuses it. The spec does
not say what s12 to s15, EXT_MASK and FMT_GEN hold then: the satchel keeps no extension word, EXT_MASK 0 and FMT_GEN the unit's
CUR (DESIGN CHOICE, log entry 134). -/
def State.hlAttach (s : State) (n : Nat) (sub : HSubset) (bytes : List Byte) : State × Nat × Bool :=
  let e := popcount 4 sub.extMask
  let ext := (List.range e).map fun i => leNat (slice bytes (4 * i) 4)
  let r := s.attach (0x108 + n) sub.inst s.ictHalf (100 + n) (bytes.drop (4 * e))
  let s := r.1.modFrame r.2 fun f =>
    ((((f.sf sfFlowClass sub.flowClass).sf sfTc sub.tc).sf sfColour sub.colour).sf sfMu sub.mu).sf sfAuthFail sub.authFail
  let s := s.loadSvc r.2
  match s.acceptExt sub.fmtGen sub.extMask sub.mu (unpackExt sub.extMask [0, 1, 2, 3] ext) (s.frame r.2) with
  | some f => (s.setFrame r.2 f, r.2, true)
  | none => (s, r.2, false)

/-- A satchel attached from VC 1 is stepped or queued as HL.RX_CFG says. -/
def State.hlSteer (s : State) (n fid : Nat) : State :=
  if s.rf (Reg.hlRxCfg n) hlRxCfg_MODE = 1 then s.toGroup (s.rf (Reg.hlRxCfg n) hlRxCfg_GROUP) fid
  else
    let a := Reg.hlRxDest n ((s.frame fid).gf sfTc)
    (s.modFrame fid fun f => ((f.sf sfDst (s.rf a hlRxDest_DST)).sf sfQueue (s.rf a hlRxDest_QUEUE)).sf sfNextHop
      (s.rf a hlRxDest_NEXTHOP)).arrive (.side (0x108 + n)) fid

/-- Does some job expect unit data or a manifest on a link? -/
def State.unitsDue (s : State) (n : Nat) : Bool :=
  s.jobs.any fun e => e.2.cmds.any fun x => (x.op = 4 || x.op = 5) && (s.sideOf e.1 x.w).link x.shard = n

/-- A whole message goes where R383 sends it. R43 comes first: a message with MU set from outside the accepted generations
raises MU_UNKNOWN where it becomes a satchel; any other is discarded. The pair controller has no use for a claim command. -/
def State.hlDeliver (s : State) (n v : Nat) (sub : HSubset) (bytes : List Byte) : State :=
  let body := bytes.drop (4 * popcount 4 sub.extMask)
  let op := leNat (slice body 0 1)
  let refused := sub.mu = 1 && !decide (s.rf Reg.fmtGen fmtGen_GMIN ≤ sub.fmtGen ∧ sub.fmtGen ≤ s.rf Reg.fmtGen fmtGen_GMAX)
  if refused ∧ ¬((v = 1 ∧ !(s.isShelf n && s.unitsDue n)) ∨ v = 3) then s.hlCount n 9
  else if v = 1 ∧ s.isShelf n ∧ s.unitsDue n then { s with unitIn := s.unitIn ++ [(n, body)] }
  else if v = 1 ∨ v = 3 then
    match s.hlAttach n sub bytes with
    | (s, fid, false) => s.raiseExc fid 0x11
    | (s, fid, true) => if v = 1 then s.hlSteer n fid else s.toGroup (s.rf Reg.pairCfg pairCfg_MIRROR_GROUP) fid
  else if v = 2 ∧ ((s.job (leNat (slice body 4 4) % 2 ^ 20)).isSome ∨ (leNat (slice body 4 4) = 0 ∧ Tab.get 0 s.pair.claims n ≠ 0)) then
    { s with shelfResps := s.shelfResps ++ [(n, body)] }
  else if s.pairOn ∧ n = 5 ∧ 0x10 ≤ op ∧ op ≤ 0x12 then s
  else if s.pairOn ∧ n = 5 ∧ 0x18 ≤ op ∧ op ≤ 0x1A then s.modPair fun p => { p with inbox := p.inbox ++ [body] }
  else s.fwReceive n v sub bytes

/-- HAMPER_MESSAGE_RECEIVE: the oldest whole message of a link is consumed, its buffers are freed, and it goes where R383
sends it. -/
def execHamperMessageReceive (link : Fin 6) (s : State) : Out :=
  if s.stopped then .next s else
  let n := link.val
  let l := s.hl n
  match l.rx with
  | [] => .next s
  | (v, sub, bytes, flits) :: rest =>
    let s := s.setHl n { l with rx := rest }
    let c := s.hvc n v
    done ((s.setHvc n v { c with freed := (c.freed + flits) % 1024 }).hlDeliver n v sub bytes)

end Sys2Proof.Machine
end

