-- ==== Sys2Proof/Machine/HostLinks.lean ====
section
/-! DEFINITION. Host links: completions and their failures, configuration writes, resets, link loss, errors
(R293 to R319). -/

namespace Sys2Proof.Machine

/-! ### Reads of host memory (R310 to R313) -/

/-- IMG_WRITE's data has arrived, or its read has failed: the bytes go to the flash slot and the command ends. The key
is 4096 × offset + 256 × channel + TAG. The spec gives no status for a failed read: it is a free value. -/
def State.imgData (s : State) (key : Nat) (bs : Option (List Byte)) : State :=
  let ch := fld key 8 4
  match s.hostCmds.find? fun c => c.ch = ch ∧ c.tag = key % 256 ∧ c.op = 0x40 with
  | none => s
  | some c =>
    let s := { s with hostCmds := s.hostCmds.erase c }
    match bs with
    | some bs => (s.emit (.flash c.loc (key / 4096) bs)).cmdFinish ch 0x40 c.tag csOk []
    | none => ({ s with free := s.free + 1 }).cmdFinish ch 0x40 c.tag (Config.freeByte s.free).toNat []

/-- A buffer read of a chain on its way to an ingest job has failed: that job ends HOST_ERR, besides the queue's stop
(R276, R310). -/
def State.jobHostErr (s : State) (k : Nat) : State :=
  match s.qp k with
  | none => s
  | some q =>
    let d := q.chain.headD []
    let c := leNat (slice d 0x10 4)
    let dst := if bit (txFlags d) 3 then fld (leNat (slice d 0x14 4)) 0 10 else q.dst
    let open_ := match s.job c with
      | some j => j.kind = 3 && j.inst = k / 256
      | none => false
    if dst = epShelfSet && open_ then s.endJob c 0x0D else s

/-- Hand a finished read, or its failure, to its consumer (R310). -/
def State.readDone (s : State) (kind : ReadKind) (key : Nat) (bs : Option (List Byte)) : State :=
  match kind with
  | .ferry => s.ferryData key bs
  | .cipher => s.ciphData key bs
  | .txDesc => s.txDescData key bs
  | .txData => (if bs.isNone then s.jobHostErr key else s).txDataData key bs
  | .bufDesc => s.bufDescData key bs
  | .ctrlBlock => s.ctrlBlockData key bs
  | .imgWrite => s.imgData key bs

/-- A read fails to its consumer. -/
def State.failRead (s : State) (x : Nat) : State :=
  match Tab.find s.xfers x with
  | none => s
  | some r => ({ s with xfers := Tab.del s.xfers x }).readDone r.kind r.key none

/-- Replace or free a tag. -/
def State.setTag (s : State) (h tag : Nat) (t : Option Tag) : State :=
  let l := s.host h
  match t with
  | some t => s.setHost h { l with tags := Tab.put l.tags tag t }
  | none => (s.setHost h { l with tags := Tab.del l.tags tag }).wakeReads

/-- Data of one piece of a read: the next piece is issued, or the whole is delivered. -/
def State.pieceData (s : State) (x len : Nat) (data : List Byte) : State :=
  match Tab.find s.xfers x with
  | none => s
  | some r =>
    let r := { r with got := r.got ++ slice data 0 len, addr := r.addr + len, left := r.left - len }
    if r.left = 0 then ({ s with xfers := Tab.del s.xfers x }).readDone r.kind r.key (some r.got)
    else
      let s := { s with xfers := Tab.put s.xfers x r }
      if s.canIssue r.h r.fn r.pasid then s.issuePiece x else s.failRead x

/-- An outstanding read times out: it fails at once, and its tag is quarantined until 2T after the timeout (R311). -/
def State.cplTimesOut (s : State) (h tag : Nat) : State :=
  match Tab.find (s.host h).tags tag with
  | none => s
  | some t =>
    match t.st, t.timeout with
    | .outstanding, some T =>
      if s.elapsed t.issued T then
        let s := (s.hostCount h 2).aer h t.fn .cplTimeout true
        let s := s.setTag h tag (some { t with st := .quarantined (t.issued + 3 * T) })
        s.failRead t.xfer
      else s
    | _, _ => s

/-- A completion arrives for a tag (R310 to R313, R319). -/
def State.hostCpl (s : State) (h tag status : Nat) (poisoned : Bool) (data : List Byte) : State :=
  if !(s.host h).up then s else
  let s := s.cplTimesOut h tag
  match Tab.find (s.host h).tags tag with
  | none => s.aerBoth h .unexpectedCpl true
  | some t =>
    match t.st with
    | .dead till =>
      let s := s.setTag h tag none
      if till ≤ s.ictNs then s.aerBoth h .unexpectedCpl true else s.hostCount h 4
    | .quarantined till =>
      let s := s.setTag h tag none
      if till ≤ s.ictNs then s.aerBoth h .unexpectedCpl true
      else (s.hostCount h 3).aer h t.fn .unexpectedCpl true
    | .outstanding =>
      let s := s.setTag h tag none
      if t.discard then (s.hostCount h 13).failRead t.xfer
      else if status ≠ 0 then
        let s := if status = 1 then s.cfgOr h t.fn 1 (2 ^ 29) else if status = 4 then s.cfgOr h t.fn 1 (2 ^ 28) else s
        (s.hostCount h 5).failRead t.xfer
      else if poisoned then
        let s := if bit (s.cfg h t.fn 1) 6 then s.cfgOr h t.fn 1 (2 ^ 24) else s
        ((s.hostCount h 6).aer h t.fn .poisoned true).failRead t.xfer
      else s.pieceData t.xfer t.len data

/-- A tag leaves quarantine, or a dead tag becomes free, when its time has passed. -/
def State.tagExpires (s : State) (h tag : Nat) : State :=
  match Tab.find (s.host h).tags tag with
  | none => s
  | some t =>
    match t.st with
    | .quarantined till => if till ≤ s.ictNs then s.setTag h tag none else s
    | .dead till => if till ≤ s.ictNs then s.setTag h tag none else s
    | .outstanding => s

/-- Every outstanding or quarantined tag of the functions `fns` of a link becomes dead (R313), and the reads fail. -/
def State.killTags (s : State) (h : Nat) (fns : List Nat) : State :=
  let l := s.host h
  let now := s.ictNs
  let kill := fun (t : Tag) =>
    if fns.contains t.fn then
      match t.st with
      | .dead _ => t
      | _ => { t with st := .dead (now + 2 * t.timeout.getD 50000000) }
    else t
  let s := s.setHost h { l with tags := l.tags.map fun e => (e.1, kill e.2) }
  let mine := s.xfers.filter fun e => e.2.h = h ∧ fns.contains e.2.fn
  let ids := mine.map fun e => e.1
  let s := { s with readQ := s.readQ.filter fun x => !ids.contains x }
  ids.foldl State.failRead (fns.foldl (fun s fn => s.dropWrites h fn) s)

/-- HOST.TAG_STATUS as read. -/
def State.tagStatus (s : State) (h : Nat) : Nat :=
  let n := fun (p : TagState → Bool) => ((s.host h).tags.filter fun e => p e.2.st).length
  let out := n fun t => match t with
    | .outstanding => true
    | _ => false
  let q := n fun t => match t with
    | .quarantined _ => true
    | _ => false
  let d := n fun t => match t with
    | .dead _ => true
    | _ => false
  out + 2 ^ 12 * q + 2 ^ 24 * d

/-- HOST_COMPLETION: the completion of a read, whole, with its status (0 successful, 1 UR, 2 CRS, 4 CA). -/
def execHostCompletion (h : Fin 2) (tag : BitVec 14) (status : BitVec 3) (poisoned : Bool) (data : List Byte) (s : State) : Out :=
  done (s.hostCpl h.val tag.toNat status.toNat poisoned data)

/-- COMPLETION_TIMEOUT. -/
def execCompletionTimeout (h : Fin 2) (tag : BitVec 14) (s : State) : Out := done (s.cplTimesOut h.val tag.toNat)

/-- TAG_QUARANTINE_EXPIRE. -/
def execTagQuarantineExpire (h : Fin 2) (tag : BitVec 14) (s : State) : Out := done (s.tagExpires h.val tag.toNat)

/-! ### Resets (R312 to R314) -/

/-- The instances created on a link. -/
def State.linkInsts (s : State) (h : Nat) : List Nat :=
  (s.insts.filter fun e => e.1 ≠ 0 ∧ e.2.st ≠ .free ∧ e.2.link = h).map fun e => e.1

/-- Every instance bound to a link is reset, as VI_RESET without Pack-up; its commands end RESET (R313, R354). -/
def State.resetLinkInsts (s : State) (h : Nat) : State :=
  (s.linkInsts h).foldl (fun s i => (s.endCommands i).resetInst i) s

/-- Bus Master Enable of a function has been cleared (R312). -/
def State.bmeCleared (s : State) (h fn : Nat) : State :=
  let s := s.dropWrites h fn
  let l := s.host h
  let mark := fun (t : Tag) => if t.fn = fn ∧ t.st = .outstanding then { t with discard := true } else t
  let s := s.setHost h { l with tags := l.tags.map fun e => (e.1, mark e.2) }
  let ids := (s.xfers.filter fun e => e.2.h = h ∧ e.2.fn = fn).map fun e => e.1
  let s := { s with readQ := s.readQ.filter fun x => !ids.contains x }
  let s := if fn = 1 then
      ((s.qps.map fun e => e.1).filter fun k => s.qpLink k = h).foldl (fun s k => s.qpStop k 2 true) s
    else s
  ids.foldl State.failRead s

/-- The level causes of PF0.INT_CAUSE that hold are set again (R306). -/
def State.levelCauses (s : State) (h : Nat) : State :=
  let s := s.mbCheck
  if s.counterHalf then s.setCause h 2 else s

/-- Sticky dwords of configuration space (RWS of R8): AER and, of the power management register, the PME bits. -/
def cfgSticky (dw : Nat) : Bool := (65 ≤ dw && dw ≤ 74) || dw = 32

/-- Configuration space, MSI-X and message store of a function at reset values; `hard`: RWS fields too, and all that an
entry of the message store holds but its owner (R313, R314). -/
def State.fnReset (s : State) (h fn : Nat) (hard : Bool) : State :=
  let l := s.host h
  let pme := s.cfg h fn 17 &&& 0x8100
  let cfg := l.cfg.filter fun e => e.1 / 1024 ≠ fn ∨ (!hard && cfgSticky (e.1 % 1024))
  let keep := fun (e : Nat × IrqEntry) => (e.1, { owner := e.2.owner : IrqEntry })
  let clear := fun (e : Nat × IrqEntry) => (e.1, { e.2 with mask := true, pend := false })
  let l := if fn = 0 then { l with cfg := cfg, msix0 := [] }
    else { l with cfg := cfg, msix1 := l.msix1.map keep, store := l.store.map (if hard then keep else clear) }
  let s := s.setHost h l
  if hard then s else s.setCfg h fn 17 ((s.cfg h fn 17 &&& 0xFFFF7EFF) ||| pme)

/-- PF0.INT_CAUSE, PF0.INT_EN and the host's part of the mailboxes at reset values, INTA deasserted (R305, R307, R372). -/
def State.pf0Reset (s : State) (h : Nat) : State :=
  let s := ((s.wr (Reg.intCause h) 0).wr (Reg.intEn h) 0).mbFlr h
  (s.updateInta h).levelCauses h

/-- Initiate Function Level Reset (R313). -/
def State.flrStart (s : State) (h fn : Nat) : State :=
  let l := s.host h
  let s := s.setHost h { l with flr := BitVec.ofNat 2 (setFld l.flr.toNat fn 1 1) }
  let s := ((s.hostEvent h fn).killTags h [fn]).updateInta h
  if fn = 1 then s.resetLinkInsts h else s

/-- A function-level reset completes. -/
def State.flrEnd (s : State) (h fn : Nat) : State :=
  if !(s.host h).flr.getLsbD fn then s else
    let s := s.fnReset h fn false
    let l := s.host h
    let s := s.setHost h { l with flr := BitVec.ofNat 2 (setFld l.flr.toNat fn 1 0) }
    (if fn = 0 then s.pf0Reset h else s).wakeReads

/-- HOST.LINK_STATUS while there is no link. -/
def State.linkGone (s : State) (h : Nat) : State :=
  let s := s.setHost h { s.host h with up := false, lostAt := s.ictNs }
  s.wr (Reg.linkStatus h) 0

/-- The effects of PERST on what the block holds (R314): tags dead, instances reset, both functions reset. -/
def State.perstEffects (s : State) (h : Nat) : State :=
  let s := (s.hostEvent h 4).killTags h [0, 1]
  let s := s.resetLinkInsts h
  let s := (s.fnReset h 0 true).fnReset h 1 true
  let l := s.host h
  (s.setHost h { l with flr := 0 }).pf0Reset h

/-- PERST_ASSERT: in P2 and P3 the effects wait for the exit (R419); without power, or with PORST_N low, only the pin changes
(R452). -/
def execPerstAssert (h : Fin 2) (s : State) : Out :=
  let k := h.val
  if !s.pins.perstN[k] then .next s else
    let s : State := { s with pins := { s.pins with perstN := s.pins.perstN.set k false } }
    if s.boot.phase = .off then .next s else
    let s := s.linkGone k
    done ((if 2 ≤ s.pstate then
        { s with power := { s.power with perst := BitVec.ofNat 2 (setFld s.power.perst.toNat k 1 1) } }
      else s.perstEffects k).pairUpdate)

/-- PERST_RELEASE: WAKE_N is released, and in P3 the release is a wake (R410, R412). -/
def execPerstRelease (h : Fin 2) (s : State) : Out :=
  let k := h.val
  if s.pins.perstN[k] then .next s else
    let s : State := { s with pins := { s.pins with perstN := s.pins.perstN.set k true, wakeLow := false } }
    .next (if s.entering 3 then s.latchWake (3 + k) 0 0 0 else s)

/-- HOST_LINK_UP: link training ends with a speed (1 to 6), a width (1, 2, 4, 8 or 16 lanes) and Flit mode, which is
always used at 64.0 GT/s (R293). -/
def execHostLinkUp (h : Fin 2) (speed : Fin 7) (width : Fin 17) (flit : Bool) (s : State) : Out :=
  let k := h.val
  let booted := match s.boot.phase with
    | .off => false
    | .monitors => false
    | _ => true
  if !(s.pins.perstN[k] && booted && decide (s.pstate < 3) && decide (speed.val ≠ 0) && [1, 2, 4, 8, 16].contains width.val) then .next s else
    let s := s.wr (Reg.linkStatus k) (BitVec.ofNat 32 (speed.val + 8 * width.val + 256 * b2n (flit || speed.val = 6) + 512))
    .next (s.setHost k { s.host k with up := true }).pairUpdate

/-- HOST_LINK_LOSS: the link is lost without PERST (R314). -/
def execHostLinkLoss (h : Fin 2) (s : State) : Out :=
  let k := h.val
  if !((s.host k).up && s.pins.perstN[k]) then .next s else
    let s := ((s.linkGone k).hostCount k 14).hostEvent k 5
    done ((s.killTags k [0, 1]).resetLinkInsts k).pairUpdate

/-! ### Configuration writes (R295 to R297, R312, R313, R410) -/

/-- The writable bits of a configuration dword, and those cleared by writing one. -/
def cfgMasks (fn dw : Nat) : Nat × Nat :=
  match dw with
  | 1 => (if fn = 0 then 0x546 else 0x146, 0xF9000000)
  | 3 => (0xFF, 0)
  | 4 => (if fn = 0 then 0xFF000000 else 0xFE000000, 0)
  | 5 => (0xFFFFFFFF, 0)
  | 15 => (if fn = 0 then 0xFF else 0, 0)
  | 17 => (0x100, 0x8000)
  | 22 => (0x71FF, 0xF0000)
  | 24 => (0xC3, 0)
  | 30 => (0x101F, 0)
  | 98 => (if fn = 0 then 0x80000000 else 0, 0)
  | 32 => (if fn = 0 then 0x1F else 0, 0)
  | 44 => (0xC0000000, 0)
  | 65 => (0, 0x17F010)
  | 66 => (0x17F010, 0)
  | 67 => (0x17F010, 0)
  | 68 => (0, 0xB1C1)
  | 69 => (0xB1C1, 0)
  | 152 => (0x4, 0)
  | 155 => (if fn = 1 then 0x10000 else 0, 0)
  | _ => (0, 0)

/-- The bit mask of a byte-enable pattern. -/
def beMask (be : Nat) : Nat :=
  (List.range 4).foldl (fun m i => if bit be i then m + 0xFF * 2 ^ (8 * i) else m) 0

/-- With PASID Enable of PF1 clear, the reads that need a PASID and have not been issued fail (R300, R310). -/
def State.pasidRefused (s : State) (h : Nat) : State :=
  if s.pasidEn h then s else
    let ids := s.readQ.filter fun x => match Tab.find s.xfers x with
      | some r => r.h = h && r.pasid ≠ 0
      | none => false
    let s := { s with readQ := s.readQ.filter fun x => !ids.contains x }
    ids.foldl State.failRead s

/-- A configuration write past the check for a reset in progress. -/
def State.cfgWriteEffect (s : State) (h fn dw be v : Nat) : State :=
  let m := beMask be
  let r := cfgMasks fn dw
  let old := s.cfg h fn dw
  let rw := r.1 &&& m
  let new := ((old &&& (0xFFFFFFFF ^^^ rw)) ||| (v &&& rw)) &&& (0xFFFFFFFF ^^^ (v &&& m &&& r.2))
  if dw = 22 ∧ bit (v &&& m) 15 then s.flrStart h fn
  else if dw = 17 then
    let ps := v % 4
    let new := if bit be 0 ∧ (ps = 0 ∨ ps = 3) then setFld new 0 2 ps else new
    let s := s.setCfg h fn dw new
    if old % 4 = new % 4 then s else ((((s.hostEvent h 6).wakeWrites h).sendPending h).updateInta h).wakeReads
  else
    let s := s.setCfg h fn dw new
    if dw = 1 then
      let s := if bit old 2 == bit new 2 then s
        else if bit new 2 then (s.hostEvent h (2 + fn)).wakeReads
        else (s.hostEvent h (2 + fn)).bmeCleared h fn
      (s.sendPending h).updateInta h
    else if dw = 44 then (s.sendPending h).updateInta h
    else if dw = 155 then s.pasidRefused h
    else s

/-- A configuration write to a function: in P2 a wake (R410); discarded while the function is in reset. -/
def State.cfgWrite (s : State) (h fn dw be v : Nat) : State :=
  if !(s.host h).up then s else
    let s := if s.entering 2 then s.latchWake (3 + h) 0 0 0 else s
    if (s.host h).flr.getLsbD fn then s else s.cfgWriteEffect h fn dw be v

/-- CONFIG_WRITE: byte enables `be`. -/
def execConfigWrite (h fn : Fin 2) (dw : Fin 1024) (be : BitVec 4) (v : W32) (s : State) : Out :=
  done (s.cfgWrite h.val fn.val dw.val be.toNat v.toNat)

/-- BME_CLEAR: a configuration write that clears Bus Master Enable. -/
def execBmeClear (h fn : Fin 2) (s : State) : Out :=
  done (s.cfgWrite h.val fn.val 1 1 (setFld (s.cfg h.val fn.val 1) 2 1 0 % 256))

/-- INITIATE_FUNCTION_LEVEL_RESET: a configuration write of 1 to that bit. -/
def execInitiateFlr (h fn : Fin 2) (s : State) : Out := done (s.cfgWrite h.val fn.val 22 2 0x8000)

/-- FLR_COMPLETE. -/
def execFlrComplete (h fn : Fin 2) (s : State) : Out := done (s.flrEnd h.val fn.val)

/-! ### Interrupt causes and errors (R306, R316) -/

/-- A write of PF0.INT_CAUSE: causes cleared; a level cause whose condition holds is set again (R306). -/
def State.intCauseWrite (s : State) (h v : Nat) : State :=
  let old := (s.rd (Reg.intCause h)).toNat
  let s := s.wr (Reg.intCause h) (BitVec.ofNat 32 (old &&& (0xFFFFFFFF ^^^ v)))
  (s.updateInta h).levelCauses h

/-- INT_CAUSE_CLEAR: a host write of PF0.INT_CAUSE. -/
def execIntCauseClear (h : Fin 2) (v : W32) (s : State) : Out :=
  .next (match s.barGate h.val 0 true with
    | some s => s
    | none => s.intCauseWrite h.val v.toNat)

/-- UNSUPPORTED_REQUEST: a request outside BAR0, I/O, AtomicOp, an unsupported message, or one in D3hot; `fn` 2: one
that belongs to no function, logged in both. -/
def execUnsupportedRequest (h : Fin 2) (fn : Fin 3) (posted : Bool) (s : State) : Out :=
  let k := h.val
  if !(s.host k).up then .next s else
    let t := if posted then s else s.emit (.completion k 1 [])
    if fn.val < 2 ∧ (s.host k).flr.getLsbD fn.val then .next t
    else if fn.val < 2 then .next (t.aer k fn.val .unsupported (!posted))
    else .next (t.aerBoth k .unsupported (!posted))

/-- A fatal link error, logged in both functions: Malformed TLP, Receiver Overflow, Flow Control Protocol Error, Data
Link Protocol Error; the message comes from the lowest function that reports it. -/
def State.aerFatal (s : State) (h b : Nat) : State :=
  let kind := fun fn => if bit (s.cfg h fn 67) b then 2 else 1
  let can := fun fn => !Nat.testBit (s.cfg h fn 66) b && (Nat.testBit (s.cfg h fn 22) (kind fn) || Nat.testBit (s.cfg h fn 1) 8)
  let t := [0, 1].foldl (fun t fn => (t.cfgOr h fn 65 (2 ^ b)).cfgOr h fn 22 (2 ^ (16 + kind fn))) s
  match [0, 1].find? can with
  | some fn => t.sendErr h fn (kind fn)
  | none => t

/-- A poisoned write to a BAR: discarded; Poisoned TLP Received is logged, and nothing during a reset of the function
(R313, R316). -/
def State.poisonedWrite (s : State) (h fn : Nat) : State :=
  if (s.host h).flr.getLsbD fn then s else s.aer h fn .poisoned true

/-- RECEIVER_ERROR: the link detects an error of R316. Kinds 0 to 5: Receiver Error, Bad TLP, Bad DLLP, Replay Timer
Timeout, REPLAY_NUM Rollover, Header Log Overflow; 6 to 9: Malformed TLP, Receiver Overflow, Flow Control Protocol
Error, Data Link Protocol Error; 10 and 11: a poisoned write to a BAR of PF0 or PF1. -/
def execReceiverError (h : Fin 2) (kind : Fin 12) (s : State) : Out :=
  if !(s.host h.val).up then .next s else
    .next (match kind.val with
      | 0 => s.aerCorr h.val 0
      | 1 => s.aerCorr h.val 6
      | 2 => s.aerCorr h.val 7
      | 3 => s.aerCorr h.val 12
      | 4 => s.aerCorr h.val 8
      | 5 => s.aerCorr h.val 15
      | 6 => s.aerFatal h.val 18
      | 7 => s.aerFatal h.val 17
      | 8 => s.aerFatal h.val 13
      | 9 => s.aerFatal h.val 4
      | 10 => s.poisonedWrite h.val 0
      | _ => s.poisonedWrite h.val 1)

end Sys2Proof.Machine
end

