-- ==== Sys2Proof/Machine/Power.lean ====
section
/-! DEFINITION. Power states, wake, retention (R403 to R419); alarms and fuse operations (R258, R428 to R433); reset by
PORST_N and REBOOT, and the boot sequence up to the image (R420, R421, R425, R426, R446). -/

namespace Sys2Proof.Machine

/-! ### What a reset keeps (R404, R426, R434, R446) -/

/-- The block without power or with PORST_N low: only the Trailbook, the Stile fuses and the level that pins are held at
from outside keep what they held. A record that was being written is torn (R439). -/
def State.powerless (s : State) (writing : Bool) : State :=
  let s := if writing then s.tbWrite true else s
  let tb := { s.tb with queue := [], tokens := 4096 * recToken, served := 0, fwData := [], wroteAt := none }
  let pins : Pins := { perstN := s.pins.perstN, porstN := s.pins.porstN, holdIn := s.pins.holdIn }
  let b : State := { pending := s.pending, free := s.free, out := s.out, tb := tb, fuses := s.fuses, pins := pins, boot := { phase := .off } }
  b

/-- PORST_ASSERT (R446). -/
def execPorstAssert (writing : Bool) (s : State) : Out :=
  let s := s.powerless writing
  .next { s with pins := { s.pins with porstN := false } }

/-- PORST_RELEASE: the Lantern starts with both time scales at zero, the straps are sampled, and the boot count counts
this release (R27, R425, R434). It is also how P4 ends (R404). -/
def execPorstRelease (sbMode : Bool) (sbAddr : BitVec 2) (s : State) : Out :=
  if s.pins.porstN then .next s else
    let pins := { s.pins with porstN := true, sbMode := sbMode, sbAddr := sbAddr }
    .next { s with pins := pins, boot := { phase := .monitors }, tb := { s.tb with bootCount := s.tb.bootCount + 1 }, clock := {} }

/-- Registers that a restart keeps: those of the Lantern and of the host islands, and the port counters, which return to
zero only on PORST_N and under R133 (R140, R426). -/
def keptAtReboot (a : Nat) : Bool :=
  a / 0x1000000 = 0 || a / 0x1000000 = 0x61 || a / 0x1000000 = 0x62
    || (1 ≤ a / 0x1000000 && a / 0x1000000 ≤ 0x20 && 0x2000 ≤ a % 0x1000000 && a % 0x1000000 < 0x2800)

/-- Restart at step 3 of the boot sequence (R426, R403, R416): the Lantern and the host links go on, READY is cleared,
every created instance is reset under the fence, every other island returns to reset. -/
def State.restart (s : State) : State :=
  let s := (s.linkInsts 0 ++ s.linkInsts 1).foldl (fun s i => s.resetInst i) s
  let boot : Boot := { phase := .monitors, reboot := true, force := s.boot.force }
  let power : Power := { perst := s.power.perst }
  let r : State := { pending := s.pending, free := s.free, out := s.out, mem := s.mem, clock := s.clock, tb := s.tb, boot := boot, power := power }
  let r : State := { r with pins := { s.pins with holdOut := false, wakeLow := false }, fuses := s.fuses, loaded := s.loaded, temps := s.temps, zeroising := s.zeroising, fuseOp := s.fuseOp }
  let r : State := { r with regs := s.regs.filter fun e => keptAtReboot e.1, held := s.held.filter fun e => keptAtReboot e.1 }
  let served := ((List.range 0x69).flatMap fun i => [i, 256 + i]).foldl (fun t k => Tab.set 0 t k s.micros) []
  let r : State := { r with served := served, pair := { eccWin := s.ictNs / 1000000000 } }
  let r : State := { r with insts := s.insts, qps := s.qps, hosts := s.hosts, nextXfer := s.nextXfer, mbIntEn := s.mbIntEn }
  let r := (r.setRf Reg.pwrStatus pwrStatus_CUR 0).setRf Reg.pwrStatus pwrStatus_BUSY 0
  (r.setRf Reg.pwrStatus pwrStatus_PEND_VALID 0).setDevStatus devStatus_READY 0

/-- A write of BOOT_CTL (R421, R426): REBOOT is ignored while a power transition runs. -/
def State.bootCtlWrite (s : State) (v : Nat) : State :=
  let s := if v % 4 = 3 then s else s.setRf Reg.bootCtl bootCtl_SLOT_OVERRIDE (v % 4)
  if bit v 2 ∧ s.rf Reg.pwrStatus pwrStatus_BUSY = 0 then s.restart else s

/-! ### Alarms (R258, R410, R431 to R433) -/

/-- An alarm of the Lantern: ACTIVE and SEEN, fail-closed, its record, its event at the stewards, and the first steps of
zeroisation. -/
def State.alarm (s : State) (code source reading : Nat) : State :=
  if code = 0 then s else
    let s := s.setRf Reg.alarmStatus ⟨code - 1, 1⟩ 1
    let s := s.setRf Reg.alarmStatus ⟨4 + code, 1⟩ 1
    let s := s.setRf Reg.alarmStatus alarmStatus_FAIL_CLOSED 1
    let s := s.recordFatal 0x0020 0 [(0, 1, code), (1, 1, source), (4, 4, reading)]
    let s := (s.setDevStatus devStatus_FAIL_CLOSED 1).raiseSource 0xA 0
    let s := { s with zeroising := some code }
    let s := if s.pstate = 3 then { s with power := { s.power with keysOff := true } } else s.closeCrypto
    s.latchWake 7 0 0 0

/-- ALARM: a condition of R432 begins, with its source and the reading that the record names. -/
def execAlarm (code : Fin 6) (source : Byte) (reading : W32) (s : State) : Out :=
  if s.boot.phase = .off then .next s else done ((s.alarm code.val source.toNat reading.toNat).pairUpdate)

/-- KEYSTORE_ZEROISED: the banks are cleared and the record written (R258 steps 7 and 8); in P3 this waits for the exit. -/
def State.zeroised (s : State) : State :=
  match s.zeroising with
  | some code =>
    if s.pstate = 3 then s else ({ s.zeroise with zeroising := none }).record 0x0021 0 [(0, 1, code)]
  | none => s

/-- KEYSTORE_ZEROISED. -/
def execKeystoreZeroised (s : State) : Out := .next s.zeroised

/-- ALARM_CONDITION_ENDS: ACTIVE of an alarm clears. -/
def execAlarmConditionEnds (code : Fin 6) (s : State) : Out :=
  .next (if code.val = 0 then s else s.setRf Reg.alarmStatus ⟨code.val - 1, 1⟩ 0)

/-- A write of ALARM_CTL.CLEAR (R433). -/
def State.alarmClear (s : State) : State :=
  let seen := s.rf Reg.alarmStatus alarmStatus_SEEN
  if s.rf Reg.alarmStatus alarmStatus_FAIL_CLOSED = 0 ∨ s.rf Reg.alarmStatus alarmStatus_ACTIVE ≠ 0 ∨ bit seen 3 then s else
    let s := s.setRf Reg.alarmStatus alarmStatus_FAIL_CLOSED 0
    let s := s.record 0x0022 0 [(0, 1, seen)]
    (s.setRf Reg.alarmStatus alarmStatus_SEEN 0).setDevStatus devStatus_FAIL_CLOSED 0

/-- The sensors' readings as ALARM_STATUS shows them: the highest, THERM_WARN from 100 °C, THERM_TRIP from 105 °C until
all are below 100 °C, THERM_N while THERM_TRIP holds (R431, R441). A sensor never heard of reads 0 °C. -/
def State.thermal (s : State) : State :=
  let ts := (List.range 16).map fun i => sgn 8 (Tab.get 0 s.temps i).toNat
  let top := ts.foldl max (-128)
  let warn := decide (100 ≤ top)
  let trip := decide (105 ≤ top) || (s.rf Reg.alarmStatus alarmStatus_THERM_TRIP = 1 && warn)
  let s := s.setRf Reg.alarmStatus alarmStatus_THERM_WARN (b2n warn)
  let s := s.setRf Reg.alarmStatus alarmStatus_THERM_TRIP (b2n trip)
  let s := s.setRf Reg.alarmStatus alarmStatus_TEMP_MAX (top % 256).toNat
  let s := { s with pins := { s.pins with thermLow := trip } }
  s.pairUpdate

/-- A sensor's reading. -/
def State.senses (s : State) (i : Nat) (t : Byte) : State := { s with temps := Tab.set 0 s.temps i t }

/-- THERM_WARN: a sensor reaches 100 °C. -/
def execThermWarn (sensor : Fin 16) (temp : Byte) (s : State) : Out :=
  let had := s.rf Reg.alarmStatus alarmStatus_THERM_WARN = 1
  let s := (s.senses sensor.val temp).thermal
  .next (if !had && s.rf Reg.alarmStatus alarmStatus_THERM_WARN = 1 then
      s.record 0x0023 0 [(0, 1, sensor.val), (1, 1, temp.toNat)]
    else s)

/-- THERM_TRIP: a sensor reaches 105 °C. -/
def execThermTrip (sensor : Fin 16) (temp : Byte) (s : State) : Out :=
  let had := s.rf Reg.alarmStatus alarmStatus_THERM_TRIP = 1
  let s := (s.senses sensor.val temp).thermal
  .next (if !had && s.rf Reg.alarmStatus alarmStatus_THERM_TRIP = 1 then
      s.recordFatal 0x0024 0 [(0, 1, sensor.val), (1, 1, temp.toNat)]
    else s)

/-- THERM_TRIP_WITHDRAWN: the sensors' readings, from sensor 0 on. -/
def execThermTripWithdrawn (temps : List Byte) (s : State) : Out :=
  .next ((List.range 16).foldl (fun s i =>
    match temps[i]? with
    | some t => s.senses i t
    | none => s) s).thermal

/-- CLEAR: a write of 1 to ALARM_CTL.CLEAR by a steward; only St0 and St1 reach the secure half (R19, R433). -/
def execAlarmClear (st : Fin 4) (s : State) : Out :=
  .next (s.writeBy (.steward st.val) Reg.alarmCtl 4 1 State.alarmClear)

/-! ### Fuse operations (R430) -/

/-- ROLLBACK_COMMIT answers when its ROLLBACK_SET ends (R427). The spec gives no status for one that is not DONE: it is
a free value. -/
def State.commitDone (s : State) (op code : Nat) : State :=
  match (if op = 2 then s.hostCmds.find? fun c => c.op = 0x42 else none) with
  | none => s
  | some c =>
    let s : State := { s with hostCmds := s.hostCmds.erase c }
    if code = 0 then s.cmdFinish c.ch 0x42 c.tag csOk []
    else ({ s with free := s.free + 1 }).cmdFinish c.ch 0x42 c.tag (Config.freeByte s.free).toNat []

/-- Commit LOAD_PAIR_KEY or end an operation: FUSE_RESULT, the fuses, and the record of PROGRAM_ROW and ROLLBACK_SET. -/
def State.fuseEnd (s : State) (readBackOk : Bool) : State :=
  match s.fuseOp with
  | none => s
  | some o =>
    let code := if o.code = 0 ∧ o.op ≠ 3 ∧ !readBackOk then 3 else o.code
    let s : State := { s with fuseOp := none }
    let s := if o.code ≠ 0 then s else if o.op = 3 then s.loadPairKey (o.data % 2 ^ 18) else if code = 0 then s.fuseApply o else s
    let s := (s.setRf Reg.fuseResult fuseResult_BUSY 0).setRf Reg.fuseResult fuseResult_CODE code
    let s := s.setRf Reg.bootStatus bootStatus_COUNTER s.rollbackCounter
    if o.op = 3 then s else
      (s.commitDone o.op code).record 0x0005 0 [(0, 1, o.op), (1, 1, if o.op = 1 then o.row else 0), (2, 1, s.rollbackCounter), (4, 4, o.data)]

/-- FUSE_PROGRAMMED: the operation in progress completes; a failed read-back ends it FAILED. -/
def execFuseProgrammed (readBackOk : Bool) (s : State) : Out := .next (s.fuseEnd readBackOk)

/-- A write of FUSE_CMD by a steward. -/
def State.fuseRequest (s : State) (st op row : Nat) : State :=
  s.writeBy (.steward st) Reg.fuseCmd 4 (row + 256 * op) fun s => s.fuseCmdWrite op row

/-- PROGRAM_ROW. -/
def execProgramRow (st : Fin 4) (row : Fin 256) (s : State) : Out := .next (s.fuseRequest st.val 1 row.val)
/-- ROLLBACK_SET. -/
def execRollbackSet (st : Fin 4) (s : State) : Out := .next (s.fuseRequest st.val 2 0)
/-- LOAD_PAIR_KEY. -/
def execLoadPairKey (st : Fin 4) (s : State) : Out := .next (s.fuseRequest st.val 3 0)

/-! ### Boot up to the image (R421, R425) -/

/-- The slot that the boot ROM tries first: SLOT_OVERRIDE, else a slot that IMG_ACTIVATE selected or PREFERRED, else 0. -/
def State.firstSlot (s : State) (preferred : Option Nat) : Nat :=
  let o := s.rf Reg.bootCtl bootCtl_SLOT_OVERRIDE
  match s.boot.force with
  | some n => n
  | none => if o ≠ 0 then o - 1 else preferred.getD 0

/-- Boot tries its first slot. -/
def State.tryFirst (s : State) (preferred : Option Nat) : State :=
  let n := s.firstSlot preferred
  let s := { s with boot := { s.boot with phase := .copying, first := n, slot := n, reasons := [] } }
  s.setRf Reg.bootStatus bootStatus_FALLBACK 0

/-- Steps 2 to 5 of the boot sequence: the fuses are loaded, with the resets they give; an uncorrectable row raises
alarm FUSE (R429); the boot ROM sets EVEC of every steward (R91). -/
def State.bootFuses (s : State) (preferred badRow : Option Nat) : State :=
  if s.boot.phase ≠ .monitors then s else
    let s := s.record 0x0001 0 [(0, 1, b2n s.boot.reboot)]
    let s := { s with loaded := s.fuses }
    let s := s.setRf Reg.pairCfg pairCfg_MODE (min 2 (s.fuseBits 2 2))
    let s := s.setRf Reg.bootStatus bootStatus_COUNTER s.rollbackCounter
    let s := [0, 1, 2, 3].foldl (fun s k => s.setStw k { s.stw k with evec := Config.bootEvec.setWidth 64 }) s
    let s := s.tryFirst preferred
    match badRow with
    | some r => s.alarm 5 r 0
    | none => s

/-- BOOT_MONITORS_READY: with the selector's PREFERRED slot where its magic is present, and a fuse row whose ECC fails. -/
def execBootMonitorsReady (preferred : Option (Fin 2)) (badRow : Option (Fin 256)) (s : State) : Out :=
  .next (s.bootFuses (preferred.map Fin.val) (badRow.map Fin.val))

/-- ENV_OUT_OF_SPEC: boot has waited 100 ms for its monitors. -/
def execEnvOutOfSpec (monitor : Fin 10) (reading : W32) (s : State) : Out :=
  .next (if s.boot.phase = .monitors ∧ !s.boot.reboot ∧ !s.boot.envRecorded ∧ s.elapsed 0 100000000 then
      ({ s with boot := { s.boot with envRecorded := true } }).record 0x0006 0 [(0, 1, monitor.val), (4, 4, reading.toNat)]
    else s)

/-- BOOT_RETRY: 10 s after both slots were rejected, both are tried again. -/
def execBootRetry (preferred : Option (Fin 2)) (s : State) : Out :=
  .next (if s.boot.phase = .failed ∧ s.elapsed s.boot.failedAt 10000000000 then s.tryFirst (preferred.map Fin.val) else s)

/-- REBOOT: a write of 1 to BOOT_CTL.REBOOT by a steward. -/
def execReboot (st : Fin 4) (s : State) : Out :=
  let v := s.rf Reg.bootCtl bootCtl_SLOT_OVERRIDE + 4
  .next (s.writeBy (.steward st.val) Reg.bootCtl 4 v fun s => s.bootCtlWrite v)

/-! ### Power requests (R407 to R409) -/

/-- A WAIT.PWR ends with an outcome: rd takes the code, and stewards with the Lantern's event bound learn of it. -/
def State.powerEnd (s : State) (who code : Nat) : State :=
  let t := s.thr (2048 + who)
  let s := match t.run with
    | .waitPwr rd => s.setThr (2048 + who) { t with r := t.r.set rd (BitVec.ofNat 64 code), run := .ready }
    | _ => s
  s.raiseSource 0xA 0

/-- Does a host link meet the condition of a state (R409)? -/
def State.hostQuiet (s : State) (h target : Nat) : Bool :=
  !(s.pins.perstN.toList.getD h false) || !(s.host h).up
    || (target = 2 && s.dstate h 0 = 3 && s.dstate h 1 = 3)

/-- The supply of an island in P0 and P1: ports and Hamper links named in TRIM_CFG are off in P1 (R406). -/
def State.trimmedOff (s : State) (i : Nat) : Bool :=
  s.pstate = 1 && ((1 ≤ i && i ≤ 0x20 && bit (s.rf Reg.trimCfg trimCfg_OFF_PORT) (i - 1))
    || (0x63 ≤ i && i ≤ 0x68 && bit (s.rf Reg.trimCfg trimCfg_OFF_HL) (i - 0x63) && !(i = 0x68 && s.pairOn)))

/-- A port or Hamper link loses its supply. -/
def State.islandFalls (s : State) (i : Nat) : State :=
  let s := s.setIsland i { s.island i with power := IslandPower.off, aligned := false }
  if i ≤ 0x20 then (List.range 8).foldl (fun s k => s.linkFall (i - 1) k) s
  else if 0x63 ≤ i ∧ i ≤ 0x68 then (s.hlLose (i - 0x63)).1 else s

/-- The islands that TRIM_CFG names follow it: off in P1 once no crossing of theirs holds a transfer (R26), on otherwise;
gating ends outside P1. -/
def State.trimApply (s : State) : State :=
  let s := if s.pstate = 1 then s
    else { s with isl := s.isl.map fun e => (e.1, if e.2.power = .gated then { e.2 with power := .on } else e.2) }
  ((List.range 0x20).map (· + 1) ++ (List.range 6).map (· + 0x63)).foldl (fun s i =>
    let off := decide ((s.island i).power = IslandPower.off)
    if s.trimmedOff i then (if off || s.islandCrossing i then s else s.islandFalls i)
    else if off then s.setIsland i { s.island i with power := .on } else s) s

/-- In P1 the power controller switches off, at each tick, the named islands whose crossings have emptied (R26, R406). -/
def State.trimFollow (s : State) : State :=
  if s.pstate = 1 ∧ s.power.trans.isNone ∧
      ((List.range 0x69).any fun i => s.trimmedOff i && !s.islandCrossing i && decide ((s.island i).power ≠ IslandPower.off)) then
    s.trimApply.pairUpdate
  else s

/-- An island of the kinds that P1 gates (R406). -/
def gateable (i : Nat) : Bool := (0x21 ≤ i && i ≤ 0x40) || (0x42 ≤ i && i ≤ 0x51) || (0x53 ≤ i && i ≤ 0x5C)

/-- In P1 the power controller notes at each tick which islands are busy (R406). -/
def State.noteBusy (s : State) : State :=
  if s.pstate = 1 then (List.range 0x69).foldl (fun s i =>
    if gateable i && !s.islandIdle i then s.setIsland i { s.island i with busyAt := s.ictNs } else s) s
  else s

/-- LANTERN_TICK: the time base advances; in P1 the power controller follows TRIM_CFG and notes busy islands. -/
def execLanternTick (s : State) : Out := .next (if s.boot.phase = .off then s else s.tick.trimFollow.noteBusy)

/-- A write of TRIM_CFG: IDLE 0 is stored as 1, and in P1 the islands follow (R406). -/
def State.trimCfgSet (s : State) (v : Nat) : State :=
  let v := if fld v 38 10 = 0 then setFld v 38 10 1 else v
  let s := s.wrN Reg.trimCfg 2 (v % 2 ^ 48)
  if s.pstate = 1 then s.trimApply.pairUpdate else s

/-- TRIM_CFG_WRITE. -/
def execTrimCfgWrite (v : W64) (s : State) : Out := done (s.rowWrite Reg.trimCfg 8 v.toNat fun s => s.trimCfgSet v.toNat)

/-- Start a transition for a steward's request (R408, R411, R417). An entry to P2 or deeper clears the latches, arms the
sources, raises the power-entry trigger (R394, R419), and ends at once where a host link is busy. -/
def State.startEntry (s : State) (who target : Nat) : State :=
  let cur := s.pstate
  if target < 2 then
    let s := s.setRf Reg.pwrStatus pwrStatus_BUSY 1
    { s with power := { s.power with trans := some ⟨true, target, who, false, s.ictNs⟩ } }
  else
    let s := (s.setRf Reg.pwrStatus pwrStatus_BUSY 1).setRf Reg.pwrStatus pwrStatus_RESUME cur
    let s := s.wr Reg.wakeLatch 0
    let links := (List.range 32).foldl (fun t p => Tab.set 0 t p (s.rf (Reg.portStatus p) portStatus_LINK)) []
    let s := { s with power := { s.power with trans := some ⟨true, target, who, false, s.ictNs⟩, armed := true, firstWake := 0, linksAt := links } }
    if !s.hostQuiet 0 target || !s.hostQuiet 1 target then
      let s := (s.latchWake 8 0 0 0).setRf Reg.pwrStatus pwrStatus_LAST_WAKE 8
      let s := { s with power := { s.power with trans := none, armed := false } }
      (s.setRf Reg.pwrStatus pwrStatus_BUSY 0).powerEnd who 3
    else
      let s := { s with pair := { s.pair with powerTrig := true } }
      let s := s.pairUpdate
      let t := s.rdN Reg.wakeTimer 2
      if t ≠ 0 ∧ t ≤ s.ictNs then s.latchWake 5 0 0 0 else s

/-- The pending request runs once no transition is in progress. -/
def State.runPending (s : State) : State :=
  match s.power.pend with
  | none => s
  | some (target, who) =>
    let s : State := { s with power := { s.power with pend := none } }
    let s := s.setRf Reg.pwrStatus pwrStatus_PEND_VALID 0
    if target = s.pstate then s.powerEnd who 2 else s.startEntry who target

/-- A request reaches the controller (R407, R408). -/
def State.powerRequest (s : State) (who : Nat) : State :=
  let target := s.rf Reg.pwrMode pwrMode_TARGET
  if s.power.trans.isNone ∧ s.power.inState.isNone then
    if target = s.pstate then s.powerEnd who 2 else s.startEntry who target
  else
    let s := match s.power.pend with
      | some (_, old) => s.powerEnd old 1
      | none => s
    let s := { s with power := { s.power with pend := some (target, who) } }
    (s.setRf Reg.pwrStatus pwrStatus_PEND_TARGET target).setRf Reg.pwrStatus pwrStatus_PEND_VALID 1

/-! ### Entry (R414, R417) -/

/-- The idle times of P1 begin when it is reached (R406). -/
def State.markBusy (s : State) : State :=
  if s.pstate = 1 then (List.range 0x69).foldl (fun s i =>
    if gateable i then s.setIsland i { s.island i with busyAt := s.ictNs } else s) s
  else s

/-- Links of every port for which `f` holds fall. -/
def State.linksFall (s : State) (f : Nat → Bool) : State :=
  (List.range 32).foldl (fun s p => if s.rf (Reg.portStatus p) portStatus_LINK = 0 || !f p then s
    else (List.range 8).foldl (fun s k => s.linkFall p k) s) s

/-- P3: every domain but the Lantern off; the receive path and filters of ports that listen stay on with their links
(R405), other links fall, and what partly crossed a Hamper link is gone. Registers and threads are in retention cells. -/
def State.enterDormant (s : State) : State :=
  let s := s.linksFall fun p => !s.listens p
  let s := (List.range 6).foldl (fun s n => (s.hlDrop n).1) s
  ((List.range 0x68).map (· + 1)).foldl (fun s i => s.setIsland i { power := .off, aligned := false }) s

/-- Is a read of host memory outstanding? -/
def State.readsOut (s : State) : Bool := s.hosts.any fun e => e.2.tags.any fun t => t.2.st = .outstanding

/-- POWER_ENTRY_COMPLETE: P0 and P1 are reached and the request ends DONE; P2 and P3 are reached, and a latched wake is
replayed; P4 takes the power from everything. P2 to P4 are reached only once every crossing is empty and no host read is
outstanding (R26, R417 step 3): until then the entry goes on, and reads outstanding at 1.0 ms are declared dead. -/
def State.entryDone (s : State) : State :=
  match s.power.trans with
  | none => s
  | some t =>
    if !t.entry then s
    else if t.target < 2 then
      let s := { s with power := { s.power with trans := none } }
      let s := (s.setRf Reg.pwrStatus pwrStatus_CUR t.target).setRf Reg.pwrStatus pwrStatus_BUSY 0
      (s.markBusy.trimApply.pairUpdate.powerEnd t.who 0).runPending
    else
    let s := if s.elapsed t.since 1000000 then (s.killTags 0 [0, 1]).killTags 1 [0, 1] else s
    if s.crossing || s.readsOut then s
    else if t.target = 4 then
      let p := s.powerless false
      { p with pins := { p.pins with porstN := false } }
    else
      let s := if t.target = 3 then s.enterDormant else s
      let s := (s.setRf Reg.pwrStatus pwrStatus_CUR t.target).setRf Reg.pwrStatus pwrStatus_BUSY 0
      let s := { s with power := { s.power with trans := none, inState := some t.who, outcome := if t.woken then 3 else 0 } }
      if t.woken then s.startExit else s

/-- Groups of output pins (R418). -/
inductive OutPins where
  | portTx (p : Fin 32) | hamperTx (n : Fin 6) | holdOut | pcieTx (h : Fin 2) | qspi | sideband | wakeN | other
deriving DecidableEq, Repr

/-- Do the pins float: the outputs of a domain that is off, and in P2 those of QSPI and the sideband (R418)? -/
def State.floats (s : State) (g : OutPins) : Bool :=
  let off := decide (s.boot.phase = .off)
  match g with
  | .portTx p => off || s.pstate = 3 || (s.pstate = 1 && (s.island (1 + p.val)).power = .off)
  | .hamperTx n => off || s.pstate = 3 || (s.pstate = 1 && (s.island (0x63 + n.val)).power = .off)
  | .holdOut => off || s.pstate = 3 || (s.pstate = 1 && (s.island 0x68).power = .off)
  | .pcieTx _ => off || s.pstate = 3
  | .qspi => off || 2 ≤ s.pstate
  | .sideband => off || 2 ≤ s.pstate
  | .wakeN => off
  | .other => off

/-- POWER_ENTRY_COMPLETE. -/
def execPowerEntryComplete (s : State) : Out := done s.entryDone

/-- WAKE_EVENT: the source with a code of R410 has an event; for SIGNAL and PATTERN the port is not named. -/
def execWakeEvent (code : Fin 9) (s : State) : Out := .next (s.latchWake code.val 0 0 0)

/-- WAKE_TIMER: ICT has reached LANTERN.WAKE_TIMER. -/
def execWakeTimer (s : State) : Out :=
  let t := s.rdN Reg.wakeTimer 2
  .next (if t ≠ 0 ∧ t ≤ s.ictNs then s.latchWake 5 0 0 0 else s)

/-! ### Exit (R415 to R417) -/

/-- A bank's bytes are zeroed with valid ECC. -/
def State.zeroBank (s : State) (b : Nat) : State := { s with mem := s.mem.filter fun e => bankOf e.1 ≠ some b }

/-- Frames lost with a bank: gone from every place that holds cells or queue entries of them, counted in RET_DISCARD. -/
def State.dropFrames (s : State) (fids : List Nat) : State :=
  let keep := fun (x : Nat) => !fids.contains x
  let cells := fun (t : Tab (List Cell)) => t.map fun e => (e.1, e.2.map fun c => { c with segs := c.segs.filter fun x => keep x.fid })
  let fb := { s.fabric with entry := cells s.fabric.entry, mid := cells s.fabric.mid, reasm := cells s.fabric.reasm }
  let q := fun (x : OutQ) => ({ x with chip := x.chip.filter fun y => keep y.fid, cool := x.cool.filter fun y => keep y.fid } : OutQ)
  let lost := fun (x : OutQ) => x.chip.head?.any fun y => !keep y.fid
  let qs := s.outQs.map fun e => (e.1, { (q e.2).settle with retag := e.2.retag || lost e.2 })
  let s := { s with fabric := fb, outQs := qs }
  fids.foldl (fun s fid => (s.fabCount 14).discard fid) s

/-- The frames with a cell in packet buffer memory `j`: entry buffer j, middle buffer j, output store j (R183). -/
def State.memFrames (s : State) (j : Nat) : List Nat :=
  let inCells := fun (t : Tab (List Cell)) (p : Nat → Bool) =>
    (t.filter fun e => p e.1).flatMap fun e => e.2.flatMap fun c => c.segs.map fun x => x.fid
  (inCells s.fabric.entry (fun k => k = j) ++ inCells s.fabric.mid (fun k => k / 64 = j)
    ++ inCells s.fabric.reasm (fun k => k / 2 % 32 = j)
    ++ s.outQs.flatMap fun e => (e.2.chip.filter fun x => x.mem = j).map fun x => x.fid).eraseDups

/-- The bank of the queue state of output-store queue `q`, in address order (R413): eight equal parts. -/
def queueBank (q : Nat) : Nat := 96 + min 7 (q / 40960)
/-- The bank of the ring state of device-wide transmit queue `t`. -/
def ringBank (t : Nat) : Nat := 96 + t / 8192

/-- The jobs whose contexts lie in a bank end LOST (R263, R292). -/
def State.loseContexts (s : State) (b : Nat) : State :=
  ((s.jobs.map fun e => e.1).filter fun c => (s.ctxAddr c).bind bankOf = some b).foldl (fun s c => s.endJob c 0x0A) s

/-- The consequences of a mark on a bank (R416). -/
def State.bankEffect (s : State) (b : Nat) : State :=
  let s := (s.zeroBank b).ferryLose b
  if b < 32 then s.dropFrames (s.memFrames b)
  else if b < 48 then s.loseContexts b
  else if b < 80 then s
  else if b < 96 then s.setCluster (b - 80) { s.cluster (b - 80) with halted := true }
  else if b < 104 then
    let s := ((s.qps.filter fun e => ringBank e.2.txq = b).map fun e => e.1).foldl (fun s k => s.qpStop k 7 true) s
    s.dropFrames ((s.outQs.filter fun e => queueBank e.1 = b).flatMap fun e => (e.2.chip ++ e.2.cool).map fun x => x.fid)
  else if b < 168 then s.loseKeyBank (b - 104)
  else if b < 176 then
    let isl := 0x53 + (b - 168)
    let lose := fun (j : CiphJob) => if j.eng.map (· / 8) = some (b - 168) && j.fail.isNone then { j with fail := some 9 } else j
    { s with ciphJobs := s.ciphJobs.map lose, regs := s.regs.filter fun e => !decide (e.1 / 0x1000000 = isl ∧ 0x800000 ≤ e.1 % 0x1000000) }
  else if b = 176 then s
  else (s.loseContexts b).dropFrames (s.outQs.flatMap fun e => (e.2.cool.map fun x => x.fid))

/-- The check of one bank (R415): intact, LOST with its cause and record, or DROPPED where P3 did not retain it. -/
def State.bankCheck (s : State) (fromP3 : Bool) (checks : List BankCheck) (b : Nat) : State :=
  let kept := !fromP3 || 176 < b || bit (s.rd (Reg.retSel (b / 32))).toNat (b % 32)
  let c := checks.find? fun c => c.bank.val = b
  let old := (s.rd (Reg.retStatus b)).toNat % 4
  let noKeys := s.power.keysOff && decide (104 ≤ b ∧ b < 168)
  if noKeys then s
  else if !kept then (s.wr (Reg.retStatus b) (BitVec.ofNat 32 (setFld old 1 1 1))).bankEffect b
  else match c with
    | none => if old = (s.rd (Reg.retStatus b)).toNat then s else s.wr (Reg.retStatus b) (BitVec.ofNat 32 old)
    | some c =>
      let canary := c.canaryBad && decide (b < 177)
      let bad := canary || c.eccUncorr
      let v := (if bad then setFld old 0 1 1 else old) + 4 * b2n canary + 8 * b2n c.eccUncorr + 65536 * min 0xFFFF c.corrected
      let s := s.wr (Reg.retStatus b) (BitVec.ofNat 32 v)
      if !bad then s else
        let d := [(0, 2, b), (2, 1, 0xFF), (3, 1, b2n canary + 2 * b2n c.eccUncorr)]
        let s := if b = 176 then s.recordFatal 0x0011 0 d else s.record 0x0011 0 d
        s.bankEffect b

/-- The end of an exit: deferred PERST (R419), alarm handling (R410), supplies, PM_PME from P2 (R412), WAIT.PWR returns,
POWER_STATE, Ferry channels that were running, and the pending request. A Hamper link has not missed the flits that its
stopped clock could not see. -/
def State.exitEnd (s : State) (was : Nat) (who : Nat) : State :=
  let wake := s.power.firstWake
  let resume := s.rf Reg.pwrStatus pwrStatus_RESUME
  let s := (s.setRf Reg.pwrStatus pwrStatus_CUR resume).setRf Reg.pwrStatus pwrStatus_BUSY 0
  let s := if was = 3 then { s.linksFall (fun _ => true) with isl := s.isl.filter fun e => e.1 = 0 } else s
  let s := s.trimApply
  let s := (List.range 6).foldl (fun s n => if s.hlUp n then s.setHl n { s.hl n with flitAt := s.ictNs } else s) s
  let s := [0, 1].foldl (fun s h => if s.power.perst.getLsbD h then s.perstEffects h else s) s
  let s := if s.power.keysOff then s.closeCrypto.zeroise else s
  let out := s.power.outcome
  let s := { s with power := { s.power with trans := none, inState := none, perst := 0, keysOff := false, outcome := 0 }, pair := { s.pair with powerTrig := false } }
  let s := s.pairUpdate
  let s := if was = 2 ∧ wake ≠ 3 ∧ wake ≠ 4 ∧ wake ≠ 8 then
      [0, 1].foldl (fun s h => if bit (s.cfg h 0 17) 8 ∧ (s.host h).up then (s.setCfg h 0 17 (s.cfg h 0 17 ||| 0x8000)).emit (.pme h) else s) s
    else s
  let s := s.record 0x0010 0 [(0, 1, was), (1, 1, resume), (2, 1, wake)]
  let s := (List.range 64).foldl (fun s c => if s.fStat c ferryStatusN_STATE % 2 = 1 then s.ferryGo c else s) s
  (s.powerEnd who out).runPending

/-- POWER_EXIT_COMPLETE: the check of every bank (`checks` names what was found; a bank it does not name is intact), and
the island whose restored registers failed their parity, if any. -/
def State.exitDone (s : State) (checks : List BankCheck) (parity : Option Nat) : State :=
  match s.power.trans with
  | none => s
  | some t =>
    if t.entry then s else
      let was := s.pstate
      let p3 := decide (was = 3)
      match (if p3 then parity else none) with
      | some i => (s.recordFatal 0x0011 0 [(0, 2, 0xFFFF), (2, 1, i), (3, 1, 4)]).restart
      | none =>
        let s := (List.range 181).foldl (fun s b => s.bankCheck p3 checks b) { s with keyCache := [] }
        if s.bankMarked 176 then s.restart else s.exitEnd was t.who

/-- POWER_EXIT_COMPLETE. -/
def execPowerExitComplete (checks : List BankCheck) (parity : Option (Fin 256)) (s : State) : Out :=
  done (s.exitDone checks (parity.map Fin.val))

/-! ### Clock gating in P1 (R406) -/

/-- ISLAND_IDLE_GATE: in P1 an island that has been idle for IDLE µs is clock-gated; its time follower stops (R29). -/
def execIslandIdleGate (island : Fin 256) (s : State) : Out :=
  let i := island.val
  let x := s.island i
  .next (if s.pstate = 1 ∧ gateable i ∧ x.power = .on ∧ s.islandIdle i ∧ s.elapsed x.busyAt (1000 * s.rf Reg.trimCfg trimCfg_IDLE) then
      s.setIsland i { x with power := .gated, aligned := false }
    else s)

end Sys2Proof.Machine
end

