-- ==== Sys2Proof/Machine/ControlSpace.lean ====
section
/-! DEFINITION. Control space: reads and writes of every register with their effects, held words, the secure half,
islands that are gated or off, the host's BAR accesses and control window (R8, R9, R18 to R23, R301 to R306, R436). -/

namespace Sys2Proof.Machine

/-! ### Reading a register -/

/-- The indices of an array element from its offset within the array. -/
def idxIn : List (Nat × Nat) → Nat → List Nat
  | [], _ => []
  | (st, _) :: ds, r => r / st :: idxIn ds (r % st)

/-- Index `n` of the register element at control address `a`. -/
def RegDesc.idx (d : RegDesc) (a n : Nat) : Nat := (idxIn d.dims (a % 0x1000000 - d.offset)).getD n 0

/-- The bits of word `w` that a read shows. -/
def RegDesc.readMask (d : RegDesc) (w : Nat) : Nat := d.mask .ro w ||| d.mask .rw w ||| d.mask .w1c w

/-- CL.THREAD_FAULT as read: the oldest queued fault (R96). -/
def State.threadFaultWord (s : State) (k w : Nat) : Nat :=
  let c := s.cluster k
  let lost := s.rf (Reg.threadFault k) threadFault_LOST
  match c.faults with
  | [] => if w = 0 then lost * 2 ^ 30 else 0
  | f :: rest =>
    let v := f.thread % 128 + 2 ^ 7 + f.code % 256 * 2 ^ 8 + f.pc % 2 ^ 13 * 2 ^ 16 + b2n (!rest.isEmpty) * 2 ^ 29 + lost * 2 ^ 30 + f.addr % 2 ^ 48 * 2 ^ 32
    fld v (32 * w) 32

/-- A fuse row as read through LANTERN.FUSE_ROW (R429): the loaded value, with the lock bits, KEY_REVOKE and ROLLBACK
as they stand now; rows 54–61 read zero. -/
def State.fuseRowRead (s : State) (r : Nat) : Nat :=
  if 54 ≤ r ∧ r ≤ 61 then 0
  else if r = 0 then ((s.fuseRow 0).toNat &&& 0xFFFFF00F) ||| ((s.fuseProg 0).toNat &&& 0xFF0)
  else if 2 ≤ r ∧ r ≤ 5 then (s.fuseProg r).toNat
  else (s.fuseRow r).toNat

/-- The register word at control address `a`, word `w` of register `d`, as a read returns it. -/
def State.regWord (s : State) (d : RegDesc) (w a : Nat) : Nat :=
  let i := a / 0x1000000
  match d.kind with
  | .tbView => s.tbViewWord (a % 0x1000000)
  | .tbFreeze => s.tbViewWord 0x1008
  | .fuseRow => s.fuseRowRead (d.idx a 0)
  | .ptpView => s.ptpWord (i - 1) w
  | .queueView => fld (s.queueStateWord ((ownerAt i (if i ≤ 0x40 then d.idx a 0 else 0)).getD 0) (d.idx a (if i ≤ 0x40 then 1 else 0))) (32 * w) 32
  | .polView => fld (s.polBalWord i (d.idx a 0)) (32 * w) 32
  | .spillView => s.spillStatusWord (d.idx a 0)
  | .threadFault => s.threadFaultWord (i - 0x42) w
  | .tagView => fld (s.tagStatus (i - 0x61)) (32 * w) 32
  | .ksChan => (s.rd a).toNat % 4 + 4 * s.fuseBits (1984 + d.idx a 0) 1
  | _ =>
    if 0x53 ≤ i ∧ i ≤ 0x5A ∧ 0x3000 ≤ a % 0x1000000 ∧ a % 0x1000000 < 0x3200 then s.cqPending (128 * (i - 0x53) + (a % 0x1000000 - 0x3000) / 4)
    else (s.rd a).toNat &&& d.readMask w

/-- Does control address `a` lie in a key-store command block that another than its own steward touches (R239)? -/
def ksForeign (who : Initiator) (a : Nat) : Bool :=
  0x52800000 ≤ a && a < 0x52800200 && decide (who ≠ .steward ((a - 0x52800000) / 0x100))

/-- What is brought up to the present before a register of a kind is read: balances take the refills that are due. -/
def State.beforeRead (s : State) (k : WriteKind) (i : Nat) : State :=
  match k with
  | .polView => s.refillPolicers i
  | .shaperView => s.refillShapers i
  | _ => s

/-- A read of one word of control space in an island that is on: a word of the Trailbook marks its record read. -/
def State.regRead (s : State) (who : Initiator) (a : Nat) : State × Nat :=
  if 0x400000 ≤ a ∧ a < 0x600000 then
    let x := (a - 0x400000) / 64
    (s.tbMarkRead x, leNat (slice (s.tbLoc x) (a % 64) 4))
  else if ksForeign who a then (s, 0)
  else match regAt a with
    | some (d, w) => (s.beforeRead d.kind (a / 0x1000000), (s.beforeRead d.kind (a / 0x1000000)).regWord d w a)
    | none => (s, 0)

/-! ### Writing a register -/

/-- One word written by the access codes of its fields alone (R8, R10). -/
def State.wordSet (s : State) (d : RegDesc) (w a v : Nat) : State :=
  let old := (s.rd a).toNat
  let rw := d.mask .rw w ||| d.mask .wos w
  let v' := ((old &&& (0xFFFFFFFF ^^^ rw)) ||| (v &&& rw)) &&& (0xFFFFFFFF ^^^ (v &&& d.mask .w1c w))
  s.wr a (BitVec.ofNat 32 v')

/-- The words of a group from address `a` (word `w`), written together with value `v`. -/
def State.wordsSet (s : State) (d : RegDesc) (w a v : Nat) : Nat → State
  | 0 => s
  | n + 1 => (s.wordSet d w a (v % 2 ^ 32)).wordsSet d (w + 1) (a + 4) (v / 2 ^ 32) n

/-- A write of FAB.FMT_GEN (R42). -/
def State.fmtGenSet (s : State) (v : Nat) : State :=
  let cur := fld v 0 8; let lo := fld v 8 8; let hi := fld v 16 8
  if hi < lo ∨ cur < lo ∨ hi < cur then s else
    ((s.wr Reg.fmtGen (BitVec.ofNat 32 (v % 2 ^ 24))).setDevStatus devStatus_FMT_CUR cur).pairUpdate

/-- A write of CL.THREAD_FAULT word 0 (R96): VALID removes the oldest fault, LOST clears LOST. -/
def State.threadFaultSet (s : State) (k v : Nat) : State :=
  let c := s.cluster k
  let s := if bit v 7 then s.setCluster k { c with faults := c.faults.drop 1 } else s
  if bit v 30 then s.setRf (Reg.threadFault k) threadFault_LOST 0 else s

/-- Clamp a value of a field into a range. -/
def clamp (lo hi x : Nat) : Nat := max lo (min hi x)

/-- A write of PORT.SUB_CFG's first word as stored (R139). -/
def subCfgStored (v : Nat) : Nat :=
  setFld (setFld v 0 14 (max 64 (fld v 0 14))) 16 8 (max 4 (fld v 16 8))

/-- The effect of writing `v` to the `n` words of a group of register `d` from word `w` at address `a`. -/
def State.groupWrite (s : State) (who : Initiator) (d : RegDesc) (w a v n : Nat) : State :=
  let i := a / 0x1000000
  let o := a % 0x1000000
  let plain := fun (s : State) (v : Nat) => s.wordsSet d w a v n
  match d.kind with
  | .plain => plain s v
  | .timeCtl => s.timeCtlWrite v
  | .timeAddend => s.wr a (BitVec.ofNat 32 (clampAddend v))
  | .pwrMode => if 4 < v % 8 then s else plain s v
  | .trimCfg => s.trimCfgSet v
  | .tbView => s
  | .tbFreeze => if bit v 29 then s.tbRelease else s
  | .tbFwData => { s with tb := { s.tb with fwData := Tab.set 0 s.tb.fwData (d.idx a 0) (BitVec.ofNat 32 v) } }
  | .tbFwCode => s.tbFwCode who (v % 65536) (bit v 16)
  | .bootCtl => s.bootCtlWrite v
  | .alarmCtl => if bit v 0 then s.alarmClear else s
  | .fuseCmd => s.fuseCmdWrite (fld v 8 2) (v % 256)
  | .fuseRow => s
  | .portMode => s.portModeSet (i - 1) v
  | .portSubCfg => plain s (if w = 0 then subCfgStored v else v)
  | .portPfcWd => plain s (if fld v 16 16 = 0 then setFld v 16 16 1 else v)
  | .ptpView => s
  | .ptpPop => if bit v 0 then s.ptpPop (i - 1) else s
  | .pipeProfile => s.profileSet (i - 0x21) (d.idx a 0) v
  | .pipeSlotTbl => s.slotTblSet (i - 0x21) (d.idx a 0) (d.idx a 1) w v
  | .pipeProg => s.progSet (i - 0x21) (d.idx a 0) (d.idx a 1) (d.idx a 2) v
  | .pipeTable => s.tableSet (i - 0x21) (d.idx a 0) v
  | .pipeSubportCfg => if fld v 16 2 = 3 then s else plain s v
  | .pipeReorderCfg => plain s (min 1000 (fld v 0 10))
  | .shaperCfgK => s.shaperCfgSet i ((o - 0x100000) / 8) v
  | .shaperCfg => s.shaperCfgSet i (if i ≤ 0x5C ∧ 0x5B ≤ i then d.idx a 0 else (o - 0x100000) / 8) v
  | .queueCfg =>
    if w = 0 then
      match ownerAt i (if i ≤ 0x40 then d.idx a 0 else 0) with
      | some ow => s.queueCfgSet ow (d.idx a (if i ≤ 0x40 then 1 else 0)) v
      | none => s
    else plain s v
  | .queueView => s
  | .tmSubCfg => plain s (if 0x80 ≤ v % 256 ∧ v % 256 < 0xC0 then setFld v 0 8 0xC0 else v)
  | .polCfg => s.polCfgSet i (d.idx a 0) v
  | .polView => s
  | .shaperView => s
  | .fmtGen => s.fmtGenSet v
  | .tunProfile => plain s (setFld v 8 8 (min 128 (fld v 8 8)))
  | .memCfg => plain s (clamp 1 256 (fld v 0 9))
  | .spillCfg =>
    let on := fld v 0 8
    if on = 0 ∨ 188 < on then s else
      (List.range 32).foldl State.updateSpilling (plain s (setFld (setFld v 16 8 (max 1 (fld v 16 8))) 24 8 (max 1 (fld v 24 8))))
  | .spillView => s
  | .cbRegion => s.cbRegionSet (d.idx a 0) v
  | .fabAge => plain s (min (fld v 0 22) 4000000)
  | .capCfg => s.capCfgSet v
  | .capBase => if s.rf Reg.capCfg capCfg_ENABLE = 1 then s else plain s v
  | .threadFault => if w = 0 then s.threadFaultSet (i - 0x42) v else s
  | .staleCtl => (if bit v 0 then s else s.setRf (Reg.staleStatus (i - 0x42)) staleStatus_RUN 0).wordSet d w a v
  | .ferryCfg => s.ferryCfgSet (d.idx a 0 + (if o < 0x800000 then 16 else 0)) v
  | .ferryTail => s.ferryTailSet (d.idx a 0 + (if o < 0x800000 then 16 else 0)) v
  | .ferryCtl => s.ferryCtlSet (d.idx a 0 + (if o < 0x800000 then 16 else 0)) v
  | .chFlush => if bit v 0 then s.mbFlush (d.idx a 0 + (if o < 0x800000 then 16 else 0)) else s
  | .ksStage => { s with stage := Tab.set 0 s.stage (16 * d.idx a 0 + d.idx a 1) (BitVec.ofNat 32 v) }
  | .ksBlock => plain s v
  | .ksCmd => s.ksCmdWrite (d.idx a 0) (v % 8) (fld v 3 18)
  | .ksChan => plain s v
  | .ciphIslandCfg => plain s (clamp 1 64 (fld v 0 7))
  | .cqCfg => s.cqCfgSet (128 * (i - 0x53) + d.idx a 0) v
  | .cqCons => s.cqConsSet (128 * (i - 0x53) + d.idx a 0) v
  | .jobCmd => if who.ownsJobCmd (d.idx a 0) then s.jobCmdWrite (i - 0x5B) (d.idx a 0) (fld v 20 2) (fld v 0 20) else s
  | .devStatus =>
    match who with
    | .window _ => s
    | _ =>
      let old := (s.rd a).toNat
      let s := s.wr a (BitVec.ofNat 32 (setFld old 0 2 v))
      if fld old 0 2 = fld v 0 2 then s else s.setCause (i - 0x61) 1
  | .intCause => s.intCauseWrite (i - 0x61) v
  | .intEn => (plain s v).updateInta (i - 0x61)
  | .tagView => s
  | .hlCfg => s.hlCfgSet (i - 0x63) v
  | .creditInit => s.creditInitSet (i - 0x63) ((o - 0x10) / 4) v
  | .hlRingCfg => s.hlRingSet (i - 0x63) o v
  | .fwtxTail => s.fwTailSet (i - 0x63) v
  | .pairCfg => if s.pairOn || fld v 0 2 = 3 then s else plain s (setFld v 6 12 (clamp 1 3600 (fld v 6 12)))
  | .pairDiagCfg => plain s (setFld v 16 10 (clamp 1 1000 (fld v 16 10)))
  | .pairCtl => s.pairCtlSet v
  | .pairFwState => (plain s v).pairUpdate

/-- The words of a group of `n` words from address `a`: the held word of each, else the word in effect. -/
def State.groupValue (s : State) (a : Nat) : Nat → Nat
  | 0 => 0
  | n + 1 => ((Tab.find s.held a).getD (s.rd a)).toNat + 2 ^ 32 * s.groupValue (a + 4) n

/-- A write of one word (R18): a word of a group other than its last is held, the last applies the group. -/
def State.wordWrite (s : State) (who : Initiator) (a v : Nat) : State :=
  if ksForeign who a then s else
  match regAt a with
  | none => s
  | some (d, w) =>
    if d.group ≤ 1 then s.groupWrite who d w a v 1
    else if w % d.group + 1 = d.group ∨ w + 1 = d.words then
      let n := w % d.group + 1
      let a0 := a - 4 * (n - 1)
      let s := { s with held := Tab.put s.held a (BitVec.ofNat 32 v) }
      let x := s.groupValue a0 n
      (s.dropHeld a0 n).groupWrite who d (w + 1 - n) a0 x n
    else { s with held := Tab.put s.held a (BitVec.ofNat 32 v) }

/-- A write of 4 or 8 bytes; both words of an aligned pair change in one access. -/
def State.ctlWrite (s : State) (who : Initiator) (a size v : Nat) : State :=
  if size = 4 then s.wordWrite who a (v % 2 ^ 32)
  else
    let s := { s with held := Tab.del s.held a }
    match regAt a with
    | some (d, w) =>
      if d.group = 2 ∧ w % 2 = 0 then
        if ksForeign who a then s else (s.dropHeld a 2).groupWrite who d w a (v % 2 ^ 64) 2
      else (s.wordWrite who a (v % 2 ^ 32)).wordWrite who (a + 4) (fld v 32 32)
    | none => (s.wordWrite who a (v % 2 ^ 32)).wordWrite who (a + 4) (fld v 32 32)

/-- A read of 4 or 8 bytes. -/
def State.ctlRead (s : State) (who : Initiator) (a size : Nat) : State × Nat :=
  let r := s.regRead who a
  if size = 4 then r else
    let q := r.1.regRead who (a + 4)
    (q.1, r.2 + 2 ^ 32 * q.2)

/-! ### An access from an initiator (R19 to R23) -/

/-- How a control access ends: with a value, denied (the control-access exception), or held at a gated island. -/
inductive CtlAns where
  | value (v : Nat)
  | denied
  | held
deriving DecidableEq, Repr

/-- The access performed at an island that is on. -/
def State.ctlPerform (s : State) (who : Initiator) (a size : Nat) (w : Option Nat) : State × Nat :=
  match w with
  | some v => (s.ctlWrite who a size v, 0)
  | none => s.ctlRead who a size

/-- A control access (R19 to R23): `op` is the issuing thread's operation that it completes. The spec gives the denials no
order: the model tests the island and the alignment first, so a misaligned access to a secure half writes no
CTL_SECURE_DENIED record (DESIGN CHOICE, log entry 132). -/
def State.ctlAccess (s : State) (who : Initiator) (op a size : Nat) (w : Option Nat) : State × CtlAns :=
  let i := a / 0x1000000
  if !islandAssigned i || a % size ≠ 0 then (s, .denied)
  else if 0x800000 ≤ a % 0x1000000 ∧ !s.secureOk who then (s.secureDenied who a, .denied)
  else if (s.island i).power = .off then (s.offRecord who a w.isSome, .value (if w.isSome then 0 else 2 ^ (8 * size) - 1))
  else if s.holds i then ({ s with gated := s.gated ++ [⟨who, op, a, size, w⟩] }, .held)
  else
    let r := s.ctlPerform who a size w
    (r.1, .value r.2)

/-- REGISTER_WRITE: an initiator writes 4 or 8 bytes of control space; the host's writes come through the window, and
reach the pages of R303 that it may write. A denied thread or steward takes the control-access exception. -/
def execRegisterWrite (who : Writer) (addr : W32) (wide : Bool) (data : W64) (s : State) : Out :=
  let x := writerInit who
  let size := if wide then 8 else 4
  done (s.writeBy x addr.toNat size data.toNat fun s => s.ctlWrite x addr.toNat size data.toNat)

/-! ### Rows that write one register -/

/-- FMT_GEN_WRITE. -/
def execFmtGenWrite (v : W32) (s : State) : Out := .next (s.rowWrite Reg.fmtGen 4 v.toNat fun s => s.fmtGenSet v.toNat)

/-- THREAD_FAULT_POP: a write of 1 to CL.THREAD_FAULT.VALID. -/
def execThreadFaultPop (cl : Fin 16) (s : State) : Out := .next (s.rowWrite (Reg.threadFault cl.val) 4 0x80 fun s => s.threadFaultSet cl.val 0x80)

/-- THREAD_FAULT_LOST_CLEAR: a write of 1 to CL.THREAD_FAULT.LOST. -/
def execThreadFaultLostClear (cl : Fin 16) (s : State) : Out := 
  .next (s.rowWrite (Reg.threadFault cl.val) 4 0x40000000 fun s => s.threadFaultSet cl.val 0x40000000)

/-- STALEMATE_DETECTED_CLEAR: a write of 1 to CL.STALEMATE_STATUS.DETECTED. -/
def execStalemateDetectedClear (cl : Fin 16) (s : State) : Out := 
  .next (s.rowWrite (Reg.staleStatus cl.val) 4 (2 ^ staleStatus_DETECTED.lo) fun s => s.setRf (Reg.staleStatus cl.val) staleStatus_DETECTED 0)

/-- A write by an initiator to a register of a Ferry or mailbox channel, with the checks of control space. -/
def State.chanWrite (s : State) (who : Writer) (a v size : Nat) : State :=
  let x := writerInit who
  s.writeBy x a size v fun s => s.ctlWrite x a size v

/-- CH_FLUSH (R373). -/
def execChFlush (who : Writer) (ch : Fin 64) (s : State) : Out :=
  .next (s.chanWrite who (ctlAddr 0x52 ((if ch.val < 16 then 0x820000 else 0x20000) + 4 * ch.val)) 1 4)

/-- FERRY_CH_ENABLE: EN written 1 with the other fields of the configuration as they stand. -/
def execFerryChEnable (who : Writer) (ch : Fin 64) (s : State) : Out :=
  done (s.chanWrite who (ferryAddr ch.val 0) (setFld (s.rdN (ferryAddr ch.val 0) 2) 53 1 1) 8)

/-- FERRY_CH_DISABLE: EN written 0. -/
def execFerryChDisable (who : Writer) (ch : Fin 64) (s : State) : Out :=
  done (s.chanWrite who (ferryAddr ch.val 0) (setFld (s.rdN (ferryAddr ch.val 0) 2) 53 1 0) 8)

/-- FERRY_TAIL_WRITE. -/
def execFerryTailWrite (who : Writer) (ch : Fin 64) (tail : BitVec 16) (s : State) : Out :=
  done (s.chanWrite who (ferryAddr ch.val 8) tail.toNat 4)

/-- START. -/
def execFerryStart (who : Writer) (ch : Fin 64) (s : State) : Out := done (s.chanWrite who (ferryAddr ch.val 0x14) 1 4)
/-- STOP. -/
def execFerryStop (who : Writer) (ch : Fin 64) (s : State) : Out := done (s.chanWrite who (ferryAddr ch.val 0x14) 2 4)

/-! ### BAR accesses of the host (R302 to R305, R308) -/

/-- A successful completion. -/
def State.barReturn (s : State) (h len v : Nat) : State := s.emit (.completion h 0 (leBytes len v))

/-- An access of the control window: ignored where the page is read-only; else one control access, whose completion is
sent when it is performed. -/
def State.windowAccess (s : State) (h o len : Nat) (w : Option Nat) : State :=
  let p := o / 0x10000
  match windowAddr o, w with
  | none, none => s.barReturn h len 0
  | none, some _ => s
  | some a, w =>
    if w.isSome ∧ !bit (s.rdN (Reg.winWriteEn h) 4) p then s else
      let r := s.ctlAccess (.window h) 0 a len w
      match r.2, w with
      | .value v, none => r.1.barReturn h len v
      | _, _ => r.1

/-- Word `w` of an interrupt entry as read (R308). -/
def IrqEntry.word (e : IrqEntry) (store : Bool) (w : Nat) : Nat :=
  match w with
  | 0 => e.addr % 2 ^ 32
  | 1 => e.addr / 2 ^ 32 % 2 ^ 32
  | 2 => e.data % 2 ^ 32
  | _ => b2n e.mask + (if store then 2 * b2n e.pend + 65536 * (e.owner % 4096) else 0)

/-- An interrupt entry with one 64-bit pair written: ADDR, or DATA and MASK. -/
def IrqEntry.setPair (e : IrqEntry) (hi : Bool) (v : Nat) : IrqEntry :=
  if hi then { e with data := v % 2 ^ 32, mask := bit v 32 } else { e with addr := v % 2 ^ 64 / 4 * 4 }

/-- Which interrupt entries an offset of a BAR names: 0 the table of PF0, 1 that of PF1, 2 the message store. -/
def State.irqEntry (s : State) (h t n : Nat) : IrqEntry :=
  let l := s.host h
  Tab.get {} (if t = 0 then l.msix0 else if t = 1 then l.msix1 else l.store) n

/-- Replace an interrupt entry. -/
def State.setIrqEntry (s : State) (h t n : Nat) (e : IrqEntry) : State :=
  let l := s.host h
  s.setHost h (if t = 0 then { l with msix0 := Tab.put l.msix0 n e } else if t = 1 then { l with msix1 := Tab.put l.msix1 n e }
    else { l with store := Tab.put l.store n e })

/-- The key under which the lower word of a pair of an interrupt entry is held. -/
def irqHeld (h t o : Nat) : Nat := 2 ^ 32 + ((h * 3 + t) * 2 ^ 24 + o)

/-- A read of interrupt entries at offset `o` of their table. -/
def State.irqRead (s : State) (h t o len : Nat) : Nat :=
  let word := fun x => (s.irqEntry h t (x / 16)).word (t = 2) (x % 16 / 4)
  word o + (if len = 8 then 2 ^ 32 * word (o + 4) else 0)

/-- A write of interrupt entries: each entry is written as two 64-bit pairs (R18, R308). -/
def State.irqWrite (s : State) (h t o len v : Nat) : State :=
  let n := o / 16
  let hi := decide (8 ≤ o % 16)
  let e := s.irqEntry h t n
  let base := o / 8 * 8
  let low := (Tab.find s.held (irqHeld h t base)).map BitVec.toNat
  let put := fun (s : State) (v : Nat) =>
    let s := { s with held := Tab.del s.held (irqHeld h t base) }
    ((s.setIrqEntry h t n (e.setPair hi v)).sendPending h)
  if len = 8 then put s v
  else if o % 8 = 0 then { s with held := Tab.put s.held (irqHeld h t base) (BitVec.ofNat 32 v) }
  else put s (low.getD (e.word false (o % 16 / 4 - 1)) + 2 ^ 32 * (v % 2 ^ 32))

/-- PENDING bits of `n` entries from entry `k` on. -/
def State.pbaBits (s : State) (h t k n : Nat) : Nat :=
  (List.range n).foldl (fun v i => v + b2n (s.irqEntry h t (k + i)).pend * 2 ^ i) 0

/-- A word of the instance status area at offset `o` (R324). -/
def State.instStatusWord (s : State) (o : Nat) : Nat := s.instStatus (o / 64) (o % 64 / 4) % 2 ^ 32

/-- Is an access of a register area naturally aligned and of 4 or 8 bytes (R305)? -/
def areaOk (o len : Nat) : Bool := (len = 4 || len = 8) && o % len = 0

/-- An access to PF0 BAR0 (R302). -/
def State.bar0Access (s : State) (h o len : Nat) (w : Option Nat) : State :=
  let write := w.isSome
  let ret := fun (s : State) (v : Nat) => if write then s else s.barReturn h len v
  if 0x200000 ≤ o ∧ o < 0x400000 then
    if write || !([4, 8, 16, 32, 64].contains len) || o % len ≠ 0 then s.barBad h 0 write
    else
      let x := (o - 0x200000) / 64
      (s.tbMarkRead x).emit (.completion h 0 (slice (s.tbLoc x) (o % 64) len))
  else if 0x800000 ≤ o then if areaOk o len then s.windowAccess h (o - 0x800000) len w else s.barBad h 0 write
  else if o < 0x100 then
    if !areaOk o len then s.barBad h 0 write else
      let r := s.ctlPerform (.window h) (ctlAddr (0x61 + h) o) len w
      ret r.1 r.2
  else if 0x1000 ≤ o ∧ o < 0x1080 then
    if !areaOk o len then s.barBad h 0 write else
      match w with
      | some v => s.irqWrite h 0 (o - 0x1000) len v
      | none => ret s (s.irqRead h 0 (o - 0x1000) len)
  else if 0x1800 ≤ o ∧ o < 0x1808 then
    if !areaOk o len then s.barBad h 0 write else ret s (s.pbaBits h 0 (8 * (o - 0x1800)) (8 * len))
  else if 0x10000 ≤ o ∧ o < 0x20000 then
    if !areaOk o len then s.barBad h 0 write else
      let c := (o - 0x10000) / 0x1000
      let r := o % 0x1000
      match w with
      | some v =>
        let s := s.mbRegWrite h c r (v % 2 ^ 32)
        if len = 8 then s.mbRegWrite h c (r + 4) (fld v 32 32) else s
      | none =>
        let x := s.mbRegRead h c r
        if len = 8 then
          let y := x.1.mbRegRead h c (r + 4)
          y.1.barReturn h 8 (x.2 + 2 ^ 32 * y.2)
        else x.1.barReturn h 4 x.2
  else if o < 0x1000000 then ret s 0
  else s

/-- An access to PF1 BAR0 (R304). -/
def State.bar1Access (s : State) (h o len : Nat) (w : Option Nat) : State :=
  let write := w.isSome
  let ret := fun (s : State) (v : Nat) => if write then s else s.barReturn h len v
  if o < 0x1000000 then
    match w with
    | some v =>
      let o := if (s.host h).flr.getLsbD 1 then o / 4 * 4 else o
      if o % 4 ≠ 0 then (if s.mse h 1 then s.barBad h 1 true else s.aer h 1 .unsupported false) else s.doorbell h (o / 0x1000) (o % 0x1000 / 16) (o % 16 / 4) len v
    | none => if areaOk o len then ret s 0 else s.barBad h 1 write
  else if o < 0x1100000 then
    if !areaOk o len then s.barBad h 1 write else
      match w with
      | some v => s.irqWrite h 2 (o - 0x1000000) len v
      | none => ret s (s.irqRead h 2 (o - 0x1000000) len)
  else if o < 0x1108000 then
    if !areaOk o len then s.barBad h 1 write else
      match w with
      | some v => s.irqWrite h 1 (o - 0x1100000) len v
      | none => ret s (s.irqRead h 1 (o - 0x1100000) len)
  else if o < 0x1108100 then
    if !areaOk o len then s.barBad h 1 write else ret s (s.pbaBits h 1 (8 * (o - 0x1108000)) (8 * len))
  else if 0x1200000 ≤ o ∧ o < 0x1240000 then
    if !areaOk o len then s.barBad h 1 write
    else ret s (s.instStatusWord (o - 0x1200000) + (if len = 8 then 2 ^ 32 * s.instStatusWord (o - 0x1200000 + 4) else 0))
  else ret s 0

/-- CONTROL_WINDOW_ACCESS: an access of the host to BAR0 of a function, the control window of PF0 among it, at an offset
with a length in bytes; `w` is the value of a write. Doorbell pages have checks of their own (R304): in D3hot a read of one
returns zero. -/
def execControlWindowAccess (h fn : Fin 2) (off : BitVec 25) (len : Fin 65) (w : Option W64) (s : State) : Out :=
  let o := off.toNat
  if fn.val = 1 ∧ o < 0x1000000 ∧ w.isSome then
    done (s.bar1Access h.val o len.val (w.map BitVec.toNat))
  else if fn.val = 1 ∧ o < 0x1000000 ∧ (s.host h.val).up ∧ (s.host h.val).flr.getLsbD 1 = false ∧ s.mse h.val 1 ∧ s.dstate h.val 1 ≠ 0 ∧ areaOk o len.val then
    .next (s.barReturn h.val len.val 0)
  else match s.barGate h.val fn.val w.isSome with
    | some s => .next s
    | none =>
      if fn.val = 0 ∧ 0x1000000 ≤ o then
        .next (if w.isSome then s.aer h.val 0 .unsupported false else (s.emit (.completion h.val 1 [])).aer h.val 0 .unsupported true)
      else if len.val = 0 then .next (s.barBad h.val fn.val w.isSome)
      else done ((if fn.val = 0 then s.bar0Access h.val o len.val (w.map BitVec.toNat)
        else s.bar1Access h.val o len.val (w.map BitVec.toNat)))

end Sys2Proof.Machine
end

