-- ==== Sys2Proof/Machine/ThreadOps.lean ====
section
/-! DEFINITION. Worker threads and stewards: readiness, outstanding operations, restarts, bound sources, and what each
instruction does at a thread (R59 to R97, R108 to R110, R116). -/

namespace Sys2Proof.Machine

/-! ### Readiness and outstanding operations (R78, R79, R98, R126) -/

/-- One past the last word of the instruction memory of a thread (R59, R81). -/
def pcLimit (n : Nat) : Nat := if n < 2048 then 8192 else 2 ^ 20

/-- The registers that a response writes. -/
def MemAct.regs : MemAct → List (BitVec 5)
  | .load _ rd _ => [rd]
  | .store _ => []
  | .amo _ rd _ _ _ => [rd]
  | .look _ _ n rd _ => (List.range n).map fun i => rd + BitVec.ofNat 5 i
  | .ctl rd _ _ _ => rd.toList

/-- The predicates that a response writes. -/
def MemAct.preds : MemAct → List (BitVec 3)
  | .look _ _ _ _ pd => [pd]
  | _ => []

/-- Does an operation belong to a set of R79? -/
def MemAct.inSet (a : MemAct) (m : BitVec 4) : Bool :=
  match a with
  | .load .. => m.getLsbD 0
  | .store _ => m.getLsbD 1
  | .amo .. => m.getLsbD 0 || m.getLsbD 1
  | .look .. => false
  | .ctl .. => m.getLsbD 2

/-- The bytes of device space that an operation accesses: how many, from its address. -/
def MemAct.span : MemAct → Nat
  | .load _ _ n => n
  | .store bs => bs.length
  | .amo _ _ n _ _ => n
  | _ => 0

/-- Do two operations access a byte in common? -/
def MemOp.meets (x y : MemOp) : Bool := decide (x.addr < y.addr + y.act.span ∧ y.addr < x.addr + x.act.span)

/-- Is it a device-space load or AMO, of which four and sixteen may be outstanding (R98)? -/
def MemAct.counted : MemAct → Bool
  | .load .. => true
  | .amo .. => true
  | _ => false

/-- The registers an instruction reads or writes. -/
def Afv.regs : Afv → List (BitVec 5)
  | .alu _ rd ra rb => [rd, ra, rb]
  | .mul _ rd ra rb => [rd, ra, rb]
  | .cmp _ _ _ _ ra rb => [ra, rb]
  | .pred .. => []
  | .sput _ ra rb => [ra, rb]
  | .amo _ rd ra rb _ _ => [rd, ra, rb]
  | .help _ rd ra rb => [rd, ra, rb]
  | .ciph _ rd ra rb => [rd, ra, rb]
  | .imm _ rd ra _ => [rd, ra]
  | .shift _ rd ra _ _ => [rd, ra]
  | .ext rd ra _ => [rd, ra]
  | .ins rd ra _ => [rd, ra]
  | .cmpi _ _ _ ra _ => [ra]
  | .sget rd _ => [rd]
  | .load _ rd ra _ _ _ => [rd, ra]
  | .store _ rs ra _ _ _ => [rs, ra]
  | .branch _ => []
  | .call _ => [31]
  | .jr rd ra => [rd, ra]
  | .look rd ra _ klen rcnt _ =>
    ((List.range (klen.toNat + 1)).map fun i => ra + BitVec.ofNat 5 i)
      ++ (List.range (rcnt.toNat + 1)).map fun i => rd + BitVec.ofNat 5 i
  | .rcmp rd ra _ => [rd, ra]
  | .waite rd ra => [rd, ra]
  | .sige ra rb => [ra, rb]
  | .sett ra => [ra]
  | .clrt => []
  | .evrd rd => [rd]
  | .post _ ra rb => [ra, rb]
  | .take rd ra _ _ => [rd, ra]
  | .fence _ _ => []
  | .getw rd ra _ => [rd, ra]
  | .dispCont => []
  | .dispDrop => []
  | .dispGroup ra => [ra]
  | .news rd ra rb => [rd, ra, rb]
  | .sysr rd ra => [rd, ra]
  | .sysw ra rb => [ra, rb]
  | .eret => []
  | .waitPwr rd => [rd]
  | .clctl ra rb => [ra, rb]
  | .trestart ra => [ra]
  | .trap _ => []

/-- The predicates an instruction reads or writes, its selector aside. -/
def Afv.preds : Afv → List (BitVec 3)
  | .cmp pd _ _ pe _ _ => [pd, pe]
  | .pred _ pd pa pb => [pd, pa, pb]
  | .cmpi _ pd _ _ _ => [pd]
  | .look _ _ _ _ _ pd => [pd]
  | .take _ _ pd pe => [pd, pe]
  | .getw _ _ pd => [pd]
  | _ => []

/-- Does a list hold a register other than g0, or p0, of another list? -/
def clash {w : Nat} (xs ys : List (BitVec w)) : Bool := xs.any fun x => x ≠ 0 && ys.contains x

/-- The device-space loads and AMOs outstanding at a thread. -/
def State.loadsOut (s : State) (n : Nat) : Nat := ((s.thr n).ops.filter fun x => x.act.counted).length

/-- The limits of R98 and R126 on a thread's next operation, and a FENCE's wait for its predecessor set: its X part
for the thread's signals that are still on their way (R79, R88). -/
def State.roomFor (s : State) (n : Nat) (a : Afv) : Bool :=
  let ops := (s.thr n).ops
  let more := decide (s.loadsOut n < 4) && (2048 ≤ n
    || decide (((List.range 8).foldl (fun k i => k + s.loadsOut (n / 8 * 8 + i)) 0) < 16))
  let ctl := !(ops.any fun x => x.act.inSet 4)
  match a with
  | .load _ _ _ space _ _ => if space = 1 then more else if space = 3 then ctl else true
  | .store _ _ _ space _ _ => if space = 3 then ctl else true
  | .amo _ _ _ _ space _ => if space = 1 then more else true
  | .fence pre succ => pre = 0 || succ = 0
    || !((ops.any fun x => x.act.inSet pre) || (pre.getLsbD 3 && s.signals.any fun m => m.src = n))
  | _ => true

/-- Is an instruction's next issue held up by no result, limit or fence (R64, R98)? -/
def State.mayIssue (s : State) (n : Nat) (pr : BitVec 3) (a : Afv) : Bool :=
  let t := s.thr n
  let qs := t.ops.flatMap fun x => x.act.preds
  !clash qs [pr] && (!t.r.pred pr ||
    (!clash (t.ops.flatMap fun x => x.act.regs) a.regs && !clash qs a.preds && s.roomFor n a))

/-- An operation starts: its response is outstanding. -/
def State.startOp (s : State) (n id : Nat) (act : MemAct) (addr : Nat) : State :=
  s.modThr n fun t => { t with ops := t.ops ++ [⟨id, act, addr, t.pc, t.issued⟩] }

/-- The next operation number. -/
def State.bumpOp (s : State) : State := { s with nextOp := s.nextOp + 1 }

/-! ### Bound sources whose condition holds (R86) -/

/-- Does a source of R86 hold toward thread `n`? -/
def State.levelHolds (s : State) (n type idx : Nat) : Bool :=
  match type with
  | 1 => !(s.groupQ idx).isEmpty
  | 2 =>
    match s.mbEnd n idx with
    | some a => (if a then (s.mbox idx).ba else (s.mbox idx).ab).any fun w => w.seen
    | none => false
  | 3 =>
    match s.mbEnd n idx with
    | some a => if a then (s.mbox idx).emptyA else (s.mbox idx).emptyB
    | none => false
  | 4 => s.fStat idx ferryStatusN_EVT = 1 || s.fStat idx ferryStatusN_HALF = 1 || s.fStat idx ferryStatusN_FULL = 1
  | 5 => s.cqProd idx ≠ s.cqCons idx
  | 6 => [0, 1].any fun h => s.rd (Reg.hostEvent h) ≠ 0 && s.rf (Reg.hostEventCfg h) hostEventCfg_EN = 1
      && s.rf (Reg.hostEventCfg h) hostEventCfg_GROUP = idx
  | 7 => idx % 2 = 0 && s.rf (hlAddr (idx / 4) (0x118 + 8 * (idx % 4))) hlFwrxProd_PROD
      ≠ s.rf (hlAddr (idx / 4) (0x11C + 8 * (idx % 4))) hlFwrxCons_CONS
  | _ => false

/-- Has the armed timer of a thread reached its time: has it fired (R31, R87)? -/
def State.timerDue (s : State) (n : Nat) : Bool :=
  match (s.thr n).timer with
  | some t => decide (t ≤ s.ictNs)
  | none => false

/-- The event bits of a thread, those of bound sources that hold and of a timer that has fired among them. -/
def State.events (s : State) (n : Nat) : W64 :=
  (s.bindsOf n).foldl (fun m b => if s.levelHolds n b.type b.index then m ||| BitVec.ofNat 64 (2 ^ b.bit) else m)
    (if s.timerDue n then (s.thr n).ev ||| 0x10000 else (s.thr n).ev)

/-- The timer of a thread reaches its time: bit 16 is set, and the timer is no longer armed. -/
def State.timerFire (s : State) (n : Nat) : State :=
  if s.timerDue n then s.modThr n fun x => { x with timer := none, ev := x.ev ||| 0x10000 } else s

/-- Take the masked event bits; those whose source still holds are set again. -/
def State.takeEvents (s : State) (n : Nat) (mask : W64) : State :=
  let s := (s.timerFire n).modThr n fun t => { t with ev := t.ev &&& ~~~mask }
  s.modThr n fun t => { t with ev := s.events n }

/-- Does a wait mask hold a bound external bit, or bit 16 with the timer pending (R115, R119)? -/
def State.disciplined (s : State) (n : Nat) (mask : W64) : Bool :=
  ((s.bindsOf n).any fun b => mask.getLsbD b.bit)
    || (mask.getLsbD 16 && (match (s.thr n).timer with
      | some t => decide (s.ictNs < t)
      | none => false))

/-! ### Restarts and cluster operations (R60, R94, R109, R110, R121) -/

/-- The R60 state of a thread; what it has issued is kept. -/
def startThread (e : ThreadEntry) (issued : W64) : Thread :=
  { r := (Regs.set {} 1 e.g1).set 2 e.g2, pc := e.entry, issued := issued }

/-- TRESTART: a held satchel takes FW_GENERIC, then R60 applies; a parked thread is not affected. The spec does not say
what becomes of outstanding operations: the model discards them, stores and AMOs among them (DESIGN CHOICE, log entry
138). -/
def State.restartThread (s : State) (n : Nat) : State :=
  if (s.entryOf n).parked then s else
    let t := s.thr n
    let s := match t.held with
      | some fid => (s.setThr n { t with held := none }).raiseExc fid 0x80
      | none => s
    s.setThr n (startThread (s.entryOf n) t.issued)

/-- The round-robin pointers of a cluster's cores name thread 7 (R111). -/
def State.resetPointers (s : State) (k : Nat) : State :=
  (List.range 16).foldl (fun s c => s.setCore (16 * k + c) { s.core (16 * k + c) with rr := 7 }) s

/-- The cluster registers that CLCTL RESTART returns to their reset values: all of R96 and R122 but ENABLE, COUNT and
CLEARED. -/
def State.resetClusterRegs (s : State) (k : Nat) : State :=
  let s := s.setCluster k { s.cluster k with faults := [] }
  let s := s.setRf (Reg.threadFault k) threadFault_LOST 0
  let s := ((s.setRf (Reg.staleStatus k) staleStatus_DETECTED 0).setRf (Reg.staleStatus k) staleStatus_HOLDING 0).setRf
    (Reg.staleStatus k) staleStatus_RUN 0
  let s := (s.wr (Reg.waitUndisc k) 0).wr (Reg.waitUndiscLast k) 0
  { s with regs := s.regs.filter fun e => decide (e.1 < Reg.waitSnap k 0 ∨ Reg.waitSnap k 0 + 2048 ≤ e.1) }

/-- CLCTL: 0 HALT, 1 RELEASE, 2 RESTART. -/
def State.clctl (s : State) (k op : Nat) : State :=
  let c := s.cluster k
  if op = 0 then
    ((s.setCluster k { c with halted := true }).setRf (Reg.staleStatus k) staleStatus_RUN 0).setRf (Reg.staleStatus k)
      staleStatus_HOLDING 0
  else if op = 1 then
    (List.range 16).foldl (fun s i => s.setCore (16 * k + i) {}) (s.setCluster k { c with halted := false })
  else
    (((List.range 128).foldl (fun s i => s.restartThread (128 * k + i)) s).resetClusterRegs k).resetPointers k

/-! ### Instructions -/

/-- How an instruction ends at a thread: it completes with its register and predicate writes; it transfers control; it
has moved the thread itself; it takes an exception. -/
inductive Res where
  | ok (s : State) (g : List (BitVec 5 × W64)) (p : List (BitVec 3 × Bool))
  | jump (s : State) (g : List (BitVec 5 × W64)) (pc : Nat)
  | stay (s : State)
  | fault (s : State) (code addr : Nat)

/-- The initiator that a thread is. -/
def agentInit (n : Nat) : Initiator := if n < 2048 then .thread n else .steward (n - 2048)
/-- The endpoint of a thread (R40). -/
def agentEnd (n : Nat) : Nat := if n < 2048 then 0x110 + n / 128 else epSteward

/-- Bytes of the issuing core's data memory or the steward's scratch memory (R61, R74). -/
def State.localLoad (s : State) (n a m : Nat) : List Byte :=
  if n < 2048 then s.ldBytes (coreData (n / 8) + a) m
  else (List.range m).map fun i => Tab.get 0 s.scratch (65536 * (n - 2048) + a + i)

/-- Store into it. -/
def State.localStore (s : State) (n a : Nat) (bs : List Byte) : State :=
  if n < 2048 then s.stBytes (coreData (n / 8) + a) bs
  else { s with scratch := (List.range bs.length).foldl (fun t i => Tab.set 0 t (65536 * (n - 2048) + a + i) (bs.getD i 0)) s.scratch }

/-- What an access to space 0b00 raises (R74, R75, R95). -/
def localFault (a m : Nat) : Option Nat :=
  if 0x10000 < a + m then some excMemAccess else if a % m ≠ 0 then some excMemAlign else none

/-- Does a worker thread's access touch what it may not: a store any instruction memory, a load its own (R61, R74)? -/
def insnBarred (n a m : Nat) (store : Bool) : Bool :=
  decide (n < 2048) && (if store then inInsnMem a || inInsnMem (a + m - 1)
    else decide (coreBase (n / 8) < a + m ∧ a < coreData (n / 8)))

/-- What an access to device space raises. -/
def devFault (n a m : Nat) (store : Bool) : Option Nat :=
  if devReserved a || devReserved (a + m - 1) || insnBarred n a m store then some excMemAccess
  else if a % m ≠ 0 then some excMemAlign else none

/-- LDC and STC, with what R18 to R23 and R74 raise. -/
def State.runCtl (s : State) (n : Nat) (k : LoadKind) (rd : Option (BitVec 5)) (ea m : Nat) (w : Option Nat) : Res :=
  if m < 4 then .fault s excIllegal 0
  else if (n < 2048 ∧ !(s.entryOf n).ctl) ∨ 2 ^ 32 ≤ ea then .fault s excCtlAccess ea
  else
    let id := s.nextOp
    let r := s.bumpOp.ctlAccess (agentInit n) id ea m w
    match r.2 with
    | .denied => .fault r.1 excCtlAccess ea
    | .held => .ok (r.1.startOp n id (.ctl rd k m none) ea) [] []
    | .value v => .ok (r.1.settle.startOp n id (.ctl rd k m (some v)) ea) [] []

/-- LD, LDS and LDBE (R74 to R76). -/
def State.runLoad (s : State) (n : Nat) (k : LoadKind) (rd ra : BitVec 5) (space size : BitVec 2) (off : BitVec 9) : Res :=
  let t := s.thr n
  let ea := effAddr (t.r.get ra) off
  let m := accBytes size
  if space = 0 then
    match localFault ea m with
    | some c => .fault s c ea
    | none => .ok s [(rd, loadVal k (s.localLoad n ea m))] []
  else if space = 1 then
    match devFault n ea m false with
    | some c => .fault s c ea
    | none => .ok (s.bumpOp.startOp n s.nextOp (.load k rd m) ea) [] []
  else if space = 2 then
    match t.held with
    | none => .fault s excSatchelState 0
    | some fid => if windowMiss ea m then .fault s excMemAccess 0 else .ok s [(rd, loadVal k ((s.frame fid).windowLoad ea m))] []
  else s.runCtl n k (some rd) ea m none

/-- ST and STBE. -/
def State.runStore (s : State) (n : Nat) (be : Bool) (rs ra : BitVec 5) (space size : BitVec 2) (off : BitVec 9) : Res :=
  let t := s.thr n
  let ea := effAddr (t.r.get ra) off
  let m := accBytes size
  let bs := storeVal be (t.r.get rs) m
  if space = 0 then
    match localFault ea m with
    | some c => .fault s c ea
    | none => .ok (s.localStore n ea bs) [] []
  else if space = 1 then
    match devFault n ea m true with
    | some c => .fault s c ea
    | none => .ok (s.bumpOp.startOp n s.nextOp (.store bs) ea) [] []
  else if space = 2 then
    match t.held with
    | none => .fault s excSatchelState 0
    | some fid => if windowMiss ea m then .fault s excMemAccess 0 else .ok (s.modFrame fid fun f => f.windowStore ea bs) [] []
  else s.runCtl n .zero none ea m (some (leNat bs))

/-- The value an AMO leaves from the old value, rd and rb, all cut to `m` bytes (R77). -/
def amoNew (op : AmoOp) (m old cmp b : Nat) : Nat :=
  let w := 2 ^ (8 * m)
  let b := b % w
  match op with
  | .add => (old + b) % w
  | .swap => b
  | .cas => if old = cmp % w then b else old
  | .and => old &&& b
  | .or => old ||| b
  | .maxu => max old b
  | .minu => min old b

/-- AMO (R77). The spec does not say how a 4-byte old value fills the 64-bit rd: the model zero-extends it (DESIGN CHOICE,
log entry 136). -/
def State.runAmo (s : State) (n : Nat) (op : AmoOp) (rd ra rb : BitVec 5) (space : BitVec 2) (wide : Bool) : Res :=
  let t := s.thr n
  let ea := (t.r.get ra).toNat
  let m := if wide then 8 else 4
  if space = 0 then
    match localFault ea m with
    | some c => .fault s c ea
    | none =>
      let old := leNat (s.localLoad n ea m)
      .ok (s.localStore n ea (leBytes m (amoNew op m old (t.r.get rd).toNat (t.r.get rb).toNat))) [(rd, BitVec.ofNat 64 old)] []
  else if space = 1 then
    match devFault n ea m true with
    | some c => .fault s c ea
    | none => .ok (s.bumpOp.startOp n s.nextOp (.amo op rd m (t.r.get rd) (t.r.get rb)) ea) [] []
  else .fault s excIllegal 0

/-- SPUT at a thread (R56, R72): a raise or a resume takes the satchel from the thread. -/
def State.runSput (s : State) (n : Nat) (w : BitVec 4) (ra rb : BitVec 5) : Res :=
  let t := s.thr n
  match t.held with
  | none => .fault s excSatchelState 0
  | some fid =>
    let x := s.sput fid w.toNat (t.r.get ra) (t.r.get rb) false
    match x.2 with
    | .keep => .ok x.1 [] []
    | .raise c => .ok ((x.1.modThr n fun t => { t with held := none }).raiseExc fid c).settle [] []
    | .resume => .ok ((x.1.modThr n fun t => { t with held := none }).release (agentEnd n) fid).settle [] []

/-- SGET at a thread (R71). -/
def State.runSget (s : State) (n : Nat) (rd : BitVec 5) (i : BitVec 14) : Res :=
  match sgetVal {} i, (s.thr n).held with
  | none, _ => .fault s excIllegal 0
  | some _, none => .fault s excSatchelState 0
  | some _, some fid => .ok s [(rd, (sgetVal (s.frame fid) i).getD 0)] []

/-- A control transfer with its target check (R81). -/
def jumpTo (s : State) (n : Nat) (g : List (BitVec 5 × W64)) (target : Int) : Res :=
  if 0 ≤ target ∧ target < pcLimit n then .jump s g target.toNat else .fault s excMemAccess 0

/-- WAITE (R87, R116): undisciplined waits of worker threads are counted. -/
def State.runWaite (s : State) (n : Nat) (rd ra : BitVec 5) : Res :=
  let t := s.thr n
  let mask := t.r.get ra
  let got := s.events n &&& mask
  if mask = 0 ∨ got ≠ 0 then .ok (s.takeEvents n mask) [(rd, got)] []
  else
    let s := (s.timerFire n).modThr n fun t => { t with run := .waiting mask rd, ev := s.events n }
    if n < 2048 ∧ !s.disciplined n mask then
      let k := n / 128
      let s := s.wr (Reg.waitUndisc k) (s.rd (Reg.waitUndisc k) + 1)
      .stay (s.wr (Reg.waitUndiscLast k) (BitVec.ofNat 32 (n % 128 + 2 ^ 7 + t.pc % 2 ^ 13 * 2 ^ 8)))
    else .stay s

/-- SIGE (R87, R88): the signal is on its way. -/
def State.runSige (s : State) (n : Nat) (ra rb : BitVec 5) : Res :=
  let t := s.thr n
  let dst := (t.r.get ra).toNat
  let b := (t.r.get rb).toNat
  if 0x803 < dst ∨ 15 < b then .fault s excBadTarget 0
  else .ok { s with signals := s.signals ++ [⟨n, dst, b⟩] } [] []

/-- POST and POST.END (R89). -/
def State.runPost (s : State) (n : Nat) (fin : Bool) (ra rb : BitVec 5) : Res :=
  let t := s.thr n
  let c := (t.r.get ra).toNat
  match s.mbEnd n c with
  | none => .fault s excCtlAccess 0
  | some a =>
    match s.mbPost c a ((t.r.get rb).toNat % 2 ^ 32) fin with
    | none => .fault s excMailboxFull 0
    | some s => .ok s [] []

/-- TAKE (R89). With pd and pe the same predicate the spec gives no order: the model writes pe last (DESIGN CHOICE, log
entry 137). -/
def State.runTake (s : State) (n : Nat) (rd ra : BitVec 5) (pd pe : BitVec 3) : Res :=
  let c := ((s.thr n).r.get ra).toNat
  match s.mbEnd n c with
  | none => .fault s excCtlAccess 0
  | some a =>
    match s.mbTake c a with
    | none => .ok s [] [(pd, false), (pe, false)]
    | some (w, s) => .ok s [(rd, BitVec.ofNat 64 w.word)] [(pd, true), (pe, w.fin)]

/-- GETW (R90). -/
def State.runGetw (s : State) (n : Nat) (rd ra : BitVec 5) (pd : BitVec 3) : Res :=
  let t := s.thr n
  let g := (t.r.get ra).toNat
  if t.held.isSome then .fault s excSatchelState 0
  else if !(s.bindsOf n).any fun b => b.type = 1 && b.index = g then .fault s excBadTarget 0
  else match s.groupQ g with
    | [] => .ok s [] [(pd, false)]
    | fid :: rest =>
      .ok ((s.setGroupQ g rest).modThr n fun t => { t with held := some fid }) [(rd, Config.frameHandle fid)] [(pd, true)]

/-- DISP at a thread (R90): the satchel leaves the thread and `go` disposes of it. -/
def State.runDisp (s : State) (n : Nat) (go : State → Nat → State) : Res :=
  match (s.thr n).held with
  | none => .fault s excSatchelState 0
  | some fid => .ok (go (s.modThr n fun t => { t with held := none }) fid).settle [] []

/-- DISP.GROUP (R90); the satchel's slot of a reorder window is released (R180). -/
def State.runDispGroup (s : State) (n : Nat) (ra : BitVec 5) : Res :=
  let t := s.thr n
  let g := (t.r.get ra).toNat
  if t.held.isNone then .fault s excSatchelState 0
  else if 255 < g then .fault s excBadTarget 0
  else s.runDisp n fun s fid => (s.leaveWindow fid).toGroup g fid

/-- The first address of a range that is reserved. -/
def firstReserved (a n : Nat) : Option Nat :=
  if devReserved a then some a
  else if a < 0x0D000000 then (if 0x0D000000 < a + n then some 0x0D000000 else none)
  else if 0x1900000000 < a + n then some 0x1900000000 else none

/-- NEWS (R41, R90). -/
def State.runNews (s : State) (n : Nat) (rd ra rb : BitVec 5) : Res :=
  let t := s.thr n
  let a := (t.r.get ra).toNat
  let len := (t.r.get rb).toNat
  if len = 0 ∨ 65535 < len then .fault s excIllegal 0
  else if t.held.isSome then .fault s excSatchelState 0
  else match firstReserved a len with
    | some x => .fault s excMemAccess x
    | none =>
      let r := s.attach (agentEnd n) 0 s.ictHalf (if n < 2048 then 200 + n / 128 else 216) (s.ldBytes a len)
      .ok (r.1.modThr n fun t => { t with held := some r.2 }) [(rd, Config.frameHandle r.2)] []

/-- CIPH (R85). -/
def State.runCiph (s : State) (n mode : Nat) (rd ra rb : BitVec 5) : Res :=
  let t := s.thr n
  let q := (t.r.get rb).toNat
  if !ciphOpOk mode then .fault s excIllegal 0
  else if 1023 < q then .fault s excBadTarget 0
  else
    let x := s.submitJob (decide (n < 2048)) mode (t.r.get ra).toNat q
    .ok x.1 [(rd, BitVec.ofNat 64 (b2n x.2))] []

/-- A system register as SYSR reads it at a steward; none where the number is unassigned (R91). -/
def Steward.sysr (x : Steward) (i : Nat) : Option W64 :=
  if i = 0x10 then some x.evec else if i = 0x11 then some x.epc else if i = 0x12 then some x.ecause
  else if i = 0x13 then some x.eaddr else if i = 0x14 then some x.estatus else if i = 0x15 then some x.escratch
  else if i = 0x20 then some 0
  else if 0x51 ≤ i ∧ i ≤ 0x7F then some ((Tab.get 0 x.evbind (i - 0x40)).setWidth 64) else none

/-- SYSR (R91). -/
def State.runSysr (s : State) (n : Nat) (rd ra : BitVec 5) : Res :=
  let t := s.thr n
  let i := (t.r.get ra).toNat
  if i = 0 then .ok s [(rd, BitVec.ofNat 64 n)] []
  else if i = 1 then .ok s [(rd, BitVec.ofNat 64 s.ictNs)] []
  else if i = 2 then .ok s [(rd, t.issued)] []
  else if i < 0x10 then .ok s [(rd, 0)] []
  else if n < 2048 then .fault s excPrivileged 0
  else match (s.stw (n - 2048)).sysr i with
    | some v => .ok s [(rd, v)] []
    | none => .fault s excIllegal 0

/-- May a source of a type and index be bound (R86)? -/
def bindOk (type idx : Nat) : Bool :=
  match type with
  | 1 => idx < 256
  | 2 => idx < 64
  | 3 => idx < 64
  | 4 => idx < 64
  | 5 => idx < 1024
  | 6 => idx < 256
  | 7 => idx < 24
  | 8 => idx < 16
  | 9 => idx < 16
  | 10 => idx = 0
  | 11 => idx < 4
  | _ => false

/-- A system register written by SYSW at a steward; none where the number is unassigned. -/
def Steward.sysw (x : Steward) (i : Nat) (v : W64) : Option Steward :=
  if i < 0x10 then some x
  else if i = 0x10 then some { x with evec := v } else if i = 0x11 then some { x with epc := v }
  else if i = 0x12 ∨ i = 0x13 then some x
  else if i = 0x14 then some { x with estatus := v &&& 1 } else if i = 0x15 then some { x with escratch := v }
  else if i = 0x20 then some { x with icache := [] }
  else if 0x51 ≤ i ∧ i ≤ 0x7F then
    if bindOk (fld v.toNat 6 4) (fld v.toNat 10 16) then
      some { x with evbind := Tab.set 0 x.evbind (i - 0x40) (BitVec.ofNat 32 (v.toNat % 2 ^ 26)) }
    else some x
  else none

/-- SYSW (R91, R92). -/
def State.runSysw (s : State) (n : Nat) (ra rb : BitVec 5) : Res :=
  let t := s.thr n
  if n < 2048 then .fault s excPrivileged 0
  else match (s.stw (n - 2048)).sysw (t.r.get ra).toNat (t.r.get rb) with
    | some x => .ok (s.setStw (n - 2048) x) [] []
    | none => .fault s excIllegal 0

/-- WAIT.PWR (R93): the steward waits for the outcome of its request. -/
def State.runWaitPwr (s : State) (n : Nat) (rd : BitVec 5) : Res :=
  if n < 2048 then .fault s excPrivileged 0
  else .stay ((s.modThr n fun t => { t with run := .waitPwr rd, pc := t.pc + 1 }).powerRequest (n - 2048)).settle

/-- CLCTL (R91, R94). -/
def State.runClctl (s : State) (n : Nat) (ra rb : BitVec 5) : Res :=
  let t := s.thr n
  let k := (t.r.get ra).toNat
  let op := (t.r.get rb).toNat
  if 15 < k ∨ 2 < op then .fault s excIllegal 0
  else if n < 2048 then .fault s excPrivileged 0
  else .ok (s.clctl k op).settle [] []

/-- TRESTART (R91, R94). -/
def State.runTrestart (s : State) (n : Nat) (ra : BitVec 5) : Res :=
  let x := ((s.thr n).r.get ra).toNat
  if 0x7FF < x then .fault s excIllegal 0
  else if n < 2048 then .fault s excPrivileged 0
  else .ok (s.restartThread x).settle [] []

/-- LOOK at a thread (R82): the result returns later. -/
def State.runLook (s : State) (n : Nat) (rd ra : BitVec 5) (table : BitVec 4) (klen rcnt : BitVec 2) (pd : BitVec 3) : Res :=
  if lookBad rd ra klen rcnt then .fault s excIllegal 0
  else .ok (s.bumpOp.startOp n s.nextOp (.look table.toNat (lookKey (s.thr n).r ra (klen.toNat + 1)) (rcnt.toNat + 1) rd pd) 0) [] []

/-- What an instruction does at a thread or steward, its predicate reading 1. -/
def State.insn (s : State) (n : Nat) (a : Afv) : Res :=
  let t := s.thr n
  match a with
  | .sput w ra rb => s.runSput n w ra rb
  | .amo op rd ra rb space wide => s.runAmo n op rd ra rb space wide
  | .ciph mode rd ra rb => s.runCiph n mode rd ra rb
  | .sget rd i => s.runSget n rd i
  | .load k rd ra space size off => s.runLoad n k rd ra space size off
  | .store be rs ra space size off => s.runStore n be rs ra space size off
  | .branch off => jumpTo s n [] (t.pc + off.toInt)
  | .call off => jumpTo s n [(31, BitVec.ofNat 64 (t.pc + 1))] (t.pc + off.toInt)
  | .jr rd ra => jumpTo s n [(rd, BitVec.ofNat 64 (t.pc + 1))] (t.r.get ra).toNat
  | .look rd ra table klen rcnt pd => s.runLook n rd ra table klen rcnt pd
  | .rcmp _ _ _ => .fault s excIllegal 0
  | .waite rd ra => s.runWaite n rd ra
  | .sige ra rb => s.runSige n ra rb
  | .sett ra => .ok ((s.timerFire n).modThr n fun t => { t with timer := some (s.ictNs + (t.r.get ra).toNat) }) [] []
  | .clrt => .ok (s.modThr n fun t => { t with timer := none, ev := t.ev &&& ~~~(0x10000 : W64) }) [] []
  | .evrd rd => .ok ((s.timerFire n).modThr n fun t => { t with ev := s.events n }) [(rd, s.events n)] []
  | .post fin ra rb => s.runPost n fin ra rb
  | .take rd ra pd pe => s.runTake n rd ra pd pe
  | .fence _ _ => .ok s [] []
  | .getw rd ra pd => s.runGetw n rd ra pd
  | .dispCont => s.runDisp n fun s fid => s.dispContinue (agentEnd n) fid
  | .dispDrop => s.runDisp n fun s fid => s.discard fid
  | .dispGroup ra => s.runDispGroup n ra
  | .news rd ra rb => s.runNews n rd ra rb
  | .sysr rd ra => s.runSysr n rd ra
  | .sysw ra rb => s.runSysw n ra rb
  | .eret => if n < 2048 then .fault s excPrivileged 0 else .stay (s.returnException (n - 2048))
  | .waitPwr rd => s.runWaitPwr n rd
  | .clctl ra rb => s.runClctl n ra rb
  | .trestart ra => s.runTrestart n ra
  | .trap code => .fault s excTrap code.toNat
  | _ =>
    match pureVal a t.r with
    | .ok g p => .ok s g p
    | _ => .fault s excIllegal 0

/-! ### Issue (R64, R81, R95, R121) -/

/-- The end of an instruction that has issued at PC `pc`. -/
def Res.apply (x : Res) (n pc : Nat) : State :=
  match x with
  | .ok s g p => s.modThr n fun t => { t with r := t.r.writes g p, pc := t.pc + 1 }
  | .jump s g target => s.modThr n fun t => { t with r := t.r.writes g [], pc := target }
  | .stay s => s
  | .fault s code addr => s.takeException n code pc addr

/-- An issue is counted, and a worker's clears the stalemate (R91, R121). -/
def State.noteIssue (s : State) (n : Nat) : State :=
  let s := s.modThr n fun t => { t with issued := t.issued + 1 }
  if n < 2048 ∧ s.rf (Reg.staleStatus (n / 128)) staleStatus_CLEARED = 0 then s.setRf (Reg.staleStatus (n / 128)) staleStatus_CLEARED 1
  else s

/-- The device address of a steward's instruction word. -/
def State.codeAddr (s : State) (pc : Nat) : Nat := s.boot.codeBase + 4 * pc

/-- Thread `n` issues: past its instruction memory MEM_ACCESS; under a predicate that reads 0 nothing but the issue; an
undecodable word ILLEGAL; else the instruction. -/
def State.issue (s : State) (n : Nat) (pr : BitVec 3) (a : Option Afv) : State :=
  let s := s.noteIssue n
  let t := s.thr n
  if pcLimit n ≤ t.pc then
    if n < 2048 then s.takeException n excMemAccess 0 0x2000
    else s.takeException n excMemAccess t.pc (s.codeAddr t.pc)
  else if !t.r.pred pr then s.setThr n { t with pc := t.pc + 1 }
  else match a with
    | some a => (s.insn n a).apply n t.pc
    | none => s.takeException n excIllegal t.pc 0

/-- An instruction at a thread or steward that is ready for it; nothing at another. -/
def State.threadExec (s : State) (n : Nat) (pr : BitVec 3) (a : Afv) : State :=
  if s.threadReady n && s.mayIssue n pr a then s.issue n pr (some a) else s

/-- An instruction at an agent: a thread, a steward, or the slot of a pipeline lane. -/
def execAfv (who : Agent) (pr : BitVec 3) (a : Afv) (s : State) : Out :=
  .next (match who with
    | .thread n => s.threadExec n.val pr a
    | .steward k => s.threadExec (2048 + k.val) pr a
    | .lane l => s.stageInsn l.val pr a)

end Sys2Proof.Machine
end

