-- ==== Sys2Proof/Machine/ThreadEvents.lean ====
section
/-! DEFINITION. What happens to threads and clusters: the issue frame, responses, events and timers, accesses held at a
gated island, the stalemate detector and the host's CLUSTER_RESTART (R23, R86 to R88, R98, R111 to R125, R348). -/

namespace Sys2Proof.Machine

/-! ### The issue frame (R92, R111 to R114) -/

/-- The word that a thread fetches: a worker's from its core's instruction memory, a steward's through its cache. -/
def State.fetchWord (s : State) (n : Nat) : W32 :=
  let pc := (s.thr n).pc
  if n < 2048 then BitVec.ofNat 32 (s.ldNat (coreBase (n / 8) + 4 * pc) 4)
  else (Tab.find (s.stw (n - 2048)).icache (s.codeAddr pc)).getD (BitVec.ofNat 32 (s.ldNat (s.codeAddr pc) 4))

/-- The words that a steward's 64 KiB instruction cache holds (R92). -/
def icacheWords : Nat := 16384

/-- A steward's cache holds the word it has fetched until ICACHE_INV, or until the full cache gives its place to another:
the spec does not say which word goes, so a free value picks it (R92). -/
def State.cacheFill (s : State) (n : Nat) : State :=
  if n < 2048 then s else
    let k := n - 2048
    let x := s.stw k
    let a := s.codeAddr x.t.pc
    let w := s.fetchWord n
    if (Tab.find x.icache a).isSome || decide (x.icache.length < icacheWords) then s.setStw k { x with icache := Tab.put x.icache a w }
    else
      let s : State := { s with free := s.free + 1 }
      s.setStw k { x with icache := Tab.put (dropAt ((Config.freeWord (s.free - 1)).toNat % x.icache.length) x.icache) a w }

/-- Is a thread ready to issue its next instruction (R98, R108)? -/
def State.ready (s : State) (n : Nat) : Bool :=
  s.threadReady n && (decide (pcLimit n ≤ (s.thr n).pc) ||
    (let w := s.fetchWord n
     match afvDecode w with
     | some a => s.mayIssue n (afvPred w) a
     | none => !clash ((s.thr n).ops.flatMap fun x => x.act.preds) [afvPred w]))

/-- The address that an instruction loads from the core's data memory, a steward's scratch memory or the frame window. -/
def State.localAddr (s : State) (n : Nat) (a : Afv) : Option Nat :=
  match a with
  | .load _ _ ra space _ off => if space = 0 ∨ space = 2 then some (effAddr ((s.thr n).r.get ra) off) else none
  | .amo _ _ ra _ space _ => if space = 0 then some ((s.thr n).r.get ra).toNat else none
  | _ => none

/-- An instruction issues whose loaded data has an uncorrectable error: it ends in ECC, unless it raises an exception that
comes first (R95). -/
def State.issueBadLoad (s : State) (n : Nat) (pr : BitVec 3) (a : Afv) : State :=
  match (if (s.thr n).r.pred pr then s.localAddr n a else none), (s.noteIssue n).insn n a with
  | none, _ => s.issue n pr (some a)
  | some _, .fault .. => s.issue n pr (some a)
  | some ea, _ => (s.noteIssue n).eccError.takeException n excEcc (s.thr n).pc ea

/-- A thread issues its next instruction, whose fetch or load may have an uncorrectable error (R95). -/
def State.issueNext (s : State) (n : Nat) (ecc : EccHit) : State :=
  let t := s.thr n
  let w := s.fetchWord n
  if pcLimit n ≤ t.pc then s.issue n 0 none
  else match ecc, afvDecode w with
    | .fetch, _ =>
      (s.noteIssue n).eccError.takeException n excEcc t.pc (if n < 2048 then coreBase (n / 8) + 4 * t.pc else s.codeAddr t.pc)
    | .load, some a => (s.cacheFill n).issueBadLoad n (afvPred w) a
    | _, d => (s.cacheFill n).issue n (afvPred w) d

/-- The first ready thread of a core after thread `rr`, in cyclic order. -/
def State.nextReady (s : State) (core rr : Nat) : Option Nat :=
  ((List.range 8).map fun i => (rr + 1 + i) % 8).find? fun t => s.ready (8 * core + t)

/-- The thread that cycle `x.n` of a core's frame goes to, and whether the round-robin pointer moves (R111). -/
def State.chooseThread (s : State) (core : Nat) (x : CoreSt) : Option Nat × Bool :=
  if x.n % 2 = 1 ∧ s.ready (8 * core + x.n / 2) then (some (x.n / 2), false)
  else if (s.entryOf (8 * core)).hipri && s.ready (8 * core) then (some 0, false)
  else (s.nextReady core x.rr, true)

/-- One cycle of a core: worker cores follow the frame; a steward's one thread issues whenever it is ready. -/
def State.issueCycle (s : State) (core : Nat) (ecc : EccHit) : State :=
  if core < 256 then
    let x := s.core core
    let c := s.chooseThread core x
    let s := s.setCore core { n := (x.n + 1) % 16, rr := if c.2 then c.1.getD x.rr else x.rr, grant := c.1 }
    match c.1 with
    | some t => s.issueNext (8 * core + t) ecc
    | none => s
  else
    let n := 2048 + (core - 256)
    if s.ready n then s.issueNext n ecc else s

/-- ISSUE_CYCLE of a core: 0–255 worker cores, 256–259 stewards. -/
def execIssueCycle (core : Fin 260) (ecc : EccHit) (s : State) : Out := .next (s.issueCycle core.val ecc)

/-! ### Responses (R78, R82, R98) -/

/-- The number of an agent that has threads' state. -/
def agentNum : Agent → Option Nat
  | .thread n => some n.val
  | .steward k => some (2048 + k.val)
  | .lane _ => none

/-- A byte of device space as firmware loads it: an entry of a table bank marked LOST reads with VALID = 0, capture
records of a marked bank read zero (R171, R416). -/
def State.devByte (s : State) (a : Nat) : Byte :=
  let b := s.ldByte a
  if !s.addrLost a then b
  else if 0x0A000000 ≤ a ∧ a < 0x0B000000 then
    match s.entryAt ((a - 0x0A000000) / 0x80000) ((a - 0x0A000000) % 0x80000) with
    | some (_, 0) => b &&& 0xFE
    | _ => b
  else
    let base := s.rf Reg.capBase capBase_BASE
    if base ≤ a ∧ a < base + 128 * 2 ^ s.rf Reg.capCfg capCfg_LOG2_RECORDS then 0 else b

/-- `n` bytes of device space as firmware loads them. -/
def State.devLoad (s : State) (a : Nat) : Nat → List Byte
  | 0 => []
  | n + 1 => s.devByte a :: s.devLoad (a + 1) n

/-- The table that entry `j` of a cluster's CL.LOOK_BIND names: partition and table. -/
def State.lookBound (s : State) (cl j : Nat) : Option (Nat × Nat) :=
  let b := (s.rd (Reg.lookBind cl j)).toNat
  if bit b 10 then some (fld b 0 5, fld b 5 5) else none

/-- The response to a LOOK of thread `n`: a hit writes its results, a miss its predicate; a LOST bank misses, and raises
RETENTION_LOST on the satchel held when the response returns, not on the one held at issue: the spec does not say which
(DESIGN CHOICE, log entry 139). -/
def State.lookAnswer (s : State) (n table : Nat) (key : List Byte) (k : Nat) (rd : BitVec 5) (pd : BitVec 3) : State :=
  let miss := fun (s : State) => s.modThr n fun t => { t with r := t.r.setPred pd false }
  match (if n < 2048 then s.lookBound (n / 128) table else none) with
  | none => miss s
  | some (q, t) =>
    if s.lookLost q t then
      match (s.thr n).held with
      | none => miss s
      | some fid => ((miss s).modThr n fun t => { t with held := none }).raiseExc fid 0x1F
    else match s.lookup q t key k with
      | none => miss s
      | some ws => s.modThr n fun t => { t with r := t.r.writes (lookWrites rd ws) [(pd, true)] }

/-- The effect of an operation when its response returns. -/
def State.performOp (s : State) (n : Nat) (x : MemOp) : State :=
  let wr := fun (s : State) (rd : BitVec 5) (v : W64) => s.modThr n fun t => { t with r := t.r.set rd v }
  match x.act with
  | .load k rd m => wr s rd (loadVal k (s.devLoad x.addr m))
  | .store bs => s.devStore n x.addr bs
  | .amo op rd m cmp b =>
    let old := leNat (s.devLoad x.addr m)
    wr (s.devStore n x.addr (leBytes m (amoNew op m old cmp.toNat b.toNat))) rd (BitVec.ofNat 64 old)
  | .look table key k rd pd => (s.lookAnswer n table key k rd pd).settle
  | .ctl rd k m v =>
    match rd, v with
    | some rd, some v => wr s rd (loadVal k (leBytes m v))
    | _, _ => s

/-- May the response to an outstanding operation return: a control access held at a gated island not yet; accesses of
one thread to one location in program order (R78)? -/
def opDue (before : List MemOp) (x : MemOp) : Bool :=
  !(before.any fun y => y.meets x) && (match x.act with
    | .ctl _ _ _ none => false
    | _ => true)

/-- The response to operation `id` of thread `n`. With `eccBad` a load or AMO ends in the ECC exception; the exception
is precise, so it comes before any later instruction of the thread issues (R95). -/
def State.respondOp (s : State) (n id : Nat) (eccBad : Bool) : State :=
  let t := s.thr n
  match firstIdx (fun x : MemOp => x.id % 2 ^ 32 = id) t.ops with
  | none => s
  | some i =>
    match t.ops[i]? with
    | none => s
    | some x =>
      if !opDue (t.ops.take i) x then s
      else if eccBad && x.act.counted then
        if x.issued = t.issued then
          (s.setThr n { t with ops := dropAt i t.ops }).eccError.takeException n excEcc x.pc x.addr
        else s
      else (s.setThr n { t with ops := dropAt i t.ops }).performOp n x

/-- MEMORY_RESPONSE. -/
def execMemoryResponse (who : Agent) (op : W32) (eccBad : Bool) (s : State) : Out :=
  .next (match agentNum who with
    | some n => if s.pstate < 2 then s.respondOp n op.toNat eccBad else s
    | none => s)

/-! ### Accesses held at a gated island (R23) -/

/-- A held access completes: a thread's operation takes its value, the window's read its completion. At an island that
is off by then it ends as R23 says for one. -/
def State.gatedDone (s : State) (x : GatedAccess) : State :=
  let r := if (s.island (x.addr / 0x1000000)).power = .off then (s.offRecord x.who x.addr x.wdata.isSome, 2 ^ (8 * x.size) - 1)
    else s.ctlPerform x.who x.addr x.size x.wdata
  let fill := fun (n : Nat) => r.1.modThr n fun t =>
    { t with ops := t.ops.map fun o => if o.id = x.op then { o with act := match o.act with
      | .ctl rd k m _ => .ctl rd k m (some r.2)
      | a => a } else o }
  match x.who with
  | .thread n => fill n
  | .steward k => fill (2048 + k)
  | .window h => if x.wdata.isNone then r.1.barReturn h x.size r.2 else r.1
  | _ => r.1

/-- GATED_ACCESS_COMPLETE: the clock of an island that holds accesses runs again, and they complete in their order. -/
def execGatedAccessComplete (island : Fin 256) (s : State) : Out :=
  let here := s.gated.filter fun x => x.addr / 0x1000000 = island.val
  if here.isEmpty then .next s
  else
    let isl := s.island island.val
    let s : State := { s with gated := s.gated.filter fun x => x.addr / 0x1000000 ≠ island.val }
    let s := if isl.power = .gated then s.setIsland island.val { isl with power := .on, busyAt := s.ictNs } else s
    done (here.foldl State.gatedDone s)

/-! ### Events and timers (R87, R88, R117) -/

/-- A thread in WAITE whose masked bit is set completes its WAITE; in a halted cluster it stays in WAITE (R109). -/
def State.wake (s : State) (n : Nat) : State :=
  match (s.thr n).run with
  | .waiting mask rd =>
    let got := s.events n &&& mask
    if got = 0 ∨ (n < 2048 ∧ (s.cluster (n / 128)).halted) then s
    else (s.takeEvents n mask).modThr n fun t => { t with run := .ready, r := t.r.set rd got, pc := t.pc + 1 }
  | _ => s

/-- WAITE_WAKE. -/
def execWaiteWake (who : Agent) (s : State) : Out :=
  if s.stopped then .next s else
  .next (match agentNum who with
    | some n => s.wake n
    | none => s)

/-- TIMER_FIRE. -/
def execTimerFire (who : Agent) (s : State) : Out :=
  if s.stopped then .next s else
  .next (match agentNum who with
    | some n => s.timerFire n
    | none => s)

/-- SIGE_DELIVER: the oldest SIGE from one thread to another takes effect; at a parked thread it is discarded. -/
def execSigeDeliver (src dst : Fin 2052) (s : State) : Out :=
  if s.stopped then .next s else
  match s.signals.find? fun m => m.src = src.val && m.dst = dst.val with
  | none => .next s
  | some m =>
    let s : State := { s with signals := s.signals.erase m }
    .next (if dst.val < 2048 ∧ (s.entryOf dst.val).parked then s else s.setEv dst.val (BitVec.ofNat 64 (2 ^ m.bit)))

/-! ### The stalemate detector (R119 to R125) -/

/-- Does a non-parked thread wait on nothing from outside (R119)? -/
def State.stuckThread (s : State) (n : Nat) : Bool :=
  match (s.thr n).run with
  | .waiting mask _ => s.events n &&& mask = 0 && !s.disciplined n mask
  | .faulted => true
  | _ => false

/-- The condition of R119. -/
def State.stale (s : State) (k : Nat) : Bool :=
  let ns := (List.range 128).map fun i => 128 * k + i
  (s.cluster k).released && !(s.cluster k).halted && (ns.any fun n => !(s.entryOf n).parked)
    && ns.all fun n => (s.entryOf n).parked || s.stuckThread n

/-- MASK, PC and STATE of a thread as CL.WAIT_SNAP holds them (R122). -/
def State.snapOf (s : State) (n : Nat) : Nat × Nat × Nat :=
  let t := s.thr n
  if (s.entryOf n).parked then (0, t.pc % 8192, 3)
  else match t.run with
    | .waiting mask _ => (mask.toNat, t.pc % 8192, 1)
    | .faulted => (0, t.pc % 8192, 2)
    | _ => (0, t.pc % 8192, 0)

/-- Every thread's state is captured into CL.WAIT_SNAP. -/
def State.captureSnap (s : State) (k : Nat) : State :=
  (List.range 128).foldl (fun s i =>
    let x := s.snapOf (128 * k + i)
    s.wrN (Reg.waitSnap k i) 4 (x.1 + 2 ^ 64 * x.2.1 + 2 ^ 77 * x.2.2)) s

/-- The STALEMATE record and the 32 STALEMATE_THREADS records. -/
def State.staleRecords (s : State) (k : Nat) : State :=
  let s := s.record 0x0052 (0x42 + k) [(0, 1, k), (4, 4, (s.rd (Reg.staleCount k)).toNat)]
  (List.range 32).foldl (fun s part =>
    s.recordFlags 0x0053 (0x42 + k) (8 * part) (recData ((List.range 4).flatMap fun i =>
      let x := s.snapOf (128 * k + 4 * part + i)
      [(10 * i, 8, x.1), (10 * i + 8, 2, x.2.1 + 2 ^ 13 * (x.2.2 % 4))]))) s

/-- The third detection within 10 s: the base firmware halts and restarts the cluster, clears DETECTED, leaves the
cluster halted and writes CLUSTER_FAILED (R124, R125). -/
def State.clusterFailed (s : State) (k : Nat) (ts : List Nat) : State :=
  let tod := fun i => s.toTod (ts.getD i 0 * nsUnit) / nsUnit
  let s := (((s.clctl k 0).clctl k 2).setRf (Reg.staleStatus k) staleStatus_DETECTED 0)
  s.recordFatal 0x0054 0x52 [(0, 1, k), (8, 8, tod 0), (16, 8, tod 1), (24, 8, tod 2)]

/-- A detection (R120, R121, R125). -/
def State.detect (s : State) (k : Nat) : State :=
  let a := Reg.staleStatus k
  let first := decide (s.rf a staleStatus_DETECTED = 0)
  let s := ((((s.setRf a staleStatus_RUN 4096).setRf a staleStatus_HOLDING 1).setRf a staleStatus_DETECTED 1).setRf a
    staleStatus_CLEARED 0).count32 (Reg.staleCount k)
  let s := if first then s.captureSnap k else s
  let s := (s.raiseSource 9 k).staleRecords k
  let c := s.cluster k
  let ts := c.detections ++ [s.ictNs]
  let ts := ts.drop (ts.length - 3)
  let s := s.setCluster k { c with detections := ts }
  if ts.length = 3 ∧ s.ictNs < ts.getD 0 0 + 10000000000 then s.clusterFailed k ts else s

/-- One cycle of the detector of cluster `k`. -/
def State.staleCycle (s : State) (k : Nat) : State :=
  let a := Reg.staleStatus k
  let holds := s.stale k
  let run := s.rf a staleStatus_RUN
  if s.rf (Reg.staleCtl k) staleCtl_ENABLE = 0 || !holds then
    (s.setRf a staleStatus_RUN 0).setRf a staleStatus_HOLDING (b2n holds)
  else if run = 4095 then s.detect k
  else (s.setRf a staleStatus_RUN (min 4096 (run + 1))).setRf a staleStatus_HOLDING 1

/-- STALEMATE_CYCLE. -/
def execStalemateCycle (cl : Fin 16) (s : State) : Out :=
  if s.stopped then .next s else
  done (s.staleCycle cl.val)

/-- STALEMATE: the cycle in which RUN reaches 4,096. -/
def execStalemate (cl : Fin 16) (s : State) : Out :=
  if s.stopped then .next s else
  let k := cl.val
  if s.rf (Reg.staleCtl k) staleCtl_ENABLE = 1 ∧ s.rf (Reg.staleStatus k) staleStatus_RUN = 4095 ∧ s.stale k then done (s.detect k)
  else .next s

/-! ### CLUSTER_RESTART (R125, R348) -/

/-- Steps 3 to 5 of R124; the window of detections is emptied. -/
def State.clusterRestart (s : State) (k : Nat) : State :=
  let s := ((s.clctl k 2).setRf (Reg.staleStatus k) staleStatus_DETECTED 0).clctl k 1
  s.setCluster k { s.cluster k with detections := [] }

/-- CLUSTER_RESTART. -/
def execClusterRestart (ch : Fin 16) (tag : Byte) (ws : List W32) (s : State) : Out :=
  done (s.hostCommand ch.val 0x30 tag.toNat ws fun s _ w => (s.clusterRestart (fld (w 1) 0 4), .now csOk []))

end Sys2Proof.Machine
end

