-- ==== Sys2Proof/Machine/Boot.lean ====
section
/-! DEFINITION. Firmware images: their checks, their sections, the steps of boot from the copied image on, and the host
commands for images (R101, R104 to R107, R421 to R427). -/

namespace Sys2Proof.Machine

/-! ### Fields of an image (R104 to R106) -/

/-- `n` bytes of an image at offset `o`, little-endian. -/
def imgNat (img : List Byte) (o n : Nat) : Nat := leNat (slice img o n)

/-- Are `n` bytes from offset `o` zero? -/
def imgZero (img : List Byte) (o n : Nat) : Bool := (slice img o n).all fun b => b = 0

/-- A section table entry (R105). -/
structure Section where
  idx : Nat
  type : Nat
  off : Nat
  len : Nat
  crc : Nat
  target : Nat
  pad : Bool
deriving DecidableEq, Repr

/-- Entry `i` of the section table. -/
def sectionAt (img : List Byte) (i : Nat) : Section :=
  let o := 0x100 + 32 * i
  ⟨i, imgNat img o 2, imgNat img (o + 4) 4, imgNat img (o + 8) 4, imgNat img (o + 12) 4, imgNat img (o + 16) 8,
    imgZero img (o + 2) 2 && imgZero img (o + 24) 8⟩

/-- The section table. -/
def sectionsOf (img : List Byte) : List Section := (List.range (imgNat img 6 2)).map (sectionAt img)

/-- The body of a section. -/
def Section.body (x : Section) (img : List Byte) : List Byte := slice img x.off x.len

/-- The words of a byte string. -/
def wordsOf (bs : List Byte) : List W32 := (List.range (bs.length / 4)).map fun i => BitVec.ofNat 32 (imgNat bs (4 * i) 4)

/-! ### Stage programs (R101) -/

/-- The registers that an instruction reads. -/
def Afv.reads : Afv → List (BitVec 5)
  | .alu _ _ ra rb => [ra, rb]
  | .mul _ _ ra rb => [ra, rb]
  | .help _ _ ra rb => [ra, rb]
  | .imm _ _ ra _ => [ra]
  | .shift _ _ ra _ _ => [ra]
  | .ext _ ra _ => [ra]
  | .load _ _ ra _ _ _ => [ra]
  | .look _ ra _ klen _ _ => (List.range (klen.toNat + 1)).map fun i => ra + BitVec.ofNat 5 i
  | .rcmp _ ra _ => [ra]
  | .sget _ _ => []
  | a => a.regs

/-- The predicates that an instruction reads. -/
def Afv.readsP : Afv → List (BitVec 3)
  | .cmp pd mode _ _ _ _ => if mode = 1 ∨ mode = 2 then [pd] else []
  | .cmpi _ pd mode _ _ => if mode = 1 ∨ mode = 2 then [pd] else []
  | .pred op _ pa pb => if op = .not then [pa] else [pa, pb]
  | _ => []

/-- What an instruction writes in a stage, and how many slots later it is readable (R98). -/
def Afv.stageWrites : Afv → Nat × List (BitVec 5) × List (BitVec 3)
  | .sget rd _ => (1, [rd], [])
  | .load _ rd _ _ _ _ => (2, [rd], [])
  | .look rd _ _ _ rcnt pd => (12, (List.range (rcnt.toNat + 1)).map (fun i => rd + BitVec.ofNat 5 i), [pd])
  | .rcmp rd _ _ => (2, [rd], [])
  | .mul _ rd _ _ => (3, [rd], [])
  | .help _ rd _ _ => (2, [rd], [])
  | .alu _ rd _ _ => (1, [rd], [])
  | .imm _ rd _ _ => (1, [rd], [])
  | .shift _ rd _ _ _ => (1, [rd], [])
  | .ext rd _ _ => (1, [rd], [])
  | .ins rd _ _ => (1, [rd], [])
  | .cmp pd _ _ pe _ _ => (1, [], [pd, pe])
  | .cmpi _ pd _ _ _ => (1, [], [pd])
  | .pred _ pd _ _ => (1, [], [pd])
  | _ => (1, [], [])

/-- May an instruction stand in slot `i` of a stage program: a major and op of the Stage column, space 0b10, a forward
branch within the stage, and reserved fields of zero (R65, R101)? -/
def stageAllows (i : Nat) (a : Afv) : Bool :=
  match a with
  | .sput .. => true
  | .sget _ x => fld x.toNat 5 9 = 0
  | .load _ _ _ space _ _ => space = 2
  | .store _ _ _ space _ _ => space = 2
  | .branch off => decide (1 ≤ off.toInt ∧ (i : Int) + off.toInt ≤ 32)
  | .look .. => true
  | .rcmp .. => true
  | .dispCont => true
  | .dispDrop => true
  | .dispGroup _ => true
  | .shift _ _ _ hi _ => hi = 0
  | .ext _ _ x => !x.getLsbD 13
  | .ins _ _ x => !x.getLsbD 13 && !x.getLsbD 12
  | _ => (stageDelay a).isSome

/-- Is the instruction a LOOK? -/
def Afv.isLook : Afv → Bool
  | .look .. => true
  | _ => false

/-- The slots from which each register (0–31) and predicate (32–39) is readable. -/
abbrev ReadyAt := Tab Nat

/-- The later of two readiness maps. -/
def ReadyAt.join (x y : ReadyAt) : ReadyAt := y.foldl (fun t e => Tab.put t e.1 (max e.2 (Tab.get 0 t e.1))) x

/-- May everything an instruction reads be read at slot `i`? -/
def readsReady (m : ReadyAt) (i : Nat) (pr : BitVec 3) (a : Afv) : Bool :=
  (a.reads.all fun r => r = 0 || decide (Tab.get 0 m r.toNat ≤ i))
    && ((pr :: a.readsP).all fun p => p = 0 || decide (Tab.get 0 m (32 + p.toNat) ≤ i))

/-- The readiness after an instruction of slot `i`. A write leaves the slot of an earlier one still on its way where that is
later (log entry 120). -/
def readyAfter (m : ReadyAt) (i : Nat) (a : Afv) : ReadyAt :=
  let w := a.stageWrites
  let later := fun (m : ReadyAt) (k : Nat) => Tab.put m k (max (Tab.get 0 m k) (i + w.1))
  w.2.2.foldl (fun m p => later m (32 + p.toNat)) (w.2.1.foldl (fun m r => later m r.toNat) m)

/-- Every path reads only what is readable: `at_` holds the readiness on entry to the slots reached so far. -/
def pathsReady : List (BitVec 3 × Afv) → Nat → Tab ReadyAt → Bool
  | [], _, _ => true
  | (pr, a) :: rest, i, at_ =>
    match Tab.find at_ i with
    | none => pathsReady rest (i + 1) at_
    | some m =>
      let out := readyAfter m i a
      let reach := fun (t : Tab ReadyAt) (j : Nat) (m : ReadyAt) =>
        Tab.put t j (match Tab.find t j with
          | some x => ReadyAt.join x m
          | none => m)
      let at2 := match a with
        | .branch off =>
          let t := reach at_ (i + off.toInt.toNat) m
          if pr = 0 then t else reach t (i + 1) m
        | _ => reach at_ (i + 1) out
      readsReady m i pr a && pathsReady rest (i + 1) at2

/-- Does a stage program meet R101? -/
def stageProgramOk (ws : List W32) : Bool :=
  let ds := ws.map fun w => (afvPred w, afvDecode w)
  let prog := ds.filterMap fun d => d.2.map fun a => (d.1, a)
  decide (1 ≤ ws.length ∧ ws.length ≤ 32 ∧ prog.length = ws.length)
    && decide ((prog.filter fun d => d.2.isLook).length = 1)
    && ((List.range prog.length).all fun i =>
      match prog[i]? with
      | some d => stageAllows i d.2
      | none => false)
    && pathsReady prog 0 [(0, [])]

/-! ### The thread table (R106, R107) -/

/-- The bindings of an entry, where its list lies within the section. -/
def entryBinds (body : List Byte) (i : Nat) : List W32 :=
  let n := imgNat body (32 * i + 3) 1
  let o := imgNat body (32 * i + 8) 4
  (List.range n).map fun j => BitVec.ofNat 32 (imgNat body (o + 4 * j) 4)

/-- A binding word. -/
def bindingOf (w : W32) : Binding := ⟨fld w.toNat 0 6, fld w.toNat 6 4, fld w.toNat 10 16⟩

/-- Thread-table entry `i`. -/
def tableEntry (body : List Byte) (i : Nat) : ThreadEntry :=
  let o := 32 * i
  let fl := imgNat body (o + 2) 1
  { parked := bit fl 0, hipri := bit fl 1, ctl := bit fl 2, mbox := bit fl 3, entry := imgNat body (o + 4) 2,
    g1 := BitVec.ofNat 64 (imgNat body (o + 16) 8), g2 := BitVec.ofNat 64 (imgNat body (o + 24) 8),
    binds := (entryBinds body i).map bindingOf }

/-- Does thread-table entry `i` meet R106 and R107? -/
def tableEntryOk (body : List Byte) (i : Nat) : Bool :=
  let o := 32 * i
  let fl := imgNat body (o + 2) 1
  let n := imgNat body (o + 3) 1
  let bs := entryBinds body i
  imgNat body o 2 = i && fl < 16 && n ≤ 47 && imgNat body (o + 4) 2 ≤ 8191 && imgZero body (o + 6) 2 && imgZero body (o + 12) 4
    && (n = 0 || decide (imgNat body (o + 8) 4 + 4 * n ≤ body.length))
    && (!bit fl 1 || i % 8 = 0)
    && (bs.all fun w =>
      let b := bindingOf w
      fld w.toNat 26 6 = 0 && decide (17 ≤ b.bit) && bindOk b.type b.index && decide (b.type < 8))
    && decide ((bs.map fun w => (bindingOf w).bit).Nodup)

/-! ### Checking an image (R107, R423) -/

/-- Does the header meet R104? -/
def headerOk (img : List Byte) : Bool :=
  let n := imgNat img 6 2
  let len := imgNat img 8 4
  imgNat img 0 4 = 0x32564641 && imgNat img 4 2 = 1 && decide (2 ≤ n ∧ n ≤ 256) && decide (len ≤ 0x4000000 ∧ len ≤ img.length)
    && decide (0x100 + 32 * n ≤ len) && imgZero img 0x15 3 && imgZero img 0x28 216
    && (imgNat img 0x14 1 = 2 || imgNat img 0x14 1 = 3)

/-- Does a range lie wholly within the SRAM pools or the Coolbox? -/
def inDevice (a n : Nat) : Bool := (firstReserved a (max n 1)).isNone

/-- Does a section meet the limits of R105, and what it holds those of R101 and R107? `last` is the table's last index. The spec
gives a STAGE section's TARGET fields in [39:0] and does not say what the other bits hold: the model rejects one that sets them
(DESIGN CHOICE, log entry 141). -/
def Section.ok (x : Section) (img : List Byte) (len last : Nat) : Bool :=
  let body := x.body img
  x.pad && x.off % 64 = 0 && decide (x.off + x.len ≤ len) && (crc32c body = x.crc)
    && (decide (x.type = 0xFF) == decide (x.idx = last))
    && (match x.type with
      | 1 => x.target < 2 ^ 40 && fld x.target 32 4 < 12 && x.len % 4 = 0 && stageProgramOk (wordsOf body)
      | 2 => x.target = 0 && decide (65536 ≤ x.len) && (List.range 2048).all (tableEntryOk body)
      | 3 => (x.target < 256 || x.target = 0xFFFF) && x.len ≤ 0x8000
      | 4 => (x.target < 256 || x.target = 0xFFFF) && x.len ≤ 0x10000
      | 5 => inDevice x.target x.len
      | 6 => decide (0x100000000 ≤ x.target) && inDevice x.target x.len && x.len ≤ 0x400000
      | 7 => x.target = 0 && x.len % 8 = 0
      | 0xFF => x.target = 0 && x.len = 196
      | _ => false)

/-- The section at fault under R107, and 0xFFFF where the table holds no THREAD_TABLE; none where all hold. -/
def sectionFault (img : List Byte) : Option Nat :=
  let len := imgNat img 8 4
  let xs := sectionsOf img
  match xs.find? fun x => !x.ok img len (xs.length - 1) with
  | some x => some x.idx
  | none =>
    match xs.filter fun x => x.type = 2 with
    | [] => some 0xFFFF
    | [_] => none
    | _ :: y :: _ => some y.idx

/-- KEY_HASH[i] as fuse bytes (R428). -/
def State.keyHash (s : State) (i : Nat) : List Byte := leBytes 48 (s.fuseBits (192 + 384 * i) 384)

/-- Is KEY_HASH[i] programmed? -/
def State.keyUsed (s : State) (i : Nat) : Bool := s.fuseBits (192 + 384 * i) 384 ≠ 0

/-- Does any KEY_HASH stand in the fuses (R423)? -/
def State.provisioned (s : State) : Bool := (List.range 4).any s.keyUsed

/-- The verdict on a copied image: none to accept it, else REASON and section index, the first in the order of REASON. -/
def State.imageFault (s : State) (img : List Byte) : Option (Nat × Nat) :=
  if !headerOk img then some (1, 0xFFFF)
  else match sectionFault img with
    | some i => some (2, i)
    | none =>
      let sig := sectionAt img (imgNat img 6 2 - 1)
      let body := sig.body img
      let key := body.take 97
      let h := sha384 key
      let known := (List.range 4).any fun i => s.keyUsed i && !bit (s.fuseProg 0).toNat (4 + i) && s.keyHash i = h
      if s.provisioned && !known then some (3, sig.idx)
      else if imgNat key 0 1 ≠ 4 || !ecdsaVerify (key.drop 1) (sha384 (img.take sig.off)) (slice body 100 96) then some (4, sig.idx)
      else if imgNat img 0x0C 1 < s.rollbackCounter then some (5, 0xFFFF)
      else none

/-! ### Applying an image (R105, R425) -/

/-- The cores that a CORE_CODE or CORE_DATA section names. -/
def coresOf (target : Nat) : List Nat := if target = 0xFFFF then List.range 256 else [target]

/-- The body of a section takes its place; CONTROL_INIT is applied apart. The spec does not say which of several STEWARD_CODE
sections gives the stewards' code base, nor what holds with none: the model takes the TARGET of the last, and keeps the base it
had with none (DESIGN CHOICE, log entry 140). -/
def State.applySection (s : State) (img : List Byte) (x : Section) : State :=
  let body := x.body img
  match x.type with
  | 1 =>
    let ws := wordsOf body
    let stage := fld x.target 32 4
    let slot := fld x.target 36 4
    let pipes := (List.range 32).filter fun n => bit x.target n
    pipes.foldl (fun s n => (List.range 32).foldl (fun s i => s.wr (Reg.pipeProg n stage slot i) (ws.getD i 0)) s) s
  | 2 => (List.range 2048).foldl (fun s i => { s with entries := Tab.put s.entries i (tableEntry body i) }) s
  | 3 => (coresOf x.target).foldl (fun s c => s.stBytes (coreBase c) body) s
  | 4 => (coresOf x.target).foldl (fun s c => s.stBytes (coreData c) body) s
  | 5 => s.stBytes x.target body
  | 6 =>
    let s := s.stBytes x.target body
    { s with boot := { s.boot with codeBase := x.target } }
  | _ => s

/-- The pairs of a CONTROL_INIT section, written in order by St0. -/
def State.applyInit (s : State) (img : List Byte) (x : Section) : State :=
  if x.type ≠ 7 then s else
    let ws := wordsOf (x.body img)
    (List.range (ws.length / 2)).foldl (fun s i =>
      (s.ctlAccess (.steward 0) 0 (ws.getD (2 * i) 0).toNat 4 (some (ws.getD (2 * i + 1) 0).toNat)).1) s

/-- The clusters are released and every thread and steward starts (R60, R104, R425). -/
def State.startAll (s : State) (img : List Byte) : State :=
  let s : State := { s with cores := [], threads := (List.range 2048).map fun n => (n, startThread (s.entryOf n) 0) }
  let s := (List.range 16).foldl (fun s k => s.setCluster k { released := true }) s
  (List.range 4).foldl (fun s k =>
    s.setStw k { s.stw k with t := { pc := imgNat img (0x18 + 4 * k) 4 }, icache := [] }) s

/-- Steps 8 and 9 of boot: the image is accepted; boot has completed, and BOOT_FAILED says so. -/
def State.acceptImage (s : State) (img : List Byte) : State :=
  let xs := sectionsOf img
  let s := xs.foldl (fun s x => s.applySection img x) s
  let s := xs.foldl (fun s x => s.applyInit img x) s
  let s := s.fmtGenSet (imgNat img 0x0D 3)
  let rb := imgNat img 0x0C 1
  let id := imgNat img 0x10 4
  let un := b2n (!s.provisioned)
  let s := ((s.setRf Reg.bootStatus bootStatus_SLOT s.boot.slot).setRf Reg.bootStatus bootStatus_UNPROVISIONED un).setRf
    Reg.bootStatus bootStatus_ROLLBACK rb
  let s := (s.wr (Reg.fwBuild 0) (BitVec.ofNat 32 id)).wr (Reg.fwBuild 1) (BitVec.ofNat 32 id)
  let s := s.setDevStatus devStatus_BOOT_FAILED 0
  let s := s.record 0x0002 0x52 [(0, 1, s.boot.slot), (1, 1, un), (2, 1, rb), (4, 4, id)]
  let s := s.startAll img
  let b := s.boot
  { s with boot := { b with phase := .running, force := none, rollback := rb, buildId := id, faultSteward := imgNat img 0x14 1 } }

/-- An image is rejected: the other slot is tried, or boot has failed (R107, R421). -/
def State.rejectImage (s : State) (reason idx : Nat) : State :=
  let slot := s.boot.slot
  let s := (s.record 0x0003 0x52 [(0, 1, slot), (1, 1, reason), (2, 2, idx)]).setRf Reg.bootStatus bootStatus_REASON reason
  let rs := s.boot.reasons ++ [(slot, reason)]
  if rs.length < 2 then
    let s : State := { s with boot := { s.boot with slot := 1 - slot, reasons := rs } }
    s.setRf Reg.bootStatus bootStatus_FALLBACK 1
  else
    let of := fun k => ((rs.find? fun r => r.1 = k).map Prod.snd).getD 0
    let s : State := { s with boot := { s.boot with phase := .failed, reasons := rs, failedAt := s.ictNs } }
    (s.setDevStatus devStatus_BOOT_FAILED 1).recordFatal 0x0004 0x52 [(0, 1, of 0), (1, 1, of 1)]

/-- Where the image is copied to (R422). -/
def imageCopyBase : Nat := 0x18FC000000

/-- Steps 6 to 9 of boot: the slot's bytes are in the Coolbox, and the image is verified and applied or rejected. -/
def State.imageCopied (s : State) (img : List Byte) (readOk : Bool) : State :=
  if s.boot.phase ≠ .copying then s
  else if !readOk then s.rejectImage 6 0xFFFF
  else
    let s := s.stBytes imageCopyBase (img.take 0x4000000)
    match s.imageFault img with
    | some r => s.rejectImage r.1 r.2
    | none => s.acceptImage img

/-- IMAGE_COPY_COMPLETE. -/
def execImageCopyComplete (image : List Byte) (readOk : Bool) (s : State) : Out := done (s.imageCopied image readOk)

/-! ### Host commands (R427) -/

/-- IMG_WRITE: host data for a flash slot, from PF0 without PASID. -/
def State.imgWrite (s : State) (h ch tag : Nat) (w : Nat → Nat) : State × CmdEnd :=
  let slot := w 1 % 2
  let off := w 2
  let len := w 5
  if len = 0 ∨ 1048576 < len ∨ 0x4000000 < off + len then (s, .now csBadArg [])
  else if slot = s.rf Reg.bootStatus bootStatus_SLOT then (s, .now csBadState [])
  else
    let r := s.hostRead .imgWrite (4096 * off + 256 * ch + tag) h 0 0 (iova w 3) len
    match r.2 with
    | some _ => (r.1, .later slot (s.ictNs + 10000000000))
    | none => ({ r.1 with free := r.1.free + 1 }, .now (Config.freeByte r.1.free).toNat [])

/-- IMG_WRITE. -/
def execImgWrite (ch : Fin 16) (tag : Byte) (ws : List W32) (s : State) : Out :=
  done (s.hostCommand ch.val 0x40 tag.toNat ws fun s h w => s.imgWrite h ch.val tag.toNat w)

/-- The selector's page with a preferred slot (R420). -/
def selectorBytes (slot : Nat) : List Byte := leBytes 4 0x54434C53 ++ leBytes 1 slot ++ List.replicate 4091 0

/-- IMG_ACTIVATE of a slot that holds `img`: verified, selected, answered, and the device restarted with it. The answer
is in the channel after the restart. -/
def State.imgActivate (s : State) (img : List Byte) (readOk : Bool) (w : Nat → Nat) : State × CmdEnd :=
  let slot := w 1 % 2
  if !readOk || (s.imageFault img).isSome then (s, .now csBadArg [])
  else
    let s := s.emit (.flash 2 0 (selectorBytes slot))
    let s : State := { s with boot := { s.boot with force := some slot } }
    if s.rf Reg.pwrStatus pwrStatus_BUSY = 0 then (s.restart, .now csOk []) else (s, .now csOk [])

/-- IMG_ACTIVATE. -/
def execImgActivate (ch : Fin 16) (tag : Byte) (ws : List W32) (image : List Byte) (readOk : Bool) (s : State) : Out :=
  done (s.hostCommand ch.val 0x41 tag.toNat ws fun s _ w => s.imgActivate image readOk w)

/-- ROLLBACK_COMMIT: ROLLBACK_SET to the running image's ROLLBACK. While another fuse operation runs the spec gives no
status: a free value. -/
def State.rollbackCommit (s : State) : State × CmdEnd :=
  if s.rf Reg.fuseResult fuseResult_BUSY = 1 then ({ s with free := s.free + 1 }, .now (Config.freeByte s.free).toNat [])
  else ((s.wr Reg.fuseData (BitVec.ofNat 32 s.boot.rollback)).fuseCmdWrite 2 0, .later 0 (s.ictNs + 2000000))

/-- ROLLBACK_COMMIT. -/
def execRollbackCommit (ch : Fin 16) (tag : Byte) (ws : List W32) (s : State) : Out :=
  done (s.hostCommand ch.val 0x42 tag.toNat ws fun s _ _ => s.rollbackCommit)

end Sys2Proof.Machine
end

