-- ==== Sys2Proof/Machine/InsnArith.lean ====
section
/-! DEFINITION. Rows of the integer, bit-field, compare and predicate instructions (R66 to R70, R84): each is one instruction of AFV-2 at the agent that its command names. -/

namespace Sys2Proof.Machine

/-- ADD (R66). -/
def execAdd (who : Agent) (pr : BitVec 3) (rd ra rb : BitVec 5) (s : State) : Out :=
  execAfv who pr (.alu .add rd ra rb) s
/-- SUB (R66). -/
def execSub (who : Agent) (pr : BitVec 3) (rd ra rb : BitVec 5) (s : State) : Out :=
  execAfv who pr (.alu .sub rd ra rb) s
/-- AND (R66). -/
def execAnd (who : Agent) (pr : BitVec 3) (rd ra rb : BitVec 5) (s : State) : Out :=
  execAfv who pr (.alu .and rd ra rb) s
/-- OR (R66). -/
def execOr (who : Agent) (pr : BitVec 3) (rd ra rb : BitVec 5) (s : State) : Out :=
  execAfv who pr (.alu .or rd ra rb) s
/-- XOR (R66). -/
def execXor (who : Agent) (pr : BitVec 3) (rd ra rb : BitVec 5) (s : State) : Out :=
  execAfv who pr (.alu .xor rd ra rb) s
/-- ANDN (R66). -/
def execAndn (who : Agent) (pr : BitVec 3) (rd ra rb : BitVec 5) (s : State) : Out :=
  execAfv who pr (.alu .andn rd ra rb) s
/-- SHL (R66). -/
def execShl (who : Agent) (pr : BitVec 3) (rd ra rb : BitVec 5) (s : State) : Out :=
  execAfv who pr (.alu .shl rd ra rb) s
/-- SHR (R66). -/
def execShr (who : Agent) (pr : BitVec 3) (rd ra rb : BitVec 5) (s : State) : Out :=
  execAfv who pr (.alu .shr rd ra rb) s
/-- SRA (R66). -/
def execSra (who : Agent) (pr : BitVec 3) (rd ra rb : BitVec 5) (s : State) : Out :=
  execAfv who pr (.alu .sra rd ra rb) s
/-- ROL (R66). -/
def execRol (who : Agent) (pr : BitVec 3) (rd ra rb : BitVec 5) (s : State) : Out :=
  execAfv who pr (.alu .rol rd ra rb) s
/-- ROR (R66). -/
def execRor (who : Agent) (pr : BitVec 3) (rd ra rb : BitVec 5) (s : State) : Out :=
  execAfv who pr (.alu .ror rd ra rb) s
/-- MINU (R66). -/
def execMinu (who : Agent) (pr : BitVec 3) (rd ra rb : BitVec 5) (s : State) : Out :=
  execAfv who pr (.alu .minu rd ra rb) s
/-- MAXU (R66). -/
def execMaxu (who : Agent) (pr : BitVec 3) (rd ra rb : BitVec 5) (s : State) : Out :=
  execAfv who pr (.alu .maxu rd ra rb) s
/-- MINS (R66). -/
def execMins (who : Agent) (pr : BitVec 3) (rd ra rb : BitVec 5) (s : State) : Out :=
  execAfv who pr (.alu .mins rd ra rb) s
/-- MAXS (R66). -/
def execMaxs (who : Agent) (pr : BitVec 3) (rd ra rb : BitVec 5) (s : State) : Out :=
  execAfv who pr (.alu .maxs rd ra rb) s
/-- CLZ (R66). -/
def execClz (who : Agent) (pr : BitVec 3) (rd ra rb : BitVec 5) (s : State) : Out :=
  execAfv who pr (.alu .clz rd ra rb) s
/-- CTZ (R66). -/
def execCtz (who : Agent) (pr : BitVec 3) (rd ra rb : BitVec 5) (s : State) : Out :=
  execAfv who pr (.alu .ctz rd ra rb) s
/-- POPC (R66). -/
def execPopc (who : Agent) (pr : BitVec 3) (rd ra rb : BitVec 5) (s : State) : Out :=
  execAfv who pr (.alu .popc rd ra rb) s
/-- BSWAP (R66). -/
def execBswap (who : Agent) (pr : BitVec 3) (rd ra rb : BitVec 5) (s : State) : Out :=
  execAfv who pr (.alu .bswap rd ra rb) s
/-- ADD32 (R66). -/
def execAdd32 (who : Agent) (pr : BitVec 3) (rd ra rb : BitVec 5) (s : State) : Out :=
  execAfv who pr (.alu .add32 rd ra rb) s
/-- SUB32 (R66). -/
def execSub32 (who : Agent) (pr : BitVec 3) (rd ra rb : BitVec 5) (s : State) : Out :=
  execAfv who pr (.alu .sub32 rd ra rb) s
/-- MUL (R67). -/
def execMul (who : Agent) (pr : BitVec 3) (rd ra rb : BitVec 5) (s : State) : Out :=
  execAfv who pr (.mul .mul rd ra rb) s
/-- MULHU (R67). -/
def execMulhu (who : Agent) (pr : BitVec 3) (rd ra rb : BitVec 5) (s : State) : Out :=
  execAfv who pr (.mul .mulhu rd ra rb) s
/-- MULHS (R67). -/
def execMulhs (who : Agent) (pr : BitVec 3) (rd ra rb : BitVec 5) (s : State) : Out :=
  execAfv who pr (.mul .mulhs rd ra rb) s
/-- DIVU (R67). -/
def execDivu (who : Agent) (pr : BitVec 3) (rd ra rb : BitVec 5) (s : State) : Out :=
  execAfv who pr (.mul .divu rd ra rb) s
/-- REMU (R67). -/
def execRemu (who : Agent) (pr : BitVec 3) (rd ra rb : BitVec 5) (s : State) : Out :=
  execAfv who pr (.mul .remu rd ra rb) s
/-- DIVS (R67). -/
def execDivs (who : Agent) (pr : BitVec 3) (rd ra rb : BitVec 5) (s : State) : Out :=
  execAfv who pr (.mul .divs rd ra rb) s
/-- REMS (R67). -/
def execRems (who : Agent) (pr : BitVec 3) (rd ra rb : BitVec 5) (s : State) : Out :=
  execAfv who pr (.mul .rems rd ra rb) s
/-- CMP (R69). -/
def execCmp (who : Agent) (pr : BitVec 3) (pd : BitVec 3) (mode : BitVec 2) (cond : BitVec 4) (pe : BitVec 3) (ra rb : BitVec 5) (s : State) : Out :=
  execAfv who pr (.cmp pd mode cond pe ra rb) s
/-- PAND (R70). -/
def execPand (who : Agent) (pr : BitVec 3) (pd pa pb : BitVec 3) (s : State) : Out :=
  execAfv who pr (.pred .and pd pa pb) s
/-- POR (R70). -/
def execPor (who : Agent) (pr : BitVec 3) (pd pa pb : BitVec 3) (s : State) : Out :=
  execAfv who pr (.pred .or pd pa pb) s
/-- PXOR (R70). -/
def execPxor (who : Agent) (pr : BitVec 3) (pd pa pb : BitVec 3) (s : State) : Out :=
  execAfv who pr (.pred .xor pd pa pb) s
/-- PANDN (R70). -/
def execPandn (who : Agent) (pr : BitVec 3) (pd pa pb : BitVec 3) (s : State) : Out :=
  execAfv who pr (.pred .andn pd pa pb) s
/-- PNOT (R70). -/
def execPnot (who : Agent) (pr : BitVec 3) (pd pa pb : BitVec 3) (s : State) : Out :=
  execAfv who pr (.pred .not pd pa pb) s
/-- ADDI (R68). -/
def execAddi (who : Agent) (pr : BitVec 3) (rd ra : BitVec 5) (imm : BitVec 14) (s : State) : Out :=
  execAfv who pr (.imm .addi rd ra imm) s
/-- ANDI (R68). -/
def execAndi (who : Agent) (pr : BitVec 3) (rd ra : BitVec 5) (imm : BitVec 14) (s : State) : Out :=
  execAfv who pr (.imm .andi rd ra imm) s
/-- ORI (R68). -/
def execOri (who : Agent) (pr : BitVec 3) (rd ra : BitVec 5) (imm : BitVec 14) (s : State) : Out :=
  execAfv who pr (.imm .ori rd ra imm) s
/-- XORI (R68). -/
def execXori (who : Agent) (pr : BitVec 3) (rd ra : BitVec 5) (imm : BitVec 14) (s : State) : Out :=
  execAfv who pr (.imm .xori rd ra imm) s
/-- SHLI (R68). -/
def execShli (who : Agent) (pr : BitVec 3) (rd ra : BitVec 5) (hi amt : BitVec 6) (s : State) : Out :=
  execAfv who pr (.shift .shl rd ra hi amt) s
/-- SHRI (R68). -/
def execShri (who : Agent) (pr : BitVec 3) (rd ra : BitVec 5) (hi amt : BitVec 6) (s : State) : Out :=
  execAfv who pr (.shift .shr rd ra hi amt) s
/-- SRAI (R68). -/
def execSrai (who : Agent) (pr : BitVec 3) (rd ra : BitVec 5) (hi amt : BitVec 6) (s : State) : Out :=
  execAfv who pr (.shift .sra rd ra hi amt) s
/-- ROLI (R68). -/
def execRoli (who : Agent) (pr : BitVec 3) (rd ra : BitVec 5) (hi amt : BitVec 6) (s : State) : Out :=
  execAfv who pr (.shift .rol rd ra hi amt) s
/-- MOVK (R68). -/
def execMovk (who : Agent) (pr : BitVec 3) (rd ra : BitVec 5) (imm : BitVec 14) (s : State) : Out :=
  execAfv who pr (.imm .movk rd ra imm) s
/-- EXT (R68). -/
def execExt (who : Agent) (pr : BitVec 3) (rd ra : BitVec 5) (imm : BitVec 14) (s : State) : Out :=
  execAfv who pr (.ext rd ra imm) s
/-- INS (R68). -/
def execIns (who : Agent) (pr : BitVec 3) (rd ra : BitVec 5) (imm : BitVec 14) (s : State) : Out :=
  execAfv who pr (.ins rd ra imm) s
/-- CMPI_EQ (R69). -/
def execCmpiEq (who : Agent) (pr : BitVec 3) (pd : BitVec 3) (mode : BitVec 2) (ra : BitVec 5) (imm : BitVec 14) (s : State) : Out :=
  execAfv who pr (.cmpi .eq pd mode ra imm) s
/-- CMPI_LTU (R69). -/
def execCmpiLtu (who : Agent) (pr : BitVec 3) (pd : BitVec 3) (mode : BitVec 2) (ra : BitVec 5) (imm : BitVec 14) (s : State) : Out :=
  execAfv who pr (.cmpi .ltu pd mode ra imm) s
/-- CMPI_LTS (R69). -/
def execCmpiLts (who : Agent) (pr : BitVec 3) (pd : BitVec 3) (mode : BitVec 2) (ra : BitVec 5) (imm : BitVec 14) (s : State) : Out :=
  execAfv who pr (.cmpi .lts pd mode ra imm) s
/-- CMPI_ANY (R69). -/
def execCmpiAny (who : Agent) (pr : BitVec 3) (pd : BitVec 3) (mode : BitVec 2) (ra : BitVec 5) (imm : BitVec 14) (s : State) : Out :=
  execAfv who pr (.cmpi .any pd mode ra imm) s
/-- CRC32C (R84). -/
def execCrc32c (who : Agent) (pr : BitVec 3) (rd ra rb : BitVec 5) (s : State) : Out :=
  execAfv who pr (.help .crc32c rd ra rb) s
/-- CRC64N (R84). -/
def execCrc64n (who : Agent) (pr : BitVec 3) (rd ra rb : BitVec 5) (s : State) : Out :=
  execAfv who pr (.help .crc64n rd ra rb) s
/-- GFMUL (R84). -/
def execGfmul (who : Agent) (pr : BitVec 3) (rd ra rb : BitVec 5) (s : State) : Out :=
  execAfv who pr (.help .gfmul rd ra rb) s
/-- GFXOR (R84). -/
def execGfxor (who : Agent) (pr : BitVec 3) (rd ra rb : BitVec 5) (s : State) : Out :=
  execAfv who pr (.help .gfxor rd ra rb) s

end Sys2Proof.Machine
end

