-- ==== Sys2Proof/Machine/InsnControl.lean ====
section
/-! DEFINITION. Rows of the branch, event, mailbox, work, system and privileged instructions (R81, R87 to R97): each is one instruction of AFV-2 at the agent that its command names. -/

namespace Sys2Proof.Machine

/-- B (R81). -/
def execBranch (who : Agent) (pr : BitVec 3) (off : BitVec 20) (s : State) : Out :=
  execAfv who pr (.branch off) s
/-- CALL (R81). -/
def execCall (who : Agent) (pr : BitVec 3) (off : BitVec 20) (s : State) : Out :=
  execAfv who pr (.call off) s
/-- JR (R81). -/
def execJr (who : Agent) (pr : BitVec 3) (rd ra : BitVec 5) (s : State) : Out :=
  execAfv who pr (.jr rd ra) s
/-- WAITE (R87). -/
def execWaite (who : Agent) (pr : BitVec 3) (rd ra : BitVec 5) (s : State) : Out :=
  execAfv who pr (.waite rd ra) s
/-- SIGE (R87). -/
def execSige (who : Agent) (pr : BitVec 3) (ra rb : BitVec 5) (s : State) : Out :=
  execAfv who pr (.sige ra rb) s
/-- SETT (R87). -/
def execSett (who : Agent) (pr : BitVec 3) (ra : BitVec 5) (s : State) : Out :=
  execAfv who pr (.sett ra) s
/-- CLRT (R87). -/
def execClrt (who : Agent) (pr : BitVec 3) (s : State) : Out :=
  execAfv who pr (.clrt) s
/-- EVRD (R87). -/
def execEvrd (who : Agent) (pr : BitVec 3) (rd : BitVec 5) (s : State) : Out :=
  execAfv who pr (.evrd rd) s
/-- POST (R89). -/
def execPost (who : Agent) (pr : BitVec 3) (ra rb : BitVec 5) (s : State) : Out :=
  execAfv who pr (.post false ra rb) s
/-- POST_END (R89). -/
def execPostEnd (who : Agent) (pr : BitVec 3) (ra rb : BitVec 5) (s : State) : Out :=
  execAfv who pr (.post true ra rb) s
/-- TAKE (R89). -/
def execTake (who : Agent) (pr : BitVec 3) (rd ra : BitVec 5) (pd pe : BitVec 3) (s : State) : Out :=
  execAfv who pr (.take rd ra pd pe) s
/-- GETW (R90). -/
def execGetw (who : Agent) (pr : BitVec 3) (rd ra : BitVec 5) (pd : BitVec 3) (s : State) : Out :=
  execAfv who pr (.getw rd ra pd) s
/-- DISP_CONT (R90). -/
def execDispCont (who : Agent) (pr : BitVec 3) (s : State) : Out :=
  execAfv who pr (.dispCont) s
/-- DISP_DROP (R90). -/
def execDispDrop (who : Agent) (pr : BitVec 3) (s : State) : Out :=
  execAfv who pr (.dispDrop) s
/-- DISP_GROUP (R90). -/
def execDispGroup (who : Agent) (pr : BitVec 3) (ra : BitVec 5) (s : State) : Out :=
  execAfv who pr (.dispGroup ra) s
/-- NEWS (R90). -/
def execNews (who : Agent) (pr : BitVec 3) (rd ra rb : BitVec 5) (s : State) : Out :=
  execAfv who pr (.news rd ra rb) s
/-- SYSR (R91). -/
def execSysr (who : Agent) (pr : BitVec 3) (rd ra : BitVec 5) (s : State) : Out :=
  execAfv who pr (.sysr rd ra) s
/-- SYSW (R91). -/
def execSysw (who : Agent) (pr : BitVec 3) (ra rb : BitVec 5) (s : State) : Out :=
  execAfv who pr (.sysw ra rb) s
/-- ICACHE_INV (R92). The register ra holds the number 0x20. -/
def execIcacheInv (who : Agent) (pr : BitVec 3) (ra rb : BitVec 5) (s : State) : Out :=
  execAfv who pr (.sysw ra rb) s
/-- ERET (R97). -/
def execEret (who : Agent) (pr : BitVec 3) (s : State) : Out :=
  execAfv who pr (.eret) s
/-- WAIT_PWR (R93). -/
def execWaitPwr (who : Agent) (pr : BitVec 3) (rd : BitVec 5) (s : State) : Out :=
  execAfv who pr (.waitPwr rd) s
/-- HALT (R94). The register rb holds the operation, 0. -/
def execHalt (who : Agent) (pr : BitVec 3) (ra rb : BitVec 5) (s : State) : Out :=
  execAfv who pr (.clctl ra rb) s
/-- RELEASE (R94). The register rb holds the operation, 1. -/
def execRelease (who : Agent) (pr : BitVec 3) (ra rb : BitVec 5) (s : State) : Out :=
  execAfv who pr (.clctl ra rb) s
/-- RESTART (R94). The register rb holds the operation, 2. -/
def execRestart (who : Agent) (pr : BitVec 3) (ra rb : BitVec 5) (s : State) : Out :=
  execAfv who pr (.clctl ra rb) s
/-- TRESTART (R94). -/
def execTrestart (who : Agent) (pr : BitVec 3) (ra : BitVec 5) (s : State) : Out :=
  execAfv who pr (.trestart ra) s
/-- TRAP (R91). -/
def execTrap (who : Agent) (pr : BitVec 3) (code : BitVec 5) (s : State) : Out :=
  execAfv who pr (.trap code) s

end Sys2Proof.Machine
end

