-- ==== Sys2Proof/Machine/InsnMemory.lean ====
section
/-! DEFINITION. Rows of the satchel, memory, control-space, lookup and cipher-job instructions (R71 to R79, R82, R83, R85): each is one instruction of AFV-2 at the agent that its command names. -/

namespace Sys2Proof.Machine

/-- SGET (R71). -/
def execSget (who : Agent) (pr : BitVec 3) (rd : BitVec 5) (imm : BitVec 14) (s : State) : Out :=
  execAfv who pr (.sget rd imm) s
/-- SPUT (R72). -/
def execSput (who : Agent) (pr : BitVec 3) (n : BitVec 4) (ra rb : BitVec 5) (s : State) : Out :=
  execAfv who pr (.sput n ra rb) s
/-- LD (R76). -/
def execLd (who : Agent) (pr : BitVec 3) (rd ra : BitVec 5) (space size : BitVec 2) (off : BitVec 9) (s : State) : Out :=
  execAfv who pr (.load .zero rd ra space size off) s
/-- LDS (R76). -/
def execLds (who : Agent) (pr : BitVec 3) (rd ra : BitVec 5) (space size : BitVec 2) (off : BitVec 9) (s : State) : Out :=
  execAfv who pr (.load .sign rd ra space size off) s
/-- LDBE (R76). -/
def execLdbe (who : Agent) (pr : BitVec 3) (rd ra : BitVec 5) (space size : BitVec 2) (off : BitVec 9) (s : State) : Out :=
  execAfv who pr (.load .be rd ra space size off) s
/-- ST (R76). -/
def execSt (who : Agent) (pr : BitVec 3) (rd ra : BitVec 5) (space size : BitVec 2) (off : BitVec 9) (s : State) : Out :=
  execAfv who pr (.store false rd ra space size off) s
/-- STBE (R76). -/
def execStbe (who : Agent) (pr : BitVec 3) (rd ra : BitVec 5) (space size : BitVec 2) (off : BitVec 9) (s : State) : Out :=
  execAfv who pr (.store true rd ra space size off) s
/-- LDC (R18). -/
def execLdc (who : Agent) (pr : BitVec 3) (rd ra : BitVec 5) (size : BitVec 2) (off : BitVec 9) (s : State) : Out :=
  execAfv who pr (.load .zero rd ra 3 size off) s
/-- STC (R18). -/
def execStc (who : Agent) (pr : BitVec 3) (rs ra : BitVec 5) (size : BitVec 2) (off : BitVec 9) (s : State) : Out :=
  execAfv who pr (.store false rs ra 3 size off) s
/-- AMO_ADD (R77). -/
def execAmoAdd (who : Agent) (pr : BitVec 3) (rd ra rb : BitVec 5) (space : BitVec 2) (wide : Bool) (s : State) : Out :=
  execAfv who pr (.amo .add rd ra rb space wide) s
/-- AMO_SWAP (R77). -/
def execAmoSwap (who : Agent) (pr : BitVec 3) (rd ra rb : BitVec 5) (space : BitVec 2) (wide : Bool) (s : State) : Out :=
  execAfv who pr (.amo .swap rd ra rb space wide) s
/-- AMO_CAS (R77). -/
def execAmoCas (who : Agent) (pr : BitVec 3) (rd ra rb : BitVec 5) (space : BitVec 2) (wide : Bool) (s : State) : Out :=
  execAfv who pr (.amo .cas rd ra rb space wide) s
/-- AMO_AND (R77). -/
def execAmoAnd (who : Agent) (pr : BitVec 3) (rd ra rb : BitVec 5) (space : BitVec 2) (wide : Bool) (s : State) : Out :=
  execAfv who pr (.amo .and rd ra rb space wide) s
/-- AMO_OR (R77). -/
def execAmoOr (who : Agent) (pr : BitVec 3) (rd ra rb : BitVec 5) (space : BitVec 2) (wide : Bool) (s : State) : Out :=
  execAfv who pr (.amo .or rd ra rb space wide) s
/-- AMO_MAXU (R77). -/
def execAmoMaxu (who : Agent) (pr : BitVec 3) (rd ra rb : BitVec 5) (space : BitVec 2) (wide : Bool) (s : State) : Out :=
  execAfv who pr (.amo .maxu rd ra rb space wide) s
/-- AMO_MINU (R77). -/
def execAmoMinu (who : Agent) (pr : BitVec 3) (rd ra rb : BitVec 5) (space : BitVec 2) (wide : Bool) (s : State) : Out :=
  execAfv who pr (.amo .minu rd ra rb space wide) s
/-- FENCE (R79). -/
def execFence (who : Agent) (pr : BitVec 3) (pre succ : BitVec 4) (s : State) : Out :=
  execAfv who pr (.fence pre succ) s
/-- LOOK (R82). -/
def execLook (who : Agent) (pr : BitVec 3) (rd ra : BitVec 5) (table : BitVec 4) (klen rcnt : BitVec 2) (pd : BitVec 3) (s : State) : Out :=
  execAfv who pr (.look rd ra table klen rcnt pd) s
/-- RCMP (R83). -/
def execRcmp (who : Agent) (pr : BitVec 3) (rd ra : BitVec 5) (tag : BitVec 4) (s : State) : Out :=
  execAfv who pr (.rcmp rd ra tag) s
/-- GCM_ENC (R248). -/
def execGcmEnc (who : Agent) (pr : BitVec 3) (rd ra rb : BitVec 5) (s : State) : Out :=
  execAfv who pr (.ciph 1 rd ra rb) s
/-- GCM_DEC (R248). -/
def execGcmDec (who : Agent) (pr : BitVec 3) (rd ra rb : BitVec 5) (s : State) : Out :=
  execAfv who pr (.ciph 2 rd ra rb) s
/-- GCM_VERIFY (R248). -/
def execGcmVerify (who : Agent) (pr : BitVec 3) (rd ra rb : BitVec 5) (s : State) : Out :=
  execAfv who pr (.ciph 3 rd ra rb) s
/-- GMAC_GEN (R248). -/
def execGmacGen (who : Agent) (pr : BitVec 3) (rd ra rb : BitVec 5) (s : State) : Out :=
  execAfv who pr (.ciph 4 rd ra rb) s
/-- GMAC_VERIFY (R248). -/
def execGmacVerify (who : Agent) (pr : BitVec 3) (rd ra rb : BitVec 5) (s : State) : Out :=
  execAfv who pr (.ciph 5 rd ra rb) s
/-- XTS_ENC (R248). -/
def execXtsEnc (who : Agent) (pr : BitVec 3) (rd ra rb : BitVec 5) (s : State) : Out :=
  execAfv who pr (.ciph 8 rd ra rb) s
/-- XTS_DEC (R248). -/
def execXtsDec (who : Agent) (pr : BitVec 3) (rd ra rb : BitVec 5) (s : State) : Out :=
  execAfv who pr (.ciph 9 rd ra rb) s
/-- KW_WRAP (R257). -/
def execKwWrap (who : Agent) (pr : BitVec 3) (rd ra rb : BitVec 5) (s : State) : Out :=
  execAfv who pr (.ciph 0x10 rd ra rb) s
/-- KW_UNWRAP (R257). -/
def execKwUnwrap (who : Agent) (pr : BitVec 3) (rd ra rb : BitVec 5) (s : State) : Out :=
  execAfv who pr (.ciph 0x11 rd ra rb) s

end Sys2Proof.Machine
end

