-- ==== Sys2Proof/Machine/Dispatch.lean ====
section
/-! DEFINITION. The dispatch: one arm per command, each a direct call of its meaning. -/

namespace Sys2Proof.Machine

/-- The effect of a command on everything but the queue of waiting commands. -/
def exec (i : Instr) (s : State) : Host.Outcome State Fault Refusal :=
  match i with
  | .add who pr rd ra rb => Sys2Proof.Machine.execAdd who pr rd ra rb s
  | .sub who pr rd ra rb => Sys2Proof.Machine.execSub who pr rd ra rb s
  | .and who pr rd ra rb => Sys2Proof.Machine.execAnd who pr rd ra rb s
  | .or who pr rd ra rb => Sys2Proof.Machine.execOr who pr rd ra rb s
  | .xor who pr rd ra rb => Sys2Proof.Machine.execXor who pr rd ra rb s
  | .andn who pr rd ra rb => Sys2Proof.Machine.execAndn who pr rd ra rb s
  | .shl who pr rd ra rb => Sys2Proof.Machine.execShl who pr rd ra rb s
  | .shr who pr rd ra rb => Sys2Proof.Machine.execShr who pr rd ra rb s
  | .sra who pr rd ra rb => Sys2Proof.Machine.execSra who pr rd ra rb s
  | .rol who pr rd ra rb => Sys2Proof.Machine.execRol who pr rd ra rb s
  | .ror who pr rd ra rb => Sys2Proof.Machine.execRor who pr rd ra rb s
  | .minu who pr rd ra rb => Sys2Proof.Machine.execMinu who pr rd ra rb s
  | .maxu who pr rd ra rb => Sys2Proof.Machine.execMaxu who pr rd ra rb s
  | .mins who pr rd ra rb => Sys2Proof.Machine.execMins who pr rd ra rb s
  | .maxs who pr rd ra rb => Sys2Proof.Machine.execMaxs who pr rd ra rb s
  | .clz who pr rd ra rb => Sys2Proof.Machine.execClz who pr rd ra rb s
  | .ctz who pr rd ra rb => Sys2Proof.Machine.execCtz who pr rd ra rb s
  | .popc who pr rd ra rb => Sys2Proof.Machine.execPopc who pr rd ra rb s
  | .bswap who pr rd ra rb => Sys2Proof.Machine.execBswap who pr rd ra rb s
  | .add32 who pr rd ra rb => Sys2Proof.Machine.execAdd32 who pr rd ra rb s
  | .sub32 who pr rd ra rb => Sys2Proof.Machine.execSub32 who pr rd ra rb s
  | .mul who pr rd ra rb => Sys2Proof.Machine.execMul who pr rd ra rb s
  | .mulhu who pr rd ra rb => Sys2Proof.Machine.execMulhu who pr rd ra rb s
  | .mulhs who pr rd ra rb => Sys2Proof.Machine.execMulhs who pr rd ra rb s
  | .divu who pr rd ra rb => Sys2Proof.Machine.execDivu who pr rd ra rb s
  | .remu who pr rd ra rb => Sys2Proof.Machine.execRemu who pr rd ra rb s
  | .divs who pr rd ra rb => Sys2Proof.Machine.execDivs who pr rd ra rb s
  | .rems who pr rd ra rb => Sys2Proof.Machine.execRems who pr rd ra rb s
  | .cmp who pr pd mode cond pe ra rb => Sys2Proof.Machine.execCmp who pr pd mode cond pe ra rb s
  | .pand who pr pd pa pb => Sys2Proof.Machine.execPand who pr pd pa pb s
  | .por who pr pd pa pb => Sys2Proof.Machine.execPor who pr pd pa pb s
  | .pxor who pr pd pa pb => Sys2Proof.Machine.execPxor who pr pd pa pb s
  | .pandn who pr pd pa pb => Sys2Proof.Machine.execPandn who pr pd pa pb s
  | .pnot who pr pd pa pb => Sys2Proof.Machine.execPnot who pr pd pa pb s
  | .addi who pr rd ra imm => Sys2Proof.Machine.execAddi who pr rd ra imm s
  | .andi who pr rd ra imm => Sys2Proof.Machine.execAndi who pr rd ra imm s
  | .ori who pr rd ra imm => Sys2Proof.Machine.execOri who pr rd ra imm s
  | .xori who pr rd ra imm => Sys2Proof.Machine.execXori who pr rd ra imm s
  | .shli who pr rd ra hi amt => Sys2Proof.Machine.execShli who pr rd ra hi amt s
  | .shri who pr rd ra hi amt => Sys2Proof.Machine.execShri who pr rd ra hi amt s
  | .srai who pr rd ra hi amt => Sys2Proof.Machine.execSrai who pr rd ra hi amt s
  | .roli who pr rd ra hi amt => Sys2Proof.Machine.execRoli who pr rd ra hi amt s
  | .movk who pr rd ra imm => Sys2Proof.Machine.execMovk who pr rd ra imm s
  | .ext who pr rd ra imm => Sys2Proof.Machine.execExt who pr rd ra imm s
  | .ins who pr rd ra imm => Sys2Proof.Machine.execIns who pr rd ra imm s
  | .cmpiEq who pr pd mode ra imm => Sys2Proof.Machine.execCmpiEq who pr pd mode ra imm s
  | .cmpiLtu who pr pd mode ra imm => Sys2Proof.Machine.execCmpiLtu who pr pd mode ra imm s
  | .cmpiLts who pr pd mode ra imm => Sys2Proof.Machine.execCmpiLts who pr pd mode ra imm s
  | .cmpiAny who pr pd mode ra imm => Sys2Proof.Machine.execCmpiAny who pr pd mode ra imm s
  | .sget who pr rd imm => Sys2Proof.Machine.execSget who pr rd imm s
  | .sput who pr n ra rb => Sys2Proof.Machine.execSput who pr n ra rb s
  | .ld who pr rd ra space size off => Sys2Proof.Machine.execLd who pr rd ra space size off s
  | .lds who pr rd ra space size off => Sys2Proof.Machine.execLds who pr rd ra space size off s
  | .ldbe who pr rd ra space size off => Sys2Proof.Machine.execLdbe who pr rd ra space size off s
  | .st who pr rd ra space size off => Sys2Proof.Machine.execSt who pr rd ra space size off s
  | .stbe who pr rd ra space size off => Sys2Proof.Machine.execStbe who pr rd ra space size off s
  | .ldc who pr rd ra size off => Sys2Proof.Machine.execLdc who pr rd ra size off s
  | .stc who pr rs ra size off => Sys2Proof.Machine.execStc who pr rs ra size off s
  | .gatedAccessComplete island => Sys2Proof.Machine.execGatedAccessComplete island s
  | .amoAdd who pr rd ra rb space wide => Sys2Proof.Machine.execAmoAdd who pr rd ra rb space wide s
  | .amoSwap who pr rd ra rb space wide => Sys2Proof.Machine.execAmoSwap who pr rd ra rb space wide s
  | .amoCas who pr rd ra rb space wide => Sys2Proof.Machine.execAmoCas who pr rd ra rb space wide s
  | .amoAnd who pr rd ra rb space wide => Sys2Proof.Machine.execAmoAnd who pr rd ra rb space wide s
  | .amoOr who pr rd ra rb space wide => Sys2Proof.Machine.execAmoOr who pr rd ra rb space wide s
  | .amoMaxu who pr rd ra rb space wide => Sys2Proof.Machine.execAmoMaxu who pr rd ra rb space wide s
  | .amoMinu who pr rd ra rb space wide => Sys2Proof.Machine.execAmoMinu who pr rd ra rb space wide s
  | .fence who pr pre succ => Sys2Proof.Machine.execFence who pr pre succ s
  | .branch who pr off => Sys2Proof.Machine.execBranch who pr off s
  | .call who pr off => Sys2Proof.Machine.execCall who pr off s
  | .jr who pr rd ra => Sys2Proof.Machine.execJr who pr rd ra s
  | .look who pr rd ra table klen rcnt pd => Sys2Proof.Machine.execLook who pr rd ra table klen rcnt pd s
  | .rcmp who pr rd ra tag => Sys2Proof.Machine.execRcmp who pr rd ra tag s
  | .crc32c who pr rd ra rb => Sys2Proof.Machine.execCrc32c who pr rd ra rb s
  | .crc64n who pr rd ra rb => Sys2Proof.Machine.execCrc64n who pr rd ra rb s
  | .gfmul who pr rd ra rb => Sys2Proof.Machine.execGfmul who pr rd ra rb s
  | .gfxor who pr rd ra rb => Sys2Proof.Machine.execGfxor who pr rd ra rb s
  | .gcmEnc who pr rd ra rb => Sys2Proof.Machine.execGcmEnc who pr rd ra rb s
  | .gcmDec who pr rd ra rb => Sys2Proof.Machine.execGcmDec who pr rd ra rb s
  | .gcmVerify who pr rd ra rb => Sys2Proof.Machine.execGcmVerify who pr rd ra rb s
  | .gmacGen who pr rd ra rb => Sys2Proof.Machine.execGmacGen who pr rd ra rb s
  | .gmacVerify who pr rd ra rb => Sys2Proof.Machine.execGmacVerify who pr rd ra rb s
  | .xtsEnc who pr rd ra rb => Sys2Proof.Machine.execXtsEnc who pr rd ra rb s
  | .xtsDec who pr rd ra rb => Sys2Proof.Machine.execXtsDec who pr rd ra rb s
  | .kwWrap who pr rd ra rb => Sys2Proof.Machine.execKwWrap who pr rd ra rb s
  | .kwUnwrap who pr rd ra rb => Sys2Proof.Machine.execKwUnwrap who pr rd ra rb s
  | .ciphJobAdmit c => Sys2Proof.Machine.execCiphJobAdmit c s
  | .ciphJobComplete id eccBad => Sys2Proof.Machine.execCiphJobComplete id eccBad s
  | .quantumExpire eng => Sys2Proof.Machine.execQuantumExpire eng s
  | .bulkResume eng => Sys2Proof.Machine.execBulkResume eng s
  | .keyCacheFill c slot => Sys2Proof.Machine.execKeyCacheFill c slot s
  | .waite who pr rd ra => Sys2Proof.Machine.execWaite who pr rd ra s
  | .waiteWake who => Sys2Proof.Machine.execWaiteWake who s
  | .sige who pr ra rb => Sys2Proof.Machine.execSige who pr ra rb s
  | .sigeDeliver src dst => Sys2Proof.Machine.execSigeDeliver src dst s
  | .sett who pr ra => Sys2Proof.Machine.execSett who pr ra s
  | .clrt who pr => Sys2Proof.Machine.execClrt who pr s
  | .evrd who pr rd => Sys2Proof.Machine.execEvrd who pr rd s
  | .timerFire who => Sys2Proof.Machine.execTimerFire who s
  | .post who pr ra rb => Sys2Proof.Machine.execPost who pr ra rb s
  | .postEnd who pr ra rb => Sys2Proof.Machine.execPostEnd who pr ra rb s
  | .take who pr rd ra pd pe => Sys2Proof.Machine.execTake who pr rd ra pd pe s
  | .mailboxDeliver ch toB => Sys2Proof.Machine.execMailboxDeliver ch toB s
  | .getw who pr rd ra pd => Sys2Proof.Machine.execGetw who pr rd ra pd s
  | .dispCont who pr => Sys2Proof.Machine.execDispCont who pr s
  | .dispDrop who pr => Sys2Proof.Machine.execDispDrop who pr s
  | .dispGroup who pr ra => Sys2Proof.Machine.execDispGroup who pr ra s
  | .news who pr rd ra rb => Sys2Proof.Machine.execNews who pr rd ra rb s
  | .sysr who pr rd ra => Sys2Proof.Machine.execSysr who pr rd ra s
  | .sysw who pr ra rb => Sys2Proof.Machine.execSysw who pr ra rb s
  | .icacheInv who pr ra rb => Sys2Proof.Machine.execIcacheInv who pr ra rb s
  | .eret who pr => Sys2Proof.Machine.execEret who pr s
  | .waitPwr who pr rd => Sys2Proof.Machine.execWaitPwr who pr rd s
  | .halt who pr ra rb => Sys2Proof.Machine.execHalt who pr ra rb s
  | .release who pr ra rb => Sys2Proof.Machine.execRelease who pr ra rb s
  | .restart who pr ra rb => Sys2Proof.Machine.execRestart who pr ra rb s
  | .trestart who pr ra => Sys2Proof.Machine.execTrestart who pr ra s
  | .trap who pr code => Sys2Proof.Machine.execTrap who pr code s
  | .issueCycle core ecc => Sys2Proof.Machine.execIssueCycle core ecc s
  | .stalemateCycle cl => Sys2Proof.Machine.execStalemateCycle cl s
  | .stalemate cl => Sys2Proof.Machine.execStalemate cl s
  | .stalemateDetectedClear cl => Sys2Proof.Machine.execStalemateDetectedClear cl s
  | .threadFaultPop cl => Sys2Proof.Machine.execThreadFaultPop cl s
  | .threadFaultLostClear cl => Sys2Proof.Machine.execThreadFaultLostClear cl s
  | .registerWrite who addr wide data => Sys2Proof.Machine.execRegisterWrite who addr wide data s
  | .lanternTick => Sys2Proof.Machine.execLanternTick s
  | .timeSnap => Sys2Proof.Machine.execTimeSnap s
  | .timeStep => Sys2Proof.Machine.execTimeStep s
  | .fmtGenWrite v => Sys2Proof.Machine.execFmtGenWrite v s
  | .frameReceive port sub data rx => Sys2Proof.Machine.execFrameReceive port sub data rx s
  | .signalDetect port sub => Sys2Proof.Machine.execSignalDetect port sub s
  | .pfcReceive port sub enable times => Sys2Proof.Machine.execPfcReceive port sub enable times s
  | .pauseReceive port sub time => Sys2Proof.Machine.execPauseReceive port sub time s
  | .pauseExpire port sub tc => Sys2Proof.Machine.execPauseExpire port sub tc s
  | .pfcRepeat port sub tc => Sys2Proof.Machine.execPfcRepeat port sub tc s
  | .pfcWatchdog port sub tc => Sys2Proof.Machine.execPfcWatchdog port sub tc s
  | .pfcWdRestore port sub tc => Sys2Proof.Machine.execPfcWdRestore port sub tc s
  | .linkUp port sub => Sys2Proof.Machine.execLinkUp port sub s
  | .linkDown port loss => Sys2Proof.Machine.execLinkDown port loss s
  | .portModeWrite port v => Sys2Proof.Machine.execPortModeWrite port v s
  | .frameTransmit port sub => Sys2Proof.Machine.execFrameTransmit port sub s
  | .frameTxComplete port sub => Sys2Proof.Machine.execFrameTxComplete port sub s
  | .ptpPop port => Sys2Proof.Machine.execPtpPop port s
  | .ingressPassStart pipe lane => Sys2Proof.Machine.execIngressPassStart pipe lane s
  | .recirculation pipe lane => Sys2Proof.Machine.execRecirculation pipe lane s
  | .ingressPassEnd pipe fin => Sys2Proof.Machine.execIngressPassEnd pipe fin s
  | .egressPassEnd pipe fin => Sys2Proof.Machine.execEgressPassEnd pipe fin s
  | .pipeProfileWrite pipe p v => Sys2Proof.Machine.execPipeProfileWrite pipe p v s
  | .pipeProgWrite st pipe stage slot tbl idx v => Sys2Proof.Machine.execPipeProgWrite st pipe stage slot tbl idx v s
  | .slotRelease pipe stage slot => Sys2Proof.Machine.execSlotRelease pipe stage slot s
  | .pipeTableWrite pipe t v => Sys2Proof.Machine.execPipeTableWrite pipe t v s
  | .reorderPassOver pipe => Sys2Proof.Machine.execReorderPassOver pipe s
  | .sideSourceEntry input => Sys2Proof.Machine.execSideSourceEntry input s
  | .fabricSlot => Sys2Proof.Machine.execFabricSlot s
  | .spillPageFlush mem queue => Sys2Proof.Machine.execSpillPageFlush mem queue s
  | .prefetchComplete mem queue eccBad => Sys2Proof.Machine.execPrefetchComplete mem queue eccBad s
  | .captureRecordWrite => Sys2Proof.Machine.execCaptureRecordWrite s
  | .cbRegionWrite r v => Sys2Proof.Machine.execCbRegionWrite r v s
  | .captureEnable => Sys2Proof.Machine.execCaptureEnable s
  | .tmDecision port sub => Sys2Proof.Machine.execTmDecision port sub s
  | .sideSchedDecision endpoint => Sys2Proof.Machine.execSideSchedDecision endpoint s
  | .shaperRefill island => Sys2Proof.Machine.execShaperRefill island s
  | .shaperCfgWrite island x v => Sys2Proof.Machine.execShaperCfgWrite island x v s
  | .queueWeightWrite island j q w => Sys2Proof.Machine.execQueueWeightWrite island j q w s
  | .policerRefill island => Sys2Proof.Machine.execPolicerRefill island s
  | .policerCfgWrite island n v => Sys2Proof.Machine.execPolicerCfgWrite island n v s
  | .inlineDecrypt c => Sys2Proof.Machine.execInlineDecrypt c s
  | .inlineEncrypt c => Sys2Proof.Machine.execInlineEncrypt c s
  | .ksLoad st slot => Sys2Proof.Machine.execKsLoad st slot s
  | .ksErase st slot => Sys2Proof.Machine.execKsErase st slot s
  | .ksSetLimit st slot => Sys2Proof.Machine.execKsSetLimit st slot s
  | .ksReadMeta st slot => Sys2Proof.Machine.execKsReadMeta st slot s
  | .ksCommandDone st => Sys2Proof.Machine.execKsCommandDone st s
  | .notifyPost => Sys2Proof.Machine.execNotifyPost s
  | .cqCfgWrite q v => Sys2Proof.Machine.execCqCfgWrite q v s
  | .cqConsWrite q v => Sys2Proof.Machine.execCqConsWrite q v s
  | .stsArrival cl => Sys2Proof.Machine.execStsArrival cl s
  | .stsDeparture cl => Sys2Proof.Machine.execStsDeparture cl s
  | .contextFetchComplete cl ctx => Sys2Proof.Machine.execContextFetchComplete cl ctx s
  | .jobOpen r island ctx => Sys2Proof.Machine.execJobOpen r island ctx s
  | .jobAbort r island ctx => Sys2Proof.Machine.execJobAbort r island ctx s
  | .ingestSegment island => Sys2Proof.Machine.execIngestSegment island s
  | .secUnitOp op => Sys2Proof.Machine.execSecUnitOp op s
  | .shelfResponse => Sys2Proof.Machine.execShelfResponse s
  | .shelfTimeout ctx cmd => Sys2Proof.Machine.execShelfTimeout ctx cmd s
  | .shelfBusyRetry ctx cmd => Sys2Proof.Machine.execShelfBusyRetry ctx cmd s
  | .unitArrival link ctx cmd => Sys2Proof.Machine.execUnitArrival link ctx cmd s
  | .hostLinkUp h speed width flit => Sys2Proof.Machine.execHostLinkUp h speed width flit s
  | .configWrite h fn dw be v => Sys2Proof.Machine.execConfigWrite h fn dw be v s
  | .bmeClear h fn => Sys2Proof.Machine.execBmeClear h fn s
  | .initiateFlr h fn => Sys2Proof.Machine.execInitiateFlr h fn s
  | .flrComplete h fn => Sys2Proof.Machine.execFlrComplete h fn s
  | .perstAssert h => Sys2Proof.Machine.execPerstAssert h s
  | .perstRelease h => Sys2Proof.Machine.execPerstRelease h s
  | .hostLinkLoss h => Sys2Proof.Machine.execHostLinkLoss h s
  | .controlWindowAccess h fn off len w => Sys2Proof.Machine.execControlWindowAccess h fn off len w s
  | .hostCompletion h tag status poisoned data => Sys2Proof.Machine.execHostCompletion h tag status poisoned data s
  | .completionTimeout h tag => Sys2Proof.Machine.execCompletionTimeout h tag s
  | .tagQuarantineExpire h tag => Sys2Proof.Machine.execTagQuarantineExpire h tag s
  | .intCauseClear h v => Sys2Proof.Machine.execIntCauseClear h v s
  | .transmitData h ch w => Sys2Proof.Machine.execTransmitData h ch w s
  | .txEnd h ch w => Sys2Proof.Machine.execTxEnd h ch w s
  | .rxData h ch => Sys2Proof.Machine.execRxData h ch s
  | .chFlush who ch => Sys2Proof.Machine.execChFlush who ch s
  | .doorbellTx h inst loc len v => Sys2Proof.Machine.execDoorbellTx h inst loc len v s
  | .doorbellBuf h inst loc len v => Sys2Proof.Machine.execDoorbellBuf h inst loc len v s
  | .doorbellCpl h inst loc len v => Sys2Proof.Machine.execDoorbellCpl h inst loc len v s
  | .txDescriptorFetch inst loc => Sys2Proof.Machine.execTxDescriptorFetch inst loc s
  | .txChainAttach inst loc => Sys2Proof.Machine.execTxChainAttach inst loc s
  | .starveExpire inst loc => Sys2Proof.Machine.execStarveExpire inst loc s
  | .headPublish inst loc ring => Sys2Proof.Machine.execHeadPublish inst loc ring s
  | .modTimeExpire inst loc ring => Sys2Proof.Machine.execModTimeExpire inst loc ring s
  | .intrRateRefill inst => Sys2Proof.Machine.execIntrRateRefill inst s
  | .devInfo ch tag => Sys2Proof.Machine.execDevInfo ch tag s
  | .viCreate ch tag ws => Sys2Proof.Machine.execViCreate ch tag ws s
  | .viDestroy ch tag ws => Sys2Proof.Machine.execViDestroy ch tag ws s
  | .viDbStop ch tag ws => Sys2Proof.Machine.execViDbStop ch tag ws s
  | .viDbStart ch tag ws => Sys2Proof.Machine.execViDbStart ch tag ws s
  | .viReset ch tag ws => Sys2Proof.Machine.execViReset ch tag ws s
  | .viQos ch tag ws => Sys2Proof.Machine.execViQos ch tag ws s
  | .qpCreate ch tag ws => Sys2Proof.Machine.execQpCreate ch tag ws s
  | .qpDestroy ch tag ws => Sys2Proof.Machine.execQpDestroy ch tag ws s
  | .qpStart ch tag ws => Sys2Proof.Machine.execQpStart ch tag ws s
  | .qpStop ch tag ws => Sys2Proof.Machine.execQpStop ch tag ws s
  | .qpDrain ch tag ws => Sys2Proof.Machine.execQpDrain ch tag ws s
  | .qpDrainDone inst loc => Sys2Proof.Machine.execQpDrainDone inst loc s
  | .qpDrainTimeout inst loc => Sys2Proof.Machine.execQpDrainTimeout inst loc s
  | .qpAbort ch tag ws => Sys2Proof.Machine.execQpAbort ch tag ws s
  | .intrBind ch tag ws => Sys2Proof.Machine.execIntrBind ch tag ws s
  | .clusterRestart ch tag ws => Sys2Proof.Machine.execClusterRestart ch tag ws s
  | .captureExport ch tag ws => Sys2Proof.Machine.execCaptureExport ch tag ws s
  | .resetStaleDrained inst => Sys2Proof.Machine.execResetStaleDrained inst s
  | .resetSlow inst => Sys2Proof.Machine.execResetSlow inst s
  | .ferryChEnable who ch => Sys2Proof.Machine.execFerryChEnable who ch s
  | .ferryChDisable who ch => Sys2Proof.Machine.execFerryChDisable who ch s
  | .ferryChDisabled ch => Sys2Proof.Machine.execFerryChDisabled ch s
  | .ferryTailWrite who ch tail => Sys2Proof.Machine.execFerryTailWrite who ch tail s
  | .ferryStart who ch => Sys2Proof.Machine.execFerryStart who ch s
  | .ferryStop who ch => Sys2Proof.Machine.execFerryStop who ch s
  | .ferryBeat ch eccBad => Sys2Proof.Machine.execFerryBeat ch eccBad s
  | .hamperLinkEnable link => Sys2Proof.Machine.execHamperLinkEnable link s
  | .hamperLinkUp link unit port serial credits => Sys2Proof.Machine.execHamperLinkUp link unit port serial credits s
  | .trainRetry link => Sys2Proof.Machine.execTrainRetry link s
  | .hamperLinkDown link cause => Sys2Proof.Machine.execHamperLinkDown link cause s
  | .retrain link => Sys2Proof.Machine.execRetrain link s
  | .flitReceive link data => Sys2Proof.Machine.execFlitReceive link data s
  | .hamperMessageReceive link => Sys2Proof.Machine.execHamperMessageReceive link s
  | .flitSend link vc => Sys2Proof.Machine.execFlitSend link vc s
  | .hamperVcStalled link vc => Sys2Proof.Machine.execHamperVcStalled link vc s
  | .hlFwtxTailWrite link tail => Sys2Proof.Machine.execHlFwtxTailWrite link tail s
  | .claimRefresh => Sys2Proof.Machine.execClaimRefresh s
  | .pairState => Sys2Proof.Machine.execPairState s
  | .pairStateSend => Sys2Proof.Machine.execPairStateSend s
  | .handoverReq => Sys2Proof.Machine.execHandoverReq s
  | .handoverAck => Sys2Proof.Machine.execHandoverAck s
  | .handoverRelease => Sys2Proof.Machine.execHandoverRelease s
  | .handoverAckTimeout => Sys2Proof.Machine.execHandoverAckTimeout s
  | .pairStartTimeout => Sys2Proof.Machine.execPairStartTimeout s
  | .pairPeerLost => Sys2Proof.Machine.execPairPeerLost s
  | .pairPeerSilence => Sys2Proof.Machine.execPairPeerSilence s
  | .pairHoldInChange level => Sys2Proof.Machine.execPairHoldInChange level s
  | .holdSampleComplete => Sys2Proof.Machine.execHoldSampleComplete s
  | .holdBackoffExpire => Sys2Proof.Machine.execHoldBackoffExpire s
  | .eccWindowEnd => Sys2Proof.Machine.execEccWindowEnd s
  | .stalemateTrigger cl => Sys2Proof.Machine.execStalemateTrigger cl s
  | .hostLinkTrigger h => Sys2Proof.Machine.execHostLinkTrigger h s
  | .takingTimeout => Sys2Proof.Machine.execTakingTimeout s
  | .failbackHoldoffExpire => Sys2Proof.Machine.execFailbackHoldoffExpire s
  | .pairEn on => Sys2Proof.Machine.execPairEn on s
  | .pairSwap => Sys2Proof.Machine.execPairSwap s
  | .pairForce => Sys2Proof.Machine.execPairForce s
  | .powerEntryComplete => Sys2Proof.Machine.execPowerEntryComplete s
  | .wakeEvent code => Sys2Proof.Machine.execWakeEvent code s
  | .wakeTimer => Sys2Proof.Machine.execWakeTimer s
  | .powerExitComplete checks parity => Sys2Proof.Machine.execPowerExitComplete checks parity s
  | .islandIdleGate island => Sys2Proof.Machine.execIslandIdleGate island s
  | .trimCfgWrite v => Sys2Proof.Machine.execTrimCfgWrite v s
  | .porstAssert writing => Sys2Proof.Machine.execPorstAssert writing s
  | .porstRelease sbMode sbAddr => Sys2Proof.Machine.execPorstRelease sbMode sbAddr s
  | .envOutOfSpec monitor reading => Sys2Proof.Machine.execEnvOutOfSpec monitor reading s
  | .bootMonitorsReady preferred badRow => Sys2Proof.Machine.execBootMonitorsReady preferred badRow s
  | .imageCopyComplete image readOk => Sys2Proof.Machine.execImageCopyComplete image readOk s
  | .bootRetry preferred => Sys2Proof.Machine.execBootRetry preferred s
  | .reboot st => Sys2Proof.Machine.execReboot st s
  | .imgWrite ch tag ws => Sys2Proof.Machine.execImgWrite ch tag ws s
  | .imgActivate ch tag ws image readOk => Sys2Proof.Machine.execImgActivate ch tag ws image readOk s
  | .rollbackCommit ch tag ws => Sys2Proof.Machine.execRollbackCommit ch tag ws s
  | .programRow st row => Sys2Proof.Machine.execProgramRow st row s
  | .rollbackSet st => Sys2Proof.Machine.execRollbackSet st s
  | .loadPairKey st => Sys2Proof.Machine.execLoadPairKey st s
  | .fuseProgrammed readBackOk => Sys2Proof.Machine.execFuseProgrammed readBackOk s
  | .alarm code source reading => Sys2Proof.Machine.execAlarm code source reading s
  | .keystoreZeroised => Sys2Proof.Machine.execKeystoreZeroised s
  | .thermWarn sensor temp => Sys2Proof.Machine.execThermWarn sensor temp s
  | .thermTrip sensor temp => Sys2Proof.Machine.execThermTrip sensor temp s
  | .alarmClear st => Sys2Proof.Machine.execAlarmClear st s
  | .trailbookWrite => Sys2Proof.Machine.execTrailbookWrite s
  | .tbTokenRefill => Sys2Proof.Machine.execTbTokenRefill s
  | .trailbookRead loc => Sys2Proof.Machine.execTrailbookRead loc s
  | .tbFreezeRelease => Sys2Proof.Machine.execTbFreezeRelease s
  | .tbFwCode who code fatal => Sys2Proof.Machine.execTbFwCode who code fatal s
  | .tbStatus => Sys2Proof.Machine.execTbStatus s
  | .tbRead loc count => Sys2Proof.Machine.execTbRead loc count s
  | .tbRelease => Sys2Proof.Machine.execTbRelease s
  | .alarmConditionEnds code => Sys2Proof.Machine.execAlarmConditionEnds code s
  | .thermTripWithdrawn temps => Sys2Proof.Machine.execThermTripWithdrawn temps s
  | .memoryResponse who op eccBad => Sys2Proof.Machine.execMemoryResponse who op eccBad s
  | .spillWriteComplete mem => Sys2Proof.Machine.execSpillWriteComplete mem s
  | .followerRealigned hl => Sys2Proof.Machine.execFollowerRealigned hl s
  | .unsupportedRequest h fn posted => Sys2Proof.Machine.execUnsupportedRequest h fn posted s
  | .receiverError h kind => Sys2Proof.Machine.execReceiverError h kind s

end Sys2Proof.Machine
end

