-- ==== Sys2Proof/Safety.lean ====
section
/-! DEFINITION. The terms of the statements: which command completes, when a thread may issue, what an instruction wrote
and left alone, and the canonical form of the tables. -/

namespace Sys2Proof.Safety

open Sys2Proof.Machine

/-- The command completes at the state with a next state of which `P` holds. -/
def Ends (c : Instr) (s : State) (P : State → Prop) : Prop := ∃ t, exec c s = .next t ∧ P t

/-- No step from the state stops. -/
def Live (s : State) : Prop := ∃ t, step s = .next t

/-- Memory, the scratch memories, the register file have their canonical form: keys strictly rise and no entry equals
what an unlisted key reads as. -/
def Canonical (s : State) : Prop :=
  Memory.wf s.mem = true ∧ Tab.wf (fun _ => (0 : Byte)) s.scratch = true ∧ Tab.wf regReset s.regs = true

/-! ### Threads and stewards -/

/-- General register `r` of thread `n`. -/
def reg (s : State) (n : Nat) (r : BitVec 5) : W64 := (s.thr n).r.get r

/-- Predicate `p` of thread `n`. -/
def pred (s : State) (n : Nat) (p : BitVec 3) : Bool := (s.thr n).r.pred p

/-- Thread `n` may issue an instruction under predicate `pr` that names the registers `rs` and predicates `ps`: the image
runs, the part is in P0 or P1 and no entry to P2 or P3 has halted its cores (R417), the thread is ready, its cluster released and not halted, its entry not parked (R108 to
R110), its PC is in its instruction memory (R81), `pr` reads 1 (R64), and no outstanding operation is to write what the
instruction names (R98). -/
structure CanIssue (s : State) (n : Nat) (pr : BitVec 3) (rs : List (BitVec 5)) (ps : List (BitVec 3)) : Prop where
  booted : s.boot.phase = .running
  powered : s.pstate < 2 ∧ s.halting = false
  ready : (s.thr n).run = .ready
  worker : n < 2048 → (s.cluster (n / 128)).released = true ∧ (s.cluster (n / 128)).halted = false ∧ (s.entryOf n).parked = false
  inside : (s.thr n).pc < pcLimit n
  true_ : pred s n pr = true
  regs : ∀ x ∈ (s.thr n).ops, ∀ r ∈ x.act.regs, r = 0 ∨ r ∉ rs
  preds : ∀ x ∈ (s.thr n).ops, ∀ p ∈ x.act.preds, p = 0 ∨ (p ∉ ps ∧ p ≠ pr)

/-- What the issue of an instruction at thread `n` leaves alone, whatever else it does: every other thread, the system
registers of the stewards, and every control register but the stalemate status of the cluster (R121). -/
def OthersKept (s t : State) (n : Nat) : Prop :=
  (∀ m, m ≠ n → t.thr m = s.thr m) ∧ (∀ k, { t.stw k with t := {} } = { s.stw k with t := {} }) ∧
  (∀ a, (n < 2048 ∧ a = Reg.staleStatus (n / 128)) ∨ t.rd a = s.rd a)

/-- Everything but the threads and control registers is as it was; memory among it. -/
def RestKept (s t : State) : Prop :=
  { t with threads := s.threads, stewards := s.stewards, regs := s.regs } = s

/-- The thread itself has gone on to the next instruction: the PC advanced by one and the issue count by one, and its
events, timer, held satchel and outstanding operations are as they were (R64, R91). -/
def Advanced (s t : State) (n : Nat) : Prop :=
  (t.thr n).pc = (s.thr n).pc + 1 ∧ (t.thr n).issued = (s.thr n).issued + 1 ∧ (t.thr n).ev = (s.thr n).ev ∧
  (t.thr n).timer = (s.thr n).timer ∧ (t.thr n).held = (s.thr n).held ∧ (t.thr n).run = (s.thr n).run ∧
  (t.thr n).ops = (s.thr n).ops

/-- General register `rd` of thread `n` has taken `v`, unless it is g0, which reads zero (R59); the other general
registers and the predicates are as they were. -/
def Wrote (s t : State) (n : Nat) (rd : BitVec 5) (v : W64) : Prop :=
  (∀ r, reg t n r = if r = 0 then 0 else if r = rd then v else reg s n r) ∧ (∀ p, pred t n p = pred s n p)

/-- The predicates of thread `n` are as `q` says but for p0, which reads 1 (R59); the general registers are as they
were. -/
def WrotePreds (s t : State) (n : Nat) (q : BitVec 3 → Bool) : Prop :=
  (∀ p, pred t n p = if p = 0 then true else q p) ∧ (∀ r, reg t n r = reg s n r)

/-- The registers and predicates of thread `n` are as they were. -/
def RegsKept (s t : State) (n : Nat) : Prop := (t.thr n).r = (s.thr n).r

/-- A command at a thread or steward completes: `rd` takes `v`, the thread goes on, all else is as it was. -/
def Computes (c : Instr) (s : State) (n : Nat) (rd : BitVec 5) (v : W64) : Prop :=
  Ends c s fun t => Wrote s t n rd v ∧ Advanced s t n ∧ OthersKept s t n ∧ RestKept s t

/-- A command at a thread or steward completes: the predicates become `q`, the thread goes on, all else is as it was. -/
def Decides (c : Instr) (s : State) (n : Nat) (q : BitVec 3 → Bool) : Prop :=
  Ends c s fun t => WrotePreds s t n q ∧ Advanced s t n ∧ OthersKept s t n ∧ RestKept s t

/-- A command at a thread or steward raises an exception of R95: its issue is counted, and the exception is taken at its
PC. What taking it does is stated on its own. -/
def Raises (c : Instr) (s : State) (n code addr : Nat) : Prop :=
  exec c s = .next ((s.noteIssue n).takeException n code (s.thr n).pc addr)

/-! ### Control space -/

/-- Nothing holds back a write of control address `a`: the block has power, the island's supply is on, and no access waits
there (R21, R23, R25). -/
def Open (s : State) (a : Nat) : Prop :=
  s.boot.phase ≠ .off ∧ (s.island (a / 0x1000000)).power ≠ .off ∧ s.holds (a / 0x1000000) = false

/-- The initiator's write of `size` bytes at control address `a` is performed at once: it may issue it, the address is one
that it may reach (R18 to R20, R303), and nothing holds the write back. -/
def OpenTo (s : State) (who : Initiator) (a size : Nat) : Prop :=
  s.canWrite who a = true ∧ s.ctlDenied who a size = false ∧ (0x800000 ≤ a % 0x1000000 → s.secureOk who = true) ∧ Open s a

/-! ### Satchels, frames and bytes -/

/-- Word `i` of the satchel of a frame. -/
def word (s : State) (fid i : Nat) : W32 := (s.frame fid).s[i]?.getD 0

/-- Byte `i` of a frame; zero at and beyond LEN (R75). -/
def frameByte (s : State) (fid i : Nat) : Byte := (s.frame fid).data.getD i 0

/-- Byte `a` of space 0b00 of thread `n`: the data memory of its core, or its steward's scratch memory (R61, R74). -/
def localByte (s : State) (n a : Nat) : Byte :=
  if n < 2048 then s.ldByte (coreData (n / 8) + a) else Tab.get 0 s.scratch (65536 * (n - 2048) + a)

/-- A register value loaded from the `m` bytes `b 0`, `b 1`, …: little-endian and zero-extended, sign-extended, or
byte-reversed (R76). -/
def Loaded (k : LoadKind) (m : Nat) (b : Nat → Byte) (v : W64) : Prop :=
  ∀ i, i < 8 → v.extractLsb' (8 * i) 8 =
    match k with
    | .zero => if i < m then b i else 0
    | .sign => if i < m then b i else if (b (m - 1)).getLsbD 7 then 0xFF else 0
    | .be => if i < m then b (m - 1 - i) else 0

/-- Byte `i` of the `m` bytes that a store takes from a register (R76). -/
def stored (be : Bool) (m : Nat) (v : W64) (i : Nat) : Byte :=
  if be then v.extractLsb' (8 * (m - 1 - i)) 8 else v.extractLsb' (8 * i) 8

/-- The thread goes on to the next instruction. -/
def goesOn (s : State) (n : Nat) : State := s.modThr n fun t => { t with pc := t.pc + 1 }

/-- The command is an effect on the state, after which whatever satchels it has set going are stepped on (R50, R180,
R288). -/
def EndsSettled (c : Instr) (s : State) (P : State → Prop) : Prop := ∃ u, exec c s = .next u.settle ∧ P u

/-- The row of an AFV-2 instruction: its agent, its predicate selector, and the instruction. -/
def rowOf : Instr → Option (Agent × BitVec 3 × Afv)
  | .add who pr rd ra rb => some (who, pr, .alu .add rd ra rb)
  | .sub who pr rd ra rb => some (who, pr, .alu .sub rd ra rb)
  | .and who pr rd ra rb => some (who, pr, .alu .and rd ra rb)
  | .or who pr rd ra rb => some (who, pr, .alu .or rd ra rb)
  | .xor who pr rd ra rb => some (who, pr, .alu .xor rd ra rb)
  | .andn who pr rd ra rb => some (who, pr, .alu .andn rd ra rb)
  | .shl who pr rd ra rb => some (who, pr, .alu .shl rd ra rb)
  | .shr who pr rd ra rb => some (who, pr, .alu .shr rd ra rb)
  | .sra who pr rd ra rb => some (who, pr, .alu .sra rd ra rb)
  | .rol who pr rd ra rb => some (who, pr, .alu .rol rd ra rb)
  | .ror who pr rd ra rb => some (who, pr, .alu .ror rd ra rb)
  | .minu who pr rd ra rb => some (who, pr, .alu .minu rd ra rb)
  | .maxu who pr rd ra rb => some (who, pr, .alu .maxu rd ra rb)
  | .mins who pr rd ra rb => some (who, pr, .alu .mins rd ra rb)
  | .maxs who pr rd ra rb => some (who, pr, .alu .maxs rd ra rb)
  | .clz who pr rd ra rb => some (who, pr, .alu .clz rd ra rb)
  | .ctz who pr rd ra rb => some (who, pr, .alu .ctz rd ra rb)
  | .popc who pr rd ra rb => some (who, pr, .alu .popc rd ra rb)
  | .bswap who pr rd ra rb => some (who, pr, .alu .bswap rd ra rb)
  | .add32 who pr rd ra rb => some (who, pr, .alu .add32 rd ra rb)
  | .sub32 who pr rd ra rb => some (who, pr, .alu .sub32 rd ra rb)
  | .mul who pr rd ra rb => some (who, pr, .mul .mul rd ra rb)
  | .mulhu who pr rd ra rb => some (who, pr, .mul .mulhu rd ra rb)
  | .mulhs who pr rd ra rb => some (who, pr, .mul .mulhs rd ra rb)
  | .divu who pr rd ra rb => some (who, pr, .mul .divu rd ra rb)
  | .remu who pr rd ra rb => some (who, pr, .mul .remu rd ra rb)
  | .divs who pr rd ra rb => some (who, pr, .mul .divs rd ra rb)
  | .rems who pr rd ra rb => some (who, pr, .mul .rems rd ra rb)
  | .cmp who pr pd mode cond pe ra rb => some (who, pr, .cmp pd mode cond pe ra rb)
  | .pand who pr pd pa pb => some (who, pr, .pred .and pd pa pb)
  | .por who pr pd pa pb => some (who, pr, .pred .or pd pa pb)
  | .pxor who pr pd pa pb => some (who, pr, .pred .xor pd pa pb)
  | .pandn who pr pd pa pb => some (who, pr, .pred .andn pd pa pb)
  | .pnot who pr pd pa pb => some (who, pr, .pred .not pd pa pb)
  | .addi who pr rd ra imm => some (who, pr, .imm .addi rd ra imm)
  | .andi who pr rd ra imm => some (who, pr, .imm .andi rd ra imm)
  | .ori who pr rd ra imm => some (who, pr, .imm .ori rd ra imm)
  | .xori who pr rd ra imm => some (who, pr, .imm .xori rd ra imm)
  | .shli who pr rd ra hi amt => some (who, pr, .shift .shl rd ra hi amt)
  | .shri who pr rd ra hi amt => some (who, pr, .shift .shr rd ra hi amt)
  | .srai who pr rd ra hi amt => some (who, pr, .shift .sra rd ra hi amt)
  | .roli who pr rd ra hi amt => some (who, pr, .shift .rol rd ra hi amt)
  | .movk who pr rd ra imm => some (who, pr, .imm .movk rd ra imm)
  | .ext who pr rd ra imm => some (who, pr, .ext rd ra imm)
  | .ins who pr rd ra imm => some (who, pr, .ins rd ra imm)
  | .cmpiEq who pr pd mode ra imm => some (who, pr, .cmpi .eq pd mode ra imm)
  | .cmpiLtu who pr pd mode ra imm => some (who, pr, .cmpi .ltu pd mode ra imm)
  | .cmpiLts who pr pd mode ra imm => some (who, pr, .cmpi .lts pd mode ra imm)
  | .cmpiAny who pr pd mode ra imm => some (who, pr, .cmpi .any pd mode ra imm)
  | .crc32c who pr rd ra rb => some (who, pr, .help .crc32c rd ra rb)
  | .crc64n who pr rd ra rb => some (who, pr, .help .crc64n rd ra rb)
  | .gfmul who pr rd ra rb => some (who, pr, .help .gfmul rd ra rb)
  | .gfxor who pr rd ra rb => some (who, pr, .help .gfxor rd ra rb)
  | .sget who pr rd imm => some (who, pr, .sget rd imm)
  | .sput who pr n ra rb => some (who, pr, .sput n ra rb)
  | .ld who pr rd ra space size off => some (who, pr, .load .zero rd ra space size off)
  | .lds who pr rd ra space size off => some (who, pr, .load .sign rd ra space size off)
  | .ldbe who pr rd ra space size off => some (who, pr, .load .be rd ra space size off)
  | .st who pr rd ra space size off => some (who, pr, .store false rd ra space size off)
  | .stbe who pr rd ra space size off => some (who, pr, .store true rd ra space size off)
  | .ldc who pr rd ra size off => some (who, pr, .load .zero rd ra 3 size off)
  | .stc who pr rs ra size off => some (who, pr, .store false rs ra 3 size off)
  | .amoAdd who pr rd ra rb space wide => some (who, pr, .amo .add rd ra rb space wide)
  | .amoSwap who pr rd ra rb space wide => some (who, pr, .amo .swap rd ra rb space wide)
  | .amoCas who pr rd ra rb space wide => some (who, pr, .amo .cas rd ra rb space wide)
  | .amoAnd who pr rd ra rb space wide => some (who, pr, .amo .and rd ra rb space wide)
  | .amoOr who pr rd ra rb space wide => some (who, pr, .amo .or rd ra rb space wide)
  | .amoMaxu who pr rd ra rb space wide => some (who, pr, .amo .maxu rd ra rb space wide)
  | .amoMinu who pr rd ra rb space wide => some (who, pr, .amo .minu rd ra rb space wide)
  | .fence who pr pre succ => some (who, pr, .fence pre succ)
  | .look who pr rd ra table klen rcnt pd => some (who, pr, .look rd ra table klen rcnt pd)
  | .rcmp who pr rd ra tag => some (who, pr, .rcmp rd ra tag)
  | .gcmEnc who pr rd ra rb => some (who, pr, .ciph 1 rd ra rb)
  | .gcmDec who pr rd ra rb => some (who, pr, .ciph 2 rd ra rb)
  | .gcmVerify who pr rd ra rb => some (who, pr, .ciph 3 rd ra rb)
  | .gmacGen who pr rd ra rb => some (who, pr, .ciph 4 rd ra rb)
  | .gmacVerify who pr rd ra rb => some (who, pr, .ciph 5 rd ra rb)
  | .xtsEnc who pr rd ra rb => some (who, pr, .ciph 8 rd ra rb)
  | .xtsDec who pr rd ra rb => some (who, pr, .ciph 9 rd ra rb)
  | .kwWrap who pr rd ra rb => some (who, pr, .ciph 0x10 rd ra rb)
  | .kwUnwrap who pr rd ra rb => some (who, pr, .ciph 0x11 rd ra rb)
  | .branch who pr off => some (who, pr, .branch off)
  | .call who pr off => some (who, pr, .call off)
  | .jr who pr rd ra => some (who, pr, .jr rd ra)
  | .waite who pr rd ra => some (who, pr, .waite rd ra)
  | .sige who pr ra rb => some (who, pr, .sige ra rb)
  | .sett who pr ra => some (who, pr, .sett ra)
  | .clrt who pr => some (who, pr, .clrt)
  | .evrd who pr rd => some (who, pr, .evrd rd)
  | .post who pr ra rb => some (who, pr, .post false ra rb)
  | .postEnd who pr ra rb => some (who, pr, .post true ra rb)
  | .take who pr rd ra pd pe => some (who, pr, .take rd ra pd pe)
  | .getw who pr rd ra pd => some (who, pr, .getw rd ra pd)
  | .dispCont who pr => some (who, pr, .dispCont)
  | .dispDrop who pr => some (who, pr, .dispDrop)
  | .dispGroup who pr ra => some (who, pr, .dispGroup ra)
  | .news who pr rd ra rb => some (who, pr, .news rd ra rb)
  | .sysr who pr rd ra => some (who, pr, .sysr rd ra)
  | .sysw who pr ra rb => some (who, pr, .sysw ra rb)
  | .icacheInv who pr ra rb => some (who, pr, .sysw ra rb)
  | .eret who pr => some (who, pr, .eret)
  | .waitPwr who pr rd => some (who, pr, .waitPwr rd)
  | .halt who pr ra rb => some (who, pr, .clctl ra rb)
  | .release who pr ra rb => some (who, pr, .clctl ra rb)
  | .restart who pr ra rb => some (who, pr, .clctl ra rb)
  | .trestart who pr ra => some (who, pr, .trestart ra)
  | .trap who pr code => some (who, pr, .trap code)
  | _ => none

/-! ### Terms of single statements -/

/-- The conditions of R69 by their number. -/
def holdsCond (c : Nat) (x y : W64) : Prop :=
  (c = 0 ∧ x = y) ∨ (c = 1 ∧ x ≠ y) ∨ (c = 2 ∧ x.toNat < y.toNat) ∨ (c = 3 ∧ y.toNat ≤ x.toNat) ∨
  (c = 4 ∧ x.toInt < y.toInt) ∨ (c = 5 ∧ y.toInt ≤ x.toInt) ∨ (c = 6 ∧ x &&& y ≠ 0) ∨ (c = 7 ∧ x &&& y = 0)

/-- The new value of pd under a mode of R69, from its old value and the condition. -/
def afterMode (mode : BitVec 2) (old c : Bool) : Bool :=
  if mode = 0 then c else if mode = 1 then old && c else if mode = 2 then old || c else !c

/-- The bits of satchel word `k` that firmware writes as they stand: every field of R37 that is RW, but for K (written by
the first stage alone), DONE and EXC, which have rules of their own. -/
def writable (k : Nat) : W32 :=
  if k = 0 then 0xC0000FFF else if k = 1 then 0xFFFFFF00 else if k = 3 then 0x0FFC00FF else if k = 4 then 0x0003FFFF
  else if k = 7 ∨ k = 8 then 0xFFFF0000 else if 9 ≤ k then 0xFFFFFFFF else 0

/-- The value that an AMO leaves in memory, of `8 m` bits, from the old value, rd and rb (R77). -/
def amoLeaves (op : AmoOp) (m old cmp b : Nat) : Nat :=
  match op with
  | .add => (old + b) % 2 ^ (8 * m)
  | .swap => b
  | .cas => if old = cmp then b else old
  | .and => old &&& b
  | .or => old ||| b
  | .maxu => if old < b then b else old
  | .minu => if b < old then b else old

/-- The row of an AMO. -/
def amoRow (op : AmoOp) (who : Agent) (pr : BitVec 3) (rd ra rb : BitVec 5) (space : BitVec 2) (wide : Bool) : Instr :=
  match op with
  | .add => .amoAdd who pr rd ra rb space wide
  | .swap => .amoSwap who pr rd ra rb space wide
  | .cas => .amoCas who pr rd ra rb space wide
  | .and => .amoAnd who pr rd ra rb space wide
  | .or => .amoOr who pr rd ra rb space wide
  | .maxu => .amoMaxu who pr rd ra rb space wide
  | .minu => .amoMinu who pr rd ra rb space wide

/-- The next operation of thread `n` is outstanding: it stands last among the thread's operations with the number, PC and
issue count of its instruction, and nothing else has changed (R78, R98). -/
def Outstanding (s t : State) (n : Nat) (act : MemAct) (addr : Nat) : Prop :=
  (t.thr n).ops = (s.thr n).ops ++ [⟨s.nextOp, act, addr, (s.thr n).pc, (s.thr n).issued + 1⟩] ∧
  t.nextOp = s.nextOp + 1 ∧ RegsKept s t n ∧ (t.thr n).pc = (s.thr n).pc + 1 ∧ (t.thr n).issued = (s.thr n).issued + 1 ∧
  (t.thr n).ev = (s.thr n).ev ∧ (t.thr n).timer = (s.thr n).timer ∧ (t.thr n).held = (s.thr n).held ∧
  (t.thr n).run = (s.thr n).run ∧ OthersKept s t n ∧ RestKept { s with nextOp := t.nextOp } t

/-- R98: fewer than four loads and AMOs of device space are outstanding at the thread, and at a worker fewer than sixteen
at its core. -/
def LoadRoom (s : State) (n : Nat) : Prop :=
  s.loadsOut n < 4 ∧ (n < 2048 → ((List.range 8).map fun i => s.loadsOut (n / 8 * 8 + i)).sum < 16)

/-- R74, R75 and R77 in space 0b01: what an access of `m` bytes raises, if anything. Reserved addresses are those of R15
and R17; a worker thread stores to no instruction memory and loads none of its own core's. -/
def deviceRaises (n ea m : Nat) (store : Bool) : Option Nat :=
  let res := fun a => (0x0D000000 ≤ a ∧ a < 0x100000000) ∨ 0x1900000000 ≤ a
  let insn := fun a => 0x0B000000 ≤ a ∧ a < 0x0C800000 ∧ (a - 0x0B000000) % 0x18000 < 0x8000
  let own := fun a => 0x0B000000 + n / 8 * 0x18000 ≤ a ∧ a < 0x0B000000 + n / 8 * 0x18000 + 0x8000
  if res ea ∨ res (ea + m - 1) ∨ (n < 2048 ∧ (if store then insn ea ∨ insn (ea + m - 1) else own ea ∨ own (ea + m - 1)))
  then some 4 else if ea % m ≠ 0 then some 3 else none

/-- A transfer of control at a thread or steward: the PC becomes `target` and nothing else of the thread but the link
register changes. -/
def Jumps (c : Instr) (s : State) (n : Nat) (link : BitVec 5) (target : Nat) : Prop :=
  Ends c s fun t => (t.thr n).pc = target ∧ Wrote s t n link (BitVec.ofNat 64 ((s.thr n).pc + 1)) ∧
    (t.thr n).issued = (s.thr n).issued + 1 ∧ (t.thr n).ev = (s.thr n).ev ∧ (t.thr n).timer = (s.thr n).timer ∧
    (t.thr n).held = (s.thr n).held ∧ (t.thr n).run = (s.thr n).run ∧ (t.thr n).ops = (s.thr n).ops ∧
    OthersKept s t n ∧ RestKept s t

/-- Does a bound source that sets bit `i` of thread `n` hold (R86)? -/
def sourceHolds (s : State) (n i : Nat) : Bool := (s.bindsOf n).any fun b => decide (b.bit = i) && s.levelHolds n b.type b.index

/-- The timer of a thread once bit 16 has taken a time that ICT has reached (R87). -/
def timerLeft (s : State) (n : Nat) : Option Nat := if s.timerDue n then none else (s.thr n).timer

/-- The rows of the CIPH operations with their op values (R248). -/
def ciphRows (who : Agent) (pr : BitVec 3) (rd ra rb : BitVec 5) : List (Instr × Nat) :=
  [(.gcmEnc who pr rd ra rb, 0x01), (.gcmDec who pr rd ra rb, 0x02), (.gcmVerify who pr rd ra rb, 0x03),
   (.gmacGen who pr rd ra rb, 0x04), (.gmacVerify who pr rd ra rb, 0x05), (.xtsEnc who pr rd ra rb, 0x08),
   (.xtsDec who pr rd ra rb, 0x09), (.kwWrap who pr rd ra rb, 0x10), (.kwUnwrap who pr rd ra rb, 0x11)]

/-- R65 and R83: the instructions that a stage program lacks; a stage that meets one raises STAGE_FAULT. -/
def stageLacks (a : Afv) : Bool :=
  match a with
  | .mul op _ _ _ => op = .divu ∨ op = .remu ∨ op = .divs ∨ op = .rems
  | .help op _ _ _ => op ≠ .crc32c
  | .load _ _ _ space _ _ => space ≠ 2
  | .store _ _ _ space _ _ => space ≠ 2
  | .alu .. | .cmp .. | .pred .. | .imm .. | .shift .. | .ext .. | .ins .. | .cmpi .. | .sget .. | .sput .. | .branch ..
    | .look .. | .rcmp .. | .dispCont | .dispDrop | .dispGroup .. => false
  | _ => true

/-- How many slots after an instruction of a stage program its result is readable (R98). -/
def slotsToResult (a : Afv) : Nat :=
  match a with
  | .mul .. => 3
  | .help .. => 2
  | _ => 1

/-- Nothing has changed but the time scales and control registers. -/
def ClockKept (s t : State) : Prop := { t with clock := s.clock, regs := s.regs } = s

/-- Port counter `c` of a sub-port counts `n` (R140). -/
def Counted (s t : State) (p k c n : Nat) : Prop :=
  t.rdN (Reg.portCnt p k c) 2 = (s.rdN (Reg.portCnt p k c) 2 + n) % 2 ^ 40

/-- No frame came or went, and no lane, memory or MAC changed, the PFC frames that wait at a MAC apart. -/
def FramesKept (s t : State) : Prop :=
  t.frames = s.frames ∧ t.nextFrame = s.nextFrame ∧ t.lanes = s.lanes ∧
  (∀ p k, { t.mac p k with pfc := (s.mac p k).pfc } = s.mac p k) ∧ t.mem = s.mem ∧
  t.threads = s.threads ∧ t.stewards = s.stewards

/-- A job has left its island with status `st` and `written` output bytes: its record stands at the next entry of its
completion queue, PROD has advanced, and no other byte of memory has changed (R249). -/
def Recorded (s t : State) (j : CiphJob) (st written : Nat) : Prop :=
  let cfg := ctlAddr (0x53 + j.cq / 128) (0x1000 + 16 * (j.cq % 128))
  let prod := (s.rd (cfg + 8)).toNat
  let a := s.rf cfg cqCfg_BASE / 64 * 64 + 16 * (prod % 2 ^ s.rf cfg cqCfg_LOG2_ENTRIES)
  (t.ldByte (a + 4)).toNat = st % 256 ∧ (∀ i, i < 4 → t.ldByte (a + 8 + i) = BitVec.ofNat 8 (written / 256 ^ i)) ∧
  (∀ i, i < 4 → t.ldByte (a + 12 + i) = BitVec.ofNat 8 ((j.latch.map Latch.gen).getD 0 / 256 ^ i)) ∧
  (∀ b, b < a ∨ a + 16 ≤ b → t.ldByte b = s.ldByte b) ∧ (t.rd (cfg + 8)).toNat = (prod + 1) % 2 ^ 32 ∧
  t.ciphJobs = s.ciphJobs.filter (fun x => x.id ≠ j.id) ∧ t.frames = s.frames ∧ t.slots = s.slots

/-- The host reaches BAR0 of a function of the link: the link is up, no reset of the function is in progress, the
function is in D0 and its Memory Space Enable is 1 (R295, R305, R313, R410). -/
def BarOpen (s : State) (h fn : Nat) : Prop :=
  (s.host h).up = true ∧ (s.host h).flr.getLsbD fn = false ∧ s.mse h fn = true ∧ s.dstate h fn = 0

/-- The end of host channel `ch` at which commands arrive serves them, and none waits or is outstanding (R348, R350). -/
structure Serves (s : State) (ch : Nat) : Prop where
  runs : s.stopped = false
  ready : s.rf (Reg.devStatus (ch / 8)) devStatus_READY = 1
  noCmd : s.hostCmds = []
  noWait : s.cmdWait = []

/-- A command has been answered from state `u`: its response closes on the channel behind the words already there, in
which OP, TAG and STATUS come first (R350). -/
def Answered (u t : State) (ch op tag st : Nat) (ws : List Nat) : Prop :=
  t = u.cmdFinish ch op tag st ws ∧
  ((u.mbox (16 + ch)).ab.length + ws.length < 16 → (u.mbox (16 + ch)).openA = 0 → (∀ r ∈ u.replies, r.1 ≠ 16 + ch) →
    (t.mbox (16 + ch)).ab.map (fun w => w.word) = (u.mbox (16 + ch)).ab.map (fun w => w.word) ++
      ((op + 256 * tag + 65536 * st) :: ws).map (· % 2 ^ 32) ∧
    (t.mbox (16 + ch)).ab.getLast?.map (fun w => w.fin) = some true ∧ t.replies = u.replies)

/-- Word `n` of a host command, from 1 on. -/
def cmdWord (ws : List W32) (n : Nat) : Nat := (ws.getD (n - 1) 0).toNat

/-- The message of a host command. -/
def cmdMsg (op : Nat) (tag : Byte) (ws : List W32) : List Nat := (op + 256 * tag.toNat) :: ws.map BitVec.toNat

/-- The rows of the host commands that name an instance, with their OP values (R350). -/
def instRows (ch : Fin 16) (tag : Byte) (ws : List W32) : List (Instr × Nat) :=
  [(.viCreate ch tag ws, 0x10), (.viDestroy ch tag ws, 0x11), (.viDbStop ch tag ws, 0x12), (.viDbStart ch tag ws, 0x13),
   (.viReset ch tag ws, 0x14), (.viQos ch tag ws, 0x15), (.qpCreate ch tag ws, 0x20), (.qpDestroy ch tag ws, 0x21),
   (.qpStart ch tag ws, 0x22), (.qpStop ch tag ws, 0x23), (.qpDrain ch tag ws, 0x24), (.qpAbort ch tag ws, 0x25),
   (.intrBind ch tag ws, 0x26)]

/-- The initiator reaches the registers of Ferry channel `c` (R19, R355). -/
def FerryOpen (s : State) (who : Writer) (c : Nat) : Prop :=
  ∀ p ∈ [(0, 8), (8, 4), (0x14, 4)], OpenTo s (writerInit who) (ferryAddr c p.1) p.2

end Sys2Proof.Safety
end

