-- ==== Sys2Proof/Certificates/Slice0/Obligations.lean ====
section
/-! DEFINITION. The statements about the model. -/

open Sys2Proof Sys2Proof.Machine Sys2Proof.Safety

/-! ### The queue and the step -/

/-- A step runs the command at the front of the queue on the state with the queue's rest; with none waiting it answers
the state itself (the idle step is the model's choice, log entry 1). -/
def Obligations.StepRunsFrontCommand : Prop :=
  (∀ (c : Instr) (rest : List Instr) (s : State),
    step { s with pending := c :: rest } = exec c { s with pending := rest }) ∧
  (∀ s : State, s.pending = [] → step s = .next s)

/-- No command stops the block: in every state every command has a next state. -/
def Obligations.NoCommandStops : Prop := ∀ (c : Instr) (s : State), ∃ t, exec c s = .next t

/-! ### AFV-2: results -/

/-- R66: the results of the ALU group at a thread or steward, and what each func value of major 0x00 decodes to. -/
def Obligations.AluResults : Prop :=
  ∀ (who : Agent) (n : Nat) (pr : BitVec 3) (rd ra rb : BitVec 5) (s : State),
    agentNum who = some n → CanIssue s n pr [rd, ra, rb] [] →
    let x := reg s n ra; let y := reg s n rb; let k := y.toNat % 64
    Computes (.add who pr rd ra rb) s n rd (x + y) ∧
    Computes (.sub who pr rd ra rb) s n rd (x - y) ∧
    Computes (.and who pr rd ra rb) s n rd (x &&& y) ∧
    Computes (.or who pr rd ra rb) s n rd (x ||| y) ∧
    Computes (.xor who pr rd ra rb) s n rd (x ^^^ y) ∧
    Computes (.andn who pr rd ra rb) s n rd (x &&& ~~~y) ∧
    Computes (.shl who pr rd ra rb) s n rd (x <<< k) ∧
    Computes (.shr who pr rd ra rb) s n rd (x >>> k) ∧
    Computes (.sra who pr rd ra rb) s n rd (x.sshiftRight k) ∧
    Computes (.rol who pr rd ra rb) s n rd ((x <<< k) ||| (x >>> (64 - k))) ∧
    Computes (.ror who pr rd ra rb) s n rd ((x >>> k) ||| (x <<< (64 - k))) ∧
    Computes (.minu who pr rd ra rb) s n rd (if x.ult y then x else y) ∧
    Computes (.maxu who pr rd ra rb) s n rd (if x.ult y then y else x) ∧
    Computes (.mins who pr rd ra rb) s n rd (if x.slt y then x else y) ∧
    Computes (.maxs who pr rd ra rb) s n rd (if x.slt y then y else x) ∧
    Computes (.add32 who pr rd ra rb) s n rd (((x + y).extractLsb' 0 32).setWidth 64) ∧
    Computes (.sub32 who pr rd ra rb) s n rd (((x - y).extractLsb' 0 32).setWidth 64) ∧
    (if rb = 0 then
      Computes (.clz who pr rd ra rb) s n rd (BitVec.ofNat 64 ((List.range 64).takeWhile fun i => !x.getLsbD (63 - i)).length) ∧
      Computes (.ctz who pr rd ra rb) s n rd (BitVec.ofNat 64 ((List.range 64).takeWhile fun i => !x.getLsbD i).length) ∧
      Computes (.popc who pr rd ra rb) s n rd (BitVec.ofNat 64 ((List.range 64).filter fun i => x.getLsbD i).length) ∧
      (∃ v : W64, (∀ i, i < 8 → v.extractLsb' (8 * i) 8 = x.extractLsb' (8 * (7 - i)) 8) ∧
        Computes (.bswap who pr rd ra rb) s n rd v)
    else
      Raises (.clz who pr rd ra rb) s n 1 0 ∧ Raises (.ctz who pr rd ra rb) s n 1 0 ∧
      Raises (.popc who pr rd ra rb) s n 1 0 ∧ Raises (.bswap who pr rd ra rb) s n 1 0) ∧
    (let two : List (Nat × AluOp) := [(0x00, .add), (0x01, .sub), (0x02, .and), (0x03, .or), (0x04, .xor), (0x05, .andn), (0x06, .shl), (0x07, .shr),
      (0x08, .sra), (0x09, .rol), (0x0A, .ror), (0x0B, .minu), (0x0C, .maxu), (0x0D, .mins), (0x0E, .maxs), (0x14, .add32), (0x15, .sub32)]
     let one : List (Nat × AluOp) := [(0x10, .clz), (0x11, .ctz), (0x12, .popc), (0x13, .bswap)]
     ∀ f, f < 256 → afvDecode (aForm 0x00 rd ra rb f pr) = ((two ++ if rb = 0 then one else []).lookup f).map fun op => .alu op rd ra rb)

/-- R67: products, quotients truncated toward zero, remainders with the dividend's sign, and the two corners. -/
def Obligations.MulDivResults : Prop :=
  ∀ (who : Agent) (n : Nat) (pr : BitVec 3) (rd ra rb : BitVec 5) (s : State),
    agentNum who = some n → CanIssue s n pr [rd, ra, rb] [] →
    let x := reg s n ra; let y := reg s n rb
    Computes (.mul who pr rd ra rb) s n rd (x * y) ∧
    Computes (.mulhu who pr rd ra rb) s n rd ((x.setWidth 128 * y.setWidth 128).extractLsb' 64 64) ∧
    Computes (.mulhs who pr rd ra rb) s n rd ((x.signExtend 128 * y.signExtend 128).extractLsb' 64 64) ∧
    (y ≠ 0 →
      Computes (.divu who pr rd ra rb) s n rd (BitVec.ofNat 64 (x.toNat / y.toNat)) ∧
      Computes (.remu who pr rd ra rb) s n rd (BitVec.ofNat 64 (x.toNat % y.toNat)) ∧
      Computes (.divs who pr rd ra rb) s n rd (BitVec.ofInt 64 (x.toInt.tdiv y.toInt)) ∧
      Computes (.rems who pr rd ra rb) s n rd (BitVec.ofInt 64 (x.toInt.tmod y.toInt))) ∧
    (y = 0 →
      Computes (.divu who pr rd ra rb) s n rd 0xFFFFFFFFFFFFFFFF ∧ Computes (.remu who pr rd ra rb) s n rd x ∧
      Computes (.divs who pr rd ra rb) s n rd 0xFFFFFFFFFFFFFFFF ∧ Computes (.rems who pr rd ra rb) s n rd x) ∧
    (x = 0x8000000000000000 → y = 0xFFFFFFFFFFFFFFFF →
      Computes (.divs who pr rd ra rb) s n rd 0x8000000000000000 ∧ Computes (.rems who pr rd ra rb) s n rd 0) ∧
    afvDecode (aForm 0x01 rd ra rb 0x00 pr) = some (.mul .mul rd ra rb) ∧
    afvDecode (aForm 0x01 rd ra rb 0x01 pr) = some (.mul .mulhu rd ra rb) ∧
    afvDecode (aForm 0x01 rd ra rb 0x02 pr) = some (.mul .mulhs rd ra rb) ∧
    afvDecode (aForm 0x01 rd ra rb 0x08 pr) = some (.mul .divu rd ra rb) ∧
    afvDecode (aForm 0x01 rd ra rb 0x09 pr) = some (.mul .remu rd ra rb) ∧
    afvDecode (aForm 0x01 rd ra rb 0x0A pr) = some (.mul .divs rd ra rb) ∧
    afvDecode (aForm 0x01 rd ra rb 0x0B pr) = some (.mul .rems rd ra rb)

/-- R68: immediates, shifts by an immediate, MOVK, EXT and INS, and their ILLEGAL forms. -/
def Obligations.ImmediateResults : Prop :=
  ∀ (who : Agent) (n : Nat) (pr : BitVec 3) (rd ra : BitVec 5) (imm : BitVec 14) (hi amt : BitVec 6) (s : State),
    agentNum who = some n → CanIssue s n pr [rd, ra] [] →
    let x := reg s n ra
    let d := reg s n rd
    let pos := (imm.extractLsb' 0 6).toNat
    let len := (imm.extractLsb' 6 6).toNat + 1
    Computes (.addi who pr rd ra imm) s n rd (x + imm.signExtend 64) ∧
    Computes (.andi who pr rd ra imm) s n rd (x &&& imm.setWidth 64) ∧
    Computes (.ori who pr rd ra imm) s n rd (x ||| imm.setWidth 64) ∧
    Computes (.xori who pr rd ra imm) s n rd (x ^^^ imm.setWidth 64) ∧
    Computes (.movk who pr rd ra imm) s n rd ((x <<< 14) ||| imm.setWidth 64) ∧
    (if hi = 0 then
      Computes (.shli who pr rd ra hi amt) s n rd (x <<< amt.toNat) ∧
      Computes (.shri who pr rd ra hi amt) s n rd (x >>> amt.toNat) ∧
      Computes (.srai who pr rd ra hi amt) s n rd (x.sshiftRight amt.toNat) ∧
      Computes (.roli who pr rd ra hi amt) s n rd ((x <<< amt.toNat) ||| (x >>> (64 - amt.toNat)))
    else
      Raises (.shli who pr rd ra hi amt) s n 1 0 ∧ Raises (.shri who pr rd ra hi amt) s n 1 0 ∧
      Raises (.srai who pr rd ra hi amt) s n 1 0 ∧ Raises (.roli who pr rd ra hi amt) s n 1 0) ∧
    (if imm.getLsbD 13 = true ∨ 64 < pos + len then
      Raises (.ext who pr rd ra imm) s n 1 0 ∧ Raises (.ins who pr rd ra imm) s n 1 0
    else
      (∃ v : W64, (∀ i, i < 64 → v.getLsbD i =
          if i < len then x.getLsbD (pos + i) else (imm.getLsbD 12 && x.getLsbD (pos + len - 1))) ∧
        Computes (.ext who pr rd ra imm) s n rd v) ∧
      (if imm.getLsbD 12 = true then Raises (.ins who pr rd ra imm) s n 1 0
      else ∃ v : W64, (∀ i, i < 64 → v.getLsbD i =
          if pos ≤ i ∧ i < pos + len then x.getLsbD (i - pos) else d.getLsbD i) ∧
        Computes (.ins who pr rd ra imm) s n rd v))

/-- R69: CMP and CMPI. pe is written after pd, so that it ends as its negation where both name one predicate.

R70: predicate logic, with its words. -/
def Obligations.CompareResults : Prop :=
  (∀ (who : Agent) (n : Nat) (pr pd pe : BitVec 3) (mode : BitVec 2) (cond : BitVec 4) (ra rb : BitVec 5) (imm : BitVec 14)
    (s : State), agentNum who = some n → CanIssue s n pr [ra, rb] [pd, pe] →
    let x := reg s n ra
    let q := fun (v : Bool) (p : BitVec 3) => if p = pd then v else pred s n p
    let q2 := fun (v : Bool) (p : BitVec 3) => if p = pe ∧ pe ≠ 0 then !v else q v p
    (∀ b : Bool, cond.toNat < 8 → (b = true ↔ holdsCond cond.toNat x (reg s n rb)) →
      Decides (.cmp who pr pd mode cond pe ra rb) s n (q2 (afterMode mode (pred s n pd) b))) ∧
    (8 ≤ cond.toNat → Raises (.cmp who pr pd mode cond pe ra rb) s n 1 0) ∧
    (∀ b : Bool, (b = true ↔ holdsCond 0 x (imm.signExtend 64)) →
      Decides (.cmpiEq who pr pd mode ra imm) s n (q (afterMode mode (pred s n pd) b))) ∧
    (∀ b : Bool, (b = true ↔ holdsCond 2 x (imm.setWidth 64)) →
      Decides (.cmpiLtu who pr pd mode ra imm) s n (q (afterMode mode (pred s n pd) b))) ∧
    (∀ b : Bool, (b = true ↔ holdsCond 4 x (imm.signExtend 64)) →
      Decides (.cmpiLts who pr pd mode ra imm) s n (q (afterMode mode (pred s n pd) b))) ∧
    (∀ b : Bool, (b = true ↔ holdsCond 6 x (imm.setWidth 64)) →
      Decides (.cmpiAny who pr pd mode ra imm) s n (q (afterMode mode (pred s n pd) b))) ∧
    afvDecode (aForm 0x02 (BitVec.ofNat 5 (pd.toNat * 4 + mode.toNat)) ra rb (cond.toNat * 16 + pe.toNat * 2) pr) =
      (if cond.toNat < 8 then some (.cmp pd mode cond pe ra rb) else none)) ∧
  (∀ (who : Agent) (n : Nat) (pr pd pa pb : BitVec 3) (s : State),
    agentNum who = some n → CanIssue s n pr [] [pd, pa, pb] →
    let x := pred s n pa; let y := pred s n pb
    let q := fun (v : Bool) (p : BitVec 3) => if p = pd then v else pred s n p
    let w := fun (func : Nat) => aForm 0x03 (BitVec.ofNat 5 (pd.toNat * 4)) (BitVec.ofNat 5 (pa.toNat * 4))
      (BitVec.ofNat 5 (pb.toNat * 4)) func pr
    Decides (.pand who pr pd pa pb) s n (q (x && y)) ∧
    Decides (.por who pr pd pa pb) s n (q (x || y)) ∧
    Decides (.pxor who pr pd pa pb) s n (q (x != y)) ∧
    Decides (.pandn who pr pd pa pb) s n (q (x && !y)) ∧
    (if pb = 0 then Decides (.pnot who pr pd pa pb) s n (q (!x)) else Raises (.pnot who pr pd pa pb) s n 1 0) ∧
    afvDecode (w 0) = some (.pred .and pd pa pb) ∧ afvDecode (w 1) = some (.pred .or pd pa pb) ∧
    afvDecode (w 2) = some (.pred .xor pd pa pb) ∧ afvDecode (w 3) = some (.pred .andn pd pa pb) ∧
    afvDecode (w 4) = if pb = 0 then some (.pred .not pd pa pb) else none)

/-- R84: the helpers. A CRC step is 64 shifts of the reflected register after the eight bytes have been added, lowest byte
first, with no inversion; a product is taken byte by byte in GF(2^8) under 0x11D. -/
def Obligations.HelperResults : Prop :=
  ∀ (who : Agent) (n : Nat) (pr : BitVec 3) (rd ra rb : BitVec 5) (s : State),
    agentNum who = some n → CanIssue s n pr [rd, ra, rb] [] →
    let x := reg s n ra; let y := reg s n rb
    let shifts := fun (poly c : Nat) => Nat.iterate (fun c => if c % 2 = 1 then (c / 2) ^^^ poly else c / 2) 64 c
    Computes (.crc64n who pr rd ra rb) s n rd (BitVec.ofNat 64 (shifts 0x9A6C9329AC4BC9B5 (x.toNat ^^^ y.toNat))) ∧
    Computes (.crc32c who pr rd ra rb) s n rd (BitVec.ofNat 64 (shifts 0x82F63B78 (x.toNat % 2 ^ 32 ^^^ y.toNat))) ∧
    (∃ v : W64, (∀ i, i < 8 → (v.extractLsb' (8 * i) 8).toNat =
        gfMul (x.extractLsb' (8 * i) 8).toNat (y.extractLsb' (8 * i) 8).toNat) ∧
      Computes (.gfmul who pr rd ra rb) s n rd v ∧ Computes (.gfxor who pr rd ra rb) s n rd (x ^^^ v)) ∧
    afvDecode (aForm 0x06 rd ra rb 0x00 pr) = some (.help .crc32c rd ra rb) ∧ afvDecode (aForm 0x06 rd ra rb 0x01 pr) = some (.help .crc64n rd ra rb) ∧
    afvDecode (aForm 0x06 rd ra rb 0x02 pr) = some (.help .gfmul rd ra rb) ∧ afvDecode (aForm 0x06 rd ra rb 0x03 pr) = some (.help .gfxor rd ra rb)

/-! ### AFV-2: satchel and memory -/

/-- R71, with SATCHEL_STATE of R73: SGET of one word or of a pair. -/
def Obligations.SatchelReads : Prop :=
  ∀ (who : Agent) (n : Nat) (pr : BitVec 3) (rd : BitVec 5) (imm : BitVec 14) (s : State),
    agentNum who = some n → CanIssue s n pr [rd] [] →
    let k := (imm.extractLsb' 0 4).toNat
    let bad := imm.extractLsb' 5 9 ≠ 0 ∨ (imm.getLsbD 4 = true ∧ k % 2 = 1)
    (bad → Raises (.sget who pr rd imm) s n 1 0) ∧
    (¬bad → (s.thr n).held = none → Raises (.sget who pr rd imm) s n 8 0) ∧
    (∀ fid, ¬bad → (s.thr n).held = some fid → Computes (.sget who pr rd imm) s n rd
      (if imm.getLsbD 4 then word s fid (k + 1) ++ word s fid k else (word s fid k).setWidth 64))

/-- R72 with R38 at a thread or steward: SPUT writes the masked bits of one word; a write of INSTANCE loads INST_GEN; a
write of DONE sets bits. The load of SVC by a write of
FLOW_CLASS and a change of EXC are stated below.

R38 at a thread or steward: a SPUT that writes FLOW_CLASS loads SVC from the new flow class record; DONE and POS and
the other words are kept.

R56 at a thread or steward: a write that changes EXC takes the satchel from the thread (log entry 21); a raise takes
REASON, or 0x80 outside 0x80 to 0xFE, and a resume steps on at POS with EXC and REASON cleared. -/
def Obligations.SatchelWrites : Prop :=
  (∀ (who : Agent) (n : Nat) (pr : BitVec 3) (w : BitVec 4) (ra rb : BitVec 5) (s : State),
    agentNum who = some n → CanIssue s n pr [ra, rb] [] →
    let a := (reg s n ra).setWidth 32
    let m := (reg s n rb).setWidth 32
    let k := w.toNat
    ((s.thr n).held = none → Raises (.sput who pr w ra rb) s n 8 0) ∧
    (∀ fid, (s.thr n).held = some fid → (k = 1 → m.extractLsb' 12 10 = 0) →
      (k = 2 → m.getLsbD 28 = false ∨ a.getLsbD 28 = (word s fid 2).getLsbD 28) →
      Ends (.sput who pr w ra rb) s fun t =>
        (let put := (word s fid k &&& ~~~(m &&& writable k)) ||| (a &&& m &&& writable k)
         ∀ i, i < 16 → word t fid i =
          if i ≠ k then word s fid i
          else if k = 2 then word s fid 2 ||| (a &&& m &&& 0x0FFFC000)
          else if k = 0 ∧ m.extractLsb' 0 12 ≠ 0 then
            (put &&& 0xF0000FFF) ||| (BitVec.ofNat 32 (s.inst (put.extractLsb' 0 12).toNat).gen <<< 12 &&& 0x0FFFF000)
          else put) ∧
        (t.frame fid).data = (s.frame fid).data ∧ (∀ g, g ≠ fid → t.frame g = s.frame g) ∧
        RegsKept s t n ∧ Advanced s t n ∧ OthersKept s t n ∧ RestKept { s with frames := t.frames } t)) ∧
  (∀ (who : Agent) (n : Nat) (pr : BitVec 3) (ra rb : BitVec 5) (s : State) (fid : Nat),
    agentNum who = some n → CanIssue s n pr [ra, rb] [] → (s.thr n).held = some fid →
    let m := (reg s n rb).setWidth 32
    let put := (word s fid 1 &&& ~~~(m &&& 0xFFFFFF00)) ||| ((reg s n ra).setWidth 32 &&& m &&& 0xFFFFFF00)
    m.extractLsb' 12 10 ≠ 0 → Ends (.sput who pr 1 ra rb) s fun t =>
      word t fid 1 = put ∧
      word t fid 2 = (word s fid 2 &&& 0xFFFFC000) ||| BitVec.ofNat 32 (s.classSvc (put.extractLsb' 12 10).toNat % 2 ^ 14) ∧
      (∀ i, i < 16 → i ≠ 1 → i ≠ 2 → word t fid i = word s fid i) ∧ (t.frame fid).data = (s.frame fid).data ∧
      (∀ g, g ≠ fid → t.frame g = s.frame g) ∧ RegsKept s t n ∧ Advanced s t n ∧ (∀ m, m ≠ n → t.thr m = s.thr m) ∧
      RestKept { s with frames := t.frames } t) ∧
  (∀ (who : Agent) (n : Nat) (pr : BitVec 3) (ra rb : BitVec 5) (s : State) (fid : Nat),
    agentNum who = some n → CanIssue s n pr [ra, rb] [] → (s.thr n).held = some fid →
    let a := (reg s n ra).setWidth 32
    let m := (reg s n rb).setWidth 32
    let f : Frame := { s.frame fid with s := satSetWord (s.frame fid).s 2 (word s fid 2 ||| (a &&& m &&& 0x0FFFC000)).toNat }
    let r := (s.frame fid).gf sfReason
    let drop := fun (s : State) => s.modThr n fun t => { t with held := none }
    m.getLsbD 28 = true → a.getLsbD 28 = !(word s fid 2).getLsbD 28 →
    (a.getLsbD 28 = true → exec (.sput who pr 2 ra rb) s = .next (goesOn
      (((drop ((s.noteIssue n).setFrame fid f)).raiseExc fid (if 0x80 ≤ r ∧ r ≤ 0xFE then r else 0x80)).settle) n)) ∧
    (a.getLsbD 28 = false → exec (.sput who pr 2 ra rb) s = .next (goesOn
      (((drop (((s.noteIssue n).setFrame fid f).setFrame fid ((f.sf sfExc 0).sf sfReason 0))).release
        (agentEnd n) fid).settle) n)))

/-- R74 to R76 in spaces 0b00 and 0b10: loads of data memory or scratch memory and of the frame window.

R74 to R76 in spaces 0b00 and 0b10: stores, and every byte that they leave alone. -/
def Obligations.LocalAccesses : Prop :=
  (∀ (who : Agent) (n : Nat) (pr : BitVec 3) (rd ra : BitVec 5) (size : BitVec 2) (off : BitVec 9) (s : State)
    (k : LoadKind) (c : BitVec 2 → Instr),
    agentNum who = some n → CanIssue s n pr [rd, ra] [] →
    (k = .zero ∧ c = fun space => .ld who pr rd ra space size off) ∨
      (k = .sign ∧ c = fun space => .lds who pr rd ra space size off) ∨
      (k = .be ∧ c = fun space => .ldbe who pr rd ra space size off) →
    let ea := (reg s n ra + off.signExtend 64).toNat
    let m := 2 ^ size.toNat
    (0x10000 < ea + m → Raises (c 0) s n 4 ea) ∧
    (ea + m ≤ 0x10000 → ea % m ≠ 0 → Raises (c 0) s n 3 ea) ∧
    (ea + m ≤ 0x10000 → ea % m = 0 →
      ∃ v, Loaded k m (fun i => localByte s n (ea + i)) v ∧ Computes (c 0) s n rd v) ∧
    ((s.thr n).held = none → Raises (c 2) s n 8 0) ∧
    (∀ fid, (s.thr n).held = some fid → 256 < ea + m → Raises (c 2) s n 4 0) ∧
    (∀ fid, (s.thr n).held = some fid → ea + m ≤ 256 →
      ∃ v, Loaded k m (fun i => frameByte s fid (ea + i)) v ∧ Computes (c 2) s n rd v)) ∧
  (∀ (who : Agent) (n : Nat) (pr : BitVec 3) (rs ra : BitVec 5) (size : BitVec 2) (off : BitVec 9) (s : State)
    (be : Bool) (c : BitVec 2 → Instr),
    agentNum who = some n → CanIssue s n pr [rs, ra] [] →
    (be = false ∧ c = fun space => .st who pr rs ra space size off) ∨
      (be = true ∧ c = fun space => .stbe who pr rs ra space size off) →
    let ea := (reg s n ra + off.signExtend 64).toNat
    let m := 2 ^ size.toNat
    let v := reg s n rs
    let base := if n < 2048 then coreData (n / 8) else 65536 * (n - 2048)
    let after := fun (a : Nat) (b : Byte) => if base + ea ≤ a ∧ a < base + ea + m then stored be m v (a - (base + ea)) else b
    (0x10000 < ea + m → Raises (c 0) s n 4 ea) ∧
    (ea + m ≤ 0x10000 → ea % m ≠ 0 → Raises (c 0) s n 3 ea) ∧
    (ea + m ≤ 0x10000 → ea % m = 0 → Ends (c 0) s fun t =>
      (∀ a, t.ldByte a = if n < 2048 then after a (s.ldByte a) else s.ldByte a) ∧
      (∀ a, Tab.get 0 t.scratch a = if n < 2048 then Tab.get 0 s.scratch a else after a (Tab.get 0 s.scratch a)) ∧
      RegsKept s t n ∧ Advanced s t n ∧ OthersKept s t n ∧
      RestKept { s with mem := t.mem, scratch := t.scratch } t) ∧
    ((s.thr n).held = none → Raises (c 2) s n 8 0) ∧
    (∀ fid, (s.thr n).held = some fid → 256 < ea + m → Raises (c 2) s n 4 0) ∧
    (∀ fid, (s.thr n).held = some fid → ea + m ≤ 256 → Ends (c 2) s fun t =>
      (t.frame fid).data.length = (s.frame fid).data.length ∧
      (∀ j, j < (s.frame fid).data.length → frameByte t fid j =
        if ea ≤ j ∧ j < ea + m then stored be m v (j - ea) else frameByte s fid j) ∧
      (t.frame fid).s = (s.frame fid).s ∧ (∀ g, g ≠ fid → t.frame g = s.frame g) ∧
      RegsKept s t n ∧ Advanced s t n ∧ OthersKept s t n ∧ RestKept { s with frames := t.frames } t))

/-- R77 in space 0b00, and ILLEGAL outside 0b00 and 0b01: memory takes the new value, rd the old one. The seven AMO rows. -/
def Obligations.AmoLocal : Prop :=
  ∀ (op : AmoOp) (who : Agent) (n : Nat) (pr : BitVec 3) (rd ra rb : BitVec 5) (space : BitVec 2) (wide : Bool) (s : State),
    agentNum who = some n → CanIssue s n pr [rd, ra, rb] [] →
    let c := amoRow op who pr rd ra rb space wide
    let ea := (reg s n ra).toNat
    let m := if wide then 8 else 4
    let old := leNat ((List.range m).map fun i => localByte s n (ea + i))
    let new := amoLeaves op m old ((reg s n rd).toNat % 2 ^ (8 * m)) ((reg s n rb).toNat % 2 ^ (8 * m))
    let base := if n < 2048 then coreData (n / 8) else 65536 * (n - 2048)
    let after := fun (a : Nat) (b : Byte) =>
      if base + ea ≤ a ∧ a < base + ea + m then BitVec.ofNat 8 (new / 256 ^ (a - (base + ea))) else b
    (2 ≤ space.toNat → Raises c s n 1 0) ∧
    (space = 0 → 0x10000 < ea + m → Raises c s n 4 ea) ∧
    (space = 0 → ea + m ≤ 0x10000 → ea % m ≠ 0 → Raises c s n 3 ea) ∧
    (space = 0 → ea + m ≤ 0x10000 → ea % m = 0 → Ends c s fun t =>
      Wrote s t n rd (BitVec.ofNat 64 old) ∧
      (∀ a, t.ldByte a = if n < 2048 then after a (s.ldByte a) else s.ldByte a) ∧
      (∀ a, Tab.get 0 t.scratch a = if n < 2048 then Tab.get 0 s.scratch a else after a (Tab.get 0 s.scratch a)) ∧
      Advanced s t n ∧ OthersKept s t n ∧ RestKept { s with mem := t.mem, scratch := t.scratch } t)

/-- R74, R77 and R98 in space 0b01: a load, store or AMO raises, or its response is outstanding. -/
def Obligations.DeviceAccesses : Prop :=
  ∀ (who : Agent) (n : Nat) (pr : BitVec 3) (rd ra rb : BitVec 5) (size : BitVec 2) (off : BitVec 9) (wide : Bool) (op : AmoOp)
    (s : State), agentNum who = some n → CanIssue s n pr [rd, ra, rb] [] →
    let ea := (reg s n ra + off.signExtend 64).toNat
    let m := 2 ^ size.toNat
    let aa := (reg s n ra).toNat
    let w := if wide then 8 else 4
    (∀ x, LoadRoom s n → deviceRaises n ea m false = some x → Raises (.ld who pr rd ra 1 size off) s n x ea ∧
      Raises (.lds who pr rd ra 1 size off) s n x ea ∧ Raises (.ldbe who pr rd ra 1 size off) s n x ea) ∧
    (LoadRoom s n → deviceRaises n ea m false = none →
      Ends (.ld who pr rd ra 1 size off) s (fun t => Outstanding s t n (.load .zero rd m) ea) ∧
      Ends (.lds who pr rd ra 1 size off) s (fun t => Outstanding s t n (.load .sign rd m) ea) ∧
      Ends (.ldbe who pr rd ra 1 size off) s (fun t => Outstanding s t n (.load .be rd m) ea)) ∧
    (∀ x, deviceRaises n ea m true = some x →
      Raises (.st who pr rd ra 1 size off) s n x ea ∧ Raises (.stbe who pr rd ra 1 size off) s n x ea) ∧
    (deviceRaises n ea m true = none →
      Ends (.st who pr rd ra 1 size off) s (fun t =>
        Outstanding s t n (.store ((List.range m).map (stored false m (reg s n rd)))) ea) ∧
      Ends (.stbe who pr rd ra 1 size off) s (fun t =>
        Outstanding s t n (.store ((List.range m).map (stored true m (reg s n rd)))) ea)) ∧
    (∀ x, LoadRoom s n → deviceRaises n aa w true = some x → Raises (amoRow op who pr rd ra rb 1 wide) s n x aa) ∧
    (LoadRoom s n → deviceRaises n aa w true = none →
      Ends (amoRow op who pr rd ra rb 1 wide) s (fun t => Outstanding s t n (.amo op rd w (reg s n rd) (reg s n rb)) aa)) ∧
    (¬LoadRoom s n → exec (.ld who pr rd ra 1 size off) s = .next s ∧ exec (.lds who pr rd ra 1 size off) s = .next s ∧
      exec (.ldbe who pr rd ra 1 size off) s = .next s ∧ exec (amoRow op who pr rd ra rb 1 wide) s = .next s)

/-- R76 to R78: the response to the oldest outstanding operation of a thread outside the table pool performs it: a load
writes rd, a store its bytes, an AMO both. -/
def Obligations.MemoryResponses : Prop :=
  ∀ (who : Agent) (n : Nat) (s : State) (x : MemOp) (rest : List MemOp),
    agentNum who = some n → s.pstate < 2 → (s.thr n).ops = x :: rest →
    (x.addr + 64 ≤ 0x0A000000 ∨ 0x0B000000 ≤ x.addr) →
    (∀ rd, ∀ k, ∀ m, x.act = .load k rd m → 1 ≤ m → m ≤ 8 → Ends (.memoryResponse who (BitVec.ofNat 32 x.id) false) s fun t =>
      (∃ v, Loaded k m (fun i => s.devByte (x.addr + i)) v ∧ Wrote s t n rd v) ∧ (t.thr n).ops = rest ∧
      (t.thr n).pc = (s.thr n).pc ∧ (∀ a, t.ldByte a = s.ldByte a) ∧ (∀ m, m ≠ n → t.thr m = s.thr m) ∧ RestKept s t) ∧
    (∀ bs, x.act = .store bs → Ends (.memoryResponse who (BitVec.ofNat 32 x.id) false) s fun t =>
      (∀ a, t.ldByte a = if x.addr ≤ a ∧ a < x.addr + bs.length then bs.getD (a - x.addr) 0 else s.ldByte a) ∧
      RegsKept s t n ∧ (t.thr n).ops = rest ∧ (t.thr n).pc = (s.thr n).pc ∧ (∀ m, m ≠ n → t.thr m = s.thr m) ∧
      RestKept { s with mem := t.mem } t) ∧
    (∀ op rd m cmp b, x.act = .amo op rd m cmp b → m = 4 ∨ m = 8 →
      let old := leNat ((List.range m).map fun i => s.devByte (x.addr + i))
      let new := amoLeaves op m old (cmp.toNat % 2 ^ (8 * m)) (b.toNat % 2 ^ (8 * m))
      Ends (.memoryResponse who (BitVec.ofNat 32 x.id) false) s fun t =>
        Wrote s t n rd (BitVec.ofNat 64 old) ∧
        (∀ a, t.ldByte a = if x.addr ≤ a ∧ a < x.addr + m then BitVec.ofNat 8 (new / 256 ^ (a - x.addr)) else s.ldByte a) ∧
        (t.thr n).ops = rest ∧ (∀ m, m ≠ n → t.thr m = s.thr m) ∧ RestKept { s with mem := t.mem } t)

/-- R18, R74 and R21 at a thread or steward: LDC and STC to a register of an island that runs and holds no access, outside the secure half: the
access is performed and its response outstanding; and what else they raise. -/
def Obligations.ControlAccesses : Prop :=
  ∀ (who : Agent) (n : Nat) (pr : BitVec 3) (rd ra : BitVec 5) (size : BitVec 2) (off : BitVec 9) (s : State),
    agentNum who = some n → CanIssue s n pr [rd, ra] [] → (∀ x ∈ (s.thr n).ops, x.act.inSet 4 = false) →
    let ea := (reg s n ra + off.signExtend 64).toNat
    let m := 2 ^ size.toNat
    let i := ea / 0x1000000
    let u := (s.noteIssue n).bumpOp
    (m < 4 → Raises (.ldc who pr rd ra size off) s n 1 0 ∧ Raises (.stc who pr rd ra size off) s n 1 0) ∧
    (4 ≤ m → ((n < 2048 ∧ (s.entryOf n).ctl = false) ∨ 2 ^ 32 ≤ ea) →
      Raises (.ldc who pr rd ra size off) s n 5 ea ∧ Raises (.stc who pr rd ra size off) s n 5 ea) ∧
    (4 ≤ m → (n < 2048 → (s.entryOf n).ctl = true) → ea < 2 ^ 32 → i ≤ 0x68 → ea % m = 0 → ea % 0x1000000 < 0x800000 →
      (u.island i).power ≠ .off → u.holds i = false →
      let r := u.ctlRead (agentInit n) ea m
      exec (.ldc who pr rd ra size off) s =
        .next (goesOn (r.1.settle.startOp n s.nextOp (.ctl (some rd) .zero m (some r.2)) ea) n) ∧
      exec (.stc who pr rd ra size off) s =
        .next (goesOn ((u.ctlWrite (agentInit n) ea m ((reg s n rd).toNat % 2 ^ (8 * m))).settle.startOp n s.nextOp
          (.ctl none .zero m (some 0)) ea) n))

/-- R79: a FENCE with an empty set, or before which every operation of its predecessor set has been performed, goes on;
otherwise the thread does not issue it. -/
def Obligations.FenceWaits : Prop :=
  ∀ (who : Agent) (n : Nat) (pr : BitVec 3) (pre succ : BitVec 4) (s : State),
    agentNum who = some n → CanIssue s n pr [] [] →
    let waits := pre ≠ 0 ∧ succ ≠ 0 ∧
      ((∃ x ∈ (s.thr n).ops, x.act.inSet pre = true) ∨ (pre.getLsbD 3 = true ∧ ∃ m ∈ s.signals, m.src = n))
    (¬waits → Ends (.fence who pr pre succ) s fun t =>
      RegsKept s t n ∧ Advanced s t n ∧ OthersKept s t n ∧ RestKept s t) ∧
    (waits → exec (.fence who pr pre succ) s = .next s)

/-! ### AFV-2: control, lookups, events, messages, work and system -/

/-- R81: B, CALL and JR go to their target, CALL and JR with a link, or raise MEM_ACCESS where the target lies outside the
thread's instruction memory of 8,192 words, or 2^20 for a steward. -/
def Obligations.ControlTransfers : Prop :=
  ∀ (who : Agent) (n : Nat) (pr : BitVec 3) (off : BitVec 20) (rd ra : BitVec 5) (s : State),
    agentNum who = some n → CanIssue s n pr [31, rd, ra] [] →
    let limit : Int := if n < 2048 then 8192 else 1048576
    let near : Int := (s.thr n).pc + off.toInt
    let far : Int := (reg s n ra).toNat
    (0 ≤ near ∧ near < limit → Jumps (.branch who pr off) s n 0 near.toNat ∧ Jumps (.call who pr off) s n 31 near.toNat) ∧
    (¬(0 ≤ near ∧ near < limit) → Raises (.branch who pr off) s n 4 0 ∧ Raises (.call who pr off) s n 4 0) ∧
    (far < limit → Jumps (.jr who pr rd ra) s n rd far.toNat) ∧
    (¬far < limit → Raises (.jr who pr rd ra) s n 4 0)

/-- R82 and R83 at a thread or steward: a LOOK whose registers end at g31 or below is outstanding with its key of 8 to 32
bytes; another raises ILLEGAL, and so does RCMP. -/
def Obligations.ThreadLookups : Prop :=
  ∀ (who : Agent) (n : Nat) (pr : BitVec 3) (rd ra : BitVec 5) (table : BitVec 4) (klen rcnt : BitVec 2) (pd : BitVec 3)
    (s : State), agentNum who = some n → CanIssue s n pr ((List.range 32).map (BitVec.ofNat 5)) [pd] →
    (ra.toNat + klen.toNat ≤ 31 ∧ rd.toNat + rcnt.toNat ≤ 31 → Ends (.look who pr rd ra table klen rcnt pd) s fun t =>
      Outstanding s t n (.look table.toNat
        ((List.range (klen.toNat + 1)).flatMap fun i => leBytes 8 (reg s n (ra + BitVec.ofNat 5 i)).toNat)
        (rcnt.toNat + 1) rd pd) 0) ∧
    (¬(ra.toNat + klen.toNat ≤ 31 ∧ rd.toNat + rcnt.toNat ≤ 31) → Raises (.look who pr rd ra table klen rcnt pd) s n 1 0) ∧
    Raises (.rcmp who pr rd ra table) s n 1 0

/-- R87: SIGE sends a bit of 0 to 15 to a thread or steward, or raises BAD_TARGET; SETT arms the timer at ICT plus ra;
CLRT disarms it and clears bit 16; EVRD reads the event bits. TIMER_FIRE sets bit 16 once ICT has reached the timer, and
an instruction that finds it so has bit 16 set.

R87: WAITE with a masked bit set, or with an empty mask, completes at once: rd takes the masked bits, they are clear
but for those whose source still holds (R86), and every other bit is kept. Otherwise the thread waits at the
WAITE, which R116 counts at a worker where the mask holds no bound bit and no pending timer. WAITE_WAKE completes it once
a masked bit is set, but not in a halted cluster (R109).

R88: the oldest SIGE from one thread to another sets its bit; at a parked thread it is discarded. -/
def Obligations.EventInstructions : Prop :=
  (∀ (who : Agent) (n : Nat) (pr : BitVec 3) (rd ra rb : BitVec 5) (s : State), agentNum who = some n →
    (CanIssue s n pr [rd, ra, rb] [] →
      let dst := (reg s n ra).toNat
      let b := (reg s n rb).toNat
      let fired := if s.timerDue n then (s.thr n).ev ||| 0x10000 else (s.thr n).ev
      (0x803 < dst ∨ 15 < b → Raises (.sige who pr ra rb) s n 9 0) ∧
      (dst ≤ 0x803 → b ≤ 15 → Ends (.sige who pr ra rb) s fun t =>
        t.signals = s.signals ++ [⟨n, dst, b⟩] ∧ RegsKept s t n ∧ Advanced s t n ∧ OthersKept s t n ∧
        RestKept { s with signals := t.signals } t) ∧
      (Ends (.sett who pr ra) s fun t =>
        t.thr n = { s.thr n with timer := some (s.ictNs + (reg s n ra).toNat), ev := fired, pc := (s.thr n).pc + 1, issued := (s.thr n).issued + 1 } ∧
        OthersKept s t n ∧ RestKept s t) ∧
      (Ends (.clrt who pr) s fun t =>
        t.thr n = { s.thr n with timer := none, ev := (s.thr n).ev &&& 0xFFFFFFFFFFFEFFFF, pc := (s.thr n).pc + 1, issued := (s.thr n).issued + 1 } ∧
        OthersKept s t n ∧ RestKept s t) ∧
      (Ends (.evrd who pr rd) s fun t => Wrote s t n rd (s.events n) ∧
        t.thr n = { s.thr n with r := (t.thr n).r, ev := s.events n, timer := timerLeft s n, pc := (s.thr n).pc + 1, issued := (s.thr n).issued + 1 } ∧
        OthersKept s t n ∧ RestKept s t)) ∧
    (∀ d, s.stopped = false → (s.thr n).timer = some d → d ≤ s.ictNs → Ends (.timerFire who) s fun t =>
      t.thr n = { s.thr n with timer := none, ev := (s.thr n).ev ||| 0x10000 } ∧
      (∀ m, m ≠ n → t.thr m = s.thr m) ∧ (∀ a, t.rd a = s.rd a) ∧ RestKept s t) ∧
    (s.timerDue n = false → exec (.timerFire who) s = .next s)) ∧
  (∀ (who : Agent) (n : Nat) (pr : BitVec 3) (rd ra : BitVec 5) (s : State), agentNum who = some n →
    let mask := reg s n ra
    let got := s.events n &&& mask
    let taken := fun (t : State) (m : W64) => ∀ i, i < 64 →
      (t.thr n).ev.getLsbD i = (((s.events n).getLsbD i && !m.getLsbD i) || sourceHolds s n i)
    let silent := n < 2048 ∧ (∀ b ∈ s.bindsOf n, mask.getLsbD b.bit = false) ∧
      ¬(mask.getLsbD 16 = true ∧ ∃ d, (s.thr n).timer = some d ∧ s.ictNs < d)
    (CanIssue s n pr [rd, ra] [] → (mask = 0 ∨ got ≠ 0) → Ends (.waite who pr rd ra) s fun t =>
      Wrote s t n rd got ∧ taken t mask ∧
      t.thr n = { s.thr n with r := (t.thr n).r, ev := (t.thr n).ev, timer := timerLeft s n, pc := (s.thr n).pc + 1, issued := (s.thr n).issued + 1 } ∧
      OthersKept s t n ∧ RestKept s t) ∧
    (CanIssue s n pr [rd, ra] [] → mask ≠ 0 → got = 0 → Ends (.waite who pr rd ra) s fun t =>
      t.thr n = { s.thr n with run := .waiting mask rd, ev := s.events n, timer := timerLeft s n, issued := (s.thr n).issued + 1 } ∧
      (silent → t.rd (Reg.waitUndisc (n / 128)) = s.rd (Reg.waitUndisc (n / 128)) + 1 ∧
        t.rd (Reg.waitUndiscLast (n / 128)) = BitVec.ofNat 32 (n % 128 + 2 ^ 7 + (s.thr n).pc % 2 ^ 13 * 2 ^ 8)) ∧
      (∀ a, t.rd a = s.rd a ∨ (n < 2048 ∧ a = Reg.staleStatus (n / 128)) ∨
        (silent ∧ (a = Reg.waitUndisc (n / 128) ∨ a = Reg.waitUndiscLast (n / 128)))) ∧
      (∀ m, m ≠ n → t.thr m = s.thr m) ∧ (∀ k, { t.stw k with t := {} } = { s.stw k with t := {} }) ∧ RestKept s t) ∧
    (∀ m r, s.stopped = false → (s.thr n).run = .waiting m r → s.events n &&& m ≠ 0 →
      (n < 2048 → (s.cluster (n / 128)).halted = false) → Ends (.waiteWake who) s fun t =>
      Wrote s t n r (s.events n &&& m) ∧ taken t m ∧
      t.thr n = { s.thr n with r := (t.thr n).r, ev := (t.thr n).ev, timer := timerLeft s n, pc := (s.thr n).pc + 1, run := .ready } ∧
      (∀ k, k ≠ n → t.thr k = s.thr k) ∧ (∀ k, { t.stw k with t := {} } = { s.stw k with t := {} }) ∧
      RestKept { s with regs := t.regs } t ∧ t.regs = s.regs) ∧
    (∀ m r, (s.thr n).run = .waiting m r → s.events n &&& m = 0 ∨ (n < 2048 ∧ (s.cluster (n / 128)).halted = true) →
      exec (.waiteWake who) s = .next s)) ∧
  (∀ (src dst : Fin 2052) (s : State), s.stopped = false →
    (∀ m, s.signals.find? (fun x => x.src = src.val && x.dst = dst.val) = some m →
      Ends (.sigeDeliver src dst) s fun t =>
        t.signals = s.signals.erase m ∧
        t.thr dst.val = (if dst.val < 2048 ∧ (s.entryOf dst.val).parked = true then s.thr dst.val
          else { s.thr dst.val with ev := (s.thr dst.val).ev ||| BitVec.ofNat 64 (2 ^ m.bit) }) ∧
        (∀ k, k ≠ dst.val → t.thr k = s.thr k) ∧ (∀ a, t.rd a = s.rd a) ∧ RestKept { s with signals := t.signals } t) ∧
    ((∀ x ∈ s.signals, ¬(x.src = src.val ∧ x.dst = dst.val)) → exec (.sigeDeliver src dst) s = .next s))

/-- R89: POST and POST.END append a word, the latter closing the message, or raise MAILBOX_FULL; TAKE removes the next word
that the thread sees. A channel that the thread may not use raises CTL_ACCESS.

R90: GETW takes the oldest satchel of a group bound to the thread; DISP leaves the satchel to stepping, to discard or
to a group; NEWS makes one of bytes of device space. What each raises stands beside it. -/
def Obligations.MailInstructions : Prop :=
  (∀ (who : Agent) (n : Nat) (pr : BitVec 3) (rd ra rb : BitVec 5) (pd pe : BitVec 3) (s : State),
    agentNum who = some n → CanIssue s n pr [rd, ra, rb] [pd, pe] →
    let ch := (reg s n ra).toNat
    let w := (reg s n rb).toNat % 2 ^ 32
    (s.mbEnd n ch = none → Raises (.post who pr ra rb) s n 5 0 ∧ Raises (.postEnd who pr ra rb) s n 5 0 ∧
      Raises (.take who pr rd ra pd pe) s n 5 0) ∧
    (∀ a, s.mbEnd n ch = some a →
      let b := s.mbox ch
      let q := if a then b.ab else b.ba
      let op := if a then b.openA else b.openB
      let inb := if a then b.ba else b.ab
      (16 ≤ q.length ∨ 16 ≤ op → Raises (.post who pr ra rb) s n 6 0 ∧ Raises (.postEnd who pr ra rb) s n 6 0) ∧
      (q.length < 16 → op < 16 →
        (∀ fin, Ends (if fin then .postEnd who pr ra rb else .post who pr ra rb) s fun t =>
          (if a then (t.mbox ch).ab else (t.mbox ch).ba) = q ++ [⟨w, fin, false⟩] ∧
          (if a then (t.mbox ch).openA else (t.mbox ch).openB) = (if fin then 0 else op + 1) ∧
          (if a then (t.mbox ch).ba = b.ba else (t.mbox ch).ab = b.ab) ∧ (∀ d, d ≠ ch → t.mbox d = s.mbox d) ∧
          RegsKept s t n ∧ Advanced s t n ∧ OthersKept s t n ∧ RestKept { s with mboxes := t.mboxes } t)) ∧
      ((inb = [] ∨ ∃ x r, inb = x :: r ∧ x.seen = false) →
        Decides (.take who pr rd ra pd pe) s n (fun p => if p = pd ∨ p = pe then false else pred s n p)) ∧
      (∀ x y r, inb = x :: y :: r → x.seen = true → ¬(16 ≤ ch ∧ ch < 32) → Ends (.take who pr rd ra pd pe) s fun t =>
        (if a then (t.mbox ch).ba else (t.mbox ch).ab) = y :: r ∧ (∀ d, d ≠ ch → t.mbox d = s.mbox d) ∧
        (∀ g, reg t n g = if g = 0 then 0 else if g = rd then BitVec.ofNat 64 x.word else reg s n g) ∧
        (∀ p, pred t n p = if p = 0 then true else if p = pe then x.fin else if p = pd then true else pred s n p) ∧
        Advanced s t n ∧ OthersKept s t n ∧ RestKept { s with mboxes := t.mboxes } t))) ∧
  (∀ (who : Agent) (n : Nat) (pr : BitVec 3) (rd ra rb : BitVec 5) (pd : BitVec 3) (s : State),
    agentNum who = some n → CanIssue s n pr [rd, ra, rb] [pd] →
    let g := (reg s n ra).toNat
    let len := (reg s n rb).toNat
    let bound := (s.bindsOf n).any fun b => b.type = 1 && b.index = g
    let drop := (s.noteIssue n).modThr n fun t => { t with held := none }
    ((s.thr n).held ≠ none → Raises (.getw who pr rd ra pd) s n 8 0 ∧
      (len ≠ 0 → len ≤ 65535 → Raises (.news who pr rd ra rb) s n 8 0)) ∧
    ((s.thr n).held = none → bound = false → Raises (.getw who pr rd ra pd) s n 9 0) ∧
    ((s.thr n).held = none → bound = true → s.groupQ g = [] →
      Decides (.getw who pr rd ra pd) s n (fun p => if p = pd then false else pred s n p)) ∧
    (∀ fid rest, (s.thr n).held = none → bound = true → s.groupQ g = fid :: rest → Ends (.getw who pr rd ra pd) s fun t =>
      t.groupQ g = rest ∧ (t.thr n).held = some fid ∧ (∀ k, k ≠ g → t.groupQ k = s.groupQ k) ∧
      (∀ r, reg t n r = if r = 0 then 0 else if r = rd then Config.frameHandle fid else reg s n r) ∧
      (∀ p, pred t n p = if p = 0 ∨ p = pd then true else pred s n p) ∧ (t.thr n).pc = (s.thr n).pc + 1 ∧
      OthersKept s t n ∧ RestKept { s with groups := t.groups } t) ∧
    ((s.thr n).held = none → Raises (.dispCont who pr) s n 8 0 ∧ Raises (.dispDrop who pr) s n 8 0 ∧
      Raises (.dispGroup who pr ra) s n 8 0) ∧
    (∀ fid, (s.thr n).held = some fid →
      exec (.dispCont who pr) s = .next (goesOn (drop.dispContinue (agentEnd n) fid).settle n) ∧
      exec (.dispDrop who pr) s = .next (goesOn (drop.discard fid).settle n) ∧
      (255 < g → Raises (.dispGroup who pr ra) s n 9 0) ∧
      (g ≤ 255 → exec (.dispGroup who pr ra) s = .next (goesOn ((drop.leaveWindow fid).toGroup g fid).settle n))) ∧
    (len = 0 ∨ 65535 < len → Raises (.news who pr rd ra rb) s n 1 0) ∧
    ((s.thr n).held = none → 1 ≤ len → len ≤ 65535 →
      (∀ x, firstReserved g len = some x → Raises (.news who pr rd ra rb) s n 4 x) ∧
      (firstReserved g len = none → Ends (.news who pr rd ra rb) s fun t =>
        (t.thr n).held = some s.nextFrame ∧ (t.frame s.nextFrame).data = s.ldBytes g len ∧
        (t.frame s.nextFrame).gf sfLen = len ∧ (t.frame s.nextFrame).gf sfSrc = (if n < 2048 then 0x110 + n / 128 else 0x120) ∧
        (t.frame s.nextFrame).gf sfInstance = 0 ∧ (t.frame s.nextFrame).gf sfExc = 0 ∧
        (∀ k, k ≠ s.nextFrame → t.frame k = s.frame k) ∧ t.nextFrame = s.nextFrame + 1 ∧
        Wrote s t n rd (Config.frameHandle s.nextFrame) ∧ (t.thr n).pc = (s.thr n).pc + 1 ∧ OthersKept s t n ∧
        t.mem = s.mem)))

/-- R91 and R94: ERET, CLCTL, TRESTART and WAIT.PWR are privileged; at a steward ERET continues at EPC with IN_EXC clear;
CLCTL halts, releases or restarts a cluster; TRESTART restarts a thread; WAIT.PWR waits for its request.

R91: SYSR and SYSW of the system registers, at a worker thread and at a steward. -/
def Obligations.PrivilegedInstructions : Prop :=
  (∀ (who : Agent) (n : Nat) (pr : BitVec 3) (rd ra rb : BitVec 5) (s : State),
    agentNum who = some n → CanIssue s n pr [rd, ra, rb] [] →
    let x := (reg s n ra).toNat
    let op := (reg s n rb).toNat
    let k := n - 2048
    (n < 2048 → Raises (.eret who pr) s n 2 0 ∧ Raises (.waitPwr who pr rd) s n 2 0 ∧
      (x ≤ 15 → op ≤ 2 → Raises (.halt who pr ra rb) s n 2 0 ∧ Raises (.release who pr ra rb) s n 2 0 ∧
        Raises (.restart who pr ra rb) s n 2 0) ∧
      (x ≤ 0x7FF → Raises (.trestart who pr ra) s n 2 0)) ∧
    (15 < x ∨ 2 < op → Raises (.halt who pr ra rb) s n 1 0 ∧ Raises (.release who pr ra rb) s n 1 0 ∧
      Raises (.restart who pr ra rb) s n 1 0) ∧
    (0x7FF < x → Raises (.trestart who pr ra) s n 1 0) ∧
    (2048 ≤ n →
      (Ends (.eret who pr) s fun t => (t.thr n).pc = (s.stw k).epc.toNat ∧ (t.stw k).estatus = 0 ∧
        RegsKept s t n ∧ (t.stw k).epc = (s.stw k).epc ∧ (∀ m, m ≠ n → t.thr m = s.thr m) ∧ RestKept s t) ∧
      (x ≤ 15 →
        (op = 0 → exec (.halt who pr ra rb) s = .next (goesOn ((s.noteIssue n).clctl x 0).settle n)) ∧
        (op = 1 → exec (.release who pr ra rb) s = .next (goesOn ((s.noteIssue n).clctl x 1).settle n)) ∧
        (op = 2 → exec (.restart who pr ra rb) s = .next (goesOn ((s.noteIssue n).clctl x 2).settle n))) ∧
      (x ≤ 0x7FF → exec (.trestart who pr ra) s = .next (goesOn ((s.noteIssue n).restartThread x).settle n)) ∧
      exec (.waitPwr who pr rd) s = .next ((((s.noteIssue n).modThr n fun t =>
        { t with run := .waitPwr rd, pc := t.pc + 1 }).powerRequest k).settle))) ∧
  (∀ (who : Agent) (n : Nat) (pr : BitVec 3) (rd ra rb : BitVec 5) (s : State),
    agentNum who = some n → CanIssue s n pr [rd, ra, rb] [] →
    let i := (reg s n ra).toNat
    let v := reg s n rb
    let k := n - 2048
    (i = 0 → Computes (.sysr who pr rd ra) s n rd (BitVec.ofNat 64 n)) ∧
    (i = 1 → Computes (.sysr who pr rd ra) s n rd (BitVec.ofNat 64 s.ictNs)) ∧
    (i = 2 → Computes (.sysr who pr rd ra) s n rd ((s.thr n).issued + 1)) ∧
    (3 ≤ i → i < 0x10 → Computes (.sysr who pr rd ra) s n rd 0) ∧
    (n < 2048 → 0x10 ≤ i → Raises (.sysr who pr rd ra) s n 2 0) ∧
    (n < 2048 → Raises (.sysw who pr ra rb) s n 2 0 ∧ Raises (.icacheInv who pr ra rb) s n 2 0) ∧
    (2048 ≤ n →
      (i = 0x10 → Computes (.sysr who pr rd ra) s n rd (s.stw k).evec) ∧
      (i = 0x11 → Computes (.sysr who pr rd ra) s n rd (s.stw k).epc) ∧
      (i = 0x12 → Computes (.sysr who pr rd ra) s n rd (s.stw k).ecause) ∧
      (i = 0x13 → Computes (.sysr who pr rd ra) s n rd (s.stw k).eaddr) ∧
      (i = 0x14 → Computes (.sysr who pr rd ra) s n rd (s.stw k).estatus) ∧
      (i = 0x15 → Computes (.sysr who pr rd ra) s n rd (s.stw k).escratch) ∧
      (i = 0x20 → Computes (.sysr who pr rd ra) s n rd 0) ∧
      (0x51 ≤ i → i ≤ 0x7F → Computes (.sysr who pr rd ra) s n rd ((Tab.get 0 (s.stw k).evbind (i - 0x40)).setWidth 64)) ∧
      (0x10 ≤ i → ¬(i ≤ 0x15 ∨ i = 0x20 ∨ (0x51 ≤ i ∧ i ≤ 0x7F)) →
        Raises (.sysr who pr rd ra) s n 1 0 ∧ Raises (.sysw who pr ra rb) s n 1 0) ∧
      (let wrote := fun (c : Instr) (f : Steward → Steward) => Ends c s fun t =>
          { t.stw k with t := {} } = { f (s.stw k) with t := {} } ∧ RegsKept s t n ∧ Advanced s t n ∧
          (∀ m, m ≠ n → t.thr m = s.thr m) ∧ (∀ j, j ≠ k → t.stw j = s.stw j) ∧ RestKept s t
       (i < 0x10 ∨ i = 0x12 ∨ i = 0x13 → wrote (.sysw who pr ra rb) fun x => x) ∧
       (i = 0x10 → wrote (.sysw who pr ra rb) fun x => { x with evec := v }) ∧
       (i = 0x11 → wrote (.sysw who pr ra rb) fun x => { x with epc := v }) ∧
       (i = 0x14 → wrote (.sysw who pr ra rb) fun x => { x with estatus := v &&& 1 }) ∧
       (i = 0x15 → wrote (.sysw who pr ra rb) fun x => { x with escratch := v }) ∧
       (i = 0x20 → wrote (.icacheInv who pr ra rb) fun x => { x with icache := [] }) ∧
       (0x51 ≤ i → i ≤ 0x7F → wrote (.sysw who pr ra rb) fun x =>
          if bindOk (fld v.toNat 6 4) (fld v.toNat 10 16) then
            { x with evbind := Tab.set 0 x.evbind (i - 0x40) (BitVec.ofNat 32 (v.toNat % 2 ^ 26)) } else x))))

/-- R94 with R60: HALT halts a cluster and RELEASE lets it issue; a restart gives a thread that is not parked the state of
R60: g1, g2 and PC of its entry, every other register zero, no events, no timer, no satchel. -/
def Obligations.ClusterOperations : Prop :=
  (∀ (s : State) (k : Nat), ((s.clctl k 0).cluster k).halted = true ∧ ((s.clctl k 1).cluster k).halted = false ∧
    (∀ j, j ≠ k → (s.clctl k 0).cluster j = s.cluster j ∧ (s.clctl k 1).cluster j = s.cluster j) ∧
    (∀ m, (s.clctl k 0).thr m = s.thr m ∧ (s.clctl k 1).thr m = s.thr m)) ∧
  (∀ (s : State) (x : Nat), (s.entryOf x).parked = false → (s.thr x).held = none →
    let t := s.restartThread x
    let e := s.entryOf x
    (∀ r, reg t x r = if r = 1 then e.g1 else if r = 2 then e.g2 else 0) ∧ (∀ p, pred t x p = decide (p = 0)) ∧
    (t.thr x).pc = e.entry ∧ (t.thr x).ev = 0 ∧ (t.thr x).timer = none ∧ (t.thr x).held = none ∧ (t.thr x).run = .ready ∧
    (t.thr x).ops = [] ∧ (∀ m, m ≠ x → t.thr m = s.thr m) ∧ RestKept s t ∧ (∀ a, t.rd a = s.rd a))

/-- R91: TRAP raises its exception, with the five-bit code in the place of the address.

R96: a worker thread that takes an exception is faulted at its PC and keeps its registers and satchel; its cluster
queues the fault, or sets LOST where 128 are queued; a THREAD_FAULT record goes to the Trailbook while the bucket holds a
record; other threads' registers and memory are as they were.

R97: a steward that takes an exception writes EPC, ECAUSE and EADDR, sets IN_EXC and continues at EVEC; with IN_EXC
set it halts, with a FATAL STEWARD_HALT record. -/
def Obligations.ExceptionsTaken : Prop :=
  (∀ (who : Agent) (n : Nat) (pr : BitVec 3) (code : BitVec 5) (s : State),
    agentNum who = some n → CanIssue s n pr [] [] → Raises (.trap who pr code) s n 10 code.toNat) ∧
  (∀ (s : State) (n code pc addr : Nat), n < 2048 →
    let t := s.takeException n code pc addr
    let k := n / 128
    (t.thr n).run = .faulted ∧ (t.thr n).pc = pc ∧ (t.thr n).r = (s.thr n).r ∧ (t.thr n).held = (s.thr n).held ∧
    (t.cluster k).faults = (if (s.cluster k).faults.length < 128 then
      (s.cluster k).faults ++ [⟨n % 128, code, pc, addr % 2 ^ 48⟩] else (s.cluster k).faults) ∧
    (128 ≤ (s.cluster k).faults.length → t.rf (Reg.threadFault k) threadFault_LOST = 1) ∧
    (recToken ≤ s.tb.tokens → s.tb.queue.length < 240 → ∃ d : List Byte, d.length = 40 ∧
      t.tb.queue = s.tb.queue ++ [⟨s.clock.tod, 0x0050, 0x42 + k, 0, d⟩]) ∧
    (∀ m, m ≠ n → (t.thr m).r = (s.thr m).r ∧ (t.thr m).pc = (s.thr m).pc ∧ (t.thr m).run = (s.thr m).run) ∧ t.mem = s.mem) ∧
  (∀ (s : State) (k code pc addr : Nat),
    let t := s.takeException (2048 + k) code pc addr
    let x := s.stw k
    (x.estatus.getLsbD 0 = false →
      (t.stw k).epc = BitVec.ofNat 64 pc ∧ (t.stw k).ecause = BitVec.ofNat 64 code ∧ (t.stw k).eaddr = BitVec.ofNat 64 addr ∧
      (t.stw k).estatus = 1 ∧ (t.thr (2048 + k)).pc = x.evec.toNat ∧ (t.thr (2048 + k)).r = x.t.r ∧
      (t.stw k).evec = x.evec ∧ (t.stw k).escratch = x.escratch ∧ (∀ m, m ≠ 2048 + k → t.thr m = s.thr m) ∧
      { t with stewards := s.stewards } = s) ∧
    (x.estatus.getLsbD 0 = true → (t.thr (2048 + k)).run = .faulted ∧ (t.thr (2048 + k)).pc = pc ∧
      (t.stw k).epc = BitVec.ofNat 64 pc ∧ (t.stw k).ecause = BitVec.ofNat 64 code ∧ (t.stw k).eaddr = BitVec.ofNat 64 addr ∧
      ∃ d : List Byte, d.length = 40 ∧ t.tb.queue = s.tb.queue ++ [⟨s.clock.tod, 0x0051, 0x52, 1, d⟩]))

/-- R64: an instruction whose predicate reads 0 does nothing but take its issue: the PC and the issue count advance. Every
instruction row is meant.

R121 and R91: an instruction that a worker issues clears the stalemate: CLEARED reads 1 after it.

R111 and R64: one cycle of a worker core. An odd cycle of the 16-cycle frame belongs to one thread if it is ready;
other cycles go to thread 0 if it has high priority and is ready, else to the next ready thread in rotation. The chosen
thread issues the instruction that its word decodes to; an uncorrectable error on the fetch or on a local load ends it in the
ECC exception (R95). -/
def Obligations.IssueRules : Prop :=
  (∀ (c : Instr) (who : Agent) (n : Nat) (pr : BitVec 3) (a : Afv) (s : State),
    rowOf c = some (who, pr, a) → agentNum who = some n → s.threadReady n = true → (s.thr n).pc < pcLimit n →
    (∀ x ∈ (s.thr n).ops, ∀ p ∈ x.act.preds, p = 0 ∨ p ≠ pr) → pred s n pr = false →
    Ends c s fun t => RegsKept s t n ∧ Advanced s t n ∧ OthersKept s t n ∧ RestKept s t) ∧
  (∀ (n : Nat) (s : State), n < 2048 → (s.noteIssue n).rf (Reg.staleStatus (n / 128)) staleStatus_CLEARED = 1 ∧
    ((s.noteIssue n).thr n).issued = (s.thr n).issued + 1) ∧
  ((∀ (core : Fin 260) (ecc : EccHit) (s : State), core.val < 256 →
    let k := core.val
    let x := s.core k
    let ready := fun t => s.ready (8 * k + t) = true
    let cyc := fun (grant : Option Nat) (rr : Nat) => s.setCore k { n := (x.n + 1) % 16, rr := rr, grant := grant }
    let own := x.n % 2 = 1 ∧ ready (x.n / 2)
    let high := (s.entryOf (8 * k)).hipri = true ∧ ready 0
    (own → exec (.issueCycle core ecc) s = .next ((cyc (some (x.n / 2)) x.rr).issueNext (8 * k + x.n / 2) ecc)) ∧
    (¬own → high → exec (.issueCycle core ecc) s = .next ((cyc (some 0) x.rr).issueNext (8 * k) ecc)) ∧
    (∀ j, ¬own → ¬high → j < 8 → (∀ i, i < j → ¬ready ((x.rr + 1 + i) % 8)) → ready ((x.rr + 1 + j) % 8) →
      let t := (x.rr + 1 + j) % 8
      exec (.issueCycle core ecc) s = .next ((cyc (some t) t).issueNext (8 * k + t) ecc)) ∧
    ((∀ t, t < 8 → ¬ready t) → x.n < 16 → exec (.issueCycle core ecc) s = .next (cyc none x.rr))) ∧
  (∀ (core : Fin 260) (ecc : EccHit) (s : State), 256 ≤ core.val →
    let n := 2048 + (core.val - 256)
    (s.ready n = true → exec (.issueCycle core ecc) s = .next (s.issueNext n ecc)) ∧
    (s.ready n = false → exec (.issueCycle core ecc) s = .next s)) ∧
  (∀ (c : Instr) (who : Agent) (n : Nat) (s : State) (a : Afv), n < 2048 → (s.thr n).pc < 8192 → s.ready n = true →
    afvDecode (s.fetchWord n) = some a → agentNum who = some n → rowOf c = some (who, afvPred (s.fetchWord n), a) →
    exec c s = .next (s.issueNext n .none)) ∧
  (∀ (n : Nat) (s : State), (s.thr n).pc < pcLimit n →
    let ecc := fun (u : State) (addr : Nat) => u.eccError.takeException n 7 (s.thr n).pc addr
    s.issueNext n .fetch = ecc (s.noteIssue n) (if n < 2048 then coreBase (n / 8) + 4 * (s.thr n).pc else s.boot.codeBase + 4 * (s.thr n).pc) ∧
    (∀ k rd ra size off, n < 2048 → afvDecode (s.fetchWord n) = some (.load k rd ra 0 size off) →
      pred s n (afvPred (s.fetchWord n)) = true →
      let ea := (reg s n ra + off.signExtend 64).toNat
      ea + 2 ^ size.toNat ≤ 0x10000 → ea % 2 ^ size.toNat = 0 → s.issueNext n .load = ecc (s.noteIssue n) ea)))

/-- R62 to R91: every instruction whose operands have an encoding is what the decoder reads from its word, and its
predicate selector with it. -/
def Obligations.DecodeOfEncode : Prop :=
  ∀ (a : Afv) (pr : BitVec 3), a.wf = true → afvDecode (afvEncode a pr) = some a ∧ afvPred (afvEncode a pr) = pr

/-- R63: a word that decodes has every bit that its instruction does not use zero: it is the word of its instruction and
predicate (that every unused field counts as reserved is the model's reading, log entry 119). -/
def Obligations.EncodeOfDecode : Prop :=
  ∀ (w : W32) (a : Afv), afvDecode w = some a → a.wf = true ∧ afvEncode a (afvPred w) = w

/-! ### AFV-2: cipher jobs, the stage profile and the issue frame -/

/-- R85, R235 and R249: CIPH raises BAD_TARGET above queue 1,023, writes 0 and counts CQ_REFUSED where the queue is not in
use, 256 jobs of its island wait for admission or its ring has no place left, and else accepts the job and writes 1. -/
def Obligations.CiphJobs : Prop :=
  ∀ (who : Agent) (n : Nat) (pr : BitVec 3) (rd ra rb : BitVec 5) (s : State) (x : Instr × Nat),
    agentNum who = some n → CanIssue s n pr [rd, ra, rb] [] → x ∈ ciphRows who pr rd ra rb →
    let q := (reg s n rb).toNat
    let isl := q / 128
    let cfg := ctlAddr (0x53 + isl) (0x1000 + 16 * (q % 128))
    let waiting := (s.ciphJobs.filter fun j => j.isl = isl && j.eng.isNone).length
    let used := ((s.rd (cfg + 8)).toNat + 2 ^ 32 - (s.rd (cfg + 12)).toNat) % 2 ^ 32 + (s.ciphJobs.filter fun j => j.cq = q).length
    let refused := s.rf cfg cqCfg_EN = 0 ∨ 256 ≤ waiting ∨ 2 ^ s.rf cfg cqCfg_LOG2_ENTRIES ≤ used
    (1023 < q → Raises x.1 s n 9 0) ∧
    (q ≤ 1023 → refused → Ends x.1 s fun t =>
      Wrote s t n rd 0 ∧ Advanced s t n ∧ (∀ m, m ≠ n → t.thr m = s.thr m) ∧ RestKept s t ∧
      t.rdN (Reg.ciphCnt isl 13) 2 = (s.rdN (Reg.ciphCnt isl 13) 2 + 1) % 2 ^ 40) ∧
    (q ≤ 1023 → ¬refused → Ends x.1 s fun t =>
      Wrote s t n rd 1 ∧ Advanced s t n ∧ OthersKept s t n ∧
      RestKept { s with ciphJobs := t.ciphJobs, nextOp := t.nextOp, insts := t.insts } t ∧
      ∃ j : CiphJob, t.ciphJobs = s.ciphJobs ++ [j] ∧ j.isl = isl ∧ j.op = x.2 ∧ j.cq = q ∧ j.desc = (reg s n ra).toNat ∧
        j.worker = decide (n < 2048) ∧ j.eng = none ∧ j.running = false ∧ j.latch = none ∧ j.done = 0)

/-- R64 to R66, R98 to R102 and R163 for every instruction row at a pipeline lane, as one cycle of the lane in which its
oldest pass runs the instruction and goes on to its next slot: an empty slot after an exception, before the slot that a
branch leads to or under a predicate that reads 0; STAGE_FAULT for what a stage lacks or could not run; else the same
results as at a thread, readable so many slots later. Memory instructions, SPUT, LOOK, RCMP, DISP and B act on the pass as
stated.

R98 and R163: a result of latency 1 is readable in the next slot; a later one only in its own; at the end of a stage
every register but g0 to g15 reads zero (R100). In a cycle of a lane each younger pass takes one slot as the oldest does,
so the frames keep their distances (R99, R156). -/
def Obligations.StageInstructions : Prop :=
  (∀ (c : Instr) (l : Fin 64) (pr : BitVec 3) (a : Afv) (s : State) (p : Pass) (rest : List Pass),
    rowOf c = some (.lane l, pr, a) → (s.lane l.val).passes = p :: rest → p.stage < 12 →
    let put := fun (u : State) (q : Pass) =>
      Host.Outcome.next (φ := Fault) (ρ := Refusal) (s.laneCycle l.val fun _ _ => (u, q.step))
    let runs := p.exc = none ∧ p.skip ≤ p.slot ∧ p.r.pred pr = true
    (¬runs → exec c s = put s p) ∧
    (runs → stageLacks a = true → exec c s = put s (p.raise 0x21)) ∧
    (runs → ∀ g q, stageLacks a = false → pureVal a p.r = .ok g q →
      exec c s = put s (p.later (slotsToResult a) g q)) ∧
    (runs → pureVal a p.r = .bad → exec c s = put s (p.raise 0x21)) ∧
    (runs → ∀ k rd ra size off, a = .load k rd ra 2 size off →
      let ea := (p.r.get ra + off.signExtend 64).toNat
      if 256 < ea + 2 ^ size.toNat then exec c s = put s (p.raise 0x01)
      else ∃ v, Loaded k (2 ^ size.toNat) (fun i => frameByte s p.fid (ea + i)) v ∧ exec c s = put s (p.later 2 [(rd, v)] [])) ∧
    (runs → ∀ be rs ra size off, a = .store be rs ra 2 size off →
      let ea := (p.r.get ra + off.signExtend 64).toNat
      if 256 < ea + 2 ^ size.toNat then exec c s = put s (p.raise 0x01)
      else ∃ f : Frame, exec c s = put (s.setFrame p.fid f) p ∧ f.s = (s.frame p.fid).s ∧
        f.data.length = (s.frame p.fid).data.length ∧
        ∀ j, j < f.data.length → f.data.getD j 0 =
          if ea ≤ j ∧ j < ea + 2 ^ size.toNat then stored be (2 ^ size.toNat) (p.r.get rs) (j - ea) else frameByte s p.fid j) ∧
    (runs → ∀ off : BitVec 20, a = .branch off →
      if 1 ≤ off.toInt ∧ (p.slot : Int) + off.toInt ≤ 32 then
        exec c s = put s { p with skip := ((p.slot : Int) + off.toInt).toNat }
      else exec c s = put s (p.raise 0x21)) ∧
    (runs → a = .dispCont → exec c s = put s { p with verdict := some .cont }) ∧
    (runs → a = .dispDrop → exec c s = put s { p with verdict := some .drop }) ∧
    (runs → ∀ ra, a = .dispGroup ra → exec c s = put s { p with verdict := some (.group (p.r.get ra).toNat) }) ∧
    (runs → ∀ rd ra tag, a = .rcmp rd ra tag →
      exec c s = put s (p.later 2 [(rd, s.rangeCmp (l.val / 2) p.stage tag.toNat ((p.r.get ra).toNat % 65536))] [])) ∧
    (runs → ∀ rd ra table klen rcnt pd, a = .look rd ra table klen rcnt pd →
      let q := l.val / 2
      let m := p.profile / 2 ^ (4 * p.stage) % 16
      let b := s.rdN (ctlAddr (pipeIsland q) (0x4000 + 0x100 * p.stage + 0x10 * m)) 4 / 2 ^ (8 * table.toNat) % 256
      let bound := table ≠ 15 ∧ 128 ≤ b
      let key := (List.range (klen.toNat + 1)).flatMap fun i => leBytes 8 (p.r.get (ra + BitVec.ofNat 5 i)).toNat
      let missed := p.later 12 [] [(pd, false)]
      (31 < ra.toNat + klen.toNat ∨ 31 < rd.toNat + rcnt.toNat → exec c s = put s (p.raise 0x21)) ∧
      (ra.toNat + klen.toNat ≤ 31 → rd.toNat + rcnt.toNat ≤ 31 →
        (¬bound → exec c s = put s missed) ∧
        (bound → s.lookLost q (b % 32) = true → exec c s = put s (missed.raise 0x1F)) ∧
        (bound → s.lookLost q (b % 32) = false → s.lookup q (b % 32) key (rcnt.toNat + 1) = none → exec c s = put s missed) ∧
        (∀ ws, bound → s.lookLost q (b % 32) = false → s.lookup q (b % 32) key (rcnt.toNat + 1) = some ws →
          exec c s = put s (p.later 12 ((List.range ws.length).map fun i => (rd + BitVec.ofNat 5 i, ws.getD i 0)) [(pd, true)])))) ∧
    (runs → ∀ rd imm, a = .sget rd imm →
      let k := (imm.extractLsb' 0 4).toNat
      if imm.extractLsb' 5 9 ≠ 0 ∨ (imm.getLsbD 4 = true ∧ k % 2 = 1) then exec c s = put s (p.raise 0x21)
      else exec c s = put s (p.later 1 [(rd, if imm.getLsbD 4 then word s p.fid (k + 1) ++ word s p.fid k else (word s p.fid k).setWidth 64)] [])) ∧
    (runs → ∀ w ra rb, a = .sput w ra rb → w ≠ 0 → w ≠ 1 → w ≠ 2 → ∃ f : Frame, exec c s = put (s.setFrame p.fid f) p ∧
      f.data = (s.frame p.fid).data ∧ ∀ i, i < 16 → f.s[i]?.getD 0 = if i = w.toNat then
        (word s p.fid i &&& ~~~((p.r.get rb).setWidth 32 &&& writable i)) |||
          ((p.r.get ra).setWidth 32 &&& (p.r.get rb).setWidth 32 &&& writable i) else word s p.fid i)) ∧
  ((∀ (p : Pass) (rd : BitVec 5) (v : W64), p.pend = [] → rd ≠ 0 →
    (p.slot < 31 →
      (p.later 1 [(rd, v)] []).step.r.get rd = v ∧ p.step.slot = p.slot + 1 ∧ p.step.stage = p.stage ∧
      (∀ r, r ≠ rd → (p.later 1 [(rd, v)] []).step.r.get r = p.r.get r) ∧
      (∀ d, 2 ≤ d → (p.later d [(rd, v)] []).step.r.get rd = p.r.get rd)) ∧
    (p.slot < 30 → (p.later 2 [(rd, v)] []).step.step.r.get rd = v) ∧
    (p.slot < 29 → (p.later 3 [(rd, v)] []).step.step.step.r.get rd = v) ∧
    (p.slot = 31 → p.step.stage = p.stage + 1 ∧ p.step.slot = 0 ∧ p.step.skip = 0 ∧ p.step.verdict = p.verdict ∧ p.step.exc = p.exc ∧
      (∀ r, p.step.r.get r = if r.toNat < 16 then p.r.get r else 0) ∧ (∀ q, p.step.r.pred q = decide (q = 0)))) ∧
  (∀ (n : Nat) (s u : State) (p q : Pass) (rest : List Pass), (s.lane n).passes = p :: rest → u.lane n = s.lane n →
    (∀ x ∈ rest, x.slot < 32) →
    let t := s.laneCycle n fun _ _ => (u, q)
    ∃ ys, (t.lane n).passes = q :: ys ∧ ys.map (fun x => x.fid) = rest.map (fun x => x.fid) ∧
      ys.map (fun x => 32 * x.stage + x.slot) = rest.map (fun x => 32 * x.stage + x.slot + if x.stage < 12 then 1 else 0) ∧
      (t.lane n).cycle = ((s.lane n).cycle + 1) % 16))

/-! ### Time base, control registers and the stalemate detector -/

/-- R27 and R30: a Lantern tick adds the addend to both scales, then a requested step to the nanoseconds of TOD, never
below zero, then latches a requested snapshot of both; in P1 the power controller then follows TRIM_CFG and notes the
islands that work (R406). SNAP and STEP are such requests. A follower is aligned once its island runs (R29). -/
def Obligations.TimeScales : Prop := ∀ s : State,
  let a := (s.rd Reg.timeAddend).toNat
  let tod := (s.clock.tod + a) % 2 ^ 88
  let d := (BitVec.ofNat 64 (s.rdN Reg.timeStep 2)).toInt
  (s.boot.phase = .off → exec .lanternTick s = .next s) ∧
  (s.boot.phase ≠ .off → ∃ t, exec .lanternTick s = .next (if s.pstate = 1 then t.trimFollow.noteBusy else t) ∧
    t.clock.ict = (s.clock.ict + a) % 2 ^ 88 ∧
    (s.clock.stepReq = false → t.clock.tod = tod) ∧
    (s.clock.stepReq = true → t.clock.tod % 2 ^ 24 = tod % 2 ^ 24 ∧
      t.clock.tod / 2 ^ 24 = (((tod / 2 ^ 24 : Nat) : Int) + d).toNat % 2 ^ 64) ∧
    t.clock.snapReq = false ∧ t.clock.stepReq = false ∧
    (s.clock.snapReq = false → t.regs = s.regs) ∧
    (s.clock.snapReq = true → t.rf Reg.timeSnap timeSnap_ICT_NS = t.clock.ict / 2 ^ 24 ∧
      t.rf Reg.timeSnap timeSnap_TOD_NS = t.clock.tod / 2 ^ 24 ∧
      t.rf Reg.timeSnap timeSnap_FRAC = t.clock.tod % 2 ^ 24 / 256 ∧ t.rf Reg.timeCtl timeCtl_SNAP_DONE = 1) ∧
    ClockKept s t) ∧
  (Open s Reg.timeCtl →
    let u := s.dropHeld Reg.timeCtl 1
    (Ends .timeSnap s fun t => t.clock = { s.clock with snapReq := true } ∧ t.rf Reg.timeCtl timeCtl_SNAP_DONE = 0 ∧
      ClockKept u t) ∧
    exec .timeStep s = .next { u with clock := { s.clock with stepReq := true } }) ∧
  (∀ i : Fin 256, exec (.followerRealigned i) s = .next (if (s.island i.val).power = .off ∨ s.gatedNow i.val = true then s
    else s.setIsland i.val { s.island i.val with power := .on, aligned := true }))

/-- R8 and R18 to R23 for a write by an initiator: one that may not issue it does nothing; a denied one changes nothing but
a record and raises the control-access exception at a thread or steward; at an island without power it is discarded with a
record, and where accesses wait it is held behind them. In a register whose fields have no effect of their own a 32-bit
write changes the RW and WOS bits, clears the W1C bits that it writes with 1 and leaves every other bit; the first word of a
64-bit pair alone is held, and the second applies both. GATED_ACCESS_COMPLETE performs the held accesses in their order.

R42: a write of FAB.FMT_GEN with CUR outside GMIN to GMAX is ignored as a whole; another sets the three fields.

R23 and R25 for the rows that write a register without naming an initiator (their initiator is the hardware, log entry
50): without power nothing happens; at an island that is off the write is discarded with a record; where accesses wait it is
held behind them. -/
def Obligations.RegisterWrites : Prop :=
  (∀ (who : Writer) (addr : W32) (wide : Bool) (data : W64) (s : State),
    let a := addr.toNat
    let i := a / 0x1000000
    let size := if wide then 8 else 4
    let c := Instr.registerWrite who addr wide data
    let x := writerInit who
    let barred := 0x800000 ≤ a % 0x1000000 ∧ s.secureOk x = false
    (s.canWrite x a = false → EndsSettled c s fun u => u = s) ∧
    (s.canWrite x a = true →
      (s.ctlDenied x a size = true ↔ 0x68 < i ∨ a % size ≠ 0 ∨ ∃ n, x = .thread n ∧ (s.entryOf n).ctl = false) ∧
      (s.ctlDenied x a size = true → EndsSettled c s fun u => u = s.denyWrite x a) ∧
      (s.ctlDenied x a size = false →
        (barred → EndsSettled c s fun u => u = (s.secureDenied x a).denyWrite x a) ∧
        (¬barred → (s.island i).power = .off → EndsSettled c s fun u => u = s.offRecord x a true) ∧
        (¬barred → (s.island i).power ≠ .off → s.holds i = true →
          EndsSettled c s fun u => u = { s with gated := s.gated ++ [⟨x, 0, a, size, some data.toNat⟩] }))) ∧
    (∀ (u : State) (b : Nat), { u.secureDenied x b with tb := u.tb, regs := u.regs } = u ∧
      { u.offRecord x b true with tb := u.tb, regs := u.regs } = u ∧
      u.denyWrite x b = (match x with
        | .thread n => u.takeException n 5 (u.thr n).pc b
        | .steward k => u.takeException (2048 + k) 5 (u.thr (2048 + k)).pc b
        | _ => u)) ∧
    (∀ d w, OpenTo s x a size → ksForeign x a = false → regAt a = some (d, w) → d.kind = .plain → wide = false →
      let after := fun (w v : Nat) (old new : W32) => ∀ j, j < 32 → new.getLsbD j = (!(v.testBit j && (d.mask .w1c w).testBit j) &&
        (if (d.mask .rw w ||| d.mask .wos w).testBit j then v.testBit j else old.getLsbD j))
      (d.group ≤ 1 → EndsSettled c s fun u =>
        (∀ b, b ≠ a → u.rd b = s.rd b) ∧ { u with regs := s.regs } = s ∧ after w (data.toNat % 2 ^ 32) (s.rd a) (u.rd a)) ∧
      (d.group = 2 → w % 2 = 0 → w + 1 ≠ d.words → EndsSettled c s fun u =>
        Tab.find u.held a = some (data.setWidth 32) ∧ { u with held := s.held } = s) ∧
      (d.group = 2 → w % 2 = 1 → EndsSettled c s fun u => Tab.find u.held a = none ∧ Tab.find u.held (a - 4) = none ∧
        { u with held := s.held, regs := s.regs } = s ∧ (∀ b, b ≠ a → b ≠ a - 4 → u.rd b = s.rd b) ∧
        after w (data.toNat % 2 ^ 32) (s.rd a) (u.rd a) ∧
        after (w - 1) ((Tab.find s.held (a - 4)).getD (s.rd (a - 4))).toNat (s.rd (a - 4)) (u.rd (a - 4)))) ∧
    (∀ e : Fin 256,
      let here := s.gated.filter fun g => decide (g.addr / 0x1000000 = e.val)
      let u : State := { s with gated := s.gated.filter fun g => decide (g.addr / 0x1000000 ≠ e.val) }
      (here = [] → exec (.gatedAccessComplete e) s = .next s) ∧
      (here ≠ [] → EndsSettled (.gatedAccessComplete e) s fun t => t = here.foldl (fun u g => u.gatedDone g)
        (if (s.island e.val).power = .gated then u.setIsland e.val { s.island e.val with power := .on, busyAt := s.ictNs } else u))) ∧
    (∀ (u : State) (g : GatedAccess),
      let r := if (u.island (g.addr / 0x1000000)).power = .off then (u.offRecord g.who g.addr g.wdata.isSome, 2 ^ (8 * g.size) - 1)
        else match g.wdata with
          | some v => (u.ctlWrite g.who g.addr g.size v, 0)
          | none => u.ctlRead g.who g.addr g.size
      let answer := fun (n : Nat) => r.1.modThr n fun t => { t with ops := t.ops.map fun o => match o.act with
        | .ctl rd k m v => { o with act := .ctl rd k m (if o.id = g.op then some r.2 else v) }
        | _ => o }
      u.gatedDone g = (match g.who with
        | .thread n => answer n
        | .steward k => answer (2048 + k)
        | .window h => if g.wdata.isNone then r.1.barReturn h g.size r.2 else r.1
        | _ => r.1))) ∧
  (∀ (v : W32) (s : State),
    let cur := (v.extractLsb' 0 8).toNat
    let lo := (v.extractLsb' 8 8).toNat
    let hi := (v.extractLsb' 16 8).toNat
    Open s Reg.fmtGen →
    (¬(lo ≤ cur ∧ cur ≤ hi) → exec (.fmtGenWrite v) s = .next (s.dropHeld Reg.fmtGen 1)) ∧
    (lo ≤ cur → cur ≤ hi → s.pairOn = false → Ends (.fmtGenWrite v) s fun t =>
      t.rf Reg.fmtGen fmtGen_CUR = cur ∧ t.rf Reg.fmtGen fmtGen_GMIN = lo ∧ t.rf Reg.fmtGen fmtGen_GMAX = hi ∧
      t.rf (Reg.devStatus 0) devStatus_FMT_CUR = cur ∧ t.rf (Reg.devStatus 1) devStatus_FMT_CUR = cur ∧
      t.mem = s.mem ∧ t.frames = s.frames ∧ t.threads = s.threads ∧ t.insts = s.insts)) ∧
  (∀ (v : W32) (w : W64) (cl : Fin 16) (port : Fin 32) (link : Fin 6) (s : State),
    let rows : List (Instr × Nat × Nat × Nat) :=
      [(.timeSnap, Reg.timeCtl, 4, 1), (.timeStep, Reg.timeCtl, 4, 2), (.tbFreezeRelease, Reg.tbFreeze, 4, 2 ^ 29),
      (.fmtGenWrite v, Reg.fmtGen, 4, v.toNat), (.threadFaultPop cl, Reg.threadFault cl.val, 4, 0x80),
      (.threadFaultLostClear cl, Reg.threadFault cl.val, 4, 0x40000000),
      (.stalemateDetectedClear cl, Reg.staleStatus cl.val, 4, 2 ^ staleStatus_DETECTED.lo), (.trimCfgWrite w, Reg.trimCfg, 8, w.toNat),
      (.portModeWrite port v, Reg.portMode port.val, 4, v.toNat), (.ptpPop port, Reg.portPtpPop port.val, 4, 1),
      (.hamperLinkEnable link, hlAddr link.val 0, 4, 1), (.retrain link, hlAddr link.val 0, 4, 3)]
    ∀ x ∈ rows,
    let i := x.2.1 / 0x1000000
    let ends := fun (u : State) => exec x.1 s = .next u ∨ exec x.1 s = .next u.settle
    (s.boot.phase = .off → ends s) ∧
    (s.boot.phase ≠ .off → (s.island i).power = .off → ends (s.offRecord .hw x.2.1 true)) ∧
    (s.boot.phase ≠ .off → (s.island i).power ≠ .off → s.holds i = true →
      ends { s with gated := s.gated ++ [⟨.hw, 0, x.2.1, x.2.2.1, some x.2.2.2⟩] }))

/-- R96 and R119 to R122: popping the fault queue and clearing LOST and DETECTED; a cycle of the detector counts RUN
while the condition holds and the detector is enabled, else zeroes it; in the cycle in which RUN reaches 4,096 a stalemate
is detected, counted, and CLEARED goes to 0. -/
def Obligations.StalemateDetector : Prop :=
  ∀ (cl : Fin 16) (s : State),
    let k := cl.val
    let a := Reg.staleStatus k
    let kept := fun (t : State) => { t with regs := s.regs, held := s.held } = s ∧ (∀ b, b ≠ a → t.rd b = s.rd b)
    let run := s.rf a staleStatus_RUN
    let on := s.rf (Reg.staleCtl k) staleCtl_ENABLE
    (Open s (Reg.threadFault k) → Ends (.threadFaultPop cl) s fun t => (t.cluster k).faults = (s.cluster k).faults.drop 1 ∧
      (∀ j, j ≠ k → t.cluster j = s.cluster j) ∧ { t with clusters := s.clusters, held := s.held } = s) ∧
    (Open s (Reg.threadFault k) → Ends (.threadFaultLostClear cl) s fun t => t.rf (Reg.threadFault k) threadFault_LOST = 0 ∧
      { t with regs := s.regs, held := s.held } = s ∧ ∀ b, b ≠ Reg.threadFault k → t.rd b = s.rd b) ∧
    (Open s a → Ends (.stalemateDetectedClear cl) s fun t => t.rf a staleStatus_DETECTED = 0 ∧ t.rf a staleStatus_RUN = run ∧
      t.rf a staleStatus_HOLDING = s.rf a staleStatus_HOLDING ∧ t.rf a staleStatus_CLEARED = s.rf a staleStatus_CLEARED ∧ kept t) ∧
    (s.stopped = false →
      (on = 0 ∨ s.stale k = false → EndsSettled (.stalemateCycle cl) s fun t => t.rf a staleStatus_RUN = 0 ∧
        t.rf a staleStatus_HOLDING = (if s.stale k then 1 else 0) ∧ t.rf a staleStatus_DETECTED = s.rf a staleStatus_DETECTED ∧
        t.rf a staleStatus_CLEARED = s.rf a staleStatus_CLEARED ∧ kept t) ∧
      (on ≠ 0 → s.stale k = true → run ≠ 4095 → EndsSettled (.stalemateCycle cl) s fun t =>
        t.rf a staleStatus_RUN = min 4096 (run + 1) ∧ t.rf a staleStatus_HOLDING = 1 ∧
        t.rf a staleStatus_DETECTED = s.rf a staleStatus_DETECTED ∧ t.rf a staleStatus_CLEARED = s.rf a staleStatus_CLEARED ∧ kept t) ∧
      (¬(on = 1 ∧ run = 4095 ∧ s.stale k = true) → exec (.stalemate cl) s = .next s) ∧
      (∀ c, c = .stalemate cl ∨ c = .stalemateCycle cl → on = 1 → run = 4095 → s.stale k = true → (s.cluster k).detections.length < 2 →
        EndsSettled c s fun t => t.rf a staleStatus_RUN = 4096 ∧ t.rf a staleStatus_HOLDING = 1 ∧
          t.rf a staleStatus_DETECTED = 1 ∧ t.rf a staleStatus_CLEARED = 0 ∧
          t.rd (Reg.staleCount k) = s.rd (Reg.staleCount k) + 1 ∧
          (t.cluster k).detections = (s.cluster k).detections ++ [s.ictNs] ∧ t.mem = s.mem ∧ t.frames = s.frames ∧
          ∀ n, (t.thr n).r = (s.thr n).r ∧ (t.thr n).pc = (s.thr n).pc ∧ (t.thr n).run = (s.thr n).run))

/-! ### Ports -/

/-- R136 to R140 in P0 and P1 with no wake patterns: a frame at a sub-port without LINK, or at a port that takes none (R29),
does nothing; the codewords and symbols that FEC reports are counted; a runt, a frame of
bad FCS, and an oversize one in OVS_MODE 0 are counted and dropped; another MAC control frame is consumed; another is counted
and waits in the lane of its port under a new satchel with its bytes, or with its first bytes and TRUNC. -/
def Obligations.FrameReception : Prop :=
  ∀ (port : Fin 32) (sub : Fin 8) (data : List Byte) (rx : Reception) (s : State),
    let p := port.val; let k := sub.val
    let c := Instr.frameReceive port sub data rx
    let len := data.length + 4
    let max := s.rf (Reg.portSubCfg p k) portSubCfg_MAXFRAME
    let kept := fun (t : State) => Counted s t p k 11 rx.corr.toNat ∧ Counted s t p k 12 rx.uncorr.toNat ∧
      Counted s t p k 13 rx.syms.toNat ∧ FramesKept s t
    let cut := s.rf (Reg.portSubCfg p k) portSubCfg_TRUNC_LEN * 64
    let arrived := fun (t : State) (bytes : List Byte) (trunc : Nat) =>
      (t.frame s.nextFrame).data = bytes ∧ (t.frame s.nextFrame).gf sfSrc = 8 * p + k ∧
      (t.frame s.nextFrame).gf sfTrunc = trunc ∧ (t.frame s.nextFrame).gf sfPhase = 0 ∧
      (t.frame s.nextFrame).gf sfDst = 0x3FF ∧ (t.frame s.nextFrame).gf sfNextHop = 0xFFFF ∧
      (t.frame s.nextFrame).gf sfExc = 0 ∧ (t.frame s.nextFrame).gf sfFmtGen = s.rf Reg.fmtGen fmtGen_CUR ∧
      (∀ f, f ≠ s.nextFrame → t.frame f = s.frame f) ∧ t.nextFrame = s.nextFrame + 1 ∧
      (t.lane p).arrivals = (s.lane p).arrivals ++ [s.nextFrame] ∧ (t.lane p).passes = (s.lane p).passes ∧
      (∀ l, l ≠ p → t.lane l = s.lane l) ∧ t.mem = s.mem ∧ t.threads = s.threads
    (s.linked p k = false → exec c s = .next s) ∧
    (s.accepts (1 + p) = false → s.pstate ≠ 3 → exec c s = .next s) ∧
    (s.boot.phase ≠ .off → s.linked p k = true → s.accepts (1 + p) = true → s.pstate < 2 →
      s.rf (Reg.portWakeCfg p) portWakeCfg_PAT_EN = 0 →
      (len < 64 → Ends c s fun t => Counted s t p k 6 1 ∧ kept t) ∧
      (64 ≤ len → rx.fcsOk = false → Ends c s fun t => Counted s t p k 5 1 ∧ kept t) ∧
      (64 ≤ len → rx.fcsOk = true →
        (max < len → s.rf (Reg.portSubCfg p k) portSubCfg_OVS_MODE = 0 → Ends c s fun t => Counted s t p k 7 1 ∧ kept t) ∧
        (max < len → s.rf (Reg.portSubCfg p k) portSubCfg_OVS_MODE ≠ 0 → beNat (slice data 12 2) = 0x8808 →
          Ends c s fun t => kept t) ∧
        (max < len → s.rf (Reg.portSubCfg p k) portSubCfg_OVS_MODE ≠ 0 → beNat (slice data 12 2) ≠ 0x8808 → Ends c s fun t =>
          Counted s t p k 8 1 ∧ Counted s t p k 0 1 ∧ Counted s t p k 1 len ∧
          arrived t ((data ++ leBytes 4 (ethFcs data)).take (if max < cut then max / 64 * 64 else cut)) 1) ∧
        (len ≤ max → beNat (slice data 12 2) = 0x8808 → Ends c s fun t => kept t) ∧
        (len ≤ max → beNat (slice data 12 2) ≠ 0x8808 → Ends c s fun t =>
          Counted s t p k 0 1 ∧ Counted s t p k 1 len ∧ arrived t data 0)))

/-- R143, R144 and R146 for one traffic class: a received PFC frame pauses the classes that it and PFC_RX enable for its
time, zero resuming them; PAUSE pauses all classes where it is honoured; a pause that has run out ends; XOFF is repeated
after 32,768 quanta, at once or at the next frame boundary of a MAC that sends; the watchdog stalls a class paused for LIMIT and restores one that has been quiet for RESTORE. -/
def Obligations.FlowControl : Prop :=
  ∀ (port : Fin 32) (sub tc : Fin 8) (s : State),
    let p := port.val; let k := sub.val
    let e := 8 * (8 * p + k) + tc.val
    let x := s.pause e
    let now := s.clock.ict
    let quanta := fun (n : Nat) => n * 64 * 2 ^ s.rf (Reg.portMode p) portMode_SPLIT * 2 ^ 24 / 100
    let stalled := (s.rf (Reg.portPfcStall p k) portPfcStall_STALLED).testBit tc.val = true
    let paused := fun (t : State) (n : Nat) => (t.pause e).till = (if n = 0 then none else some (now + quanta n))
    (∀ en times, s.linked p k = false ∨ s.accepts (1 + p) = false → exec (.pfcReceive port sub en times) s = .next s) ∧
    (∀ time, s.linked p k = false ∨ s.accepts (1 + p) = false → exec (.pauseReceive port sub time) s = .next s) ∧
    (∀ (en : BitVec 8) (times : BitVec 128), s.linked p k = true → s.accepts (1 + p) = true → Ends (.pfcReceive port sub en times) s fun t =>
      Counted s t p k 10 1 ∧ FramesKept s t ∧
      (¬stalled → en.getLsbD tc.val = true → (s.rf (Reg.portSubCfg p k) portSubCfg_PFC_RX).testBit tc.val = true →
        paused t (times.extractLsb' (16 * tc.val) 16).toNat) ∧
      (en.getLsbD tc.val = false ∨ (s.rf (Reg.portSubCfg p k) portSubCfg_PFC_RX).testBit tc.val = false → t.pause e = x)) ∧
    (∀ time : BitVec 16, s.linked p k = true → s.accepts (1 + p) = true → Ends (.pauseReceive port sub time) s fun t =>
      Counted s t p k 9 1 ∧ FramesKept s t ∧
      (let honoured := s.rf (Reg.portSubCfg p k) portSubCfg_PAUSE_RX = 1 ∧ s.rf (Reg.portSubCfg p k) portSubCfg_PFC_RX = 0
       (honoured → ¬stalled → paused t time.toNat) ∧ (¬honoured → t.pause e = x))) ∧
    (∀ till, x.till = some till → exec (.pauseExpire port sub tc) s = .next (if till ≤ now then
      s.setPause e { x with till := none, since := none } else s)) ∧
    (x.till = none → exec (.pauseExpire port sub tc) s = .next s) ∧
    (let maySend := (s.rf (Reg.portSubCfg p k) portSubCfg_PFC_TX).testBit tc.val = true ∧ ¬stalled ∧ s.linked p k = true
     let due := s.stopped = false ∧ s.rf (Reg.iaccUse e) iaccUse_XOFF_STATE = 1 ∧ x.sentAt + quanta 32768 ≤ now
     (¬(due ∧ maySend) → exec (.pfcRepeat port sub tc) s = .next s) ∧
     (due → maySend → Ends (.pfcRepeat port sub tc) s fun t => t.pause e = { x with xoff := true, sentAt := now } ∧ FramesKept s t ∧
       ((s.mac p k).tx = none → .pfc p k tc.val 0xFFFF ∈ t.out ∧ Counted s t p k 18 1) ∧
       ((s.mac p k).tx ≠ none → t.out = s.out ∧ (tc.val, 0xFFFF) ∈ (t.mac p k).pfc))) ∧
    (∀ since till, x.since = some since → x.till = some till →
      let limit := s.rf (Reg.portPfcWd p k) portPfcWd_LIMIT * 100000 * 2 ^ 24
      let fires := limit ≠ 0 ∧ since + limit ≤ now ∧ since + limit ≤ till ∧ ¬stalled ∧ k < 2 ^ s.rf (Reg.portMode p) portMode_SPLIT
      (¬fires → exec (.pfcWatchdog port sub tc) s = .next s) ∧
      (fires → Ends (.pfcWatchdog port sub tc) s fun t =>
        (t.rf (Reg.portPfcStall p k) portPfcStall_STALLED).testBit tc.val = true ∧ FramesKept s t ∧ t.pauses = s.pauses)) ∧
    (let quiet := s.rf (Reg.portPfcWd p k) portPfcWd_RESTORE * 100000 * 2 ^ 24
     (¬stalled ∨ now < x.last + quiet → exec (.pfcWdRestore port sub tc) s = .next s) ∧
     (stalled → x.last + quiet ≤ now → Ends (.pfcWdRestore port sub tc) s fun t =>
       (t.rf (Reg.portPfcStall p k) portPfcStall_STALLED).testBit tc.val = false ∧
       t.pause e = { x with till := none, since := none } ∧ FramesKept s t))

/-- R132, R133, R135, R138, R140 and R150 to R152: LINK of an enabled sub-port rises and falls, and a frame that the
fall cuts off is an FCS error (R155); a PORT.MODE write that
would change SPLIT while a sub-port is enabled is ignored, another is stored, and a change of SPLIT zeroes the counters;
the MAC takes the first frame that no pause holds back, discards and counts one that is too long, pads another to 60
bytes and sends it; at its end the frame is shown and removed, its timestamp queued and waiting PFC frames sent; PTP_POP removes the oldest; and
the wake on signal energy. -/
def Obligations.PortTransmission : Prop :=
  ∀ (port : Fin 32) (sub : Fin 8) (s : State),
    let p := port.val; let k := sub.val
    let m := s.mac p k
    let bit := fun (t : State) (i : Nat) => ((t.rd (Reg.portStatus p)).getLsbD i)
    (s.subOn p k = true → Ends (.linkUp port sub) s fun t => bit t k = true ∧ bit t (8 + k) = true ∧
      (∀ i, i < 32 → i ≠ k → i ≠ 8 + k → bit t i = bit s i) ∧ (∀ b, b ≠ Reg.portStatus p → t.rd b = s.rd b) ∧
      { t with regs := s.regs } = s) ∧
    (s.subOn p k = false → exec (.linkUp port sub) s = .next s) ∧
    (∀ mid : Bool, Ends (.linkDown port ⟨sub, mid⟩) s fun t => bit t k = false ∧ bit t (8 + k) = false ∧ FramesKept s t ∧
      (t.mac p k).pfc = [] ∧ (bit s k = true → bit t (16 + k) = true ∧ Counted s t p k 30 1) ∧
      (mid = true → s.linked p k = true → s.accepts (1 + p) = true → Counted s t p k 5 1)) ∧
    (Open s (Reg.portMode p) →
      let split := s.rf (Reg.portMode p) portMode_SPLIT
      let taken := fun (v : W32) => (v.extractLsb' 0 2).toNat = split ∨ s.rf (Reg.portMode p) portMode_SUB_EN = 0
      ∀ v : W32, (¬taken v → exec (.portModeWrite port v) s = .next (s.dropHeld (Reg.portMode p) 1)) ∧
      (taken v → Ends (.portModeWrite port v) s fun t => t.rd (Reg.portMode p) = v &&& 0xFF0F ∧
        ((v.extractLsb' 0 2).toNat ≠ split → Tab.get [] t.ptp p = [] ∧
          ∀ j c, j < 8 → c < 30 → t.rdN (Reg.portCnt p j c) 2 = 0) ∧
        ((v.extractLsb' 0 2).toNat = split → t.ptp = s.ptp) ∧ FramesKept s t)) ∧
    (s.stopped = false →
      (m.tx ≠ none ∨ (∀ fid ∈ m.waiting, s.txReady p k fid = false) ∨ s.linked p k = false →
        exec (.frameTransmit port sub) s = .next s) ∧
      (∀ held fid rest, m.tx = none → m.waiting = held ++ fid :: rest → (∀ x ∈ held, s.txReady p k x = false) →
        s.txReady p k fid = true → s.linked p k = true →
        let d := (s.frame fid).data ++ List.replicate (60 - (s.frame fid).data.length) 0
        (s.rf (Reg.portSubCfg p k) portSubCfg_MAXFRAME < d.length + 4 → Ends (.frameTransmit port sub) s fun t =>
          (t.mac p k).waiting = held ++ rest ∧ (t.mac p k).tx = none ∧ Counted s t p k 31 1 ∧ t.mem = s.mem) ∧
        (d.length + 4 ≤ s.rf (Reg.portSubCfg p k) portSubCfg_MAXFRAME → Ends (.frameTransmit port sub) s fun t =>
          (t.mac p k).waiting = held ++ rest ∧ { t with macs := s.macs } = s ∧
          ∃ x, (t.mac p k).tx = some x ∧ x.fid = fid ∧ (ptpHeader d = none → x.bytes = d ∧ x.ptp = none)))) ∧
    (m.tx = none → exec (.frameTxComplete port sub) s = .next s) ∧
    (∀ x, m.tx = some x → Ends (.frameTxComplete port sub) s fun t =>
      .portFrame p k x.bytes (decide ((s.frame x.fid).gf sfStomp = 1)) ∈ t.out ∧ t.mac p k = { m with tx := none, pfc := [] } ∧
      (∀ y ∈ m.pfc, .pfc p k y.1 y.2 ∈ t.out) ∧
      Counted s t p k 15 1 ∧ Counted s t p k 16 (x.bytes.length + 4) ∧ (x.ptp = none → t.ptp = s.ptp) ∧
      (∀ r, x.ptp = some r → (Tab.get [] s.ptp p).length < 64 → Tab.get [] t.ptp p = Tab.get [] s.ptp p ++ [r]) ∧
      (∀ r, x.ptp = some r → 64 ≤ (Tab.get [] s.ptp p).length → t.ptp = s.ptp ∧ Counted s t p k 29 1) ∧ t.mem = s.mem) ∧
    (Open s (Reg.portPtpPop p) → Ends (.ptpPop port) s fun t => Tab.get [] t.ptp p = (Tab.get [] s.ptp p).drop 1 ∧
      (∀ q, q ≠ p → Tab.get [] t.ptp q = Tab.get [] s.ptp q) ∧ { t with ptp := s.ptp, held := s.held } = s) ∧
    exec (.signalDetect port sub) s = .next (if s.rf (Reg.portWakeCfg p) portWakeCfg_SD_EN = 1 ∧ s.wakePort p = true ∧
      k < 2 ^ s.rf (Reg.portMode p) portMode_SPLIT ∧ (Tab.get 0 s.power.linksAt p).testBit k = false then s.latchWake 1 p k 0 else s)

/-! ### Pipelines, fabric and scheduling -/

/-- R156 to R158, R160 to R164, R167 and R175: starts of an ingress lane, for which its frames move on by one slot;
recirculation; the running of a stage's program words, an uncorrectable error among them (R102); and the ends of passes with
each verdict, where a pass that has not left stage 11 first runs to its end. -/
def Obligations.PipelinePasses : Prop :=
  ∀ (pipe : Fin 16) (lane : Fin 2) (s : State), s.stopped = false →
    let n := 2 * pipe.val + lane.val
    let m := 32 + n
    let l := s.lane n
    let u := s.startCycle n
    let started := fun (t : State) (lane : Lane) (fid v count : Nat) =>
      t.lane n = { lane with passes := lane.passes ++ [{ fid := fid, profile := v }] } ∧ t.regs = (u.pipeCount pipe.val count).regs ∧
      (∀ j, j ≠ n → t.lane j = u.lane j) ∧ RestKept { u with lanes := t.lanes } t
    let profile := fun (fid : Nat) => u.subProfile ((u.frame fid).gf sfSrc)
    let k := fun (x : Recirc) => decide ((u.frame x.fid).gf sfK = 1)
    let start := Instr.ingressPassStart pipe lane
    ((u.lane n).arrivals = l.arrivals ∧ (u.lane n).recirc = l.recirc ∧ (u.lane n).returning = l.returning ∧
      (u.lane n).cycle = (l.cycle + 1) % 16 ∧ (l.passes = [] → (u.lane n).passes = [])) ∧
    (s.accepts (0x21 + pipe.val) = false → exec start s = .next s) ∧
    (s.accepts (0x21 + pipe.val) = true →
      (∀ fid rest, (l.cycle ≠ 0 ∨ l.recirc = []) → l.arrivals = fid :: rest → Ends start s fun t =>
        started t { u.lane n with arrivals := rest } fid (u.profile pipe.val (profile fid)) 0) ∧
      (∀ x, (l.cycle = 0 ∨ l.arrivals = []) → (l.recirc.find? k = some x ∨ (l.recirc.find? k = none ∧ l.recirc.head? = some x)) →
        Ends start s fun t =>
          started t { u.lane n with recirc := l.recirc.erase x } x.fid (u.profile pipe.val (x.next.getD (profile x.fid))) 1) ∧
      (l.arrivals = [] → l.recirc = [] → exec start s = .next u)) ∧
    (l.returning = [] → exec (.recirculation pipe lane) s = .next s) ∧
    (∀ x rest, l.returning = x :: rest →
      let room := l.recirc.length < (if (s.frame x.fid).gf sfK = 1 then 512 else 480)
      (room → EndsSettled (.recirculation pipe lane) s fun u => u.lane n = { l with returning := rest, recirc := l.recirc ++ [x] } ∧
        (∀ j, j ≠ n → u.lane j = s.lane j) ∧ { u with lanes := s.lanes } = s) ∧
      (¬room → EndsSettled (.recirculation pipe lane) s fun u => u.lane n = { l with returning := rest } ∧
        ((s.frame x.fid).names = 0 → u.frame x.fid = {}) ∧ (∀ f, f ≠ x.fid → u.frame f = s.frame f))) ∧
    (∀ ecc, l.passes = [] → exec (.ingressPassEnd pipe ⟨lane, ecc⟩) s = .next s) ∧
    (∀ p rest ecc, l.passes = p :: rest → p.stage < 12 → p.slot < 32 →
      exec (.ingressPassEnd pipe ⟨lane, ecc⟩) s =
        exec (.ingressPassEnd pipe ⟨lane, ecc⟩) (s.laneCycle n fun s p => s.slotWord n (ecc.map Fin.val) p)) ∧
    (∀ p rest ecc, l.passes = p :: rest → p.stage = 12 →
      let u := s.setLane n { l with passes := rest }
      let c := Instr.ingressPassEnd pipe ⟨lane, ecc⟩
      (∀ r, p.exc = some r → EndsSettled c s fun t => t = u.raiseExc p.fid r) ∧
      (p.exc = none → p.verdict = some .drop → EndsSettled c s fun t => t = (u.pipeCount pipe.val 4).discard p.fid) ∧
      (∀ g, p.exc = none → p.verdict = some (.group g) → EndsSettled c s fun t => t = u.applyGroup pipe.val g p.fid) ∧
      (p.exc = none → p.verdict = some .cont → EndsSettled c s fun t => ∃ x : StepCtx, x.via = none ∧
        x.g12 = (p.r.get 12).toNat ∧ x.g13 = (p.r.get 13).toNat ∧ x.g14 = (p.r.get 14).toNat ∧
        x.next = (if (p.r.get 15).getLsbD 4 then some ((p.r.get 15).toNat % 16) else none) ∧ t = u.arrive x p.fid) ∧
      (p.exc = none → p.verdict = none →
        let a := Reg.pipeSubportCfg pipe.val ((s.frame p.fid).gf sfSrc / 8 % 2) ((s.frame p.fid).gf sfSrc % 8)
        (s.rf a pipeSubportCfg_DEF_VERDICT = 1 → EndsSettled c s fun t =>
          t = ((u.pipeCount pipe.val 3).pipeCount pipe.val 4).discard p.fid) ∧
        (s.rf a pipeSubportCfg_DEF_VERDICT = 2 → EndsSettled c s fun t =>
          t = (u.pipeCount pipe.val 3).applyGroup pipe.val (s.rf a pipeSubportCfg_DEF_TARGET) p.fid))) ∧
    (∀ ecc, (s.lane m).passes = [] → exec (.egressPassEnd pipe ⟨lane, ecc⟩) s = .next s) ∧
    (∀ p rest ecc, (s.lane m).passes = p :: rest → p.stage < 12 → p.slot < 32 →
      exec (.egressPassEnd pipe ⟨lane, ecc⟩) s =
        exec (.egressPassEnd pipe ⟨lane, ecc⟩) (s.laneCycle m fun s p => s.slotWord m (ecc.map Fin.val) p)) ∧
    (∀ p rest ecc, (s.lane m).passes = p :: rest → p.stage = 12 →
      let u := s.setLane m { s.lane m with passes := rest }
      let c := Instr.egressPassEnd pipe ⟨lane, ecc⟩
      let e := 16 + pipe.val
      (∀ r, p.exc = some r → EndsSettled c s fun t => t = u.raiseExc p.fid r) ∧
      (p.exc = none → (p.verdict = none → EndsSettled c s fun t => t = (u.pipeCount e 3).depart p.fid) ∧
        (p.verdict = some .cont → EndsSettled c s fun t => t = u.depart p.fid) ∧
        (p.verdict = some .drop → EndsSettled c s fun t => t = (u.pipeCount e 4).discard p.fid) ∧
        (∀ g, p.verdict = some (.group g) → EndsSettled c s fun t => t = (u.pipeCount e 5).discard p.fid))) ∧
    (∀ (l : Fin 64) (p : Pass), p.stage < 12 → p.exc = none → p.skip ≤ p.slot →
      let w := s.rd (Reg.pipeProg (l.val / 2) p.stage (p.profile / 2 ^ (4 * p.stage) % 16) p.slot)
      (p.profile.testBit (48 + p.stage) = false → ∀ ecc, s.slotWord l.val ecc p = (s, p.step)) ∧
      (p.profile.testBit (48 + p.stage) = true →
        s.slotWord l.val (some (32 * p.stage + p.slot)) p = (s.eccError, (p.raise 0x21).step) ∧
        (afvDecode w = none → p.r.pred (afvPred w) = true → s.slotWord l.val none p = (s, (p.raise 0x21).step)) ∧
        (∀ (c : Instr) (a : Afv) (rest : List Pass), (s.lane l.val).passes = p :: rest → afvDecode w = some a →
          rowOf c = some (.lane l, afvPred w, a) → exec c s = .next (s.laneCycle l.val fun s p => s.slotWord l.val none p))))

/-- R160 to R162, R168 and R171: writes of profiles, program words, slot bindings and table descriptors, each ignored and
counted while what it changes is in use or locked; and the release of a program slot 1 µs after its last naming.

R180: the oldest unreleased slots of a window whose WAIT, as it stood when they were
taken (R32), has passed leave it, in order, and nothing else changes
before what they held back goes on. -/
def Obligations.PipelineRegisters : Prop :=
  ((∀ (pipe : Fin 32) (p : Fin 16) (v : W64) (s : State), Open s (Reg.pipeProfile pipe.val p.val) → Ends (.pipeProfileWrite pipe p v) s fun t =>
    t.profile pipe.val p.val = v.toNat % 2 ^ 60 ∧ (∀ q, q < 16 → q ≠ p.val → t.profile pipe.val q = s.profile pipe.val q) ∧
    { t with regs := s.regs, slotUntil := s.slotUntil, held := s.held } = s ∧
    (∀ k m, k < 12 → m < 16 → s.slotInUse pipe.val k m = true → t.slotInUse pipe.val k m = true)) ∧
  (∀ (pipe : Fin 32) (k : Fin 12) (m : Fin 16) (s : State), Ends (.slotRelease pipe k m) s fun t =>
    { t with slotUntil := s.slotUntil } = s ∧
    (∀ d, Tab.find s.slotUntil (slotKey pipe.val k.val m.val) = some d →
      (d ≤ s.ictNs → Tab.find t.slotUntil (slotKey pipe.val k.val m.val) = none) ∧ (s.ictNs < d → t = s))) ∧
  (∀ (st : Fin 4) (pipe : Fin 32) (k : Fin 12) (m : Fin 16) (tbl : Bool) (i : Fin 32) (v : W32) (s : State),
    let c := Instr.pipeProgWrite st pipe k m tbl i v
    let prog := ctlAddr (0x21 + pipe.val) (0x800000 + 0x1000 * k.val + 0x80 * m.val + 4 * i.val)
    let bind := ctlAddr (0x21 + pipe.val) (0x4000 + 0x100 * k.val + 0x10 * m.val + 4 * (i.val % 4))
    let x := Initiator.steward st.val
    let a := if tbl then bind else prog
    (s.canWrite x a = false → exec c s = .next s) ∧
    (s.canWrite x a = true → tbl = false → 2 ≤ st.val → exec c s = .next ((s.secureDenied x a).denyWrite x a)) ∧
    (OpenTo s x a 4 →
      (s.slotInUse pipe.val k.val m.val = true → Ends c s fun t => { t with regs := s.regs } = s ∧
        t.rd prog = s.rd prog ∧ t.rd bind = s.rd bind) ∧
      (s.slotInUse pipe.val k.val m.val = false → Ends c s fun t => { t with regs := s.regs } = s ∧
        t.rd a = (if tbl then v &&& (if i.val % 4 = 3 then 0x9F9F9F else 0x9F9F9F9F) else v) ∧
        ∀ b, b ≠ a → t.rd b = s.rd b))) ∧
  (∀ (pipe t : Fin 32) (v : W64) (s : State),
    let c := Instr.pipeTableWrite pipe t v
    let d := tdescOf v.toNat
    Open s (Reg.pipeTable pipe.val t.val) →
    (s.tableLocked pipe.val t.val = true → Ends c s fun u => { u with regs := s.regs, held := s.held } = s ∧
      u.tdesc pipe.val t.val = s.tdesc pipe.val t.val) ∧
    (s.tableLocked pipe.val t.val = false → (16 < d.log2 ∨ 0x80000 < d.base + d.size) →
      exec c s = .next (s.dropHeld (Reg.pipeTable pipe.val t.val) 2)) ∧
    (s.tableLocked pipe.val t.val = false → d.log2 ≤ 16 → d.base + d.size ≤ 0x80000 → Ends c s fun u =>
      u.tdesc pipe.val t.val = d ∧ (∀ q, q < 32 → q ≠ t.val → u.tdesc pipe.val q = s.tdesc pipe.val q) ∧
      { u with regs := s.regs, staging := s.staging, held := s.held } = s ∧
      (∀ e, e / 260 = pipe.val → d.valid = true → s.tdesc pipe.val t.val = { d with valid := false } →
        Tab.find u.staging e = none)))) ∧
  (∀ (pipe : Fin 16) (s : State), s.stopped = false →
    let w := s.window pipe.val
    let due := w.slots.takeWhile fun x => x.released.isNone && decide (x.due ≤ s.ictNs)
    EndsSettled (.reorderPassOver pipe) s fun u =>
      u.window pipe.val = { slots := w.slots.drop due.length, late := w.late ++ due.map (·.fid) } ∧
      (∀ q, q ≠ pipe.val → u.window q = s.window q) ∧ { u with reorder := s.reorder } = s)

/-- R187 to R191 and R198 to R207 for the fabric and the output store: the next side source enters once there is room, and a
class K frame that finds the reserve full is discarded; a slot of 2 ns turns the schedule, and a lone cell at an input
goes to the middle buffer of the slot with the next SEQ; a lone cell of a middle buffer goes to reassembly, its segments
marked where an uncorrectable error strikes (a free value); a partly filled spill page is written after 1 µs; a page leaves
the backlog; a prefetched head comes on chip or is dropped for its error; a capture record is written before PROD; a Coolbox region and the capture ring are set or refused. -/
def Obligations.FabricAndStore : Prop :=
  (∀ (i : Fin 32) (s : State), s.stopped = false →
    let q := Tab.get [] s.fabric.side i.val
    (q = [] → exec (.sideSourceEntry i) s = .next s) ∧
    (∀ src fid, q = [(src, fid)] →
      let f := s.frame fid
      let room := s.entryRoom i.val (outputLink (f.gf sfDst) (f.gf sfHash)) (decide (f.gf sfK = 1)) fid f.len = true
      let full := s.kFull i.val (outputLink (f.gf sfDst) (f.gf sfHash)) (decide (f.gf sfK = 1)) fid f.len
      (full = false → ¬room → exec (.sideSourceEntry i) s = .next s) ∧
      (full = true → ∃ u : State, exec (.sideSourceEntry i) s = .next u.settleCopies ∧ Tab.get [] u.fabric.side i.val = [] ∧
        u.fabric.entry = s.fabric.entry ∧ (f.names = 0 → u.frame fid = {})) ∧
      (room → ∃ u : State, exec (.sideSourceEntry i) s = .next u.settleCopies ∧ Tab.get [] u.fabric.side i.val = [] ∧
        Tab.get 0 u.fabric.sideLast i.val = src ∧ u.fabric.mid = s.fabric.mid ∧ u.fabric.t = s.fabric.t ∧
        Tab.get [] u.fabric.entry i.val = addCells (places f.len + 2) (Tab.get [] s.fabric.entry i.val) i.val
          (outputLink (f.gf sfDst) (f.gf sfHash)) (decide (f.gf sfK = 1)) fid true f.len ∧
        (∀ j, j ≠ i.val → Tab.get [] u.fabric.entry j = Tab.get [] s.fabric.entry j) ∧
        RestKept { s with fabric := u.fabric } u))) ∧
  (∀ s : State, s.stopped = false →
    (s.fabric.entry = [] → s.fabric.mid = [] → exec .fabricSlot s = .next { s with fabric := { s.fabric with t := s.fabric.t + 1 } }) ∧
    (∀ i c, i < 32 → s.fabric.entry = [(i, [c])] → s.fabric.mid = [] → c.k = false → c.output < 32 →
      0 < s.rf Reg.memCfg memCfg_MID_LIMIT →
      let j := (i + s.fabric.t) % 32
      let tri := (32 * i + c.output) * 2
      Ends .fabricSlot s fun t => Tab.get [] t.fabric.entry i = [] ∧ t.fabric.t = s.fabric.t + 1 ∧
        Tab.get [] t.fabric.mid ((32 * j + c.output) * 2) = [{ c with seq := Tab.get 0 s.fabric.sendSeq tri, full := true }] ∧
        Tab.get 0 t.fabric.sendSeq tri = (Tab.get 0 s.fabric.sendSeq tri + 1) % 65536 ∧ { t with fabric := s.fabric } = s) ∧
    (∀ j c, j < 32 →
      let o := (j + s.fabric.t) % 32
      let q := (32 * j + o) * 2
      let tri := (32 * c.input + o) * 2
      s.fabric.entry = [] → s.fabric.mid = [(q, [c])] → c.k = false → s.storeUse o < 6016 →
      (∀ x ∈ c.segs, (s.outQ (s.pickQueue (s.frame x.fid)).1).spill = false) →
      Tab.get [] s.fabric.reasm tri = [] → c.seq ≠ Tab.get 0 s.fabric.relSeq tri →
      Ends .fabricSlot s fun t => Tab.get [] t.fabric.mid q = [] ∧ t.fabric.t = s.fabric.t + 1 ∧ t.free = s.free + 1 ∧
        Tab.get [] t.fabric.reasm tri = [{ c with segs := c.segs.zipIdx.map fun e => { e.1 with eccBad := e.1.eccBad || Config.cellEcc s.free e.2 } }] ∧
        t.fabric.relSeq = s.fabric.relSeq ∧ t.outQs = s.outQs ∧ t.frames = s.frames)) ∧
  (∀ (m : Fin 32) (q : W32) (s : State), s.stopped = false →
    let x := s.outQ q.toNat
    (x.partial_ = 0 ∨ s.ictNs < x.lastSpill + 1000 → exec (.spillPageFlush m q) s = .next s) ∧
    (x.partial_ ≠ 0 → x.lastSpill + 1000 ≤ s.ictNs → Ends (.spillPageFlush m q) s fun t =>
      t.outQ q.toNat = { x with page := x.page + 1, partial_ := 0 } ∧
      Tab.get 0 t.spillBacklog m.val = Tab.get 0 s.spillBacklog m.val + 2048 ∧
      { t with outQs := s.outQs, spillBacklog := s.spillBacklog } = s) ∧
    (Ends (.spillWriteComplete m) s fun t => Tab.get 0 t.spillBacklog m.val = Tab.get 0 s.spillBacklog m.val - 2048 ∧
      { t with spillBacklog := s.spillBacklog } = s) ∧
    (∀ e : Bool, x.cool = [] → exec (.prefetchComplete m q e) s = .next s) ∧
    (∀ e rest bad, x.cool = e :: rest → (e.mem ≠ m.val ∨ s.rf Reg.spillCfg spillCfg_PREFETCH * 4096 ≤ x.onChip) →
      exec (.prefetchComplete m q bad) s = .next s) ∧
    (∀ e rest, x.cool = e :: rest → e.mem = m.val → x.onChip < s.rf Reg.spillCfg spillCfg_PREFETCH * 4096 →
      let hit := fun (y : QEnt) => y.cells.any fun c => decide (c.2 = (e.cells.map (·.2)).headD 0)
      let gone := fun (t : State) (fid : Nat) => (s.frame fid).names = 0 → t.frame fid = {}
      let settled := fun (t : State) (cool : List QEnt) => (t.outQ q.toNat).cool = cool ∧
        (t.outQ q.toNat).spill = (if cool = [] then false else x.spill)
      (Ends (.prefetchComplete m q true) s fun t => settled t (rest.dropWhile hit) ∧ (t.outQ q.toNat).chip = x.chip ∧
        (∀ y ∈ e :: rest.takeWhile hit, gone t y.fid) ∧ t.pair.eccErrs = s.eccRoll.pair.eccErrs + 1) ∧
      (s.expired (s.frame e.fid) e.mem = true → Ends (.prefetchComplete m q false) s fun t =>
        settled t rest ∧ (t.outQ q.toNat).chip = x.chip ∧ gone t e.fid ∧
        t.rdN (Reg.fabCnt 7) 2 = (s.rdN (Reg.fabCnt 7) 2 + 1) % 2 ^ 40 ∧ t.rdN (Reg.fabCnt 8) 2 = (s.rdN (Reg.fabCnt 8) 2 + 1) % 2 ^ 40) ∧
      (s.expired (s.frame e.fid) e.mem = false → s.chipRoom e = false → exec (.prefetchComplete m q false) s = .next s) ∧
      (s.expired (s.frame e.fid) e.mem = false → s.chipRoom e = true → Ends (.prefetchComplete m q false) s fun t =>
        settled t rest ∧ (t.outQ q.toNat).chip = x.chip ++ [e] ∧
        t.fabric = { s.fabric with places := t.fabric.places } ∧ RestKept { s with outQs := t.outQs, fabric := t.fabric } t))) ∧
  (∀ s : State, s.stopped = false →
    (s.captureQ = [] → exec .captureRecordWrite s = .next s) ∧
    (∀ r rest, s.captureQ = r :: rest → s.rf Reg.capCfg capCfg_ENABLE = 0 →
      exec .captureRecordWrite s = .next { s with captureQ := rest }) ∧
    (∀ r rest, s.captureQ = r :: rest → s.rf Reg.capCfg capCfg_ENABLE = 1 →
      let prod := s.rf Reg.capProd capProd_PROD
      let size := 2 ^ s.rf Reg.capCfg capCfg_LOG2_RECORDS
      let full := (prod + 2 ^ 32 - s.rf Reg.capCons capCons_CONS) % 2 ^ 32 = size
      (s.rf Reg.capCfg capCfg_MODE = 0 → full → Ends .captureRecordWrite s fun t => t.captureQ = rest ∧
        t.rf Reg.capProd capProd_PROD = prod ∧ RestKept { s with captureQ := t.captureQ } t) ∧
      (¬(s.rf Reg.capCfg capCfg_MODE = 0 ∧ full) → r.length = 128 → Ends .captureRecordWrite s fun t => t.captureQ = rest ∧
        t.rf Reg.capProd capProd_PROD = (prod + 1) % 2 ^ 32 ∧
        (let a := s.rf Reg.capBase capBase_BASE + prod % size * 128
         (∀ i, i < 128 → t.ldByte (a + i) = if 0x1C ≤ i ∧ i < 0x20 then BitVec.ofNat 8 (prod / 256 ^ (i - 0x1C)) else r.getD i 0) ∧
         (∀ b, b < a ∨ a + 128 ≤ b → t.ldByte b = s.ldByte b)) ∧
        RestKept { s with captureQ := t.captureQ, mem := t.mem } t))) ∧
  (∀ (r : Fin 3) (v : W32) (s : State),
    let base := (v.extractLsb' 0 9).toNat
    let size := (v.extractLsb' 16 9).toNat
    let of := fun (q : Nat) => (s.rf (Reg.cbRegion q) cbRegion_BASE, s.rf (Reg.cbRegion q) cbRegion_SIZE)
    let overlap := ∃ q, q < 3 ∧ q ≠ r.val ∧ size ≠ 0 ∧ (of q).2 ≠ 0 ∧ base < (of q).1 + (of q).2 ∧ (of q).1 < base + size
    let used := (r.val = 0 ∧ ∃ e ∈ s.outQs, e.2.spill = true) ∨ (r.val = 2 ∧ s.rf Reg.capCfg capCfg_ENABLE = 1)
    let bad := 384 < base + size ∨ overlap ∨ used
    Open s (Reg.cbRegion r.val) → Ends (.cbRegionWrite r v) s fun t => { t with regs := s.regs, held := s.held } = s ∧
      (bad → ∀ q, q < 3 → t.rd (Reg.cbRegion q) = s.rd (Reg.cbRegion q)) ∧
      (¬bad → t.rf (Reg.cbRegion r.val) cbRegion_BASE = base ∧ t.rf (Reg.cbRegion r.val) cbRegion_SIZE = size)) ∧
  (∀ s : State, s.rf Reg.capCfg capCfg_ENABLE = 0 → Open s Reg.capCfg →
    let log := s.rf Reg.capCfg capCfg_LOG2_RECORDS
    (s.captureRingOk log = false ∨ log < 10 ∨ 28 < log → exec .captureEnable s = .next (s.dropHeld Reg.capCfg 1)) ∧
    (s.captureRingOk log = true → 10 ≤ log → log ≤ 28 → Ends .captureEnable s fun t =>
      t.rf Reg.capCfg capCfg_ENABLE = 1 ∧ t.rf Reg.capCfg capCfg_LOG2_RECORDS = log ∧
      t.rf Reg.capProd capProd_PROD = 0 ∧ t.rf Reg.capCons capCons_CONS = 0 ∧ { t with regs := s.regs, held := s.held } = s))

/-- R212 to R216 and R221: the order in which a decision looks for a head, and what it does with it: a head that survives
its age, a stalled class and the fence leaves its queue, is counted and goes to the egress lane of its port, or on from a
side endpoint; with none eligible nothing is sent. The
refills of the boundaries passed come first (R232), and a start moves the lane's frames on (R159).

R217, R220, R222, R223, R227, R230 and R231: the refills of shapers and policers for the 1 µs boundaries of ICT that
have passed, each once, and writes of their configurations and of a queue's weight, with the values that a write clamps;
the refills that are due come before a write. -/
def Obligations.SchedulerDecisions : Prop :=
  ((∀ (s : State) (o k : Nat),
    let classK := (s.outQ (qClassK o k)).chip ≠ [] ∧ s.kOpen o k = true
    let strict := fun (l : Nat) => s.headEligible o k (4096 + 4 * k + l) = true
    (classK → s.pickHead o k = some (qClassK o k)) ∧
    (∀ l, ¬classK → l < 4 → strict l → (∀ j, j < l → ¬strict j) → s.pickHead o k = some (qStrict o k l)) ∧
    (¬classK → (∀ l, l < 4 → ¬strict l) → s.pickHead o k = s.bestWeighted o k)) ∧
  (∀ (port : Fin 32) (sub : Fin 8) (s : State), s.stopped = false →
    let p := port.val; let k := sub.val
    let c := Instr.tmDecision port sub
    let u := ((s.startCycle (32 + p)).refillShapers (tmIsland p)).retagQueues p k
    let startable := ∃ fid ∈ (s.mac p k).waiting, s.txReady p k fid = true
    (s.linked p k = false ∨ startable ∨ s.accepts (0x31 + p / 2) = false → exec c s = .next s) ∧
    (s.linked p k = true → ¬startable → s.accepts (0x31 + p / 2) = true →
      (u.pickHead p k = none → exec c s = .next u.settle) ∧
      (∀ qn e rest, u.pickHead p k = some qn → (u.outQ qn).chip = e :: rest → u.expired (u.frame e.fid) e.mem = false →
        ((u.frame e.fid).gf sfK = 0 → u.stalled p k ((u.frame e.fid).gf sfTc) = false) → u.fence (u.frame e.fid) = none →
        EndsSettled c s fun t => (t.outQ qn).chip = rest ∧
          (∃ q : Pass, (t.lane (32 + p)).passes = (u.lane (32 + p)).passes ++ [q] ∧ q.fid = e.fid ∧ q.stage = 0 ∧ q.slot = 0) ∧
          (t.frame e.fid).data = (u.frame e.fid).data ∧ t.mem = s.mem ∧ t.threads = s.threads ∧
          t.rdN (tmCntAddr p k 0) 2 = (u.rdN (tmCntAddr p k 0) 2 + 1) % 2 ^ 40))) ∧
  (∀ (ep : Fin 8) (s : State), s.stopped = false →
    let e := ep.val
    let ready := e < 2 ∨ (s.hlUp (e - 2) = true ∧ 0 < (s.hvc (e - 2) 1).credits)
    let r := s.schedule (32 + e) 0
    (¬ready → exec (.sideSchedDecision ep) s = .next s) ∧
    (ready → r.2 = none → exec (.sideSchedDecision ep) s = .next r.1.settle) ∧
    (∀ fid, ready → r.2 = some fid → exec (.sideSchedDecision ep) s = .next (r.1.depart fid).settle))) ∧
  ((∀ (i : Fin 256) (x : Nat) (s : State), s.stopped = false → shaperExists i.val x = true →
    s.shaperBal i.val x ≤ s.shaperLimit i.val x →
    let n := s.ictNs / 1000 - Tab.get 0 s.served i.val
    Ends (.shaperRefill i) s fun t => { t with regs := s.regs, served := s.served } = s ∧ t.refillsDue i.val = 0 ∧
      t.shaperBal i.val x = min (s.shaperBal i.val x + (n * (s.rf (shaperCfgAddr i.val x) tmShaperCfg_RATE * 32) : Nat))
        (s.rf (shaperCfgAddr i.val x) tmShaperCfg_BURST * 16384 : Nat)) ∧
  (∀ (i : Fin 256) (x : Fin 12384) (v : W64) (s : State),
    let a := shaperCfgAddr i.val x.val
    Open s a →
    (shaperExists i.val x.val = false → exec (.shaperCfgWrite i x v) s = .next (s.dropHeld a 2)) ∧
    (shaperExists i.val x.val = true → Ends (.shaperCfgWrite i x v) s fun t =>
      let rate := min (v.extractLsb' 0 20).toNat 800000
      t.rf a tmShaperCfg_RATE = (if shaperIsK i.val x.val then max rate 1000 else rate) ∧
      t.rf a tmShaperCfg_EN = (v.extractLsb' 20 1).toNat ∧ t.rf a tmShaperCfg_BURST = max (v.extractLsb' 32 24).toNat 1 ∧
      t.shaperBal i.val x.val = min ((s.refillShapers i.val).shaperBal i.val x.val) (max (v.extractLsb' 32 24).toNat 1 * 16384 : Nat) ∧
      { t with regs := s.regs, served := s.served, held := s.held } = s)) ∧
  (∀ (i : Fin 256) (j : Fin 2) (q : Fin 4096) (w : BitVec 16) (s : State),
    (ownerAt i.val j.val = none → exec (.queueWeightWrite i j q w) s = .next s) ∧
    (∀ o, ownerAt i.val j.val = some o → Open s (qCfgAddr o q.val) → Ends (.queueWeightWrite i j q w) s fun t =>
      let a := qCfgAddr o q.val
      let x := s.outQ (qWeighted o q.val)
      t.rf a tmQueueCfg_WEIGHT = w.toNat ∧ t.rf a tmQueueCfg_SUBPORT = s.rf a tmQueueCfg_SUBPORT ∧
      t.outQ (qWeighted o q.val) = (if s.rf a tmQueueCfg_WEIGHT ≠ w.toNat ∧ x.active = true then { x with retag := true } else x) ∧
      { t with regs := s.regs, outQs := s.outQs, held := s.held } = s)) ∧
  (∀ (i : Fin 256) (n : Nat) (s : State), s.stopped = false → polBank i.val = true → n < 4096 →
    let a := polCfgAddr i.val n
    let b := s.pol i.val n
    let cbs := s.rf a polCfgI_CBS * 16384
    let ebs := s.rf a polCfgI_EBS * 16384
    let cir := s.rf a polCfgI_CIR
    let m := s.ictNs / 1000 - Tab.get 0 s.served (256 + i.val)
    let c := b.c + m * (cir * 32)
    b.c ≤ cbs → b.e ≤ ebs → Ends (.policerRefill i) s fun t => { t with polBal := s.polBal, served := s.served } = s ∧
      t.refillsDue (256 + i.val) = 0 ∧
      t.pol i.val n = (if s.rf a polCfgI_MODE = 0 then ⟨min c cbs, min (b.e + (c - cbs)) ebs⟩
        else ⟨min c cbs, min (b.e + m * (max cir (s.rf a polCfgI_PIR) * 32)) ebs⟩)) ∧
  (∀ (i : Fin 256) (s : State), polBank i.val = false → exec (.policerRefill i) s = .next s) ∧
  (∀ (i : Fin 256) (n : Fin 4096) (v : BitVec 128) (s : State),
    let a := polCfgAddr i.val n.val
    Open s a →
    (polBank i.val = false → exec (.policerCfgWrite i n v) s = .next (s.dropHeld a 4)) ∧
    (polBank i.val = true → Ends (.policerCfgWrite i n v) s fun t =>
      let ov := v.extractLsb' 44 8
      let cbs := max 1 (v.extractLsb' 64 24).toNat
      let b := (s.refillPolicers i.val).pol i.val n.val
      t.rf a polCfgI_CIR = (v.extractLsb' 0 20).toNat ∧ t.rf a polCfgI_PIR = (v.extractLsb' 20 20).toNat ∧
      t.rf a polCfgI_MODE = (v.extractLsb' 40 1).toNat ∧ t.rf a polCfgI_VALID = (v.extractLsb' 43 1).toNat ∧
      t.rf a polCfgI_OVERHEAD = (if ov.toInt < -64 then 0xC0 else ov.toNat) ∧
      t.rf a polCfgI_CBS = cbs ∧ t.rf a polCfgI_EBS = (v.extractLsb' 88 24).toNat ∧
      t.pol i.val n.val = ⟨min b.c (cbs * 16384), min b.e ((v.extractLsb' 88 24).toNat * 16384)⟩ ∧
      { t with regs := s.regs, polBal := s.polBal, served := s.served, held := s.held } = s)))

/-! ### Cipher engines and key slots -/

/-- R235, R236, R238, R249 and R250: the oldest waiting job of an island goes to an engine with the fewest bulk
operations; a job that has stopped leaves with its status in a record; the quantum and inline work hand an engine over; a
missed slot enters the key cache; and the configuration and CONS of a completion queue are written, or the write is ignored. -/
def Obligations.BulkJobs : Prop :=
  (∀ (c : Fin 8) (s : State), s.stopped = false →
    let count := fun (e : Nat) => (s.ciphJobs.filter fun j => j.eng = some e).length
    let b := s.bestEngine c.val
    (8 * c.val ≤ b.1 ∧ b.1 < 8 * c.val + 8 ∧ b.2 = count b.1 ∧ ∀ i, i < 8 → b.2 ≤ count (8 * c.val + i)) ∧
    ((∀ j ∈ s.ciphJobs, ¬(j.isl = c.val ∧ j.eng = none)) → exec (.ciphJobAdmit c) s = .next s) ∧
    (1024 ≤ b.2 → exec (.ciphJobAdmit c) s = .next s) ∧
    (∀ j, (s.ciphJobs.find? fun j => j.isl = c.val && j.eng.isNone) = some j → s.halting = true → j.sec = none →
      exec (.ciphJobAdmit c) s = .next s) ∧
    (∀ j, b.2 < 1024 → (s.ciphJobs.find? fun j => j.isl = c.val && j.eng.isNone) = some j → (s.halting = false ∨ j.sec ≠ none) →
      (s.engineJob b.1).isSome = true →
      Ends (.ciphJobAdmit c) s fun t => t.ciphJobs = s.ciphJobs.map (fun x => if x.id = j.id then { j with eng := some b.1 } else x) ∧
        { t with ciphJobs := s.ciphJobs, regs := s.regs } = s) ∧
    (∀ j, b.2 < 1024 → (s.ciphJobs.find? fun j => j.isl = c.val && j.eng.isNone) = some j → (s.halting = false ∨ j.sec ≠ none) →
      s.engineJob b.1 = none →
      exec (.ciphJobAdmit c) s = .next (((s.setJob { j with eng := some b.1 }).ciphCount c.val 1).runJob { j with eng := some b.1 }))) ∧
  (∀ (id : W32) (ecc : Bool) (s : State), s.stopped = false →
    let c := Instr.ciphJobComplete id ecc
    ((∀ j ∈ s.ciphJobs, j.id = id.toNat → j.sec ≠ none) → exec c s = .next s) ∧
    (∀ j, (s.ciphJobs.find? fun j => j.id = id.toNat && j.sec.isNone) = some j →
      (∀ st, j.fail = some st → (j.running = true ∨ st = 7 ∨ st = 9) → Ends c s fun t => Recorded s t j st j.written) ∧
      (j.fail = none → j.running = false → exec c s = .next s) ∧
      (∀ l src, ecc = true → j.fail = none → j.running = true → j.latch = some l → j.src = some src →
        Ends c s fun t => Recorded s t j 0x0C j.written) ∧
      (∀ l src, ecc = false → j.fail = none → j.running = true → j.latch = some l → j.src = some src → j.op = 3 →
        let d := s.cdesc j.desc
        let tag := gcmTag (aesKeys l.key) d.iv (s.ldBytes d.aad d.aadLen) (src.take d.len)
        Ends c s fun t => Recorded s t j (if tag = src.drop d.len then 0 else 1) 0))) ∧
  (∀ (e : Fin 64) (s : State), s.stopped = false →
    (s.engineJob e.val = none → exec (.quantumExpire e) s = .next s) ∧
    (∀ j, s.engineJob e.val = some j →
      let q := s.rf (Reg.ciphIslandCfg (e.val / 8)) ciphIslandCfg_QUANTUM * 1024
      (j.latch = none ∨ j.src = none ∨ j.fail ≠ none ∨ s.dataLen j ≤ j.done + q → exec (.quantumExpire e) s = .next s) ∧
      (j.latch ≠ none → j.src ≠ none → j.fail = none → j.sec = none → j.done + q < (s.cdesc j.desc).len → j.op = 3 →
        (∀ x ∈ s.ciphJobs, x.eng = some e.val → x = j) → (∀ x ∈ s.ciphJobs, x.id = j.id → x = j) → Ends (.quantumExpire e) s fun t =>
          t.ciphJobs = s.ciphJobs.map (fun x => if x.id = j.id then { j with done := j.done + q } else x) ∧
          { t with ciphJobs := s.ciphJobs } = s)) ∧
    ((s.engineJob e.val).isSome = true ∨ Tab.get [] s.ciphIn (e.val / 8) ≠ [] ∨ Tab.get [] s.ciphOut (e.val / 8) ≠ [] →
      exec (.bulkResume e) s = .next s) ∧
    (s.engineJob e.val = none → Tab.get [] s.ciphIn (e.val / 8) = [] → Tab.get [] s.ciphOut (e.val / 8) = [] →
      (s.nextJob e.val = none → exec (.bulkResume e) s = .next s) ∧
      (∀ j l, s.nextJob e.val = some j → j.latch = some l → j.eng = some e.val → Ends (.bulkResume e) s fun t =>
        t.ciphJobs = s.ciphJobs.map (fun x => if x.id = j.id then { j with running := true } else x) ∧
        Tab.get 0 t.rrEngine e.val = j.id ∧ { t with ciphJobs := s.ciphJobs, rrEngine := s.rrEngine } = s))) ∧
  (∀ (c : Fin 8) (slot : Fin 262144) (s : State), s.stopped = false → (∀ j ∈ s.ciphJobs, j.missed = false) →
    let miss := Tab.get [] s.keyMiss c.val
    let cache := Tab.get [] s.keyCache c.val
    (slot.val ∉ miss → exec (.keyCacheFill c slot) s = .next s) ∧
    (slot.val ∈ miss → cache.length < 4096 → Ends (.keyCacheFill c slot) s fun t =>
      Tab.get [] t.keyCache c.val = cache ++ [slot.val] ∧ Tab.get [] t.keyMiss c.val = miss.filter (· ≠ slot.val) ∧
      { t with keyCache := s.keyCache, keyMiss := s.keyMiss } = s)) ∧
  (∀ (q : Fin 1024) (v : W64) (s : State),
    let a := ctlAddr (0x53 + q.val / 128) (0x1000 + 16 * (q.val % 128))
    Open s a →
    let log := (v.extractLsb' 48 5).toNat
    let base := (v.extractLsb' 0 48).toNat / 64 * 64
    let on := (v.extractLsb' 53 1).toNat
    let starts := on = 1 ∧ s.rf a cqCfg_EN = 0
    let waits := ∃ j ∈ s.ciphJobs, j.cq = q.val ∧ j.sec = none
    (log < 4 ∨ 16 < log → exec (.cqCfgWrite q v) s = .next (s.dropHeld a 2)) ∧
    (waits → (starts ∨ base ≠ s.rf a cqCfg_BASE ∨ log ≠ s.rf a cqCfg_LOG2_ENTRIES) → exec (.cqCfgWrite q v) s = .next (s.dropHeld a 2)) ∧
    (4 ≤ log → log ≤ 16 → ¬waits → Ends (.cqCfgWrite q v) s fun t => t.rf a cqCfg_BASE = base ∧
      t.rf a cqCfg_LOG2_ENTRIES = log ∧ t.rf a cqCfg_EN = on ∧ { t with regs := s.regs } = s.dropHeld a 2 ∧
      (starts → t.rd (a + 8) = 0 ∧ t.rd (a + 12) = 0) ∧ (¬starts → t.rd (a + 8) = s.rd (a + 8) ∧ t.rd (a + 12) = s.rd (a + 12)))) ∧
  (∀ (q : Fin 1024) (v : W32) (s : State),
    let a := ctlAddr (0x53 + q.val / 128) (0x1000 + 16 * (q.val % 128))
    Open s a →
    let within := (v - s.rd (a + 12)).toNat ≤ (s.rd (a + 8) - s.rd (a + 12)).toNat
    Ends (.cqConsWrite q v) s fun t => t.rd (a + 12) = (if within then v else s.rd (a + 12)) ∧ t.rd (a + 8) = s.rd (a + 8) ∧
      { t with regs := s.regs } = s.dropHeld (a + 12) 1)

/-- R234, R238 and R246: the inline paths of a cipher island. With no frame waiting nothing happens; a miss of the key
cache makes the frame wait; fail-closed raises CRYPTO_CLOSED; a frame that has been opened carries a packet number that
the window accepts, and goes back to its lane one position on; one that has been encrypted goes on with its departure. -/
def Obligations.InlineCrypto : Prop :=
  ∀ (c : Fin 8) (s : State), s.stopped = false → s.accepts (0x53 + c.val) = true →
    (Tab.get [] s.ciphIn c.val = [] → exec (.inlineDecrypt c) s = .next s) ∧
    (Tab.get [] s.ciphOut c.val = [] → exec (.inlineEncrypt c) s = .next s) ∧
    (∀ x rest, Tab.get [] s.ciphIn c.val = x :: rest →
      let u : State := { s with ciphIn := Tab.set [] s.ciphIn c.val rest }
      let slot := (s.frame x.fid).gf sfKeySlot
      let svc := orderOf 0 ((s.frame x.fid).gf sfPos)
      (s.failClosed = true → EndsSettled (.inlineDecrypt c) s fun t => t = u.raiseExc x.fid 0x1E) ∧
      (s.failClosed = false → s.cached c.val slot = false → Ends (.inlineDecrypt c) s fun t =>
        slot ∈ Tab.get [] t.keyMiss c.val ∧ RestKept { s with keyMiss := t.keyMiss } t) ∧
      (∀ v, s.inlineOpen c.val svc x.fid = (v, .done) → Ends (.inlineDecrypt c) s fun t =>
        Tab.get [] t.ciphIn c.val = rest ∧ (t.lane ((s.frame x.fid).gf sfSrc / 8)).returning =
          (v.lane ((s.frame x.fid).gf sfSrc / 8)).returning ++ [⟨x.fid, x.next⟩] ∧
        (t.frame x.fid).data = (v.frame x.fid).data ∧ t.mem = s.mem)) ∧
    (∀ (svc fid : Nat) (v : State), (s.slot ((s.frame fid).gf sfKeySlot)).iar < 0x4000 → s.inlineOpen c.val svc fid = (v, .done) →
      let f := s.frame fid
      let k := s.slot (f.gf sfKeySlot)
      let iar := Reg.ciphIar c.val k.iar
      let o := if svc = 0 then s.lscOpen iar k f else s.espOpen iar k f
      s.failClosed = false ∧ k.lost = false ∧ k.st = .loaded ∧ k.iar ≠ 0x3FFF ∧
      ∃ x, o = some x ∧ x.ok = true ∧ pnRefused (s.rf iar ciphIar_TOP) (s.rf iar ciphIar_WINDOW) x.pn = false ∧
        (v.frame fid).data = x.frame.data ∧ v.mem = s.mem) ∧
    (∀ fid rest, Tab.get [] s.ciphOut c.val = fid :: rest →
      let u : State := { s with ciphOut := Tab.set [] s.ciphOut c.val rest }
      let slot := (s.frame fid).gf sfKeySlot
      let svc := orderOf 1 ((s.frame fid).gf sfPos)
      (s.failClosed = true → EndsSettled (.inlineEncrypt c) s fun t => t = u.raiseExc fid 0x1E) ∧
      (s.failClosed = false → s.cached c.val slot = false → Ends (.inlineEncrypt c) s fun t =>
        slot ∈ Tab.get [] t.keyMiss c.val ∧ RestKept { s with keyMiss := t.keyMiss } t) ∧
      (∀ v, s.inlineSeal c.val svc fid = (v, .done) → exec (.inlineEncrypt c) s =
        .next ((({ v with ciphOut := Tab.set [] v.ciphOut c.val rest } : State).advance fid (some svc)).depart fid).settle))

/-- R239 to R244 and R258: the commands of a key store block, ignored with OVERRUN while it is busy; LOAD makes a new
generation of a slot with the staged key, ERASE empties it, SET_LIMIT replaces its limit and READ_META shows it; the code
of the command stands when BUSY falls; zeroisation empties every slot; a waiting notification is posted when there is room. -/
def Obligations.KeyStoreCommands : Prop :=
  (∀ (st : Fin 2) (slot : Fin 262144) (s : State) (c : Instr) (op : Nat),
    (c = .ksLoad st slot ∧ op = 1) ∨ (c = .ksErase st slot ∧ op = 2) ∨ (c = .ksSetLimit st slot ∧ op = 3) ∨ (c = .ksReadMeta st slot ∧ op = 4) →
    let k := st.val; let n := slot.val
    let x := s.slot n
    let busy := s.rf (Reg.ksResult k) ksResult_BUSY
    let mask := s.rf (Reg.ksAttr k) ksAttr_MODE_MASK
    let wide := s.rf (Reg.ksAttr k) ksAttr_KEY256 = 1
    let limit := if s.rf (Reg.ksLimit k) ksLimit_LIMIT = 0 then 2 ^ 64 - 1 else s.rf (Reg.ksLimit k) ksLimit_LIMIT
    let accepted := fun (code : Nat) (t : State) => t.rf (Reg.ksResult k) ksResult_BUSY = 1 ∧ Tab.get 0 t.ksCode k = code ∧
      (∀ w, w < 16 → Tab.get 0 t.stage (16 * k + w) = 0) ∧ (∀ i, i / 16 ≠ k → Tab.get 0 t.stage i = Tab.get 0 s.stage i) ∧ t.mem = s.mem
    let others := fun (t : State) => ∀ m, m ≠ n → t.slot m = s.slot m
    (s.canWrite (.steward k) (Reg.ksCmd k) = false → exec c s = .next s) ∧
    (OpenTo s (.steward k) (Reg.ksCmd k) 4 →
    (busy = 1 → Ends c s fun t => t.rf (Reg.ksResult k) ksResult_OVERRUN = 1 ∧ { t with regs := s.regs } = s) ∧
    (busy = 0 →
      (s.failClosed = true → Ends c s fun t => accepted 2 t ∧ ∀ m, t.slot m = s.slot m) ∧
      (s.failClosed = false → x.st = .tail → Ends c s fun t => accepted 1 t ∧ ∀ m, t.slot m = s.slot m) ∧
      (s.failClosed = false → x.st ≠ .tail →
        (op = 1 → wide → (mask.testBit 2 = true ∨ mask.testBit 4 = true) → n % 2 = 1 → Ends c s fun t => accepted 1 t ∧ ∀ m, t.slot m = s.slot m) ∧
        (op = 1 → x.gen = 0xFFFFFFFF → ¬(wide ∧ (mask.testBit 2 = true ∨ mask.testBit 4 = true)) →
          Ends c s fun t => accepted 3 t ∧ ∀ m, t.slot m = s.slot m) ∧
        (op = 1 → x.gen < 0xFFFFFFFF → ¬(wide ∧ (mask.testBit 2 = true ∨ mask.testBit 4 = true)) → s.slotPair n = false →
          Ends c s fun t => accepted 0 t ∧ others t ∧ (t.slot n).st = .loaded ∧ (t.slot n).gen = x.gen + 1 ∧ (t.slot n).lost = false ∧
            (t.slot n).exhausted = false ∧ (t.slot n).rekeySent = false ∧ (t.slot n).usage = 0 ∧ (t.slot n).limit = limit ∧
            (t.slot n).modeMask = mask ∧ (t.slot n).iar = s.rf (Reg.ksAttr k) ksAttr_IAR ∧
            (t.slot n).keyId = s.rf (Reg.ksAttr k) ksAttr_KEY_ID ∧ ∀ i, i < 16 → (t.slot n).key.getD i 0 = (s.staged k 0).getD i 0) ∧
        (op = 2 → x.gen < 0xFFFFFFFF → s.slotPair n = false → Ends c s fun t => accepted 0 t ∧ others t ∧
          (t.slot n).st = .erased ∧ (t.slot n).key = [] ∧ (t.slot n).gen = x.gen + 1) ∧
        (op = 3 → Ends c s fun t => accepted 0 t ∧ others t ∧
          t.slot n = { x with limit := limit, exhausted := decide (limit ≤ x.usage), rekeySent := x.rekeySent && decide (limit - limit / 8 ≤ x.usage) }) ∧
        (op = 4 → Ends c s fun t => accepted 0 t ∧ t.slots = s.slots ∧
          t.rf (Reg.ksMeta k) ksMeta_META = leNat x.meta_ % 2 ^ 256))))) ∧
  (∀ (st : Fin 2) (s : State), s.stopped = false →
    (s.rf (Reg.ksResult st.val) ksResult_BUSY = 0 → exec (.ksCommandDone st) s = .next s) ∧
    (s.rf (Reg.ksResult st.val) ksResult_BUSY = 1 → Tab.get 0 s.ksCode st.val < 8 → Ends (.ksCommandDone st) s fun t =>
      t.rf (Reg.ksResult st.val) ksResult_BUSY = 0 ∧ t.rf (Reg.ksResult st.val) ksResult_CODE = Tab.get 0 s.ksCode st.val ∧
      { t with regs := s.regs } = s)) ∧
  (∀ s : State,
    (s.zeroising = none ∨ s.pstate = 3 → exec .keystoreZeroised s = .next s) ∧
    (∀ code, s.zeroising = some code → s.pstate ≠ 3 → Ends .keystoreZeroised s fun t => t.zeroising = none ∧
      (∀ n, n < 262144 → (t.slot n).st = .empty ∧ (t.slot n).key = [] ∧ (t.slot n).lost = false ∧ (t.slot n).usage = 0 ∧
        (t.slot n).gen = min 0xFFFFFFFF ((s.slot n).gen + 1)) ∧ t.keyCache = [] ∧ t.mem = s.mem)) ∧
  (∀ s : State, s.stopped = false →
    let ch := s.rf Reg.ksNotifyCfg ksNotifyCfg_CHANNEL
    (s.notify = [] → exec .notifyPost s = .next s) ∧
    (∀ w, s.notify = [w] → (s.mbox ch).ba.length < 16 → (s.mbox ch).openB < 16 → Ends .notifyPost s fun t =>
      t.notify = [] ∧ (t.mbox ch).ba = (s.mbox ch).ba ++ [⟨w % 2 ^ 32, true, false⟩] ∧ { t with notify := s.notify, mboxes := s.mboxes } = s) ∧
    (∀ w rest, s.notify = w :: rest → 16 ≤ (s.mbox ch).ba.length → exec .notifyPost s = .next s))

/-! ### Mailboxes, host links and host commands -/

/-- R369 to R371, R373 and R317: a word that the host writes joins its channel unless the queue or the open message is
full, when it is rejected with OVERRUN; a host read takes the oldest visible word, and with none reads zero and sets
UNDERFLOW; delivery makes the oldest hidden word visible, after which firmware answers a message of the host whose OP it
does not know; a flush empties both queues. -/
def Obligations.MailboxWords : Prop :=
  (∀ (h : Fin 2) (ch : Fin 16) (w : W32) (s : State) (c : Instr) (fin : Bool),
    (c = .transmitData h ch w ∧ fin = false) ∨ (c = .txEnd h ch w ∧ fin = true) →
    let k := 16 + ch.val
    let b := s.mbox k
    ((s.host h.val).up = false → exec c s = .next s) ∧
    (BarOpen s h.val 0 →
      (b.ba.length < 16 → b.openB < 16 → Ends c s fun t =>
        t.mbox k = { b with ba := b.ba ++ [⟨w.toNat, fin, false⟩], openB := if fin then 0 else b.openB + 1, emptyB := false } ∧
        (∀ m, m ≠ k → t.mbox m = s.mbox m) ∧ t.mem = s.mem ∧ t.threads = s.threads) ∧
      (16 ≤ b.ba.length ∨ 16 ≤ b.openB → Ends c s fun t => t.mbox k = { b with overrun := true } ∧
        (∀ m, m ≠ k → t.mbox m = s.mbox m) ∧ t.mem = s.mem ∧ t.threads = s.threads))) ∧
  (∀ (h : Fin 2) (ch : Fin 16) (s : State),
    let k := 16 + ch.val
    let b := s.mbox k
    ((s.host h.val).up = false → exec (.rxData h ch) s = .next s) ∧
    (BarOpen s h.val 0 →
      (∀ w rest, b.ab = w :: rest → w.seen = true → Ends (.rxData h ch) s fun t => rest <+: (t.mbox k).ab ∧ (t.mbox k).ba = b.ba ∧
        t.out.getLast? = some (.completion h.val 0 (leBytes 4 w.word)) ∧ (∀ m, m ≠ k → t.mbox m = s.mbox m) ∧ t.mem = s.mem) ∧
      ((∀ w, b.ab.head? = some w → w.seen = false) → Ends (.rxData h ch) s fun t => t.mbox k = { b with underflow := true } ∧
        t.out = s.out ++ [.completion h.val 0 [0, 0, 0, 0]] ∧ (∀ m, m ≠ k → t.mbox m = s.mbox m) ∧
        { t with mboxes := s.mboxes, out := s.out } = s))) ∧
  (∀ (ch : Fin 64) (toB : Bool) (s : State), s.stopped = false →
    let k := ch.val
    let q := fun (s : State) => if toB then (s.mbox k).ab else (s.mbox k).ba
    ((∀ w ∈ q s, w.seen = true) → exec (.mailboxDeliver ch toB) s = .next s) ∧
    (∀ seen w rest, q s = seen ++ w :: rest → (∀ x ∈ seen, x.seen = true) → w.seen = false →
      Ends (.mailboxDeliver ch toB) s fun t => ∃ u : State, q u = seen ++ { w with seen := true } :: rest ∧
        (∀ m, m ≠ k → u.mbox m = s.mbox m) ∧ u.mem = s.mem ∧
        t = if toB = false ∧ 16 ≤ k ∧ k < 32 then State.answerUnknown 16 (k - 16) u else u)) ∧
  (∀ (who : Writer) (ch : Fin 64) (s : State),
    OpenTo s (writerInit who) (ctlAddr 0x52 ((if ch.val < 16 then 0x820000 else 0x20000) + 4 * ch.val)) 4 →
    Ends (.chFlush who ch) s fun t => t.mbox ch.val = { emptyA := true, emptyB := true } ∧
      (∀ m, m ≠ ch.val → t.mbox m = s.mbox m) ∧ t.mem = s.mem ∧ t.regs = s.regs)

/-- R301 to R306, R310 to R312 and R316: accesses of the host to the control window, and to offsets without one; a
completion gives its read the data, or fails it under its own counter; a timeout fails its read and quarantines the tag;
a tag leaves quarantine when its time has passed, and not before. -/
def Obligations.HostReads : Prop :=
  (∀ (h : Fin 2) (off : BitVec 25) (len : Fin 65) (w : Option W64) (s : State),
    let o := off.toNat
    let n := len.val
    let k := h.val
    let c := Instr.controlWindowAccess h 0 off len w
    ((s.host k).up = false → exec c s = .next s) ∧
    (BarOpen s k 0 →
      (0x1000000 ≤ o → w.isSome = true → exec c s = .next (s.aer k 0 .unsupported false)) ∧
      (0x800000 ≤ o → o < 0x1000000 → n ≠ 0 → n ≠ 4 → n ≠ 8 → EndsSettled c s fun t => t = s.barBad k 0 w.isSome) ∧
      (0x800000 ≤ o → o < 0x1000000 → n = 4 ∨ n = 8 → o % n = 0 →
        (windowAddr (o - 0x800000) = none → w = none → EndsSettled c s fun t => t = s.emit (.completion k 0 (List.replicate n 0))) ∧
        (windowAddr (o - 0x800000) = none → w.isSome = true → EndsSettled c s fun t => t = s) ∧
        (w.isSome = true → (s.rdN (Reg.winWriteEn k) 4).testBit ((o - 0x800000) / 0x10000) = false →
          EndsSettled c s fun t => t = s) ∧
        (∀ a d, windowAddr (o - 0x800000) = some a → w = none → n = 4 → Open s a →
          regAt a = some d → d.1.kind = .plain → ¬(0x53000000 ≤ a ∧ a < 0x5B000000 ∧ 0x3000 ≤ a % 0x1000000) →
          EndsSettled c s fun t =>
            t = s.emit (.completion k 0 (leBytes 4 ((s.rd a).toNat &&& d.1.readMask d.2))))))) ∧
  (∀ (h : Fin 2) (tag : BitVec 14) (status : BitVec 3) (poisoned : Bool) (data : List Byte) (s : State),
    let k := h.val
    let c := Instr.hostCompletion h tag status poisoned data
    let freed := s.setTag k tag.toNat none
    ((s.host k).up = false → EndsSettled c s fun t => t = s) ∧
    ((s.host k).up = true →
      (Tab.find (s.host k).tags tag.toNat = none → EndsSettled c s fun t => t = s.aerBoth k .unexpectedCpl true) ∧
      (∀ g, Tab.find (s.host k).tags tag.toNat = some g →
        (∀ till, g.st = .quarantined till → s.ictNs < till → EndsSettled c s fun t =>
          t = (freed.hostCount k 3).aer k g.fn .unexpectedCpl true) ∧
        (∀ till, g.st = .dead till → s.ictNs < till → EndsSettled c s fun t => t = freed.hostCount k 4) ∧
        (g.st = .outstanding → (∀ T, g.timeout = some T → s.ictNs < g.issued + T) →
          (g.discard = true → EndsSettled c s fun t => t = (freed.hostCount k 13).failRead g.xfer) ∧
          (g.discard = false → status ≠ 0 →
            let told := if status = 1 then freed.cfgOr k g.fn 1 (2 ^ 29) else if status = 4 then freed.cfgOr k g.fn 1 (2 ^ 28) else freed
            EndsSettled c s fun t => t = (told.hostCount k 5).failRead g.xfer) ∧
          (g.discard = false → status = 0 → poisoned = true →
            let told := if (freed.cfg k g.fn 1).testBit 6 then freed.cfgOr k g.fn 1 (2 ^ 24) else freed
            EndsSettled c s fun t => t = ((told.hostCount k 6).aer k g.fn .poisoned true).failRead g.xfer) ∧
          (∀ r, g.discard = false → status = 0 → poisoned = false → Tab.find s.xfers g.xfer = some r → g.len ≤ data.length →
            (g.len < r.left → s.canIssue r.h r.fn r.pasid = true → EndsSettled c s fun t => Tab.find t.xfers g.xfer =
              some { r with got := r.got ++ data.take g.len, addr := r.addr + g.len, left := r.left - g.len }) ∧
            (g.len = r.left → EndsSettled c s fun t =>
              t = ({ freed with xfers := Tab.del freed.xfers g.xfer } : State).readDone r.kind r.key (some (r.got ++ data.take g.len)))))))) ∧
  (∀ (h : Fin 2) (tag : BitVec 14) (s : State),
    let k := h.val
    (Tab.find (s.host k).tags tag.toNat = none → EndsSettled (.completionTimeout h tag) s fun t => t = s) ∧
    (∀ g T, Tab.find (s.host k).tags tag.toNat = some g → g.st = .outstanding → g.timeout = some T →
      (s.ictNs < g.issued + T → EndsSettled (.completionTimeout h tag) s fun t => t = s) ∧
      (g.issued + T ≤ s.ictNs → EndsSettled (.completionTimeout h tag) s fun t => t =
        (((s.hostCount k 2).aer k g.fn .cplTimeout true).setTag k tag.toNat
          (some { g with st := .quarantined (g.issued + 3 * T) })).failRead g.xfer))) ∧
  (∀ (h : Fin 2) (tag : BitVec 14) (s : State),
    let k := h.val
    (Tab.find (s.host k).tags tag.toNat = none → EndsSettled (.tagQuarantineExpire h tag) s fun t => t = s) ∧
    (∀ g till, Tab.find (s.host k).tags tag.toNat = some g → g.st = .quarantined till ∨ g.st = .dead till →
      (s.ictNs < till → EndsSettled (.tagQuarantineExpire h tag) s fun t => t = s) ∧
      (till ≤ s.ictNs → s.readQ = [] → EndsSettled (.tagQuarantineExpire h tag) s fun t =>
        Tab.find (t.host k).tags tag.toNat = none ∧ { t with hosts := s.hosts } = s))) ∧
  (∀ (h : Fin 2) (v : W32) (s : State),
    let a := Reg.intCause h.val
    ((s.host h.val).up = false → exec (.intCauseClear h v) s = .next s) ∧
    (BarOpen s h.val 0 → Ends (.intCauseClear h v) s fun t => t.mem = s.mem ∧
      (∀ j, j < 32 → j ≠ 0 → j ≠ 2 → (t.rd a).getLsbD j = ((s.rd a).getLsbD j && !v.getLsbD j)) ∧
      (s.counterHalf = true → (t.rd a).getLsbD 2 = true)))

/-- R297, R301, R306, R312 to R316 and R410: the host links come up, lose their link and are reset; a configuration write
changes the writable bits of the enabled bytes alone; clearing Bus Master Enable and resetting a function reach its reads
and instances; unsupported requests and link errors are logged and reported. -/
def Obligations.HostLinkResets : Prop :=
  (∀ (h : Fin 2) (speed : Fin 7) (width : Fin 17) (flit : Bool) (s : State), s.pairOn = false →
    let may := s.pins.perstN[h.val] = true ∧ s.boot.phase ≠ .off ∧ s.boot.phase ≠ .monitors ∧ s.pstate < 3 ∧ speed.val ≠ 0 ∧
      width.val ∈ [1, 2, 4, 8, 16]
    (¬may → exec (.hostLinkUp h speed width flit) s = .next s) ∧
    (may → Ends (.hostLinkUp h speed width flit) s fun t => (t.host h.val).up = true ∧
      (t.rd (Reg.linkStatus h.val)).toNat = speed.val + 8 * width.val + (if flit = true ∨ speed.val = 6 then 256 else 0) + 512 ∧ t.mem = s.mem ∧
      t.insts = s.insts ∧ t.frames = s.frames)) ∧
  (∀ (h fn : Fin 2) (dw : Fin 1024) (be : BitVec 4) (v : W32) (s : State),
    let m := cfgMasks fn.val dw.val
    let c := Instr.configWrite h fn dw be v
    ((s.host h.val).up = false → EndsSettled c s fun t => t = s) ∧
    ((s.host h.val).up = true → s.entering 2 = false → (s.host h.val).flr.getLsbD fn.val = true → EndsSettled c s fun t => t = s) ∧
    ((s.host h.val).up = true → s.entering 2 = false → (s.host h.val).flr.getLsbD fn.val = false →
      (dw.val ≠ 1 → dw.val ≠ 17 → dw.val ≠ 44 → dw.val ≠ 155 → ¬(dw.val = 22 ∧ be.getLsbD 1 = true ∧ v.getLsbD 15 = true) →
        EndsSettled c s fun t => { t with hosts := s.hosts } = s ∧
          (∀ f d, (f, d) ≠ (fn.val, dw.val) → d < 1024 → t.cfg h.val f d = s.cfg h.val f d) ∧
          (∀ i, i < 32 → (t.cfg h.val fn.val dw.val).testBit i = (!(m.2.testBit i && be.getLsbD (i / 8) && v.getLsbD i) &&
            (if m.1.testBit i && be.getLsbD (i / 8) then v.getLsbD i else (s.cfg h.val fn.val dw.val).testBit i)))) ∧
      (dw.val = 22 → be.getLsbD 1 = true → v.getLsbD 15 = true → EndsSettled c s fun t => t = s.flrStart h.val fn.val))) ∧
  (∀ (h fn : Fin 2) (s : State), (s.host h.val).up = true → s.entering 2 = false → (s.host h.val).flr.getLsbD fn.val = false →
    EndsSettled (.bmeClear h fn) s (fun t => ∃ u : State, u.bme h.val fn.val = false ∧ { u with hosts := s.hosts } = s ∧
      t = (((if s.bme h.val fn.val then (u.hostEvent h.val (2 + fn.val)).bmeCleared h.val fn.val else u).sendPending h.val).updateInta h.val)) ∧
    EndsSettled (.initiateFlr h fn) s (fun t => ∃ u : State, (u.host h.val).flr.getLsbD fn.val = true ∧ { u with hosts := s.hosts } = s ∧
      t = let w := ((u.hostEvent h.val fn.val).killTags h.val [fn.val]).updateInta h.val
        if fn.val = 1 then w.resetLinkInsts h.val else w) ∧
    EndsSettled (.flrComplete h fn) s fun t => t = s) ∧
  (∀ (h fn : Fin 2) (s : State), (s.host h.val).flr.getLsbD fn.val = true →
    EndsSettled (.flrComplete h fn) s fun t => (t.host h.val).flr.getLsbD fn.val = false ∧
      (∀ f, f ≠ fn.val → (t.host h.val).flr.getLsbD f = (s.host h.val).flr.getLsbD f) ∧
      t.bme h.val fn.val = false ∧ t.msixEn h.val fn.val = false) ∧
  (∀ (h : Fin 2) (s : State), s.pairOn = false →
    let now := s.pins.perstN[h.val]
    (now = false → exec (.perstAssert h) s = .next s) ∧
    (now = true → s.boot.phase = .off →
      exec (.perstAssert h) s = .next { s with pins := { s.pins with perstN := s.pins.perstN.set h.val false } }) ∧
    (now = true → s.boot.phase ≠ .off → EndsSettled (.perstAssert h) s fun t => ∃ u : State,
      u.pins = { s.pins with perstN := s.pins.perstN.set h.val false } ∧
      (u.host h.val).up = false ∧ u.rd (Reg.linkStatus h.val) = 0 ∧ RestKept { s with pins := u.pins, hosts := u.hosts } u ∧
      (s.pstate < 2 → t = (u.perstEffects h.val).pairUpdate) ∧
      (2 ≤ s.pstate → ∃ v : State, v.power.perst.getLsbD h.val = true ∧ { v with power := u.power } = u ∧ t = v.pairUpdate)) ∧
    (now = true → exec (.perstRelease h) s = .next s) ∧
    (now = false →
      let u : State := { s with pins := { s.pins with perstN := s.pins.perstN.set h.val true, wakeLow := false } }
      exec (.perstRelease h) s = .next (if s.entering 3 = true then u.latchWake (3 + h.val) 0 0 0 else u)) ∧
    ((s.host h.val).up = false ∨ now = false → exec (.hostLinkLoss h) s = .next s) ∧
    ((s.host h.val).up = true → now = true → EndsSettled (.hostLinkLoss h) s fun t => ∃ u : State, (u.host h.val).up = false ∧
      u.rd (Reg.linkStatus h.val) = 0 ∧ u.rf (Reg.hostEvent h.val) ⟨5, 1⟩ = 1 ∧
      u.rdN (Reg.hostCnt h.val 14) 2 = (s.rdN (Reg.hostCnt h.val 14) 2 + 1) % 2 ^ 40 ∧
      t = ((u.killTags h.val [0, 1]).resetLinkInsts h.val).pairUpdate)) ∧
  (∀ (h : Fin 2) (fn : Fin 3) (posted : Bool) (s : State),
    let c := Instr.unsupportedRequest h fn posted
    ((s.host h.val).up = false → exec c s = .next s) ∧
    ((s.host h.val).up = true → fn.val < 2 → (s.host h.val).flr.getLsbD fn.val = true →
      exec c s = .next (if posted then s else { s with out := s.out ++ [.completion h.val 1 []] })) ∧
    ((s.host h.val).up = true → (fn.val < 2 → (s.host h.val).flr.getLsbD fn.val = false) → Ends c s fun t =>
      (∀ f, f < 2 → f = fn.val ∨ fn.val = 2 → (t.cfg h.val f 65).testBit 20 = true) ∧
      { t with hosts := s.hosts, out := s.out, free := s.free } = s ∧ (posted = false → .completion h.val 1 [] ∈ t.out))) ∧
  (∀ (h : Fin 2) (kind : Fin 12) (s : State),
    ((s.host h.val).up = false → exec (.receiverError h kind) s = .next s) ∧
    ((s.host h.val).up = true → kind.val < 10 → Ends (.receiverError h kind) s fun t => { t with hosts := s.hosts, out := s.out } = s ∧
      ∀ f, f < 2 → ∃ d b, (kind.val, d, b) ∈ [(0, 68, 0), (1, 68, 6), (2, 68, 7), (3, 68, 12), (4, 68, 8), (5, 68, 15),
        (6, 65, 18), (7, 65, 17), (8, 65, 13), (9, 65, 4)] ∧ (t.cfg h.val f d).testBit b = true) ∧
    ((s.host h.val).up = true → 10 ≤ kind.val → (s.host h.val).flr.getLsbD (kind.val - 10) = true →
      exec (.receiverError h kind) s = .next s) ∧
    ((s.host h.val).up = true → 10 ≤ kind.val → (s.host h.val).flr.getLsbD (kind.val - 10) = false →
      Ends (.receiverError h kind) s fun t => (t.cfg h.val (kind.val - 10) 65).testBit 12 = true ∧
        { t with hosts := s.hosts, out := s.out, free := s.free } = s))

/-- R320 to R322, R348 and R350 to R352: the host commands on instances. One is discarded before READY; a TAG that is
outstanding answers BUSY; a command on a FREE instance answers BAD_STATE and one on another link's BAD_ARG; VI_CREATE makes
the instance ACTIVE, VI_DESTROY frees a quiesced one with a new generation, VI_DB_STOP and VI_DB_START change its state,
VI_RESET resets it, VI_QOS sets the shaper or the weight. -/
def Obligations.InstanceCommands : Prop :=
  ∀ (ch : Fin 16) (tag : Byte) (ws : List W32) (s : State),
    let n := ch.val; let h := n / 8; let g := tag.toNat
    let u := fun op => s.takeMessage n (cmdMsg op tag ws)
    let i := cmdWord ws 1 % 4096
    let x := s.inst i
    let usable := i ≠ 0 ∧ x.st ≠ .free ∧ x.st ≠ .resetting ∧ x.link = h
    (∀ c op, (c, op) ∈ instRows ch tag ws →
      (s.stopped = true ∨ s.rf (Reg.devStatus h) devStatus_READY = 0 → exec c s = .next s) ∧
      (∀ y ∈ s.hostCmds, s.stopped = false → s.rf (Reg.devStatus h) devStatus_READY = 1 → y.ch = n → y.tag = g →
        Ends c s fun t => Answered (u op) t n op g 5 []) ∧
      (Serves s n → op ≠ 0x10 → i = 0 → Ends c s fun t => Answered (u op) t n op g 2 []) ∧
      (Serves s n → op ≠ 0x10 → i ≠ 0 → x.st = .free → Ends c s fun t => Answered (u op) t n op g 3 []) ∧
      (Serves s n → op ≠ 0x10 → i ≠ 0 → x.st ≠ .free → x.link ≠ h → Ends c s fun t => Answered (u op) t n op g 2 [])) ∧
    (Serves s n →
      (let qm := cmdWord ws 1 / 2 ^ 12 % 512
       let pasid := cmdWord ws 2 % 2 ^ 20
       let valid := i ≠ 0 ∧ 1 ≤ qm ∧ qm ≤ 256 ∧ pasid ≠ 0
       (¬valid → Ends (.viCreate ch tag ws) s fun t => Answered (u 0x10) t n 0x10 g 2 []) ∧
       (valid → x.st ≠ .free → Ends (.viCreate ch tag ws) s fun t => Answered (u 0x10) t n 0x10 g 3 []) ∧
       (valid → x.st = .free → Ends (.viCreate ch tag ws) s fun t => ∃ v : State, Answered v t n 0x10 g 0 [x.gen] ∧
         (v.inst i).st = .active ∧ (v.inst i).link = h ∧ (v.inst i).pasid = pasid ∧ (v.inst i).qpMax = qm ∧
         (v.inst i).gen = x.gen ∧ (v.inst i).intrRate = cmdWord ws 3 % 65536 ∧
         (v.inst i).intrBurst = max 1 (cmdWord ws 3 / 65536 % 256) ∧ (∀ j, j ≠ i → v.inst j = s.inst j) ∧ v.qps = s.qps)) ∧
      (usable →
        (x.st ≠ .quiesced ∨ s.inflight i ≠ 0 → Ends (.viDestroy ch tag ws) s fun t => Answered (u 0x11) t n 0x11 g 3 []) ∧
        (x.st = .quiesced → s.inflight i = 0 → s.genWrap i = true → Ends (.viDestroy ch tag ws) s fun t =>
          Answered (u 0x11) t n 0x11 g 7 []) ∧
        (x.st = .quiesced → s.inflight i = 0 → s.genWrap i = false → Ends (.viDestroy ch tag ws) s fun t => ∃ v : State,
          Answered v t n 0x11 g 0 [nextGen x.gen] ∧ (v.inst i).st = .free ∧ (v.inst i).gen = nextGen x.gen ∧
          ∀ k, k / 256 = i → v.qp k = none) ∧
        (x.st = .active → Ends (.viDbStop ch tag ws) s fun t =>
          Answered ((u 0x12).setInst i { x with st := .quiesced }) t n 0x12 g 0 []) ∧
        (x.st = .quiesced → Ends (.viDbStop ch tag ws) s fun t => Answered (u 0x12) t n 0x12 g 3 []) ∧
        (x.st = .quiesced → Ends (.viDbStart ch tag ws) s fun t =>
          Answered ((u 0x13).setInst i { x with st := .active }) t n 0x13 g 0 []) ∧
        (x.st = .active → Ends (.viDbStart ch tag ws) s fun t => Answered (u 0x13) t n 0x13 g 3 []) ∧
        (s.genWrap i = true → Ends (.viReset ch tag ws) s fun t => Answered (u 0x14) t n 0x14 g 7 []) ∧
        (s.genWrap i = false → Ends (.viReset ch tag ws) s fun t => (t.inst i).st = .resetting ∧ (t.inst i).back = x.st ∧
          (t.inst i).gen = nextGen x.gen ∧ t.hostCmds = [⟨n, 0x14, g, i, 0, 0⟩]) ∧
        (let ty := cmdWord ws 2 % 2 ^ 21 + 2 ^ 32 * (cmdWord ws 3 % 2 ^ 24)
         let t5 := cmdWord ws 1 / 4096 % 32
         (16 < t5 → Ends (.viQos ch tag ws) s fun t => Answered (u 0x15) t n 0x15 g 2 []) ∧
         (t5 < 16 → Ends (.viQos ch tag ws) s fun t => Answered ((u 0x15).shaperCfgSet (0x31 + t5) (8256 + i) ty) t n 0x15 g 0 []) ∧
         (t5 = 16 → Ends (.viQos ch tag ws) s fun t => ∃ v : State, Answered v t n 0x15 g 0 [] ∧
           v.rf (qCfgAddr (32 + h) i) tmQueueCfg_WEIGHT = cmdWord ws 4 % 65536))))

/-- R325, R329, R346, R349 to R351: the host commands on queue pairs. QP_CREATE makes a disabled queue pair with its rings
and the lowest queue numbers not in use; QP_DESTROY removes an idle one, QP_START runs it, QP_STOP and QP_ABORT stop it
with reason COMMAND, QP_DRAIN drains a running one until it is done or its limit passes; INTR_BIND binds a source. -/
def Obligations.QueuePairCommands : Prop :=
  (∀ (ch : Fin 16) (tag : Byte) (ws : List W32) (s : State), Serves s ch.val →
    let n := ch.val; let h := n / 8; let g := tag.toNat
    let u := fun op => s.takeMessage n (cmdMsg op tag ws)
    let i := cmdWord ws 1 % 4096
    let loc := cmdWord ws 1 / 4096 % 256
    let k := 256 * i + loc
    let x := s.inst i
    i ≠ 0 → x.st ≠ .free → x.st ≠ .resetting → x.link = h →
    (let w := cmdWord ws
     let lt := w 4 / 2 ^ 8 % 16; let lb := w 4 / 2 ^ 12 % 16; let lc := w 4 / 2 ^ 16 % 16
     let buf := w 4 / 2 ^ 20 % 128
     let tx := w 6 + 2 ^ 32 * w 7; let cb := w 8 + 2 ^ 32 * w 9; let rb := w 10 + 2 ^ 32 * w 11; let rc := w 12 + 2 ^ 32 * w 13
     let zero := w 1 < 2 ^ 23 ∧ w 2 < 2 ^ 23 ∧ w 3 < 2 ^ 28 ∧ w 4 < 2 ^ 27 ∧ w 5 < 2 ^ 10
     let sized := 6 ≤ lt ∧ lt ≤ 14 ∧ 6 ≤ lb ∧ lb ≤ 14 ∧ 6 ≤ lc ∧ lc ≤ 14 ∧ 1 ≤ buf ∧ buf ≤ 64
     let aligned := tx % max 4096 (32 * 2 ^ lt) = 0 ∧ rb % max 4096 (16 * 2 ^ lb) = 0 ∧ rc % max 4096 (32 * 2 ^ lc) = 0 ∧ cb % 256 = 0
     (¬(zero ∧ sized ∧ aligned) → Ends (.qpCreate ch tag ws) s fun t => Answered (u 0x20) t n 0x20 g 2 []) ∧
     (zero → sized → aligned → x.qpMax ≤ loc → Ends (.qpCreate ch tag ws) s fun t => Answered (u 0x20) t n 0x20 g 4 []) ∧
     (zero → sized → aligned → loc < x.qpMax → (s.qp k).isSome = true → Ends (.qpCreate ch tag ws) s fun t =>
       Answered (u 0x20) t n 0x20 g 3 []) ∧
     (zero → sized → aligned → loc < x.qpMax → s.qp k = none → s.qps.length < 65536 → Ends (.qpCreate ch tag ws) s fun t =>
       ∃ (v : State) (q : QPair), Answered v t n 0x20 g 0 [q.txq + 65536 * q.rxq] ∧ v.qp k = some q ∧ (∀ j, j ≠ k → v.qp j = s.qp j) ∧
         (∀ e ∈ s.qps, e.2.txq ≠ q.txq ∧ e.2.rxq ≠ q.rxq) ∧ q.st = 0 ∧ q.tx = { base := tx, log2 := lt } ∧
         q.buf = { base := rb, log2 := lb } ∧ q.cpl = { base := rc, log2 := lc } ∧ q.cb = cb ∧ q.bufSize = 1024 * buf ∧
         q.flowClass = w 2 % 1024 ∧ q.dst = w 2 / 2 ^ 13 % 1024)) ∧
    (s.qp k = none → ∀ c op, (c, op) ∈ instRows ch tag ws → 0x21 ≤ op → op ≤ 0x25 → Ends c s fun t =>
      Answered (u op) t n op g (if x.qpMax ≤ loc then 4 else 3) []) ∧
    (∀ q, s.qp k = some q →
      let idle := q.st = 0 ∨ q.st = 2
      (idle → Ends (.qpDestroy ch tag ws) s fun t => ∃ v : State, Answered v t n 0x21 g 0 [] ∧ v.qp k = none) ∧
      (¬idle → Ends (.qpDestroy ch tag ws) s fun t => Answered (u 0x21) t n 0x21 g 3 []) ∧
      (idle → Ends (.qpStart ch tag ws) s fun t => ∃ v : State, Answered v t n 0x22 g 0 [] ∧ (v.qp k).map (fun q => q.st) = some 1) ∧
      (¬idle → Ends (.qpStart ch tag ws) s fun t => Answered (u 0x22) t n 0x22 g 3 []) ∧
      (idle → Ends (.qpStop ch tag ws) s fun t => Answered (u 0x23) t n 0x23 g 0 []) ∧
      (¬idle → Ends (.qpStop ch tag ws) s fun t => ∃ v : State, Answered v t n 0x23 g 0 [] ∧
        (v.qp k).map (fun q => (q.st, q.reason)) = some (2, 1)) ∧
      (q.st ≠ 1 → Ends (.qpDrain ch tag ws) s fun t => Answered (u 0x24) t n 0x24 g 3 []) ∧
      (q.st = 1 →
        let us := cmdWord ws 2 % 2 ^ 20
        Ends (.qpDrain ch tag ws) s fun t => (t.qp k).map (fun q => (q.st, q.drainTail)) = some (3, some q.tx.tail) ∧
          t.hostCmds = [⟨n, 0x24, g, i, loc, s.ictNs + 1000 * (if us = 0 then 10000 else us)⟩]) ∧
      (idle → q.deliv = [] → Ends (.qpAbort ch tag ws) s fun t => Answered (u 0x25) t n 0x25 g 0 []) ∧
      (¬idle → Ends (.qpAbort ch tag ws) s fun t => ∃ v : State, Answered v t n 0x25 g 0 [] ∧
        (v.qp k).map (fun q => (q.st, q.reason)) = some (2, 1))) ∧
    (let r := if (cmdWord ws 1).testBit 20 then 2 else 0
     let store := (cmdWord ws 1).testBit 21
     let e := cmdWord ws 2 % 65536
     let mc := cmdWord ws 2 / 65536 % 512
     let mt := cmdWord ws 3 % 1024
     let valid := (store = true ∨ e < 2048) ∧ 1 ≤ mc ∧ mc ≤ 256 ∧ mt ≤ 1000
     let owner := (Tab.get {} (if store then (s.host h).store else (s.host h).msix1) e).owner
     (¬valid → Ends (.intrBind ch tag ws) s fun t => Answered (u 0x26) t n 0x26 g 2 []) ∧
     (valid → s.qp k = none → Ends (.intrBind ch tag ws) s fun t => Answered (u 0x26) t n 0x26 g (if x.qpMax ≤ loc then 4 else 3) []) ∧
     (valid → (s.qp k).isSome = true → owner ≠ 0 ∧ owner ≠ i → Ends (.intrBind ch tag ws) s fun t => Answered (u 0x26) t n 0x26 g 3 []) ∧
     (∀ q, valid → s.qp k = some q → (q.ring r).src = none → owner = 0 ∨ owner = i → Ends (.intrBind ch tag ws) s fun t =>
       ∃ v : State, Answered v t n 0x26 g 0 [] ∧
         (v.qp k).map (fun q => (q.ring r).src) = some (some ⟨store, e, mc, mt, (cmdWord ws 3).testBit 10, true, 0, none⟩) ∧
         (Tab.get {} (if store then (v.host h).store else (v.host h).msix1) e).owner = i))) ∧
  (∀ (i : Fin 4096) (loc : Fin 256) (s : State), s.stopped = false → s.cmdWait = [] →
    let k := 256 * i.val + loc.val
    (s.qp k = none → exec (.qpDrainDone i loc) s = .next s) ∧
    (∀ q, s.qp k = some q →
      let served := q.work = true ∨ (q.tx.done = q.txLimit ∧ q.chain = [])
      (q.st ≠ 3 ∨ ¬served ∨ q.deliv ≠ [] → exec (.qpDrainDone i loc) s = .next s) ∧
      (∀ c, q.st = 3 → served → q.deliv = [] → (s.hostCmds.find? fun c => c.inst = i.val ∧ c.op = 0x24) = some c →
        Ends (.qpDrainDone i loc) s fun t => ∃ v : State, Answered v t c.ch 0x24 c.tag 0 [] ∧
          v.hostCmds = s.hostCmds.erase c ∧ (v.qp k).map (fun q => (q.st, q.reason)) = some (2, 1))) ∧
    ((∀ c ∈ s.hostCmds, ¬(c.inst = i.val ∧ c.op = 0x24 ∧ c.loc = loc.val)) → exec (.qpDrainTimeout i loc) s = .next s) ∧
    (∀ c, s.hostCmds = [c] → c.inst = i.val → c.op = 0x24 → c.loc = loc.val →
      (s.ictNs < c.till → exec (.qpDrainTimeout i loc) s = .next s) ∧
      (∀ q, c.till ≤ s.ictNs → s.qp k = some q → q.st = 3 → Ends (.qpDrainTimeout i loc) s fun t => ∃ v : State,
        Answered v t c.ch 0x24 c.tag 8 [] ∧ v.hostCmds = [] ∧ (v.qp k).map (fun q => (q.st, q.reason)) = some (2, 1))))

/-- R107, R348 to R354 and R427: the host commands on the device, and the end of an instance reset: STALE has drained, or
1 ms has passed and RESET_SLOW is answered; a message whose OP firmware does not know is answered BAD_OP once its last word
is visible. A failed image read, and a ROLLBACK_COMMIT during another fuse operation,
answer with a free status (the spec names none; log entry 90). -/
def Obligations.DeviceCommands : Prop :=
  (∀ (ch : Fin 16) (tag : Byte) (ws : List W32) (s : State), Serves s ch.val →
    let n := ch.val; let h := n / 8; let g := tag.toNat
    let u := fun op => s.takeMessage n (cmdMsg op tag ws)
    let w := cmdWord ws
    Ends (.devInfo ch tag) s (fun t => Answered (s.takeMessage n [1 + 256 * g]) t n 1 g 0
      [s.boot.buildId, (s.rd Reg.fmtGen).toNat % 2 ^ 24, 65536 - s.qps.length]) ∧
    EndsSettled (.clusterRestart ch tag ws) s (fun t => Answered ((u 0x30).clusterRestart (w 1 % 16)) t n 0x30 g 0 []) ∧
    (let v := u 0x31
     let size := 2 ^ s.rf Reg.capCfg capCfg_LOG2_RECORDS
     let prod := s.rf Reg.capProd capProd_PROD
     let cons := s.rf Reg.capCons capCons_CONS
     let left := (prod + 2 ^ 32 - cons) % 2 ^ 32
     let first := if size < left then (prod + 2 ^ 32 - size) % 2 ^ 32 else cons
     let num := min (min left size) (w 3 % 2 ^ 24)
     (s.canIssue h 0 0 = false → Ends (.captureExport ch tag ws) s fun t => Answered v t n 0x31 g 0 [0, first]) ∧
     (s.canIssue h 0 0 = true → Ends (.captureExport ch tag ws) s fun t => ∃ x : State, Answered x t n 0x31 g 0 [num, first] ∧
       x.rf Reg.capCons capCons_CONS = (first + num) % 2 ^ 32 ∧ x.mem = s.mem)) ∧
    (let slot := w 1 % 2
     let valid := 1 ≤ w 5 ∧ w 5 ≤ 1048576 ∧ w 2 + w 5 ≤ 0x4000000
     (¬valid → EndsSettled (.imgWrite ch tag ws) s fun t => Answered (u 0x40) t n 0x40 g 2 []) ∧
     (valid → slot = s.rf Reg.bootStatus bootStatus_SLOT → EndsSettled (.imgWrite ch tag ws) s fun t =>
       Answered (u 0x40) t n 0x40 g 3 []) ∧
     (valid → slot ≠ s.rf Reg.bootStatus bootStatus_SLOT → s.canIssue h 0 0 = true → EndsSettled (.imgWrite ch tag ws) s fun t =>
       t.hostCmds = [⟨n, 0x40, g, 4096, slot, s.ictNs + 10000000000⟩] ∧ Tab.find t.xfers s.nextXfer =
         some ⟨h, 0, 0, w 3 + 2 ^ 32 * w 4, w 5, [], .imgWrite, 4096 * w 2 + 256 * n + g⟩) ∧
     (valid → slot ≠ s.rf Reg.bootStatus bootStatus_SLOT → s.canIssue h 0 0 = false → EndsSettled (.imgWrite ch tag ws) s fun t =>
       Answered { u 0x40 with free := s.free + 1 } t n 0x40 g (Config.freeByte s.free).toNat [])) ∧
    (∀ (image : List Byte) (ok : Bool),
     let c := Instr.imgActivate ch tag ws image ok
     (ok = false ∨ (s.imageFault image).isSome = true → EndsSettled c s fun t => Answered (u 0x41) t n 0x41 g 2 []) ∧
     (ok = true → s.imageFault image = none → s.rf Reg.pwrStatus pwrStatus_BUSY = 0 → EndsSettled c s fun t => ∃ v : State,
       v.boot = { s.boot with force := some (w 1 % 2) } ∧ v.out.getLast? = some (.flash 2 0 (selectorBytes (w 1 % 2))) ∧
       Answered v.restart t n 0x41 g 0 [])) ∧
    (s.rf Reg.fuseResult fuseResult_BUSY = 1 → EndsSettled (.rollbackCommit ch tag ws) s fun t =>
      Answered { u 0x42 with free := s.free + 1 } t n 0x42 g (Config.freeByte s.free).toNat []) ∧
    (s.rf Reg.fuseResult fuseResult_BUSY = 0 → EndsSettled (.rollbackCommit ch tag ws) s fun t =>
      t.hostCmds = [⟨n, 0x42, g, 4096, 0, s.ictNs + 2000000⟩] ∧ t.rd Reg.fuseData = BitVec.ofNat 32 s.boot.rollback)) ∧
  (∀ (inst : Fin 4096) (s : State), s.stopped = false → s.cmdWait = [] →
    let i := inst.val
    let x := s.inst i
    (x.st ≠ .resetting → exec (.resetStaleDrained inst) s = .next s ∧ exec (.resetSlow inst) s = .next s) ∧
    (s.staleWork i ≠ 0 → exec (.resetStaleDrained inst) s = .next s) ∧
    (∀ c, x.st = .resetting → s.staleWork i = 0 → (s.hostCmds.find? fun c => c.inst = i ∧ c.op = 0x14) = some c →
      Ends (.resetStaleDrained inst) s fun t => Answered ({ s.setInst i { x with st := x.back, resetAt := none, hold := false } with
        hostCmds := s.hostCmds.erase c }) t c.ch 0x14 c.tag 0 [x.gen, 0]) ∧
    (∀ c t0, x.st = .resetting → x.resetAt = some t0 → s.staleWork i ≠ 0 →
      (s.ictNs < t0 + 1000000 → exec (.resetSlow inst) s = .next s) ∧
      (t0 + 1000000 ≤ s.ictNs → (s.hostCmds.find? fun c => c.inst = i ∧ c.op = 0x14) = some c → Ends (.resetSlow inst) s fun t =>
        Answered ({ s.setInst i { x with st := x.back, resetAt := none, resetSlow := true } with
          hostCmds := s.hostCmds.erase c }) t c.ch 0x14 c.tag 6 [x.gen, s.blocks i]))) ∧
  (∀ (ch : Fin 16) (ms : List MbWord) (f w : MbWord) (s : State),
    let b := s.mbox (16 + ch.val)
    s.stopped = false → s.rf (Reg.devStatus (ch.val / 8)) devStatus_READY = 1 →
    b.ba = ms ++ [w] → (ms ++ [w]).head? = some f → (∀ y ∈ ms, y.seen = true ∧ y.fin = false) → w.seen = false → w.fin = true →
    f.word % 256 ∉ hostOps → b.ab.length < 16 → b.openA < 16 → (∀ r ∈ s.replies, r.1 ≠ 16 + ch.val) →
    Ends (.mailboxDeliver ⟨16 + ch.val, by omega⟩ false) s fun t => (t.mbox (16 + ch.val)).ba = [] ∧
      (t.mbox (16 + ch.val)).ab.map (fun y => (y.word, y.fin)) =
        b.ab.map (fun y => (y.word, y.fin)) ++ [(f.word % 256 + 256 * (f.word / 256 % 256) + 65536 * 1, true)])

/-! ### Rings, sessions and ingest -/

/-- R304 and R330 to R333: a doorbell is ignored while the link is down, counted where it is not accepted, and else gives
its ring a TAIL; one beyond the ring stops the queue pair with INDEX, and the fetch form reads the control block. -/
def Obligations.Doorbells : Prop :=
  ∀ (h : Fin 2) (inst : Fin 4096) (loc : Fin 256) (len : Nat) (v : W64) (s : State) (c : Instr) (r : Nat),
    (c = .doorbellTx h inst loc len v ∧ r = 0) ∨ (c = .doorbellBuf h inst loc len v ∧ r = 1) ∨
      (c = .doorbellCpl h inst loc len v ∧ r = 2) →
    let i := inst.val
    let k := 256 * i + loc.val
    let x := s.inst i
    let open_ := x.st = .active ∧ s.rf (Reg.devStatus h.val) devStatus_READY = 1 ∧
      x.link = h.val ∧ i ≠ 0 ∧ s.dstate h.val 1 = 0
    ((s.host h.val).up = false → exec c s = .next s) ∧
    ((s.host h.val).up = true → (s.host h.val).flr.getLsbD 1 = true →
      exec c s = .next (if x.st = .active then s.hostCount h.val 7 else (s.hostCount h.val 7).dbBad i)) ∧
    ((s.host h.val).up = true → (s.host h.val).flr.getLsbD 1 = false → s.mse h.val 1 = false →
      exec c s = .next (s.aer h.val 1 .unsupported false)) ∧
    ((s.host h.val).up = true → (s.host h.val).flr.getLsbD 1 = false → s.mse h.val 1 = true →
      (¬(len = 4 ∨ (len = 8 ∧ r ≠ 1)) → exec c s = .next (s.barBad h.val 1 true)) ∧
      (len = 4 →
        (x.st ≠ .active → Ends c s fun t => (t.inst i).dbBad = (x.dbBad + 1) % 2 ^ 32 ∧
          t.rdN (Reg.hostCnt h.val 7) 2 = (s.rdN (Reg.hostCnt h.val 7) 2 + 1) % 2 ^ 40 ∧ { t with regs := s.regs, insts := s.insts } = s) ∧
        (open_ →
          (s.qp k = none → Ends c s fun t => (t.inst i).dbBad = (x.dbBad + 1) % 2 ^ 32 ∧ { t with insts := s.insts } = s) ∧
          (∀ q, s.qp k = some q →
            let y := q.ring r
            let t' := v.toNat % 2 ^ 32
            let fits := if r = 2 then (y.pub + 32768 - t' % 32768) % 32768 ≤ 2 ^ y.log2 else (t' + 32768 - y.pub % 32768) % 32768 ≤ 2 ^ y.log2
            let moves := (t' + 32768 - y.tail % 32768) % 32768 ≤ 2 ^ y.log2
            (q.st ≠ 1 → q.st ≠ 3 → exec c s = .next (s.dbBad i)) ∧
            (q.st = 1 ∨ q.st = 3 → v.getLsbD 16 = false → 131072 ≤ t' ∨ (32768 ≤ t' ∧ t' ≠ 0xFFFF) → exec c s = .next (s.dbBad i)) ∧
            (q.st = 1 ∨ q.st = 3 → t' < 32768 → moves → fits → t' = y.tail → exec c s = .next s) ∧
            (q.st = 1 ∨ q.st = 3 → t' < 32768 → moves → fits → t' ≠ y.tail → exec c s = .next
              (let u := s.setQp k (q.setRing r { y with tail := t' })
               if r ≠ 0 then u.pumpQ k else if q.work then u.raiseGroup q.group else u)) ∧
            (q.st = 1 ∨ q.st = 3 → t' < 32768 → ¬moves ∨ ¬fits → Ends c s fun t =>
              (t.qp k).map (fun q => (q.st, q.reason)) = some (2, 5)) ∧
            (q.st = 1 ∨ q.st = 3 → t' = 0xFFFF → s.canIssue h.val 1 x.pasid = true → Ends c s fun t =>
              Tab.find t.xfers s.nextXfer = some ⟨h.val, 1, x.pasid, q.cb + 64 * r, 2, [], .ctrlBlock, 4 * k + r⟩) ∧
            (q.st = 1 ∨ q.st = 3 → t' = 0xFFFF → s.canIssue h.val 1 x.pasid = false → exec c s = .next (s.qpHostErr k))))))

/-- R327, R328, R333 to R338, R343, R346 and R347: a ring publishes HEAD; a source fires when MOD_TIME has passed; the tokens
of each 1 µs boundary that has passed come to the interrupt bucket; a running queue pair reads its next posted descriptor; a chain read whole becomes a
satchel; frames that have waited STARVE are dropped, in DROPS
unless the fence discards them. -/
def Obligations.RingEvents : Prop :=
  ∀ (inst : Fin 4096) (loc : Fin 256) (s : State), s.stopped = false →
    let i := inst.val
    let k := 256 * i + loc.val
    let h := (s.inst i).link
    let pasid := (s.inst i).pasid
    (s.qp k = none → ∀ ring : Fin 3, exec (.headPublish inst loc ring) s = .next s ∧ exec (.modTimeExpire inst loc ring) s = .next s ∧
      exec (.txDescriptorFetch inst loc) s = .next s ∧ exec (.txChainAttach inst loc) s = .next s ∧ exec (.starveExpire inst loc) s = .next s) ∧
    (∀ q, s.qp k = some q →
      (∀ ring : Fin 3,
        let r := ring.val
        let x := q.ring r
        (s.canIssue h 1 pasid = false ∨ (r = 0 ∧ q.work = true) → exec (.headPublish inst loc ring) s = .next s) ∧
        (s.canIssue h 1 pasid = true → s.dstate h 1 = 0 → ¬(r = 0 ∧ q.work = true) → q.cb % 256 = 0 → Ends (.headPublish inst loc ring) s fun t =>
          (t.qp k).map (fun q => (q.ring r).pub) = some x.done ∧
          .hostWrite h 1 pasid false (q.cb + 64 * r + 0x20) (leBytes 2 x.done ++ leBytes 1 q.st ++ leBytes 1 q.reason ++
            leBytes 4 (if r = 2 then q.drops else 0) ++ leBytes 8 (s.clock.tod / 2 ^ 24)) ∈ t.out ∧ t.mem = s.mem) ∧
        (x.src = none → exec (.modTimeExpire inst loc ring) s = .next s) ∧
        (∀ y, x.src = some y →
          let due := ∃ t0, y.till = some t0 ∧ t0 ≤ s.ictNs
          (y.armed = false ∨ y.events = 0 ∨ (y.events < y.modCount ∧ ¬due) → exec (.modTimeExpire inst loc ring) s = .next s) ∧
          (y.armed = true → y.events ≠ 0 → due → exec (.modTimeExpire inst loc ring) s = .next
            ((s.setQp k (q.setRing r { x with src := some { y with events := 0, till := none, armed := y.autoArm } })).fireSource i
              (2 * loc.val + if r = 0 then 0 else 1))))) ∧
      (let idle := q.work = true ∨ q.busy = true ∨ q.ready = true ∨ (q.st ≠ 1 ∧ q.st ≠ 3) ∨ q.tx.next = q.drainTail.getD q.tx.tail
       (idle → exec (.txDescriptorFetch inst loc) s = .next s) ∧
       (¬idle → s.canIssue h 1 pasid = true → Ends (.txDescriptorFetch inst loc) s fun t => (t.qp k).map (fun q => q.busy) = some true ∧
         Tab.find t.xfers s.nextXfer = some ⟨h, 1, pasid, q.tx.base + 32 * (q.tx.next % 2 ^ q.tx.log2), 32, [], .txDesc, k⟩ ∧ t.mem = s.mem) ∧
       (¬idle → s.canIssue h 1 pasid = false → Ends (.txDescriptorFetch inst loc) s fun t =>
         (t.qp k).map (fun q => (q.st, q.reason)) = some (2, 3))) ∧
      (q.ready = false → exec (.txChainAttach inst loc) s = .next s) ∧
      (q.ready = true → bit (txFlags (q.chain.headD [])) 2 = false →
        let d := q.chain.headD []
        let a := s.txAttach k q d q.data
        let u := a.1.setQp k { q with chain := [], data := [], ready := false }
        (u.frame a.2).data = q.data ∧ (u.frame a.2).gf sfFlowClass = q.flowClass % 1024 ∧ (u.frame a.2).gf sfCtx = leNat (slice d 0x10 4) % 2 ^ 20 ∧
        (u.frame a.2).owner = some (i, (s.inst i).gen) ∧ u.mem = s.mem ∧
        EndsSettled (.txChainAttach inst loc) s fun t => t = if q.worker then u.toGroup q.group a.2 else u.arrive (.side (0x100 + h)) a.2) ∧
      ((∀ d ∈ q.deliv, ∀ t0, d.waitSince = some t0 → s.ictNs < t0 + 1000 * q.starve) → exec (.starveExpire inst loc) s = .next s) ∧
      (∀ d t0, q.deliv = [d] → d.waitSince = some t0 → t0 + 1000 * q.starve ≤ s.ictNs → d.filled = [] → Ends (.starveExpire inst loc) s fun t =>
        (t.qp k).map (fun q => (q.drops, q.deliv)) = some (if s.fence (s.frame d.fid) = none then (q.drops + 1) % 2 ^ 32 else q.drops, []) ∧
        t.mem = s.mem)) ∧
    ((s.inst i).intrRate = 0 → exec (.intrRateRefill inst) s = .next s) ∧
    ((s.inst i).intrRate ≠ 0 → (s.inst i).held = [] → exec (.intrRateRefill inst) s = .next (s.setInst i
      { s.inst i with tokens := min ((s.inst i).tokens + (s.micros - (s.inst i).served) * (s.inst i).intrRate) (1000 * (s.inst i).intrBurst), served := s.micros }))

/-- R263, R266, R267 and R271: a session unit takes its oldest segment once the context is at hand; a segment that names
no connection raises NO_CTX, one that is not TCP goes to SLOW_GROUP and is counted; at departure a frame that is not TCP
passes; a context of the extension enters a cache of 256 entries. -/
def Obligations.SessionUnits : Prop :=
  (∀ (cl : Fin 16) (s : State), s.stopped = false → s.accepts (0x42 + cl.val) = true →
    (Tab.get [] s.stsIn cl.val = [] → exec (.stsArrival cl) s = .next s) ∧
    (Tab.get [] s.stsOut cl.val = [] → exec (.stsDeparture cl) s = .next s) ∧
    (∀ fid rest, Tab.get [] s.stsIn cl.val = fid :: rest →
      let f := s.frame fid
      let c := f.gf sfCtx
      let u : State := { s with stsIn := Tab.set [] s.stsIn cl.val rest }
      ((s.ctxAddr c).isSome = true → 131072 ≤ c → c ∉ Tab.get [] s.ctxCache cl.val → exec (.stsArrival cl) s = .next s) ∧
      ((s.ctxAddr c).isNone = true ∨ c < 131072 ∨ c ∈ Tab.get [] s.ctxCache cl.val →
        ((s.ctxAddr c).isNone = true → EndsSettled (.stsArrival cl) s fun t => t = u.raiseExc fid 0x13) ∧
        ((s.ctxAddr c).isNone = false → s.ctxLost c = true → EndsSettled (.stsArrival cl) s fun t => t = u.raiseExc fid 0x1F) ∧
        ((s.ctxAddr c).isNone = false → s.ctxLost c = false → s.ctxKind c ≠ 1 → s.ctxKind c ≠ 2 →
          EndsSettled (.stsArrival cl) s fun t => t = u.raiseExc fid 0x13) ∧
        (s.stsRefuse f = none → tcpSpan f = none → EndsSettled (.stsArrival cl) s fun t => ∃ v : State,
          v.rdN (ctlAddr (0x42 + stsCluster c) 0x500) 2 = (s.rdN (ctlAddr (0x42 + stsCluster c) 0x500) 2 + 1) % 2 ^ 40 ∧
          { v with regs := s.regs } = u ∧ t = v.toGroup (s.ctxN c 0 4 / 2 ^ 20 % 256) fid))) ∧
    (∀ fid rest, Tab.get [] s.stsOut cl.val = fid :: rest →
      let f := s.frame fid
      let c := f.gf sfCtx
      let u : State := { s with stsOut := Tab.set [] s.stsOut cl.val rest }
      ((s.ctxAddr c).isSome = true → 131072 ≤ c → c ∉ Tab.get [] s.ctxCache cl.val → exec (.stsDeparture cl) s = .next s) ∧
      ((s.ctxAddr c).isNone = true ∨ c < 131072 ∨ c ∈ Tab.get [] s.ctxCache cl.val →
        (∀ r, s.stsRefuse f = some r → EndsSettled (.stsDeparture cl) s fun t => t = u.raiseExc fid r) ∧
        (s.stsRefuse f = none → tcpSpan f = none → EndsSettled (.stsDeparture cl) s fun t =>
          t = (u.advance fid (some 9)).depart fid)))) ∧
  (∀ (cl : Fin 16) (ctx : BitVec 20) (s : State), s.stopped = false →
    let c := ctx.toNat
    let q := Tab.get [] s.ctxCache cl.val
    (c < 131072 ∨ (s.ctxAddr c).isNone = true ∨ c / 8192 % 16 ≠ cl.val ∨ c ∈ q → exec (.contextFetchComplete cl ctx) s = .next s) ∧
    (131072 ≤ c → (s.ctxAddr c).isNone = false → c / 8192 % 16 = cl.val → c ∉ q → Ends (.contextFetchComplete cl ctx) s fun t =>
      Tab.get [] t.ctxCache cl.val = (if 256 ≤ q.length then q.drop (q.length - 255) else q) ++ [c] ∧
      { t with ctxCache := s.ctxCache } = s))

/-- R274, R279, R281, R283, R284 and R286: OPEN and ABORT leave their code; a segment at an ingest island meets the fence
and waits for its shaper; an operation of SEC that has its latch ends with its unit transformed, one that has stopped refuses it;
a shelf command is answered, retried after BUSY, or timed out, and an answer that comes later than TIMEOUT is discarded; a unit that arrives becomes a satchel, and one that fails its check is erased. -/
def Obligations.IngestJobs : Prop :=
  (∀ (r : Fin 17) (island : Fin 2) (ctx : BitVec 20) (s : State), s.stopped = false →
    let n := island.val
    let c := ctx.toNat
    let code := fun (t : State) => t.rf (Reg.jobResult n r.val) jobResult_CODE
    let w := s.dropHeld (Reg.jobCmd n r.val) 1
    (s.halting = true → EndsSettled (.jobOpen r island ctx) s (fun t => t = s) ∧ EndsSettled (.jobAbort r island ctx) s fun t => t = s) ∧
    (s.halting = false → Open s (Reg.jobCmd n r.val) →
      ((s.ctxAddr c).isNone = true ∨ s.ctxKind c < 3 ∨ (s.job c).isSome = true → EndsSettled (.jobOpen r island ctx) s fun t =>
        code t = 1 ∧ { t with regs := s.regs } = w) ∧
      (s.openCode n c ≠ 0 → EndsSettled (.jobOpen r island ctx) s fun t => code t = s.openCode n c ∧ { t with regs := s.regs } = w) ∧
      (s.openCode n c = 0 → s.ctxKind c = 3 → EndsSettled (.jobOpen r island ctx) s fun t => code t = 0 ∧
        (t.job c).map (fun j => (j.kind, j.phase, j.obj)) = some (3, .data, []) ∧ t.frames = s.frames) ∧
      ((∀ j, s.job c = some j → j.eng / 4 ≠ n) → EndsSettled (.jobAbort r island ctx) s fun t => code t = 4 ∧ { t with regs := s.regs } = w) ∧
      (∀ j, s.job c = some j → j.eng / 4 = n → EndsSettled (.jobAbort r island ctx) s fun t =>
        t = (w.endJob c 8).setRf (Reg.jobResult n r.val) jobResult_CODE 0))) ∧
  (∀ (island : Fin 2) (s : State), s.stopped = false → s.accepts (0x5B + island.val) = true →
    let n := island.val
    (Tab.get [] s.ingIn n = [] → exec (.ingestSegment island) s = .next s) ∧
    (∀ fid rest, Tab.get [] s.ingIn n = fid :: rest →
      let f := s.frame fid
      let v := s.refillShapers (0x5B + n)
      let x := s.ctxN (f.gf sfCtx) 6 1
      let pop := fun (s : State) => { s with ingIn := Tab.set [] s.ingIn n rest }
      (∀ why, s.fence f = some why → EndsSettled (.ingestSegment island) s fun t => t = ((pop s).countExc why).discard fid) ∧
      (s.fence f = none → f.shpDue = false → EndsSettled (.ingestSegment island) s fun t => t = (pop v).depart fid) ∧
      (s.fence f = none → f.shpDue = true → v.shaperOpen (0x5B + n) x = false → exec (.ingestSegment island) s = .next v) ∧
      (s.fence f = none → f.shpDue = true → v.shaperOpen (0x5B + n) x = true → EndsSettled (.ingestSegment island) s fun t =>
        t = (((pop v).chargeShaper (0x5B + n) f.len x).modFrame fid fun f => f.setDone 4).depart fid))) ∧
  (∀ (e : SecEnd) (s : State), s.stopped = false →
    let c := e.ctx.toNat
    ((∀ j ∈ s.ciphJobs, ∀ x, j.sec = some x → x.ctx = c → j.running = false ∧ j.fail = none) →
      EndsSettled (.secUnitOp e) s fun t => t = s) ∧
    (∀ j x, s.secReady c = some (j, x) →
      let gone := fun (s : State) => { s with ciphJobs := s.ciphJobs.filter fun y => y.id ≠ j.id }
      (∀ st, x.single = false → j.fail = some st → EndsSettled (.secUnitOp e) s fun t => t = (gone s).unitRefused x st) ∧
      (x.single = false → j.fail = none → e.eccBad = true → EndsSettled (.secUnitOp e) s fun t =>
        t = (gone (s.ciphCount j.isl 11)).unitRefused x 0x0C) ∧
      (∀ st fid, x.single = true → x.fid = some fid → j.fail = some st → EndsSettled (.secUnitOp e) s fun t =>
        t = (gone s).raiseExc fid (secReason st)) ∧
      (∀ l, e.eccBad = false → j.fail = none → j.latch = some l →
        let u := gone (s.jobProgress j x.bytes.length)
        let out := xtsUnits x.w l.key l.key2 x.objKey x.shard x.unit x.du x.bytes
        (∀ fid, x.single = true → x.fid = some fid → EndsSettled (.secUnitOp e) s fun t => ∃ v : State,
          (v.frame fid).data = out ++ (u.frame fid).data.drop out.length ∧ { v with frames := u.frames } = u ∧
          t = (v.advance fid (some 12)).depart fid) ∧
        (∀ b, x.single = false → s.job c = some b →
          let rest := b.ops.filter fun o => ¬(o.w = x.w ∧ o.shard = x.shard ∧ o.unit = x.unit)
          (s.jobFresh b = false → EndsSettled (.secUnitOp e) s fun t => t = u.endJob c 9) ∧
          (s.jobFresh b = true → x.w = true → (∃ o ∈ rest, o.w = true) → EndsSettled (.secUnitOp e) s fun t => t.job c =
            some { b with ops := rest, wIsl := j.isl, ready := b.ready ++ [⟨true, x.shard, x.unit, out, none⟩] }) ∧
          (∀ fid, s.jobFresh b = true → x.w = false → x.fid = some fid → EndsSettled (.secUnitOp e) s fun t => ∃ v : State,
            t = v.readAdvance c ∧ (v.frame fid).data = out ∧
            v.job c = some { b with ops := rest, units := Tab.put b.units (unitKey x.shard x.unit) (some fid) }))))) ∧
  (∀ (ctx : BitVec 20) (cmd : BitVec 12) (s : State), s.stopped = false →
    let c := ctx.toNat
    (s.job c = none → EndsSettled (.shelfTimeout ctx cmd) s (fun t => t = s) ∧ EndsSettled (.shelfBusyRetry ctx cmd) s (fun t => t = s)) ∧
    (∀ j, s.job c = some j →
      ((∀ x ∈ j.cmds, x.num ≠ cmd.toNat) → EndsSettled (.shelfTimeout ctx cmd) s (fun t => t = s) ∧
        EndsSettled (.shelfBusyRetry ctx cmd) s (fun t => t = s)) ∧
      (∀ x, (j.cmds.find? fun x => x.num = cmd.toNat) = some x →
        let lim := s.ctxN c 0x4C 4 % 2 ^ 24
        let T := 1000 * (if lim = 0 then 10000 else lim)
        (x.retryAt ≠ none ∨ s.ictNs < x.sentAt + T → EndsSettled (.shelfTimeout ctx cmd) s fun t => t = s) ∧
        (x.retryAt = none → x.sentAt + T ≤ s.ictNs → EndsSettled (.shelfTimeout ctx cmd) s fun t =>
          t = (if x.w then (s.ingCount (j.eng / 4) 10).shardFail c x.shard else (s.ingCount (j.eng / 4) 10).shardErase c x.shard)) ∧
        (x.retryAt = none ∨ (∃ at_, x.retryAt = some at_ ∧ s.ictNs < at_) → EndsSettled (.shelfBusyRetry ctx cmd) s fun t => t = s) ∧
        (∀ at_, x.retryAt = some at_ → at_ ≤ s.ictNs → s.jobFresh j = false → EndsSettled (.shelfBusyRetry ctx cmd) s fun t =>
          t = s.endJob c 9) ∧
        (∀ at_, x.retryAt = some at_ → at_ ≤ s.ictNs → s.jobFresh j = true → x.data = [] → EndsSettled (.shelfBusyRetry ctx cmd) s fun t =>
          t = (s.setJb c { j with cmds := j.cmds.map fun z => if z.num = x.num then { x with retryAt := none, sentAt := s.ictNs, got := 0, answered := false } else z }).shelfMsg
            c x.num (s.sideOf c x.w) x.op 0 x.count x.shard x.unit)))) ∧
  (∀ s : State, s.stopped = false →
    (s.shelfResps = [] → exec .shelfResponse s = .next s) ∧
    (∀ (l : Nat) (b : List Byte) (rest : List (Nat × List Byte)) (j : StoreJob) (x : ShelfCmd),
      let c := leNat (slice b 4 4) % 2 ^ 20
      let num := leNat (slice b 4 4) / 2 ^ 20
      let u : State := { s with shelfResps := rest }
      s.shelfResps = (l, b) :: rest → s.job c = some j → (j.cmds.find? fun x => x.num = num) = some x →
      (s.cmdExpired c x = true → EndsSettled .shelfResponse s fun t => t = u.cmdTimeout c j x) ∧
      (s.cmdExpired c x = false → byteAt b 0 = 0 → x.w = false → EndsSettled .shelfResponse s fun t => t = u.readSettle c { x with answered := true }) ∧
      (s.cmdExpired c x = false → byteAt b 0 = 7 → x.busy < 8 → EndsSettled .shelfResponse s fun t =>
        t = (u.ingCount (j.eng / 4) 11).setJb c { j with cmds := j.cmds.map fun z =>
          if z.num = num then { x with busy := x.busy + 1, retryAt := some (s.ictNs + 10000) } else z }) ∧
      (s.cmdExpired c x = false → byteAt b 0 ≠ 0 → (byteAt b 0 = 7 → 8 ≤ x.busy) → EndsSettled .shelfResponse s fun t =>
        t = (u.ingCount (j.eng / 4) 11).cmdFail c x))) ∧
  (∀ (link : Fin 6) (ctx : BitVec 20) (cmd : BitVec 12) (s : State), s.stopped = false →
    let c := ctx.toNat
    let row := Instr.unitArrival link ctx cmd
    ((∀ m ∈ s.unitIn, m.1 ≠ link.val) → EndsSettled row s fun t => t = s) ∧
    (∀ bs j x, s.unitIn = [(link.val, bs)] → s.job c = some j → (j.cmds.find? fun x => x.num = cmd.toNat) = some x →
      (s.cmdExpired c x = true → EndsSettled row s fun t => t = ({ s with unitIn := [] } : State).cmdTimeout c j x) ∧
      (s.cmdExpired c x = false → x.op = 4 → x.got < x.count →
      let u := (s.sideOf c false).u
      let ct := slice bs 0 u
      let good := bs.length = u + 16 ∧ leNat (slice bs u 8) = crc64n ct ∧ bit (byteAt bs (u + 8)) 0 = false
      (good → EndsSettled row s fun t => ∃ (v : State) (fid : Nat), t = v.readSettle c { x with got := x.got + 1 } ∧ v.unitIn = [] ∧
        v.job c = some { j with ops := j.ops ++ [⟨false, x.shard, x.unit + x.got, ct, some fid⟩] } ∧
        v.ciphJobs.length = s.ciphJobs.length + 1 ∧ (v.frame fid).data = ct ∧ (v.frame fid).gf sfCtx = c) ∧
      (¬good → EndsSettled row s fun t => ∃ v : State, t = v.readSettle c { x with got := x.got + 1 } ∧ v.unitIn = [] ∧
        v.job c = some { j with units := Tab.put j.units (unitKey x.shard (x.unit + x.got)) none, badMask := setFld j.badMask x.shard 1 1 } ∧
        v.frames = s.frames))))

/-! ### Ferry, Hamper links and the pair -/

/-- R355 to R358, R360, R362, R366 and R367: enabling a Ferry channel zeroes its indices and makes it IDLE; disabling stops
it, at once where no descriptor runs; TAIL is taken unless it posts more entries than the ring has; START runs a stopped
channel, STOP stops an idle one; a beat copies its bytes and nothing else, in its channel's turn, and one that fails on ECC leaves free bytes. -/
def Obligations.FerryChannels : Prop :=
  (∀ (who : Writer) (ch : Fin 64) (tail : BitVec 16) (s : State),
    let c := ch.val
    let en := s.fCfg c ferryCfgN_EN
    let log := s.fCfg c ferryCfgN_LOG2_ENTRIES
    let st := s.fStat c ferryStatusN_STATE
    (∀ (row : Instr) (o : Nat), (row, o) ∈ [(Instr.ferryChEnable who ch, 0), (.ferryChDisable who ch, 0), (.ferryTailWrite who ch tail, 8),
      (.ferryStart who ch, 0x14), (.ferryStop who ch, 0x14)] → s.canWrite (writerInit who) (ferryAddr c o) = false →
      EndsSettled row s fun t => t = s) ∧
    (FerryOpen s who c →
      (log < 4 ∨ en = 1 → EndsSettled (.ferryChEnable who ch) s fun t => { t with held := s.held } = s) ∧
      (4 ≤ log → en = 0 → (s.ferryCh c).named = [] → EndsSettled (.ferryChEnable who ch) s fun t => t.fCfg c ferryCfgN_EN = 1 ∧
        t.fCfg c ferryCfgN_LOG2_ENTRIES = log ∧ t.fTail c = 0 ∧ t.fHead c = 0 ∧ t.fStat c ferryStatusN_STATE = 0 ∧
        t.ferryCh c = s.ferryCh c ∧ { t with regs := s.regs, held := s.held, ferry := s.ferry } = s) ∧
      (4 ≤ log → en = 1 → st ≠ 1 → st ≠ 3 → (s.ferryCh c).named = [] → EndsSettled (.ferryChDisable who ch) s fun t =>
        t.fCfg c ferryCfgN_EN = 0 ∧ t.fStat c ferryStatusN_STATE = 2 ∧ t.fStat c ferryStatusN_CAUSE = 2 ∧
        t.ferryCh c = s.ferryCh c ∧ { t with regs := s.regs, held := s.held, ferry := s.ferry } = s) ∧
      (4 ≤ log → en = 1 → st = 1 ∨ st = 3 → EndsSettled (.ferryChDisable who ch) s fun t => ∃ u : State, t = u.ferryGo c ∧
        u.ferryCh c = { s.ferryCh c with stop := true, disable := true } ∧ { u with ferry := s.ferry, held := s.held } = s) ∧
      (2 ^ log < (tail.toNat + 65536 - s.fHead c) % 65536 → EndsSettled (.ferryTailWrite who ch tail) s fun t => t = s) ∧
      ((tail.toNat + 65536 - s.fHead c) % 65536 ≤ 2 ^ log → en = 0 ∨ s.fCfg c ferryCfgN_MODE = 1 →
        EndsSettled (.ferryTailWrite who ch tail) s fun t => t.fTail c = tail.toNat ∧ t.fHead c = s.fHead c ∧ { t with regs := s.regs } = s) ∧
      (en = 1 → s.halting = false → s.fCfg c ferryCfgN_MODE = 0 → st = 0 → s.fTail c = s.fHead c → tail.toNat = (s.fHead c + 1) % 65536 →
        (s.ferryCh c).desc = none → (s.ferryCh c).stop = false → (s.ferryCh c).disable = false →
        s.addrLost (s.ferryEntry c (s.fHead c)) = false → bit (s.ferryRead (s.ferryEntry c (s.fHead c))).ctrl 31 = false →
        EndsSettled (.ferryTailWrite who ch tail) s fun t => t.fStat c ferryStatusN_STATE = 2 ∧ t.fStat c ferryStatusN_CAUSE = 1 ∧
          t.fTail c = tail.toNat ∧ { t with regs := s.regs } = s) ∧
      (en = 0 ∨ (s.ferryCh c).disable = true → EndsSettled (.ferryStart who ch) s (fun t => t = s) ∧
        EndsSettled (.ferryStop who ch) s (fun t => t = s)) ∧
      (en = 1 → (s.ferryCh c).disable = false →
        (s.fCfg c ferryCfgN_MODE = 0 → st = 2 → EndsSettled (.ferryStart who ch) s fun t => t =
          ((List.range ((s.fTail c + 65536 - s.fHead c) % 65536)).foldl (fun u i => u.ferryName c ((s.fHead c + i) % 65536) true) s).ferryGo c) ∧
        (s.fCfg c ferryCfgN_MODE = 0 → st ≠ 2 → EndsSettled (.ferryStart who ch) s fun t => t = s) ∧
        (s.fCfg c ferryCfgN_MODE = 1 → st = 3 → EndsSettled (.ferryStart who ch) s fun t => t = s) ∧
        (s.fCfg c ferryCfgN_MODE = 1 → st ≠ 3 → EndsSettled (.ferryStart who ch) s fun t => t = s.ferryObserve c) ∧
        (st = 0 → EndsSettled (.ferryStop who ch) s fun t => t.fStat c ferryStatusN_STATE = 2 ∧ t.fStat c ferryStatusN_CAUSE = 2 ∧
          { t with regs := s.regs } = s) ∧
        (st = 1 ∨ st = 3 → EndsSettled (.ferryStop who ch) s fun t => t = (s.setFerry c { s.ferryCh c with stop := true }).ferryGo c)))) ∧
  (∀ (ch : Fin 64) (ecc : Bool) (s : State),
    let c := ch.val
    let f := s.ferryCh c
    (s.pstate = 2 ∨ s.pstate = 3 ∨ f.desc = none ∨ f.issued = none ∨ s.ferryTurnOf c = false → exec (.ferryBeat ch ecc) s = .next s) ∧
    (∀ d o n, s.pstate < 2 → s.ferryTurnOf c = true → f.desc = some d → f.issued = some (o, n) → d.srcSpace = 0 → d.dstSpace = 0 → d.srcWrap = 0 → d.dstWrap = 0 →
      f.obs = false →
      (ecc = false → Ends (.ferryBeat ch ecc) s fun t => ∃ u : State,
        (∀ i, i < n → u.ldByte (d.dst + o + i) = s.ldByte (d.src + o + i)) ∧
        (∀ b, b < d.dst + o ∨ d.dst + o + n ≤ b → u.ldByte b = s.ldByte b) ∧
        u.ferryCh c = { f with done := f.done + n, issued := none, got := [], failed := false } ∧ { u with mem := s.mem, ferry := s.ferry, ferryTurn := s.ferryTurn } = s ∧ u.ferryTurn = c ∧
        t = (if f.beats = [] ∧ f.stop = false then (u.ferryFinish c 0 d.len).ferryGo c else u.ferryGo c)) ∧
      (ecc = true → Ends (.ferryBeat ch ecc) s fun t => ∃ u : State,
        (∀ i, i < n → u.ldByte (d.dst + o + i) = Config.freeByte (s.free + i)) ∧
        (∀ b, b < d.dst + o ∨ d.dst + o + n ≤ b → u.ldByte b = s.ldByte b) ∧ u.free = s.free + n ∧ u.ferry = s.ferry ∧
        t = (u.ferryFinish c (if f.beats = [] then 4 else 3) f.done).ferryGo c)) ∧
    (¬(f.disable = true ∧ f.issued = none ∧ f.desc = none) → exec (.ferryChDisabled ch) s = .next s) ∧
    (f.disable = true → f.issued = none → f.desc = none → f.named = [] → Ends (.ferryChDisabled ch) s fun t =>
      t.ferryCh c = {} ∧ t.fCfg c ferryCfgN_EN = 0 ∧ t.fStat c ferryStatusN_STATE = 2 ∧ t.fStat c ferryStatusN_CAUSE = 2 ∧
      { t with regs := s.regs, ferry := s.ferry } = s))

/-- R375 to R382, R385 and R386: a Hamper link is enabled, comes up with the peer's credits, retries training, and goes
down; a flit with a wrong CHECK is only counted, one with a whole message puts it among those received; a message that is
consumed frees its buffers; a flit sent takes a credit, the channels in
turn, and a link in training sends what step 4 of its bring-up asks for; a channel without credits for 100 µs takes the link down. -/
def Obligations.HamperLinks : Prop :=
  (∀ (link : Fin 6) (s : State), Open s (hlAddr link.val 0) →
    let n := link.val
    let w := s.dropHeld (hlAddr n 0) 1
    (s.hlEn n = true → exec (.hamperLinkEnable link) s = .next w.pairUpdate) ∧
    (s.hlEn n = false → Ends (.hamperLinkEnable link) s fun t => ∃ u : State, u.hlEn n = true ∧ (u.hl n).trainAt = s.ictNs ∧
      { u with regs := s.regs, hlinks := s.hlinks } = w ∧ t = u.pairUpdate) ∧
    (s.hlEn n = true → s.hlUp n = false → EndsSettled (.retrain link) s fun t => t = w.pairUpdate) ∧
    (s.hlEn n = true → s.hlUp n = true → EndsSettled (.retrain link) s fun t =>
      t = (((w.hlLose n).1.record 0x0090 (0x63 + n) [(0, 1, n), (1, 1, 4)]).hlCount n 6).pairUpdate)) ∧
  (∀ (link : Fin 6) (s : State),
    let n := link.val
    let hello : Output := .linkHello n s.deviceSerial ((List.range 4).map fun v => (s.rd (hlAddr n (0x10 + 4 * v))).toNat % 1024)
    let off := s.stopped = true ∨ (s.island (0x63 + n)).power = .off
    (∀ (unit : Bool) (port : BitVec 4) (serial : W64) (credits : BitVec 40),
      (off → exec (.hamperLinkUp link unit port serial credits) s = .next s) ∧
      (¬off → s.hlEn n = false ∨ s.hlUp n = true → exec (.hamperLinkUp link unit port serial credits) s = .next s.pairUpdate) ∧
      (¬off → s.hlEn n = true → s.hlUp n = false → Ends (.hamperLinkUp link unit port serial credits) s fun t => ∃ u : State,
        u.hlUp n = true ∧ (u.hl n).serial = serial.toNat ∧ (u.hl n).flitAt = s.ictNs ∧
        (∀ v, v < 4 → (u.hvc n v).credits = (credits.extractLsb' (10 * v) 10).toNat ∧ (u.hvc n v).txq = []) ∧
        u.out = s.out ++ (if s.rf (hlAddr n 4) ⟨1, 8⟩ = 0 then [hello] else []) ∧
        { u with regs := s.regs, hlinks := s.hlinks, out := s.out } = s ∧ t = (u.fwPump n).pairUpdate)) ∧
    (off ∨ s.hlEn n = false ∨ s.hlUp n = true ∨ s.ictNs < (s.hl n).trainAt + 500000000 → exec (.trainRetry link) s = .next s) ∧
    (¬off → s.hlEn n = true → s.hlUp n = false → (s.hl n).trainAt + 500000000 ≤ s.ictNs → Ends (.trainRetry link) s fun t =>
      (t.hl n).trainAt = s.ictNs ∧ t.rdN (hlAddr n (0x800 + 8 * 7)) 2 = (s.rdN (hlAddr n (0x800 + 8 * 7)) 2 + 1) % 2 ^ 40 ∧
      t.rf (hlAddr n 4) ⟨1, 8⟩ = 0 ∧ { t with regs := s.regs, hlinks := s.hlinks } = s) ∧
    (∀ cause : Fin 3,
      (s.stopped = true ∨ (cause.val = 2 ∧ s.ictNs < (s.hl n).flitAt + 10000) → exec (.hamperLinkDown link cause) s = .next s) ∧
      (s.stopped = false → (cause.val = 2 → (s.hl n).flitAt + 10000 ≤ s.ictNs) →
        (s.hlUp n = false → EndsSettled (.hamperLinkDown link cause) s fun t => t = s) ∧
        (s.hlUp n = true → EndsSettled (.hamperLinkDown link cause) s fun t =>
          t = ((s.hlLose n).1.record 0x0090 (0x63 + n) [(0, 1, n), (1, 1, cause.val)]).hlCount n 6))) ∧
    (s.hlUp n = true → (∀ e ∈ (s.hl n).vcs, e.2.txq = []) → (s.hlDrop n).1.hlUp n = false ∧ ((s.hlDrop n).1.hl n).vcs = [] ∧
      ((s.hlDrop n).1.hl n).trainAt = s.ictNs ∧ { (s.hlDrop n).1 with regs := s.regs, hlinks := s.hlinks } = s)) ∧
  (∀ (link : Fin 6) (i : FlitIn) (s : State), s.stopped = false →
    let n := link.val
    let b := slice i.bytes 0 256
    let w0 := leNat (slice b 0 4)
    let v := w0 % 4
    let plen := w0 / 16 % 256
    let whole := flitCheck (b.take 14) (b.drop 16) = leNat (slice b 14 2)
    let freed := leNat (slice b 4 4) % 1024
    let told := ((s.hlCount n 1).hlCount n 4 i.corr).hlCount n 5 i.uncorr
    let u := (told.setHl n { told.hl n with flitAt := s.ictNs }).takeCredits n (w0 / 2 ^ 22 % 4) freed
    (s.hlUp n = false → exec (.flitReceive link i) s = .next s) ∧
    (s.hlUp n = true → ¬whole → exec (.flitReceive link i) s = .next (told.hlCount n 2)) ∧
    (s.hlUp n = true → whole → plen = 0 → exec (.flitReceive link i) s = .next u) ∧
    (s.hlUp n = true → whole → plen ≠ 0 → bit w0 2 = true → bit w0 3 = true → (u.hvc n v).part = none →
      w0 / 2 ^ 12 % 1024 = ((u.hvc n v).rxCnt + 1) % 1024 → (u.hvc n v).partFlits = 0 → Ends (.flitReceive link i) s fun t =>
        (t.hl n).rx = (s.hl n).rx ++ [(v, flitSubset b, slice b 16 (min plen 240), 1)] ∧ (t.hvc n v).rxCnt = w0 / 2 ^ 12 % 1024 ∧
        { t with regs := s.regs, hlinks := s.hlinks } = s)) ∧
  (∀ (link : Fin 6) (s : State), s.stopped = false →
    let n := link.val
    ((s.hl n).rx = [] → exec (.hamperMessageReceive link) s = .next s) ∧
    (∀ v sub bytes flits rest, (s.hl n).rx = (v, sub, bytes, flits) :: rest → EndsSettled (.hamperMessageReceive link) s fun t => ∃ u : State,
      (u.hl n).rx = rest ∧ (u.hvc n v).freed = ((s.hvc n v).freed + flits) % 1024 ∧ { u with hlinks := s.hlinks } = s ∧
      t = u.hlDeliver n v sub bytes ∧
      (sub.mu = 1 → sub.fmtGen < s.rf Reg.fmtGen fmtGen_GMIN ∨ s.rf Reg.fmtGen fmtGen_GMAX < sub.fmtGen → v = 0 ∨ v = 2 → t = u.hlCount n 9) ∧
      (v = 1 → sub.mu ≠ 1 → s.isShelf n = true → s.unitsDue n = true →
        t.unitIn = s.unitIn ++ [(n, bytes.drop (4 * popcount 4 sub.extMask))] ∧ { t with unitIn := s.unitIn } = u) ∧
      (v = 0 → s.pairOn = false → s.rf (hlAddr n 0x110) hlFwrxCfg_EN = 0 →
        t.rdN (hlAddr n (0x800 + 8 * 9)) 2 = (s.rdN (hlAddr n (0x800 + 8 * 9)) 2 + 1) % 2 ^ 40 ∧ { t with regs := s.regs } = u))) ∧
  (∀ (link : Fin 6) (vc : Fin 4) (s : State), s.stopped = false →
    let n := link.val
    let c := s.hvc n vc.val
    let crVc := (s.hl n).rot
    let freed := (s.hvc n crVc).freed
    (s.hlUp n = false → s.hlEn n = false → exec (.flitSend link vc) s = .next s) ∧
    (s.hlUp n = false → s.hlEn n = true → Ends (.flitSend link vc) s fun t => t.rf (hlAddr n 4) ⟨1, 8⟩ = 0xFF ∧
      t.out = s.out ++ [.linkHello n s.deviceSerial ((List.range 4).map fun v => (s.rd (hlAddr n (0x10 + 4 * v))).toNat % 1024)] ∧
      { t with regs := s.regs, out := s.out } = s) ∧
    (s.hlUp n = true → s.vcTurn n vc.val = false → exec (.flitSend link vc) s = .next s) ∧
    (s.hlUp n = true → s.vcTurn n vc.val = true → c.txq = [] ∨ c.credits = 0 → Ends (.flitSend link vc) s fun t =>
      t.out = s.out ++ [.flit n (flitBytes 0 false false 0 crVc freed {} [])] ∧ (t.hl n).rot = (crVc + 1) % 4 ∧ t.hvc n vc.val = c) ∧
    (∀ m rest, s.hlUp n = true → s.vcTurn n vc.val = true → c.txq = m :: rest → c.credits ≠ 0 → m.sent + 240 < m.bytes.length → Ends (.flitSend link vc) s fun t =>
      t.out = s.out ++ [.flit n (flitBytes vc.val (m.sent = 0) false ((c.txCnt + 1) % 1024) crVc freed m.sub ((m.bytes.drop m.sent).take 240))] ∧
      t.hvc n vc.val = { c with txq := { m with sent := m.sent + 240 } :: rest, credits := c.credits - 1, txCnt := (c.txCnt + 1) % 1024 } ∧ (t.hl n).turn = vc.val) ∧
    (let stalled := s.hlUp n = true ∧ c.txq ≠ [] ∧ c.credits = 0 ∧ c.creditAt + 100000 ≤ s.ictNs
     (¬stalled → exec (.hamperVcStalled link vc) s = .next s) ∧
     (stalled → EndsSettled (.hamperVcStalled link vc) s fun t => ∃ u : State, u.rf (hlAddr n 4) ⟨9 + vc.val, 1⟩ = 1 ∧
       { u with regs := s.regs } = s ∧ t = ((u.record 0x0091 (0x63 + n) [(0, 1, n), (1, 1, vc.val)]).hlCount n 8).hlDown n 3))) ∧
  (∀ (link : Fin 6) (tail : BitVec 16) (s : State), Open s (hlAddr link.val 0x108) →
    let n := link.val
    let w := s.dropHeld (hlAddr n 0x108) 1
    (s.rf (hlAddr n 0x100) hlFwtxCfg_EN = 0 ∨ s.hlUp n = false → Ends (.hlFwtxTailWrite link tail) s fun t =>
      t.rf (hlAddr n 0x108) hlFwtxTail_TAIL = tail.toNat ∧ { t with regs := s.regs } = w) ∧
    exec (.hlFwtxTailWrite link tail) s = .next ((w.setRf (hlAddr n 0x108) hlFwtxTail_TAIL tail.toNat).fwPump n))

/-- R389, R391, R392, R394 and R395: the heartbeat of a pair and its self-diagnosis. A claim is refreshed by a unit that
holds or takes control, 250 µs after the last; the unit's own PAIR_STATE is sent 100 µs after the last; a PAIR_STATE renews the peer's view, and a sign of the peer's loss is held until it is acted on;
silence of 500 µs makes the peer unseen; STARTING ends after a second; the triggers follow their events. -/
def Obligations.PairHeartbeat : Prop :=
  ∀ s : State,
    (s.role < 3 ∨ s.ictNs < s.pair.claimAt + 250000 → exec .claimRefresh s = .next s) ∧
    (s.role = 3 → s.pairMode ≠ 0 → s.pins.holdOut = false → exec .claimRefresh s = .next s) ∧
    (s.pair.claimAt + 250000 ≤ s.ictNs → (s.role = 4 ∨ s.role = 5 → exec .claimRefresh s = .next (s.claimSend 0x10)) ∧
      (s.role = 3 → s.pairMode = 0 ∨ s.pins.holdOut = true → exec .claimRefresh s = .next (s.claimSend 0x10).takingGo)) ∧
    (s.pairMode = 1 → s.claimSend 0x10 = { s with pair := { s.pair with claimAt := s.ictNs } }) ∧
    (s.pairOn = false ∨ s.ictNs < s.pair.saidAt + 100000 → exec .pairStateSend s = .next s) ∧
    (s.pairOn = true → s.pair.saidAt + 100000 ≤ s.ictNs → s.hlUp 5 = true → Ends .pairStateSend s fun t =>
      t.pair = { s.pair with said := s.pairStateBytes, saidAt := s.ictNs } ∧
      (t.hvc 5 0).txq = (s.hvc 5 0).txq ++ [{ sub := s.plainSubset, bytes := s.pairStateBytes }]) ∧
    ((∀ b rest, s.pair.inbox = b :: rest → leNat (slice b 0 1) ≠ 0x18) → exec .pairState s = .next s) ∧
    (∀ b rest, s.pair.inbox = b :: rest → leNat (slice b 0 1) = 0x18 →
      let claim := leNat (slice b 8 4)
      let role := leNat (slice b 1 1)
      Ends .pairState s fun t => ∃ u : State, u.pair.inbox = rest ∧ u.pair.peerAt = some s.ictNs ∧ u.pair.peerRole = role ∧
        u.pair.peerEpoch = claim % 2 ^ 24 ∧ u.pair.seen = true ∧ (u.rd Reg.pairPeerClaim).toNat = claim ∧
        u.rf Reg.pairPeerGen pairPeerGen_GEN = leNat (slice b 4 3) ∧ { u with regs := s.regs, pair := s.pair } = s ∧
        (s.role = 2 → s.pair.lost = none → 3 ≤ s.pair.peerRole → u.pair.lost =
          if claim / 2 ^ 24 % 16 = 0 then some 0 else if role < 3 then some 1 else none) ∧
        (s.role ≠ 2 → u.pair.lost = s.pair.lost) ∧ t = (if s.role = 1 then u.pairUpdate.leaveStarting else u.pairUpdate)) ∧
    (s.pair.peerAt = none → exec .pairPeerSilence s = .next s) ∧
    (∀ t0, s.pair.peerAt = some t0 → s.ictNs < t0 + 500000 → exec .pairPeerSilence s = .next s) ∧
    (∀ t0, s.pair.peerAt = some t0 → t0 + 500000 ≤ s.ictNs → exec .pairPeerSilence s = .next ({ s with pair := { s.pair with
      peerAt := none, lost := if s.role = 2 ∧ 3 ≤ s.pair.peerRole ∧ s.pair.lost = none then some 2 else s.pair.lost } } : State).pairUpdate) ∧
    (s.role ≠ 1 ∨ s.ictNs < s.pair.roleAt + 1000000000 → exec .pairStartTimeout s = .next s) ∧
    (s.role = 1 → s.pair.roleAt + 1000000000 ≤ s.ictNs →
      (s.pair.seen = false → exec .pairStartTimeout s = .next s.enterTaking) ∧
      (s.pair.seen = true → 3 ≤ s.pair.peerRole ∨ (s.rd Reg.pairClaim).toNat ≤ (s.rd Reg.pairPeerClaim).toNat →
        Ends .pairStartTimeout s fun t => t.role = 2 ∧ t.pins.holdOut = false)) ∧
    (s.pair.lost = none → exec .pairPeerLost s = .next s) ∧
    (∀ sign, s.pair.lost = some sign →
      let u := (s.record 0x00A1 0x68 [(0, 1, sign), (1, 1, s.rf Reg.pairStatus pairStatus_ELIGIBLE)]).modPair
        fun p => { p with lost := none, peerRole := 0 }
      (s.role ≠ 2 → exec .pairPeerLost s = .next { s with pair := { s.pair with lost := none } }) ∧
      (s.role = 2 → s.rf Reg.pairStatus pairStatus_ELIGIBLE = 1 → exec .pairPeerLost s = .next u.enterTaking) ∧
      (s.role = 2 → s.rf Reg.pairStatus pairStatus_ELIGIBLE = 0 → exec .pairPeerLost s = .next (u.setCauses 4))) ∧
    (let w := s.ictNs / 1000000000
     (w = s.pair.eccWin → exec .eccWindowEnd s = .next s.pairUpdate) ∧
     (w ≠ s.pair.eccWin → exec .eccWindowEnd s = .next ({ s with pair := { s.pair with
        eccTrig := decide (w = s.pair.eccWin + 1 ∧ s.rf Reg.pairDiagCfg pairDiagCfg_ECC_MAX < s.pair.eccErrs), eccErrs := 0, eccWin := w } } : State).pairUpdate)) ∧
    (∀ cl : Fin 16,
      let ms := s.rf Reg.pairDiagCfg pairDiagCfg_STALE_MS
      (s.rf (Reg.staleStatus cl.val) staleStatus_CLEARED ≠ 0 ∨ (s.cluster cl.val).detections = [] → exec (.stalemateTrigger cl) s = .next s) ∧
      (∀ t0, (s.cluster cl.val).detections.getLast? = some t0 → s.rf (Reg.staleStatus cl.val) staleStatus_CLEARED = 0 →
        (s.ictNs < t0 + 1000000 * ms → exec (.stalemateTrigger cl) s = .next s) ∧
        (t0 + 1000000 * ms ≤ s.ictNs → Ends (.stalemateTrigger cl) s fun t => ∃ u : State, { u with pair := s.pair } = s ∧
          u.pair.staleTrig.testBit cl.val = true ∧ t = u.pairUpdate))) ∧
    (∀ h : Fin 2,
      let due := (s.rf Reg.pairCfg pairCfg_HOST_MASK).testBit h.val = true ∧ (s.host h.val).up = false ∧ (s.host h.val).lostAt + 100000000 ≤ s.ictNs
      (¬due → exec (.hostLinkTrigger h) s = .next s) ∧
      (due → Ends (.hostLinkTrigger h) s fun t => ∃ u : State, { u with pair := s.pair } = s ∧ u.pair.hostTrig.testBit h.val = true ∧
        t = u.pairUpdate))

/-- R390, R395 to R397 and R401: the interlock, the takeover and the handover of a pair, and PAIR.CTL. A back-off after a
collision is at least 20 (16 − PREF) + 1 µs and at most 15 µs more (free within that; log entry 102). -/
def Obligations.PairHandover : Prop :=
  ∀ s : State,
    (let ok := s.role = 3 ∧ s.pairMode ≠ 0 ∧ s.pins.holdOut = false ∧ s.pins.holdIn = false ∧ s.pair.backoff = none ∧
       s.rf Reg.pairStatus pairStatus_HEALTH ≠ 0 ∧ max s.pair.holdFreeAt s.pair.roleAt + 10000 ≤ s.ictNs
     (¬ok → exec .holdSampleComplete s = .next s) ∧
     (ok → Ends .holdSampleComplete s fun t => ∃ u : State, u.pins = { s.pins with holdOut := true } ∧ u.pair.holdOutAt = some s.ictNs ∧
       u.rf Reg.pairStatus pairStatus_HOLD_OUT = 1 ∧ { u with pins := s.pins, regs := s.regs, pair := s.pair } = s ∧
       t = (if s.pairMode = 2 then u.claimSend 0x10 else u).takingGo)) ∧
    (s.pair.backoff = none → exec .holdBackoffExpire s = .next s) ∧
    (∀ t0, s.pair.backoff = some t0 → s.ictNs < t0 → exec .holdBackoffExpire s = .next s) ∧
    (∀ t0, s.pair.backoff = some t0 → t0 ≤ s.ictNs → exec .holdBackoffExpire s =
      .next { s with pair := { s.pair with backoff := none, holdFreeAt := max s.pair.holdFreeAt s.ictNs } }) ∧
    exec (.pairHoldInChange s.pins.holdIn) s = .next s ∧
    (s.pins.holdIn = false → s.power.armed = false → s.power.trans = none →
      (s.pair.holdOutAt = none → Ends (.pairHoldInChange true) s fun t => t.pins = { s.pins with holdIn := true } ∧
        t.rf Reg.pairStatus pairStatus_HOLD_IN = 1 ∧ { t with pins := s.pins, regs := s.regs } = s) ∧
      (∀ t0, s.pair.holdOutAt = some t0 → s.ictNs < t0 + 10000 → s.role ≠ 4 → Ends (.pairHoldInChange true) s fun t =>
        t.pins = { s.pins with holdIn := true, holdOut := false } ∧ ∃ b, t.pair.backoff = some b ∧
          s.ictNs + 20000 * (16 - s.rf Reg.pairCfg pairCfg_PREF) + 1000 ≤ b ∧
          b ≤ s.ictNs + 20000 * (16 - s.rf Reg.pairCfg pairCfg_PREF) + 16000) ∧
      (∀ t0, s.pair.holdOutAt = some t0 → s.ictNs < t0 + 10000 → s.role = 4 → Ends (.pairHoldInChange true) s fun t => ∃ u : State,
        u.pins = { s.pins with holdIn := true, holdOut := false } ∧ u.pair.backoff.isSome = true ∧ t = u.enterTaking)) ∧
    (s.pins.holdIn = true → s.power.armed = false → s.power.trans = none → Ends (.pairHoldInChange false) s fun t =>
      t.pins = { s.pins with holdIn := false } ∧ t.pair.holdFreeAt = s.ictNs ∧
      (s.pairOn = true → s.role = 2 → s.pairMode ≠ 0 → 3 ≤ s.pair.peerRole → s.pair.lost = none → t.pair.lost = some 3)) ∧
    (s.role ≠ 3 ∨ s.ictNs < s.pair.roleAt + 5000000 → exec .takingTimeout s = .next s) ∧
    (s.role = 3 → s.pair.roleAt + 5000000 ≤ s.ictNs →
      let fails := s.rf Reg.pairCfg pairCfg_SHELF_LOSS_MAX < s.rejecting.length ∨ (s.pairMode ≠ 0 ∧ s.pins.holdOut = false)
      (fails → Ends .takingTimeout s fun t => t.role = 2 ∧ t.pins.holdOut = false) ∧
      (¬fails → exec .takingTimeout s = .next s.enterActive)) ∧
    (let asks := s.role = 2 ∧ s.rf Reg.pairCtl pairCtl_AUTO_FAILBACK = 1 ∧ 3 ≤ s.pair.peerRole ∧ s.pair.reqAt = none ∧
       (s.rd Reg.pairPeerClaim).toNat / 2 ^ 28 % 16 < s.rf Reg.pairCfg pairCfg_PREF ∧
       ∃ t0, s.pair.eligAt = some t0 ∧ t0 + s.rf Reg.pairCfg pairCfg_HOLDOFF * 1000000000 ≤ s.ictNs
     (¬asks → exec .failbackHoldoffExpire s = .next s) ∧
     (asks → Ends .failbackHoldoffExpire s fun t => t.pair = { s.pair with reqAt := some s.ictNs })) ∧
    ((∀ b rest, s.pair.inbox = b :: rest → leNat (slice b 0 1) ≠ 0x19) → exec .handoverReq s = .next s) ∧
    (∀ b rest, s.pair.inbox = b :: rest → leNat (slice b 0 1) = 0x19 →
      (s.role = 4 → Ends .handoverReq s fun t => t.role = 5 ∧ t.pair.inbox = rest) ∧
      (s.role ≠ 4 → exec .handoverReq s = .next { s with pair := { s.pair with inbox := rest } })) ∧
    ((∀ b rest, s.pair.inbox = b :: rest → leNat (slice b 0 1) ≠ 0x1A) → exec .handoverAck s = .next s) ∧
    (∀ b rest, s.pair.inbox = b :: rest → leNat (slice b 0 1) = 0x1A →
      let u : State := { s with pair := { s.pair with inbox := rest } }
      (s.pair.reqAt.isSome = true → s.role = 2 → exec .handoverAck s = .next u.enterTaking) ∧
      (s.pair.reqAt = none ∨ s.role ≠ 2 → exec .handoverAck s = .next u)) ∧
    (s.role ≠ 5 ∨ (s.jobs ≠ [] ∧ s.ictNs < s.pair.roleAt + s.rf Reg.pairCtl pairCtl_HANDOVER_MS * 1000000) →
      exec .handoverRelease s = .next s) ∧
    (s.role = 5 → s.jobs = [] → EndsSettled .handoverRelease s fun t => t.role = 2 ∧ t.pins.holdOut = false ∧ t.jobs = []) ∧
    (s.pair.reqAt = none ∨ s.role ≠ 2 → exec .handoverAckTimeout s = .next s) ∧
    (∀ t0, s.pair.reqAt = some t0 → s.role = 2 →
      let T := (s.rf Reg.pairCtl pairCtl_HANDOVER_MS + 10) * 1000000
      (s.ictNs < t0 + T → exec .handoverAckTimeout s = .next s) ∧
      (t0 + T ≤ s.ictNs → s.pairMode = 0 → exec .handoverAckTimeout s = .next s.enterTaking) ∧
      (t0 + T ≤ s.ictNs → s.pairMode ≠ 0 → exec .handoverAckTimeout s = .next
        { s with pair := { s.pair with reqAt := none, eligAt := s.pair.eligAt.map fun _ => s.ictNs } })) ∧
    (Open s Reg.pairCtl →
      let w := s.dropHeld Reg.pairCtl 1
      (s.pairOn = false →
        (Ends (.pairEn true) s fun t => t.pairOn = true ∧ t.role = 1 ∧ t.pins.holdOut = false ∧ t.pair.seen = false ∧ t.pair.peerAt = none ∧
          t.pair.inbox = [] ∧ t.mem = s.mem) ∧
        (Ends (.pairEn false) s fun t => t.pairOn = false ∧ { t with regs := s.regs, pair := s.pair } = w) ∧
        (s.role ≠ 2 → Ends .pairSwap s (fun t => { t with regs := s.regs, pair := s.pair } = w) ∧
          Ends .pairForce s fun t => { t with regs := s.regs, pair := s.pair } = w)) ∧
      (s.pairOn = true →
        (Ends (.pairEn false) s fun t => t.pairOn = false ∧ t.role = 0 ∧ t.pins.holdOut = false) ∧
        (Ends (.pairEn true) s fun t => ∃ u : State, u.pairOn = true ∧ (∀ a, a ≠ Reg.pairCtl → u.rd a = s.rd a) ∧ { u with regs := s.regs } = w ∧
          t = u.pairUpdate) ∧
        (Ends .pairSwap s fun t => ∃ u : State, u.pairOn = true ∧ (∀ a, a ≠ Reg.pairCtl → u.rd a = s.rd a) ∧ { u with regs := s.regs } = w ∧
          (u.pairUpdate.role = 2 → u.pairUpdate.rf Reg.pairStatus pairStatus_ELIGIBLE = 1 → t.pair.reqAt = some s.ictNs) ∧
          (u.pairUpdate.role ≠ 2 → t = u.pairUpdate)) ∧
        (Ends .pairForce s fun t => ∃ u : State, u.pairOn = true ∧ (∀ a, a ≠ Reg.pairCtl → u.rd a = s.rd a) ∧ { u with regs := s.regs } = w ∧
          t = (if u.pairUpdate.role = 2 ∧ u.pairUpdate.rf Reg.pairStatus pairStatus_ELIGIBLE = 0 then u.pairUpdate.enterTaking else u.pairUpdate))))

/-! ### The Lantern: power, alarms, boot, Trailbook -/

/-- R26, R403 to R408, R410, R411 and R414 to R417: an entry completes in its state once no crossing holds a transfer and
no host read is outstanding, or in P4 takes the power; a wake source that
is armed is latched and, in P2 or P3, starts the exit; an exit from P2 finds the banks it is told of LOST and goes on;
an idle island is gated in P1; TRIM_CFG holds an IDLE of at least 1. -/
def Obligations.PowerTransitions : Prop :=
  (∀ s : State, (s.power.trans = none ∨ ∃ t0, s.power.trans = some t0 ∧ t0.entry = false) → EndsSettled .powerEntryComplete s fun t => t = s) ∧
  (∀ (tgt who since : Nat) (woken : Bool) (s : State), s.power.trans = some ⟨true, tgt, who, woken, since⟩ →
    let c := Instr.powerEntryComplete
    (tgt < 2 → EndsSettled c s fun t => ∃ u : State, u.pstate = tgt ∧ u.rf Reg.pwrStatus pwrStatus_BUSY = 0 ∧
      u.power = { s.power with trans := none } ∧ { u with regs := s.regs, power := s.power } = s ∧
      t = (u.markBusy.trimApply.pairUpdate.powerEnd who 0).runPending) ∧
    (2 ≤ tgt →
      let k := if since + 1000000 ≤ s.ictNs then (s.killTags 0 [0, 1]).killTags 1 [0, 1] else s
      (k.crossing = true ∨ k.readsOut = true → EndsSettled c s fun t => t = k) ∧
      (k.crossing = false → k.readsOut = false →
        (tgt = 2 → EndsSettled c s fun t => ∃ u : State, u.pstate = 2 ∧ u.rf Reg.pwrStatus pwrStatus_BUSY = 0 ∧
          u.power = { k.power with trans := none, inState := some who, outcome := if woken = true then 3 else 0 } ∧
          { u with regs := k.regs, power := k.power } = k ∧ t = (if woken = true then u.startExit else u)) ∧
        (tgt = 3 → woken = false → EndsSettled c s fun t => t.pstate = 3 ∧ t.mem = k.mem ∧ t.threads = k.threads ∧
          ∀ i, 1 ≤ i → i ≤ 0x68 → (t.island i).power = .off ∧ (t.island i).aligned = false) ∧
        (tgt = 4 → EndsSettled c s fun t => t.boot.phase = .off ∧ t.pins.porstN = false ∧ t.pins.perstN = k.pins.perstN ∧
          t.regs = [] ∧ t.mem = [] ∧ t.threads = [] ∧ t.slots = [] ∧ t.fuses = k.fuses ∧ t.tb.recs = k.tb.recs ∧ t.pending = k.pending)))) ∧
  (∀ (code : Fin 9) (s : State),
    let arm := s.power.armed = true ∧ (7 ≤ code.val ∨ (s.rd Reg.wakeEn).toNat.testBit (code.val - 1) = true)
    (code.val = 0 → exec (.wakeEvent code) s = .next s) ∧
    (code.val ≠ 0 → ¬arm → s.power.trans = none → exec (.wakeEvent code) s = .next s) ∧
    (code.val ≠ 0 → arm → s.power.trans = none → s.pstate = 2 → s.power.firstWake = 0 → Ends (.wakeEvent code) s fun t =>
      t.rf Reg.wakeLatch ⟨code.val - 1, 1⟩ = 1 ∧ t.rf Reg.pwrStatus pwrStatus_BUSY = 1 ∧ t.rf Reg.pwrStatus pwrStatus_LAST_WAKE = code.val ∧
      t.power = { s.power with armed := false, firstWake := code.val, trans := some ⟨false, s.rf Reg.pwrStatus pwrStatus_RESUME, s.power.inState.getD 0, true, s.ictNs⟩ } ∧
      { t with regs := s.regs, power := s.power } = s) ∧
    (∀ tgt who since, code.val ≠ 0 → arm → s.power.trans = some ⟨true, tgt, who, false, since⟩ → s.power.firstWake = 0 → Ends (.wakeEvent code) s fun t =>
      t.rf Reg.wakeLatch ⟨code.val - 1, 1⟩ = 1 ∧
      t.power = { s.power with firstWake := code.val, trans := some ⟨true, tgt, who, true, since⟩ } ∧ { t with regs := s.regs, power := s.power } = s) ∧
    (∀ t0, code.val ≠ 0 → s.power.trans = some t0 → t0.entry = false → (s.rd Reg.wakeEn).toNat.testBit (code.val - 1) = true →
      Ends (.wakeEvent code) s fun t => t.rf Reg.wakeLatch ⟨code.val - 1, 1⟩ = 1 ∧ { t with regs := s.regs } = s)) ∧
  (∀ s : State,
    let at_ := s.rdN Reg.wakeTimer 2
    (at_ = 0 ∨ s.ictNs < at_ → exec .wakeTimer s = .next s) ∧ (at_ ≠ 0 → at_ ≤ s.ictNs → exec .wakeTimer s = exec (.wakeEvent 5) s)) ∧
  (∀ (checks : List BankCheck) (parity : Option (Fin 256)) (s : State),
    let c := Instr.powerExitComplete checks parity
    ((s.power.trans = none ∨ ∃ t0, s.power.trans = some t0 ∧ t0.entry = true) → EndsSettled c s fun t => t = s) ∧
    (∀ t0, s.power.trans = some t0 → t0.entry = false → s.pstate = 2 → s.power.keysOff = false → s.bankMarked 176 = false →
      (checks = [] → EndsSettled c s fun t => ∃ u : State, (∀ b, b < 181 → (u.rd (Reg.retStatus b)).toNat = (s.rd (Reg.retStatus b)).toNat % 4) ∧
        u.keyCache = [] ∧ { u with regs := s.regs, keyCache := s.keyCache } = s ∧ t = u.exitEnd 2 t0.who) ∧
      (∀ k : BankCheck, checks = [k] → 48 ≤ k.bank.val → k.bank.val < 80 → k.eccUncorr = true → EndsSettled c s fun t => ∃ u : State,
        (u.rd (Reg.retStatus k.bank.val)).getLsbD 0 = true ∧ (u.rd (Reg.retStatus k.bank.val)).getLsbD 3 = true ∧
        (∀ a, u.ldByte a = if bankOf a = some k.bank.val then 0 else s.ldByte a) ∧
        u.keyCache = [] ∧ { u with regs := s.regs, mem := s.mem, tb := s.tb, ferry := s.ferry, keyCache := s.keyCache } = s ∧ t = u.exitEnd 2 t0.who))) ∧
  (∀ (island : Fin 256) (s : State),
    let x := s.island island.val
    let gates := s.pstate = 1 ∧ gateable island.val = true ∧ x.power = .on ∧ s.islandIdle island.val = true ∧
      x.busyAt + 1000 * s.rf Reg.trimCfg trimCfg_IDLE ≤ s.ictNs
    (¬gates → exec (.islandIdleGate island) s = .next s) ∧
    (gates → Ends (.islandIdleGate island) s fun t => t.island island.val = { x with power := .gated, aligned := false } ∧
      (∀ j, j ≠ island.val → t.island j = s.island j) ∧ { t with isl := s.isl } = s)) ∧
  (∀ (v : W64) (s : State), Open s Reg.trimCfg → EndsSettled (.trimCfgWrite v) s fun t => ∃ u : State,
    u.rdN Reg.trimCfg 2 = (v.toNat % 2 ^ 48) + (if (v.extractLsb' 38 10).toNat = 0 then 2 ^ 38 else 0) ∧
    { u with regs := s.regs } = s.dropHeld Reg.trimCfg 2 ∧ t = (if s.pstate = 1 then u.trimApply.pairUpdate else u))

/-- R258, R431 to R433 and R441: an alarm is latched, closes the cryptography and sets zeroisation going; its condition
ends; CLEAR, by St0 or St1 (another steward's is recorded and raises the control-access exception), ends fail-closed when no alarm is active and the keys were not lost; the temperatures decide
THERM_WARN, THERM_TRIP and the pin. -/
def Obligations.Alarms : Prop :=
  (∀ (code : Fin 6) (source : Byte) (reading : W32) (s : State),
    (s.boot.phase = .off → exec (.alarm code source reading) s = .next s) ∧
    (s.boot.phase ≠ .off → code.val = 0 → EndsSettled (.alarm code source reading) s fun t => t = s.pairUpdate) ∧
    (s.boot.phase ≠ .off → code.val ≠ 0 → EndsSettled (.alarm code source reading) s fun t => ∃ u : State,
      u.rf Reg.alarmStatus ⟨code.val - 1, 1⟩ = 1 ∧ u.rf Reg.alarmStatus ⟨4 + code.val, 1⟩ = 1 ∧
      u.rf Reg.alarmStatus alarmStatus_FAIL_CLOSED = 1 ∧ u.rf (Reg.devStatus 0) devStatus_FAIL_CLOSED = 1 ∧
      u.rf (Reg.devStatus 1) devStatus_FAIL_CLOSED = 1 ∧ u.zeroising = some code.val ∧ u.mem = s.mem ∧
      (s.pstate ≠ 3 → u.keyCache = [] ∧ ∀ j ∈ u.ciphJobs, j.eng.isSome = true → j.fail.isSome = true) ∧ t = u.pairUpdate) ∧
    (code.val = 0 → exec (.alarmConditionEnds code) s = .next s) ∧
    (code.val ≠ 0 → Ends (.alarmConditionEnds code) s fun t => t.rf Reg.alarmStatus ⟨code.val - 1, 1⟩ = 0 ∧
      t.rf Reg.alarmStatus alarmStatus_SEEN = s.rf Reg.alarmStatus alarmStatus_SEEN ∧
      t.rf Reg.alarmStatus alarmStatus_FAIL_CLOSED = s.rf Reg.alarmStatus alarmStatus_FAIL_CLOSED ∧ { t with regs := s.regs } = s)) ∧
  (∀ (st : Fin 4) (s : State),
    let bars := s.rf Reg.alarmStatus alarmStatus_FAIL_CLOSED = 0 ∨ s.rf Reg.alarmStatus alarmStatus_ACTIVE ≠ 0 ∨
      (s.rf Reg.alarmStatus alarmStatus_SEEN).testBit 3 = true
    (s.threadReady (2048 + st.val) = false → exec (.alarmClear st) s = .next s) ∧
    (2 ≤ st.val → s.threadReady (2048 + st.val) = true → s.boot.phase ≠ .off → exec (.alarmClear st) s = .next
      ((s.secureDenied (.steward st.val) Reg.alarmCtl).takeException (2048 + st.val) excCtlAccess (s.stw st.val).t.pc Reg.alarmCtl)) ∧
    (OpenTo s (.steward st.val) Reg.alarmCtl 4 → (bars → exec (.alarmClear st) s = .next s) ∧
      (¬bars → Ends (.alarmClear st) s fun t => t.rf Reg.alarmStatus alarmStatus_FAIL_CLOSED = 0 ∧
        t.rf Reg.alarmStatus alarmStatus_SEEN = 0 ∧ t.rf (Reg.devStatus 0) devStatus_FAIL_CLOSED = 0 ∧
        t.rf (Reg.devStatus 1) devStatus_FAIL_CLOSED = 0 ∧ t.mem = s.mem ∧ t.slots = s.slots))) ∧
  (∀ (c : Instr) (temp : Nat → Byte) (s : State), s.pairOn = false →
    (∃ (i : Fin 16) (x : Byte), (c = .thermWarn i x ∨ c = .thermTrip i x) ∧ ∀ j, temp j = if j = i.val then x else Tab.get 0 s.temps j) ∨
      (∃ bs : List Byte, c = .thermTripWithdrawn bs ∧ ∀ j, j < 16 → temp j = bs[j]?.getD (Tab.get 0 s.temps j)) →
    let hot := fun (lim : Int) => ∃ i, i < 16 ∧ lim ≤ (temp i).toInt
    Ends c s fun t => (∀ j, j < 16 → Tab.get 0 t.temps j = temp j) ∧ (t.rf Reg.alarmStatus alarmStatus_THERM_WARN = 1 ↔ hot 100) ∧
      (t.rf Reg.alarmStatus alarmStatus_THERM_TRIP = 1 ↔ hot 105 ∨ (s.rf Reg.alarmStatus alarmStatus_THERM_TRIP = 1 ∧ hot 100)) ∧
      t.pins = { s.pins with thermLow := decide (t.rf Reg.alarmStatus alarmStatus_THERM_TRIP = 1) } ∧
      (∃ i, i < 16 ∧ (temp i).toNat = t.rf Reg.alarmStatus alarmStatus_TEMP_MAX ∧ ∀ j, j < 16 → (temp j).toInt ≤ (temp i).toInt) ∧
      t.mem = s.mem)

/-- R107, R421, R424 to R426, R428 to R430 and R446: PORST_N takes everything but Trailbook, fuses and pin levels, and its
release starts the Lantern; boot waits for its monitors, loads the fuses and tries a slot; an image that fails its checks
is recorded and the other slot tried; both are tried again after 10 s; fuse operations begin by St0 and St1 alone, one at
a time, and end with their code; another steward's write is recorded and raises the control-access exception. -/
def Obligations.BootAndFuses : Prop :=
  (∀ (torn : Bool) (s : State), Ends (.porstAssert torn) s fun t => t.boot.phase = .off ∧ t.pins.porstN = false ∧ t.pins.perstN = s.pins.perstN ∧
    t.pins.holdIn = s.pins.holdIn ∧ t.regs = [] ∧ t.mem = [] ∧ t.threads = [] ∧ t.frames = [] ∧ t.slots = [] ∧ t.loaded = [] ∧
    t.fuses = s.fuses ∧ t.tb.queue = [] ∧ (torn = false → t.tb.recs = s.tb.recs ∧ t.tb.index = s.tb.index) ∧ t.pending = s.pending) ∧
  (∀ (mode : Bool) (addr : BitVec 2) (s : State),
    (s.pins.porstN = true → exec (.porstRelease mode addr) s = .next s) ∧
    (s.pins.porstN = false → exec (.porstRelease mode addr) s = .next
      { s with pins := { s.pins with porstN := true, sbMode := mode, sbAddr := addr }, boot := { phase := .monitors }, tb := { s.tb with bootCount := s.tb.bootCount + 1 }, clock := {} })) ∧
  (∀ (m : Fin 10) (reading : W32) (s : State),
    let late := s.boot.phase = .monitors ∧ s.boot.reboot = false ∧ s.boot.envRecorded = false ∧ 100000000 ≤ s.ictNs
    (¬late → exec (.envOutOfSpec m reading) s = .next s) ∧
    (late → Ends (.envOutOfSpec m reading) s fun t => t.boot = { s.boot with envRecorded := true } ∧
      { t with boot := s.boot, tb := s.tb, regs := s.regs } = s)) ∧
  (∀ (pref : Option (Fin 2)) (s : State),
    let o := s.rf Reg.bootCtl bootCtl_SLOT_OVERRIDE
    let first := s.boot.force.getD (if o ≠ 0 then o - 1 else (pref.map Fin.val).getD 0)
    (s.boot.phase ≠ .monitors → exec (.bootMonitorsReady pref none) s = .next s) ∧
    (s.boot.phase = .monitors → Ends (.bootMonitorsReady pref none) s fun t => t.loaded = s.fuses ∧ t.boot.phase = .copying ∧
      t.boot.slot = first ∧ t.boot.reasons = [] ∧ t.rf Reg.bootStatus bootStatus_FALLBACK = 0 ∧
      t.rf Reg.bootStatus bootStatus_COUNTER = s.rollbackCounter % 256 ∧ (∀ k, k < 4 → (t.stw k).evec = Config.bootEvec.setWidth 64) ∧
      t.mem = s.mem ∧ t.fuses = s.fuses) ∧
    (s.boot.phase ≠ .failed ∨ s.ictNs < s.boot.failedAt + 10000000000 → exec (.bootRetry pref) s = .next s) ∧
    (s.boot.phase = .failed → s.boot.failedAt + 10000000000 ≤ s.ictNs → Ends (.bootRetry pref) s fun t => t.boot.phase = .copying ∧
      t.boot.slot = first ∧ t.boot.reasons = [] ∧ { t with boot := s.boot, regs := s.regs } = s)) ∧
  (∀ (img : List Byte) (ok : Bool) (s : State),
    let c := Instr.imageCopyComplete img ok
    let u := s.stBytes imageCopyBase (img.take 0x4000000)
    (s.boot.phase ≠ .copying → EndsSettled c s fun t => t = s) ∧
    (s.boot.phase = .copying → ok = false → s.boot.reasons = [] → EndsSettled c s fun t => t.boot.phase = .copying ∧
      t.boot.slot = 1 - s.boot.slot ∧ t.boot.reasons = [(s.boot.slot, 6)] ∧ t.rf Reg.bootStatus bootStatus_REASON = 6 ∧
      t.rf Reg.bootStatus bootStatus_FALLBACK = 1 ∧ t.mem = s.mem) ∧
    (s.boot.phase = .copying → ok = false → s.boot.reasons.length = 1 → EndsSettled c s fun t => t.boot.phase = .failed ∧
      t.boot.failedAt = s.ictNs ∧ t.rf (Reg.devStatus 0) devStatus_BOOT_FAILED = 1 ∧ t.rf (Reg.devStatus 1) devStatus_BOOT_FAILED = 1) ∧
    (∀ r, s.boot.phase = .copying → ok = true → s.imageFault img = some r → EndsSettled c s fun t => t = u.rejectImage r.1 r.2) ∧
    (s.boot.phase = .copying → ok = true → s.imageFault img = none → EndsSettled c s fun t => t.boot.phase = .running ∧
      t.rf (Reg.devStatus 0) devStatus_BOOT_FAILED = 0 ∧ t.rf (Reg.devStatus 1) devStatus_BOOT_FAILED = 0 ∧
      t.boot.rollback = imgNat img 0x0C 1 ∧ t.boot.buildId = imgNat img 0x10 4 ∧
      (∀ k, k < 4 → (t.stw k).t.pc = imgNat img (0x18 + 4 * k) 4 ∧ (t.stw k).t.run = .ready))) ∧
  (∀ (st : Fin 4) (row : Fin 256) (s : State),
    let d := (s.rd Reg.fuseData).toNat
    let begins := fun (c : Instr) (op r code : Nat) => Ends c s fun t => t.fuseOp = some ⟨op, r, d, code⟩ ∧
      t.rf Reg.fuseResult fuseResult_BUSY = 1 ∧ { t with fuseOp := s.fuseOp, regs := s.regs } = s
    let who := Initiator.steward st.val
    let rows := [(Instr.programRow st row, Reg.fuseCmd), (.rollbackSet st, Reg.fuseCmd), (.loadPairKey st, Reg.fuseCmd), (.reboot st, Reg.bootCtl)]
    (s.threadReady (2048 + st.val) = false → ∀ p ∈ rows, exec p.1 s = .next s) ∧
    (2 ≤ st.val → s.threadReady (2048 + st.val) = true → s.boot.phase ≠ .off → ∀ p ∈ rows, exec p.1 s = .next
      ((s.secureDenied who p.2).takeException (2048 + st.val) excCtlAccess (s.stw st.val).t.pc p.2)) ∧
    (OpenTo s who Reg.fuseCmd 4 →
      (s.rf Reg.fuseResult fuseResult_BUSY = 1 → ∀ c ∈ [Instr.programRow st row, .rollbackSet st, .loadPairKey st], exec c s = .next s) ∧
      (s.rf Reg.fuseResult fuseResult_BUSY = 0 →
        begins (.programRow st row) 1 row.val (if 2 ≤ row.val ∧ row.val ≤ 5 then 2 else if d &&& s.fuseLocked row.val ≠ 0 then 1 else 0) ∧
        begins (.rollbackSet st) 2 0 (if s.boot.rollback < d % 256 ∨ d % 256 ≤ s.rollbackCounter ∨ 128 < d % 256 then 2 else 0) ∧
        begins (.loadPairKey st) 3 0 (if s.pairSecret = 0 then 2 else 0))) ∧
    (OpenTo s who Reg.bootCtl 4 → s.rf Reg.bootCtl bootCtl_SLOT_OVERRIDE < 3 →
      (s.rf Reg.pwrStatus pwrStatus_BUSY = 1 → Ends (.reboot st) s fun t => { t with regs := s.regs } = s) ∧
      (s.rf Reg.pwrStatus pwrStatus_BUSY = 0 → Ends (.reboot st) s fun t =>
        ∃ u : State, { u with regs := s.regs } = s ∧ t = u.restart ∧ t.boot.phase = .monitors ∧ t.boot.reboot = true ∧ t.threads = []))) ∧
  (∀ (ok : Bool) (s : State),
    (s.fuseOp = none → exec (.fuseProgrammed ok) s = .next s) ∧
    (∀ r d code, s.fuseOp = some ⟨1, r, d, code⟩ → code < 4 →
      let good := code = 0 ∧ ok = true
      Ends (.fuseProgrammed ok) s fun t => t.fuseOp = none ∧ t.rf Reg.fuseResult fuseResult_BUSY = 0 ∧
        t.rf Reg.fuseResult fuseResult_CODE = (if code = 0 ∧ ok = false then 3 else code) ∧
        (∀ x, Tab.get 0 t.fuses x = if good ∧ x = r then Tab.get 0 s.fuses x ||| BitVec.ofNat 32 d else Tab.get 0 s.fuses x) ∧
        { t with fuseOp := s.fuseOp, fuses := s.fuses, regs := s.regs, tb := s.tb } = s) ∧
    (∀ d, s.fuseOp = some ⟨3, 0, d, 2⟩ → Ends (.fuseProgrammed ok) s fun t => t.rf Reg.fuseResult fuseResult_CODE = 2 ∧
      t.rf Reg.fuseResult fuseResult_BUSY = 0 ∧ { t with fuseOp := s.fuseOp, regs := s.regs } = s))

/-- R434 to R437: the oldest queued record is written at the next location; a fatal one freezes the 4,096 locations that
end with it unless a freeze holds; tokens come back up to 4,096 records; reads mark frozen records, and RELEASE is taken
when all are read; firmware codes below 0x8000 commit nothing; the sideband answers in P0 and P1. -/
def Obligations.TrailbookCommands : Prop :=
  (∀ s : State,
    (s.tb.queue = [] ∨ (∃ t0, s.tb.wroteAt = some t0 ∧ s.ictNs < t0 + 100) → exec .trailbookWrite s = .next s) ∧
    (∀ q rest, s.tb.queue = q :: rest → (∀ t0, s.tb.wroteAt = some t0 → t0 + 100 ≤ s.ictNs) →
      let r : TbRec := ⟨q.tod / 2 ^ 24, q.tod % 2 ^ 24 / 256, q.code, q.island, q.flags, s.tb.bootCount % 65536, s.tb.index, q.data, false⟩
      let fatal := q.flags % 2 = 1
      let run := (s.tb.loc + 32768 - 4095) % 32768
      (¬fatal → s.tb.frozen = none → exec .trailbookWrite s = .next
        { s with tb := { s.tb with recs := Tab.put s.tb.recs s.tb.loc r, queue := rest, index := (s.tb.index + 1) % 2 ^ 32, loc := (s.tb.loc + 1) % 32768, wroteAt := some s.ictNs } }) ∧
      (fatal → s.tb.frozen = none → Ends .trailbookWrite s fun t => t.tb.recs = Tab.put s.tb.recs s.tb.loc r ∧ t.tb.queue = rest ∧
        t.tb.frozen = some run ∧ t.tb.read = [] ∧ t.tb.index = (s.tb.index + 1) % 2 ^ 32 ∧ t.tb.wroteAt = some s.ictNs ∧ t.mem = s.mem ∧
        t.rf (Reg.devStatus 0) devStatus_TB_FROZEN = 1 ∧ t.rf (Reg.devStatus 1) devStatus_TB_FROZEN = 1) ∧
      (∀ f, fatal → s.tb.frozen = some f → Ends .trailbookWrite s fun t => t.tb.recs = Tab.put s.tb.recs s.tb.loc r ∧
        t.tb.frozen = some f ∧ t.tb.read = s.tb.read ∧ t.rd Reg.tbMissed = s.rd Reg.tbMissed + 1 ∧ { t with tb := s.tb, regs := s.regs } = s)) ∧
    exec .tbTokenRefill s = .next
      { s with tb := { s.tb with tokens := min 4096000000 (s.tb.tokens + 8192 * (s.ictNs / 1000 - s.tb.served)), served := s.ictNs / 1000 } } ∧
    (let frees := fun (c : Instr) (w : State) =>
      (w.tb.frozen = none → exec c s = .next w) ∧
      (∀ f, w.tb.frozen = some f → w.tb.read.length < 4096 → exec c s = .next w) ∧
      (∀ f, w.tb.frozen = some f → w.tb.read.length = 4096 → Ends c s fun t => t.tb.frozen = none ∧ t.tb.read = [] ∧
        t.tb.recs = s.tb.recs ∧ t.rf (Reg.devStatus 0) devStatus_TB_FROZEN = 0 ∧ t.rf (Reg.devStatus 1) devStatus_TB_FROZEN = 0 ∧ t.mem = s.mem)
     (Open s Reg.tbFreeze → frees .tbFreezeRelease (s.dropHeld Reg.tbFreeze 1)) ∧
     (s.pstate < 2 → s.boot.phase ≠ .off → frees .tbRelease s)) ∧
    (let on := s.pstate < 2 ∧ s.boot.phase ≠ .off
     (¬on → exec .tbStatus s = .next s ∧ exec .tbRelease s = .next s ∧ ∀ loc count, exec (.tbRead loc count) s = .next s) ∧
     (on → Ends .tbStatus s fun t => { t with out := s.out } = s ∧
       t.out = s.out ++ [.sideband (leBytes 4 s.tb.index ++ leBytes 4 s.tb.loc ++ leBytes 4 (s.tbViewWord 0x1008))]) ∧
     (on → s.tb.frozen = none → ∀ (loc : Fin 32768) (count : Fin 5), Ends (.tbRead loc count) s fun t => { t with out := s.out } = s ∧
       t.out = s.out ++ [.sideband ((List.range count.val).flatMap fun i => s.tbLoc ((loc.val + i) % 32768))]))) ∧
  (∀ (loc : Fin 32768) (s : State), Ends (.trailbookRead loc) s fun t => t.out = s.out ++ [.readData (s.tbLoc loc.val)] ∧
    (s.tb.frozen = none → { t with out := s.out } = s) ∧
    (∀ f, s.tb.frozen = some f → (loc.val + 32768 - f) % 32768 < 4096 → Tab.find t.tb.read loc.val = some true ∧
      { t with out := s.out, tb := s.tb } = s)) ∧
  (∀ (who : Writer) (code : BitVec 16) (fatal : Bool) (s : State), OpenTo s (writerInit who) Reg.tbFwCode 4 →
    (code.toNat < 0x8000 → exec (.tbFwCode who code fatal) s = .next s) ∧
    (0x8000 ≤ code.toNat → fatal = true → Ends (.tbFwCode who code fatal) s fun t => { t with tb := s.tb } = s ∧
      ∃ data, t.tb = { s.tb with tokens := min 4096000000 (s.tb.tokens + 8192 * (s.ictNs / 1000 - s.tb.served)), served := s.ictNs / 1000, queue := s.tb.queue ++ [⟨s.clock.tod, code.toNat, (writerInit who).island, 3, data⟩] } ∧
        ∀ w, w < 10 → leNat (slice data (4 * w) 4) = (Tab.get 0 s.tb.fwData w).toNat))

/-- What reset leaves, as the spec gives it: no command waits; both time scales stand at zero (R27) and both links are down;
the power state is P0 (R403); boot waits for its monitors (R425); the fabric accepts format generation 0 alone; no alarm
holds; every thread, frame, job and queue is empty. Memory that reads zero is the model's choice (log entry 11). -/
def Obligations.ResetState : Prop :=
  State.reset.pending = [] ∧ State.reset.clock = {} ∧ State.reset.pstate = 0 ∧ State.reset.boot.phase = .monitors ∧
  (∀ h, (State.reset.host h).up = false ∧ (State.reset.host h).tags = []) ∧ State.reset.rd Reg.fmtGen = 0 ∧
  State.reset.rd Reg.alarmStatus = 0 ∧ State.reset.pairOn = false ∧ State.reset.role = 0 ∧ State.reset.rd Reg.timeAddend = 0x28000000 ∧
  (∀ a, State.reset.rd a = regReset a) ∧ (∀ a, State.reset.ldByte a = 0) ∧
  (∀ k, k < 16 → (State.reset.cluster k).released = false) ∧ State.reset.frames = [] ∧ State.reset.jobs = [] ∧ State.reset.qps = [] ∧
  State.reset.ciphJobs = [] ∧ (∀ n, n < 262144 → (State.reset.slot n).st = .empty) ∧ Canonical State.reset

/-- Every step keeps the canonical form of memory, of the scratch memories and of the control registers: keys rise strictly
and no entry equals what an unlisted key reads as, so that equal contents are equal data. -/
def Obligations.StepKeepsCanonical : Prop := ∀ s t : State, Canonical s → step s = .next t → Canonical t
end

