-- ==== Sys2Proof/Laws/Afv.lean ====
section
/-! SUPPORT. The fields of an instruction word of each format (R62), and what the decoder reads from it. -/

namespace Sys2Proof.Machine

section
variable (m : Nat) (rd ra rb : BitVec 5) (f : Nat) (pr : BitVec 3)

theorem aForm_toNat (hm : m < 64) (hf : f < 256) : (aForm m rd ra rb f pr).toNat =
    m * 2 ^ 26 + rd.toNat * 2 ^ 21 + ra.toNat * 2 ^ 16 + rb.toNat * 2 ^ 11 + f * 2 ^ 3 + pr.toNat := by
  have := rd.isLt; have := ra.isLt; have := rb.isLt; have := pr.isLt
  simp only [aForm, BitVec.toNat_ofNat]; omega

theorem iForm_toNat (i : BitVec 14) (hm : m < 32) : (iForm m rd ra i pr).toNat =
    m * 2 ^ 27 + i.toNat / 2 ^ 13 * 2 ^ 26 + rd.toNat * 2 ^ 21 + ra.toNat * 2 ^ 16 + i.toNat % 2 ^ 13 * 2 ^ 3 + pr.toNat := by
  have := rd.isLt; have := ra.isLt; have := i.isLt; have := pr.isLt
  simp only [iForm, BitVec.toNat_ofNat]; omega

theorem mForm_toNat (space size : BitVec 2) (off : BitVec 9) (hm : m < 64) : (mForm m rd ra space size off pr).toNat =
    m * 2 ^ 26 + rd.toNat * 2 ^ 21 + ra.toNat * 2 ^ 16 + space.toNat * 2 ^ 14 + size.toNat * 2 ^ 12 + off.toNat * 2 ^ 3 + pr.toNat := by
  have := rd.isLt; have := ra.isLt; have := space.isLt; have := size.isLt; have := off.isLt; have := pr.isLt
  simp only [mForm, BitVec.toNat_ofNat]; omega

theorem bForm_toNat (off : BitVec 20) (hm : m < 64) : (bForm m off pr).toNat = m * 2 ^ 26 + off.toNat * 2 ^ 3 + pr.toNat := by
  have := off.isLt; have := pr.isLt
  simp only [bForm, BitVec.toNat_ofNat]; omega

theorem eForm_toNat (op : Nat) (pd : BitVec 3) (hm : m < 64) (ho : op < 32) : (eForm m rd ra rb op pd pr).toNat =
    m * 2 ^ 26 + rd.toNat * 2 ^ 21 + ra.toNat * 2 ^ 16 + rb.toNat * 2 ^ 11 + op * 2 ^ 6 + pd.toNat * 2 ^ 3 + pr.toNat := by
  have := rd.isLt; have := ra.isLt; have := rb.isLt; have := pd.isLt; have := pr.isLt
  simp only [eForm, BitVec.toNat_ofNat]; omega

theorem tForm_toNat (table : BitVec 4) (klen rcnt : BitVec 2) (pd : BitVec 3) (hm : m < 64) :
    (tForm m rd ra table klen rcnt pd pr).toNat =
    m * 2 ^ 26 + rd.toNat * 2 ^ 21 + ra.toNat * 2 ^ 16 + table.toNat * 2 ^ 12 + klen.toNat * 2 ^ 10 + rcnt.toNat * 2 ^ 8
      + pd.toNat * 2 ^ 5 + pr.toNat := by
  have := rd.isLt; have := ra.isLt; have := table.isLt; have := klen.isLt; have := rcnt.isLt; have := pd.isLt; have := pr.isLt
  simp only [tForm, BitVec.toNat_ofNat]; omega

end

/-! ### The common fields of an A- or K-format word -/

section
variable {m : Nat} (rd ra rb : BitVec 5) {f : Nat} (pr : BitVec 3) (hm : m < 64) (hf : f < 256)
include hm hf

theorem major_aForm : fld (aForm m rd ra rb f pr).toNat 26 6 = m := by
  have := rd.isLt; have := ra.isLt; have := rb.isLt; have := pr.isLt
  rw [aForm_toNat m rd ra rb f pr hm hf, fld]; omega

theorem func_aForm : fld (aForm m rd ra rb f pr).toNat 3 8 = f := by
  have := rd.isLt; have := ra.isLt; have := rb.isLt; have := pr.isLt
  rw [aForm_toNat m rd ra rb f pr hm hf, fld]; omega

theorem wRd_aForm : wRd (aForm m rd ra rb f pr) = rd := by
  have := rd.isLt; have := ra.isLt; have := rb.isLt; have := pr.isLt
  apply BitVec.eq_of_toNat_eq
  rw [wRd, wf, aForm_toNat m rd ra rb f pr hm hf, fld, BitVec.toNat_ofNat]; omega

theorem wRa_aForm : wRa (aForm m rd ra rb f pr) = ra := by
  have := rd.isLt; have := ra.isLt; have := rb.isLt; have := pr.isLt
  apply BitVec.eq_of_toNat_eq
  rw [wRa, wf, aForm_toNat m rd ra rb f pr hm hf, fld, BitVec.toNat_ofNat]; omega

theorem wRb_aForm : wRb (aForm m rd ra rb f pr) = rb := by
  have := rd.isLt; have := ra.isLt; have := rb.isLt; have := pr.isLt
  apply BitVec.eq_of_toNat_eq
  rw [wRb, wf, aForm_toNat m rd ra rb f pr hm hf, fld, BitVec.toNat_ofNat]; omega

theorem afvPred_aForm : afvPred (aForm m rd ra rb f pr) = pr := by
  have := rd.isLt; have := ra.isLt; have := rb.isLt; have := pr.isLt
  apply BitVec.eq_of_toNat_eq
  rw [afvPred, wf, aForm_toNat m rd ra rb f pr hm hf, fld, BitVec.toNat_ofNat]; omega

/-- An A- or K-format word of a major outside the I formats is decoded by its major. -/
theorem decode_aForm (h : m < 8 ∨ 0x22 ≤ m) : afvDecode (aForm m rd ra rb f pr) = decodeMajor (aForm m rd ra rb f pr) m := by
  simp only [afvDecode, major_aForm rd ra rb pr hm hf]
  rw [if_neg (by omega)]

end

end Sys2Proof.Machine
end

