-- ==== Sys2Proof/Laws/Bits.lean ====
section
/-! SUPPORT. Bits of fields, byte strings and their numbers. -/

namespace Sys2Proof.Machine

theorem bit_eq_testBit (x i : Nat) : bit x i = x.testBit i := by
  simp [bit, Nat.testBit_eq_decide_div_mod_eq]

/-- Bit `i` of a field. -/
theorem testBit_fld (x lo n i : Nat) : (fld x lo n).testBit i = (decide (i < n) && x.testBit (lo + i)) := by
  simp [fld, Nat.testBit_mod_two_pow, Nat.testBit_div_two_pow, Nat.add_comm]

theorem fld_lt (x lo n : Nat) : fld x lo n < 2 ^ n := Nat.mod_lt _ (Nat.two_pow_pos n)

/-- Bit `i` of a number with a field replaced. -/
theorem testBit_setFld (x lo n v i : Nat) :
    (setFld x lo n v).testBit i = if lo ≤ i ∧ i < lo + n then v.testBit (i - lo) else x.testBit i := by
  have h : setFld x lo n v = 2 ^ lo * (2 ^ n * (x / 2 ^ (lo + n)) + v % 2 ^ n) + x % 2 ^ lo := by
    simp [setFld, Nat.pow_add, Nat.mul_add, Nat.mul_comm, Nat.mul_assoc]
  rw [h, Nat.testBit_two_pow_mul_add _ (Nat.mod_lt _ (Nat.two_pow_pos lo)),
    Nat.testBit_two_pow_mul_add _ (Nat.mod_lt _ (Nat.two_pow_pos n))]
  simp only [Nat.testBit_mod_two_pow, Nat.testBit_div_two_pow]
  by_cases h1 : i < lo
  · simp [h1, show ¬lo ≤ i by omega]
  · by_cases h2 : i < lo + n
    · simp [h1, h2, show lo ≤ i by omega, show i - lo < n by omega]
    · simp [h1, h2, show ¬(i - lo < n) by omega, show i - lo - n + (lo + n) = i by omega]

/-- The field that was set. -/
theorem fld_setFld (x lo n v : Nat) : fld (setFld x lo n v) lo n = v % 2 ^ n := by
  apply Nat.eq_of_testBit_eq
  intro i
  simp only [testBit_fld, testBit_setFld, Nat.testBit_mod_two_pow]
  by_cases h : i < n <;> simp [h]

/-- A field apart from the one that was set. -/
theorem fld_setFld_ne (x lo n v a m : Nat) (h : a + m ≤ lo ∨ lo + n ≤ a) : fld (setFld x lo n v) a m = fld x a m := by
  apply Nat.eq_of_testBit_eq
  intro i
  simp only [testBit_fld, testBit_setFld]
  by_cases hi : i < m
  · rw [if_neg (by omega)]
  · simp [hi]

theorem setFld_lt (x lo n v k : Nat) (hx : x < 2 ^ k) (h : lo + n ≤ k) : setFld x lo n v < 2 ^ k := by
  apply Nat.lt_pow_two_of_testBit
  intro i hi
  rw [testBit_setFld, if_neg (by omega)]
  exact Nat.testBit_lt_two_pow (Nat.lt_of_lt_of_le hx (Nat.pow_le_pow_right (by omega) hi))

/-- Bits of a sign extension from `n` to `m` bits. -/
theorem testBit_sext (n m x i : Nat) (hn : 0 < n) (hm : n ≤ m) (hi : i < m) :
    (sext n m x).testBit i = if i < n then x.testBit i else x.testBit (n - 1) := by
  have hs : (fld x (n - 1) 1 = 1) = (x.testBit (n - 1) = true) := by
    rw [Nat.testBit_eq_decide_div_mod_eq]; simp [fld]
  unfold sext
  simp only [hs]
  split
  · next h =>
    have e : 2 ^ m - 2 ^ n = 2 ^ n * (2 ^ (m - n) - 1) := by
      rw [Nat.mul_sub, Nat.mul_one, ← Nat.pow_add, show n + (m - n) = m by omega]
    rw [e, Nat.add_comm, Nat.testBit_two_pow_mul_add _ (Nat.mod_lt _ (Nat.two_pow_pos n))]
    by_cases h1 : i < n
    · simp [h1]
    · simp [h1, h, Nat.testBit_two_pow_sub_one]; omega
  · next h =>
    rw [Nat.testBit_mod_two_pow]
    by_cases h1 : i < n <;> simp [h1, h]

/-! ### Byte strings -/

@[simp] theorem leBytes_length (n x : Nat) : (leBytes n x).length = n := by
  induction n generalizing x with
  | zero => rfl
  | succ n ih => simp [leBytes, ih]

/-- Byte `i` of the little-endian bytes of a number. -/
theorem leBytes_getD (n x i : Nat) (h : i < n) : (leBytes n x).getD i 0 = BitVec.ofNat 8 (x / 256 ^ i) := by
  induction n generalizing x i with
  | zero => omega
  | succ n ih =>
    cases i with
    | zero => simp [leBytes]
    | succ i =>
      rw [leBytes, List.getD_cons_succ, ih _ _ (by omega), Nat.div_div_eq_div_mul, Nat.pow_succ, Nat.mul_comm]

/-- The bits of the little-endian number of a byte string. -/
theorem testBit_leNat (bs : List Byte) (i : Nat) : (leNat bs).testBit i = (bs.getD (i / 8) 0).getLsbD (i % 8) := by
  induction bs generalizing i with
  | nil => simp [leNat]
  | cons b bs ih =>
    have h : leNat (b :: bs) = 2 ^ 8 * leNat bs + b.toNat := by simp [leNat, Nat.add_comm]
    rw [h, Nat.testBit_two_pow_mul_add _ b.isLt]
    by_cases hi : i < 8
    · rw [if_pos hi, show i / 8 = 0 by omega, show i % 8 = i by omega]; simp [BitVec.getLsbD]
    · rw [if_neg hi, ih, show i / 8 = (i - 8) / 8 + 1 by omega, List.getD_cons_succ, show (i - 8) % 8 = i % 8 by omega]

theorem leNat_lt (bs : List Byte) : leNat bs < 256 ^ bs.length := by
  induction bs with
  | nil => simp [leNat]
  | cons b bs ih => have := b.isLt; simp only [leNat, List.length_cons, Nat.pow_succ]; omega

end Sys2Proof.Machine
end

