-- ==== Sys2Proof/Laws/Tab.lean ====
section
/-! SUPPORT. Sparse tables: what a read answers after a write, and that a write keeps the canonical form. -/

namespace Sys2Proof.Machine

variable {α : Type}

@[simp] theorem Tab.get_nil (d : α) (k : Nat) : Tab.get d ([] : Tab α) k = d := rfl

/-- A read after a listing answers the listed value at its key, and what it answered before elsewhere. -/
theorem Tab.get_put (d : α) (t : Tab α) (k : Nat) (v : α) (j : Nat) :
    Tab.get d (Tab.put t k v) j = if j = k then v else Tab.get d t j := by
  induction t with
  | nil => simp [Tab.put, Tab.get]
  | cons e t ih =>
    obtain ⟨a, w⟩ := e
    simp only [Tab.put]
    split
    · next h => subst h; by_cases hj : j = k <;> simp [Tab.get, hj]
    · split
      · simp [Tab.get]
      · next h _ =>
        simp only [Tab.get]
        split
        · next hj => subst hj; rw [if_neg (fun h' => h h'.symm)]
        · exact ih

@[simp] theorem Tab.get_put_self (d : α) (t : Tab α) (k : Nat) (v : α) : Tab.get d (Tab.put t k v) k = v := by
  simp [Tab.get_put]

theorem Tab.get_put_ne (d : α) (t : Tab α) {k j : Nat} (v : α) (h : j ≠ k) :
    Tab.get d (Tab.put t k v) j = Tab.get d t j := by simp [Tab.get_put, h]

/-- A read after a removal. -/
theorem Tab.get_del (d : α) (t : Tab α) (k j : Nat) :
    Tab.get d (Tab.del t k) j = if j = k then d else Tab.get d t j := by
  induction t with
  | nil => simp [Tab.del]
  | cons e t ih =>
    obtain ⟨a, w⟩ := e
    simp only [Tab.del]
    split
    · next h =>
      subst h
      rw [ih]
      by_cases hj : j = k <;> simp [Tab.get, hj]
    · next h =>
      simp only [Tab.get]
      split
      · next hj => subst hj; rw [if_neg (fun h' => h h'.symm)]
      · exact ih

/-- A read after a write answers the value written at its key, and what it answered before elsewhere. -/
theorem Tab.get_set [DecidableEq α] (d : α) (t : Tab α) (k : Nat) (v : α) (j : Nat) :
    Tab.get d (Tab.set d t k v) j = if j = k then v else Tab.get d t j := by
  unfold Tab.set
  split
  · next h => subst h; exact Tab.get_del v t k j
  · exact Tab.get_put d t k v j

@[simp] theorem Tab.get_set_self [DecidableEq α] (d : α) (t : Tab α) (k : Nat) (v : α) :
    Tab.get d (Tab.set d t k v) k = v := by simp [Tab.get_set]

/-- A write with a default that depends on the key leaves the reads of other keys alone, whatever default they have. -/
theorem Tab.get_set_ne [DecidableEq α] (d e : α) (t : Tab α) {k j : Nat} (v : α) (h : j ≠ k) :
    Tab.get e (Tab.set d t k v) j = Tab.get e t j := by
  unfold Tab.set
  split
  · simp [Tab.get_del, h]
  · simp [Tab.get_put, h]

/-! ### The canonical form -/

theorem Tab.risesAbove_mono {b c : Nat} (h : b ≤ c) (t : Tab α) (ht : Tab.risesAbove c t = true) :
    Tab.risesAbove b t = true := by
  cases t with
  | nil => rfl
  | cons e t => simp only [Tab.risesAbove, Bool.and_eq_true, decide_eq_true_eq] at *; exact ⟨by omega, ht.2⟩

theorem Tab.risesAbove_put (b : Nat) (t : Tab α) (k : Nat) (v : α) (hk : b < k) (ht : Tab.risesAbove b t = true) :
    Tab.risesAbove b (Tab.put t k v) = true := by
  induction t generalizing b with
  | nil => simp [Tab.put, Tab.risesAbove, hk]
  | cons e t ih =>
    obtain ⟨a, w⟩ := e
    simp only [Tab.risesAbove, Bool.and_eq_true, decide_eq_true_eq] at ht
    simp only [Tab.put]
    split
    · next h => subst h; simp [Tab.risesAbove, hk, ht.2]
    · split
      · next h => simp [Tab.risesAbove, hk, h, ht.2]
      · next h h' =>
        simp only [Tab.risesAbove, Bool.and_eq_true, decide_eq_true_eq]
        exact ⟨ht.1, ih a (by omega) ht.2⟩

theorem Tab.rises_put (t : Tab α) (k : Nat) (v : α) (ht : Tab.rises t = true) : Tab.rises (Tab.put t k v) = true := by
  cases t with
  | nil => simp [Tab.put, Tab.rises, Tab.risesAbove]
  | cons e t =>
    obtain ⟨a, w⟩ := e
    simp only [Tab.rises] at ht
    simp only [Tab.put]
    split
    · next h => subst h; exact ht
    · split
      · next h => simp [Tab.rises, Tab.risesAbove, h, ht]
      · next h h' => exact Tab.risesAbove_put a t k v (by omega) ht

theorem Tab.risesAbove_del (b : Nat) (t : Tab α) (k : Nat) (ht : Tab.risesAbove b t = true) :
    Tab.risesAbove b (Tab.del t k) = true := by
  induction t generalizing b with
  | nil => rfl
  | cons e t ih =>
    obtain ⟨a, w⟩ := e
    simp only [Tab.risesAbove, Bool.and_eq_true, decide_eq_true_eq] at ht
    simp only [Tab.del]
    split
    · exact ih b (Tab.risesAbove_mono (by omega) t ht.2)
    · simp only [Tab.risesAbove, Bool.and_eq_true, decide_eq_true_eq]
      exact ⟨ht.1, ih a ht.2⟩

theorem Tab.rises_of_risesAbove {b : Nat} (t : Tab α) (ht : Tab.risesAbove b t = true) : Tab.rises t = true := by
  cases t with
  | nil => rfl
  | cons e t => simp only [Tab.risesAbove, Bool.and_eq_true] at ht; exact ht.2

theorem Tab.rises_del (t : Tab α) (k : Nat) (ht : Tab.rises t = true) : Tab.rises (Tab.del t k) = true := by
  cases t with
  | nil => rfl
  | cons e t =>
    obtain ⟨a, w⟩ := e
    simp only [Tab.rises] at ht
    simp only [Tab.del]
    split
    · exact Tab.rises_of_risesAbove _ (Tab.risesAbove_del a t k ht)
    · exact Tab.risesAbove_del a t k ht

theorem Tab.mem_put {t : Tab α} {k : Nat} {v : α} {e : Nat × α} (h : e ∈ Tab.put t k v) : e = (k, v) ∨ e ∈ t := by
  induction t with
  | nil => simpa [Tab.put] using h
  | cons x t ih =>
    obtain ⟨a, w⟩ := x
    simp only [Tab.put] at h
    split at h
    · rcases List.mem_cons.1 h with h | h
      · exact .inl h
      · exact .inr (List.mem_cons_of_mem _ h)
    · split at h
      · rcases List.mem_cons.1 h with h | h
        · exact .inl h
        · exact .inr h
      · rcases List.mem_cons.1 h with h | h
        · exact .inr (by simp [h])
        · exact (ih h).imp_right (List.mem_cons_of_mem _)

theorem Tab.mem_del {t : Tab α} {k : Nat} {e : Nat × α} (h : e ∈ Tab.del t k) : e ∈ t := by
  induction t with
  | nil => exact h
  | cons x t ih =>
    obtain ⟨a, w⟩ := x
    simp only [Tab.del] at h
    split at h
    · exact List.mem_cons_of_mem _ (ih h)
    · rcases List.mem_cons.1 h with h | h
      · simp [h]
      · exact List.mem_cons_of_mem _ (ih h)

/-- A write keeps the canonical form. -/
theorem Tab.wf_set [DecidableEq α] (d : Nat → α) (t : Tab α) (k : Nat) (v : α) (ht : Tab.wf d t = true) :
    Tab.wf d (Tab.set (d k) t k v) = true := by
  simp only [Tab.wf, Tab.noDefault, Bool.and_eq_true, List.all_eq_true, decide_eq_true_eq] at *
  unfold Tab.set
  split
  · exact ⟨Tab.rises_del t k ht.1, fun e he => ht.2 e (Tab.mem_del he)⟩
  · next hv =>
    refine ⟨Tab.rises_put t k v ht.1, fun e he => ?_⟩
    rcases Tab.mem_put he with rfl | he
    · exact hv
    · exact ht.2 e he

theorem Tab.wf_nil [DecidableEq α] (d : Nat → α) : Tab.wf d ([] : Tab α) = true := rfl

/-- A part of a canonical table that a test on entries keeps is canonical. -/
theorem Tab.risesAbove_filter (p : Nat × α → Bool) (b : Nat) (t : Tab α) (ht : Tab.risesAbove b t = true) :
    Tab.risesAbove b (t.filter p) = true := by
  induction t generalizing b with
  | nil => rfl
  | cons e t ih =>
    obtain ⟨a, w⟩ := e
    simp only [Tab.risesAbove, Bool.and_eq_true, decide_eq_true_eq] at ht
    simp only [List.filter]
    split
    · simp only [Tab.risesAbove, Bool.and_eq_true, decide_eq_true_eq]
      exact ⟨ht.1, ih a ht.2⟩
    · exact ih b (Tab.risesAbove_mono (by omega) t ht.2)

theorem Tab.wf_filter [DecidableEq α] (d : Nat → α) (p : Nat × α → Bool) (t : Tab α) (ht : Tab.wf d t = true) :
    Tab.wf d (t.filter p) = true := by
  simp only [Tab.wf, Tab.noDefault, Bool.and_eq_true, List.all_eq_true, decide_eq_true_eq] at *
  refine ⟨?_, fun e he => ht.2 e (List.mem_of_mem_filter he)⟩
  cases t with
  | nil => rfl
  | cons e t =>
    obtain ⟨a, w⟩ := e
    have h := ht.1
    simp only [Tab.rises] at h
    simp only [List.filter]
    split
    · exact Tab.risesAbove_filter p a t h
    · exact Tab.rises_of_risesAbove _ (Tab.risesAbove_filter p a t h)

end Sys2Proof.Machine
end

