-- ==== Sys2Proof/Laws/State.lean ====
section
/-! SUPPORT. What the named updates of State leave alone: for each update one lemma per field, so that no later proof
unfolds a record update; and what a read answers after each. -/

namespace Sys2Proof.Machine

/-! ### `State.wr` -/

@[simp] theorem State.wr_pending (s : State) (a : Nat) (v : W32) : (s.wr a v).pending = s.pending := rfl
@[simp] theorem State.wr_free (s : State) (a : Nat) (v : W32) : (s.wr a v).free = s.free := rfl
@[simp] theorem State.wr_out (s : State) (a : Nat) (v : W32) : (s.wr a v).out = s.out := rfl
@[simp] theorem State.wr_mem (s : State) (a : Nat) (v : W32) : (s.wr a v).mem = s.mem := rfl
@[simp] theorem State.wr_scratch (s : State) (a : Nat) (v : W32) : (s.wr a v).scratch = s.scratch := rfl
@[simp] theorem State.wr_served (s : State) (a : Nat) (v : W32) : (s.wr a v).served = s.served := rfl
@[simp] theorem State.wr_held (s : State) (a : Nat) (v : W32) : (s.wr a v).held = s.held := rfl
@[simp] theorem State.wr_clock (s : State) (a : Nat) (v : W32) : (s.wr a v).clock = s.clock := rfl
@[simp] theorem State.wr_tb (s : State) (a : Nat) (v : W32) : (s.wr a v).tb = s.tb := rfl
@[simp] theorem State.wr_boot (s : State) (a : Nat) (v : W32) : (s.wr a v).boot = s.boot := rfl
@[simp] theorem State.wr_power (s : State) (a : Nat) (v : W32) : (s.wr a v).power = s.power := rfl
@[simp] theorem State.wr_pins (s : State) (a : Nat) (v : W32) : (s.wr a v).pins = s.pins := rfl
@[simp] theorem State.wr_fuses (s : State) (a : Nat) (v : W32) : (s.wr a v).fuses = s.fuses := rfl
@[simp] theorem State.wr_loaded (s : State) (a : Nat) (v : W32) : (s.wr a v).loaded = s.loaded := rfl
@[simp] theorem State.wr_fuseOp (s : State) (a : Nat) (v : W32) : (s.wr a v).fuseOp = s.fuseOp := rfl
@[simp] theorem State.wr_temps (s : State) (a : Nat) (v : W32) : (s.wr a v).temps = s.temps := rfl
@[simp] theorem State.wr_zeroising (s : State) (a : Nat) (v : W32) : (s.wr a v).zeroising = s.zeroising := rfl
@[simp] theorem State.wr_isl (s : State) (a : Nat) (v : W32) : (s.wr a v).isl = s.isl := rfl
@[simp] theorem State.wr_threads (s : State) (a : Nat) (v : W32) : (s.wr a v).threads = s.threads := rfl
@[simp] theorem State.wr_entries (s : State) (a : Nat) (v : W32) : (s.wr a v).entries = s.entries := rfl
@[simp] theorem State.wr_cores (s : State) (a : Nat) (v : W32) : (s.wr a v).cores = s.cores := rfl
@[simp] theorem State.wr_clusters (s : State) (a : Nat) (v : W32) : (s.wr a v).clusters = s.clusters := rfl
@[simp] theorem State.wr_stewards (s : State) (a : Nat) (v : W32) : (s.wr a v).stewards = s.stewards := rfl
@[simp] theorem State.wr_signals (s : State) (a : Nat) (v : W32) : (s.wr a v).signals = s.signals := rfl
@[simp] theorem State.wr_gated (s : State) (a : Nat) (v : W32) : (s.wr a v).gated = s.gated := rfl
@[simp] theorem State.wr_nextOp (s : State) (a : Nat) (v : W32) : (s.wr a v).nextOp = s.nextOp := rfl
@[simp] theorem State.wr_frames (s : State) (a : Nat) (v : W32) : (s.wr a v).frames = s.frames := rfl
@[simp] theorem State.wr_nextFrame (s : State) (a : Nat) (v : W32) : (s.wr a v).nextFrame = s.nextFrame := rfl
@[simp] theorem State.wr_attachSeq (s : State) (a : Nat) (v : W32) : (s.wr a v).attachSeq = s.attachSeq := rfl
@[simp] theorem State.wr_insts (s : State) (a : Nat) (v : W32) : (s.wr a v).insts = s.insts := rfl
@[simp] theorem State.wr_hosts (s : State) (a : Nat) (v : W32) : (s.wr a v).hosts = s.hosts := rfl
@[simp] theorem State.wr_xfers (s : State) (a : Nat) (v : W32) : (s.wr a v).xfers = s.xfers := rfl
@[simp] theorem State.wr_nextXfer (s : State) (a : Nat) (v : W32) : (s.wr a v).nextXfer = s.nextXfer := rfl
@[simp] theorem State.wr_readQ (s : State) (a : Nat) (v : W32) : (s.wr a v).readQ = s.readQ := rfl
@[simp] theorem State.wr_groups (s : State) (a : Nat) (v : W32) : (s.wr a v).groups = s.groups := rfl
@[simp] theorem State.wr_pauses (s : State) (a : Nat) (v : W32) : (s.wr a v).pauses = s.pauses := rfl
@[simp] theorem State.wr_ptp (s : State) (a : Nat) (v : W32) : (s.wr a v).ptp = s.ptp := rfl
@[simp] theorem State.wr_macs (s : State) (a : Nat) (v : W32) : (s.wr a v).macs = s.macs := rfl
@[simp] theorem State.wr_lanes (s : State) (a : Nat) (v : W32) : (s.wr a v).lanes = s.lanes := rfl
@[simp] theorem State.wr_reorder (s : State) (a : Nat) (v : W32) : (s.wr a v).reorder = s.reorder := rfl
@[simp] theorem State.wr_spreadLast (s : State) (a : Nat) (v : W32) : (s.wr a v).spreadLast = s.spreadLast := rfl
@[simp] theorem State.wr_slotUntil (s : State) (a : Nat) (v : W32) : (s.wr a v).slotUntil = s.slotUntil := rfl
@[simp] theorem State.wr_staging (s : State) (a : Nat) (v : W32) : (s.wr a v).staging = s.staging := rfl
@[simp] theorem State.wr_fabric (s : State) (a : Nat) (v : W32) : (s.wr a v).fabric = s.fabric := rfl
@[simp] theorem State.wr_outQs (s : State) (a : Nat) (v : W32) : (s.wr a v).outQs = s.outQs := rfl
@[simp] theorem State.wr_spillBacklog (s : State) (a : Nat) (v : W32) : (s.wr a v).spillBacklog = s.spillBacklog := rfl
@[simp] theorem State.wr_polBal (s : State) (a : Nat) (v : W32) : (s.wr a v).polBal = s.polBal := rfl
@[simp] theorem State.wr_copies (s : State) (a : Nat) (v : W32) : (s.wr a v).copies = s.copies := rfl
@[simp] theorem State.wr_toStep (s : State) (a : Nat) (v : W32) : (s.wr a v).toStep = s.toStep := rfl
@[simp] theorem State.wr_captureQ (s : State) (a : Nat) (v : W32) : (s.wr a v).captureQ = s.captureQ := rfl
@[simp] theorem State.wr_captureTokens (s : State) (a : Nat) (v : W32) : (s.wr a v).captureTokens = s.captureTokens := rfl
@[simp] theorem State.wr_captureAt (s : State) (a : Nat) (v : W32) : (s.wr a v).captureAt = s.captureAt := rfl
@[simp] theorem State.wr_qps (s : State) (a : Nat) (v : W32) : (s.wr a v).qps = s.qps := rfl
@[simp] theorem State.wr_hostCmds (s : State) (a : Nat) (v : W32) : (s.wr a v).hostCmds = s.hostCmds := rfl
@[simp] theorem State.wr_cmdWait (s : State) (a : Nat) (v : W32) : (s.wr a v).cmdWait = s.cmdWait := rfl
@[simp] theorem State.wr_replies (s : State) (a : Nat) (v : W32) : (s.wr a v).replies = s.replies := rfl
@[simp] theorem State.wr_mboxes (s : State) (a : Nat) (v : W32) : (s.wr a v).mboxes = s.mboxes := rfl
@[simp] theorem State.wr_mbIntEn (s : State) (a : Nat) (v : W32) : (s.wr a v).mbIntEn = s.mbIntEn := rfl
@[simp] theorem State.wr_ferry (s : State) (a : Nat) (v : W32) : (s.wr a v).ferry = s.ferry := rfl
@[simp] theorem State.wr_ferryTurn (s : State) (a : Nat) (v : W32) : (s.wr a v).ferryTurn = s.ferryTurn := rfl
@[simp] theorem State.wr_slots (s : State) (a : Nat) (v : W32) : (s.wr a v).slots = s.slots := rfl
@[simp] theorem State.wr_keyBanks (s : State) (a : Nat) (v : W32) : (s.wr a v).keyBanks = s.keyBanks := rfl
@[simp] theorem State.wr_stage (s : State) (a : Nat) (v : W32) : (s.wr a v).stage = s.stage := rfl
@[simp] theorem State.wr_ksCode (s : State) (a : Nat) (v : W32) : (s.wr a v).ksCode = s.ksCode := rfl
@[simp] theorem State.wr_notify (s : State) (a : Nat) (v : W32) : (s.wr a v).notify = s.notify := rfl
@[simp] theorem State.wr_keyCache (s : State) (a : Nat) (v : W32) : (s.wr a v).keyCache = s.keyCache := rfl
@[simp] theorem State.wr_keyMiss (s : State) (a : Nat) (v : W32) : (s.wr a v).keyMiss = s.keyMiss := rfl
@[simp] theorem State.wr_ciphJobs (s : State) (a : Nat) (v : W32) : (s.wr a v).ciphJobs = s.ciphJobs := rfl
@[simp] theorem State.wr_rrEngine (s : State) (a : Nat) (v : W32) : (s.wr a v).rrEngine = s.rrEngine := rfl
@[simp] theorem State.wr_ciphIn (s : State) (a : Nat) (v : W32) : (s.wr a v).ciphIn = s.ciphIn := rfl
@[simp] theorem State.wr_ciphOut (s : State) (a : Nat) (v : W32) : (s.wr a v).ciphOut = s.ciphOut := rfl
@[simp] theorem State.wr_stsIn (s : State) (a : Nat) (v : W32) : (s.wr a v).stsIn = s.stsIn := rfl
@[simp] theorem State.wr_stsOut (s : State) (a : Nat) (v : W32) : (s.wr a v).stsOut = s.stsOut := rfl
@[simp] theorem State.wr_ctxCache (s : State) (a : Nat) (v : W32) : (s.wr a v).ctxCache = s.ctxCache := rfl
@[simp] theorem State.wr_stsTx (s : State) (a : Nat) (v : W32) : (s.wr a v).stsTx = s.stsTx := rfl
@[simp] theorem State.wr_stsRx (s : State) (a : Nat) (v : W32) : (s.wr a v).stsRx = s.stsRx := rfl
@[simp] theorem State.wr_ingIn (s : State) (a : Nat) (v : W32) : (s.wr a v).ingIn = s.ingIn := rfl
@[simp] theorem State.wr_jobs (s : State) (a : Nat) (v : W32) : (s.wr a v).jobs = s.jobs := rfl
@[simp] theorem State.wr_unitIn (s : State) (a : Nat) (v : W32) : (s.wr a v).unitIn = s.unitIn := rfl
@[simp] theorem State.wr_shelfResps (s : State) (a : Nat) (v : W32) : (s.wr a v).shelfResps = s.shelfResps := rfl
@[simp] theorem State.wr_hlinks (s : State) (a : Nat) (v : W32) : (s.wr a v).hlinks = s.hlinks := rfl
@[simp] theorem State.wr_pair (s : State) (a : Nat) (v : W32) : (s.wr a v).pair = s.pair := rfl

/-! ### `State.emit` -/

@[simp] theorem State.emit_pending (s : State) (o : Output) : (s.emit o).pending = s.pending := rfl
@[simp] theorem State.emit_free (s : State) (o : Output) : (s.emit o).free = s.free := rfl
@[simp] theorem State.emit_mem (s : State) (o : Output) : (s.emit o).mem = s.mem := rfl
@[simp] theorem State.emit_scratch (s : State) (o : Output) : (s.emit o).scratch = s.scratch := rfl
@[simp] theorem State.emit_regs (s : State) (o : Output) : (s.emit o).regs = s.regs := rfl
@[simp] theorem State.emit_served (s : State) (o : Output) : (s.emit o).served = s.served := rfl
@[simp] theorem State.emit_held (s : State) (o : Output) : (s.emit o).held = s.held := rfl
@[simp] theorem State.emit_clock (s : State) (o : Output) : (s.emit o).clock = s.clock := rfl
@[simp] theorem State.emit_tb (s : State) (o : Output) : (s.emit o).tb = s.tb := rfl
@[simp] theorem State.emit_boot (s : State) (o : Output) : (s.emit o).boot = s.boot := rfl
@[simp] theorem State.emit_power (s : State) (o : Output) : (s.emit o).power = s.power := rfl
@[simp] theorem State.emit_pins (s : State) (o : Output) : (s.emit o).pins = s.pins := rfl
@[simp] theorem State.emit_fuses (s : State) (o : Output) : (s.emit o).fuses = s.fuses := rfl
@[simp] theorem State.emit_loaded (s : State) (o : Output) : (s.emit o).loaded = s.loaded := rfl
@[simp] theorem State.emit_fuseOp (s : State) (o : Output) : (s.emit o).fuseOp = s.fuseOp := rfl
@[simp] theorem State.emit_temps (s : State) (o : Output) : (s.emit o).temps = s.temps := rfl
@[simp] theorem State.emit_zeroising (s : State) (o : Output) : (s.emit o).zeroising = s.zeroising := rfl
@[simp] theorem State.emit_isl (s : State) (o : Output) : (s.emit o).isl = s.isl := rfl
@[simp] theorem State.emit_threads (s : State) (o : Output) : (s.emit o).threads = s.threads := rfl
@[simp] theorem State.emit_entries (s : State) (o : Output) : (s.emit o).entries = s.entries := rfl
@[simp] theorem State.emit_cores (s : State) (o : Output) : (s.emit o).cores = s.cores := rfl
@[simp] theorem State.emit_clusters (s : State) (o : Output) : (s.emit o).clusters = s.clusters := rfl
@[simp] theorem State.emit_stewards (s : State) (o : Output) : (s.emit o).stewards = s.stewards := rfl
@[simp] theorem State.emit_signals (s : State) (o : Output) : (s.emit o).signals = s.signals := rfl
@[simp] theorem State.emit_gated (s : State) (o : Output) : (s.emit o).gated = s.gated := rfl
@[simp] theorem State.emit_nextOp (s : State) (o : Output) : (s.emit o).nextOp = s.nextOp := rfl
@[simp] theorem State.emit_frames (s : State) (o : Output) : (s.emit o).frames = s.frames := rfl
@[simp] theorem State.emit_nextFrame (s : State) (o : Output) : (s.emit o).nextFrame = s.nextFrame := rfl
@[simp] theorem State.emit_attachSeq (s : State) (o : Output) : (s.emit o).attachSeq = s.attachSeq := rfl
@[simp] theorem State.emit_insts (s : State) (o : Output) : (s.emit o).insts = s.insts := rfl
@[simp] theorem State.emit_hosts (s : State) (o : Output) : (s.emit o).hosts = s.hosts := rfl
@[simp] theorem State.emit_xfers (s : State) (o : Output) : (s.emit o).xfers = s.xfers := rfl
@[simp] theorem State.emit_nextXfer (s : State) (o : Output) : (s.emit o).nextXfer = s.nextXfer := rfl
@[simp] theorem State.emit_readQ (s : State) (o : Output) : (s.emit o).readQ = s.readQ := rfl
@[simp] theorem State.emit_groups (s : State) (o : Output) : (s.emit o).groups = s.groups := rfl
@[simp] theorem State.emit_pauses (s : State) (o : Output) : (s.emit o).pauses = s.pauses := rfl
@[simp] theorem State.emit_ptp (s : State) (o : Output) : (s.emit o).ptp = s.ptp := rfl
@[simp] theorem State.emit_macs (s : State) (o : Output) : (s.emit o).macs = s.macs := rfl
@[simp] theorem State.emit_lanes (s : State) (o : Output) : (s.emit o).lanes = s.lanes := rfl
@[simp] theorem State.emit_reorder (s : State) (o : Output) : (s.emit o).reorder = s.reorder := rfl
@[simp] theorem State.emit_spreadLast (s : State) (o : Output) : (s.emit o).spreadLast = s.spreadLast := rfl
@[simp] theorem State.emit_slotUntil (s : State) (o : Output) : (s.emit o).slotUntil = s.slotUntil := rfl
@[simp] theorem State.emit_staging (s : State) (o : Output) : (s.emit o).staging = s.staging := rfl
@[simp] theorem State.emit_fabric (s : State) (o : Output) : (s.emit o).fabric = s.fabric := rfl
@[simp] theorem State.emit_outQs (s : State) (o : Output) : (s.emit o).outQs = s.outQs := rfl
@[simp] theorem State.emit_spillBacklog (s : State) (o : Output) : (s.emit o).spillBacklog = s.spillBacklog := rfl
@[simp] theorem State.emit_polBal (s : State) (o : Output) : (s.emit o).polBal = s.polBal := rfl
@[simp] theorem State.emit_copies (s : State) (o : Output) : (s.emit o).copies = s.copies := rfl
@[simp] theorem State.emit_toStep (s : State) (o : Output) : (s.emit o).toStep = s.toStep := rfl
@[simp] theorem State.emit_captureQ (s : State) (o : Output) : (s.emit o).captureQ = s.captureQ := rfl
@[simp] theorem State.emit_captureTokens (s : State) (o : Output) : (s.emit o).captureTokens = s.captureTokens := rfl
@[simp] theorem State.emit_captureAt (s : State) (o : Output) : (s.emit o).captureAt = s.captureAt := rfl
@[simp] theorem State.emit_qps (s : State) (o : Output) : (s.emit o).qps = s.qps := rfl
@[simp] theorem State.emit_hostCmds (s : State) (o : Output) : (s.emit o).hostCmds = s.hostCmds := rfl
@[simp] theorem State.emit_cmdWait (s : State) (o : Output) : (s.emit o).cmdWait = s.cmdWait := rfl
@[simp] theorem State.emit_replies (s : State) (o : Output) : (s.emit o).replies = s.replies := rfl
@[simp] theorem State.emit_mboxes (s : State) (o : Output) : (s.emit o).mboxes = s.mboxes := rfl
@[simp] theorem State.emit_mbIntEn (s : State) (o : Output) : (s.emit o).mbIntEn = s.mbIntEn := rfl
@[simp] theorem State.emit_ferry (s : State) (o : Output) : (s.emit o).ferry = s.ferry := rfl
@[simp] theorem State.emit_ferryTurn (s : State) (o : Output) : (s.emit o).ferryTurn = s.ferryTurn := rfl
@[simp] theorem State.emit_slots (s : State) (o : Output) : (s.emit o).slots = s.slots := rfl
@[simp] theorem State.emit_keyBanks (s : State) (o : Output) : (s.emit o).keyBanks = s.keyBanks := rfl
@[simp] theorem State.emit_stage (s : State) (o : Output) : (s.emit o).stage = s.stage := rfl
@[simp] theorem State.emit_ksCode (s : State) (o : Output) : (s.emit o).ksCode = s.ksCode := rfl
@[simp] theorem State.emit_notify (s : State) (o : Output) : (s.emit o).notify = s.notify := rfl
@[simp] theorem State.emit_keyCache (s : State) (o : Output) : (s.emit o).keyCache = s.keyCache := rfl
@[simp] theorem State.emit_keyMiss (s : State) (o : Output) : (s.emit o).keyMiss = s.keyMiss := rfl
@[simp] theorem State.emit_ciphJobs (s : State) (o : Output) : (s.emit o).ciphJobs = s.ciphJobs := rfl
@[simp] theorem State.emit_rrEngine (s : State) (o : Output) : (s.emit o).rrEngine = s.rrEngine := rfl
@[simp] theorem State.emit_ciphIn (s : State) (o : Output) : (s.emit o).ciphIn = s.ciphIn := rfl
@[simp] theorem State.emit_ciphOut (s : State) (o : Output) : (s.emit o).ciphOut = s.ciphOut := rfl
@[simp] theorem State.emit_stsIn (s : State) (o : Output) : (s.emit o).stsIn = s.stsIn := rfl
@[simp] theorem State.emit_stsOut (s : State) (o : Output) : (s.emit o).stsOut = s.stsOut := rfl
@[simp] theorem State.emit_ctxCache (s : State) (o : Output) : (s.emit o).ctxCache = s.ctxCache := rfl
@[simp] theorem State.emit_stsTx (s : State) (o : Output) : (s.emit o).stsTx = s.stsTx := rfl
@[simp] theorem State.emit_stsRx (s : State) (o : Output) : (s.emit o).stsRx = s.stsRx := rfl
@[simp] theorem State.emit_ingIn (s : State) (o : Output) : (s.emit o).ingIn = s.ingIn := rfl
@[simp] theorem State.emit_jobs (s : State) (o : Output) : (s.emit o).jobs = s.jobs := rfl
@[simp] theorem State.emit_unitIn (s : State) (o : Output) : (s.emit o).unitIn = s.unitIn := rfl
@[simp] theorem State.emit_shelfResps (s : State) (o : Output) : (s.emit o).shelfResps = s.shelfResps := rfl
@[simp] theorem State.emit_hlinks (s : State) (o : Output) : (s.emit o).hlinks = s.hlinks := rfl
@[simp] theorem State.emit_pair (s : State) (o : Output) : (s.emit o).pair = s.pair := rfl

/-! ### `State.stByte` -/

@[simp] theorem State.stByte_pending (s : State) (a : Nat) (b : Byte) : (s.stByte a b).pending = s.pending := rfl
@[simp] theorem State.stByte_free (s : State) (a : Nat) (b : Byte) : (s.stByte a b).free = s.free := rfl
@[simp] theorem State.stByte_out (s : State) (a : Nat) (b : Byte) : (s.stByte a b).out = s.out := rfl
@[simp] theorem State.stByte_scratch (s : State) (a : Nat) (b : Byte) : (s.stByte a b).scratch = s.scratch := rfl
@[simp] theorem State.stByte_regs (s : State) (a : Nat) (b : Byte) : (s.stByte a b).regs = s.regs := rfl
@[simp] theorem State.stByte_served (s : State) (a : Nat) (b : Byte) : (s.stByte a b).served = s.served := rfl
@[simp] theorem State.stByte_held (s : State) (a : Nat) (b : Byte) : (s.stByte a b).held = s.held := rfl
@[simp] theorem State.stByte_clock (s : State) (a : Nat) (b : Byte) : (s.stByte a b).clock = s.clock := rfl
@[simp] theorem State.stByte_tb (s : State) (a : Nat) (b : Byte) : (s.stByte a b).tb = s.tb := rfl
@[simp] theorem State.stByte_boot (s : State) (a : Nat) (b : Byte) : (s.stByte a b).boot = s.boot := rfl
@[simp] theorem State.stByte_power (s : State) (a : Nat) (b : Byte) : (s.stByte a b).power = s.power := rfl
@[simp] theorem State.stByte_pins (s : State) (a : Nat) (b : Byte) : (s.stByte a b).pins = s.pins := rfl
@[simp] theorem State.stByte_fuses (s : State) (a : Nat) (b : Byte) : (s.stByte a b).fuses = s.fuses := rfl
@[simp] theorem State.stByte_loaded (s : State) (a : Nat) (b : Byte) : (s.stByte a b).loaded = s.loaded := rfl
@[simp] theorem State.stByte_fuseOp (s : State) (a : Nat) (b : Byte) : (s.stByte a b).fuseOp = s.fuseOp := rfl
@[simp] theorem State.stByte_temps (s : State) (a : Nat) (b : Byte) : (s.stByte a b).temps = s.temps := rfl
@[simp] theorem State.stByte_zeroising (s : State) (a : Nat) (b : Byte) : (s.stByte a b).zeroising = s.zeroising := rfl
@[simp] theorem State.stByte_isl (s : State) (a : Nat) (b : Byte) : (s.stByte a b).isl = s.isl := rfl
@[simp] theorem State.stByte_threads (s : State) (a : Nat) (b : Byte) : (s.stByte a b).threads = s.threads := rfl
@[simp] theorem State.stByte_entries (s : State) (a : Nat) (b : Byte) : (s.stByte a b).entries = s.entries := rfl
@[simp] theorem State.stByte_cores (s : State) (a : Nat) (b : Byte) : (s.stByte a b).cores = s.cores := rfl
@[simp] theorem State.stByte_clusters (s : State) (a : Nat) (b : Byte) : (s.stByte a b).clusters = s.clusters := rfl
@[simp] theorem State.stByte_stewards (s : State) (a : Nat) (b : Byte) : (s.stByte a b).stewards = s.stewards := rfl
@[simp] theorem State.stByte_signals (s : State) (a : Nat) (b : Byte) : (s.stByte a b).signals = s.signals := rfl
@[simp] theorem State.stByte_gated (s : State) (a : Nat) (b : Byte) : (s.stByte a b).gated = s.gated := rfl
@[simp] theorem State.stByte_nextOp (s : State) (a : Nat) (b : Byte) : (s.stByte a b).nextOp = s.nextOp := rfl
@[simp] theorem State.stByte_frames (s : State) (a : Nat) (b : Byte) : (s.stByte a b).frames = s.frames := rfl
@[simp] theorem State.stByte_nextFrame (s : State) (a : Nat) (b : Byte) : (s.stByte a b).nextFrame = s.nextFrame := rfl
@[simp] theorem State.stByte_attachSeq (s : State) (a : Nat) (b : Byte) : (s.stByte a b).attachSeq = s.attachSeq := rfl
@[simp] theorem State.stByte_insts (s : State) (a : Nat) (b : Byte) : (s.stByte a b).insts = s.insts := rfl
@[simp] theorem State.stByte_hosts (s : State) (a : Nat) (b : Byte) : (s.stByte a b).hosts = s.hosts := rfl
@[simp] theorem State.stByte_xfers (s : State) (a : Nat) (b : Byte) : (s.stByte a b).xfers = s.xfers := rfl
@[simp] theorem State.stByte_nextXfer (s : State) (a : Nat) (b : Byte) : (s.stByte a b).nextXfer = s.nextXfer := rfl
@[simp] theorem State.stByte_readQ (s : State) (a : Nat) (b : Byte) : (s.stByte a b).readQ = s.readQ := rfl
@[simp] theorem State.stByte_groups (s : State) (a : Nat) (b : Byte) : (s.stByte a b).groups = s.groups := rfl
@[simp] theorem State.stByte_pauses (s : State) (a : Nat) (b : Byte) : (s.stByte a b).pauses = s.pauses := rfl
@[simp] theorem State.stByte_ptp (s : State) (a : Nat) (b : Byte) : (s.stByte a b).ptp = s.ptp := rfl
@[simp] theorem State.stByte_macs (s : State) (a : Nat) (b : Byte) : (s.stByte a b).macs = s.macs := rfl
@[simp] theorem State.stByte_lanes (s : State) (a : Nat) (b : Byte) : (s.stByte a b).lanes = s.lanes := rfl
@[simp] theorem State.stByte_reorder (s : State) (a : Nat) (b : Byte) : (s.stByte a b).reorder = s.reorder := rfl
@[simp] theorem State.stByte_spreadLast (s : State) (a : Nat) (b : Byte) : (s.stByte a b).spreadLast = s.spreadLast := rfl
@[simp] theorem State.stByte_slotUntil (s : State) (a : Nat) (b : Byte) : (s.stByte a b).slotUntil = s.slotUntil := rfl
@[simp] theorem State.stByte_staging (s : State) (a : Nat) (b : Byte) : (s.stByte a b).staging = s.staging := rfl
@[simp] theorem State.stByte_fabric (s : State) (a : Nat) (b : Byte) : (s.stByte a b).fabric = s.fabric := rfl
@[simp] theorem State.stByte_outQs (s : State) (a : Nat) (b : Byte) : (s.stByte a b).outQs = s.outQs := rfl
@[simp] theorem State.stByte_spillBacklog (s : State) (a : Nat) (b : Byte) : (s.stByte a b).spillBacklog = s.spillBacklog := rfl
@[simp] theorem State.stByte_polBal (s : State) (a : Nat) (b : Byte) : (s.stByte a b).polBal = s.polBal := rfl
@[simp] theorem State.stByte_copies (s : State) (a : Nat) (b : Byte) : (s.stByte a b).copies = s.copies := rfl
@[simp] theorem State.stByte_toStep (s : State) (a : Nat) (b : Byte) : (s.stByte a b).toStep = s.toStep := rfl
@[simp] theorem State.stByte_captureQ (s : State) (a : Nat) (b : Byte) : (s.stByte a b).captureQ = s.captureQ := rfl
@[simp] theorem State.stByte_captureTokens (s : State) (a : Nat) (b : Byte) : (s.stByte a b).captureTokens = s.captureTokens := rfl
@[simp] theorem State.stByte_captureAt (s : State) (a : Nat) (b : Byte) : (s.stByte a b).captureAt = s.captureAt := rfl
@[simp] theorem State.stByte_qps (s : State) (a : Nat) (b : Byte) : (s.stByte a b).qps = s.qps := rfl
@[simp] theorem State.stByte_hostCmds (s : State) (a : Nat) (b : Byte) : (s.stByte a b).hostCmds = s.hostCmds := rfl
@[simp] theorem State.stByte_cmdWait (s : State) (a : Nat) (b : Byte) : (s.stByte a b).cmdWait = s.cmdWait := rfl
@[simp] theorem State.stByte_replies (s : State) (a : Nat) (b : Byte) : (s.stByte a b).replies = s.replies := rfl
@[simp] theorem State.stByte_mboxes (s : State) (a : Nat) (b : Byte) : (s.stByte a b).mboxes = s.mboxes := rfl
@[simp] theorem State.stByte_mbIntEn (s : State) (a : Nat) (b : Byte) : (s.stByte a b).mbIntEn = s.mbIntEn := rfl
@[simp] theorem State.stByte_ferry (s : State) (a : Nat) (b : Byte) : (s.stByte a b).ferry = s.ferry := rfl
@[simp] theorem State.stByte_ferryTurn (s : State) (a : Nat) (b : Byte) : (s.stByte a b).ferryTurn = s.ferryTurn := rfl
@[simp] theorem State.stByte_slots (s : State) (a : Nat) (b : Byte) : (s.stByte a b).slots = s.slots := rfl
@[simp] theorem State.stByte_keyBanks (s : State) (a : Nat) (b : Byte) : (s.stByte a b).keyBanks = s.keyBanks := rfl
@[simp] theorem State.stByte_stage (s : State) (a : Nat) (b : Byte) : (s.stByte a b).stage = s.stage := rfl
@[simp] theorem State.stByte_ksCode (s : State) (a : Nat) (b : Byte) : (s.stByte a b).ksCode = s.ksCode := rfl
@[simp] theorem State.stByte_notify (s : State) (a : Nat) (b : Byte) : (s.stByte a b).notify = s.notify := rfl
@[simp] theorem State.stByte_keyCache (s : State) (a : Nat) (b : Byte) : (s.stByte a b).keyCache = s.keyCache := rfl
@[simp] theorem State.stByte_keyMiss (s : State) (a : Nat) (b : Byte) : (s.stByte a b).keyMiss = s.keyMiss := rfl
@[simp] theorem State.stByte_ciphJobs (s : State) (a : Nat) (b : Byte) : (s.stByte a b).ciphJobs = s.ciphJobs := rfl
@[simp] theorem State.stByte_rrEngine (s : State) (a : Nat) (b : Byte) : (s.stByte a b).rrEngine = s.rrEngine := rfl
@[simp] theorem State.stByte_ciphIn (s : State) (a : Nat) (b : Byte) : (s.stByte a b).ciphIn = s.ciphIn := rfl
@[simp] theorem State.stByte_ciphOut (s : State) (a : Nat) (b : Byte) : (s.stByte a b).ciphOut = s.ciphOut := rfl
@[simp] theorem State.stByte_stsIn (s : State) (a : Nat) (b : Byte) : (s.stByte a b).stsIn = s.stsIn := rfl
@[simp] theorem State.stByte_stsOut (s : State) (a : Nat) (b : Byte) : (s.stByte a b).stsOut = s.stsOut := rfl
@[simp] theorem State.stByte_ctxCache (s : State) (a : Nat) (b : Byte) : (s.stByte a b).ctxCache = s.ctxCache := rfl
@[simp] theorem State.stByte_stsTx (s : State) (a : Nat) (b : Byte) : (s.stByte a b).stsTx = s.stsTx := rfl
@[simp] theorem State.stByte_stsRx (s : State) (a : Nat) (b : Byte) : (s.stByte a b).stsRx = s.stsRx := rfl
@[simp] theorem State.stByte_ingIn (s : State) (a : Nat) (b : Byte) : (s.stByte a b).ingIn = s.ingIn := rfl
@[simp] theorem State.stByte_jobs (s : State) (a : Nat) (b : Byte) : (s.stByte a b).jobs = s.jobs := rfl
@[simp] theorem State.stByte_unitIn (s : State) (a : Nat) (b : Byte) : (s.stByte a b).unitIn = s.unitIn := rfl
@[simp] theorem State.stByte_shelfResps (s : State) (a : Nat) (b : Byte) : (s.stByte a b).shelfResps = s.shelfResps := rfl
@[simp] theorem State.stByte_hlinks (s : State) (a : Nat) (b : Byte) : (s.stByte a b).hlinks = s.hlinks := rfl
@[simp] theorem State.stByte_pair (s : State) (a : Nat) (b : Byte) : (s.stByte a b).pair = s.pair := rfl

/-! ### `State.setFrame` -/

@[simp] theorem State.setFrame_pending (s : State) (i : Nat) (f : Frame) : (s.setFrame i f).pending = s.pending := rfl
@[simp] theorem State.setFrame_free (s : State) (i : Nat) (f : Frame) : (s.setFrame i f).free = s.free := rfl
@[simp] theorem State.setFrame_out (s : State) (i : Nat) (f : Frame) : (s.setFrame i f).out = s.out := rfl
@[simp] theorem State.setFrame_mem (s : State) (i : Nat) (f : Frame) : (s.setFrame i f).mem = s.mem := rfl
@[simp] theorem State.setFrame_scratch (s : State) (i : Nat) (f : Frame) : (s.setFrame i f).scratch = s.scratch := rfl
@[simp] theorem State.setFrame_regs (s : State) (i : Nat) (f : Frame) : (s.setFrame i f).regs = s.regs := rfl
@[simp] theorem State.setFrame_served (s : State) (i : Nat) (f : Frame) : (s.setFrame i f).served = s.served := rfl
@[simp] theorem State.setFrame_held (s : State) (i : Nat) (f : Frame) : (s.setFrame i f).held = s.held := rfl
@[simp] theorem State.setFrame_clock (s : State) (i : Nat) (f : Frame) : (s.setFrame i f).clock = s.clock := rfl
@[simp] theorem State.setFrame_tb (s : State) (i : Nat) (f : Frame) : (s.setFrame i f).tb = s.tb := rfl
@[simp] theorem State.setFrame_boot (s : State) (i : Nat) (f : Frame) : (s.setFrame i f).boot = s.boot := rfl
@[simp] theorem State.setFrame_power (s : State) (i : Nat) (f : Frame) : (s.setFrame i f).power = s.power := rfl
@[simp] theorem State.setFrame_pins (s : State) (i : Nat) (f : Frame) : (s.setFrame i f).pins = s.pins := rfl
@[simp] theorem State.setFrame_fuses (s : State) (i : Nat) (f : Frame) : (s.setFrame i f).fuses = s.fuses := rfl
@[simp] theorem State.setFrame_loaded (s : State) (i : Nat) (f : Frame) : (s.setFrame i f).loaded = s.loaded := rfl
@[simp] theorem State.setFrame_fuseOp (s : State) (i : Nat) (f : Frame) : (s.setFrame i f).fuseOp = s.fuseOp := rfl
@[simp] theorem State.setFrame_temps (s : State) (i : Nat) (f : Frame) : (s.setFrame i f).temps = s.temps := rfl
@[simp] theorem State.setFrame_zeroising (s : State) (i : Nat) (f : Frame) : (s.setFrame i f).zeroising = s.zeroising := rfl
@[simp] theorem State.setFrame_isl (s : State) (i : Nat) (f : Frame) : (s.setFrame i f).isl = s.isl := rfl
@[simp] theorem State.setFrame_threads (s : State) (i : Nat) (f : Frame) : (s.setFrame i f).threads = s.threads := rfl
@[simp] theorem State.setFrame_entries (s : State) (i : Nat) (f : Frame) : (s.setFrame i f).entries = s.entries := rfl
@[simp] theorem State.setFrame_cores (s : State) (i : Nat) (f : Frame) : (s.setFrame i f).cores = s.cores := rfl
@[simp] theorem State.setFrame_clusters (s : State) (i : Nat) (f : Frame) : (s.setFrame i f).clusters = s.clusters := rfl
@[simp] theorem State.setFrame_stewards (s : State) (i : Nat) (f : Frame) : (s.setFrame i f).stewards = s.stewards := rfl
@[simp] theorem State.setFrame_signals (s : State) (i : Nat) (f : Frame) : (s.setFrame i f).signals = s.signals := rfl
@[simp] theorem State.setFrame_gated (s : State) (i : Nat) (f : Frame) : (s.setFrame i f).gated = s.gated := rfl
@[simp] theorem State.setFrame_nextOp (s : State) (i : Nat) (f : Frame) : (s.setFrame i f).nextOp = s.nextOp := rfl
@[simp] theorem State.setFrame_nextFrame (s : State) (i : Nat) (f : Frame) : (s.setFrame i f).nextFrame = s.nextFrame := rfl
@[simp] theorem State.setFrame_attachSeq (s : State) (i : Nat) (f : Frame) : (s.setFrame i f).attachSeq = s.attachSeq := rfl
@[simp] theorem State.setFrame_insts (s : State) (i : Nat) (f : Frame) : (s.setFrame i f).insts = s.insts := rfl
@[simp] theorem State.setFrame_hosts (s : State) (i : Nat) (f : Frame) : (s.setFrame i f).hosts = s.hosts := rfl
@[simp] theorem State.setFrame_xfers (s : State) (i : Nat) (f : Frame) : (s.setFrame i f).xfers = s.xfers := rfl
@[simp] theorem State.setFrame_nextXfer (s : State) (i : Nat) (f : Frame) : (s.setFrame i f).nextXfer = s.nextXfer := rfl
@[simp] theorem State.setFrame_readQ (s : State) (i : Nat) (f : Frame) : (s.setFrame i f).readQ = s.readQ := rfl
@[simp] theorem State.setFrame_groups (s : State) (i : Nat) (f : Frame) : (s.setFrame i f).groups = s.groups := rfl
@[simp] theorem State.setFrame_pauses (s : State) (i : Nat) (f : Frame) : (s.setFrame i f).pauses = s.pauses := rfl
@[simp] theorem State.setFrame_ptp (s : State) (i : Nat) (f : Frame) : (s.setFrame i f).ptp = s.ptp := rfl
@[simp] theorem State.setFrame_macs (s : State) (i : Nat) (f : Frame) : (s.setFrame i f).macs = s.macs := rfl
@[simp] theorem State.setFrame_lanes (s : State) (i : Nat) (f : Frame) : (s.setFrame i f).lanes = s.lanes := rfl
@[simp] theorem State.setFrame_reorder (s : State) (i : Nat) (f : Frame) : (s.setFrame i f).reorder = s.reorder := rfl
@[simp] theorem State.setFrame_spreadLast (s : State) (i : Nat) (f : Frame) : (s.setFrame i f).spreadLast = s.spreadLast := rfl
@[simp] theorem State.setFrame_slotUntil (s : State) (i : Nat) (f : Frame) : (s.setFrame i f).slotUntil = s.slotUntil := rfl
@[simp] theorem State.setFrame_staging (s : State) (i : Nat) (f : Frame) : (s.setFrame i f).staging = s.staging := rfl
@[simp] theorem State.setFrame_fabric (s : State) (i : Nat) (f : Frame) : (s.setFrame i f).fabric = s.fabric := rfl
@[simp] theorem State.setFrame_outQs (s : State) (i : Nat) (f : Frame) : (s.setFrame i f).outQs = s.outQs := rfl
@[simp] theorem State.setFrame_spillBacklog (s : State) (i : Nat) (f : Frame) : (s.setFrame i f).spillBacklog = s.spillBacklog := rfl
@[simp] theorem State.setFrame_polBal (s : State) (i : Nat) (f : Frame) : (s.setFrame i f).polBal = s.polBal := rfl
@[simp] theorem State.setFrame_copies (s : State) (i : Nat) (f : Frame) : (s.setFrame i f).copies = s.copies := rfl
@[simp] theorem State.setFrame_toStep (s : State) (i : Nat) (f : Frame) : (s.setFrame i f).toStep = s.toStep := rfl
@[simp] theorem State.setFrame_captureQ (s : State) (i : Nat) (f : Frame) : (s.setFrame i f).captureQ = s.captureQ := rfl
@[simp] theorem State.setFrame_captureTokens (s : State) (i : Nat) (f : Frame) : (s.setFrame i f).captureTokens = s.captureTokens := rfl
@[simp] theorem State.setFrame_captureAt (s : State) (i : Nat) (f : Frame) : (s.setFrame i f).captureAt = s.captureAt := rfl
@[simp] theorem State.setFrame_qps (s : State) (i : Nat) (f : Frame) : (s.setFrame i f).qps = s.qps := rfl
@[simp] theorem State.setFrame_hostCmds (s : State) (i : Nat) (f : Frame) : (s.setFrame i f).hostCmds = s.hostCmds := rfl
@[simp] theorem State.setFrame_cmdWait (s : State) (i : Nat) (f : Frame) : (s.setFrame i f).cmdWait = s.cmdWait := rfl
@[simp] theorem State.setFrame_replies (s : State) (i : Nat) (f : Frame) : (s.setFrame i f).replies = s.replies := rfl
@[simp] theorem State.setFrame_mboxes (s : State) (i : Nat) (f : Frame) : (s.setFrame i f).mboxes = s.mboxes := rfl
@[simp] theorem State.setFrame_mbIntEn (s : State) (i : Nat) (f : Frame) : (s.setFrame i f).mbIntEn = s.mbIntEn := rfl
@[simp] theorem State.setFrame_ferry (s : State) (i : Nat) (f : Frame) : (s.setFrame i f).ferry = s.ferry := rfl
@[simp] theorem State.setFrame_ferryTurn (s : State) (i : Nat) (f : Frame) : (s.setFrame i f).ferryTurn = s.ferryTurn := rfl
@[simp] theorem State.setFrame_slots (s : State) (i : Nat) (f : Frame) : (s.setFrame i f).slots = s.slots := rfl
@[simp] theorem State.setFrame_keyBanks (s : State) (i : Nat) (f : Frame) : (s.setFrame i f).keyBanks = s.keyBanks := rfl
@[simp] theorem State.setFrame_stage (s : State) (i : Nat) (f : Frame) : (s.setFrame i f).stage = s.stage := rfl
@[simp] theorem State.setFrame_ksCode (s : State) (i : Nat) (f : Frame) : (s.setFrame i f).ksCode = s.ksCode := rfl
@[simp] theorem State.setFrame_notify (s : State) (i : Nat) (f : Frame) : (s.setFrame i f).notify = s.notify := rfl
@[simp] theorem State.setFrame_keyCache (s : State) (i : Nat) (f : Frame) : (s.setFrame i f).keyCache = s.keyCache := rfl
@[simp] theorem State.setFrame_keyMiss (s : State) (i : Nat) (f : Frame) : (s.setFrame i f).keyMiss = s.keyMiss := rfl
@[simp] theorem State.setFrame_ciphJobs (s : State) (i : Nat) (f : Frame) : (s.setFrame i f).ciphJobs = s.ciphJobs := rfl
@[simp] theorem State.setFrame_rrEngine (s : State) (i : Nat) (f : Frame) : (s.setFrame i f).rrEngine = s.rrEngine := rfl
@[simp] theorem State.setFrame_ciphIn (s : State) (i : Nat) (f : Frame) : (s.setFrame i f).ciphIn = s.ciphIn := rfl
@[simp] theorem State.setFrame_ciphOut (s : State) (i : Nat) (f : Frame) : (s.setFrame i f).ciphOut = s.ciphOut := rfl
@[simp] theorem State.setFrame_stsIn (s : State) (i : Nat) (f : Frame) : (s.setFrame i f).stsIn = s.stsIn := rfl
@[simp] theorem State.setFrame_stsOut (s : State) (i : Nat) (f : Frame) : (s.setFrame i f).stsOut = s.stsOut := rfl
@[simp] theorem State.setFrame_ctxCache (s : State) (i : Nat) (f : Frame) : (s.setFrame i f).ctxCache = s.ctxCache := rfl
@[simp] theorem State.setFrame_stsTx (s : State) (i : Nat) (f : Frame) : (s.setFrame i f).stsTx = s.stsTx := rfl
@[simp] theorem State.setFrame_stsRx (s : State) (i : Nat) (f : Frame) : (s.setFrame i f).stsRx = s.stsRx := rfl
@[simp] theorem State.setFrame_ingIn (s : State) (i : Nat) (f : Frame) : (s.setFrame i f).ingIn = s.ingIn := rfl
@[simp] theorem State.setFrame_jobs (s : State) (i : Nat) (f : Frame) : (s.setFrame i f).jobs = s.jobs := rfl
@[simp] theorem State.setFrame_unitIn (s : State) (i : Nat) (f : Frame) : (s.setFrame i f).unitIn = s.unitIn := rfl
@[simp] theorem State.setFrame_shelfResps (s : State) (i : Nat) (f : Frame) : (s.setFrame i f).shelfResps = s.shelfResps := rfl
@[simp] theorem State.setFrame_hlinks (s : State) (i : Nat) (f : Frame) : (s.setFrame i f).hlinks = s.hlinks := rfl
@[simp] theorem State.setFrame_pair (s : State) (i : Nat) (f : Frame) : (s.setFrame i f).pair = s.pair := rfl

/-! ### `State.modFrame` -/

@[simp] theorem State.modFrame_pending (s : State) (i : Nat) (g : Frame → Frame) : (s.modFrame i g).pending = s.pending := rfl
@[simp] theorem State.modFrame_free (s : State) (i : Nat) (g : Frame → Frame) : (s.modFrame i g).free = s.free := rfl
@[simp] theorem State.modFrame_out (s : State) (i : Nat) (g : Frame → Frame) : (s.modFrame i g).out = s.out := rfl
@[simp] theorem State.modFrame_mem (s : State) (i : Nat) (g : Frame → Frame) : (s.modFrame i g).mem = s.mem := rfl
@[simp] theorem State.modFrame_scratch (s : State) (i : Nat) (g : Frame → Frame) : (s.modFrame i g).scratch = s.scratch := rfl
@[simp] theorem State.modFrame_regs (s : State) (i : Nat) (g : Frame → Frame) : (s.modFrame i g).regs = s.regs := rfl
@[simp] theorem State.modFrame_served (s : State) (i : Nat) (g : Frame → Frame) : (s.modFrame i g).served = s.served := rfl
@[simp] theorem State.modFrame_held (s : State) (i : Nat) (g : Frame → Frame) : (s.modFrame i g).held = s.held := rfl
@[simp] theorem State.modFrame_clock (s : State) (i : Nat) (g : Frame → Frame) : (s.modFrame i g).clock = s.clock := rfl
@[simp] theorem State.modFrame_tb (s : State) (i : Nat) (g : Frame → Frame) : (s.modFrame i g).tb = s.tb := rfl
@[simp] theorem State.modFrame_boot (s : State) (i : Nat) (g : Frame → Frame) : (s.modFrame i g).boot = s.boot := rfl
@[simp] theorem State.modFrame_power (s : State) (i : Nat) (g : Frame → Frame) : (s.modFrame i g).power = s.power := rfl
@[simp] theorem State.modFrame_pins (s : State) (i : Nat) (g : Frame → Frame) : (s.modFrame i g).pins = s.pins := rfl
@[simp] theorem State.modFrame_fuses (s : State) (i : Nat) (g : Frame → Frame) : (s.modFrame i g).fuses = s.fuses := rfl
@[simp] theorem State.modFrame_loaded (s : State) (i : Nat) (g : Frame → Frame) : (s.modFrame i g).loaded = s.loaded := rfl
@[simp] theorem State.modFrame_fuseOp (s : State) (i : Nat) (g : Frame → Frame) : (s.modFrame i g).fuseOp = s.fuseOp := rfl
@[simp] theorem State.modFrame_temps (s : State) (i : Nat) (g : Frame → Frame) : (s.modFrame i g).temps = s.temps := rfl
@[simp] theorem State.modFrame_zeroising (s : State) (i : Nat) (g : Frame → Frame) : (s.modFrame i g).zeroising = s.zeroising := rfl
@[simp] theorem State.modFrame_isl (s : State) (i : Nat) (g : Frame → Frame) : (s.modFrame i g).isl = s.isl := rfl
@[simp] theorem State.modFrame_threads (s : State) (i : Nat) (g : Frame → Frame) : (s.modFrame i g).threads = s.threads := rfl
@[simp] theorem State.modFrame_entries (s : State) (i : Nat) (g : Frame → Frame) : (s.modFrame i g).entries = s.entries := rfl
@[simp] theorem State.modFrame_cores (s : State) (i : Nat) (g : Frame → Frame) : (s.modFrame i g).cores = s.cores := rfl
@[simp] theorem State.modFrame_clusters (s : State) (i : Nat) (g : Frame → Frame) : (s.modFrame i g).clusters = s.clusters := rfl
@[simp] theorem State.modFrame_stewards (s : State) (i : Nat) (g : Frame → Frame) : (s.modFrame i g).stewards = s.stewards := rfl
@[simp] theorem State.modFrame_signals (s : State) (i : Nat) (g : Frame → Frame) : (s.modFrame i g).signals = s.signals := rfl
@[simp] theorem State.modFrame_gated (s : State) (i : Nat) (g : Frame → Frame) : (s.modFrame i g).gated = s.gated := rfl
@[simp] theorem State.modFrame_nextOp (s : State) (i : Nat) (g : Frame → Frame) : (s.modFrame i g).nextOp = s.nextOp := rfl
@[simp] theorem State.modFrame_nextFrame (s : State) (i : Nat) (g : Frame → Frame) : (s.modFrame i g).nextFrame = s.nextFrame := rfl
@[simp] theorem State.modFrame_attachSeq (s : State) (i : Nat) (g : Frame → Frame) : (s.modFrame i g).attachSeq = s.attachSeq := rfl
@[simp] theorem State.modFrame_insts (s : State) (i : Nat) (g : Frame → Frame) : (s.modFrame i g).insts = s.insts := rfl
@[simp] theorem State.modFrame_hosts (s : State) (i : Nat) (g : Frame → Frame) : (s.modFrame i g).hosts = s.hosts := rfl
@[simp] theorem State.modFrame_xfers (s : State) (i : Nat) (g : Frame → Frame) : (s.modFrame i g).xfers = s.xfers := rfl
@[simp] theorem State.modFrame_nextXfer (s : State) (i : Nat) (g : Frame → Frame) : (s.modFrame i g).nextXfer = s.nextXfer := rfl
@[simp] theorem State.modFrame_readQ (s : State) (i : Nat) (g : Frame → Frame) : (s.modFrame i g).readQ = s.readQ := rfl
@[simp] theorem State.modFrame_groups (s : State) (i : Nat) (g : Frame → Frame) : (s.modFrame i g).groups = s.groups := rfl
@[simp] theorem State.modFrame_pauses (s : State) (i : Nat) (g : Frame → Frame) : (s.modFrame i g).pauses = s.pauses := rfl
@[simp] theorem State.modFrame_ptp (s : State) (i : Nat) (g : Frame → Frame) : (s.modFrame i g).ptp = s.ptp := rfl
@[simp] theorem State.modFrame_macs (s : State) (i : Nat) (g : Frame → Frame) : (s.modFrame i g).macs = s.macs := rfl
@[simp] theorem State.modFrame_lanes (s : State) (i : Nat) (g : Frame → Frame) : (s.modFrame i g).lanes = s.lanes := rfl
@[simp] theorem State.modFrame_reorder (s : State) (i : Nat) (g : Frame → Frame) : (s.modFrame i g).reorder = s.reorder := rfl
@[simp] theorem State.modFrame_spreadLast (s : State) (i : Nat) (g : Frame → Frame) : (s.modFrame i g).spreadLast = s.spreadLast := rfl
@[simp] theorem State.modFrame_slotUntil (s : State) (i : Nat) (g : Frame → Frame) : (s.modFrame i g).slotUntil = s.slotUntil := rfl
@[simp] theorem State.modFrame_staging (s : State) (i : Nat) (g : Frame → Frame) : (s.modFrame i g).staging = s.staging := rfl
@[simp] theorem State.modFrame_fabric (s : State) (i : Nat) (g : Frame → Frame) : (s.modFrame i g).fabric = s.fabric := rfl
@[simp] theorem State.modFrame_outQs (s : State) (i : Nat) (g : Frame → Frame) : (s.modFrame i g).outQs = s.outQs := rfl
@[simp] theorem State.modFrame_spillBacklog (s : State) (i : Nat) (g : Frame → Frame) : (s.modFrame i g).spillBacklog = s.spillBacklog := rfl
@[simp] theorem State.modFrame_polBal (s : State) (i : Nat) (g : Frame → Frame) : (s.modFrame i g).polBal = s.polBal := rfl
@[simp] theorem State.modFrame_copies (s : State) (i : Nat) (g : Frame → Frame) : (s.modFrame i g).copies = s.copies := rfl
@[simp] theorem State.modFrame_toStep (s : State) (i : Nat) (g : Frame → Frame) : (s.modFrame i g).toStep = s.toStep := rfl
@[simp] theorem State.modFrame_captureQ (s : State) (i : Nat) (g : Frame → Frame) : (s.modFrame i g).captureQ = s.captureQ := rfl
@[simp] theorem State.modFrame_captureTokens (s : State) (i : Nat) (g : Frame → Frame) : (s.modFrame i g).captureTokens = s.captureTokens := rfl
@[simp] theorem State.modFrame_captureAt (s : State) (i : Nat) (g : Frame → Frame) : (s.modFrame i g).captureAt = s.captureAt := rfl
@[simp] theorem State.modFrame_qps (s : State) (i : Nat) (g : Frame → Frame) : (s.modFrame i g).qps = s.qps := rfl
@[simp] theorem State.modFrame_hostCmds (s : State) (i : Nat) (g : Frame → Frame) : (s.modFrame i g).hostCmds = s.hostCmds := rfl
@[simp] theorem State.modFrame_cmdWait (s : State) (i : Nat) (g : Frame → Frame) : (s.modFrame i g).cmdWait = s.cmdWait := rfl
@[simp] theorem State.modFrame_replies (s : State) (i : Nat) (g : Frame → Frame) : (s.modFrame i g).replies = s.replies := rfl
@[simp] theorem State.modFrame_mboxes (s : State) (i : Nat) (g : Frame → Frame) : (s.modFrame i g).mboxes = s.mboxes := rfl
@[simp] theorem State.modFrame_mbIntEn (s : State) (i : Nat) (g : Frame → Frame) : (s.modFrame i g).mbIntEn = s.mbIntEn := rfl
@[simp] theorem State.modFrame_ferry (s : State) (i : Nat) (g : Frame → Frame) : (s.modFrame i g).ferry = s.ferry := rfl
@[simp] theorem State.modFrame_ferryTurn (s : State) (i : Nat) (g : Frame → Frame) : (s.modFrame i g).ferryTurn = s.ferryTurn := rfl
@[simp] theorem State.modFrame_slots (s : State) (i : Nat) (g : Frame → Frame) : (s.modFrame i g).slots = s.slots := rfl
@[simp] theorem State.modFrame_keyBanks (s : State) (i : Nat) (g : Frame → Frame) : (s.modFrame i g).keyBanks = s.keyBanks := rfl
@[simp] theorem State.modFrame_stage (s : State) (i : Nat) (g : Frame → Frame) : (s.modFrame i g).stage = s.stage := rfl
@[simp] theorem State.modFrame_ksCode (s : State) (i : Nat) (g : Frame → Frame) : (s.modFrame i g).ksCode = s.ksCode := rfl
@[simp] theorem State.modFrame_notify (s : State) (i : Nat) (g : Frame → Frame) : (s.modFrame i g).notify = s.notify := rfl
@[simp] theorem State.modFrame_keyCache (s : State) (i : Nat) (g : Frame → Frame) : (s.modFrame i g).keyCache = s.keyCache := rfl
@[simp] theorem State.modFrame_keyMiss (s : State) (i : Nat) (g : Frame → Frame) : (s.modFrame i g).keyMiss = s.keyMiss := rfl
@[simp] theorem State.modFrame_ciphJobs (s : State) (i : Nat) (g : Frame → Frame) : (s.modFrame i g).ciphJobs = s.ciphJobs := rfl
@[simp] theorem State.modFrame_rrEngine (s : State) (i : Nat) (g : Frame → Frame) : (s.modFrame i g).rrEngine = s.rrEngine := rfl
@[simp] theorem State.modFrame_ciphIn (s : State) (i : Nat) (g : Frame → Frame) : (s.modFrame i g).ciphIn = s.ciphIn := rfl
@[simp] theorem State.modFrame_ciphOut (s : State) (i : Nat) (g : Frame → Frame) : (s.modFrame i g).ciphOut = s.ciphOut := rfl
@[simp] theorem State.modFrame_stsIn (s : State) (i : Nat) (g : Frame → Frame) : (s.modFrame i g).stsIn = s.stsIn := rfl
@[simp] theorem State.modFrame_stsOut (s : State) (i : Nat) (g : Frame → Frame) : (s.modFrame i g).stsOut = s.stsOut := rfl
@[simp] theorem State.modFrame_ctxCache (s : State) (i : Nat) (g : Frame → Frame) : (s.modFrame i g).ctxCache = s.ctxCache := rfl
@[simp] theorem State.modFrame_stsTx (s : State) (i : Nat) (g : Frame → Frame) : (s.modFrame i g).stsTx = s.stsTx := rfl
@[simp] theorem State.modFrame_stsRx (s : State) (i : Nat) (g : Frame → Frame) : (s.modFrame i g).stsRx = s.stsRx := rfl
@[simp] theorem State.modFrame_ingIn (s : State) (i : Nat) (g : Frame → Frame) : (s.modFrame i g).ingIn = s.ingIn := rfl
@[simp] theorem State.modFrame_jobs (s : State) (i : Nat) (g : Frame → Frame) : (s.modFrame i g).jobs = s.jobs := rfl
@[simp] theorem State.modFrame_unitIn (s : State) (i : Nat) (g : Frame → Frame) : (s.modFrame i g).unitIn = s.unitIn := rfl
@[simp] theorem State.modFrame_shelfResps (s : State) (i : Nat) (g : Frame → Frame) : (s.modFrame i g).shelfResps = s.shelfResps := rfl
@[simp] theorem State.modFrame_hlinks (s : State) (i : Nat) (g : Frame → Frame) : (s.modFrame i g).hlinks = s.hlinks := rfl
@[simp] theorem State.modFrame_pair (s : State) (i : Nat) (g : Frame → Frame) : (s.modFrame i g).pair = s.pair := rfl

/-! ### `State.setStw` -/

@[simp] theorem State.setStw_pending (s : State) (k : Nat) (x : Steward) : (s.setStw k x).pending = s.pending := rfl
@[simp] theorem State.setStw_free (s : State) (k : Nat) (x : Steward) : (s.setStw k x).free = s.free := rfl
@[simp] theorem State.setStw_out (s : State) (k : Nat) (x : Steward) : (s.setStw k x).out = s.out := rfl
@[simp] theorem State.setStw_mem (s : State) (k : Nat) (x : Steward) : (s.setStw k x).mem = s.mem := rfl
@[simp] theorem State.setStw_scratch (s : State) (k : Nat) (x : Steward) : (s.setStw k x).scratch = s.scratch := rfl
@[simp] theorem State.setStw_regs (s : State) (k : Nat) (x : Steward) : (s.setStw k x).regs = s.regs := rfl
@[simp] theorem State.setStw_served (s : State) (k : Nat) (x : Steward) : (s.setStw k x).served = s.served := rfl
@[simp] theorem State.setStw_held (s : State) (k : Nat) (x : Steward) : (s.setStw k x).held = s.held := rfl
@[simp] theorem State.setStw_clock (s : State) (k : Nat) (x : Steward) : (s.setStw k x).clock = s.clock := rfl
@[simp] theorem State.setStw_tb (s : State) (k : Nat) (x : Steward) : (s.setStw k x).tb = s.tb := rfl
@[simp] theorem State.setStw_boot (s : State) (k : Nat) (x : Steward) : (s.setStw k x).boot = s.boot := rfl
@[simp] theorem State.setStw_power (s : State) (k : Nat) (x : Steward) : (s.setStw k x).power = s.power := rfl
@[simp] theorem State.setStw_pins (s : State) (k : Nat) (x : Steward) : (s.setStw k x).pins = s.pins := rfl
@[simp] theorem State.setStw_fuses (s : State) (k : Nat) (x : Steward) : (s.setStw k x).fuses = s.fuses := rfl
@[simp] theorem State.setStw_loaded (s : State) (k : Nat) (x : Steward) : (s.setStw k x).loaded = s.loaded := rfl
@[simp] theorem State.setStw_fuseOp (s : State) (k : Nat) (x : Steward) : (s.setStw k x).fuseOp = s.fuseOp := rfl
@[simp] theorem State.setStw_temps (s : State) (k : Nat) (x : Steward) : (s.setStw k x).temps = s.temps := rfl
@[simp] theorem State.setStw_zeroising (s : State) (k : Nat) (x : Steward) : (s.setStw k x).zeroising = s.zeroising := rfl
@[simp] theorem State.setStw_isl (s : State) (k : Nat) (x : Steward) : (s.setStw k x).isl = s.isl := rfl
@[simp] theorem State.setStw_threads (s : State) (k : Nat) (x : Steward) : (s.setStw k x).threads = s.threads := rfl
@[simp] theorem State.setStw_entries (s : State) (k : Nat) (x : Steward) : (s.setStw k x).entries = s.entries := rfl
@[simp] theorem State.setStw_cores (s : State) (k : Nat) (x : Steward) : (s.setStw k x).cores = s.cores := rfl
@[simp] theorem State.setStw_clusters (s : State) (k : Nat) (x : Steward) : (s.setStw k x).clusters = s.clusters := rfl
@[simp] theorem State.setStw_signals (s : State) (k : Nat) (x : Steward) : (s.setStw k x).signals = s.signals := rfl
@[simp] theorem State.setStw_gated (s : State) (k : Nat) (x : Steward) : (s.setStw k x).gated = s.gated := rfl
@[simp] theorem State.setStw_nextOp (s : State) (k : Nat) (x : Steward) : (s.setStw k x).nextOp = s.nextOp := rfl
@[simp] theorem State.setStw_frames (s : State) (k : Nat) (x : Steward) : (s.setStw k x).frames = s.frames := rfl
@[simp] theorem State.setStw_nextFrame (s : State) (k : Nat) (x : Steward) : (s.setStw k x).nextFrame = s.nextFrame := rfl
@[simp] theorem State.setStw_attachSeq (s : State) (k : Nat) (x : Steward) : (s.setStw k x).attachSeq = s.attachSeq := rfl
@[simp] theorem State.setStw_insts (s : State) (k : Nat) (x : Steward) : (s.setStw k x).insts = s.insts := rfl
@[simp] theorem State.setStw_hosts (s : State) (k : Nat) (x : Steward) : (s.setStw k x).hosts = s.hosts := rfl
@[simp] theorem State.setStw_xfers (s : State) (k : Nat) (x : Steward) : (s.setStw k x).xfers = s.xfers := rfl
@[simp] theorem State.setStw_nextXfer (s : State) (k : Nat) (x : Steward) : (s.setStw k x).nextXfer = s.nextXfer := rfl
@[simp] theorem State.setStw_readQ (s : State) (k : Nat) (x : Steward) : (s.setStw k x).readQ = s.readQ := rfl
@[simp] theorem State.setStw_groups (s : State) (k : Nat) (x : Steward) : (s.setStw k x).groups = s.groups := rfl
@[simp] theorem State.setStw_pauses (s : State) (k : Nat) (x : Steward) : (s.setStw k x).pauses = s.pauses := rfl
@[simp] theorem State.setStw_ptp (s : State) (k : Nat) (x : Steward) : (s.setStw k x).ptp = s.ptp := rfl
@[simp] theorem State.setStw_macs (s : State) (k : Nat) (x : Steward) : (s.setStw k x).macs = s.macs := rfl
@[simp] theorem State.setStw_lanes (s : State) (k : Nat) (x : Steward) : (s.setStw k x).lanes = s.lanes := rfl
@[simp] theorem State.setStw_reorder (s : State) (k : Nat) (x : Steward) : (s.setStw k x).reorder = s.reorder := rfl
@[simp] theorem State.setStw_spreadLast (s : State) (k : Nat) (x : Steward) : (s.setStw k x).spreadLast = s.spreadLast := rfl
@[simp] theorem State.setStw_slotUntil (s : State) (k : Nat) (x : Steward) : (s.setStw k x).slotUntil = s.slotUntil := rfl
@[simp] theorem State.setStw_staging (s : State) (k : Nat) (x : Steward) : (s.setStw k x).staging = s.staging := rfl
@[simp] theorem State.setStw_fabric (s : State) (k : Nat) (x : Steward) : (s.setStw k x).fabric = s.fabric := rfl
@[simp] theorem State.setStw_outQs (s : State) (k : Nat) (x : Steward) : (s.setStw k x).outQs = s.outQs := rfl
@[simp] theorem State.setStw_spillBacklog (s : State) (k : Nat) (x : Steward) : (s.setStw k x).spillBacklog = s.spillBacklog := rfl
@[simp] theorem State.setStw_polBal (s : State) (k : Nat) (x : Steward) : (s.setStw k x).polBal = s.polBal := rfl
@[simp] theorem State.setStw_copies (s : State) (k : Nat) (x : Steward) : (s.setStw k x).copies = s.copies := rfl
@[simp] theorem State.setStw_toStep (s : State) (k : Nat) (x : Steward) : (s.setStw k x).toStep = s.toStep := rfl
@[simp] theorem State.setStw_captureQ (s : State) (k : Nat) (x : Steward) : (s.setStw k x).captureQ = s.captureQ := rfl
@[simp] theorem State.setStw_captureTokens (s : State) (k : Nat) (x : Steward) : (s.setStw k x).captureTokens = s.captureTokens := rfl
@[simp] theorem State.setStw_captureAt (s : State) (k : Nat) (x : Steward) : (s.setStw k x).captureAt = s.captureAt := rfl
@[simp] theorem State.setStw_qps (s : State) (k : Nat) (x : Steward) : (s.setStw k x).qps = s.qps := rfl
@[simp] theorem State.setStw_hostCmds (s : State) (k : Nat) (x : Steward) : (s.setStw k x).hostCmds = s.hostCmds := rfl
@[simp] theorem State.setStw_cmdWait (s : State) (k : Nat) (x : Steward) : (s.setStw k x).cmdWait = s.cmdWait := rfl
@[simp] theorem State.setStw_replies (s : State) (k : Nat) (x : Steward) : (s.setStw k x).replies = s.replies := rfl
@[simp] theorem State.setStw_mboxes (s : State) (k : Nat) (x : Steward) : (s.setStw k x).mboxes = s.mboxes := rfl
@[simp] theorem State.setStw_mbIntEn (s : State) (k : Nat) (x : Steward) : (s.setStw k x).mbIntEn = s.mbIntEn := rfl
@[simp] theorem State.setStw_ferry (s : State) (k : Nat) (x : Steward) : (s.setStw k x).ferry = s.ferry := rfl
@[simp] theorem State.setStw_ferryTurn (s : State) (k : Nat) (x : Steward) : (s.setStw k x).ferryTurn = s.ferryTurn := rfl
@[simp] theorem State.setStw_slots (s : State) (k : Nat) (x : Steward) : (s.setStw k x).slots = s.slots := rfl
@[simp] theorem State.setStw_keyBanks (s : State) (k : Nat) (x : Steward) : (s.setStw k x).keyBanks = s.keyBanks := rfl
@[simp] theorem State.setStw_stage (s : State) (k : Nat) (x : Steward) : (s.setStw k x).stage = s.stage := rfl
@[simp] theorem State.setStw_ksCode (s : State) (k : Nat) (x : Steward) : (s.setStw k x).ksCode = s.ksCode := rfl
@[simp] theorem State.setStw_notify (s : State) (k : Nat) (x : Steward) : (s.setStw k x).notify = s.notify := rfl
@[simp] theorem State.setStw_keyCache (s : State) (k : Nat) (x : Steward) : (s.setStw k x).keyCache = s.keyCache := rfl
@[simp] theorem State.setStw_keyMiss (s : State) (k : Nat) (x : Steward) : (s.setStw k x).keyMiss = s.keyMiss := rfl
@[simp] theorem State.setStw_ciphJobs (s : State) (k : Nat) (x : Steward) : (s.setStw k x).ciphJobs = s.ciphJobs := rfl
@[simp] theorem State.setStw_rrEngine (s : State) (k : Nat) (x : Steward) : (s.setStw k x).rrEngine = s.rrEngine := rfl
@[simp] theorem State.setStw_ciphIn (s : State) (k : Nat) (x : Steward) : (s.setStw k x).ciphIn = s.ciphIn := rfl
@[simp] theorem State.setStw_ciphOut (s : State) (k : Nat) (x : Steward) : (s.setStw k x).ciphOut = s.ciphOut := rfl
@[simp] theorem State.setStw_stsIn (s : State) (k : Nat) (x : Steward) : (s.setStw k x).stsIn = s.stsIn := rfl
@[simp] theorem State.setStw_stsOut (s : State) (k : Nat) (x : Steward) : (s.setStw k x).stsOut = s.stsOut := rfl
@[simp] theorem State.setStw_ctxCache (s : State) (k : Nat) (x : Steward) : (s.setStw k x).ctxCache = s.ctxCache := rfl
@[simp] theorem State.setStw_stsTx (s : State) (k : Nat) (x : Steward) : (s.setStw k x).stsTx = s.stsTx := rfl
@[simp] theorem State.setStw_stsRx (s : State) (k : Nat) (x : Steward) : (s.setStw k x).stsRx = s.stsRx := rfl
@[simp] theorem State.setStw_ingIn (s : State) (k : Nat) (x : Steward) : (s.setStw k x).ingIn = s.ingIn := rfl
@[simp] theorem State.setStw_jobs (s : State) (k : Nat) (x : Steward) : (s.setStw k x).jobs = s.jobs := rfl
@[simp] theorem State.setStw_unitIn (s : State) (k : Nat) (x : Steward) : (s.setStw k x).unitIn = s.unitIn := rfl
@[simp] theorem State.setStw_shelfResps (s : State) (k : Nat) (x : Steward) : (s.setStw k x).shelfResps = s.shelfResps := rfl
@[simp] theorem State.setStw_hlinks (s : State) (k : Nat) (x : Steward) : (s.setStw k x).hlinks = s.hlinks := rfl
@[simp] theorem State.setStw_pair (s : State) (k : Nat) (x : Steward) : (s.setStw k x).pair = s.pair := rfl

/-! ### `State.setCluster` -/

@[simp] theorem State.setCluster_pending (s : State) (k : Nat) (c : Cluster) : (s.setCluster k c).pending = s.pending := rfl
@[simp] theorem State.setCluster_free (s : State) (k : Nat) (c : Cluster) : (s.setCluster k c).free = s.free := rfl
@[simp] theorem State.setCluster_out (s : State) (k : Nat) (c : Cluster) : (s.setCluster k c).out = s.out := rfl
@[simp] theorem State.setCluster_mem (s : State) (k : Nat) (c : Cluster) : (s.setCluster k c).mem = s.mem := rfl
@[simp] theorem State.setCluster_scratch (s : State) (k : Nat) (c : Cluster) : (s.setCluster k c).scratch = s.scratch := rfl
@[simp] theorem State.setCluster_regs (s : State) (k : Nat) (c : Cluster) : (s.setCluster k c).regs = s.regs := rfl
@[simp] theorem State.setCluster_served (s : State) (k : Nat) (c : Cluster) : (s.setCluster k c).served = s.served := rfl
@[simp] theorem State.setCluster_held (s : State) (k : Nat) (c : Cluster) : (s.setCluster k c).held = s.held := rfl
@[simp] theorem State.setCluster_clock (s : State) (k : Nat) (c : Cluster) : (s.setCluster k c).clock = s.clock := rfl
@[simp] theorem State.setCluster_tb (s : State) (k : Nat) (c : Cluster) : (s.setCluster k c).tb = s.tb := rfl
@[simp] theorem State.setCluster_boot (s : State) (k : Nat) (c : Cluster) : (s.setCluster k c).boot = s.boot := rfl
@[simp] theorem State.setCluster_power (s : State) (k : Nat) (c : Cluster) : (s.setCluster k c).power = s.power := rfl
@[simp] theorem State.setCluster_pins (s : State) (k : Nat) (c : Cluster) : (s.setCluster k c).pins = s.pins := rfl
@[simp] theorem State.setCluster_fuses (s : State) (k : Nat) (c : Cluster) : (s.setCluster k c).fuses = s.fuses := rfl
@[simp] theorem State.setCluster_loaded (s : State) (k : Nat) (c : Cluster) : (s.setCluster k c).loaded = s.loaded := rfl
@[simp] theorem State.setCluster_fuseOp (s : State) (k : Nat) (c : Cluster) : (s.setCluster k c).fuseOp = s.fuseOp := rfl
@[simp] theorem State.setCluster_temps (s : State) (k : Nat) (c : Cluster) : (s.setCluster k c).temps = s.temps := rfl
@[simp] theorem State.setCluster_zeroising (s : State) (k : Nat) (c : Cluster) : (s.setCluster k c).zeroising = s.zeroising := rfl
@[simp] theorem State.setCluster_isl (s : State) (k : Nat) (c : Cluster) : (s.setCluster k c).isl = s.isl := rfl
@[simp] theorem State.setCluster_threads (s : State) (k : Nat) (c : Cluster) : (s.setCluster k c).threads = s.threads := rfl
@[simp] theorem State.setCluster_entries (s : State) (k : Nat) (c : Cluster) : (s.setCluster k c).entries = s.entries := rfl
@[simp] theorem State.setCluster_cores (s : State) (k : Nat) (c : Cluster) : (s.setCluster k c).cores = s.cores := rfl
@[simp] theorem State.setCluster_stewards (s : State) (k : Nat) (c : Cluster) : (s.setCluster k c).stewards = s.stewards := rfl
@[simp] theorem State.setCluster_signals (s : State) (k : Nat) (c : Cluster) : (s.setCluster k c).signals = s.signals := rfl
@[simp] theorem State.setCluster_gated (s : State) (k : Nat) (c : Cluster) : (s.setCluster k c).gated = s.gated := rfl
@[simp] theorem State.setCluster_nextOp (s : State) (k : Nat) (c : Cluster) : (s.setCluster k c).nextOp = s.nextOp := rfl
@[simp] theorem State.setCluster_frames (s : State) (k : Nat) (c : Cluster) : (s.setCluster k c).frames = s.frames := rfl
@[simp] theorem State.setCluster_nextFrame (s : State) (k : Nat) (c : Cluster) : (s.setCluster k c).nextFrame = s.nextFrame := rfl
@[simp] theorem State.setCluster_attachSeq (s : State) (k : Nat) (c : Cluster) : (s.setCluster k c).attachSeq = s.attachSeq := rfl
@[simp] theorem State.setCluster_insts (s : State) (k : Nat) (c : Cluster) : (s.setCluster k c).insts = s.insts := rfl
@[simp] theorem State.setCluster_hosts (s : State) (k : Nat) (c : Cluster) : (s.setCluster k c).hosts = s.hosts := rfl
@[simp] theorem State.setCluster_xfers (s : State) (k : Nat) (c : Cluster) : (s.setCluster k c).xfers = s.xfers := rfl
@[simp] theorem State.setCluster_nextXfer (s : State) (k : Nat) (c : Cluster) : (s.setCluster k c).nextXfer = s.nextXfer := rfl
@[simp] theorem State.setCluster_readQ (s : State) (k : Nat) (c : Cluster) : (s.setCluster k c).readQ = s.readQ := rfl
@[simp] theorem State.setCluster_groups (s : State) (k : Nat) (c : Cluster) : (s.setCluster k c).groups = s.groups := rfl
@[simp] theorem State.setCluster_pauses (s : State) (k : Nat) (c : Cluster) : (s.setCluster k c).pauses = s.pauses := rfl
@[simp] theorem State.setCluster_ptp (s : State) (k : Nat) (c : Cluster) : (s.setCluster k c).ptp = s.ptp := rfl
@[simp] theorem State.setCluster_macs (s : State) (k : Nat) (c : Cluster) : (s.setCluster k c).macs = s.macs := rfl
@[simp] theorem State.setCluster_lanes (s : State) (k : Nat) (c : Cluster) : (s.setCluster k c).lanes = s.lanes := rfl
@[simp] theorem State.setCluster_reorder (s : State) (k : Nat) (c : Cluster) : (s.setCluster k c).reorder = s.reorder := rfl
@[simp] theorem State.setCluster_spreadLast (s : State) (k : Nat) (c : Cluster) : (s.setCluster k c).spreadLast = s.spreadLast := rfl
@[simp] theorem State.setCluster_slotUntil (s : State) (k : Nat) (c : Cluster) : (s.setCluster k c).slotUntil = s.slotUntil := rfl
@[simp] theorem State.setCluster_staging (s : State) (k : Nat) (c : Cluster) : (s.setCluster k c).staging = s.staging := rfl
@[simp] theorem State.setCluster_fabric (s : State) (k : Nat) (c : Cluster) : (s.setCluster k c).fabric = s.fabric := rfl
@[simp] theorem State.setCluster_outQs (s : State) (k : Nat) (c : Cluster) : (s.setCluster k c).outQs = s.outQs := rfl
@[simp] theorem State.setCluster_spillBacklog (s : State) (k : Nat) (c : Cluster) : (s.setCluster k c).spillBacklog = s.spillBacklog := rfl
@[simp] theorem State.setCluster_polBal (s : State) (k : Nat) (c : Cluster) : (s.setCluster k c).polBal = s.polBal := rfl
@[simp] theorem State.setCluster_copies (s : State) (k : Nat) (c : Cluster) : (s.setCluster k c).copies = s.copies := rfl
@[simp] theorem State.setCluster_toStep (s : State) (k : Nat) (c : Cluster) : (s.setCluster k c).toStep = s.toStep := rfl
@[simp] theorem State.setCluster_captureQ (s : State) (k : Nat) (c : Cluster) : (s.setCluster k c).captureQ = s.captureQ := rfl
@[simp] theorem State.setCluster_captureTokens (s : State) (k : Nat) (c : Cluster) : (s.setCluster k c).captureTokens = s.captureTokens := rfl
@[simp] theorem State.setCluster_captureAt (s : State) (k : Nat) (c : Cluster) : (s.setCluster k c).captureAt = s.captureAt := rfl
@[simp] theorem State.setCluster_qps (s : State) (k : Nat) (c : Cluster) : (s.setCluster k c).qps = s.qps := rfl
@[simp] theorem State.setCluster_hostCmds (s : State) (k : Nat) (c : Cluster) : (s.setCluster k c).hostCmds = s.hostCmds := rfl
@[simp] theorem State.setCluster_cmdWait (s : State) (k : Nat) (c : Cluster) : (s.setCluster k c).cmdWait = s.cmdWait := rfl
@[simp] theorem State.setCluster_replies (s : State) (k : Nat) (c : Cluster) : (s.setCluster k c).replies = s.replies := rfl
@[simp] theorem State.setCluster_mboxes (s : State) (k : Nat) (c : Cluster) : (s.setCluster k c).mboxes = s.mboxes := rfl
@[simp] theorem State.setCluster_mbIntEn (s : State) (k : Nat) (c : Cluster) : (s.setCluster k c).mbIntEn = s.mbIntEn := rfl
@[simp] theorem State.setCluster_ferry (s : State) (k : Nat) (c : Cluster) : (s.setCluster k c).ferry = s.ferry := rfl
@[simp] theorem State.setCluster_ferryTurn (s : State) (k : Nat) (c : Cluster) : (s.setCluster k c).ferryTurn = s.ferryTurn := rfl
@[simp] theorem State.setCluster_slots (s : State) (k : Nat) (c : Cluster) : (s.setCluster k c).slots = s.slots := rfl
@[simp] theorem State.setCluster_keyBanks (s : State) (k : Nat) (c : Cluster) : (s.setCluster k c).keyBanks = s.keyBanks := rfl
@[simp] theorem State.setCluster_stage (s : State) (k : Nat) (c : Cluster) : (s.setCluster k c).stage = s.stage := rfl
@[simp] theorem State.setCluster_ksCode (s : State) (k : Nat) (c : Cluster) : (s.setCluster k c).ksCode = s.ksCode := rfl
@[simp] theorem State.setCluster_notify (s : State) (k : Nat) (c : Cluster) : (s.setCluster k c).notify = s.notify := rfl
@[simp] theorem State.setCluster_keyCache (s : State) (k : Nat) (c : Cluster) : (s.setCluster k c).keyCache = s.keyCache := rfl
@[simp] theorem State.setCluster_keyMiss (s : State) (k : Nat) (c : Cluster) : (s.setCluster k c).keyMiss = s.keyMiss := rfl
@[simp] theorem State.setCluster_ciphJobs (s : State) (k : Nat) (c : Cluster) : (s.setCluster k c).ciphJobs = s.ciphJobs := rfl
@[simp] theorem State.setCluster_rrEngine (s : State) (k : Nat) (c : Cluster) : (s.setCluster k c).rrEngine = s.rrEngine := rfl
@[simp] theorem State.setCluster_ciphIn (s : State) (k : Nat) (c : Cluster) : (s.setCluster k c).ciphIn = s.ciphIn := rfl
@[simp] theorem State.setCluster_ciphOut (s : State) (k : Nat) (c : Cluster) : (s.setCluster k c).ciphOut = s.ciphOut := rfl
@[simp] theorem State.setCluster_stsIn (s : State) (k : Nat) (c : Cluster) : (s.setCluster k c).stsIn = s.stsIn := rfl
@[simp] theorem State.setCluster_stsOut (s : State) (k : Nat) (c : Cluster) : (s.setCluster k c).stsOut = s.stsOut := rfl
@[simp] theorem State.setCluster_ctxCache (s : State) (k : Nat) (c : Cluster) : (s.setCluster k c).ctxCache = s.ctxCache := rfl
@[simp] theorem State.setCluster_stsTx (s : State) (k : Nat) (c : Cluster) : (s.setCluster k c).stsTx = s.stsTx := rfl
@[simp] theorem State.setCluster_stsRx (s : State) (k : Nat) (c : Cluster) : (s.setCluster k c).stsRx = s.stsRx := rfl
@[simp] theorem State.setCluster_ingIn (s : State) (k : Nat) (c : Cluster) : (s.setCluster k c).ingIn = s.ingIn := rfl
@[simp] theorem State.setCluster_jobs (s : State) (k : Nat) (c : Cluster) : (s.setCluster k c).jobs = s.jobs := rfl
@[simp] theorem State.setCluster_unitIn (s : State) (k : Nat) (c : Cluster) : (s.setCluster k c).unitIn = s.unitIn := rfl
@[simp] theorem State.setCluster_shelfResps (s : State) (k : Nat) (c : Cluster) : (s.setCluster k c).shelfResps = s.shelfResps := rfl
@[simp] theorem State.setCluster_hlinks (s : State) (k : Nat) (c : Cluster) : (s.setCluster k c).hlinks = s.hlinks := rfl
@[simp] theorem State.setCluster_pair (s : State) (k : Nat) (c : Cluster) : (s.setCluster k c).pair = s.pair := rfl

/-! ### `State.setThr` -/

@[simp] theorem State.setThr_pending (s : State) (n : Nat) (t : Thread) : (s.setThr n t).pending = s.pending := by
  unfold State.setThr; split <;> rfl
@[simp] theorem State.setThr_free (s : State) (n : Nat) (t : Thread) : (s.setThr n t).free = s.free := by
  unfold State.setThr; split <;> rfl
@[simp] theorem State.setThr_out (s : State) (n : Nat) (t : Thread) : (s.setThr n t).out = s.out := by
  unfold State.setThr; split <;> rfl
@[simp] theorem State.setThr_mem (s : State) (n : Nat) (t : Thread) : (s.setThr n t).mem = s.mem := by
  unfold State.setThr; split <;> rfl
@[simp] theorem State.setThr_scratch (s : State) (n : Nat) (t : Thread) : (s.setThr n t).scratch = s.scratch := by
  unfold State.setThr; split <;> rfl
@[simp] theorem State.setThr_regs (s : State) (n : Nat) (t : Thread) : (s.setThr n t).regs = s.regs := by
  unfold State.setThr; split <;> rfl
@[simp] theorem State.setThr_served (s : State) (n : Nat) (t : Thread) : (s.setThr n t).served = s.served := by
  unfold State.setThr; split <;> rfl
@[simp] theorem State.setThr_held (s : State) (n : Nat) (t : Thread) : (s.setThr n t).held = s.held := by
  unfold State.setThr; split <;> rfl
@[simp] theorem State.setThr_clock (s : State) (n : Nat) (t : Thread) : (s.setThr n t).clock = s.clock := by
  unfold State.setThr; split <;> rfl
@[simp] theorem State.setThr_tb (s : State) (n : Nat) (t : Thread) : (s.setThr n t).tb = s.tb := by
  unfold State.setThr; split <;> rfl
@[simp] theorem State.setThr_boot (s : State) (n : Nat) (t : Thread) : (s.setThr n t).boot = s.boot := by
  unfold State.setThr; split <;> rfl
@[simp] theorem State.setThr_power (s : State) (n : Nat) (t : Thread) : (s.setThr n t).power = s.power := by
  unfold State.setThr; split <;> rfl
@[simp] theorem State.setThr_pins (s : State) (n : Nat) (t : Thread) : (s.setThr n t).pins = s.pins := by
  unfold State.setThr; split <;> rfl
@[simp] theorem State.setThr_fuses (s : State) (n : Nat) (t : Thread) : (s.setThr n t).fuses = s.fuses := by
  unfold State.setThr; split <;> rfl
@[simp] theorem State.setThr_loaded (s : State) (n : Nat) (t : Thread) : (s.setThr n t).loaded = s.loaded := by
  unfold State.setThr; split <;> rfl
@[simp] theorem State.setThr_fuseOp (s : State) (n : Nat) (t : Thread) : (s.setThr n t).fuseOp = s.fuseOp := by
  unfold State.setThr; split <;> rfl
@[simp] theorem State.setThr_temps (s : State) (n : Nat) (t : Thread) : (s.setThr n t).temps = s.temps := by
  unfold State.setThr; split <;> rfl
@[simp] theorem State.setThr_zeroising (s : State) (n : Nat) (t : Thread) : (s.setThr n t).zeroising = s.zeroising := by
  unfold State.setThr; split <;> rfl
@[simp] theorem State.setThr_isl (s : State) (n : Nat) (t : Thread) : (s.setThr n t).isl = s.isl := by
  unfold State.setThr; split <;> rfl
@[simp] theorem State.setThr_entries (s : State) (n : Nat) (t : Thread) : (s.setThr n t).entries = s.entries := by
  unfold State.setThr; split <;> rfl
@[simp] theorem State.setThr_cores (s : State) (n : Nat) (t : Thread) : (s.setThr n t).cores = s.cores := by
  unfold State.setThr; split <;> rfl
@[simp] theorem State.setThr_clusters (s : State) (n : Nat) (t : Thread) : (s.setThr n t).clusters = s.clusters := by
  unfold State.setThr; split <;> rfl
@[simp] theorem State.setThr_signals (s : State) (n : Nat) (t : Thread) : (s.setThr n t).signals = s.signals := by
  unfold State.setThr; split <;> rfl
@[simp] theorem State.setThr_gated (s : State) (n : Nat) (t : Thread) : (s.setThr n t).gated = s.gated := by
  unfold State.setThr; split <;> rfl
@[simp] theorem State.setThr_nextOp (s : State) (n : Nat) (t : Thread) : (s.setThr n t).nextOp = s.nextOp := by
  unfold State.setThr; split <;> rfl
@[simp] theorem State.setThr_frames (s : State) (n : Nat) (t : Thread) : (s.setThr n t).frames = s.frames := by
  unfold State.setThr; split <;> rfl
@[simp] theorem State.setThr_nextFrame (s : State) (n : Nat) (t : Thread) : (s.setThr n t).nextFrame = s.nextFrame := by
  unfold State.setThr; split <;> rfl
@[simp] theorem State.setThr_attachSeq (s : State) (n : Nat) (t : Thread) : (s.setThr n t).attachSeq = s.attachSeq := by
  unfold State.setThr; split <;> rfl
@[simp] theorem State.setThr_insts (s : State) (n : Nat) (t : Thread) : (s.setThr n t).insts = s.insts := by
  unfold State.setThr; split <;> rfl
@[simp] theorem State.setThr_hosts (s : State) (n : Nat) (t : Thread) : (s.setThr n t).hosts = s.hosts := by
  unfold State.setThr; split <;> rfl
@[simp] theorem State.setThr_xfers (s : State) (n : Nat) (t : Thread) : (s.setThr n t).xfers = s.xfers := by
  unfold State.setThr; split <;> rfl
@[simp] theorem State.setThr_nextXfer (s : State) (n : Nat) (t : Thread) : (s.setThr n t).nextXfer = s.nextXfer := by
  unfold State.setThr; split <;> rfl
@[simp] theorem State.setThr_readQ (s : State) (n : Nat) (t : Thread) : (s.setThr n t).readQ = s.readQ := by
  unfold State.setThr; split <;> rfl
@[simp] theorem State.setThr_groups (s : State) (n : Nat) (t : Thread) : (s.setThr n t).groups = s.groups := by
  unfold State.setThr; split <;> rfl
@[simp] theorem State.setThr_pauses (s : State) (n : Nat) (t : Thread) : (s.setThr n t).pauses = s.pauses := by
  unfold State.setThr; split <;> rfl
@[simp] theorem State.setThr_ptp (s : State) (n : Nat) (t : Thread) : (s.setThr n t).ptp = s.ptp := by
  unfold State.setThr; split <;> rfl
@[simp] theorem State.setThr_macs (s : State) (n : Nat) (t : Thread) : (s.setThr n t).macs = s.macs := by
  unfold State.setThr; split <;> rfl
@[simp] theorem State.setThr_lanes (s : State) (n : Nat) (t : Thread) : (s.setThr n t).lanes = s.lanes := by
  unfold State.setThr; split <;> rfl
@[simp] theorem State.setThr_reorder (s : State) (n : Nat) (t : Thread) : (s.setThr n t).reorder = s.reorder := by
  unfold State.setThr; split <;> rfl
@[simp] theorem State.setThr_spreadLast (s : State) (n : Nat) (t : Thread) : (s.setThr n t).spreadLast = s.spreadLast := by
  unfold State.setThr; split <;> rfl
@[simp] theorem State.setThr_slotUntil (s : State) (n : Nat) (t : Thread) : (s.setThr n t).slotUntil = s.slotUntil := by
  unfold State.setThr; split <;> rfl
@[simp] theorem State.setThr_staging (s : State) (n : Nat) (t : Thread) : (s.setThr n t).staging = s.staging := by
  unfold State.setThr; split <;> rfl
@[simp] theorem State.setThr_fabric (s : State) (n : Nat) (t : Thread) : (s.setThr n t).fabric = s.fabric := by
  unfold State.setThr; split <;> rfl
@[simp] theorem State.setThr_outQs (s : State) (n : Nat) (t : Thread) : (s.setThr n t).outQs = s.outQs := by
  unfold State.setThr; split <;> rfl
@[simp] theorem State.setThr_spillBacklog (s : State) (n : Nat) (t : Thread) : (s.setThr n t).spillBacklog = s.spillBacklog := by
  unfold State.setThr; split <;> rfl
@[simp] theorem State.setThr_polBal (s : State) (n : Nat) (t : Thread) : (s.setThr n t).polBal = s.polBal := by
  unfold State.setThr; split <;> rfl
@[simp] theorem State.setThr_copies (s : State) (n : Nat) (t : Thread) : (s.setThr n t).copies = s.copies := by
  unfold State.setThr; split <;> rfl
@[simp] theorem State.setThr_toStep (s : State) (n : Nat) (t : Thread) : (s.setThr n t).toStep = s.toStep := by
  unfold State.setThr; split <;> rfl
@[simp] theorem State.setThr_captureQ (s : State) (n : Nat) (t : Thread) : (s.setThr n t).captureQ = s.captureQ := by
  unfold State.setThr; split <;> rfl
@[simp] theorem State.setThr_captureTokens (s : State) (n : Nat) (t : Thread) : (s.setThr n t).captureTokens = s.captureTokens := by
  unfold State.setThr; split <;> rfl
@[simp] theorem State.setThr_captureAt (s : State) (n : Nat) (t : Thread) : (s.setThr n t).captureAt = s.captureAt := by
  unfold State.setThr; split <;> rfl
@[simp] theorem State.setThr_qps (s : State) (n : Nat) (t : Thread) : (s.setThr n t).qps = s.qps := by
  unfold State.setThr; split <;> rfl
@[simp] theorem State.setThr_hostCmds (s : State) (n : Nat) (t : Thread) : (s.setThr n t).hostCmds = s.hostCmds := by
  unfold State.setThr; split <;> rfl
@[simp] theorem State.setThr_cmdWait (s : State) (n : Nat) (t : Thread) : (s.setThr n t).cmdWait = s.cmdWait := by
  unfold State.setThr; split <;> rfl
@[simp] theorem State.setThr_replies (s : State) (n : Nat) (t : Thread) : (s.setThr n t).replies = s.replies := by
  unfold State.setThr; split <;> rfl
@[simp] theorem State.setThr_mboxes (s : State) (n : Nat) (t : Thread) : (s.setThr n t).mboxes = s.mboxes := by
  unfold State.setThr; split <;> rfl
@[simp] theorem State.setThr_mbIntEn (s : State) (n : Nat) (t : Thread) : (s.setThr n t).mbIntEn = s.mbIntEn := by
  unfold State.setThr; split <;> rfl
@[simp] theorem State.setThr_ferry (s : State) (n : Nat) (t : Thread) : (s.setThr n t).ferry = s.ferry := by
  unfold State.setThr; split <;> rfl
@[simp] theorem State.setThr_ferryTurn (s : State) (n : Nat) (t : Thread) : (s.setThr n t).ferryTurn = s.ferryTurn := by
  unfold State.setThr; split <;> rfl
@[simp] theorem State.setThr_slots (s : State) (n : Nat) (t : Thread) : (s.setThr n t).slots = s.slots := by
  unfold State.setThr; split <;> rfl
@[simp] theorem State.setThr_keyBanks (s : State) (n : Nat) (t : Thread) : (s.setThr n t).keyBanks = s.keyBanks := by
  unfold State.setThr; split <;> rfl
@[simp] theorem State.setThr_stage (s : State) (n : Nat) (t : Thread) : (s.setThr n t).stage = s.stage := by
  unfold State.setThr; split <;> rfl
@[simp] theorem State.setThr_ksCode (s : State) (n : Nat) (t : Thread) : (s.setThr n t).ksCode = s.ksCode := by
  unfold State.setThr; split <;> rfl
@[simp] theorem State.setThr_notify (s : State) (n : Nat) (t : Thread) : (s.setThr n t).notify = s.notify := by
  unfold State.setThr; split <;> rfl
@[simp] theorem State.setThr_keyCache (s : State) (n : Nat) (t : Thread) : (s.setThr n t).keyCache = s.keyCache := by
  unfold State.setThr; split <;> rfl
@[simp] theorem State.setThr_keyMiss (s : State) (n : Nat) (t : Thread) : (s.setThr n t).keyMiss = s.keyMiss := by
  unfold State.setThr; split <;> rfl
@[simp] theorem State.setThr_ciphJobs (s : State) (n : Nat) (t : Thread) : (s.setThr n t).ciphJobs = s.ciphJobs := by
  unfold State.setThr; split <;> rfl
@[simp] theorem State.setThr_rrEngine (s : State) (n : Nat) (t : Thread) : (s.setThr n t).rrEngine = s.rrEngine := by
  unfold State.setThr; split <;> rfl
@[simp] theorem State.setThr_ciphIn (s : State) (n : Nat) (t : Thread) : (s.setThr n t).ciphIn = s.ciphIn := by
  unfold State.setThr; split <;> rfl
@[simp] theorem State.setThr_ciphOut (s : State) (n : Nat) (t : Thread) : (s.setThr n t).ciphOut = s.ciphOut := by
  unfold State.setThr; split <;> rfl
@[simp] theorem State.setThr_stsIn (s : State) (n : Nat) (t : Thread) : (s.setThr n t).stsIn = s.stsIn := by
  unfold State.setThr; split <;> rfl
@[simp] theorem State.setThr_stsOut (s : State) (n : Nat) (t : Thread) : (s.setThr n t).stsOut = s.stsOut := by
  unfold State.setThr; split <;> rfl
@[simp] theorem State.setThr_ctxCache (s : State) (n : Nat) (t : Thread) : (s.setThr n t).ctxCache = s.ctxCache := by
  unfold State.setThr; split <;> rfl
@[simp] theorem State.setThr_stsTx (s : State) (n : Nat) (t : Thread) : (s.setThr n t).stsTx = s.stsTx := by
  unfold State.setThr; split <;> rfl
@[simp] theorem State.setThr_stsRx (s : State) (n : Nat) (t : Thread) : (s.setThr n t).stsRx = s.stsRx := by
  unfold State.setThr; split <;> rfl
@[simp] theorem State.setThr_ingIn (s : State) (n : Nat) (t : Thread) : (s.setThr n t).ingIn = s.ingIn := by
  unfold State.setThr; split <;> rfl
@[simp] theorem State.setThr_jobs (s : State) (n : Nat) (t : Thread) : (s.setThr n t).jobs = s.jobs := by
  unfold State.setThr; split <;> rfl
@[simp] theorem State.setThr_unitIn (s : State) (n : Nat) (t : Thread) : (s.setThr n t).unitIn = s.unitIn := by
  unfold State.setThr; split <;> rfl
@[simp] theorem State.setThr_shelfResps (s : State) (n : Nat) (t : Thread) : (s.setThr n t).shelfResps = s.shelfResps := by
  unfold State.setThr; split <;> rfl
@[simp] theorem State.setThr_hlinks (s : State) (n : Nat) (t : Thread) : (s.setThr n t).hlinks = s.hlinks := by
  unfold State.setThr; split <;> rfl
@[simp] theorem State.setThr_pair (s : State) (n : Nat) (t : Thread) : (s.setThr n t).pair = s.pair := by
  unfold State.setThr; split <;> rfl

/-! ### `State.modThr` -/

@[simp] theorem State.modThr_pending (s : State) (n : Nat) (g : Thread → Thread) : (s.modThr n g).pending = s.pending := State.setThr_pending _ _ _
@[simp] theorem State.modThr_free (s : State) (n : Nat) (g : Thread → Thread) : (s.modThr n g).free = s.free := State.setThr_free _ _ _
@[simp] theorem State.modThr_out (s : State) (n : Nat) (g : Thread → Thread) : (s.modThr n g).out = s.out := State.setThr_out _ _ _
@[simp] theorem State.modThr_mem (s : State) (n : Nat) (g : Thread → Thread) : (s.modThr n g).mem = s.mem := State.setThr_mem _ _ _
@[simp] theorem State.modThr_scratch (s : State) (n : Nat) (g : Thread → Thread) : (s.modThr n g).scratch = s.scratch := State.setThr_scratch _ _ _
@[simp] theorem State.modThr_regs (s : State) (n : Nat) (g : Thread → Thread) : (s.modThr n g).regs = s.regs := State.setThr_regs _ _ _
@[simp] theorem State.modThr_served (s : State) (n : Nat) (g : Thread → Thread) : (s.modThr n g).served = s.served := State.setThr_served _ _ _
@[simp] theorem State.modThr_held (s : State) (n : Nat) (g : Thread → Thread) : (s.modThr n g).held = s.held := State.setThr_held _ _ _
@[simp] theorem State.modThr_clock (s : State) (n : Nat) (g : Thread → Thread) : (s.modThr n g).clock = s.clock := State.setThr_clock _ _ _
@[simp] theorem State.modThr_tb (s : State) (n : Nat) (g : Thread → Thread) : (s.modThr n g).tb = s.tb := State.setThr_tb _ _ _
@[simp] theorem State.modThr_boot (s : State) (n : Nat) (g : Thread → Thread) : (s.modThr n g).boot = s.boot := State.setThr_boot _ _ _
@[simp] theorem State.modThr_power (s : State) (n : Nat) (g : Thread → Thread) : (s.modThr n g).power = s.power := State.setThr_power _ _ _
@[simp] theorem State.modThr_pins (s : State) (n : Nat) (g : Thread → Thread) : (s.modThr n g).pins = s.pins := State.setThr_pins _ _ _
@[simp] theorem State.modThr_fuses (s : State) (n : Nat) (g : Thread → Thread) : (s.modThr n g).fuses = s.fuses := State.setThr_fuses _ _ _
@[simp] theorem State.modThr_loaded (s : State) (n : Nat) (g : Thread → Thread) : (s.modThr n g).loaded = s.loaded := State.setThr_loaded _ _ _
@[simp] theorem State.modThr_fuseOp (s : State) (n : Nat) (g : Thread → Thread) : (s.modThr n g).fuseOp = s.fuseOp := State.setThr_fuseOp _ _ _
@[simp] theorem State.modThr_temps (s : State) (n : Nat) (g : Thread → Thread) : (s.modThr n g).temps = s.temps := State.setThr_temps _ _ _
@[simp] theorem State.modThr_zeroising (s : State) (n : Nat) (g : Thread → Thread) : (s.modThr n g).zeroising = s.zeroising := State.setThr_zeroising _ _ _
@[simp] theorem State.modThr_isl (s : State) (n : Nat) (g : Thread → Thread) : (s.modThr n g).isl = s.isl := State.setThr_isl _ _ _
@[simp] theorem State.modThr_entries (s : State) (n : Nat) (g : Thread → Thread) : (s.modThr n g).entries = s.entries := State.setThr_entries _ _ _
@[simp] theorem State.modThr_cores (s : State) (n : Nat) (g : Thread → Thread) : (s.modThr n g).cores = s.cores := State.setThr_cores _ _ _
@[simp] theorem State.modThr_clusters (s : State) (n : Nat) (g : Thread → Thread) : (s.modThr n g).clusters = s.clusters := State.setThr_clusters _ _ _
@[simp] theorem State.modThr_signals (s : State) (n : Nat) (g : Thread → Thread) : (s.modThr n g).signals = s.signals := State.setThr_signals _ _ _
@[simp] theorem State.modThr_gated (s : State) (n : Nat) (g : Thread → Thread) : (s.modThr n g).gated = s.gated := State.setThr_gated _ _ _
@[simp] theorem State.modThr_nextOp (s : State) (n : Nat) (g : Thread → Thread) : (s.modThr n g).nextOp = s.nextOp := State.setThr_nextOp _ _ _
@[simp] theorem State.modThr_frames (s : State) (n : Nat) (g : Thread → Thread) : (s.modThr n g).frames = s.frames := State.setThr_frames _ _ _
@[simp] theorem State.modThr_nextFrame (s : State) (n : Nat) (g : Thread → Thread) : (s.modThr n g).nextFrame = s.nextFrame := State.setThr_nextFrame _ _ _
@[simp] theorem State.modThr_attachSeq (s : State) (n : Nat) (g : Thread → Thread) : (s.modThr n g).attachSeq = s.attachSeq := State.setThr_attachSeq _ _ _
@[simp] theorem State.modThr_insts (s : State) (n : Nat) (g : Thread → Thread) : (s.modThr n g).insts = s.insts := State.setThr_insts _ _ _
@[simp] theorem State.modThr_hosts (s : State) (n : Nat) (g : Thread → Thread) : (s.modThr n g).hosts = s.hosts := State.setThr_hosts _ _ _
@[simp] theorem State.modThr_xfers (s : State) (n : Nat) (g : Thread → Thread) : (s.modThr n g).xfers = s.xfers := State.setThr_xfers _ _ _
@[simp] theorem State.modThr_nextXfer (s : State) (n : Nat) (g : Thread → Thread) : (s.modThr n g).nextXfer = s.nextXfer := State.setThr_nextXfer _ _ _
@[simp] theorem State.modThr_readQ (s : State) (n : Nat) (g : Thread → Thread) : (s.modThr n g).readQ = s.readQ := State.setThr_readQ _ _ _
@[simp] theorem State.modThr_groups (s : State) (n : Nat) (g : Thread → Thread) : (s.modThr n g).groups = s.groups := State.setThr_groups _ _ _
@[simp] theorem State.modThr_pauses (s : State) (n : Nat) (g : Thread → Thread) : (s.modThr n g).pauses = s.pauses := State.setThr_pauses _ _ _
@[simp] theorem State.modThr_ptp (s : State) (n : Nat) (g : Thread → Thread) : (s.modThr n g).ptp = s.ptp := State.setThr_ptp _ _ _
@[simp] theorem State.modThr_macs (s : State) (n : Nat) (g : Thread → Thread) : (s.modThr n g).macs = s.macs := State.setThr_macs _ _ _
@[simp] theorem State.modThr_lanes (s : State) (n : Nat) (g : Thread → Thread) : (s.modThr n g).lanes = s.lanes := State.setThr_lanes _ _ _
@[simp] theorem State.modThr_reorder (s : State) (n : Nat) (g : Thread → Thread) : (s.modThr n g).reorder = s.reorder := State.setThr_reorder _ _ _
@[simp] theorem State.modThr_spreadLast (s : State) (n : Nat) (g : Thread → Thread) : (s.modThr n g).spreadLast = s.spreadLast := State.setThr_spreadLast _ _ _
@[simp] theorem State.modThr_slotUntil (s : State) (n : Nat) (g : Thread → Thread) : (s.modThr n g).slotUntil = s.slotUntil := State.setThr_slotUntil _ _ _
@[simp] theorem State.modThr_staging (s : State) (n : Nat) (g : Thread → Thread) : (s.modThr n g).staging = s.staging := State.setThr_staging _ _ _
@[simp] theorem State.modThr_fabric (s : State) (n : Nat) (g : Thread → Thread) : (s.modThr n g).fabric = s.fabric := State.setThr_fabric _ _ _
@[simp] theorem State.modThr_outQs (s : State) (n : Nat) (g : Thread → Thread) : (s.modThr n g).outQs = s.outQs := State.setThr_outQs _ _ _
@[simp] theorem State.modThr_spillBacklog (s : State) (n : Nat) (g : Thread → Thread) : (s.modThr n g).spillBacklog = s.spillBacklog := State.setThr_spillBacklog _ _ _
@[simp] theorem State.modThr_polBal (s : State) (n : Nat) (g : Thread → Thread) : (s.modThr n g).polBal = s.polBal := State.setThr_polBal _ _ _
@[simp] theorem State.modThr_copies (s : State) (n : Nat) (g : Thread → Thread) : (s.modThr n g).copies = s.copies := State.setThr_copies _ _ _
@[simp] theorem State.modThr_toStep (s : State) (n : Nat) (g : Thread → Thread) : (s.modThr n g).toStep = s.toStep := State.setThr_toStep _ _ _
@[simp] theorem State.modThr_captureQ (s : State) (n : Nat) (g : Thread → Thread) : (s.modThr n g).captureQ = s.captureQ := State.setThr_captureQ _ _ _
@[simp] theorem State.modThr_captureTokens (s : State) (n : Nat) (g : Thread → Thread) : (s.modThr n g).captureTokens = s.captureTokens := State.setThr_captureTokens _ _ _
@[simp] theorem State.modThr_captureAt (s : State) (n : Nat) (g : Thread → Thread) : (s.modThr n g).captureAt = s.captureAt := State.setThr_captureAt _ _ _
@[simp] theorem State.modThr_qps (s : State) (n : Nat) (g : Thread → Thread) : (s.modThr n g).qps = s.qps := State.setThr_qps _ _ _
@[simp] theorem State.modThr_hostCmds (s : State) (n : Nat) (g : Thread → Thread) : (s.modThr n g).hostCmds = s.hostCmds := State.setThr_hostCmds _ _ _
@[simp] theorem State.modThr_cmdWait (s : State) (n : Nat) (g : Thread → Thread) : (s.modThr n g).cmdWait = s.cmdWait := State.setThr_cmdWait _ _ _
@[simp] theorem State.modThr_replies (s : State) (n : Nat) (g : Thread → Thread) : (s.modThr n g).replies = s.replies := State.setThr_replies _ _ _
@[simp] theorem State.modThr_mboxes (s : State) (n : Nat) (g : Thread → Thread) : (s.modThr n g).mboxes = s.mboxes := State.setThr_mboxes _ _ _
@[simp] theorem State.modThr_mbIntEn (s : State) (n : Nat) (g : Thread → Thread) : (s.modThr n g).mbIntEn = s.mbIntEn := State.setThr_mbIntEn _ _ _
@[simp] theorem State.modThr_ferry (s : State) (n : Nat) (g : Thread → Thread) : (s.modThr n g).ferry = s.ferry := State.setThr_ferry _ _ _
@[simp] theorem State.modThr_ferryTurn (s : State) (n : Nat) (g : Thread → Thread) : (s.modThr n g).ferryTurn = s.ferryTurn := State.setThr_ferryTurn _ _ _
@[simp] theorem State.modThr_slots (s : State) (n : Nat) (g : Thread → Thread) : (s.modThr n g).slots = s.slots := State.setThr_slots _ _ _
@[simp] theorem State.modThr_keyBanks (s : State) (n : Nat) (g : Thread → Thread) : (s.modThr n g).keyBanks = s.keyBanks := State.setThr_keyBanks _ _ _
@[simp] theorem State.modThr_stage (s : State) (n : Nat) (g : Thread → Thread) : (s.modThr n g).stage = s.stage := State.setThr_stage _ _ _
@[simp] theorem State.modThr_ksCode (s : State) (n : Nat) (g : Thread → Thread) : (s.modThr n g).ksCode = s.ksCode := State.setThr_ksCode _ _ _
@[simp] theorem State.modThr_notify (s : State) (n : Nat) (g : Thread → Thread) : (s.modThr n g).notify = s.notify := State.setThr_notify _ _ _
@[simp] theorem State.modThr_keyCache (s : State) (n : Nat) (g : Thread → Thread) : (s.modThr n g).keyCache = s.keyCache := State.setThr_keyCache _ _ _
@[simp] theorem State.modThr_keyMiss (s : State) (n : Nat) (g : Thread → Thread) : (s.modThr n g).keyMiss = s.keyMiss := State.setThr_keyMiss _ _ _
@[simp] theorem State.modThr_ciphJobs (s : State) (n : Nat) (g : Thread → Thread) : (s.modThr n g).ciphJobs = s.ciphJobs := State.setThr_ciphJobs _ _ _
@[simp] theorem State.modThr_rrEngine (s : State) (n : Nat) (g : Thread → Thread) : (s.modThr n g).rrEngine = s.rrEngine := State.setThr_rrEngine _ _ _
@[simp] theorem State.modThr_ciphIn (s : State) (n : Nat) (g : Thread → Thread) : (s.modThr n g).ciphIn = s.ciphIn := State.setThr_ciphIn _ _ _
@[simp] theorem State.modThr_ciphOut (s : State) (n : Nat) (g : Thread → Thread) : (s.modThr n g).ciphOut = s.ciphOut := State.setThr_ciphOut _ _ _
@[simp] theorem State.modThr_stsIn (s : State) (n : Nat) (g : Thread → Thread) : (s.modThr n g).stsIn = s.stsIn := State.setThr_stsIn _ _ _
@[simp] theorem State.modThr_stsOut (s : State) (n : Nat) (g : Thread → Thread) : (s.modThr n g).stsOut = s.stsOut := State.setThr_stsOut _ _ _
@[simp] theorem State.modThr_ctxCache (s : State) (n : Nat) (g : Thread → Thread) : (s.modThr n g).ctxCache = s.ctxCache := State.setThr_ctxCache _ _ _
@[simp] theorem State.modThr_stsTx (s : State) (n : Nat) (g : Thread → Thread) : (s.modThr n g).stsTx = s.stsTx := State.setThr_stsTx _ _ _
@[simp] theorem State.modThr_stsRx (s : State) (n : Nat) (g : Thread → Thread) : (s.modThr n g).stsRx = s.stsRx := State.setThr_stsRx _ _ _
@[simp] theorem State.modThr_ingIn (s : State) (n : Nat) (g : Thread → Thread) : (s.modThr n g).ingIn = s.ingIn := State.setThr_ingIn _ _ _
@[simp] theorem State.modThr_jobs (s : State) (n : Nat) (g : Thread → Thread) : (s.modThr n g).jobs = s.jobs := State.setThr_jobs _ _ _
@[simp] theorem State.modThr_unitIn (s : State) (n : Nat) (g : Thread → Thread) : (s.modThr n g).unitIn = s.unitIn := State.setThr_unitIn _ _ _
@[simp] theorem State.modThr_shelfResps (s : State) (n : Nat) (g : Thread → Thread) : (s.modThr n g).shelfResps = s.shelfResps := State.setThr_shelfResps _ _ _
@[simp] theorem State.modThr_hlinks (s : State) (n : Nat) (g : Thread → Thread) : (s.modThr n g).hlinks = s.hlinks := State.setThr_hlinks _ _ _
@[simp] theorem State.modThr_pair (s : State) (n : Nat) (g : Thread → Thread) : (s.modThr n g).pair = s.pair := State.setThr_pair _ _ _

/-! ### Words and bytes in a row -/

/-- Words written in a row change the register file alone. -/
theorem State.wrN_only (s : State) (a n v : Nat) : { s.wrN a n v with regs := s.regs } = s := by
  induction n generalizing s a v with
  | zero => rfl
  | succ n ih =>
    have h := ih (s.wr a (BitVec.ofNat 32 v)) (a + 4) (v / 2 ^ 32)
    simpa [State.wrN, State.wr] using congrArg (fun t : State => { t with regs := s.regs }) h

/-- A byte string stored changes memory alone. -/
theorem State.stBytes_only (s : State) (a : Nat) (bs : List Byte) : { s.stBytes a bs with mem := s.mem } = s := by
  induction bs generalizing s a with
  | nil => rfl
  | cons b bs ih =>
    have h := ih (s.stByte a b) (a + 1)
    simpa [State.stBytes, State.stByte] using congrArg (fun t : State => { t with mem := s.mem }) h

@[simp] theorem State.wrN_pending (s : State) (a n v : Nat) : (s.wrN a n v).pending = s.pending := (congrArg State.pending (s.wrN_only a n v) :)
@[simp] theorem State.wrN_free (s : State) (a n v : Nat) : (s.wrN a n v).free = s.free := (congrArg State.free (s.wrN_only a n v) :)
@[simp] theorem State.wrN_out (s : State) (a n v : Nat) : (s.wrN a n v).out = s.out := (congrArg State.out (s.wrN_only a n v) :)
@[simp] theorem State.wrN_mem (s : State) (a n v : Nat) : (s.wrN a n v).mem = s.mem := (congrArg State.mem (s.wrN_only a n v) :)
@[simp] theorem State.wrN_scratch (s : State) (a n v : Nat) : (s.wrN a n v).scratch = s.scratch := (congrArg State.scratch (s.wrN_only a n v) :)
@[simp] theorem State.wrN_served (s : State) (a n v : Nat) : (s.wrN a n v).served = s.served := (congrArg State.served (s.wrN_only a n v) :)
@[simp] theorem State.wrN_held (s : State) (a n v : Nat) : (s.wrN a n v).held = s.held := (congrArg State.held (s.wrN_only a n v) :)
@[simp] theorem State.wrN_clock (s : State) (a n v : Nat) : (s.wrN a n v).clock = s.clock := (congrArg State.clock (s.wrN_only a n v) :)
@[simp] theorem State.wrN_tb (s : State) (a n v : Nat) : (s.wrN a n v).tb = s.tb := (congrArg State.tb (s.wrN_only a n v) :)
@[simp] theorem State.wrN_boot (s : State) (a n v : Nat) : (s.wrN a n v).boot = s.boot := (congrArg State.boot (s.wrN_only a n v) :)
@[simp] theorem State.wrN_power (s : State) (a n v : Nat) : (s.wrN a n v).power = s.power := (congrArg State.power (s.wrN_only a n v) :)
@[simp] theorem State.wrN_pins (s : State) (a n v : Nat) : (s.wrN a n v).pins = s.pins := (congrArg State.pins (s.wrN_only a n v) :)
@[simp] theorem State.wrN_fuses (s : State) (a n v : Nat) : (s.wrN a n v).fuses = s.fuses := (congrArg State.fuses (s.wrN_only a n v) :)
@[simp] theorem State.wrN_loaded (s : State) (a n v : Nat) : (s.wrN a n v).loaded = s.loaded := (congrArg State.loaded (s.wrN_only a n v) :)
@[simp] theorem State.wrN_fuseOp (s : State) (a n v : Nat) : (s.wrN a n v).fuseOp = s.fuseOp := (congrArg State.fuseOp (s.wrN_only a n v) :)
@[simp] theorem State.wrN_temps (s : State) (a n v : Nat) : (s.wrN a n v).temps = s.temps := (congrArg State.temps (s.wrN_only a n v) :)
@[simp] theorem State.wrN_zeroising (s : State) (a n v : Nat) : (s.wrN a n v).zeroising = s.zeroising := (congrArg State.zeroising (s.wrN_only a n v) :)
@[simp] theorem State.wrN_isl (s : State) (a n v : Nat) : (s.wrN a n v).isl = s.isl := (congrArg State.isl (s.wrN_only a n v) :)
@[simp] theorem State.wrN_threads (s : State) (a n v : Nat) : (s.wrN a n v).threads = s.threads := (congrArg State.threads (s.wrN_only a n v) :)
@[simp] theorem State.wrN_entries (s : State) (a n v : Nat) : (s.wrN a n v).entries = s.entries := (congrArg State.entries (s.wrN_only a n v) :)
@[simp] theorem State.wrN_cores (s : State) (a n v : Nat) : (s.wrN a n v).cores = s.cores := (congrArg State.cores (s.wrN_only a n v) :)
@[simp] theorem State.wrN_clusters (s : State) (a n v : Nat) : (s.wrN a n v).clusters = s.clusters := (congrArg State.clusters (s.wrN_only a n v) :)
@[simp] theorem State.wrN_stewards (s : State) (a n v : Nat) : (s.wrN a n v).stewards = s.stewards := (congrArg State.stewards (s.wrN_only a n v) :)
@[simp] theorem State.wrN_signals (s : State) (a n v : Nat) : (s.wrN a n v).signals = s.signals := (congrArg State.signals (s.wrN_only a n v) :)
@[simp] theorem State.wrN_gated (s : State) (a n v : Nat) : (s.wrN a n v).gated = s.gated := (congrArg State.gated (s.wrN_only a n v) :)
@[simp] theorem State.wrN_nextOp (s : State) (a n v : Nat) : (s.wrN a n v).nextOp = s.nextOp := (congrArg State.nextOp (s.wrN_only a n v) :)
@[simp] theorem State.wrN_frames (s : State) (a n v : Nat) : (s.wrN a n v).frames = s.frames := (congrArg State.frames (s.wrN_only a n v) :)
@[simp] theorem State.wrN_nextFrame (s : State) (a n v : Nat) : (s.wrN a n v).nextFrame = s.nextFrame := (congrArg State.nextFrame (s.wrN_only a n v) :)
@[simp] theorem State.wrN_attachSeq (s : State) (a n v : Nat) : (s.wrN a n v).attachSeq = s.attachSeq := (congrArg State.attachSeq (s.wrN_only a n v) :)
@[simp] theorem State.wrN_insts (s : State) (a n v : Nat) : (s.wrN a n v).insts = s.insts := (congrArg State.insts (s.wrN_only a n v) :)
@[simp] theorem State.wrN_hosts (s : State) (a n v : Nat) : (s.wrN a n v).hosts = s.hosts := (congrArg State.hosts (s.wrN_only a n v) :)
@[simp] theorem State.wrN_xfers (s : State) (a n v : Nat) : (s.wrN a n v).xfers = s.xfers := (congrArg State.xfers (s.wrN_only a n v) :)
@[simp] theorem State.wrN_nextXfer (s : State) (a n v : Nat) : (s.wrN a n v).nextXfer = s.nextXfer := (congrArg State.nextXfer (s.wrN_only a n v) :)
@[simp] theorem State.wrN_readQ (s : State) (a n v : Nat) : (s.wrN a n v).readQ = s.readQ := (congrArg State.readQ (s.wrN_only a n v) :)
@[simp] theorem State.wrN_groups (s : State) (a n v : Nat) : (s.wrN a n v).groups = s.groups := (congrArg State.groups (s.wrN_only a n v) :)
@[simp] theorem State.wrN_pauses (s : State) (a n v : Nat) : (s.wrN a n v).pauses = s.pauses := (congrArg State.pauses (s.wrN_only a n v) :)
@[simp] theorem State.wrN_ptp (s : State) (a n v : Nat) : (s.wrN a n v).ptp = s.ptp := (congrArg State.ptp (s.wrN_only a n v) :)
@[simp] theorem State.wrN_macs (s : State) (a n v : Nat) : (s.wrN a n v).macs = s.macs := (congrArg State.macs (s.wrN_only a n v) :)
@[simp] theorem State.wrN_lanes (s : State) (a n v : Nat) : (s.wrN a n v).lanes = s.lanes := (congrArg State.lanes (s.wrN_only a n v) :)
@[simp] theorem State.wrN_reorder (s : State) (a n v : Nat) : (s.wrN a n v).reorder = s.reorder := (congrArg State.reorder (s.wrN_only a n v) :)
@[simp] theorem State.wrN_spreadLast (s : State) (a n v : Nat) : (s.wrN a n v).spreadLast = s.spreadLast := (congrArg State.spreadLast (s.wrN_only a n v) :)
@[simp] theorem State.wrN_slotUntil (s : State) (a n v : Nat) : (s.wrN a n v).slotUntil = s.slotUntil := (congrArg State.slotUntil (s.wrN_only a n v) :)
@[simp] theorem State.wrN_staging (s : State) (a n v : Nat) : (s.wrN a n v).staging = s.staging := (congrArg State.staging (s.wrN_only a n v) :)
@[simp] theorem State.wrN_fabric (s : State) (a n v : Nat) : (s.wrN a n v).fabric = s.fabric := (congrArg State.fabric (s.wrN_only a n v) :)
@[simp] theorem State.wrN_outQs (s : State) (a n v : Nat) : (s.wrN a n v).outQs = s.outQs := (congrArg State.outQs (s.wrN_only a n v) :)
@[simp] theorem State.wrN_spillBacklog (s : State) (a n v : Nat) : (s.wrN a n v).spillBacklog = s.spillBacklog := (congrArg State.spillBacklog (s.wrN_only a n v) :)
@[simp] theorem State.wrN_polBal (s : State) (a n v : Nat) : (s.wrN a n v).polBal = s.polBal := (congrArg State.polBal (s.wrN_only a n v) :)
@[simp] theorem State.wrN_copies (s : State) (a n v : Nat) : (s.wrN a n v).copies = s.copies := (congrArg State.copies (s.wrN_only a n v) :)
@[simp] theorem State.wrN_toStep (s : State) (a n v : Nat) : (s.wrN a n v).toStep = s.toStep := (congrArg State.toStep (s.wrN_only a n v) :)
@[simp] theorem State.wrN_captureQ (s : State) (a n v : Nat) : (s.wrN a n v).captureQ = s.captureQ := (congrArg State.captureQ (s.wrN_only a n v) :)
@[simp] theorem State.wrN_captureTokens (s : State) (a n v : Nat) : (s.wrN a n v).captureTokens = s.captureTokens := (congrArg State.captureTokens (s.wrN_only a n v) :)
@[simp] theorem State.wrN_captureAt (s : State) (a n v : Nat) : (s.wrN a n v).captureAt = s.captureAt := (congrArg State.captureAt (s.wrN_only a n v) :)
@[simp] theorem State.wrN_qps (s : State) (a n v : Nat) : (s.wrN a n v).qps = s.qps := (congrArg State.qps (s.wrN_only a n v) :)
@[simp] theorem State.wrN_hostCmds (s : State) (a n v : Nat) : (s.wrN a n v).hostCmds = s.hostCmds := (congrArg State.hostCmds (s.wrN_only a n v) :)
@[simp] theorem State.wrN_cmdWait (s : State) (a n v : Nat) : (s.wrN a n v).cmdWait = s.cmdWait := (congrArg State.cmdWait (s.wrN_only a n v) :)
@[simp] theorem State.wrN_replies (s : State) (a n v : Nat) : (s.wrN a n v).replies = s.replies := (congrArg State.replies (s.wrN_only a n v) :)
@[simp] theorem State.wrN_mboxes (s : State) (a n v : Nat) : (s.wrN a n v).mboxes = s.mboxes := (congrArg State.mboxes (s.wrN_only a n v) :)
@[simp] theorem State.wrN_mbIntEn (s : State) (a n v : Nat) : (s.wrN a n v).mbIntEn = s.mbIntEn := (congrArg State.mbIntEn (s.wrN_only a n v) :)
@[simp] theorem State.wrN_ferry (s : State) (a n v : Nat) : (s.wrN a n v).ferry = s.ferry := (congrArg State.ferry (s.wrN_only a n v) :)
@[simp] theorem State.wrN_ferryTurn (s : State) (a n v : Nat) : (s.wrN a n v).ferryTurn = s.ferryTurn := (congrArg State.ferryTurn (s.wrN_only a n v) :)
@[simp] theorem State.wrN_slots (s : State) (a n v : Nat) : (s.wrN a n v).slots = s.slots := (congrArg State.slots (s.wrN_only a n v) :)
@[simp] theorem State.wrN_keyBanks (s : State) (a n v : Nat) : (s.wrN a n v).keyBanks = s.keyBanks := (congrArg State.keyBanks (s.wrN_only a n v) :)
@[simp] theorem State.wrN_stage (s : State) (a n v : Nat) : (s.wrN a n v).stage = s.stage := (congrArg State.stage (s.wrN_only a n v) :)
@[simp] theorem State.wrN_ksCode (s : State) (a n v : Nat) : (s.wrN a n v).ksCode = s.ksCode := (congrArg State.ksCode (s.wrN_only a n v) :)
@[simp] theorem State.wrN_notify (s : State) (a n v : Nat) : (s.wrN a n v).notify = s.notify := (congrArg State.notify (s.wrN_only a n v) :)
@[simp] theorem State.wrN_keyCache (s : State) (a n v : Nat) : (s.wrN a n v).keyCache = s.keyCache := (congrArg State.keyCache (s.wrN_only a n v) :)
@[simp] theorem State.wrN_keyMiss (s : State) (a n v : Nat) : (s.wrN a n v).keyMiss = s.keyMiss := (congrArg State.keyMiss (s.wrN_only a n v) :)
@[simp] theorem State.wrN_ciphJobs (s : State) (a n v : Nat) : (s.wrN a n v).ciphJobs = s.ciphJobs := (congrArg State.ciphJobs (s.wrN_only a n v) :)
@[simp] theorem State.wrN_rrEngine (s : State) (a n v : Nat) : (s.wrN a n v).rrEngine = s.rrEngine := (congrArg State.rrEngine (s.wrN_only a n v) :)
@[simp] theorem State.wrN_ciphIn (s : State) (a n v : Nat) : (s.wrN a n v).ciphIn = s.ciphIn := (congrArg State.ciphIn (s.wrN_only a n v) :)
@[simp] theorem State.wrN_ciphOut (s : State) (a n v : Nat) : (s.wrN a n v).ciphOut = s.ciphOut := (congrArg State.ciphOut (s.wrN_only a n v) :)
@[simp] theorem State.wrN_stsIn (s : State) (a n v : Nat) : (s.wrN a n v).stsIn = s.stsIn := (congrArg State.stsIn (s.wrN_only a n v) :)
@[simp] theorem State.wrN_stsOut (s : State) (a n v : Nat) : (s.wrN a n v).stsOut = s.stsOut := (congrArg State.stsOut (s.wrN_only a n v) :)
@[simp] theorem State.wrN_ctxCache (s : State) (a n v : Nat) : (s.wrN a n v).ctxCache = s.ctxCache := (congrArg State.ctxCache (s.wrN_only a n v) :)
@[simp] theorem State.wrN_stsTx (s : State) (a n v : Nat) : (s.wrN a n v).stsTx = s.stsTx := (congrArg State.stsTx (s.wrN_only a n v) :)
@[simp] theorem State.wrN_stsRx (s : State) (a n v : Nat) : (s.wrN a n v).stsRx = s.stsRx := (congrArg State.stsRx (s.wrN_only a n v) :)
@[simp] theorem State.wrN_ingIn (s : State) (a n v : Nat) : (s.wrN a n v).ingIn = s.ingIn := (congrArg State.ingIn (s.wrN_only a n v) :)
@[simp] theorem State.wrN_jobs (s : State) (a n v : Nat) : (s.wrN a n v).jobs = s.jobs := (congrArg State.jobs (s.wrN_only a n v) :)
@[simp] theorem State.wrN_unitIn (s : State) (a n v : Nat) : (s.wrN a n v).unitIn = s.unitIn := (congrArg State.unitIn (s.wrN_only a n v) :)
@[simp] theorem State.wrN_shelfResps (s : State) (a n v : Nat) : (s.wrN a n v).shelfResps = s.shelfResps := (congrArg State.shelfResps (s.wrN_only a n v) :)
@[simp] theorem State.wrN_hlinks (s : State) (a n v : Nat) : (s.wrN a n v).hlinks = s.hlinks := (congrArg State.hlinks (s.wrN_only a n v) :)
@[simp] theorem State.wrN_pair (s : State) (a n v : Nat) : (s.wrN a n v).pair = s.pair := (congrArg State.pair (s.wrN_only a n v) :)

@[simp] theorem State.setRf_pending (s : State) (a : Nat) (g : Fld) (v : Nat) : (s.setRf a g v).pending = s.pending := State.wrN_pending _ _ _ _
@[simp] theorem State.setRf_free (s : State) (a : Nat) (g : Fld) (v : Nat) : (s.setRf a g v).free = s.free := State.wrN_free _ _ _ _
@[simp] theorem State.setRf_out (s : State) (a : Nat) (g : Fld) (v : Nat) : (s.setRf a g v).out = s.out := State.wrN_out _ _ _ _
@[simp] theorem State.setRf_mem (s : State) (a : Nat) (g : Fld) (v : Nat) : (s.setRf a g v).mem = s.mem := State.wrN_mem _ _ _ _
@[simp] theorem State.setRf_scratch (s : State) (a : Nat) (g : Fld) (v : Nat) : (s.setRf a g v).scratch = s.scratch := State.wrN_scratch _ _ _ _
@[simp] theorem State.setRf_served (s : State) (a : Nat) (g : Fld) (v : Nat) : (s.setRf a g v).served = s.served := State.wrN_served _ _ _ _
@[simp] theorem State.setRf_held (s : State) (a : Nat) (g : Fld) (v : Nat) : (s.setRf a g v).held = s.held := State.wrN_held _ _ _ _
@[simp] theorem State.setRf_clock (s : State) (a : Nat) (g : Fld) (v : Nat) : (s.setRf a g v).clock = s.clock := State.wrN_clock _ _ _ _
@[simp] theorem State.setRf_tb (s : State) (a : Nat) (g : Fld) (v : Nat) : (s.setRf a g v).tb = s.tb := State.wrN_tb _ _ _ _
@[simp] theorem State.setRf_boot (s : State) (a : Nat) (g : Fld) (v : Nat) : (s.setRf a g v).boot = s.boot := State.wrN_boot _ _ _ _
@[simp] theorem State.setRf_power (s : State) (a : Nat) (g : Fld) (v : Nat) : (s.setRf a g v).power = s.power := State.wrN_power _ _ _ _
@[simp] theorem State.setRf_pins (s : State) (a : Nat) (g : Fld) (v : Nat) : (s.setRf a g v).pins = s.pins := State.wrN_pins _ _ _ _
@[simp] theorem State.setRf_fuses (s : State) (a : Nat) (g : Fld) (v : Nat) : (s.setRf a g v).fuses = s.fuses := State.wrN_fuses _ _ _ _
@[simp] theorem State.setRf_loaded (s : State) (a : Nat) (g : Fld) (v : Nat) : (s.setRf a g v).loaded = s.loaded := State.wrN_loaded _ _ _ _
@[simp] theorem State.setRf_fuseOp (s : State) (a : Nat) (g : Fld) (v : Nat) : (s.setRf a g v).fuseOp = s.fuseOp := State.wrN_fuseOp _ _ _ _
@[simp] theorem State.setRf_temps (s : State) (a : Nat) (g : Fld) (v : Nat) : (s.setRf a g v).temps = s.temps := State.wrN_temps _ _ _ _
@[simp] theorem State.setRf_zeroising (s : State) (a : Nat) (g : Fld) (v : Nat) : (s.setRf a g v).zeroising = s.zeroising := State.wrN_zeroising _ _ _ _
@[simp] theorem State.setRf_isl (s : State) (a : Nat) (g : Fld) (v : Nat) : (s.setRf a g v).isl = s.isl := State.wrN_isl _ _ _ _
@[simp] theorem State.setRf_threads (s : State) (a : Nat) (g : Fld) (v : Nat) : (s.setRf a g v).threads = s.threads := State.wrN_threads _ _ _ _
@[simp] theorem State.setRf_entries (s : State) (a : Nat) (g : Fld) (v : Nat) : (s.setRf a g v).entries = s.entries := State.wrN_entries _ _ _ _
@[simp] theorem State.setRf_cores (s : State) (a : Nat) (g : Fld) (v : Nat) : (s.setRf a g v).cores = s.cores := State.wrN_cores _ _ _ _
@[simp] theorem State.setRf_clusters (s : State) (a : Nat) (g : Fld) (v : Nat) : (s.setRf a g v).clusters = s.clusters := State.wrN_clusters _ _ _ _
@[simp] theorem State.setRf_stewards (s : State) (a : Nat) (g : Fld) (v : Nat) : (s.setRf a g v).stewards = s.stewards := State.wrN_stewards _ _ _ _
@[simp] theorem State.setRf_signals (s : State) (a : Nat) (g : Fld) (v : Nat) : (s.setRf a g v).signals = s.signals := State.wrN_signals _ _ _ _
@[simp] theorem State.setRf_gated (s : State) (a : Nat) (g : Fld) (v : Nat) : (s.setRf a g v).gated = s.gated := State.wrN_gated _ _ _ _
@[simp] theorem State.setRf_nextOp (s : State) (a : Nat) (g : Fld) (v : Nat) : (s.setRf a g v).nextOp = s.nextOp := State.wrN_nextOp _ _ _ _
@[simp] theorem State.setRf_frames (s : State) (a : Nat) (g : Fld) (v : Nat) : (s.setRf a g v).frames = s.frames := State.wrN_frames _ _ _ _
@[simp] theorem State.setRf_nextFrame (s : State) (a : Nat) (g : Fld) (v : Nat) : (s.setRf a g v).nextFrame = s.nextFrame := State.wrN_nextFrame _ _ _ _
@[simp] theorem State.setRf_attachSeq (s : State) (a : Nat) (g : Fld) (v : Nat) : (s.setRf a g v).attachSeq = s.attachSeq := State.wrN_attachSeq _ _ _ _
@[simp] theorem State.setRf_insts (s : State) (a : Nat) (g : Fld) (v : Nat) : (s.setRf a g v).insts = s.insts := State.wrN_insts _ _ _ _
@[simp] theorem State.setRf_hosts (s : State) (a : Nat) (g : Fld) (v : Nat) : (s.setRf a g v).hosts = s.hosts := State.wrN_hosts _ _ _ _
@[simp] theorem State.setRf_xfers (s : State) (a : Nat) (g : Fld) (v : Nat) : (s.setRf a g v).xfers = s.xfers := State.wrN_xfers _ _ _ _
@[simp] theorem State.setRf_nextXfer (s : State) (a : Nat) (g : Fld) (v : Nat) : (s.setRf a g v).nextXfer = s.nextXfer := State.wrN_nextXfer _ _ _ _
@[simp] theorem State.setRf_readQ (s : State) (a : Nat) (g : Fld) (v : Nat) : (s.setRf a g v).readQ = s.readQ := State.wrN_readQ _ _ _ _
@[simp] theorem State.setRf_groups (s : State) (a : Nat) (g : Fld) (v : Nat) : (s.setRf a g v).groups = s.groups := State.wrN_groups _ _ _ _
@[simp] theorem State.setRf_pauses (s : State) (a : Nat) (g : Fld) (v : Nat) : (s.setRf a g v).pauses = s.pauses := State.wrN_pauses _ _ _ _
@[simp] theorem State.setRf_ptp (s : State) (a : Nat) (g : Fld) (v : Nat) : (s.setRf a g v).ptp = s.ptp := State.wrN_ptp _ _ _ _
@[simp] theorem State.setRf_macs (s : State) (a : Nat) (g : Fld) (v : Nat) : (s.setRf a g v).macs = s.macs := State.wrN_macs _ _ _ _
@[simp] theorem State.setRf_lanes (s : State) (a : Nat) (g : Fld) (v : Nat) : (s.setRf a g v).lanes = s.lanes := State.wrN_lanes _ _ _ _
@[simp] theorem State.setRf_reorder (s : State) (a : Nat) (g : Fld) (v : Nat) : (s.setRf a g v).reorder = s.reorder := State.wrN_reorder _ _ _ _
@[simp] theorem State.setRf_spreadLast (s : State) (a : Nat) (g : Fld) (v : Nat) : (s.setRf a g v).spreadLast = s.spreadLast := State.wrN_spreadLast _ _ _ _
@[simp] theorem State.setRf_slotUntil (s : State) (a : Nat) (g : Fld) (v : Nat) : (s.setRf a g v).slotUntil = s.slotUntil := State.wrN_slotUntil _ _ _ _
@[simp] theorem State.setRf_staging (s : State) (a : Nat) (g : Fld) (v : Nat) : (s.setRf a g v).staging = s.staging := State.wrN_staging _ _ _ _
@[simp] theorem State.setRf_fabric (s : State) (a : Nat) (g : Fld) (v : Nat) : (s.setRf a g v).fabric = s.fabric := State.wrN_fabric _ _ _ _
@[simp] theorem State.setRf_outQs (s : State) (a : Nat) (g : Fld) (v : Nat) : (s.setRf a g v).outQs = s.outQs := State.wrN_outQs _ _ _ _
@[simp] theorem State.setRf_spillBacklog (s : State) (a : Nat) (g : Fld) (v : Nat) : (s.setRf a g v).spillBacklog = s.spillBacklog := State.wrN_spillBacklog _ _ _ _
@[simp] theorem State.setRf_polBal (s : State) (a : Nat) (g : Fld) (v : Nat) : (s.setRf a g v).polBal = s.polBal := State.wrN_polBal _ _ _ _
@[simp] theorem State.setRf_copies (s : State) (a : Nat) (g : Fld) (v : Nat) : (s.setRf a g v).copies = s.copies := State.wrN_copies _ _ _ _
@[simp] theorem State.setRf_toStep (s : State) (a : Nat) (g : Fld) (v : Nat) : (s.setRf a g v).toStep = s.toStep := State.wrN_toStep _ _ _ _
@[simp] theorem State.setRf_captureQ (s : State) (a : Nat) (g : Fld) (v : Nat) : (s.setRf a g v).captureQ = s.captureQ := State.wrN_captureQ _ _ _ _
@[simp] theorem State.setRf_captureTokens (s : State) (a : Nat) (g : Fld) (v : Nat) : (s.setRf a g v).captureTokens = s.captureTokens := State.wrN_captureTokens _ _ _ _
@[simp] theorem State.setRf_captureAt (s : State) (a : Nat) (g : Fld) (v : Nat) : (s.setRf a g v).captureAt = s.captureAt := State.wrN_captureAt _ _ _ _
@[simp] theorem State.setRf_qps (s : State) (a : Nat) (g : Fld) (v : Nat) : (s.setRf a g v).qps = s.qps := State.wrN_qps _ _ _ _
@[simp] theorem State.setRf_hostCmds (s : State) (a : Nat) (g : Fld) (v : Nat) : (s.setRf a g v).hostCmds = s.hostCmds := State.wrN_hostCmds _ _ _ _
@[simp] theorem State.setRf_cmdWait (s : State) (a : Nat) (g : Fld) (v : Nat) : (s.setRf a g v).cmdWait = s.cmdWait := State.wrN_cmdWait _ _ _ _
@[simp] theorem State.setRf_replies (s : State) (a : Nat) (g : Fld) (v : Nat) : (s.setRf a g v).replies = s.replies := State.wrN_replies _ _ _ _
@[simp] theorem State.setRf_mboxes (s : State) (a : Nat) (g : Fld) (v : Nat) : (s.setRf a g v).mboxes = s.mboxes := State.wrN_mboxes _ _ _ _
@[simp] theorem State.setRf_mbIntEn (s : State) (a : Nat) (g : Fld) (v : Nat) : (s.setRf a g v).mbIntEn = s.mbIntEn := State.wrN_mbIntEn _ _ _ _
@[simp] theorem State.setRf_ferry (s : State) (a : Nat) (g : Fld) (v : Nat) : (s.setRf a g v).ferry = s.ferry := State.wrN_ferry _ _ _ _
@[simp] theorem State.setRf_ferryTurn (s : State) (a : Nat) (g : Fld) (v : Nat) : (s.setRf a g v).ferryTurn = s.ferryTurn := State.wrN_ferryTurn _ _ _ _
@[simp] theorem State.setRf_slots (s : State) (a : Nat) (g : Fld) (v : Nat) : (s.setRf a g v).slots = s.slots := State.wrN_slots _ _ _ _
@[simp] theorem State.setRf_keyBanks (s : State) (a : Nat) (g : Fld) (v : Nat) : (s.setRf a g v).keyBanks = s.keyBanks := State.wrN_keyBanks _ _ _ _
@[simp] theorem State.setRf_stage (s : State) (a : Nat) (g : Fld) (v : Nat) : (s.setRf a g v).stage = s.stage := State.wrN_stage _ _ _ _
@[simp] theorem State.setRf_ksCode (s : State) (a : Nat) (g : Fld) (v : Nat) : (s.setRf a g v).ksCode = s.ksCode := State.wrN_ksCode _ _ _ _
@[simp] theorem State.setRf_notify (s : State) (a : Nat) (g : Fld) (v : Nat) : (s.setRf a g v).notify = s.notify := State.wrN_notify _ _ _ _
@[simp] theorem State.setRf_keyCache (s : State) (a : Nat) (g : Fld) (v : Nat) : (s.setRf a g v).keyCache = s.keyCache := State.wrN_keyCache _ _ _ _
@[simp] theorem State.setRf_keyMiss (s : State) (a : Nat) (g : Fld) (v : Nat) : (s.setRf a g v).keyMiss = s.keyMiss := State.wrN_keyMiss _ _ _ _
@[simp] theorem State.setRf_ciphJobs (s : State) (a : Nat) (g : Fld) (v : Nat) : (s.setRf a g v).ciphJobs = s.ciphJobs := State.wrN_ciphJobs _ _ _ _
@[simp] theorem State.setRf_rrEngine (s : State) (a : Nat) (g : Fld) (v : Nat) : (s.setRf a g v).rrEngine = s.rrEngine := State.wrN_rrEngine _ _ _ _
@[simp] theorem State.setRf_ciphIn (s : State) (a : Nat) (g : Fld) (v : Nat) : (s.setRf a g v).ciphIn = s.ciphIn := State.wrN_ciphIn _ _ _ _
@[simp] theorem State.setRf_ciphOut (s : State) (a : Nat) (g : Fld) (v : Nat) : (s.setRf a g v).ciphOut = s.ciphOut := State.wrN_ciphOut _ _ _ _
@[simp] theorem State.setRf_stsIn (s : State) (a : Nat) (g : Fld) (v : Nat) : (s.setRf a g v).stsIn = s.stsIn := State.wrN_stsIn _ _ _ _
@[simp] theorem State.setRf_stsOut (s : State) (a : Nat) (g : Fld) (v : Nat) : (s.setRf a g v).stsOut = s.stsOut := State.wrN_stsOut _ _ _ _
@[simp] theorem State.setRf_ctxCache (s : State) (a : Nat) (g : Fld) (v : Nat) : (s.setRf a g v).ctxCache = s.ctxCache := State.wrN_ctxCache _ _ _ _
@[simp] theorem State.setRf_stsTx (s : State) (a : Nat) (g : Fld) (v : Nat) : (s.setRf a g v).stsTx = s.stsTx := State.wrN_stsTx _ _ _ _
@[simp] theorem State.setRf_stsRx (s : State) (a : Nat) (g : Fld) (v : Nat) : (s.setRf a g v).stsRx = s.stsRx := State.wrN_stsRx _ _ _ _
@[simp] theorem State.setRf_ingIn (s : State) (a : Nat) (g : Fld) (v : Nat) : (s.setRf a g v).ingIn = s.ingIn := State.wrN_ingIn _ _ _ _
@[simp] theorem State.setRf_jobs (s : State) (a : Nat) (g : Fld) (v : Nat) : (s.setRf a g v).jobs = s.jobs := State.wrN_jobs _ _ _ _
@[simp] theorem State.setRf_unitIn (s : State) (a : Nat) (g : Fld) (v : Nat) : (s.setRf a g v).unitIn = s.unitIn := State.wrN_unitIn _ _ _ _
@[simp] theorem State.setRf_shelfResps (s : State) (a : Nat) (g : Fld) (v : Nat) : (s.setRf a g v).shelfResps = s.shelfResps := State.wrN_shelfResps _ _ _ _
@[simp] theorem State.setRf_hlinks (s : State) (a : Nat) (g : Fld) (v : Nat) : (s.setRf a g v).hlinks = s.hlinks := State.wrN_hlinks _ _ _ _
@[simp] theorem State.setRf_pair (s : State) (a : Nat) (g : Fld) (v : Nat) : (s.setRf a g v).pair = s.pair := State.wrN_pair _ _ _ _

@[simp] theorem State.count_pending (s : State) (a n : Nat) : (s.count a n).pending = s.pending := State.wrN_pending _ _ _ _
@[simp] theorem State.count_free (s : State) (a n : Nat) : (s.count a n).free = s.free := State.wrN_free _ _ _ _
@[simp] theorem State.count_out (s : State) (a n : Nat) : (s.count a n).out = s.out := State.wrN_out _ _ _ _
@[simp] theorem State.count_mem (s : State) (a n : Nat) : (s.count a n).mem = s.mem := State.wrN_mem _ _ _ _
@[simp] theorem State.count_scratch (s : State) (a n : Nat) : (s.count a n).scratch = s.scratch := State.wrN_scratch _ _ _ _
@[simp] theorem State.count_served (s : State) (a n : Nat) : (s.count a n).served = s.served := State.wrN_served _ _ _ _
@[simp] theorem State.count_held (s : State) (a n : Nat) : (s.count a n).held = s.held := State.wrN_held _ _ _ _
@[simp] theorem State.count_clock (s : State) (a n : Nat) : (s.count a n).clock = s.clock := State.wrN_clock _ _ _ _
@[simp] theorem State.count_tb (s : State) (a n : Nat) : (s.count a n).tb = s.tb := State.wrN_tb _ _ _ _
@[simp] theorem State.count_boot (s : State) (a n : Nat) : (s.count a n).boot = s.boot := State.wrN_boot _ _ _ _
@[simp] theorem State.count_power (s : State) (a n : Nat) : (s.count a n).power = s.power := State.wrN_power _ _ _ _
@[simp] theorem State.count_pins (s : State) (a n : Nat) : (s.count a n).pins = s.pins := State.wrN_pins _ _ _ _
@[simp] theorem State.count_fuses (s : State) (a n : Nat) : (s.count a n).fuses = s.fuses := State.wrN_fuses _ _ _ _
@[simp] theorem State.count_loaded (s : State) (a n : Nat) : (s.count a n).loaded = s.loaded := State.wrN_loaded _ _ _ _
@[simp] theorem State.count_fuseOp (s : State) (a n : Nat) : (s.count a n).fuseOp = s.fuseOp := State.wrN_fuseOp _ _ _ _
@[simp] theorem State.count_temps (s : State) (a n : Nat) : (s.count a n).temps = s.temps := State.wrN_temps _ _ _ _
@[simp] theorem State.count_zeroising (s : State) (a n : Nat) : (s.count a n).zeroising = s.zeroising := State.wrN_zeroising _ _ _ _
@[simp] theorem State.count_isl (s : State) (a n : Nat) : (s.count a n).isl = s.isl := State.wrN_isl _ _ _ _
@[simp] theorem State.count_threads (s : State) (a n : Nat) : (s.count a n).threads = s.threads := State.wrN_threads _ _ _ _
@[simp] theorem State.count_entries (s : State) (a n : Nat) : (s.count a n).entries = s.entries := State.wrN_entries _ _ _ _
@[simp] theorem State.count_cores (s : State) (a n : Nat) : (s.count a n).cores = s.cores := State.wrN_cores _ _ _ _
@[simp] theorem State.count_clusters (s : State) (a n : Nat) : (s.count a n).clusters = s.clusters := State.wrN_clusters _ _ _ _
@[simp] theorem State.count_stewards (s : State) (a n : Nat) : (s.count a n).stewards = s.stewards := State.wrN_stewards _ _ _ _
@[simp] theorem State.count_signals (s : State) (a n : Nat) : (s.count a n).signals = s.signals := State.wrN_signals _ _ _ _
@[simp] theorem State.count_gated (s : State) (a n : Nat) : (s.count a n).gated = s.gated := State.wrN_gated _ _ _ _
@[simp] theorem State.count_nextOp (s : State) (a n : Nat) : (s.count a n).nextOp = s.nextOp := State.wrN_nextOp _ _ _ _
@[simp] theorem State.count_frames (s : State) (a n : Nat) : (s.count a n).frames = s.frames := State.wrN_frames _ _ _ _
@[simp] theorem State.count_nextFrame (s : State) (a n : Nat) : (s.count a n).nextFrame = s.nextFrame := State.wrN_nextFrame _ _ _ _
@[simp] theorem State.count_attachSeq (s : State) (a n : Nat) : (s.count a n).attachSeq = s.attachSeq := State.wrN_attachSeq _ _ _ _
@[simp] theorem State.count_insts (s : State) (a n : Nat) : (s.count a n).insts = s.insts := State.wrN_insts _ _ _ _
@[simp] theorem State.count_hosts (s : State) (a n : Nat) : (s.count a n).hosts = s.hosts := State.wrN_hosts _ _ _ _
@[simp] theorem State.count_xfers (s : State) (a n : Nat) : (s.count a n).xfers = s.xfers := State.wrN_xfers _ _ _ _
@[simp] theorem State.count_nextXfer (s : State) (a n : Nat) : (s.count a n).nextXfer = s.nextXfer := State.wrN_nextXfer _ _ _ _
@[simp] theorem State.count_readQ (s : State) (a n : Nat) : (s.count a n).readQ = s.readQ := State.wrN_readQ _ _ _ _
@[simp] theorem State.count_groups (s : State) (a n : Nat) : (s.count a n).groups = s.groups := State.wrN_groups _ _ _ _
@[simp] theorem State.count_pauses (s : State) (a n : Nat) : (s.count a n).pauses = s.pauses := State.wrN_pauses _ _ _ _
@[simp] theorem State.count_ptp (s : State) (a n : Nat) : (s.count a n).ptp = s.ptp := State.wrN_ptp _ _ _ _
@[simp] theorem State.count_macs (s : State) (a n : Nat) : (s.count a n).macs = s.macs := State.wrN_macs _ _ _ _
@[simp] theorem State.count_lanes (s : State) (a n : Nat) : (s.count a n).lanes = s.lanes := State.wrN_lanes _ _ _ _
@[simp] theorem State.count_reorder (s : State) (a n : Nat) : (s.count a n).reorder = s.reorder := State.wrN_reorder _ _ _ _
@[simp] theorem State.count_spreadLast (s : State) (a n : Nat) : (s.count a n).spreadLast = s.spreadLast := State.wrN_spreadLast _ _ _ _
@[simp] theorem State.count_slotUntil (s : State) (a n : Nat) : (s.count a n).slotUntil = s.slotUntil := State.wrN_slotUntil _ _ _ _
@[simp] theorem State.count_staging (s : State) (a n : Nat) : (s.count a n).staging = s.staging := State.wrN_staging _ _ _ _
@[simp] theorem State.count_fabric (s : State) (a n : Nat) : (s.count a n).fabric = s.fabric := State.wrN_fabric _ _ _ _
@[simp] theorem State.count_outQs (s : State) (a n : Nat) : (s.count a n).outQs = s.outQs := State.wrN_outQs _ _ _ _
@[simp] theorem State.count_spillBacklog (s : State) (a n : Nat) : (s.count a n).spillBacklog = s.spillBacklog := State.wrN_spillBacklog _ _ _ _
@[simp] theorem State.count_polBal (s : State) (a n : Nat) : (s.count a n).polBal = s.polBal := State.wrN_polBal _ _ _ _
@[simp] theorem State.count_copies (s : State) (a n : Nat) : (s.count a n).copies = s.copies := State.wrN_copies _ _ _ _
@[simp] theorem State.count_toStep (s : State) (a n : Nat) : (s.count a n).toStep = s.toStep := State.wrN_toStep _ _ _ _
@[simp] theorem State.count_captureQ (s : State) (a n : Nat) : (s.count a n).captureQ = s.captureQ := State.wrN_captureQ _ _ _ _
@[simp] theorem State.count_captureTokens (s : State) (a n : Nat) : (s.count a n).captureTokens = s.captureTokens := State.wrN_captureTokens _ _ _ _
@[simp] theorem State.count_captureAt (s : State) (a n : Nat) : (s.count a n).captureAt = s.captureAt := State.wrN_captureAt _ _ _ _
@[simp] theorem State.count_qps (s : State) (a n : Nat) : (s.count a n).qps = s.qps := State.wrN_qps _ _ _ _
@[simp] theorem State.count_hostCmds (s : State) (a n : Nat) : (s.count a n).hostCmds = s.hostCmds := State.wrN_hostCmds _ _ _ _
@[simp] theorem State.count_cmdWait (s : State) (a n : Nat) : (s.count a n).cmdWait = s.cmdWait := State.wrN_cmdWait _ _ _ _
@[simp] theorem State.count_replies (s : State) (a n : Nat) : (s.count a n).replies = s.replies := State.wrN_replies _ _ _ _
@[simp] theorem State.count_mboxes (s : State) (a n : Nat) : (s.count a n).mboxes = s.mboxes := State.wrN_mboxes _ _ _ _
@[simp] theorem State.count_mbIntEn (s : State) (a n : Nat) : (s.count a n).mbIntEn = s.mbIntEn := State.wrN_mbIntEn _ _ _ _
@[simp] theorem State.count_ferry (s : State) (a n : Nat) : (s.count a n).ferry = s.ferry := State.wrN_ferry _ _ _ _
@[simp] theorem State.count_ferryTurn (s : State) (a n : Nat) : (s.count a n).ferryTurn = s.ferryTurn := State.wrN_ferryTurn _ _ _ _
@[simp] theorem State.count_slots (s : State) (a n : Nat) : (s.count a n).slots = s.slots := State.wrN_slots _ _ _ _
@[simp] theorem State.count_keyBanks (s : State) (a n : Nat) : (s.count a n).keyBanks = s.keyBanks := State.wrN_keyBanks _ _ _ _
@[simp] theorem State.count_stage (s : State) (a n : Nat) : (s.count a n).stage = s.stage := State.wrN_stage _ _ _ _
@[simp] theorem State.count_ksCode (s : State) (a n : Nat) : (s.count a n).ksCode = s.ksCode := State.wrN_ksCode _ _ _ _
@[simp] theorem State.count_notify (s : State) (a n : Nat) : (s.count a n).notify = s.notify := State.wrN_notify _ _ _ _
@[simp] theorem State.count_keyCache (s : State) (a n : Nat) : (s.count a n).keyCache = s.keyCache := State.wrN_keyCache _ _ _ _
@[simp] theorem State.count_keyMiss (s : State) (a n : Nat) : (s.count a n).keyMiss = s.keyMiss := State.wrN_keyMiss _ _ _ _
@[simp] theorem State.count_ciphJobs (s : State) (a n : Nat) : (s.count a n).ciphJobs = s.ciphJobs := State.wrN_ciphJobs _ _ _ _
@[simp] theorem State.count_rrEngine (s : State) (a n : Nat) : (s.count a n).rrEngine = s.rrEngine := State.wrN_rrEngine _ _ _ _
@[simp] theorem State.count_ciphIn (s : State) (a n : Nat) : (s.count a n).ciphIn = s.ciphIn := State.wrN_ciphIn _ _ _ _
@[simp] theorem State.count_ciphOut (s : State) (a n : Nat) : (s.count a n).ciphOut = s.ciphOut := State.wrN_ciphOut _ _ _ _
@[simp] theorem State.count_stsIn (s : State) (a n : Nat) : (s.count a n).stsIn = s.stsIn := State.wrN_stsIn _ _ _ _
@[simp] theorem State.count_stsOut (s : State) (a n : Nat) : (s.count a n).stsOut = s.stsOut := State.wrN_stsOut _ _ _ _
@[simp] theorem State.count_ctxCache (s : State) (a n : Nat) : (s.count a n).ctxCache = s.ctxCache := State.wrN_ctxCache _ _ _ _
@[simp] theorem State.count_stsTx (s : State) (a n : Nat) : (s.count a n).stsTx = s.stsTx := State.wrN_stsTx _ _ _ _
@[simp] theorem State.count_stsRx (s : State) (a n : Nat) : (s.count a n).stsRx = s.stsRx := State.wrN_stsRx _ _ _ _
@[simp] theorem State.count_ingIn (s : State) (a n : Nat) : (s.count a n).ingIn = s.ingIn := State.wrN_ingIn _ _ _ _
@[simp] theorem State.count_jobs (s : State) (a n : Nat) : (s.count a n).jobs = s.jobs := State.wrN_jobs _ _ _ _
@[simp] theorem State.count_unitIn (s : State) (a n : Nat) : (s.count a n).unitIn = s.unitIn := State.wrN_unitIn _ _ _ _
@[simp] theorem State.count_shelfResps (s : State) (a n : Nat) : (s.count a n).shelfResps = s.shelfResps := State.wrN_shelfResps _ _ _ _
@[simp] theorem State.count_hlinks (s : State) (a n : Nat) : (s.count a n).hlinks = s.hlinks := State.wrN_hlinks _ _ _ _
@[simp] theorem State.count_pair (s : State) (a n : Nat) : (s.count a n).pair = s.pair := State.wrN_pair _ _ _ _

@[simp] theorem State.stBytes_pending (s : State) (a : Nat) (bs : List Byte) : (s.stBytes a bs).pending = s.pending := (congrArg State.pending (s.stBytes_only a bs) :)
@[simp] theorem State.stBytes_free (s : State) (a : Nat) (bs : List Byte) : (s.stBytes a bs).free = s.free := (congrArg State.free (s.stBytes_only a bs) :)
@[simp] theorem State.stBytes_out (s : State) (a : Nat) (bs : List Byte) : (s.stBytes a bs).out = s.out := (congrArg State.out (s.stBytes_only a bs) :)
@[simp] theorem State.stBytes_scratch (s : State) (a : Nat) (bs : List Byte) : (s.stBytes a bs).scratch = s.scratch := (congrArg State.scratch (s.stBytes_only a bs) :)
@[simp] theorem State.stBytes_regs (s : State) (a : Nat) (bs : List Byte) : (s.stBytes a bs).regs = s.regs := (congrArg State.regs (s.stBytes_only a bs) :)
@[simp] theorem State.stBytes_served (s : State) (a : Nat) (bs : List Byte) : (s.stBytes a bs).served = s.served := (congrArg State.served (s.stBytes_only a bs) :)
@[simp] theorem State.stBytes_held (s : State) (a : Nat) (bs : List Byte) : (s.stBytes a bs).held = s.held := (congrArg State.held (s.stBytes_only a bs) :)
@[simp] theorem State.stBytes_clock (s : State) (a : Nat) (bs : List Byte) : (s.stBytes a bs).clock = s.clock := (congrArg State.clock (s.stBytes_only a bs) :)
@[simp] theorem State.stBytes_tb (s : State) (a : Nat) (bs : List Byte) : (s.stBytes a bs).tb = s.tb := (congrArg State.tb (s.stBytes_only a bs) :)
@[simp] theorem State.stBytes_boot (s : State) (a : Nat) (bs : List Byte) : (s.stBytes a bs).boot = s.boot := (congrArg State.boot (s.stBytes_only a bs) :)
@[simp] theorem State.stBytes_power (s : State) (a : Nat) (bs : List Byte) : (s.stBytes a bs).power = s.power := (congrArg State.power (s.stBytes_only a bs) :)
@[simp] theorem State.stBytes_pins (s : State) (a : Nat) (bs : List Byte) : (s.stBytes a bs).pins = s.pins := (congrArg State.pins (s.stBytes_only a bs) :)
@[simp] theorem State.stBytes_fuses (s : State) (a : Nat) (bs : List Byte) : (s.stBytes a bs).fuses = s.fuses := (congrArg State.fuses (s.stBytes_only a bs) :)
@[simp] theorem State.stBytes_loaded (s : State) (a : Nat) (bs : List Byte) : (s.stBytes a bs).loaded = s.loaded := (congrArg State.loaded (s.stBytes_only a bs) :)
@[simp] theorem State.stBytes_fuseOp (s : State) (a : Nat) (bs : List Byte) : (s.stBytes a bs).fuseOp = s.fuseOp := (congrArg State.fuseOp (s.stBytes_only a bs) :)
@[simp] theorem State.stBytes_temps (s : State) (a : Nat) (bs : List Byte) : (s.stBytes a bs).temps = s.temps := (congrArg State.temps (s.stBytes_only a bs) :)
@[simp] theorem State.stBytes_zeroising (s : State) (a : Nat) (bs : List Byte) : (s.stBytes a bs).zeroising = s.zeroising := (congrArg State.zeroising (s.stBytes_only a bs) :)
@[simp] theorem State.stBytes_isl (s : State) (a : Nat) (bs : List Byte) : (s.stBytes a bs).isl = s.isl := (congrArg State.isl (s.stBytes_only a bs) :)
@[simp] theorem State.stBytes_threads (s : State) (a : Nat) (bs : List Byte) : (s.stBytes a bs).threads = s.threads := (congrArg State.threads (s.stBytes_only a bs) :)
@[simp] theorem State.stBytes_entries (s : State) (a : Nat) (bs : List Byte) : (s.stBytes a bs).entries = s.entries := (congrArg State.entries (s.stBytes_only a bs) :)
@[simp] theorem State.stBytes_cores (s : State) (a : Nat) (bs : List Byte) : (s.stBytes a bs).cores = s.cores := (congrArg State.cores (s.stBytes_only a bs) :)
@[simp] theorem State.stBytes_clusters (s : State) (a : Nat) (bs : List Byte) : (s.stBytes a bs).clusters = s.clusters := (congrArg State.clusters (s.stBytes_only a bs) :)
@[simp] theorem State.stBytes_stewards (s : State) (a : Nat) (bs : List Byte) : (s.stBytes a bs).stewards = s.stewards := (congrArg State.stewards (s.stBytes_only a bs) :)
@[simp] theorem State.stBytes_signals (s : State) (a : Nat) (bs : List Byte) : (s.stBytes a bs).signals = s.signals := (congrArg State.signals (s.stBytes_only a bs) :)
@[simp] theorem State.stBytes_gated (s : State) (a : Nat) (bs : List Byte) : (s.stBytes a bs).gated = s.gated := (congrArg State.gated (s.stBytes_only a bs) :)
@[simp] theorem State.stBytes_nextOp (s : State) (a : Nat) (bs : List Byte) : (s.stBytes a bs).nextOp = s.nextOp := (congrArg State.nextOp (s.stBytes_only a bs) :)
@[simp] theorem State.stBytes_frames (s : State) (a : Nat) (bs : List Byte) : (s.stBytes a bs).frames = s.frames := (congrArg State.frames (s.stBytes_only a bs) :)
@[simp] theorem State.stBytes_nextFrame (s : State) (a : Nat) (bs : List Byte) : (s.stBytes a bs).nextFrame = s.nextFrame := (congrArg State.nextFrame (s.stBytes_only a bs) :)
@[simp] theorem State.stBytes_attachSeq (s : State) (a : Nat) (bs : List Byte) : (s.stBytes a bs).attachSeq = s.attachSeq := (congrArg State.attachSeq (s.stBytes_only a bs) :)
@[simp] theorem State.stBytes_insts (s : State) (a : Nat) (bs : List Byte) : (s.stBytes a bs).insts = s.insts := (congrArg State.insts (s.stBytes_only a bs) :)
@[simp] theorem State.stBytes_hosts (s : State) (a : Nat) (bs : List Byte) : (s.stBytes a bs).hosts = s.hosts := (congrArg State.hosts (s.stBytes_only a bs) :)
@[simp] theorem State.stBytes_xfers (s : State) (a : Nat) (bs : List Byte) : (s.stBytes a bs).xfers = s.xfers := (congrArg State.xfers (s.stBytes_only a bs) :)
@[simp] theorem State.stBytes_nextXfer (s : State) (a : Nat) (bs : List Byte) : (s.stBytes a bs).nextXfer = s.nextXfer := (congrArg State.nextXfer (s.stBytes_only a bs) :)
@[simp] theorem State.stBytes_readQ (s : State) (a : Nat) (bs : List Byte) : (s.stBytes a bs).readQ = s.readQ := (congrArg State.readQ (s.stBytes_only a bs) :)
@[simp] theorem State.stBytes_groups (s : State) (a : Nat) (bs : List Byte) : (s.stBytes a bs).groups = s.groups := (congrArg State.groups (s.stBytes_only a bs) :)
@[simp] theorem State.stBytes_pauses (s : State) (a : Nat) (bs : List Byte) : (s.stBytes a bs).pauses = s.pauses := (congrArg State.pauses (s.stBytes_only a bs) :)
@[simp] theorem State.stBytes_ptp (s : State) (a : Nat) (bs : List Byte) : (s.stBytes a bs).ptp = s.ptp := (congrArg State.ptp (s.stBytes_only a bs) :)
@[simp] theorem State.stBytes_macs (s : State) (a : Nat) (bs : List Byte) : (s.stBytes a bs).macs = s.macs := (congrArg State.macs (s.stBytes_only a bs) :)
@[simp] theorem State.stBytes_lanes (s : State) (a : Nat) (bs : List Byte) : (s.stBytes a bs).lanes = s.lanes := (congrArg State.lanes (s.stBytes_only a bs) :)
@[simp] theorem State.stBytes_reorder (s : State) (a : Nat) (bs : List Byte) : (s.stBytes a bs).reorder = s.reorder := (congrArg State.reorder (s.stBytes_only a bs) :)
@[simp] theorem State.stBytes_spreadLast (s : State) (a : Nat) (bs : List Byte) : (s.stBytes a bs).spreadLast = s.spreadLast := (congrArg State.spreadLast (s.stBytes_only a bs) :)
@[simp] theorem State.stBytes_slotUntil (s : State) (a : Nat) (bs : List Byte) : (s.stBytes a bs).slotUntil = s.slotUntil := (congrArg State.slotUntil (s.stBytes_only a bs) :)
@[simp] theorem State.stBytes_staging (s : State) (a : Nat) (bs : List Byte) : (s.stBytes a bs).staging = s.staging := (congrArg State.staging (s.stBytes_only a bs) :)
@[simp] theorem State.stBytes_fabric (s : State) (a : Nat) (bs : List Byte) : (s.stBytes a bs).fabric = s.fabric := (congrArg State.fabric (s.stBytes_only a bs) :)
@[simp] theorem State.stBytes_outQs (s : State) (a : Nat) (bs : List Byte) : (s.stBytes a bs).outQs = s.outQs := (congrArg State.outQs (s.stBytes_only a bs) :)
@[simp] theorem State.stBytes_spillBacklog (s : State) (a : Nat) (bs : List Byte) : (s.stBytes a bs).spillBacklog = s.spillBacklog := (congrArg State.spillBacklog (s.stBytes_only a bs) :)
@[simp] theorem State.stBytes_polBal (s : State) (a : Nat) (bs : List Byte) : (s.stBytes a bs).polBal = s.polBal := (congrArg State.polBal (s.stBytes_only a bs) :)
@[simp] theorem State.stBytes_copies (s : State) (a : Nat) (bs : List Byte) : (s.stBytes a bs).copies = s.copies := (congrArg State.copies (s.stBytes_only a bs) :)
@[simp] theorem State.stBytes_toStep (s : State) (a : Nat) (bs : List Byte) : (s.stBytes a bs).toStep = s.toStep := (congrArg State.toStep (s.stBytes_only a bs) :)
@[simp] theorem State.stBytes_captureQ (s : State) (a : Nat) (bs : List Byte) : (s.stBytes a bs).captureQ = s.captureQ := (congrArg State.captureQ (s.stBytes_only a bs) :)
@[simp] theorem State.stBytes_captureTokens (s : State) (a : Nat) (bs : List Byte) : (s.stBytes a bs).captureTokens = s.captureTokens := (congrArg State.captureTokens (s.stBytes_only a bs) :)
@[simp] theorem State.stBytes_captureAt (s : State) (a : Nat) (bs : List Byte) : (s.stBytes a bs).captureAt = s.captureAt := (congrArg State.captureAt (s.stBytes_only a bs) :)
@[simp] theorem State.stBytes_qps (s : State) (a : Nat) (bs : List Byte) : (s.stBytes a bs).qps = s.qps := (congrArg State.qps (s.stBytes_only a bs) :)
@[simp] theorem State.stBytes_hostCmds (s : State) (a : Nat) (bs : List Byte) : (s.stBytes a bs).hostCmds = s.hostCmds := (congrArg State.hostCmds (s.stBytes_only a bs) :)
@[simp] theorem State.stBytes_cmdWait (s : State) (a : Nat) (bs : List Byte) : (s.stBytes a bs).cmdWait = s.cmdWait := (congrArg State.cmdWait (s.stBytes_only a bs) :)
@[simp] theorem State.stBytes_replies (s : State) (a : Nat) (bs : List Byte) : (s.stBytes a bs).replies = s.replies := (congrArg State.replies (s.stBytes_only a bs) :)
@[simp] theorem State.stBytes_mboxes (s : State) (a : Nat) (bs : List Byte) : (s.stBytes a bs).mboxes = s.mboxes := (congrArg State.mboxes (s.stBytes_only a bs) :)
@[simp] theorem State.stBytes_mbIntEn (s : State) (a : Nat) (bs : List Byte) : (s.stBytes a bs).mbIntEn = s.mbIntEn := (congrArg State.mbIntEn (s.stBytes_only a bs) :)
@[simp] theorem State.stBytes_ferry (s : State) (a : Nat) (bs : List Byte) : (s.stBytes a bs).ferry = s.ferry := (congrArg State.ferry (s.stBytes_only a bs) :)
@[simp] theorem State.stBytes_ferryTurn (s : State) (a : Nat) (bs : List Byte) : (s.stBytes a bs).ferryTurn = s.ferryTurn := (congrArg State.ferryTurn (s.stBytes_only a bs) :)
@[simp] theorem State.stBytes_slots (s : State) (a : Nat) (bs : List Byte) : (s.stBytes a bs).slots = s.slots := (congrArg State.slots (s.stBytes_only a bs) :)
@[simp] theorem State.stBytes_keyBanks (s : State) (a : Nat) (bs : List Byte) : (s.stBytes a bs).keyBanks = s.keyBanks := (congrArg State.keyBanks (s.stBytes_only a bs) :)
@[simp] theorem State.stBytes_stage (s : State) (a : Nat) (bs : List Byte) : (s.stBytes a bs).stage = s.stage := (congrArg State.stage (s.stBytes_only a bs) :)
@[simp] theorem State.stBytes_ksCode (s : State) (a : Nat) (bs : List Byte) : (s.stBytes a bs).ksCode = s.ksCode := (congrArg State.ksCode (s.stBytes_only a bs) :)
@[simp] theorem State.stBytes_notify (s : State) (a : Nat) (bs : List Byte) : (s.stBytes a bs).notify = s.notify := (congrArg State.notify (s.stBytes_only a bs) :)
@[simp] theorem State.stBytes_keyCache (s : State) (a : Nat) (bs : List Byte) : (s.stBytes a bs).keyCache = s.keyCache := (congrArg State.keyCache (s.stBytes_only a bs) :)
@[simp] theorem State.stBytes_keyMiss (s : State) (a : Nat) (bs : List Byte) : (s.stBytes a bs).keyMiss = s.keyMiss := (congrArg State.keyMiss (s.stBytes_only a bs) :)
@[simp] theorem State.stBytes_ciphJobs (s : State) (a : Nat) (bs : List Byte) : (s.stBytes a bs).ciphJobs = s.ciphJobs := (congrArg State.ciphJobs (s.stBytes_only a bs) :)
@[simp] theorem State.stBytes_rrEngine (s : State) (a : Nat) (bs : List Byte) : (s.stBytes a bs).rrEngine = s.rrEngine := (congrArg State.rrEngine (s.stBytes_only a bs) :)
@[simp] theorem State.stBytes_ciphIn (s : State) (a : Nat) (bs : List Byte) : (s.stBytes a bs).ciphIn = s.ciphIn := (congrArg State.ciphIn (s.stBytes_only a bs) :)
@[simp] theorem State.stBytes_ciphOut (s : State) (a : Nat) (bs : List Byte) : (s.stBytes a bs).ciphOut = s.ciphOut := (congrArg State.ciphOut (s.stBytes_only a bs) :)
@[simp] theorem State.stBytes_stsIn (s : State) (a : Nat) (bs : List Byte) : (s.stBytes a bs).stsIn = s.stsIn := (congrArg State.stsIn (s.stBytes_only a bs) :)
@[simp] theorem State.stBytes_stsOut (s : State) (a : Nat) (bs : List Byte) : (s.stBytes a bs).stsOut = s.stsOut := (congrArg State.stsOut (s.stBytes_only a bs) :)
@[simp] theorem State.stBytes_ctxCache (s : State) (a : Nat) (bs : List Byte) : (s.stBytes a bs).ctxCache = s.ctxCache := (congrArg State.ctxCache (s.stBytes_only a bs) :)
@[simp] theorem State.stBytes_stsTx (s : State) (a : Nat) (bs : List Byte) : (s.stBytes a bs).stsTx = s.stsTx := (congrArg State.stsTx (s.stBytes_only a bs) :)
@[simp] theorem State.stBytes_stsRx (s : State) (a : Nat) (bs : List Byte) : (s.stBytes a bs).stsRx = s.stsRx := (congrArg State.stsRx (s.stBytes_only a bs) :)
@[simp] theorem State.stBytes_ingIn (s : State) (a : Nat) (bs : List Byte) : (s.stBytes a bs).ingIn = s.ingIn := (congrArg State.ingIn (s.stBytes_only a bs) :)
@[simp] theorem State.stBytes_jobs (s : State) (a : Nat) (bs : List Byte) : (s.stBytes a bs).jobs = s.jobs := (congrArg State.jobs (s.stBytes_only a bs) :)
@[simp] theorem State.stBytes_unitIn (s : State) (a : Nat) (bs : List Byte) : (s.stBytes a bs).unitIn = s.unitIn := (congrArg State.unitIn (s.stBytes_only a bs) :)
@[simp] theorem State.stBytes_shelfResps (s : State) (a : Nat) (bs : List Byte) : (s.stBytes a bs).shelfResps = s.shelfResps := (congrArg State.shelfResps (s.stBytes_only a bs) :)
@[simp] theorem State.stBytes_hlinks (s : State) (a : Nat) (bs : List Byte) : (s.stBytes a bs).hlinks = s.hlinks := (congrArg State.hlinks (s.stBytes_only a bs) :)
@[simp] theorem State.stBytes_pair (s : State) (a : Nat) (bs : List Byte) : (s.stBytes a bs).pair = s.pair := (congrArg State.pair (s.stBytes_only a bs) :)

/-! ### Reads after writes -/

theorem State.rd_wr (s : State) (a : Nat) (v : W32) (b : Nat) : (s.wr a v).rd b = if b = a then v else s.rd b := by
  unfold State.rd State.wr
  split
  · next h => subst h; exact Tab.get_set_self _ _ _ _
  · next h => exact Tab.get_set_ne _ _ _ _ h

@[simp] theorem State.rd_wr_self (s : State) (a : Nat) (v : W32) : (s.wr a v).rd a = v := by simp [State.rd_wr]

theorem State.rd_wr_ne (s : State) {a b : Nat} (v : W32) (h : b ≠ a) : (s.wr a v).rd b = s.rd b := by simp [State.rd_wr, h]

/-- Words in a row leave the registers outside them alone. -/
theorem State.rd_wrN_ne (s : State) (a n v b : Nat) (h : ∀ i, i < n → b ≠ a + 4 * i) : (s.wrN a n v).rd b = s.rd b := by
  induction n generalizing s a v with
  | zero => rfl
  | succ n ih =>
    unfold State.wrN
    rw [ih _ _ _ (fun i hi => by have := h (i + 1) (by omega); omega)]
    exact State.rd_wr_ne _ _ (by simpa using h 0 (by omega))

/-- A field write leaves the registers outside the words of the field alone. -/
theorem State.rd_setRf_ne (s : State) (a : Nat) (f : Fld) (v b : Nat)
    (h : ∀ i, i < f.words → b ≠ a + 4 * (f.lo / 32) + 4 * i) : (s.setRf a f v).rd b = s.rd b :=
  State.rd_wrN_ne _ _ _ _ _ h

theorem State.ldByte_stByte (s : State) (a : Nat) (x : Byte) (b : Nat) :
    (s.stByte a x).ldByte b = if b = a then x else s.ldByte b := Tab.get_set _ _ _ _ _

/-- A read of a byte after a byte string was stored. -/
theorem State.ldByte_stBytes (s : State) (a : Nat) (bs : List Byte) (b : Nat) :
    (s.stBytes a bs).ldByte b = if a ≤ b ∧ b < a + bs.length then bs.getD (b - a) 0 else s.ldByte b := by
  induction bs generalizing s a with
  | nil => simp [State.stBytes]
  | cons x bs ih =>
    rw [State.stBytes, ih, State.ldByte_stByte]
    by_cases h1 : b = a
    · subst h1; simp
    · by_cases h2 : a + 1 ≤ b ∧ b < a + 1 + bs.length
      · have e : b - a = (b - (a + 1)) + 1 := by omega
        rw [if_pos h2, if_pos (by simp only [List.length_cons]; omega), e, List.getD_cons_succ]
      · rw [if_neg h2, if_neg h1, if_neg (by simp only [List.length_cons]; omega)]

/-- Memory keeps its canonical form under a store. -/
theorem State.memory_wf_stByte (s : State) (a : Nat) (b : Byte) (h : Memory.wf s.mem = true) :
    Memory.wf (s.stByte a b).mem = true := Tab.wf_set _ _ _ _ h

theorem State.memory_wf_stBytes (s : State) (a : Nat) (bs : List Byte) (h : Memory.wf s.mem = true) :
    Memory.wf (s.stBytes a bs).mem = true := by
  induction bs generalizing s a with
  | nil => exact h
  | cons b bs ih => exact ih _ _ (State.memory_wf_stByte s a b h)

/-- Memory at reset lists nothing, in canonical form. -/
theorem State.memory_wf_reset : Memory.wf State.reset.mem = true := rfl

theorem State.frame_setFrame (s : State) (i : Nat) (f : Frame) (j : Nat) :
    (s.setFrame i f).frame j = if j = i then f else s.frame j := Tab.get_put _ _ _ _ _

@[simp] theorem State.frame_setFrame_self (s : State) (i : Nat) (f : Frame) : (s.setFrame i f).frame i = f := by
  simp [State.frame_setFrame]

theorem State.frame_modFrame (s : State) (i : Nat) (g : Frame → Frame) (j : Nat) :
    (s.modFrame i g).frame j = if j = i then g (s.frame i) else s.frame j := State.frame_setFrame _ _ _ _

theorem State.stw_setStw (s : State) (k : Nat) (x : Steward) (j : Nat) :
    (s.setStw k x).stw j = if j = k then x else s.stw j := Tab.get_put _ _ _ _ _

theorem State.thr_setThr (s : State) (n : Nat) (t : Thread) (m : Nat) :
    (s.setThr n t).thr m = if m = n then t else s.thr m := by
  by_cases hm : m = n
  · subst hm
    by_cases hn : m < 2048
    · simp [State.setThr, State.thr, hn]
    · simp [State.setThr, State.thr, hn, State.setStw]
  · rw [if_neg hm]
    by_cases hn : n < 2048
    · by_cases hm' : m < 2048
      · simp [State.setThr, State.thr, hn, hm', Tab.get_put, hm]
      · simp [State.setThr, State.thr, hn, hm']
    · by_cases hm' : m < 2048
      · simp [State.setThr, State.thr, hn, hm', State.setStw]
      · have : m - 2048 ≠ n - 2048 := by omega
        simp [State.setThr, State.thr, hn, hm', State.setStw, Tab.get_put, this]

@[simp] theorem State.thr_setThr_self (s : State) (n : Nat) (t : Thread) : (s.setThr n t).thr n = t := by
  simp [State.thr_setThr]

theorem State.thr_modThr (s : State) (n : Nat) (g : Thread → Thread) (m : Nat) :
    (s.modThr n g).thr m = if m = n then g (s.thr n) else s.thr m := State.thr_setThr _ _ _ _

@[simp] theorem State.thr_modThr_self (s : State) (n : Nat) (g : Thread → Thread) : (s.modThr n g).thr n = g (s.thr n) := by
  simp [State.thr_modThr]

/-- A change of a thread leaves the system registers of every steward alone. -/
theorem State.stw_setThr (s : State) (n : Nat) (t : Thread) (k : Nat) :
    { (s.setThr n t).stw k with t := {} } = { s.stw k with t := {} } := by
  unfold State.setThr
  split
  · rfl
  · rw [State.stw_setStw]
    split
    · next h => simp only [h]
    · rfl

/-- A change of a thread changes the tables of threads and stewards alone. -/
theorem State.setThr_only (s : State) (n : Nat) (t : Thread) :
    { s.setThr n t with threads := s.threads, stewards := s.stewards } = s := by
  unfold State.setThr; split <;> rfl

/-- Reads that depend on memory or the register file alone. -/
theorem State.rd_congr {s t : State} (h : t.regs = s.regs) (a : Nat) : t.rd a = s.rd a := by simp [State.rd, h]

theorem State.ldByte_congr {s t : State} (h : t.mem = s.mem) (a : Nat) : t.ldByte a = s.ldByte a := by simp [State.ldByte, h]

theorem State.thr_congr {s t : State} (h : t.threads = s.threads) (h' : t.stewards = s.stewards) (n : Nat) :
    t.thr n = s.thr n := by simp [State.thr, h, h']

theorem State.stw_congr {s t : State} (h : t.stewards = s.stewards) (k : Nat) : t.stw k = s.stw k := by simp [State.stw, h]

theorem State.frame_congr {s t : State} (h : t.frames = s.frames) (i : Nat) : t.frame i = s.frame i := by simp [State.frame, h]

/-! ### Registers of a thread (R59) -/

@[simp] theorem Regs.get_zero (x : Regs) : x.get 0 = 0 := rfl

@[simp] theorem Regs.pred_zero (x : Regs) : x.pred 0 = true := rfl

theorem Regs.get_set (x : Regs) (r : BitVec 5) (v : W64) (q : BitVec 5) :
    (x.set r v).get q = if q = 0 then 0 else if q = r then v else x.get q := by
  unfold Regs.get Regs.set
  by_cases hq : q = 0
  · rw [if_pos hq, if_pos hq]
  · rw [if_neg hq, if_neg hq]
    by_cases hr : r = 0
    · subst hr; simp only [if_pos, if_neg hq]
    · by_cases h : q = r
      · subst h; simp only [if_neg hr, if_true, Vector.getElem_set_self]
      · have hn : r.toNat ≠ q.toNat := fun e => h (BitVec.eq_of_toNat_eq e.symm)
        simp only [if_neg hr, if_neg h, if_neg hq, Vector.getElem_set, if_neg hn]

@[simp] theorem Regs.p_set (x : Regs) (r : BitVec 5) (v : W64) : (x.set r v).p = x.p := by
  unfold Regs.set; split <;> rfl

@[simp] theorem Regs.pred_set (x : Regs) (r : BitVec 5) (v : W64) (p : BitVec 3) : (x.set r v).pred p = x.pred p := by
  simp only [Regs.pred, Regs.p_set]

@[simp] theorem Regs.g_setPred (x : Regs) (p : BitVec 3) (b : Bool) : (x.setPred p b).g = x.g := by
  unfold Regs.setPred; split <;> rfl

@[simp] theorem Regs.get_setPred (x : Regs) (p : BitVec 3) (b : Bool) (q : BitVec 5) : (x.setPred p b).get q = x.get q := by
  simp only [Regs.get, Regs.g_setPred]

/-- A predicate after a predicate was written: p0 reads 1. -/
theorem Regs.pred_setPred (x : Regs) (p : BitVec 3) (b : Bool) (q : BitVec 3) :
    (x.setPred p b).pred q = if q = 0 then true else if q = p then b else x.pred q := by
  unfold Regs.pred Regs.setPred
  by_cases hq : q = 0
  · rw [if_pos hq, if_pos hq]
  · rw [if_neg hq, if_neg hq]
    by_cases hp : p = 0
    · subst hp; simp only [if_pos, if_neg hq]
    · have hlt := q.isLt
      simp only [if_neg hp, if_neg hq, BitVec.getLsbD_ofNat, testBit_setFld, show q.toNat < 8 by omega, decide_true,
        Bool.true_and]
      by_cases h : q = p
      · subst h; rw [if_pos (by omega), if_pos rfl]; cases b <;> simp [b2n]
      · have hn : q.toNat ≠ p.toNat := fun e => h (BitVec.eq_of_toNat_eq e)
        rw [if_neg (by omega), if_neg h]; rfl

end Sys2Proof.Machine
end

