-- ==== Sys2Proof/Laws/Thread.lean ====
section
/-! SUPPORT. The issue of an instruction at a thread or steward: what it comes to where the thread may issue, and what
the shared operations of issue change. -/

namespace Sys2Proof.Machine

open Sys2Proof.Safety

/-! ### The count of an issue -/

/-- What the stalemate status takes when a worker issues. -/
def clearedRegs (s : State) (n : Nat) : State :=
  if n < 2048 ∧ s.rf (Reg.staleStatus (n / 128)) staleStatus_CLEARED = 0 then s.setRf (Reg.staleStatus (n / 128)) staleStatus_CLEARED 1
  else s

theorem clearedRegs_only (s : State) (n : Nat) : { clearedRegs s n with regs := s.regs } = s := by
  unfold clearedRegs; split
  · exact State.wrN_only _ _ _ _
  · rfl

theorem clearedRegs_rd (s : State) (n a : Nat) :
    (n < 2048 ∧ a = Reg.staleStatus (n / 128)) ∨ (clearedRegs s n).rd a = s.rd a := by
  by_cases h : n < 2048 ∧ a = Reg.staleStatus (n / 128)
  · exact .inl h
  · right
    unfold clearedRegs
    split
    · next hn =>
      refine State.rd_setRf_ne _ _ _ _ _ fun i hi => ?_
      have h0 : i = 0 := by
        have : Fld.words staleStatus_CLEARED = 1 := by decide
        omega
      have h1 : 4 * (staleStatus_CLEARED.lo / 32) = 0 := by decide
      rw [h0, h1]
      intro e
      exact h ⟨hn.1, by omega⟩
    · rfl

theorem State.noteIssue_eq (s : State) (n : Nat) :
    s.noteIssue n = clearedRegs (s.modThr n fun t => { t with issued := t.issued + 1 }) n := rfl

theorem clearedRegs_threads (s : State) (n : Nat) : (clearedRegs s n).threads = s.threads :=
  (congrArg State.threads (clearedRegs_only s n) :)

theorem clearedRegs_stewards (s : State) (n : Nat) : (clearedRegs s n).stewards = s.stewards :=
  (congrArg State.stewards (clearedRegs_only s n) :)

theorem State.thr_noteIssue (s : State) (n m : Nat) :
    (s.noteIssue n).thr m = if m = n then { s.thr n with issued := (s.thr n).issued + 1 } else s.thr m := by
  rw [State.noteIssue_eq, State.thr_congr (clearedRegs_threads _ _) (clearedRegs_stewards _ _), State.thr_modThr]

@[simp] theorem State.thr_noteIssue_self (s : State) (n : Nat) :
    (s.noteIssue n).thr n = { s.thr n with issued := (s.thr n).issued + 1 } := by simp [State.thr_noteIssue]

/-- An issue that is counted changes the threads, the stewards and one control register. -/
theorem State.noteIssue_only (s : State) (n : Nat) :
    { s.noteIssue n with threads := s.threads, stewards := s.stewards, regs := s.regs } = s := by
  rw [State.noteIssue_eq]
  have h := clearedRegs_only (s.modThr n fun t => { t with issued := t.issued + 1 }) n
  have h3 := congrArg (fun t : State => { t with threads := s.threads, stewards := s.stewards, regs := s.regs }) h
  simp only at h3
  refine Eq.trans h3 ?_
  simp

theorem State.noteIssue_stw (s : State) (n k : Nat) :
    { (s.noteIssue n).stw k with t := {} } = { s.stw k with t := {} } := by
  rw [State.noteIssue_eq, State.stw_congr (clearedRegs_stewards _ _)]
  exact State.stw_setThr _ _ _ _

theorem State.noteIssue_rd (s : State) (n a : Nat) :
    (n < 2048 ∧ a = Reg.staleStatus (n / 128)) ∨ (s.noteIssue n).rd a = s.rd a := by
  rw [State.noteIssue_eq]
  rcases clearedRegs_rd (s.modThr n fun t => { t with issued := t.issued + 1 }) n a with h | h
  · exact .inl h
  · exact .inr (h.trans (State.rd_congr (State.modThr_regs _ _ _) a))

/-! ### Where a thread may issue -/

theorem clash_eq_false {w : Nat} (xs ys : List (BitVec w)) (h : ∀ x ∈ xs, x = 0 ∨ x ∉ ys) : clash xs ys = false := by
  unfold clash
  rw [List.any_eq_false]
  intro x hx
  rcases h x hx with rfl | h
  · simp
  · simp [h]

theorem canIssue_mayIssue {s : State} {n : Nat} {pr : BitVec 3} {rs : List (BitVec 5)} {ps : List (BitVec 3)}
    (h : CanIssue s n pr rs ps) (a : Afv) (hr : a.regs ⊆ rs) (hp : a.preds ⊆ ps) (hroom : s.roomFor n a = true) :
    s.mayIssue n pr a = true := by
  have h1 : clash ((s.thr n).ops.flatMap fun x => x.act.preds) [pr] = false := clash_eq_false _ _ fun p hp' => by
    obtain ⟨x, hx, hpx⟩ := List.mem_flatMap.1 hp'
    rcases h.preds x hx p hpx with h | h
    · exact .inl h
    · exact .inr (by simpa using h.2)
  have h2 : clash ((s.thr n).ops.flatMap fun x => x.act.regs) a.regs = false := clash_eq_false _ _ fun r hr' => by
    obtain ⟨x, hx, hrx⟩ := List.mem_flatMap.1 hr'
    exact (h.regs x hx r hrx).imp_right fun h h' => h (hr h')
  have h3 : clash ((s.thr n).ops.flatMap fun x => x.act.preds) a.preds = false := clash_eq_false _ _ fun p hp' => by
    obtain ⟨x, hx, hpx⟩ := List.mem_flatMap.1 hp'
    exact (h.preds x hx p hpx).imp_right fun h h' => h.1 (hp h')
  simp [State.mayIssue, h1, h2, h3, hroom]

theorem canIssue_threadReady {s : State} {n : Nat} {pr : BitVec 3} {rs : List (BitVec 5)} {ps : List (BitVec 3)}
    (h : CanIssue s n pr rs ps) : s.threadReady n = true := by
  have hw := h.worker
  simp only [State.threadReady, h.booted, h.powered.1, h.powered.2, h.ready, decide_true, Bool.true_and, Bool.not_false]
  by_cases hn : n < 2048
  · obtain ⟨a, b, c⟩ := hw hn
    simp [a, b, c]
  · simp only [show 2048 ≤ n by omega, decide_true, Bool.true_or]

theorem agentNum_execAfv {who : Agent} {n : Nat} (h : agentNum who = some n) (pr : BitVec 3) (a : Afv) (s : State) :
    execAfv who pr a s = .next (s.threadExec n pr a) := by
  cases who with
  | thread k => simp only [agentNum, Option.some.injEq] at h; subst h; rfl
  | steward k => simp only [agentNum, Option.some.injEq] at h; subst h; rfl
  | lane l => simp [agentNum] at h

/-- Where the thread may issue, an instruction is its effect on the state in which the issue has been counted. -/
theorem canIssue_exec {s : State} {n : Nat} {pr : BitVec 3} {rs : List (BitVec 5)} {ps : List (BitVec 3)}
    (h : CanIssue s n pr rs ps) (a : Afv) (hr : a.regs ⊆ rs) (hp : a.preds ⊆ ps) (hroom : s.roomFor n a = true) :
    s.threadExec n pr a = ((s.noteIssue n).insn n a).apply n (s.thr n).pc := by
  have hpr : (s.thr n).r.pred pr = true := h.true_
  have hin := h.inside
  simp only [State.threadExec, canIssue_threadReady h, canIssue_mayIssue h a hr hp hroom, Bool.and_self, if_true, State.issue,
    State.thr_noteIssue_self, show ¬pcLimit n ≤ (s.thr n).pc by omega, if_false, hpr, Bool.not_true, Bool.false_eq_true]

/-- Where an operation finds no room, the thread does not issue. -/
theorem canIssue_full {s : State} {n : Nat} {pr : BitVec 3} {rs : List (BitVec 5)} {ps : List (BitVec 3)}
    (h : CanIssue s n pr rs ps) (a : Afv) (hroom : s.roomFor n a = false) : s.threadExec n pr a = s := by
  have hpr : (s.thr n).r.pred pr = true := h.true_
  simp [State.threadExec, State.mayIssue, hroom, hpr]

/-! ### The end of an instruction -/

theorem Res.apply_ok_thr (s : State) (n pc : Nat) (g : List (BitVec 5 × W64)) (p : List (BitVec 3 × Bool)) (m : Nat) :
    ((Res.ok s g p).apply n pc).thr m =
      if m = n then { s.thr n with r := (s.thr n).r.writes g p, pc := (s.thr n).pc + 1 } else s.thr m := State.thr_modThr _ _ _ _

/-- An instruction that has completed without any other effect has only written registers and predicates. -/
theorem others_ok (s : State) (n pc : Nat) (g : List (BitVec 5 × W64)) (p : List (BitVec 3 × Bool)) :
    OthersKept s ((Res.ok (s.noteIssue n) g p).apply n pc) n ∧ RestKept s ((Res.ok (s.noteIssue n) g p).apply n pc) := by
  refine ⟨⟨fun m hm => ?_, fun k => ?_, fun a => ?_⟩, ?_⟩
  · rw [Res.apply_ok_thr, if_neg hm, State.thr_noteIssue, if_neg hm]
  · exact (State.stw_setThr _ _ _ _).trans (State.noteIssue_stw s n k)
  · exact (State.noteIssue_rd s n a).imp_right fun h => (State.rd_congr (State.modThr_regs _ _ _) a).trans h
  · have h := State.setThr_only (s.noteIssue n) n { (s.noteIssue n).thr n with r := ((s.noteIssue n).thr n).r.writes g p, pc := ((s.noteIssue n).thr n).pc + 1 }
    have h2 := State.noteIssue_only s n
    have h3 := congrArg (fun t : State => { t with threads := s.threads, stewards := s.stewards, regs := s.regs }) h
    exact h3.trans h2

/-- An instruction that computes one register value. -/
theorem computes_of_ok {c : Instr} {s : State} {n : Nat} {rd : BitVec 5} {v : W64}
    (h : exec c s = .next ((Res.ok (s.noteIssue n) [(rd, v)] []).apply n (s.thr n).pc)) : Computes c s n rd v := by
  refine ⟨_, h, ⟨fun r => ?_, fun p => ?_⟩, ?_, (others_ok s n _ _ _).1, (others_ok s n _ _ _).2⟩
  · simp [reg, Res.apply_ok_thr, Regs.writes, Regs.get_set]
  · simp [pred, Res.apply_ok_thr, Regs.writes]
  · simp [Advanced, Res.apply_ok_thr]

theorem Regs.g_writes_preds (x : Regs) (p : List (BitVec 3 × Bool)) : (x.writes [] p).g = x.g := by
  simp only [Regs.writes, List.foldl_nil]
  induction p generalizing x with
  | nil => rfl
  | cons e p ih => exact (ih _).trans (Regs.g_setPred x e.1 e.2)

/-- An instruction that computes predicates. -/
theorem decides_of_ok {c : Instr} {s : State} {n : Nat} {q : BitVec 3 → Bool} {p : List (BitVec 3 × Bool)}
    (h : exec c s = .next ((Res.ok (s.noteIssue n) [] p).apply n (s.thr n).pc))
    (hq : ∀ x, (((s.thr n).r.writes [] p).pred x) = if x = 0 then true else q x) : Decides c s n q := by
  refine ⟨_, h, ⟨fun x => ?_, fun r => ?_⟩, ?_, (others_ok s n _ _ _).1, (others_ok s n _ _ _).2⟩
  · simpa [pred, Res.apply_ok_thr] using hq x
  · simp [reg, Res.apply_ok_thr, Regs.get, Regs.g_writes_preds]
  · simp [Advanced, Res.apply_ok_thr]

/-! ### Instructions that only compute -/

/-- A computing instruction: its writes, or ILLEGAL. -/
abbrev OnlyComputes (n : Nat) (a : Afv) : Prop := ∀ s : State, s.insn n a =
  match pureVal a (s.thr n).r with
  | .ok g p => .ok s g p
  | _ => .fault s excIllegal 0

section
variable {who : Agent} {n : Nat} {pr : BitVec 3} {rs : List (BitVec 5)} {ps : List (BitVec 3)} {s : State} {c : Instr} {a : Afv}

theorem computes_of_pure {rd : BitVec 5} {v : W64} (h : agentNum who = some n) (hc : CanIssue s n pr rs ps)
    (he : exec c s = execAfv who pr a s) (hr : a.regs ⊆ rs) (hp : a.preds ⊆ ps) (hroom : s.roomFor n a = true)
    (hi : OnlyComputes n a) (hv : pureVal a (s.thr n).r = .ok [(rd, v)] []) : Computes c s n rd v := by
  refine computes_of_ok ?_
  rw [he, agentNum_execAfv h, canIssue_exec hc a hr hp hroom, hi, State.thr_noteIssue_self, hv]

theorem raises_of_pure (h : agentNum who = some n) (hc : CanIssue s n pr rs ps) (he : exec c s = execAfv who pr a s)
    (hr : a.regs ⊆ rs) (hp : a.preds ⊆ ps) (hroom : s.roomFor n a = true) (hi : OnlyComputes n a)
    (hv : pureVal a (s.thr n).r = .bad) : Raises c s n 1 0 := by
  rw [Raises, he, agentNum_execAfv h, canIssue_exec hc a hr hp hroom, hi, State.thr_noteIssue_self, hv]
  rfl

theorem decides_of_pure {q : BitVec 3 → Bool} {p : List (BitVec 3 × Bool)} (h : agentNum who = some n)
    (hc : CanIssue s n pr rs ps) (he : exec c s = execAfv who pr a s) (hr : a.regs ⊆ rs) (hp : a.preds ⊆ ps)
    (hroom : s.roomFor n a = true) (hi : OnlyComputes n a) (hv : pureVal a (s.thr n).r = .ok [] p)
    (hq : ∀ x, (((s.thr n).r.writes [] p).pred x) = if x = 0 then true else q x) : Decides c s n q := by
  refine decides_of_ok (p := p) ?_ hq
  rw [he, agentNum_execAfv h, canIssue_exec hc a hr hp hroom, hi, State.thr_noteIssue_self, hv]

/-- An instruction that ends in an exception. -/
theorem raises_of_fault {code addr : Nat} (h : agentNum who = some n) (hc : CanIssue s n pr rs ps)
    (he : exec c s = execAfv who pr a s) (hr : a.regs ⊆ rs) (hp : a.preds ⊆ ps) (hroom : s.roomFor n a = true)
    (hv : (s.noteIssue n).insn n a = .fault (s.noteIssue n) code addr) : Raises c s n code addr := by
  rw [Raises, he, agentNum_execAfv h, canIssue_exec hc a hr hp hroom, hv]
  rfl

end

/-! ### What each instruction is -/

variable (s : State) (n : Nat)

theorem State.insn_alu (op : AluOp) (rd ra rb : BitVec 5) : s.insn n (.alu op rd ra rb) =
    match pureVal (.alu op rd ra rb) (s.thr n).r with
    | .ok g p => .ok s g p
    | _ => .fault s excIllegal 0 := rfl
theorem State.insn_mul (op : MulOp) (rd ra rb : BitVec 5) : s.insn n (.mul op rd ra rb) =
    match pureVal (.mul op rd ra rb) (s.thr n).r with
    | .ok g p => .ok s g p
    | _ => .fault s excIllegal 0 := rfl
theorem State.insn_cmp (pd : BitVec 3) (mode : BitVec 2) (cond : BitVec 4) (pe : BitVec 3) (ra rb : BitVec 5) : s.insn n (.cmp pd mode cond pe ra rb) =
    match pureVal (.cmp pd mode cond pe ra rb) (s.thr n).r with
    | .ok g p => .ok s g p
    | _ => .fault s excIllegal 0 := rfl
theorem State.insn_pred (op : PredOp) (pd pa pb : BitVec 3) : s.insn n (.pred op pd pa pb) =
    match pureVal (.pred op pd pa pb) (s.thr n).r with
    | .ok g p => .ok s g p
    | _ => .fault s excIllegal 0 := rfl
theorem State.insn_sput (w : BitVec 4) (ra rb : BitVec 5) : s.insn n (.sput w ra rb) = s.runSput n w ra rb := rfl
theorem State.insn_amo (op : AmoOp) (rd ra rb : BitVec 5) (space : BitVec 2) (wide : Bool) : s.insn n (.amo op rd ra rb space wide) = s.runAmo n op rd ra rb space wide := rfl
theorem State.insn_help (op : HelpOp) (rd ra rb : BitVec 5) : s.insn n (.help op rd ra rb) =
    match pureVal (.help op rd ra rb) (s.thr n).r with
    | .ok g p => .ok s g p
    | _ => .fault s excIllegal 0 := rfl
theorem State.insn_ciph (mode : Nat) (rd ra rb : BitVec 5) : s.insn n (.ciph mode rd ra rb) = s.runCiph n mode rd ra rb := rfl
theorem State.insn_imm (op : ImmOp) (rd ra : BitVec 5) (i : BitVec 14) : s.insn n (.imm op rd ra i) =
    match pureVal (.imm op rd ra i) (s.thr n).r with
    | .ok g p => .ok s g p
    | _ => .fault s excIllegal 0 := rfl
theorem State.insn_shift (op : ShiftOp) (rd ra : BitVec 5) (hi amt : BitVec 6) : s.insn n (.shift op rd ra hi amt) =
    match pureVal (.shift op rd ra hi amt) (s.thr n).r with
    | .ok g p => .ok s g p
    | _ => .fault s excIllegal 0 := rfl
theorem State.insn_ext (rd ra : BitVec 5) (i : BitVec 14) : s.insn n (.ext rd ra i) =
    match pureVal (.ext rd ra i) (s.thr n).r with
    | .ok g p => .ok s g p
    | _ => .fault s excIllegal 0 := rfl
theorem State.insn_ins (rd ra : BitVec 5) (i : BitVec 14) : s.insn n (.ins rd ra i) =
    match pureVal (.ins rd ra i) (s.thr n).r with
    | .ok g p => .ok s g p
    | _ => .fault s excIllegal 0 := rfl
theorem State.insn_cmpi (cc : ImmCond) (pd : BitVec 3) (mode : BitVec 2) (ra : BitVec 5) (i : BitVec 14) : s.insn n (.cmpi cc pd mode ra i) =
    match pureVal (.cmpi cc pd mode ra i) (s.thr n).r with
    | .ok g p => .ok s g p
    | _ => .fault s excIllegal 0 := rfl
theorem State.insn_sget (rd : BitVec 5) (i : BitVec 14) : s.insn n (.sget rd i) = s.runSget n rd i := rfl
theorem State.insn_load (k : LoadKind) (rd ra : BitVec 5) (space size : BitVec 2) (off : BitVec 9) : s.insn n (.load k rd ra space size off) = s.runLoad n k rd ra space size off := rfl
theorem State.insn_store (be : Bool) (rs ra : BitVec 5) (space size : BitVec 2) (off : BitVec 9) : s.insn n (.store be rs ra space size off) = s.runStore n be rs ra space size off := rfl
theorem State.insn_branch (off : BitVec 20) : s.insn n (.branch off) = jumpTo s n [] ((s.thr n).pc + off.toInt) := rfl
theorem State.insn_call (off : BitVec 20) : s.insn n (.call off) = jumpTo s n [(31, BitVec.ofNat 64 ((s.thr n).pc + 1))] ((s.thr n).pc + off.toInt) := rfl
theorem State.insn_jr (rd ra : BitVec 5) : s.insn n (.jr rd ra) = jumpTo s n [(rd, BitVec.ofNat 64 ((s.thr n).pc + 1))] ((s.thr n).r.get ra).toNat := rfl
theorem State.insn_look (rd ra : BitVec 5) (table : BitVec 4) (klen rcnt : BitVec 2) (pd : BitVec 3) : s.insn n (.look rd ra table klen rcnt pd) = s.runLook n rd ra table klen rcnt pd := rfl
theorem State.insn_rcmp (rd ra : BitVec 5) (tag : BitVec 4) : s.insn n (.rcmp rd ra tag) = .fault s excIllegal 0 := rfl
theorem State.insn_waite (rd ra : BitVec 5) : s.insn n (.waite rd ra) = s.runWaite n rd ra := rfl
theorem State.insn_sige (ra rb : BitVec 5) : s.insn n (.sige ra rb) = s.runSige n ra rb := rfl
theorem State.insn_sett (ra : BitVec 5) : s.insn n (.sett ra) = .ok ((s.timerFire n).modThr n fun t => { t with timer := some (s.ictNs + (t.r.get ra).toNat) }) [] [] := rfl
theorem State.insn_clrt  : s.insn n .clrt = .ok (s.modThr n fun t => { t with timer := none, ev := t.ev &&& ~~~(0x10000 : W64) }) [] [] := rfl
theorem State.insn_evrd (rd : BitVec 5) : s.insn n (.evrd rd) = .ok ((s.timerFire n).modThr n fun t => { t with ev := s.events n }) [(rd, s.events n)] [] := rfl
theorem State.insn_post (fin : Bool) (ra rb : BitVec 5) : s.insn n (.post fin ra rb) = s.runPost n fin ra rb := rfl
theorem State.insn_take (rd ra : BitVec 5) (pd pe : BitVec 3) : s.insn n (.take rd ra pd pe) = s.runTake n rd ra pd pe := rfl
theorem State.insn_fence (pre succ : BitVec 4) : s.insn n (.fence pre succ) = .ok s [] [] := rfl
theorem State.insn_getw (rd ra : BitVec 5) (pd : BitVec 3) : s.insn n (.getw rd ra pd) = s.runGetw n rd ra pd := rfl
theorem State.insn_dispCont  : s.insn n .dispCont = s.runDisp n fun s fid => s.dispContinue (agentEnd n) fid := rfl
theorem State.insn_dispDrop  : s.insn n .dispDrop = s.runDisp n fun s fid => s.discard fid := rfl
theorem State.insn_dispGroup (ra : BitVec 5) : s.insn n (.dispGroup ra) = s.runDispGroup n ra := rfl
theorem State.insn_news (rd ra rb : BitVec 5) : s.insn n (.news rd ra rb) = s.runNews n rd ra rb := rfl
theorem State.insn_sysr (rd ra : BitVec 5) : s.insn n (.sysr rd ra) = s.runSysr n rd ra := rfl
theorem State.insn_sysw (ra rb : BitVec 5) : s.insn n (.sysw ra rb) = s.runSysw n ra rb := rfl
theorem State.insn_eret  : s.insn n .eret = if n < 2048 then .fault s excPrivileged 0 else .stay (s.returnException (n - 2048)) := rfl
theorem State.insn_waitPwr (rd : BitVec 5) : s.insn n (.waitPwr rd) = s.runWaitPwr n rd := rfl
theorem State.insn_clctl (ra rb : BitVec 5) : s.insn n (.clctl ra rb) = s.runClctl n ra rb := rfl
theorem State.insn_trestart (ra : BitVec 5) : s.insn n (.trestart ra) = s.runTrestart n ra := rfl
theorem State.insn_trap (code : BitVec 5) : s.insn n (.trap code) = .fault s excTrap code.toNat := rfl

end Sys2Proof.Machine
end

