-- ==== Sys2Proof/Tests/Slice0.lean ====
section
/-! SUPPORT. Tests: words written out from the encodings of the spec, an ill-formed command for each check of WellFormed,
results of single commands, and for each statement states and operands that meet its hypotheses. -/

namespace Sys2Proof.Tests

open Sys2Proof Sys2Proof.Machine Sys2Proof.Safety

set_option Elab.async false

/-- The state that a command leads to. -/
def after (c : Instr) (s : State) : State :=
  match exec c s with
  | .next t => t
  | _ => s

/-- General registers with the given values. -/
def regsOf (l : List (BitVec 5 × W64)) : Regs := l.foldl (fun r x => r.set x.1 x.2) {}

/-- An image runs, with cluster 0 released. -/
def booted : State :=
  { State.reset with boot := { phase := .running }, clusters := [(0, { released := true })] }

/-- Worker thread 0 with registers, and steward 0 with the same. -/
def withRegs (l : List (BitVec 5 × W64)) : State :=
  { booted with threads := [(0, { r := regsOf l })], stewards := [(0, { t := { r := regsOf l } })] }

/-- Worker thread 0 holds frame 1, of sixteen bytes. -/
def holding (l : List (BitVec 5 × W64)) : State :=
  { withRegs l with threads := [(0, { r := regsOf l, held := some 1 })], frames := [(1, { data := List.replicate 16 0xAB })] }

/-- A check that `CanIssue` holds. -/
def canIssue (s : State) (n : Nat) (pr : BitVec 3) (rs : List (BitVec 5)) (ps : List (BitVec 3)) : Bool :=
  decide (s.boot.phase = .running) && decide (s.pstate < 2 ∧ s.halting = false) && decide ((s.thr n).run = .ready) &&
  (decide (2048 ≤ n) || ((s.cluster (n / 128)).released && !(s.cluster (n / 128)).halted && !(s.entryOf n).parked)) &&
  decide ((s.thr n).pc < pcLimit n) && pred s n pr &&
  decide (∀ x ∈ (s.thr n).ops, ∀ r ∈ x.act.regs, r = 0 ∨ r ∉ rs) &&
  decide (∀ x ∈ (s.thr n).ops, ∀ p ∈ x.act.preds, p = 0 ∨ (p ∉ ps ∧ p ≠ pr))

theorem canIssue_sound {s : State} {n : Nat} {pr : BitVec 3} {rs : List (BitVec 5)} {ps : List (BitVec 3)}
    (h : canIssue s n pr rs ps = true) : CanIssue s n pr rs ps := by
  simp only [canIssue, Bool.and_eq_true, Bool.or_eq_true, decide_eq_true_eq, Bool.not_eq_true'] at h
  obtain ⟨⟨⟨⟨⟨⟨⟨h1, h2⟩, h3⟩, h4⟩, h5⟩, h6⟩, h7⟩, h8⟩ := h
  exact ⟨h1, h2, h3, fun hn => by rcases h4 with h4 | h4 <;> [omega; exact ⟨h4.1.1, h4.1.2, h4.2⟩], h5, h6, h7, h8⟩

theorem serves_sound {s : State} {ch : Nat} (h : s.stopped = false ∧ s.rf (Reg.devStatus (ch / 8)) devStatus_READY = 1 ∧ s.hostCmds = [] ∧ s.cmdWait = []) :
    Serves s ch :=
  ⟨h.1, h.2.1, h.2.2.1, h.2.2.2⟩

/-! ### Words, from the encodings of the spec (R62, R63) -/

/-- The words of the worked stage program of chapter 3: SGET, EXT, CMPI.EQ, LDBE.4, INS, LOOK, ORI, MOVK, SPUT. -/
theorem test_words_worked :
    afvDecode 0x82000050 = some (.sget 16 10) ∧ afvDecode 0x52300E40 = some (.ext 17 16 0x1C8) ∧
    afvDecode 0x617107F8 = some (.cmpi .eq 2 3 17 0xFF) ∧
    afvDecode 0xAA51A002 = some (.load .be 18 17 2 2 0) ∧ afvPred 0xAA51A002 = 2 ∧
    afvDecode 0x5A531702 = some (.ins 18 19 0x2E0) ∧
    afvDecode 0xD2923062 = some (.look 20 18 3 0 0 3) ∧ afvPred 0xD2923062 = 2 ∧
    afvDecode 0x32C00078 = some (.imm .ori 22 0 0xF) ∧ afvDecode 0x4ED6FFF8 = some (.imm .movk 22 22 0x3FFF) ∧
    afvDecode 0x1014B203 = some (.sput 4 20 22) ∧ afvPred 0x1014B203 = 3 := by decide

/-- Words of the other majors, bit by bit: ADD, MULHS, PAND, AMO.CAS.8, GFXOR, CIPH, LDS, ST, STBE, B, CALL, JR. -/
theorem test_words_by_bits :
    afvDecode 0b00000000011000010001000000000000#32 = some (.alu .add 3 1 2) ∧
    afvDecode 0b00000100011000010001000000010000#32 = some (.mul .mulhs 3 1 2) ∧
    afvDecode 0b00001100100010000110000000000000#32 = some (.pred .and 1 2 3) ∧
    afvDecode 0b00010100011000010001000010100000#32 = some (.amo .cas 3 1 2 0 true) ∧
    afvDecode 0b00011000011000010001000000011000#32 = some (.help .gfxor 3 1 2) ∧
    afvDecode 0b00011100011000010001000000001000#32 = some (.ciph 1 3 1 2) ∧
    afvDecode 0b10100100011000010001011111111000#32 = some (.load .sign 3 1 0 1 0xFF) ∧
    afvDecode 0b10101100011000010101000000001000#32 = some (.store false 3 1 1 1 1) ∧
    afvDecode 0b10110000011000011011000000000000#32 = some (.store true 3 1 2 3 0) ∧
    afvDecode 0b11000000011111111111111111111000#32 = some (.branch 0xFFFFF) ∧
    afvDecode 0b11000100000000000000000000001000#32 = some (.call 1) ∧
    afvDecode 0b11001000011000010000000000000000#32 = some (.jr 3 1) := by decide

/-- Words of the E and F formats: SIGE, POST.END, TAKE, FENCE, GETW, NEWS, SYSR, TRAP; and RCMP. -/
theorem test_words_events :
    afvDecode 0b11100000000000010001000001000000#32 = some (.sige 1 2) ∧
    afvDecode 0b11100100000000010001000001000000#32 = some (.post true 1 2) ∧
    afvDecode 0b11100100011000010001100010010000#32 = some (.take 3 1 2 3) ∧
    afvDecode 0b11101000001000100000000001000000#32 = some (.fence 1 2) ∧
    afvDecode 0b11101100011000010000000000010000#32 = some (.getw 3 1 2) ∧
    afvDecode 0b11101100011000010001000100000000#32 = some (.news 3 1 2) ∧
    afvDecode 0b11110000011000010000000000000000#32 = some (.sysr 3 1) ∧
    afvDecode 0b11110000000000000010100110000000#32 = some (.trap 5) ∧
    afvDecode 0b11010100011000010101000000000000#32 = some (.rcmp 3 1 5) := by decide

/-- Words that R63 makes ILLEGAL: an unused func, a set reserved bit, a condition of 8, an unused major. -/
theorem test_words_illegal :
    afvDecode 0x000000B0 = none ∧ afvDecode 0x10200000 = none ∧ afvDecode 0x08000400 = none ∧ afvDecode 0xFC000000 = none := by
  decide

/-! ### Ill-formed commands, one for each check of WellFormed -/

theorem test_wf_unary : (Instr.clz (.thread 0) 0 1 2 3).wf = false ∧ (Instr.ctz (.thread 0) 0 1 2 3).wf = false ∧
    (Instr.popc (.thread 0) 0 1 2 3).wf = false ∧ (Instr.bswap (.thread 0) 0 1 2 3).wf = false ∧
    (Instr.clz (.thread 0) 0 1 2 0).wf = true := by decide

theorem test_wf_conditions : (Instr.cmp (.thread 0) 0 1 0 8 0 1 2).wf = false ∧ (Instr.pnot (.thread 0) 0 1 2 3).wf = false ∧
    (Instr.cmp (.thread 0) 0 1 0 7 0 1 2).wf = true := by decide

theorem test_wf_shifts : (Instr.shli (.thread 0) 0 1 2 1 0).wf = false ∧ (Instr.shri (.thread 0) 0 1 2 1 0).wf = false ∧
    (Instr.srai (.thread 0) 0 1 2 1 0).wf = false ∧ (Instr.roli (.thread 0) 0 1 2 1 0).wf = false := by decide

/-- A field that runs past bit 63; imm[13] set; a signed INS. -/
theorem test_wf_fields : (Instr.ext (.thread 0) 0 1 2 0xFC1).wf = false ∧ (Instr.ext (.thread 0) 0 1 2 0x2000).wf = false ∧
    (Instr.ext (.thread 0) 0 1 2 0xFC0).wf = true ∧ (Instr.ins (.thread 0) 0 1 2 0x1000).wf = false := by decide

/-- SGET of a word beyond imm[4:0], or of a pair at an odd word; LDC and STC of fewer than four bytes. -/
theorem test_wf_satchel_control : (Instr.sget (.thread 0) 0 1 0x20).wf = false ∧ (Instr.sget (.thread 0) 0 1 0x11).wf = false ∧
    (Instr.sget (.thread 0) 0 1 0x1E).wf = true ∧ (Instr.ldc (.thread 0) 0 1 2 1 0).wf = false ∧
    (Instr.stc (.thread 0) 0 1 2 1 0).wf = false := by decide

theorem test_wf_amo : (Instr.amoAdd (.thread 0) 0 1 2 3 2 true).wf = false ∧ (Instr.amoSwap (.thread 0) 0 1 2 3 2 true).wf = false ∧
    (Instr.amoCas (.thread 0) 0 1 2 3 3 true).wf = false ∧ (Instr.amoAnd (.thread 0) 0 1 2 3 2 true).wf = false ∧
    (Instr.amoOr (.thread 0) 0 1 2 3 2 true).wf = false ∧ (Instr.amoMaxu (.thread 0) 0 1 2 3 2 true).wf = false ∧
    (Instr.amoMinu (.thread 0) 0 1 2 3 2 true).wf = false ∧ (Instr.amoAdd (.thread 0) 0 1 2 3 1 true).wf = true := by decide

/-- LOOK past g31; a misaligned register write; a host command of sixteen words after word 0. -/
theorem test_wf_ranges : (Instr.look (.thread 0) 0 1 31 0 1 0 0).wf = false ∧ (Instr.look (.thread 0) 0 31 1 0 0 1 0).wf = false ∧
    (Instr.registerWrite .debug 2 false 0).wf = false ∧ (Instr.registerWrite .debug 4 true 0).wf = false ∧
    (Instr.viCreate 0 0 (List.replicate 16 0)).wf = false ∧ (Instr.viCreate 0 0 (List.replicate 15 0)).wf = true := by decide

/-- Fewer than sixteen temperatures; more corrected errors than the check can count. -/
theorem test_wf_lantern : (Instr.thermTripWithdrawn [1]).wf = false ∧
    (Instr.powerExitComplete [⟨0, false, false, 65536⟩] none).wf = false := by decide

/-- An image longer than 64 MiB is ill formed. -/
theorem test_wf_image (img : List Byte) (h : 0x4000000 < img.length) :
    (Instr.imageCopyComplete img true).wf = false ∧ (Instr.imgActivate 0 0 [] img true).wf = false := by
  simp [Instr.wf, messageOk]; omega

/-! ### AFV-2: hypotheses of the statements, and results -/

/-- Registers g1 and g2. -/
def two (x y : W64) : State := withRegs [(1, x), (2, y)]

theorem test_hyp_StepRunsFrontCommand : State.reset.pending = [] ∧ step State.reset = .next State.reset := ⟨by decide, rfl⟩

/-- A worker thread and a steward that may issue, with rb named and with rb = g0. -/
theorem test_hyp_AluResults :
    agentNum (.thread 0) = some 0 ∧ CanIssue (two 5 7) 0 0 [3, 1, 2] [] ∧ CanIssue (two 5 7) 0 0 [3, 1, 0] [] ∧
    agentNum (.steward 0) = some 2048 ∧ CanIssue (two 5 7) 2048 0 [31, 31, 31] [] := by
  constructorm* _ ∧ _ <;> first | decide +kernel | exact canIssue_sound (by decide +kernel)

theorem test_alu_corners :
    reg (after (.add (.thread 0) 0 3 1 2) (two 0xFFFFFFFFFFFFFFFF 2)) 0 3 = 1 ∧
    reg (after (.sub (.thread 0) 0 1 1 2) (two 0 1)) 0 1 = 0xFFFFFFFFFFFFFFFF ∧
    reg (after (.add (.thread 0) 0 0 1 2) (two 1 2)) 0 0 = 0 ∧
    reg (after (.sra (.thread 0) 0 3 1 2) (two 0x8000000000000000 63)) 0 3 = 0xFFFFFFFFFFFFFFFF ∧
    reg (after (.rol (.thread 0) 0 3 1 2) (two 0x8000000000000001 1)) 0 3 = 3 ∧
    reg (after (.maxs (.thread 0) 0 3 1 2) (two 0x8000000000000000 1)) 0 3 = 1 ∧
    reg (after (.clz (.thread 0) 0 3 1 0) (two 0 1)) 0 3 = 64 ∧
    reg (after (.bswap (.thread 0) 0 3 1 0) (two 0x0102030405060708 1)) 0 3 = 0x0807060504030201 ∧
    reg (after (.add32 (.thread 0) 0 3 1 2) (two 0xFFFFFFFF 1)) 0 3 = 0 := by decide

/-- The clauses of division: a divisor, none, and the overflow. -/
theorem test_hyp_MulDivResults :
    CanIssue (two 7 2) 0 0 [3, 1, 2] [] ∧ reg (two 7 2) 0 2 ≠ 0 ∧ reg (two 7 0) 0 2 = 0 ∧
    reg (two 0x8000000000000000 0xFFFFFFFFFFFFFFFF) 0 1 = 0x8000000000000000 ∧
    reg (two 0x8000000000000000 0xFFFFFFFFFFFFFFFF) 0 2 = 0xFFFFFFFFFFFFFFFF := by
  constructorm* _ ∧ _ <;> first | decide +kernel | exact canIssue_sound (by decide +kernel)

/-- Truncation toward zero, and the dividend's sign. -/
theorem test_division :
    reg (after (.divs (.thread 0) 0 3 1 2) (two 0xFFFFFFFFFFFFFFF9 2)) 0 3 = 0xFFFFFFFFFFFFFFFD ∧
    reg (after (.rems (.thread 0) 0 3 1 2) (two 0xFFFFFFFFFFFFFFF9 2)) 0 3 = 0xFFFFFFFFFFFFFFFF ∧
    reg (after (.mulhs (.thread 0) 0 3 1 2) (two 0xFFFFFFFFFFFFFFFF 2)) 0 3 = 0xFFFFFFFFFFFFFFFF ∧
    reg (after (.mulhu (.thread 0) 0 3 1 2) (two 0xFFFFFFFFFFFFFFFF 2)) 0 3 = 1 := by decide

/-- A field that fills the register and one that runs past it; a signed EXT; INS with the sign bit set. -/
theorem test_hyp_ImmediateResults :
    CanIssue (two 7 2) 0 0 [3, 1] [] ∧ CanIssue (two 7 2) 2048 0 [0, 0] [] ∧
    ¬((0xFC0 : BitVec 14).getLsbD 13 = true ∨ 64 < ((0xFC0 : BitVec 14).extractLsb' 0 6).toNat + (((0xFC0 : BitVec 14).extractLsb' 6 6).toNat + 1)) ∧
    64 < ((0xFC1 : BitVec 14).extractLsb' 0 6).toNat + (((0xFC1 : BitVec 14).extractLsb' 6 6).toNat + 1) ∧
    reg (after (.ext (.thread 0) 0 3 1 0x11C4) (two 0x800 0)) 0 3 = 0xFFFFFFFFFFFFFF80 := by
  constructorm* _ ∧ _ <;> first | decide +kernel | exact canIssue_sound (by decide +kernel)

/-- One predicate named twice; a condition that holds and one that does not, for each row. -/
theorem test_hyp_CompareResults :
    CanIssue (two 7 2) 0 0 [1, 2] [1, 1] ∧ CanIssue (two 7 2) 2048 0 [1, 2] [0, 2] ∧ CanIssue (two 7 2) 0 0 [] [1, 2, 0] ∧
    (3 : BitVec 4).toNat < 8 ∧ 8 ≤ (8 : BitVec 4).toNat ∧
    (7 : W64).toNat ≥ (2 : W64).toNat ∧ reg (two 7 2) 0 1 = (7 : BitVec 14).signExtend 64 ∧
    reg (two 7 2) 0 2 ≠ (7 : BitVec 14).signExtend 64 := by
  constructorm* _ ∧ _ <;> first | decide +kernel | exact canIssue_sound (by decide +kernel)

theorem test_compare_modes :
    pred (after (.cmp (.thread 0) 0 1 0 3 1 1 2) (two 7 2)) 0 1 = false ∧
    pred (after (.cmp (.thread 0) 0 1 0 4 2 1 2) (two 0xFFFFFFFFFFFFFFFF 2)) 0 1 = true ∧
    pred (after (.cmp (.thread 0) 0 1 0 4 2 1 2) (two 0xFFFFFFFFFFFFFFFF 2)) 0 2 = false ∧
    pred (after (.cmpiLtu (.thread 0) 0 1 0 1 0x3FFF) (two 0x3FFE 2)) 0 1 = true ∧
    pred (after (.cmpiEq (.thread 0) 0 0 3 1 7) (two 7 2)) 0 0 = true := by decide

/-- Three predicates, of which pb is p0 or not. -/
theorem test_hyp_CompareResults_logic : agentNum (.thread 0) = some 0 ∧ CanIssue (two 7 2) 0 0 [] [1, 2, 0] ∧ CanIssue (two 7 2) 2048 0 [] [1, 2, 3] ∧
    (0 : BitVec 3) = 0 ∧ (3 : BitVec 3) ≠ 0 := by
  constructorm* _ ∧ _ <;> first | decide +kernel | exact canIssue_sound (by decide +kernel)

theorem test_hyp_HelperResults : CanIssue (two 7 2) 0 0 [3, 1, 2] [] ∧ CanIssue (two 7 2) 2048 0 [3, 3, 3] [] :=
  ⟨canIssue_sound (by decide), canIssue_sound (by decide)⟩

/-- g1 and g2 at a thread that holds frame 1. -/
def held2 (x y : W64) : State := holding [(1, x), (2, y)]

/-- SGET of word 15, of the pair at 14, of one at an odd word, and of imm[5]; with and without a satchel. -/
theorem test_hyp_SatchelReads :
    CanIssue (held2 0 0) 0 0 [3] [] ∧ ((held2 0 0).thr 0).held = some 1 ∧ ((two 0 0).thr 0).held = none ∧
    (0x0F : BitVec 14).extractLsb' 5 9 = 0 ∧ (0x1E : BitVec 14).extractLsb' 5 9 = 0 ∧ (0x11 : BitVec 14).getLsbD 4 = true ∧
    (0x20 : BitVec 14).extractLsb' 5 9 ≠ 0 := by
  constructorm* _ ∧ _ <;> first | decide +kernel | exact canIssue_sound (by decide +kernel)

/-- SPUT without a satchel; of words 0, 1 and 2 without FLOW_CLASS and EXC; of FLOW_CLASS; of EXC set and cleared. -/
theorem test_hyp_SatchelWrites :
    CanIssue (held2 0 0xFFF) 0 0 [1, 2] [] ∧ ((two 0 0).thr 0).held = none ∧ ((held2 0 0).thr 0).held = some 1 ∧
    ((reg (held2 0 0xFFF) 0 2).setWidth 32 : W32).extractLsb' 12 10 = 0 ∧
    ((reg (held2 0 0x1000) 0 2).setWidth 32 : W32).extractLsb' 12 10 ≠ 0 ∧
    ((reg (held2 0 0xFFF) 0 2).setWidth 32 : W32).getLsbD 28 = false ∧
    ((reg (held2 0x10000000 0x10000000) 0 2).setWidth 32 : W32).getLsbD 28 = true ∧
    (word (held2 0x10000000 0x10000000) 1 2).getLsbD 28 = false ∧
    word (after (.sput (.thread 0) 0 4 1 2) (held2 0xFFFFFFFF 0xFFFFFFFF)) 1 4 = 0x0003FFFF := by
  constructorm* _ ∧ _ <;> first | decide +kernel | exact canIssue_sound (by decide +kernel)

/-- FLOW_CLASS written in part, by a thread and by a steward. -/
theorem test_hyp_SatchelWrites_flow :
    CanIssue (held2 0 0x3FF000) 0 0 [1, 2] [] ∧ ((held2 0 0x3FF000).thr 0).held = some 1 ∧
    ((reg (held2 0 0x3FF000) 0 2).setWidth 32 : W32).extractLsb' 12 10 ≠ 0 ∧ ((reg (held2 0 0x1000) 0 2).setWidth 32 : W32).extractLsb' 12 10 ≠ 0 := by
  constructorm* _ ∧ _ <;> first | decide +kernel | exact canIssue_sound (by decide +kernel)

/-- The satchel of `held2` with word 2 as given. -/
def raised (w a m : W64) : State :=
  { held2 a m with frames := [(1, { s := (Vector.replicate 16 0).set 2 (w.setWidth 32), data := List.replicate 16 0xAB })] }

/-- EXC set, and EXC cleared. -/
theorem test_hyp_SatchelWrites_raise :
    CanIssue (raised 0 0x10000000 0x10000000) 0 0 [1, 2] [] ∧ ((raised 0 0x10000000 0x10000000).thr 0).held = some 1 ∧
    ((reg (raised 0 0x10000000 0x10000000) 0 2).setWidth 32 : W32).getLsbD 28 = true ∧
    ((reg (raised 0 0x10000000 0x10000000) 0 1).setWidth 32 : W32).getLsbD 28 = !(word (raised 0 0x10000000 0x10000000) 1 2).getLsbD 28 ∧
    ((reg (raised 0 0x10000000 0x10000000) 0 1).setWidth 32 : W32).getLsbD 28 = true ∧
    CanIssue (raised 0x10000000 0 0x10000000) 0 0 [1, 2] [] ∧
    ((reg (raised 0x10000000 0 0x10000000) 0 1).setWidth 32 : W32).getLsbD 28 = !(word (raised 0x10000000 0 0x10000000) 1 2).getLsbD 28 ∧
    ((reg (raised 0x10000000 0 0x10000000) 0 1).setWidth 32 : W32).getLsbD 28 = false ∧
    ((after (.sput (.thread 0) 0 2 1 2) (raised 0 0x10000000 0x10000000)).thr 0).held = none := by
  constructorm* _ ∧ _ <;> first | decide +kernel | exact canIssue_sound (by decide +kernel)

/-- The last doubleword of data memory, one past it, a misaligned word; the last byte of the frame window, one past it. -/
theorem test_hyp_LocalAccesses_loads :
    CanIssue (held2 0xFFF8 0) 0 0 [3, 1] [] ∧ CanIssue (held2 0xFFF8 0) 2048 0 [3, 1] [] ∧
    (reg (held2 0xFFF8 0) 0 1 + (0 : BitVec 9).signExtend 64).toNat + 2 ^ (3 : BitVec 2).toNat = 0x10000 ∧
    (reg (held2 0xFFF8 0) 0 1 + (0 : BitVec 9).signExtend 64).toNat % 2 ^ (3 : BitVec 2).toNat = 0 ∧
    0x10000 < (reg (held2 0xFFF8 0) 0 1 + (1 : BitVec 9).signExtend 64).toNat + 2 ^ (3 : BitVec 2).toNat ∧
    (reg (held2 0xFFF8 0) 0 1 + (0x1FF : BitVec 9).signExtend 64).toNat + 2 ^ (3 : BitVec 2).toNat ≤ 0x10000 ∧
    (reg (held2 0xFFF8 0) 0 1 + (0x1FF : BitVec 9).signExtend 64).toNat % 2 ^ (3 : BitVec 2).toNat ≠ 0 ∧
    ((held2 0xFF 0).thr 0).held = some 1 ∧ ((two 0 0).thr 0).held = none ∧
    (reg (held2 0xFF 0) 0 1 + (0 : BitVec 9).signExtend 64).toNat + 2 ^ (0 : BitVec 2).toNat = 256 ∧
    256 < (reg (held2 0xFF 0) 0 1 + (0 : BitVec 9).signExtend 64).toNat + 2 ^ (1 : BitVec 2).toNat := by
  constructorm* _ ∧ _ <;> first | decide +kernel | exact canIssue_sound (by decide +kernel)

/-- The same places for stores, in both byte orders. -/
theorem test_hyp_LocalAccesses_stores :
    CanIssue (held2 0xFFFC 9) 0 0 [2, 1] [] ∧ CanIssue (held2 0xFFFC 9) 2048 0 [2, 1] [] ∧
    (reg (held2 0xFFFC 9) 0 1 + (0 : BitVec 9).signExtend 64).toNat + 2 ^ (2 : BitVec 2).toNat = 0x10000 ∧
    (reg (held2 0xFFFC 9) 0 1 + (0 : BitVec 9).signExtend 64).toNat % 2 ^ (2 : BitVec 2).toNat = 0 ∧
    0x10000 < (reg (held2 0xFFFC 9) 0 1 + (0 : BitVec 9).signExtend 64).toNat + 2 ^ (3 : BitVec 2).toNat ∧
    (reg (held2 0xFFFB 9) 0 1 + (0 : BitVec 9).signExtend 64).toNat + 2 ^ (2 : BitVec 2).toNat ≤ 0x10000 ∧
    (reg (held2 0xFFFB 9) 0 1 + (0 : BitVec 9).signExtend 64).toNat % 2 ^ (2 : BitVec 2).toNat ≠ 0 ∧
    ((held2 0xF8 9).thr 0).held = some 1 ∧ ((two 0 0).thr 0).held = none ∧
    (reg (held2 0xF8 9) 0 1 + (0 : BitVec 9).signExtend 64).toNat + 2 ^ (3 : BitVec 2).toNat = 256 ∧
    256 < (reg (held2 0xF9 9) 0 1 + (0 : BitVec 9).signExtend 64).toNat + 2 ^ (3 : BitVec 2).toNat := by
  constructorm* _ ∧ _ <;> first | decide +kernel | exact canIssue_sound (by decide +kernel)

/-- A store of two bytes in each order, and the sign of a load. -/
theorem test_store_load :
    localByte (after (.st (.thread 0) 0 2 1 0 1 0) (two 0x10 0x8001)) 0 0x11 = 0x80 ∧
    localByte (after (.stbe (.thread 0) 0 2 1 0 1 0) (two 0x10 0x8001)) 0 0x11 = 0x01 ∧
    localByte (after (.st (.steward 0) 0 2 1 0 1 0) (two 0x10 0x8001)) 2048 0x11 = 0x80 ∧
    reg (after (.lds (.thread 0) 0 3 1 0 0 1) (after (.st (.thread 0) 0 2 1 0 1 0) (two 0x10 0x8001))) 0 3 = 0xFFFFFFFFFFFFFF80 ∧
    reg (after (.ldbe (.thread 0) 0 3 1 2 1 0) (holding [(1, 15)])) 0 3 = 0xAB00 := by decide

/-- AMO at the end of data memory, past it, misaligned, in a space that it lacks. -/
theorem test_hyp_AmoLocal :
    CanIssue (two 0xFFF8 1) 0 0 [3, 1, 2] [] ∧ 2 ≤ (2 : BitVec 2).toNat ∧
    (reg (two 0xFFF8 1) 0 1).toNat + 8 ≤ 0x10000 ∧ (reg (two 0xFFF8 1) 0 1).toNat % 8 = 0 ∧
    0x10000 < (reg (two 0xFFFC 1) 0 1).toNat + 8 ∧ (reg (two 0xFFFC 1) 0 1).toNat % 4 = 0 ∧ (reg (two 4 1) 0 1).toNat % 8 ≠ 0 ∧
    localByte (after (.amoAdd (.thread 0) 0 1 1 2 0 true) (two 0xFFF8 1)) 0 0xFFF8 = 1 ∧
    reg (after (.amoAdd (.thread 0) 0 1 1 2 0 true) (two 0xFFF8 1)) 0 1 = 0 := by
  constructorm* _ ∧ _ <;> first | decide +kernel | exact canIssue_sound (by decide +kernel)

/-- Four outstanding loads. -/
def busyLoads : State := { two 0x100 0 with threads := [(0, { r := regsOf [(1, 0x100)], ops := (List.range 4).map fun i => ⟨i, .load .zero 9 8, 0x200, 0, 1⟩ })] }

/-- Device space: an address of the Coolbox, a misaligned one, one of the reserved span, and a full set of loads. -/
theorem test_hyp_DeviceAccesses :
    CanIssue (two 0x100 0) 0 0 [3, 1, 2] [] ∧ LoadRoom (two 0x100 0) 0 ∧ deviceRaises 0 0x100 8 false = none ∧
    deviceRaises 0 0x101 8 false = some 3 ∧ deviceRaises 0 0x0D000000 8 false = some 4 ∧ deviceRaises 0 0x0B000000 8 true = some 4 ∧
    deviceRaises 0 0x101 4 true = some 3 ∧ deviceRaises 0 0x100 4 true = none ∧
    CanIssue busyLoads 0 0 [3, 1, 2] [] ∧ ¬LoadRoom busyLoads 0 := by
  constructorm* _ ∧ _ <;> first | decide +kernel | exact canIssue_sound (by decide +kernel) |
    (unfold LoadRoom; decide +kernel)

/-- One outstanding operation. -/
def oneOp (a : MemAct) (addr : Nat) : State :=
  { booted with nextOp := 8, threads := [(0, { ops := [⟨7, a, addr, 0, 1⟩] })] }

/-- A load, a store and an AMO below the table pool, and a load above it. -/
theorem test_hyp_MemoryResponses :
    agentNum (.thread 0) = some 0 ∧ (oneOp (.load .zero 3 8) 0x09FFFFC0).pstate < 2 ∧
    ((oneOp (.load .zero 3 8) 0x09FFFFC0).thr 0).ops = [⟨7, .load .zero 3 8, 0x09FFFFC0, 0, 1⟩] ∧
    0x09FFFFC0 + 64 ≤ 0x0A000000 ∧
    ((oneOp (.store [1, 2]) 0x0B008000).thr 0).ops = [⟨7, .store [1, 2], 0x0B008000, 0, 1⟩] ∧
    ((oneOp (.amo .add 3 8 0 1) 0x100).thr 0).ops = [⟨7, .amo .add 3 8 0 1, 0x100, 0, 1⟩] ∧
    (after (.memoryResponse (.thread 0) 7 false) (oneOp (.store [1, 2]) 0x0B008000)).ldByte 0x0B008001 = 2 ∧
    (after (.memoryResponse (.thread 0) 7 false) (oneOp (.amo .add 3 8 0 1) 0x100)).ldByte 0x100 = 1 := by decide

/-- Thread 0 with CTL_EN, at the worker's fault register of cluster 0. -/
def ctlThread (a : W64) : State := { two a 0 with entries := [(0, { ctl := true })] }

/-- LDC of fewer than four bytes, without CTL_EN, beyond the control space, and of a register of an island that runs. -/
theorem test_hyp_ControlAccesses :
    CanIssue (ctlThread 0x42000010) 0 0 [3, 1] [] ∧ (∀ x ∈ ((ctlThread 0x42000010).thr 0).ops, x.act.inSet 4 = false) ∧
    2 ^ (1 : BitVec 2).toNat < 4 ∧ 4 ≤ 2 ^ (2 : BitVec 2).toNat ∧ ((two 0 0).entryOf 0).ctl = false ∧ CanIssue (two 0 0) 0 0 [3, 1] [] ∧
    2 ^ 32 ≤ (reg (ctlThread 0x100000000) 0 1 + (0 : BitVec 9).signExtend 64).toNat ∧
    ((ctlThread 0x42000010).entryOf 0).ctl = true ∧
    (reg (ctlThread 0x42000010) 0 1 + (0 : BitVec 9).signExtend 64).toNat = 0x42000010 ∧
    0x42000010 % 2 ^ (2 : BitVec 2).toNat = 0 ∧ 0x42000010 % 0x1000000 < 0x800000 ∧ 0x42000010 / 0x1000000 ≤ 0x68 ∧
    ((((ctlThread 0x42000010).noteIssue 0).bumpOp).island 0x42).power ≠ .off ∧
    (((ctlThread 0x42000010).noteIssue 0).bumpOp).holds 0x42 = false := by
  constructorm* _ ∧ _ <;> first | decide +kernel | exact canIssue_sound (by decide +kernel)

/-- A fence with an empty set, one before which an operation is outstanding, and one whose sets do not name it. -/
theorem test_hyp_FenceWaits :
    CanIssue busyLoads 0 0 [] [] ∧ (∃ x ∈ (busyLoads.thr 0).ops, x.act.inSet 1 = true) ∧
    ¬(∃ x ∈ (busyLoads.thr 0).ops, x.act.inSet 4 = true) ∧
    after (.fence (.thread 0) 0 8 1) { busyLoads with signals := [⟨0, 1, 2⟩] } = { busyLoads with signals := [⟨0, 1, 2⟩] } ∧
    after (.fence (.thread 0) 0 1 1) busyLoads = busyLoads ∧ ((after (.fence (.thread 0) 0 0 1) busyLoads).thr 0).pc = 1 := by
  constructorm* _ ∧ _ <;> first | decide +kernel | exact canIssue_sound (by decide +kernel)

/-! ### AFV-2: control, events, messages, work and system -/

/-- Targets 0 and 8,191, one past, one before; a register target inside and outside; a steward's limit. -/
theorem test_hyp_ControlTransfers :
    CanIssue (two 8191 0) 0 0 [31, 3, 1] [] ∧ CanIssue (two 8191 0) 2048 0 [31, 3, 1] [] ∧
    (((two 8191 0).thr 0).pc : Int) + (8191 : BitVec 20).toInt < 8192 ∧
    ¬((((two 8191 0).thr 0).pc : Int) + (8192 : BitVec 20).toInt < 8192) ∧
    ¬(0 ≤ (((two 8191 0).thr 0).pc : Int) + (0xFFFFF : BitVec 20).toInt) ∧
    (((reg (two 8191 0) 0 1).toNat : Int) < 8192) ∧ ¬(((reg (two 8192 0) 0 1).toNat : Int) < 8192) ∧
    (((reg (two 8192 0) 2048 1).toNat : Int) < 1048576) := by
  constructorm* _ ∧ _ <;> first | decide +kernel | exact canIssue_sound (by decide +kernel)

theorem test_call : ((after (.call (.thread 0) 0 5) (two 0 0)).thr 0).pc = 5 ∧ reg (after (.call (.thread 0) 0 5) (two 0 0)) 0 31 = 1 ∧
    ((after (.branch (.thread 0) 0 0xFFFFF) (two 0 0)).thr 0).run = .faulted := by decide

/-- A LOOK that ends at g31, and one that ends beyond it. -/
theorem test_hyp_ThreadLookups :
    CanIssue (two 8 0) 0 0 ((List.range 32).map (BitVec.ofNat 5)) [3] ∧
    ((28 : BitVec 5).toNat + (3 : BitVec 2).toNat ≤ 31 ∧ (28 : BitVec 5).toNat + (3 : BitVec 2).toNat ≤ 31) ∧
    ¬((29 : BitVec 5).toNat + (3 : BitVec 2).toNat ≤ 31) ∧ ((after (.look (.thread 0) 0 28 28 5 3 3 3) (two 8 0)).thr 0).ops.length = 1 := by
  constructorm* _ ∧ _ <;> first | decide +kernel | exact canIssue_sound (by decide +kernel)

/-- Thread 0 in WAITE for event 3, which is set or not; its timer has come due. -/
def waits3 (ev : W64) : State := { booted with threads := [(0, { ev := ev, timer := some 0, run := .waiting 8 4 })] }

/-- WAITE with an empty mask, with a bit set, and with none set, where the mask holds bit 3 and no bound bit; a waiting thread
whose event came, one whose event did not, and one whose cluster is halted. -/
theorem test_hyp_EventInstructions_wait :
    agentNum (.thread 0) = some 0 ∧ CanIssue (two 0 8) 0 0 [3, 1] [] ∧ reg (two 0 8) 0 1 = 0 ∧ CanIssue (two 8 0) 0 0 [3, 1] [] ∧
    reg (two 8 0) 0 1 ≠ 0 ∧ (two 8 0).events 0 &&& reg (two 8 0) 0 1 = 0 ∧
    (∀ b ∈ (two 8 0).bindsOf 0, (reg (two 8 0) 0 1).getLsbD b.bit = false) ∧ (reg (two 8 0) 0 1).getLsbD 16 = false ∧
    ({ booted with threads := [(0, { ev := 8, r := regsOf [(1, 8)] })] } : State).events 0 &&& 8 ≠ 0 ∧
    (waits3 8).stopped = false ∧ ((waits3 8).thr 0).run = .waiting 8 4 ∧ (waits3 8).events 0 &&& 8 ≠ 0 ∧ ((waits3 8).cluster 0).halted = false ∧
    ((waits3 0).thr 0).run = .waiting 8 4 ∧ (waits3 0).events 0 &&& 8 = 0 ∧
    (({ waits3 8 with clusters := [(0, { halted := true })] } : State).cluster 0).halted = true := by
  constructorm* _ ∧ _ <;> first | decide +kernel | exact canIssue_sound (by decide +kernel)

/-- SIGE to the last steward and past it, of bit 15 and of bit 16; a due timer, none, and one that ICT has not reached. -/
theorem test_hyp_EventInstructions :
    CanIssue (two 0x803 15) 0 0 [3, 1, 2] [] ∧ (reg (two 0x803 15) 0 1).toNat ≤ 0x803 ∧ (reg (two 0x803 15) 0 2).toNat ≤ 15 ∧
    0x803 < (reg (two 0x804 15) 0 1).toNat ∧ 15 < (reg (two 0 16) 0 2).toNat ∧
    (waits3 0).stopped = false ∧ ((waits3 0).thr 0).timer = some 0 ∧ 0 ≤ (waits3 0).ictNs ∧ (two 0 0).timerDue 0 = false ∧
    ({ booted with threads := [(0, { timer := some 1 })] } : State).timerDue 0 = false := by
  constructorm* _ ∧ _ <;> first | decide +kernel | exact canIssue_sound (by decide +kernel)

/-- A signal on its way to a thread and to a parked one, and none. -/
theorem test_hyp_EventInstructions_delivered :
    booted.stopped = false ∧
    ({ booted with signals := [⟨0, 1, 2⟩] } : State).signals.find? (fun x => x.src = (0 : Fin 2052).val && x.dst = (1 : Fin 2052).val) = some ⟨0, 1, 2⟩ ∧
    (({ booted with entries := [(1, { parked := true })] } : State).entryOf 1).parked = true ∧
    (∀ x ∈ ({ booted with signals := [⟨0, 1, 2⟩] } : State).signals, ¬(x.src = (1 : Fin 2052).val ∧ x.dst = (1 : Fin 2052).val)) := by decide +kernel

theorem test_events :
    ((after (.timerFire (.thread 0)) (waits3 8)).thr 0).ev = 0x10008 ∧
    ((after (.waiteWake (.thread 0)) (waits3 8)).thr 0).run = .ready ∧ reg (after (.waiteWake (.thread 0)) (waits3 8)) 0 4 = 8 ∧
    ((after (.sigeDeliver 0 1) { booted with signals := [⟨0, 1, 2⟩] }).thr 1).ev = 4 ∧
    ((after (.sige (.thread 0) 0 1 2) (two 0x804 0)).thr 0).run = .faulted := by decide

/-- Thread 0 may use mailbox channels. -/
def mail (ch : W64) (b : Mbox) : State := { two ch 9 with entries := [(0, { mbox := true })], mboxes := [(ch.toNat, b)] }

/-- The words of a full queue. -/
def sixteen (seen : Bool) : List MbWord := List.replicate 16 ⟨1, false, seen⟩

/-- A channel refused; a full one and one with an open message of sixteen; one with room; TAKE with nothing visible and with
two words. -/
theorem test_hyp_MailInstructions :
    CanIssue (two 0 9) 0 0 [3, 1, 2] [1, 2] ∧ (two 0 9).mbEnd 0 0 = none ∧
    CanIssue (mail 40 {}) 0 0 [3, 1, 2] [1, 2] ∧ ((mail 40 {}).mbEnd 0 40).isSome = true ∧
    16 ≤ ((mail 40 { ab := sixteen true, ba := sixteen true }).mbox 40).ab.length ∧
    16 ≤ ((mail 40 { ab := sixteen true, ba := sixteen true }).mbox 40).ba.length ∧
    16 ≤ ((mail 40 { openA := 16, openB := 16 }).mbox 40).openA ∧ 16 ≤ ((mail 40 { openA := 16, openB := 16 }).mbox 40).openB ∧
    ((mail 40 {}).mbox 40).ab.length < 16 ∧ ((mail 40 {}).mbox 40).openA < 16 ∧ ((mail 40 {}).mbox 40).ba = [] ∧ ((mail 40 {}).mbox 40).openB < 16 ∧
    ((mail 40 { ab := sixteen true, ba := sixteen true }).mbox 40).ba = ⟨1, false, true⟩ :: ⟨1, false, true⟩ :: List.replicate 14 ⟨1, false, true⟩ ∧
    ((mail 40 { ab := sixteen false, ba := sixteen false }).mbox 40).ba = ⟨1, false, false⟩ :: List.replicate 15 ⟨1, false, false⟩ ∧
    ¬(16 ≤ 40 ∧ 40 < 32) := by
  constructorm* _ ∧ _ <;> first | decide +kernel | exact canIssue_sound (by decide +kernel)

/-- Thread 0 bound to group 5, whose queue holds frame 1. -/
def bound (q : List Nat) : State :=
  { two 5 16 with entries := [(0, { binds := [⟨17, 1, 5⟩] })], groups := [(5, q)], frames := [(1, { data := [1, 2, 3] })] }

/-- GETW with a satchel, unbound, of an empty group and of one with work; DISP with and without a satchel, to groups 255 and
256; NEWS of lengths 0, 1, 65,535 and 65,536, of bytes that are there and of a reserved one. -/
theorem test_hyp_MailInstructions_work :
    CanIssue (held2 255 65535) 0 0 [3, 1, 2] [1] ∧ ((held2 255 65535).thr 0).held = some 1 ∧ (reg (held2 255 65535) 0 1).toNat ≤ 255 ∧
    255 < (reg (held2 256 0) 0 1).toNat ∧ (reg (held2 7 0) 0 2).toNat = 0 ∧ (reg (held2 7 65535) 0 2).toNat ≤ 65535 ∧ 65535 < (reg (held2 7 65536) 0 2).toNat ∧
    CanIssue (bound [1]) 0 0 [3, 1, 2] [1] ∧ ((bound [1]).thr 0).held = none ∧
    ((bound [1]).bindsOf 0).any (fun b => b.type = 1 && b.index = 5) = true ∧ (bound [1]).groupQ 5 = [1] ∧ (bound []).groupQ 5 = [] ∧
    ((two 5 0).bindsOf 0).any (fun b => b.type = 1 && b.index = 5) = false ∧ 1 ≤ (reg (bound []) 0 2).toNat ∧
    firstReserved 5 16 = none ∧ firstReserved 0x0CFFFFFF 2 = some 0x0D000000 ∧
    ((after (.getw (.thread 0) 0 3 1 1) (bound [1])).thr 0).held = some 1 ∧
    ((after (.news (.thread 0) 0 3 1 2) (bound [])).thr 0).held = some 0 := by
  constructorm* _ ∧ _ <;> first | decide +kernel | exact canIssue_sound (by decide +kernel)

/-- System registers at the ends of their ranges, at a worker and at a steward. -/
theorem test_hyp_PrivilegedInstructions_system :
    CanIssue (two 0x10 7) 0 0 [3, 1, 2] [] ∧ CanIssue (two 0x10 7) 2048 0 [3, 1, 2] [] ∧ (0 : Nat) < 2048 ∧ (2048 : Nat) ≤ 2048 ∧
    (reg (two 0 0) 0 1).toNat = 0 ∧ (reg (two 1 0) 0 1).toNat = 1 ∧ (reg (two 2 0) 0 1).toNat = 2 ∧
    (3 ≤ (reg (two 3 0) 0 1).toNat ∧ (reg (two 0xF 0) 0 1).toNat < 0x10) ∧ 0x10 ≤ (reg (two 0x10 0) 0 1).toNat ∧
    ((reg (two 0x11 0) 2048 1).toNat = 0x11 ∧ (reg (two 0x12 0) 2048 1).toNat = 0x12 ∧ (reg (two 0x13 0) 2048 1).toNat = 0x13 ∧
      (reg (two 0x14 0) 2048 1).toNat = 0x14 ∧ (reg (two 0x15 0) 2048 1).toNat = 0x15 ∧ (reg (two 0x20 0) 2048 1).toNat = 0x20) ∧
    (0x51 ≤ (reg (two 0x51 0) 2048 1).toNat ∧ (reg (two 0x7F 0) 2048 1).toNat ≤ 0x7F) ∧
    ¬((reg (two 0x16 0) 2048 1).toNat ≤ 0x15 ∨ (reg (two 0x16 0) 2048 1).toNat = 0x20 ∨ (0x51 ≤ (reg (two 0x16 0) 2048 1).toNat ∧ (reg (two 0x16 0) 2048 1).toNat ≤ 0x7F)) ∧
    ¬((reg (two 0x80 0) 2048 1).toNat ≤ 0x15 ∨ (reg (two 0x80 0) 2048 1).toNat = 0x20 ∨ (0x51 ≤ (reg (two 0x80 0) 2048 1).toNat ∧ (reg (two 0x80 0) 2048 1).toNat ≤ 0x7F)) ∧
    reg (after (.sysr (.steward 0) 0 3 1) (two 0 0)) 2048 3 = 2048 ∧ ((after (.sysw (.steward 0) 0 1 2) (two 0x10 7)).stw 0).evec = 7 := by
  constructorm* _ ∧ _ <;> first | decide +kernel | exact canIssue_sound (by decide +kernel)

/-- Cluster 15 and 16, operations 0 to 3, thread 0x7FF and 0x800, at a worker and at a steward. -/
theorem test_hyp_PrivilegedInstructions :
    CanIssue (two 15 0) 0 0 [3, 1, 2] [] ∧ CanIssue (two 15 0) 2048 0 [3, 1, 2] [] ∧
    (reg (two 15 0) 2048 1).toNat ≤ 15 ∧ (reg (two 15 0) 2048 2).toNat = 0 ∧ (reg (two 15 1) 2048 2).toNat = 1 ∧ (reg (two 15 2) 2048 2).toNat = 2 ∧
    15 < (reg (two 16 0) 0 1).toNat ∧ 2 < (reg (two 0 3) 0 2).toNat ∧
    (reg (two 0x7FF 0) 2048 1).toNat ≤ 0x7FF ∧ 0x7FF < (reg (two 0x800 0) 2048 1).toNat ∧
    ((after (.halt (.steward 0) 0 1 2) (two 15 0)).cluster 15).halted = true := by
  constructorm* _ ∧ _ <;> first | decide +kernel | exact canIssue_sound (by decide +kernel)

/-- A thread that is not parked and holds no satchel restarts. -/
theorem test_hyp_ClusterOperations :
    (booted.entryOf 3).parked = false ∧ (booted.thr 3).held = none ∧
    (({ booted with entries := [(3, { entry := 9, g1 := 5 })] } : State).restartThread 3).thr 3 =
      { r := regsOf [(1, 5)], pc := 9 } := by decide

theorem test_hyp_ExceptionsTaken_trap : agentNum (.thread 0) = some 0 ∧ CanIssue (two 0 0) 0 0 [] [] ∧ CanIssue (two 0 0) 2048 0 [] [] ∧
    ((after (.trap (.thread 0) 0 5) (two 0 0)).cluster 0).faults = [⟨0, 10, 0, 5⟩] := by
  constructorm* _ ∧ _ <;> first | decide +kernel | exact canIssue_sound (by decide +kernel)

/-- A cluster's queue with room for the last of 128 faults, and one that holds 128; a Trailbook with a record to spend. -/
theorem test_hyp_ExceptionsTaken_worker :
    (({ booted with clusters := [(0, { faults := List.replicate 127 ⟨0, 1, 0, 0⟩ })] } : State).cluster 0).faults.length < 128 ∧
    128 ≤ (({ booted with clusters := [(0, { faults := List.replicate 128 ⟨0, 1, 0, 0⟩ })] } : State).cluster 0).faults.length ∧
    recToken ≤ booted.tb.tokens ∧ booted.tb.queue.length < 240 := by decide +kernel

/-- A steward without and with IN_EXC. -/
theorem test_hyp_ExceptionsTaken_steward :
    (booted.stw 0).estatus.getLsbD 0 = false ∧ (({ booted with stewards := [(0, { estatus := 1 })] } : State).stw 0).estatus.getLsbD 0 = true := by decide

theorem test_steward_exception :
    (after (.trap (.steward 0) 0 5) { booted with stewards := [(0, { evec := 0x40 })] }).stw 0 =
      { t := { pc := 0x40, issued := 1 }, evec := 0x40, ecause := 10, eaddr := 5, estatus := 1 } := by decide

theorem test_hyp_IssueRules_predicated :
    rowOf (.add (.thread 0) 1 3 1 2) = some (.thread 0, 1, .alu .add 3 1 2) ∧ agentNum (.thread 0) = some 0 ∧ (two 0 0).threadReady 0 = true ∧
    ((two 0 0).thr 0).pc < pcLimit 0 ∧ (∀ x ∈ ((two 0 0).thr 0).ops, ∀ p ∈ x.act.preds, p = 0 ∨ p ≠ 1) ∧ pred (two 0 0) 0 1 = false := by decide +kernel

theorem test_hyp_IssueRules_stalemate : (2047 : Nat) < 2048 ∧ (booted.noteIssue 2047).rf (Reg.staleStatus 15) staleStatus_CLEARED = 1 := by decide +kernel

theorem test_hyp_DecodeOfEncode : (Afv.alu .clz 3 1 0).wf = true ∧ (Afv.ins 18 19 0x2E0).wf = true ∧ (Afv.look 31 28 3 3 0 3).wf = true := by decide

theorem test_hyp_EncodeOfDecode : afvDecode 0x5A531702 = some (.ins 18 19 0x2E0) ∧ afvEncode (.ins 18 19 0x2E0) 2 = 0x5A531702 := by decide

/-- Core 0 in the odd cycle of thread 0 and in an even one; thread 0 of high priority; the rotation after thread 7; no thread
ready; a steward ready and not; a thread whose word is ADD; a load of data memory, and a fetch, that fail. -/
theorem test_hyp_IssueRules_cycles :
    (255 : Fin 260).val < 256 ∧ (({ two 0 0 with cores := [(0, { n := 1 })] } : State).core 0).n % 2 = 1 ∧ (two 0 0).ready 0 = true ∧
    (({ two 0 0 with entries := [(0, { hipri := true })] } : State).entryOf 0).hipri = true ∧ ((two 0 0).entryOf 0).hipri = false ∧
    ((two 0 0).core 0).n = 0 ∧ ((two 0 0).core 0).rr = 7 ∧ (∀ t, t < 8 → ¬State.reset.ready t = true) ∧
    256 ≤ (256 : Fin 260).val ∧ (two 0 0).ready 2048 = true ∧ State.reset.ready 2048 = false ∧
    ((two 0 0).thr 0).pc < 8192 ∧ afvDecode ((two 0 0).fetchWord 0) = some (.alu .add 0 0 0) ∧
    rowOf (.add (.thread 0) 0 0 0 0) = some (.thread 0, afvPred ((two 0 0).fetchWord 0), .alu .add 0 0 0) ∧
    afvDecode 0b10100000011000010011000000000000#32 = some (.load .zero 3 1 0 3 0) := by decide +kernel

/-- A load of data memory at PC 0 of thread 0. -/
def loading : State := (two 0xFFF8 0).stBytes (coreBase 0) [0x00, 0x30, 0x61, 0xA0]

theorem test_hyp_IssueRules_load :
    afvDecode (loading.fetchWord 0) = some (.load .zero 3 1 0 3 0) ∧ pred loading 0 (afvPred (loading.fetchWord 0)) = true ∧
    (reg loading 0 1 + (0 : BitVec 9).signExtend 64).toNat + 2 ^ (3 : BitVec 2).toNat = 0x10000 ∧
    ((loading.issueNext 0 .load).cluster 0).faults = [⟨0, 7, 0, 0xFFF8⟩] := by decide +kernel

/-- A completion queue in use with sixteen entries, at worker 0. -/
def queueOn (j : List CiphJob) : State :=
  { (two 0x1000 3 |>.setRf (ctlAddr 0x53 0x1030) cqCfg_EN 1 |>.setRf (ctlAddr 0x53 0x1030) cqCfg_LOG2_ENTRIES 4) with ciphJobs := j }

/-- Queue 1,024; a queue not in use; a full ring; 256 jobs that wait; a queue with room. -/
theorem test_hyp_CiphJobs :
    CanIssue (two 0x1000 1024) 0 0 [3, 1, 2] [] ∧ 1023 < (reg (two 0x1000 1024) 0 2).toNat ∧
    (Instr.gcmEnc (.thread 0) 0 3 1 2, 1) ∈ ciphRows (.thread 0) 0 3 1 2 ∧
    (two 0x1000 3).rf (ctlAddr 0x53 0x1030) cqCfg_EN = 0 ∧ CanIssue (queueOn []) 0 0 [3, 1, 2] [] ∧
    (queueOn []).rf (ctlAddr 0x53 0x1030) cqCfg_EN = 1 ∧
    2 ^ (queueOn []).rf (ctlAddr 0x53 0x1030) cqCfg_LOG2_ENTRIES = 16 ∧
    ((queueOn (List.replicate 16 { id := 0, isl := 0, op := 1, cq := 3, worker := true, desc := 0 })).ciphJobs.filter fun j => j.cq = 3).length = 16 ∧
    ((queueOn (List.replicate 256 { id := 0, isl := 0, op := 1, cq := 4, worker := true, desc := 0 })).ciphJobs.filter fun j => j.isl = 0 && j.eng.isNone).length = 256 ∧
    reg (after (.gcmEnc (.thread 0) 0 3 1 2) (queueOn [])) 0 3 = 1 ∧ reg (after (.gcmEnc (.thread 0) 0 3 1 2) (two 0x1000 3)) 0 3 = 0 := by
  constructorm* _ ∧ _ <;> first | decide +kernel | exact canIssue_sound (by decide +kernel)

/-! ### The stage profile, time, control registers, ports -/

/-- A frame in lane 0 at a slot. -/
def inLane (l : Nat) (p : Pass) : State := { booted with lanes := [(l, { passes := [p] })], frames := [(1, { data := [1, 2, 3, 4] })] }

/-- A pass that runs a slot, one whose predicate reads 0, one after an exception, one before the slot of a branch; instructions
that a stage lacks, that have a value, that are bad; loads and stores at the end of the frame window; branches to slot 32 and
past it; SGET, SPUT and LOOK in and out of range. -/
theorem test_hyp_StageInstructions :
    rowOf (.add (.lane 0) 0 3 1 2) = some (.lane 0, 0, .alu .add 3 1 2) ∧
    ((inLane 0 { fid := 1, profile := 0 }).lane 0).passes = [{ fid := 1, profile := 0 }] ∧ (0 : Nat) < 12 ∧
    (({ fid := 1, profile := 0 } : Pass).exc = none ∧ ({ fid := 1, profile := 0 } : Pass).skip ≤ ({ fid := 1, profile := 0 } : Pass).slot ∧ ({} : Regs).pred 0 = true) ∧
    ({} : Regs).pred 1 = false ∧ ({ fid := 1, profile := 0, exc := some 1 } : Pass).exc ≠ none ∧
    ¬(({ fid := 1, profile := 0, skip := 5 } : Pass).skip ≤ ({ fid := 1, profile := 0, skip := 5 } : Pass).slot) ∧
    stageLacks (.mul .divu 3 1 2) = true ∧ stageLacks (.alu .add 3 1 2) = false ∧
    pureVal (.alu .add 3 1 2) (regsOf [(1, 5), (2, 7)]) = .ok [(3, 12)] [] ∧ pureVal (.alu .clz 3 1 2) {} = .bad ∧
    256 < ((regsOf [(1, 256)]).get 1 + (0 : BitVec 9).signExtend 64).toNat + 2 ^ (0 : BitVec 2).toNat ∧
    ((regsOf [(1, 255)]).get 1 + (0 : BitVec 9).signExtend 64).toNat + 2 ^ (0 : BitVec 2).toNat = 256 ∧
    (1 ≤ (32 : BitVec 20).toInt ∧ (0 : Int) + (32 : BitVec 20).toInt ≤ 32) ∧ ¬((0 : Int) + (33 : BitVec 20).toInt ≤ 32) ∧ ¬(1 ≤ (0 : BitVec 20).toInt) ∧
    31 < (29 : BitVec 5).toNat + (3 : BitVec 2).toNat ∧ (28 : BitVec 5).toNat + (3 : BitVec 2).toNat ≤ 31 ∧
    (0x20 : BitVec 14).extractLsb' 5 9 ≠ 0 ∧ ((0x11 : BitVec 14).getLsbD 4 = true ∧ ((0x11 : BitVec 14).extractLsb' 0 4).toNat % 2 = 1) ∧
    (0x0F : BitVec 14).extractLsb' 4 10 = 0 ∧ (5 : BitVec 4) ≠ 0 ∧ (5 : BitVec 4) ≠ 1 ∧ (5 : BitVec 4) ≠ 2 := by decide +kernel

/-- Table 0 of pipeline 0, direct, with entry 0 valid, its bank marked or not; table 1 of the frame's slot is bound to it. -/
def tabled (lost : Nat) : State :=
  { (inLane 0 { fid := 1, profile := 0 } |>.setRf (Reg.pipeTable 0 0) pipeTable_VALID 1 |>.setRf (Reg.pipeTable 0 0) pipeTable_DIRECT 1
      |>.setRf (ctlAddr (pipeIsland 0) 0x4000) ⟨8, 8⟩ 128 |>.setRf (Reg.retStatus 48) retStatus_LOST lost) with mem := [(partBase 0, 1), (partBase 0 + 8, 9)] }

/-- LOOK: a table that is not bound; one that is, in a bank that is marked; a miss and a hit. -/
theorem test_hyp_StageInstructions_look :
    ¬(128 ≤ (tabled 0).rdN (ctlAddr (pipeIsland 0) (0x4000 + 0x100 * 0 + 0x10 * 0)) 4 / 2 ^ (8 * 0) % 256) ∧
    (tabled 0).rdN (ctlAddr (pipeIsland 0) (0x4000 + 0x100 * 0 + 0x10 * 0)) 4 / 2 ^ (8 * 1) % 256 = 128 ∧
    (tabled 1).lookLost 0 0 = true ∧ (tabled 0).lookLost 0 0 = false ∧ (tabled 0).lookup 0 0 (List.replicate 8 0) 1 = some [9] ∧
    (tabled 0).lookup 0 0 (1 :: List.replicate 7 0) 1 = none := by decide +kernel

/-- A sum is readable in the next slot. -/
theorem test_stage_add :
    (((after (.add (.lane 0) 0 3 1 2) (inLane 0 { fid := 1, profile := 0, r := regsOf [(1, 5), (2, 7)] })).lane 0).passes.map fun p => (p.slot, p.r.get 3)) = [(1, 12)] := by
  decide +kernel

/-- The last slots at which a result of each latency is readable within its stage, and slot 31; a lane with two passes. -/
theorem test_hyp_StageInstructions_results :
    ({ fid := 1, profile := 0, slot := 30 } : Pass).pend = [] ∧ ({ fid := 1, profile := 0, slot := 30 } : Pass).slot < 31 ∧
    ({ fid := 1, profile := 0, slot := 29 } : Pass).slot < 30 ∧ ({ fid := 1, profile := 0, slot := 28 } : Pass).slot < 29 ∧ (3 : BitVec 5) ≠ 0 ∧
    ({ fid := 1, profile := 0, slot := 31 } : Pass).slot = 31 ∧ (2 : Nat) ≤ 2 ∧
    (({ booted with lanes := [(0, { passes := [{ fid := 1, profile := 0 }, { fid := 2, profile := 0, slot := 31 }] })] } : State).lane 0).passes =
      { fid := 1, profile := 0 } :: [{ fid := 2, profile := 0, slot := 31 }] ∧
    (∀ x ∈ ([{ fid := 2, profile := 0, slot := 31 }] : List Pass), x.slot < 32) := by decide +kernel

/-- A step of −1 ns asked for, and a snapshot. -/
def ticking : State := { booted with clock := { tod := 2 ^ 24 * 5, ict := 2 ^ 24 * 9, snapReq := true, stepReq := true }, regs := [(Reg.timeStep, 0xFFFFFFFF), (Reg.timeStep + 4, 0xFFFFFFFF)] }

/-- No clock before the Lantern runs; a tick with and without requests. -/
theorem test_hyp_TimeScales :
    ({ booted with boot := { phase := .off } } : State).boot.phase = .off ∧ ticking.boot.phase ≠ .off ∧ ticking.clock.stepReq = true ∧
    ticking.clock.snapReq = true ∧ State.reset.clock.stepReq = false ∧ State.reset.clock.snapReq = false ∧ State.reset.boot.phase ≠ .off ∧
    Open ticking Reg.timeCtl ∧ (ticking.island 5).power ≠ .off ∧ ticking.gatedNow 5 = false ∧
    (after .lanternTick ticking).clock.tod / 2 ^ 24 = 5 + (ticking.rd Reg.timeAddend).toNat / 2 ^ 24 - 1 ∧
    (after .lanternTick ticking).rf Reg.timeSnap timeSnap_ICT_NS = 9 + (ticking.rd Reg.timeAddend).toNat / 2 ^ 24 := by
  unfold Open; decide +kernel

/-- Island 0x21 off, gated and idle, or gated behind two accesses that wait. -/
def isl21 (p : IslandPower) (g : List GatedAccess) : State := { booted with isl := [(0x21, { power := p })], gated := g }

/-- A thread that may not issue, and a steward that may; a thread without CTL_EN, an address of no island, a misaligned one, and
one of the last island; the secure half from ST2 and from ST0; islands off, gated, and on. -/
theorem test_hyp_RegisterWrites :
    State.reset.canWrite (writerInit (.thread 0)) 0x208 = false ∧ booted.canWrite (writerInit (.steward 0)) 0x208 = true ∧
    booted.ctlDenied (writerInit (.thread 0)) 0x208 4 = true ∧ booted.ctlDenied (writerInit (.steward 0)) 0x69000000 4 = true ∧
    booted.ctlDenied (writerInit (.steward 0)) 0x42000002 4 = true ∧ booted.ctlDenied (writerInit (.steward 0)) 0x68000000 4 = false ∧
    (0x800000 ≤ 0x52800000 % 0x1000000 ∧ booted.secureOk (writerInit (.steward 2)) = false) ∧ booted.secureOk (writerInit (.steward 0)) = true ∧
    ((isl21 .off []).island 0x21).power = .off ∧ ((isl21 .gated []).island 0x21).power ≠ .off ∧ (isl21 .gated []).holds 0x21 = true ∧
    (isl21 .on [⟨.window 0, 0, 0x21000000, 4, some 1⟩]).holds 0x21 = true := by decide +kernel

/-- Plain registers of 32 bits and both words of one of 64; accesses that wait and none; those of a thread, a window and the
hardware; an island that has been off since. -/
theorem test_hyp_RegisterWrites_plain :
    OpenTo booted (writerInit (.steward 0)) 0x208 4 ∧ ksForeign (writerInit (.steward 0)) 0x208 = false ∧
    (regAt 0x208).map (fun x => (x.1.kind, x.1.group, x.2)) = some (.plain, 1, 0) ∧ OpenTo booted (writerInit (.steward 0)) 0x21001004 4 ∧
    (regAt 0x21001000).map (fun x => (x.1.kind, x.1.group, x.1.words, x.2)) = some (.plain, 2, 2, 0) ∧
    (regAt 0x21001004).map (fun x => (x.1.kind, x.1.group, x.1.words, x.2)) = some (.plain, 2, 2, 1) ∧
    ((isl21 .gated [⟨.window 0, 0, 0x21000000, 4, some 1⟩]).gated.filter fun g => decide (g.addr / 0x1000000 = 0x21)) ≠ [] ∧
    ((isl21 .gated [⟨.window 0, 0, 0x21000000, 4, some 1⟩]).gated.filter fun g => decide (g.addr / 0x1000000 = 0x22)) = [] ∧
    (after (.registerWrite (.steward 0) 0x208 false 0x3F) booted).rd 0x208 = 0x3F ∧
    (after (.gatedAccessComplete 0x21) (isl21 .gated [⟨.steward 0, 0, 0x21000600, 8, some 5⟩, ⟨.steward 0, 0, 0x21000600, 8, some 6⟩])).rd 0x21000600 = 6 := by
  unfold OpenTo Open; decide +kernel

/-- A row's register in an island that is off, one that is gated, and a block without power. -/
theorem test_hyp_RegisterWrites_rows :
    ({ booted with boot := { phase := .off } } : State).boot.phase = .off ∧ booted.boot.phase ≠ .off ∧
    (({ booted with isl := [(1, { power := .off })] } : State).island (Reg.portMode 0 / 0x1000000)).power = .off ∧
    (booted.island (Reg.portMode 0 / 0x1000000)).power ≠ .off ∧
    ({ booted with gated := [⟨.hw, 0, Reg.portMode 0, 4, some 1⟩] } : State).holds (Reg.portMode 0 / 0x1000000) = true := by decide +kernel

/-- CUR 0 below GMIN 1; CUR at GMIN and at GMAX. -/
theorem test_hyp_RegisterWrites_format :
    Open booted Reg.fmtGen ∧ ¬(((0x030100 : W32).extractLsb' 8 8).toNat ≤ ((0x030100 : W32).extractLsb' 0 8).toNat) ∧
    ((0x030103 : W32).extractLsb' 8 8).toNat ≤ ((0x030103 : W32).extractLsb' 0 8).toNat ∧
    ((0x030103 : W32).extractLsb' 0 8).toNat ≤ ((0x030103 : W32).extractLsb' 16 8).toNat ∧ booted.pairOn = false ∧
    (after (.fmtGenWrite 0x030103) booted).rf Reg.fmtGen fmtGen_CUR = 3 ∧ (after (.fmtGenWrite 0x030101) booted).rf Reg.fmtGen fmtGen_CUR = 1 ∧
    (after (.fmtGenWrite 0x030100) booted).rd Reg.fmtGen = booted.rd Reg.fmtGen := by
  unfold Open; decide +kernel

/-- Cluster 0 with every thread waiting without a source, the detector on and RUN at 4,095. -/
def nearStale : State :=
  { (booted.setRf (Reg.staleCtl 0) staleCtl_ENABLE 1).setRf (Reg.staleStatus 0) staleStatus_RUN 4095 with
    entries := (List.range 127).map (fun i => (i + 1, { parked := true })), threads := [(0, { run := .waiting 1 0 })] }

theorem test_hyp_StalemateDetector :
    Open booted (Reg.threadFault 0) ∧ Open booted (Reg.staleStatus 0) ∧
    booted.stopped = false ∧ (booted.rf (Reg.staleCtl 0) staleCtl_ENABLE = 0 ∨ booted.stale 0 = false) ∧
    nearStale.rf (Reg.staleCtl 0) staleCtl_ENABLE = 1 ∧ nearStale.rf (Reg.staleStatus 0) staleStatus_RUN = 4095 ∧ nearStale.stale 0 = true ∧
    (nearStale.cluster 0).detections.length < 2 ∧ nearStale.stopped = false ∧
    (nearStale.setRf (Reg.staleStatus 0) staleStatus_RUN 4094).rf (Reg.staleStatus 0) staleStatus_RUN ≠ 4095 ∧
    (after (.stalemateCycle 0) nearStale).rf (Reg.staleStatus 0) staleStatus_DETECTED = 1 ∧
    (after (.stalemate 0) nearStale).rd (Reg.staleCount 0) = 1 := by unfold Open; decide +kernel

/-- Sub-port 0 of port 0 enabled, with and without LINK. -/
def port0 (link : Bool) : State :=
  let s := booted.setRf (Reg.portMode 0) portMode_SUB_EN 1
  if link then s.setRf (Reg.portStatus 0) portStatus_LINK 1 else s

/-- Frames of 59 and 60 bytes, a bad FCS, a MAC control frame; the longest frame and one more, in each mode; a port whose
follower is not aligned. -/
theorem test_hyp_FrameReception :
    (port0 false).linked 0 0 = false ∧ (port0 true).linked 0 0 = true ∧ (port0 true).boot.phase ≠ .off ∧ (port0 true).accepts 1 = true ∧
    ({ port0 true with isl := [(1, { aligned := false })] } : State).accepts 1 = false ∧ (port0 true).pstate ≠ 3 ∧
    (port0 true).pstate < 2 ∧ (port0 true).rf (Reg.portWakeCfg 0) portWakeCfg_PAT_EN = 0 ∧
    (List.replicate 59 (0 : Byte)).length + 4 < 64 ∧ 64 ≤ (List.replicate 60 (0 : Byte)).length + 4 ∧
    64 ≤ (port0 true).rf (Reg.portSubCfg 0 0) portSubCfg_MAXFRAME ∧ (port0 true).rf (Reg.portSubCfg 0 0) portSubCfg_OVS_MODE = 0 ∧
    ((port0 true).setRf (Reg.portSubCfg 0 0) portSubCfg_OVS_MODE 1).rf (Reg.portSubCfg 0 0) portSubCfg_OVS_MODE ≠ 0 ∧
    ((port0 true).setRf (Reg.portSubCfg 0 0) portSubCfg_MAXFRAME 64).rf (Reg.portSubCfg 0 0) portSubCfg_MAXFRAME < 65 ∧
    beNat (slice (List.replicate 12 0 ++ [0x88, 0x08] ++ List.replicate 46 0) 12 2) = 0x8808 ∧
    beNat (slice (List.replicate 60 0) 12 2) ≠ 0x8808 ∧
    ((after (.frameReceive 0 0 (List.replicate 60 0) ⟨true, 0, 0, 0⟩) (port0 true)).lane 0).arrivals = [0] ∧
    Counted (port0 true) (after (.frameReceive 0 0 (List.replicate 59 0) ⟨true, 3, 0, 0⟩) (port0 true)) 0 0 6 1 ∧
    Counted (port0 true) (after (.frameReceive 0 0 (List.replicate 59 0) ⟨true, 3, 0, 0⟩) (port0 true)) 0 0 11 3 := by
  unfold Counted; decide +kernel

/-- The port at 1 ms, with PFC on class 3, XOFF sent at 0 and a watchdog of 1 ms. -/
def flow : State :=
  let s := (((port0 true).setRf (Reg.portSubCfg 0 0) portSubCfg_PFC_RX 8).setRf (Reg.portSubCfg 0 0) portSubCfg_PFC_TX 8).setRf (Reg.iaccUse 3) iaccUse_XOFF_STATE 1
  { (s.setRf (Reg.portPfcWd 0 0) portPfcWd_LIMIT 1).setRf (Reg.portPfcWd 0 0) portPfcWd_RESTORE 1 with
    clock := { ict := 2 ^ 24 * 10 ^ 6 }, pauses := [(3, { till := some (2 ^ 24 * 10 ^ 6), since := some 0 })] }

theorem test_hyp_FlowControl :
    flow.linked 0 0 = true ∧ (flow.pause 3).till = some (2 ^ 24 * 10 ^ 6) ∧ (flow.pause 3).since = some 0 ∧ (flow.pause 4).till = none ∧
    ¬((flow.rf (Reg.portPfcStall 0 0) portPfcStall_STALLED).testBit 3 = true) ∧
    (flow.rf (Reg.portSubCfg 0 0) portSubCfg_PFC_RX).testBit 3 = true ∧ (flow.rf (Reg.portSubCfg 0 0) portSubCfg_PFC_RX).testBit 4 = false ∧
    flow.rf (Reg.iaccUse 3) iaccUse_XOFF_STATE = 1 ∧ (flow.pause 3).sentAt + 32768 * 64 * 2 ^ flow.rf (Reg.portMode 0) portMode_SPLIT * 2 ^ 24 / 100 ≤ flow.clock.ict ∧
    (flow.rf (Reg.portSubCfg 0 0) portSubCfg_PFC_TX).testBit 3 = true ∧
    0 + flow.rf (Reg.portPfcWd 0 0) portPfcWd_LIMIT * 100000 * 2 ^ 24 ≤ flow.clock.ict ∧
    ((flow.setRf (Reg.portSubCfg 0 0) portSubCfg_PAUSE_RX 1).setRf (Reg.portSubCfg 0 0) portSubCfg_PFC_RX 0).rf (Reg.portSubCfg 0 0) portSubCfg_PAUSE_RX = 1 ∧
    ((flow.setRf (Reg.portPfcStall 0 0) portPfcStall_STALLED 8).rf (Reg.portPfcStall 0 0) portPfcStall_STALLED).testBit 3 = true ∧
    (flow.pause 3).last + flow.rf (Reg.portPfcWd 0 0) portPfcWd_RESTORE * 100000 * 2 ^ 24 ≤ flow.clock.ict ∧
    (port0 false).linked 0 0 = false ∧ flow.accepts 1 = true ∧ ({ flow with isl := [(1, { aligned := false })] } : State).accepts 1 = false ∧
    (8 : BitVec 8).getLsbD 3 = true ∧ (8 : BitVec 8).getLsbD 4 = false ∧ flow.rf (Reg.portSubCfg 0 0) portSubCfg_PAUSE_RX ≠ 1 ∧ flow.stopped = false ∧
    (flow.mac 0 0).tx = none ∧ (({ flow with macs := [(0, { tx := some ⟨1, [], none⟩ })] } : State).mac 0 0).tx ≠ none ∧
    (flow.rf (Reg.portSubCfg 0 0) portSubCfg_PFC_TX).testBit 4 = false ∧
    (flow.rf (Reg.portPfcWd 0 0) portPfcWd_LIMIT * 100000 * 2 ^ 24 ≠ 0 ∧ 0 + flow.rf (Reg.portPfcWd 0 0) portPfcWd_LIMIT * 100000 * 2 ^ 24 ≤ 2 ^ 24 * 10 ^ 6) ∧
    (port0 true).rf (Reg.portPfcWd 0 0) portPfcWd_LIMIT * 100000 * 2 ^ 24 ≠ 0 ∧
    (port0 true).clock.ict < ((port0 true).pause 3).last + (port0 true).rf (Reg.portPfcWd 0 0) portPfcWd_RESTORE * 100000 * 2 ^ 24 := by decide +kernel

theorem test_flow :
    (after (.pfcRepeat 0 0 3) flow).out = [.pfc 0 0 3 0xFFFF] ∧
    ((after (.pfcReceive 0 0 8 0) flow).pause 3).till = none ∧ ((after (.pauseExpire 0 0 3) flow).pause 3).till = none ∧
    ((after (.pfcWatchdog 0 0 3) flow).rf (Reg.portPfcStall 0 0) portPfcStall_STALLED).testBit 3 = true := by decide +kernel

/-- The MAC of sub-port 0 with frame 1 waiting, or being sent with a timestamp record. -/
def macOf (m : Mac) : State := { port0 true with macs := [(0, m)], frames := [(1, { data := List.replicate 60 1 })] }

theorem test_hyp_PortTransmission :
    (port0 false).subOn 0 0 = true ∧ booted.subOn 0 0 = false ∧ Open (port0 true) (Reg.portMode 0) ∧ Open (port0 true) (Reg.portPtpPop 0) ∧
    (port0 true).accepts 1 = true ∧ (port0 true).linked 0 0 = true ∧ ((port0 true).rd (Reg.portStatus 0)).getLsbD 0 = true ∧
    ((1 : W32).extractLsb' 0 2).toNat ≠ (port0 true).rf (Reg.portMode 0) portMode_SPLIT ∧ (port0 true).rf (Reg.portMode 0) portMode_SUB_EN ≠ 0 ∧
    booted.rf (Reg.portMode 0) portMode_SUB_EN = 0 ∧ ((0 : W32).extractLsb' 0 2).toNat = (port0 true).rf (Reg.portMode 0) portMode_SPLIT ∧
    (macOf { waiting := [1] }).stopped = false ∧ ((macOf { waiting := [1] }).mac 0 0).waiting = [1] ∧ ((macOf { waiting := [1] }).mac 0 0).tx = none ∧
    64 ≤ (macOf { waiting := [1] }).rf (Reg.portSubCfg 0 0) portSubCfg_MAXFRAME ∧
    ((macOf { waiting := [1] }).setRf (Reg.portSubCfg 0 0) portSubCfg_MAXFRAME 63).rf (Reg.portSubCfg 0 0) portSubCfg_MAXFRAME < 64 ∧
    ptpHeader (List.replicate 60 1) = none ∧ ((macOf { tx := some ⟨1, [1], some ⟨0, 0, 0, 0, 0⟩⟩ }).mac 0 0).tx = some ⟨1, [1], some ⟨0, 0, 0, 0, 0⟩⟩ ∧
    (Tab.get [] (macOf {}).ptp 0).length < 64 ∧
    64 ≤ (Tab.get [] ({ macOf {} with ptp := [(0, List.replicate 64 ⟨0, 0, 0, 0, 0⟩)] } : State).ptp 0).length ∧
    ((port0 false).setRf (Reg.portWakeCfg 0) portWakeCfg_SD_EN 1).rf (Reg.portWakeCfg 0) portWakeCfg_SD_EN = 1 := by unfold Open; decide +kernel

/-- The MAC with frame 1, of a paused class, ahead of frame 2. -/
def heldBack : State :=
  { macOf { waiting := [1, 2] } with
    frames := [(1, { data := List.replicate 60 1 }), (2, (({ data := List.replicate 60 2 } : Frame).sf sfTc 1))],
    pauses := [(0, { till := some 1, since := some 0 })] }

theorem test_hyp_PortTransmission_held :
    (heldBack.mac 0 0).waiting = [1] ++ 2 :: [] ∧ (heldBack.mac 0 0).tx = none ∧ heldBack.txReady 0 0 1 = false ∧
    heldBack.txReady 0 0 2 = true ∧ heldBack.linked 0 0 = true ∧ (macOf { waiting := [1] }).txReady 0 0 1 = true ∧
    ((after (.frameTransmit 0 0) heldBack).mac 0 0).waiting = [1] ∧
    (let d : List Byte := List.replicate 12 0 ++ [0x88, 0x08] ++ List.replicate 50 0
     beNat (slice d 12 2) = 0x8808 ∧
     (((port0 true).setRf (Reg.portSubCfg 0 0) portSubCfg_MAXFRAME 64).rf (Reg.portSubCfg 0 0) portSubCfg_MAXFRAME < d.length + 4)) := by
  decide +kernel

theorem test_transmission :
    (((after (.frameTransmit 0 0) (macOf { waiting := [1] })).mac 0 0).tx.map TxFrame.bytes) = some (List.replicate 60 1) ∧
    (after (.frameTxComplete 0 0) (macOf { tx := some ⟨1, [1], none⟩ })).out = [.portFrame 0 0 [1] false] ∧
    (after (.linkUp 0 0) (port0 false)).linked 0 0 = true ∧ (after (.linkDown 0 ⟨0, false⟩) (port0 true)).linked 0 0 = false ∧
    Tab.get [] (after (.ptpPop 0) { booted with ptp := [(0, [⟨0, 0, 0, 0, 0⟩])] }).ptp 0 = [] := by decide +kernel

/-! ### Pipelines, fabric, scheduling -/

/-- Lane `n` as given, with frame 1. -/
def lane (n : Nat) (l : Lane) : State := { booted with lanes := [(n, l)], frames := [(1, { data := [1, 2, 3, 4] })] }

/-- A pass that has left stage 11. -/
def out12 (v : Option Verdict) (e : Option Nat) : Pass := { fid := 1, profile := 0, stage := 12, verdict := v, exc := e }

/-- Frame 1 in class K behind frame 2 on their way back through lane 0. -/
def inK : State := { lane 0 { recirc := [⟨2, none⟩, ⟨1, some 3⟩] } with frames := [(1, ({} : Frame).sf sfK 1)] }

/-- A pipeline that is not aligned; an arrival; a recirculation in its cycle, of class K and not; neither; a return with room and
without; each verdict and an exception at both ends; default verdicts; a pass still in its stages. -/
theorem test_hyp_PipelinePasses :
    booted.stopped = false ∧ booted.accepts 0x21 = true ∧ ({ booted with isl := [(0x21, { aligned := false })] } : State).accepts 0x21 = false ∧
    ((lane 0 { arrivals := [1] }).lane 0).passes = [] ∧ ((lane 0 { arrivals := [1] }).lane 0).recirc = [] ∧ ((lane 0 { arrivals := [1] }).lane 0).arrivals = [1] ∧
    ((lane 0 { recirc := [⟨1, some 3⟩] }).lane 0).cycle = 0 ∧ ((lane 0 { recirc := [⟨1, some 3⟩] }).lane 0).arrivals = [] ∧
    (((lane 0 { recirc := [⟨1, some 3⟩] }).lane 0).recirc.find? fun x => decide (((lane 0 {}).frame x.fid).gf sfK = 1)) = none ∧
    ((inK.lane 0).recirc.find? fun x => decide ((inK.frame x.fid).gf sfK = 1)) = some ⟨1, some 3⟩ ∧
    ((lane 0 { recirc := [⟨1, some 3⟩] }).lane 0).recirc.head? = some ⟨1, some 3⟩ ∧ ((lane 0 { returning := [⟨1, none⟩] }).lane 0).returning = [⟨1, none⟩] ∧
    ((lane 0 { returning := [⟨1, none⟩], recirc := List.replicate 479 ⟨1, none⟩ }).lane 0).recirc.length < 480 ∧
    ¬((lane 0 { returning := [⟨1, none⟩], recirc := List.replicate 480 ⟨1, none⟩ }).lane 0).recirc.length < 480 ∧
    ((lane 0 { passes := [out12 (some .cont) none] }).lane 0).passes = [out12 (some .cont) none] ∧ (out12 none (some 1)).stage = 12 ∧
    (out12 none (some 1)).exc = some 1 ∧ (out12 (some .drop) none).verdict = some .drop ∧ (out12 (some (.group 5)) none).verdict = some (.group 5) ∧
    (out12 (some .cont) none).verdict = some .cont ∧ (out12 none none).verdict = none ∧ (out12 none none).exc = none ∧
    ((lane 0 {}).setRf (Reg.pipeSubportCfg 0 0 0) pipeSubportCfg_DEF_VERDICT 1).rf (Reg.pipeSubportCfg 0 0 0) pipeSubportCfg_DEF_VERDICT = 1 ∧
    ((lane 0 {}).setRf (Reg.pipeSubportCfg 0 0 0) pipeSubportCfg_DEF_VERDICT 2).rf (Reg.pipeSubportCfg 0 0 0) pipeSubportCfg_DEF_VERDICT = 2 ∧
    ((lane 32 { passes := [out12 (some .drop) none] }).lane 32).passes = [out12 (some .drop) none] ∧
    ((lane 0 { passes := [{ fid := 1, profile := 0, stage := 11, slot := 31 }] }).lane 0).passes = [{ fid := 1, profile := 0, stage := 11, slot := 31 }] := by
  decide +kernel

/-- The words of a NOP and of no instruction in a running slot, a stage that does not run, and an error in the first slot. -/
theorem test_hyp_PipelinePasses_words :
    ({ fid := 1, profile := 2 ^ 48 } : Pass).profile.testBit (48 + 0) = true ∧ ({ fid := 1, profile := 0 } : Pass).profile.testBit (48 + 0) = false ∧
    (({ fid := 1, profile := 0 } : Pass).stage < 12 ∧ ({ fid := 1, profile := 0 } : Pass).exc = none ∧ ({ fid := 1, profile := 0 } : Pass).skip ≤ ({ fid := 1, profile := 0 } : Pass).slot) ∧
    afvDecode ((lane 0 {}).rd (Reg.pipeProg 0 0 (2 ^ 48 / 2 ^ (4 * 0) % 16) 0)) = some (.alu .add 0 0 0) ∧
    rowOf (.add (.lane 0) 0 0 0 0) = some (.lane 0, afvPred 0, .alu .add 0 0 0) ∧ afvDecode 0xFC000000 = none ∧ ({} : Regs).pred (afvPred 0xFC000000) = true ∧
    ((lane 0 {}).slotWord 0 (some 0) { fid := 1, profile := 2 ^ 48 }).2.exc = some 0x21 := by decide +kernel

theorem test_passes :
    ((after (.ingressPassStart 0 0) (lane 0 { arrivals := [1] })).lane 0).passes.map (fun p => (p.fid, p.stage)) = [(1, 0)] ∧
    (after (.ingressPassEnd 0 ⟨0, none⟩) (lane 0 { passes := [out12 (some .drop) none] })).frame 1 = {} ∧
    (after (.egressPassEnd 0 ⟨0, none⟩) (lane 32 { passes := [out12 (some .drop) none] })).frame 1 = {} ∧
    ((after (.recirculation 0 0) (lane 0 { returning := [⟨1, none⟩] })).lane 0).recirc = [⟨1, none⟩] := by decide +kernel

/-- A profile that names a slot; a slot whose naming ends now and later; a steward that may not issue, ST2, and ST0 writing a
program; a slot not in use; descriptors that fit exactly, that are too large, and one under a lock. -/
theorem test_hyp_PipelineRegisters :
    Open booted (Reg.pipeProfile 0 0) ∧ Open booted (Reg.pipeTable 0 0) ∧ OpenTo booted (.steward 0) (ctlAddr 0x21 0x800000) 4 ∧ OpenTo booted (.steward 1) (ctlAddr 0x21 0x4000) 4 ∧
    (booted.wr (ctlAddr 0x21 0x204) 0x10000).slotInUse 0 0 0 = true ∧ booted.slotInUse 0 0 0 = false ∧
    Tab.find ({ booted with slotUntil := [(slotKey 0 0 0, 0)] } : State).slotUntil (slotKey 0 0 0) = some 0 ∧ 0 ≤ booted.ictNs ∧ booted.ictNs < 1 ∧
    State.reset.canWrite (.steward 0) (ctlAddr 0x21 0x800000) = false ∧ booted.canWrite (.steward 2) (ctlAddr 0x21 0x800000) = true ∧ 2 ≤ (2 : Fin 4).val ∧
    ((booted.wr (ctlAddr 0x21 0x204) 0x10000).wr (ctlAddr 0x21 0x4000) 0x80).tableLocked 0 0 = true ∧ booted.tableLocked 0 0 = false ∧
    16 < (tdescOf (17 * 2 ^ 16)).log2 ∧ (tdescOf (2 ^ 25)).log2 ≤ 16 ∧ (tdescOf 0x1FFF).log2 ≤ 16 ∧ 0x80000 < (tdescOf 0x1FFF).base + (tdescOf 0x1FFF).size ∧
    (tdescOf (0x1FFF + 2 ^ 25)).base + (tdescOf (0x1FFF + 2 ^ 25)).size = 0x80000 := by unfold OpenTo Open; decide +kernel

theorem test_slot_release : (after (.slotRelease 0 0 0) { booted with slotUntil := [(slotKey 0 0 0, 0)] }).slotUntil = [] := by decide +kernel

/-- Slots that are due, one that was released and one that is not due; the due ones leave the window. -/
theorem test_hyp_PipelineRegisters_reorder : booted.stopped = false ∧
    ((after (.reorderPassOver 0) { booted with reorder := [(0, { slots := [⟨1, 0, none⟩, ⟨2, 1, none⟩] })] }).window 0).slots.map (fun x => x.fid) = [2] := by
  decide +kernel

/-- Frame 1 of 64 bytes for port 0, in instance 0. -/
def frame1 : Frame := (({ data := List.replicate 64 7 } : Frame).sf sfLen 64)

/-- With frame 1. -/
def framed : State := { booted with frames := [(1, frame1)] }

/-- A cell of frame 1 from input 0 to output 0. -/
def cell1 : Cell := ⟨0, 0, 0, false, [⟨0, 64, true, true, 1, false⟩], true⟩

/-- Frame 1 in class K, with the reserve of memory 0 full. -/
def reserveFull : State :=
  { framed with frames := [(1, frame1.sf sfK 1)], fabric := { side := [(0, [(0x108, 1)])], places := List.replicate 128 ⟨0, 0, true, [1]⟩ } }

/-- The reserve full, at 127 places and for a data frame. -/
theorem test_hyp_FabricAndStore_reserve :
    reserveFull.kFull 0 0 (decide ((reserveFull.frame 1).gf sfK = 1)) 1 64 = true ∧ (reserveFull.frame 1).names = 0 ∧
    ({ reserveFull with fabric := { places := List.replicate 127 ⟨0, 0, true, [1]⟩ } } : State).kFull 0 0 true 1 64 = false ∧
    reserveFull.kFull 0 0 false 1 64 = false := by decide +kernel

/-- Queue 0 with a frame in the Coolbox, in an unfinished page; at 1 µs. -/
def spilled : State :=
  { framed with outQs := [(0, { partial_ := 1, cool := [⟨1, 4, 64, [(7, 0)]⟩, ⟨2, 4, 64, [(8, 0)]⟩] })], clock := { ict := 2 ^ 24 * 1000 } }

/-- A side source with and without room; a lone cell at an input and in a middle buffer, out of its turn. -/
theorem test_hyp_FabricAndStore :
    framed.stopped = false ∧ Tab.get [] framed.fabric.side 0 = [] ∧
    Tab.get [] ({ framed with fabric := { side := [(0, [(0x108, 1)])] } } : State).fabric.side 0 = [(0x108, 1)] ∧
    framed.entryRoom 0 (outputLink (frame1.gf sfDst) (frame1.gf sfHash)) (decide (frame1.gf sfK = 1)) 1 frame1.len = true ∧
    ({ framed with fabric := { entry := [(0, List.replicate 256 cell1)] } } : State).entryRoom 0 0 false 1 64 = false ∧
    ({ framed with fabric := { entry := [(0, List.replicate 256 cell1)] } } : State).kFull 0 0 false 1 64 = false ∧
    framed.fabric.entry = [] ∧ framed.fabric.mid = [] ∧
    ({ framed with fabric := { entry := [(31, [cell1])] } } : State).fabric.entry = [(31, [cell1])] ∧ cell1.k = false ∧ cell1.output < 32 ∧
    0 < framed.rf Reg.memCfg memCfg_MID_LIMIT ∧
    (let s : State := { framed with fabric := { mid := [(0, [{ cell1 with seq := 5 }])] } }
     s.fabric.entry = [] ∧ s.fabric.mid = [((32 * 0 + (0 + s.fabric.t) % 32) * 2, [{ cell1 with seq := 5 }])] ∧ s.storeUse 0 < 6016 ∧
     (∀ x ∈ cell1.segs, (s.outQ (s.pickQueue (s.frame x.fid)).1).spill = false) ∧ Tab.get [] s.fabric.reasm 0 = [] ∧ 5 ≠ Tab.get 0 s.fabric.relSeq 0) := by
  decide +kernel

/-- A partly filled page before and at 1 µs; a head in the Coolbox of this memory and of another, with the prefetch full, with
its age past its limit, and without a place. -/
theorem test_hyp_FabricAndStore_spill :
    (framed.outQ 0).partial_ = 0 ∧ (spilled.outQ 0).partial_ ≠ 0 ∧ (spilled.outQ 0).lastSpill + 1000 ≤ spilled.ictNs ∧
    ({ spilled with clock := { ict := 2 ^ 24 * 999 } } : State).ictNs < (spilled.outQ 0).lastSpill + 1000 ∧ (framed.outQ 0).cool = [] ∧
    (spilled.outQ 0).cool = ⟨1, 4, 64, [(7, 0)]⟩ :: [⟨2, 4, 64, [(8, 0)]⟩] ∧ (4 : Nat) = (4 : Fin 32).val ∧ (4 : Nat) ≠ (5 : Fin 32).val ∧
    (spilled.outQ 0).onChip < spilled.rf Reg.spillCfg spillCfg_PREFETCH * 4096 ∧
    (spilled.setRf Reg.spillCfg spillCfg_PREFETCH 0).rf Reg.spillCfg spillCfg_PREFETCH * 4096 ≤ (spilled.outQ 0).onChip ∧
    spilled.expired (spilled.frame 1) 4 = false ∧ (spilled.setRf (Reg.fabAge 4 0) fabAge_LIMIT 1).expired (spilled.frame 1) 4 = true ∧
    spilled.chipRoom ⟨1, 4, 64, [(7, 0)]⟩ = true ∧ (spilled.frame 1).names = 0 ∧
    ({ spilled with fabric := { places := List.replicate 6016 ⟨9, 4, false, [3]⟩ } } : State).chipRoom ⟨1, 4, 64, [(7, 0)]⟩ = false := by decide +kernel

theorem test_prefetch :
    ((after (.prefetchComplete 4 0 false) spilled).outQ 0).chip.map (fun y => y.fid) = [1] ∧
    ((after (.prefetchComplete 4 0 true) spilled).outQ 0).cool = [] := by decide +kernel

/-- A capture ring of 1,024 records, and one record that waits. -/
def capturing (mode prod : Nat) : State :=
  { (((booted.setRf Reg.capCfg capCfg_ENABLE 1).setRf Reg.capCfg capCfg_LOG2_RECORDS 10).setRf Reg.capCfg capCfg_MODE mode).setRf Reg.capProd capProd_PROD prod with
    captureQ := [List.replicate 128 1] }

/-- Capture with room, full in each mode, and off; Coolbox regions that fit, that end beyond 384, that overlap, that are in use. -/
theorem test_hyp_FabricAndStore_capture :
    (capturing 0 0).stopped = false ∧ booted.captureQ = [] ∧ (capturing 0 0).captureQ = [List.replicate 128 1] ∧ (capturing 0 0).rf Reg.capCfg capCfg_ENABLE = 1 ∧
    ((capturing 0 0).setRf Reg.capCfg capCfg_ENABLE 0).rf Reg.capCfg capCfg_ENABLE = 0 ∧ (capturing 0 0).rf Reg.capCfg capCfg_MODE = 0 ∧
    ((capturing 0 1024).rf Reg.capProd capProd_PROD + 2 ^ 32 - (capturing 0 1024).rf Reg.capCons capCons_CONS) % 2 ^ 32 = 2 ^ (capturing 0 1024).rf Reg.capCfg capCfg_LOG2_RECORDS ∧
    (capturing 1 1024).rf Reg.capCfg capCfg_MODE ≠ 0 ∧ (List.replicate 128 (1 : Byte)).length = 128 ∧ Open booted (Reg.cbRegion 0) ∧ Open (capturing 0 0) (Reg.cbRegion 2) ∧
    384 < ((0x00010180 : W32).extractLsb' 0 9).toNat + ((0x00010180 : W32).extractLsb' 16 9).toNat ∧
    ((0x0001017F : W32).extractLsb' 0 9).toNat + ((0x0001017F : W32).extractLsb' 16 9).toNat = 384 ∧ booted.rf Reg.capCfg capCfg_ENABLE = 0 ∧
    (after (.cbRegionWrite 2 0x0001017F) booted).rf (Reg.cbRegion 2) cbRegion_BASE = 383 ∧
    (after (.cbRegionWrite 1 0x0001017F) (after (.cbRegionWrite 2 0x0001017F) booted)).rf (Reg.cbRegion 1) cbRegion_SIZE = 0 := by
  unfold Open; decide +kernel

/-- The ring of 1,024 records lies in region 2 as reset leaves it or not. -/
def ringed : State :=
  ((booted.setRf (Reg.cbRegion 2) cbRegion_BASE 0).setRf (Reg.cbRegion 2) cbRegion_SIZE 1 |>.setRf Reg.capCfg capCfg_LOG2_RECORDS 10 |>.setRf Reg.capBase capBase_BASE (coolUnit 0))

theorem test_hyp_FabricAndStore_ring :
    Open ringed Reg.capCfg ∧ ringed.captureRingOk 10 = true ∧ 10 ≤ ringed.rf Reg.capCfg capCfg_LOG2_RECORDS ∧
    (ringed.setRf Reg.capCfg capCfg_LOG2_RECORDS 9).rf Reg.capCfg capCfg_LOG2_RECORDS < 10 ∧ ringed.rf Reg.capCfg capCfg_LOG2_RECORDS = 10 ∧ ringed.rf Reg.capCfg capCfg_ENABLE = 0 ∧
    (ringed.setRf Reg.capBase capBase_BASE 0x80).captureRingOk 10 = false ∧ (after .captureEnable ringed).rf Reg.capCfg capCfg_ENABLE = 1 ∧
    (after .captureRecordWrite (capturing 0 0)).rf Reg.capProd capProd_PROD = 1 := by unfold Open; decide +kernel

/-- Frame 1 at the head of queue `q` of port 0, whose sub-port 0 has LINK. -/
def queued (q : Nat) : State :=
  { port0 true with frames := [(1, frame1)], outQs := [(q, { chip := [⟨1, 0, 64, []⟩], active := true })] }

/-- What a decision of port 0 starts from. -/
def turned (s : State) : State := ((s.startCycle 32).refillShapers (tmIsland 0)).retagQueues 0 0

/-- A class K head, a strict one, a weighted one, none; a sub-port without LINK, a frame in the MAC, a scheduler that is not
aligned; a side endpoint of a host, and one of a Hamper link without and with LINK and a credit. -/
theorem test_hyp_SchedulerDecisions :
    ((queued (qClassK 0 0)).outQ (qClassK 0 0)).chip ≠ [] ∧ (queued (qClassK 0 0)).kOpen 0 0 = true ∧
    ((queued (qStrict 0 0 3)).outQ (qClassK 0 0)).chip = [] ∧ (queued (qStrict 0 0 3)).headEligible 0 0 (4096 + 4 * 0 + 3) = true ∧
    (∀ j, j < 3 → ¬(queued (qStrict 0 0 3)).headEligible 0 0 (4096 + 4 * 0 + j) = true) ∧
    (∀ l, l < 4 → ¬(queued (qWeighted 0 5)).headEligible 0 0 (4096 + 4 * 0 + l) = true) ∧
    (queued (qWeighted 0 5)).linked 0 0 = true ∧ ((queued (qWeighted 0 5)).mac 0 0).waiting = [] ∧ (queued (qWeighted 0 5)).stopped = false ∧
    (queued (qWeighted 0 5)).accepts 0x31 = true ∧ (port0 false).linked 0 0 = false ∧
    (((macOf { waiting := [1] }).mac 0 0).waiting = [1] ∧ (macOf { waiting := [1] }).txReady 0 0 1 = true) ∧
    ({ port0 true with isl := [(0x31, { aligned := false })] } : State).accepts 0x31 = false ∧
    (turned (queued (qWeighted 0 5))).pickHead 0 0 = some (qWeighted 0 5) ∧ (turned (port0 true)).pickHead 0 0 = none ∧
    ((turned (queued (qWeighted 0 5))).outQ (qWeighted 0 5)).chip = ⟨1, 0, 64, []⟩ :: [] ∧
    (turned (queued (qWeighted 0 5))).expired frame1 0 = false ∧ frame1.gf sfK = 0 ∧ (turned (queued (qWeighted 0 5))).stalled 0 0 (frame1.gf sfTc) = false ∧
    (turned (queued (qWeighted 0 5))).fence frame1 = none ∧ (queued (qWeighted 0 5)).hlUp 0 = false ∧ (booted.schedule 32 0).2 = none ∧
    (let s : State := { (booted.setRf (hlAddr 0 4) hlStatus_UP 1) with hlinks := [(0, { vcs := [(1, { credits := 1 })] })] }
     s.hlUp 0 = true ∧ 0 < (s.hvc 0 1).credits) ∧
    (({ framed with outQs := [(qStrict 32 0 0, { chip := [⟨1, 32, 64, []⟩], active := true })] } : State).schedule 32 0).2 = some 1 := by decide +kernel

theorem test_decision :
    (after (.tmDecision 0 0) (queued (qWeighted 0 5))).outQ (qWeighted 0 5) = {} ∧
    ((after (.tmDecision 0 0) (queued (qWeighted 0 5))).lane 32).passes.map (fun p => p.fid) = [1] := by decide +kernel

/-- Shapers and policers that exist and that do not; balances within their bursts; weights of a scheduler and of no scheduler. -/
theorem test_hyp_SchedulerDecisions_shapers :
    booted.stopped = false ∧ Open booted (shaperCfgAddr 0x31 0) ∧ Open booted (shaperCfgAddr 0x61 12383) ∧ Open booted (polCfgAddr 0x21 0) ∧
    Open booted (polCfgAddr 0x42 0) ∧ Open booted (qCfgAddr 1 0) ∧
    shaperExists 0x31 12383 = true ∧ shaperExists 0x61 12383 = false ∧ shaperExists 0x5B 255 = true ∧ booted.shaperBal 0x31 0 ≤ booted.shaperLimit 0x31 0 ∧
    polBank 0x21 = true ∧ polBank 0x42 = false ∧ (booted.pol 0x21 4095).c ≤ booted.rf (polCfgAddr 0x21 4095) polCfgI_CBS * 16384 ∧
    (booted.pol 0x21 4095).e ≤ booted.rf (polCfgAddr 0x21 4095) polCfgI_EBS * 16384 ∧ booted.rf (polCfgAddr 0x21 0) polCfgI_MODE = 0 ∧
    ownerAt 0x31 1 = some 1 ∧ ownerAt 0x61 1 = none := by unfold Open; decide +kernel

/-- A policer of one byte a microsecond, at 3 µs. -/
def metering : State :=
  { (booted.setRf (polCfgAddr 0x21 0) polCfgI_CIR 8).setRf (polCfgAddr 0x21 0) polCfgI_CBS 1 with clock := { ict := 2 ^ 24 * 3500 } }

/-- Values that a write clamps; a boundary is refilled once. -/
theorem test_limits :
    (after (.shaperCfgWrite 0x31 0 (800001 + 2 ^ 32)) booted).rf (shaperCfgAddr 0x31 0) tmShaperCfg_RATE = 800000 ∧
    (after (.policerCfgWrite 0x21 0 (0x80 * 2 ^ 44)) booted).rf (polCfgAddr 0x21 0) polCfgI_OVERHEAD = 0xC0 ∧
    (after (.queueWeightWrite 0x31 0 5 9) booted).rf (qCfgAddr 0 5) tmQueueCfg_WEIGHT = 9 ∧
    ((after (.policerRefill 0x21) metering).pol 0x21 0).c = 768 ∧
    after (.policerRefill 0x21) (after (.policerRefill 0x21) metering) = after (.policerRefill 0x21) metering := by decide +kernel

/-- A job of island 0 that waits, one that runs on engine 0. -/
def job0 : CiphJob := { id := 5, isl := 0, op := 3, cq := 3, worker := true, desc := 0x1000 }
def running0 : CiphJob := { job0 with eng := some 0, running := true, latch := some ⟨1, List.replicate 32 0, []⟩, src := some (List.replicate 16 0) }

/-- With the jobs. -/
def jobs (l : List CiphJob) : State := { booted with ciphJobs := l }

/-- An entry to P2 that has run for 10 µs: the cores are halted. -/
def halted : State :=
  { jobs [job0] with power := { trans := some ⟨true, 2, 0, false, 0⟩ }, clock := { ict := 2 ^ 24 * 10000 } }

/-- A unit that SEC is to encrypt. -/
def sec0 : SecOp := ⟨5, true, false, 0, 0, 512, 0, List.replicate 512 0, none, 0⟩

/-- A job that waits, beside an idle engine and beside eight that work, in a halted part and as SEC; jobs that have stopped, are not
admitted, are SEC's, and one with all its input. -/
theorem test_hyp_BulkJobs :
    (jobs [job0]).stopped = false ∧ (jobs [job0]).bestEngine 0 = (0, 0) ∧ (jobs [job0]).halting = false ∧
    ((jobs [job0]).ciphJobs.find? fun j => j.isl = (0 : Fin 8).val && j.eng.isNone) = some job0 ∧ (jobs [job0]).engineJob 0 = none ∧
    ((jobs ((List.range 8).map (fun i => { running0 with id := 10 + i, eng := some i }) ++ [job0])).engineJob 0).isSome = true ∧
    ((jobs ((List.range 8).map (fun i => { running0 with id := 10 + i, eng := some i }) ++ [job0])).bestEngine 0).2 = 1 ∧
    (halted.stopped = false ∧ halted.halting = true ∧ job0.sec = none ∧ { job0 with sec := some sec0 }.sec ≠ none) ∧
    (∀ j ∈ (jobs [running0]).ciphJobs, ¬(j.isl = 0 ∧ j.eng = none)) ∧ (∀ j ∈ (jobs [job0]).ciphJobs, j.id ≠ (6 : W32).toNat) ∧
    ((jobs [{ running0 with fail := some 7 }]).ciphJobs.find? fun j => j.id = (5 : W32).toNat && j.sec.isNone) = some { running0 with fail := some 7 } ∧
    ((jobs [running0]).ciphJobs.find? fun j => j.id = (5 : W32).toNat && j.sec.isNone) = some running0 ∧ (running0.fail = none ∧ running0.running = true) ∧
    job0.running = false ∧ job0.fail = none ∧ running0.latch.isSome = true ∧ running0.src.isSome = true ∧ running0.op = 3 ∧
    (jobs [running0]).engineJob 0 = some running0 ∧
    (jobs [running0]).nextJob 0 = some running0 ∧ (jobs [{ running0 with running := false }]).engineJob 0 = none ∧
    (jobs [{ running0 with running := false }]).nextJob 0 = some { running0 with running := false } ∧ (jobs [job0]).nextJob 0 = none := by decide +kernel

/-- Job 5 runs at a quantum of 1 KiB, with a descriptor of `len` bytes. -/
def quantum (len : Nat) : State := ((jobs [running0]).stBytes 0x1020 (leBytes 4 len)).setRf (Reg.ciphIslandCfg 0) ciphIslandCfg_QUANTUM 1

/-- Engines that are not ready to be handed over: 1,024 operations admitted to each. -/
def crowded : List CiphJob := (List.range 8).flatMap fun e => List.replicate 1024 { job0 with id := 9, eng := some e }

theorem test_hyp_BulkJobs_quantum :
    (quantum 1024).engineJob 0 = some running0 ∧ (quantum 1024).dataLen running0 ≤ running0.done + (quantum 1024).rf (Reg.ciphIslandCfg 0) ciphIslandCfg_QUANTUM * 1024 ∧
    (quantum 1025).engineJob 0 = some running0 ∧ running0.done + (quantum 1025).rf (Reg.ciphIslandCfg 0) ciphIslandCfg_QUANTUM * 1024 < ((quantum 1025).cdesc running0.desc).len ∧
    (running0.latch ≠ none ∧ running0.src ≠ none ∧ running0.fail = none ∧ running0.sec = none) ∧
    (∀ x ∈ (quantum 1025).ciphJobs, x.eng = some 0 → x = running0) ∧ (∀ x ∈ (quantum 1025).ciphJobs, x.id = running0.id → x = running0) ∧
    (Tab.get [] (quantum 0).ciphIn 0 = [] ∧ Tab.get [] (quantum 0).ciphOut 0 = []) ∧ 1024 ≤ ((jobs crowded).bestEngine 0).2 ∧
    ((after (.quantumExpire 0) (quantum 1025)).ciphJobs.map CiphJob.done) = [1024] := by decide +kernel

/-- A missed slot and another; queue sizes 3, 4, 16, 17, with a job that waits and none; an advance of CONS to PROD and past it. -/
theorem test_hyp_BulkJobs_queues :
    5 ∈ Tab.get [] ({ booted with keyMiss := [(0, [5])] } : State).keyMiss 0 ∧ (Tab.get [] booted.keyCache 0).length < 4096 ∧
    5 ∉ Tab.get [] booted.keyMiss 0 ∧ (∀ j ∈ (jobs [job0]).ciphJobs, j.missed = false) ∧ Open booted (ctlAddr 0x53 0x1030) ∧ Open (jobs [job0]) (ctlAddr 0x53 0x1030) ∧
    ((0x0003000000000000 : W64).extractLsb' 48 5).toNat < 4 ∧ 16 < ((0x0011000000000000 : W64).extractLsb' 48 5).toNat ∧
    4 ≤ ((0x0024000000000000 : W64).extractLsb' 48 5).toNat ∧ ((0x0010000000000000 : W64).extractLsb' 48 5).toNat ≤ 16 ∧
    ¬(∃ j ∈ booted.ciphJobs, j.cq = 3 ∧ j.sec = none) ∧ (∃ j ∈ (jobs [job0]).ciphJobs, j.cq = 3 ∧ j.sec = none) ∧
    (((0x0024000000000000 : W64).extractLsb' 53 1).toNat = 1 ∧ booted.rf (ctlAddr 0x53 0x1030) cqCfg_EN = 0) ∧
    ((0x0010000000000000 : W64).extractLsb' 53 1).toNat ≠ 1 ∧
    (after (.cqCfgWrite 3 0x0024000000000000) booted).rf (ctlAddr 0x53 0x1030) cqCfg_EN = 1 ∧
    (after (.cqConsWrite 3 1) booted).rd (ctlAddr 0x53 0x103C) = 0 := by unfold Open; decide +kernel

theorem test_jobs :
    ((after (.ciphJobAdmit 0) (jobs [job0])).ciphJobs.map CiphJob.eng) = [some 0] ∧
    (after (.ciphJobComplete 5 false) (jobs [{ running0 with fail := some 7 }])).ciphJobs = [] ∧
    (after (.ciphJobComplete 5 false) (jobs [{ running0 with fail := some 7 }])).ldByte 4 = 7 ∧
    ((after (.bulkResume 0) (jobs [{ running0 with running := false }])).ciphJobs.map CiphJob.running) = [true] ∧
    Tab.get [] (after (.keyCacheFill 0 5) { booted with keyMiss := [(0, [5])] }).keyCache 0 = [5] := by decide +kernel

/-- A frame that waits at cipher island 0, arriving and departing; fail-closed; a cached slot with a key. -/
def inlineAt (i : Bool) : State := { framed with ciphIn := if i then [(0, [⟨1, none⟩])] else [], ciphOut := if i then [] else [(0, [1])] }

theorem test_hyp_InlineCrypto :
    Tab.get [] (inlineAt true).ciphIn 0 = [⟨1, none⟩] ∧ Tab.get [] (inlineAt false).ciphOut 0 = [1] ∧ Tab.get [] booted.ciphIn 0 = [] ∧
    Tab.get [] booted.ciphOut 0 = [] ∧ (inlineAt true).accepts 0x53 = true ∧
    (inlineAt true).stopped = false ∧ (inlineAt true).failClosed = false ∧ (inlineAt true).cached 0 (frame1.gf sfKeySlot) = false ∧
    ((inlineAt true).setRf Reg.alarmStatus alarmStatus_FAIL_CLOSED 1).failClosed = true ∧ (booted.slot 0).iar < 0x4000 ∧
    Tab.get [] (after (.inlineDecrypt 0) (inlineAt true)).keyMiss 0 = [0] := by decide +kernel

/-- A MACsec frame under association number 0 with packet number 1, of one byte, with the tag of a key of zeros. -/
def macsec (tag : List Byte) : State :=
  { booted with
    keyCache := [(0, [0])], slots := [(0, { key := List.replicate 32 0, st := .loaded, modeMask := 1, limit := 100 })], ciphIn := [(0, [⟨1, none⟩])],
    frames := [(1, (({ data := [2, 0, 0, 0, 0, 1, 2, 0, 0, 0, 0, 2, 0x88, 0xE5, 0x0C, 1, 0, 0, 0, 1, 0x55] ++ tag } : Frame).sf sfLen 37))] }

/-- A frame whose tag passes is opened, at packet number 1; a departing frame with a key is encrypted. -/
theorem test_hyp_InlineCrypto_done :
    ((macsec [206, 161, 54, 140, 242, 207, 123, 144, 62, 67, 191, 196, 115, 232, 50, 138]).inlineOpen 0 0 1).2 = .done ∧
    ((macsec []).inlineSeal 0 0 1).2 = .done := by decide +kernel

/-- AES-128-GCM, test case 2 of the specification of GCM by McGrew and Viega. -/
theorem test_gcm : gcmSeal (List.replicate 16 0) (List.replicate 12 0) [] (List.replicate 16 0) =
    ([0x03, 0x88, 0xda, 0xce, 0x60, 0xb6, 0xa3, 0x92, 0xf3, 0x28, 0xc2, 0xb9, 0x71, 0xb2, 0xfe, 0x78],
     [0xab, 0x6e, 0x47, 0xd4, 0x2c, 0xec, 0x13, 0xbd, 0xf5, 0x3a, 0x67, 0xb2, 0x12, 0x57, 0xbd, 0xdf]) := by decide +kernel

/-- Key store block 0 with a staged attribute word, and slot 4 as given. -/
def keyStore (k : KeySlot) : State :=
  { ((booted.setRf (Reg.ksAttr 0) ksAttr_MODE_MASK 5).setRf (Reg.ksAttr 0) ksAttr_IAR 9) with slots := [(4, k)], stage := [(0, 0x04030201)] }

/-- A block whose steward may not write it, and one that may; BUSY, fail-closed; a TAIL, an odd slot for a pair, the last
generation, an ordinary slot; a code that waits. -/
theorem test_hyp_KeyStoreCommands :
    State.reset.canWrite (.steward 0) (Reg.ksCmd 0) = false ∧ OpenTo (keyStore {}) (.steward 0) (Reg.ksCmd 0) 4 ∧ OpenTo (keyStore {}) (.steward 1) (Reg.ksCmd 1) 4 ∧
    (keyStore {}).rf (Reg.ksResult 0) ksResult_BUSY = 0 ∧
    ((keyStore {}).setRf (Reg.ksResult 0) ksResult_BUSY 1).rf (Reg.ksResult 0) ksResult_BUSY = 1 ∧ (keyStore {}).failClosed = false ∧
    ((keyStore {}).setRf Reg.alarmStatus alarmStatus_FAIL_CLOSED 1).failClosed = true ∧ ((keyStore { st := .tail }).slot 4).st = .tail ∧ ((keyStore {}).slot 4).st ≠ .tail ∧
    ((keyStore {}).setRf (Reg.ksAttr 0) ksAttr_KEY256 1).rf (Reg.ksAttr 0) ksAttr_KEY256 = 1 ∧
    ((keyStore {}).rf (Reg.ksAttr 0) ksAttr_MODE_MASK).testBit 2 = true ∧ (5 : Fin 262144).val % 2 = 1 ∧
    (keyStore {}).rf (Reg.ksAttr 0) ksAttr_KEY256 ≠ 1 ∧ ((keyStore { gen := 0xFFFFFFFF }).slot 4).gen = 0xFFFFFFFF ∧
    ((keyStore { gen := 0xFFFFFFFE }).slot 4).gen < 0xFFFFFFFF ∧ (keyStore {}).slotPair 4 = false ∧ Tab.get 0 (keyStore {}).ksCode 0 < 8 ∧ (keyStore {}).stopped = false := by
  unfold OpenTo Open; decide +kernel

/-- Zeroisation in P0 and none; a notification with and without room. -/
theorem test_hyp_KeyStoreCommands_events :
    ({ booted with zeroising := some 3 } : State).zeroising = some 3 ∧ booted.pstate ≠ 3 ∧ booted.zeroising = none ∧ booted.notify = [] ∧
    ({ booted with notify := [7] } : State).notify = [7] ∧ (booted.mbox (booted.rf Reg.ksNotifyCfg ksNotifyCfg_CHANNEL)).ba.length < 16 ∧
    (booted.mbox (booted.rf Reg.ksNotifyCfg ksNotifyCfg_CHANNEL)).openB < 16 ∧
    16 ≤ (({ booted with mboxes := [(booted.rf Reg.ksNotifyCfg ksNotifyCfg_CHANNEL, { ba := sixteen true })] } : State).mbox (booted.rf Reg.ksNotifyCfg ksNotifyCfg_CHANNEL)).ba.length := by
  decide +kernel

theorem test_key_store :
    (((after (.ksLoad 0 4) (keyStore { gen := 6 })).slot 4).gen, ((after (.ksLoad 0 4) (keyStore { gen := 6 })).slot 4).key.take 2,
      ((after (.ksLoad 0 4) (keyStore {})).slot 4).modeMask) = (7, [1, 2], 5) ∧
    ((after (.ksErase 0 4) (keyStore { key := [1], st := .loaded })).slot 4).st = .erased ∧
    Tab.get 0 (after (.ksLoad 0 4) (keyStore {})).stage 0 = 0 ∧
    (after (.ksCommandDone 0) (after (.ksLoad 0 4) (keyStore { st := .tail }))).rf (Reg.ksResult 0) ksResult_CODE = 1 ∧
    ((after .keystoreZeroised { keyStore { gen := 8, st := .loaded } with zeroising := some 3 }).slot 4).gen = 9 := by decide +kernel

/-! ### Mailboxes, host links and host commands -/

/-- Host link 0 is up, with Memory Space and Bus Master Enable of function 0. -/
def hostUp (x : HostLink) : State := { booted with hosts := [(0, { x with up := true, cfg := [(1, 0x00100006)] })] }

/-- A queue with room and a full one; a visible word and a hidden one; a flush by St0 of a channel of the secure half. -/
theorem test_hyp_MailboxWords :
    (booted.host 0).up = false ∧ BarOpen (hostUp {}) 0 0 ∧ ((hostUp {}).mbox 16).ba.length < 16 ∧ ((hostUp {}).mbox 16).openB < 16 ∧
    16 ≤ (({ hostUp {} with mboxes := [(16, { openB := 16 })] } : State).mbox 16).openB ∧
    16 ≤ (({ hostUp {} with mboxes := [(16, { ba := sixteen true })] } : State).mbox 16).ba.length ∧
    (({ hostUp {} with mboxes := [(16, { ab := sixteen true })] } : State).mbox 16).ab = ⟨1, false, true⟩ :: List.replicate 15 ⟨1, false, true⟩ ∧
    ((hostUp {}).mbox 16).ab.head? = none ∧ (∀ w ∈ (booted.mbox 0).ab, w.seen = true) ∧ booted.stopped = false ∧
    (({ booted with mboxes := [(0, { ab := [⟨1, false, true⟩, ⟨2, true, false⟩] })] } : State).mbox 0).ab = [⟨1, false, true⟩] ++ ⟨2, true, false⟩ :: [] ∧
    (({ booted with mboxes := [(63, { ba := [⟨2, true, false⟩] })] } : State).mbox 63).ba = [] ++ ⟨2, true, false⟩ :: [] ∧
    OpenTo booted (writerInit (.steward 0)) (ctlAddr 0x52 (0x820000 + 4 * 15)) 4 ∧ OpenTo booted (writerInit (.steward 2)) (ctlAddr 0x52 (0x20000 + 4 * 16)) 4 := by
  unfold BarOpen OpenTo Open; decide +kernel

theorem test_mailbox :
    ((after (.transmitData 0 0 9) (hostUp {})).mbox 16).ba = [⟨9, false, false⟩] ∧
    (after (.rxData 0 0) { hostUp {} with mboxes := [(16, { ab := [⟨0x0A0B0C0D, true, true⟩] })] }).out = [.completion 0 0 [0x0D, 0x0C, 0x0B, 0x0A]] ∧
    ((after (.mailboxDeliver 0 true) { booted with mboxes := [(0, { ab := [⟨1, false, false⟩] })] }).mbox 0).ab = [⟨1, false, true⟩] ∧
    ((after (.chFlush (.steward 0) 0) { booted with mboxes := [(0, { ab := [⟨1, false, false⟩] })] }).mbox 0).ab = [] := by decide +kernel

/-- An outstanding tag of 16 bytes for read 0. -/
def tag0 (st : TagState) (discard : Bool) : Tag := ⟨0, 0, 16, 0, some 50000, st, discard⟩

/-- Link 0 with tag 3, and a read of `left` bytes. -/
def reading (st : TagState) (discard : Bool) (left : Nat) : State :=
  { hostUp { tags := [(3, tag0 st discard)] } with xfers := [(0, ⟨0, 0, 0, 0x1000, left, [], .ferry, 0⟩)] }

/-- The window: an offset beyond the BAR, the last one inside, a bad length and a good one, a hole, a page that may not be
written, a plain register. -/
theorem test_hyp_HostReads :
    (booted.host 0).up = false ∧ BarOpen (hostUp {}) 0 0 ∧ 0x1000000 ≤ (0x1000000 : BitVec 25).toNat ∧ 0x800000 ≤ (0xFFFFFC : BitVec 25).toNat ∧
    (0xFFFFFC : BitVec 25).toNat < 0x1000000 ∧ ((5 : Nat) ≠ 0 ∧ (5 : Nat) ≠ 4 ∧ (5 : Nat) ≠ 8) ∧ 0xFFFFFC % 4 = 0 ∧ windowAddr (0xFFFFFC - 0x800000) = none ∧
    windowAddr (0xD40208 - 0x800000) = some 0x208 ∧ (regAt 0x208).map (fun d => d.1.kind) = some .plain ∧ Open (hostUp {}) 0x208 ∧
    ¬(0x53000000 ≤ 0x208) ∧ ((hostUp {}).rdN (Reg.winWriteEn 0) 4).testBit ((0xD40208 - 0x800000) / 0x10000) = false := by
  unfold BarOpen Open; decide +kernel

/-- Each state of a tag, each end of a read; times at and before the limit. -/
theorem test_hyp_HostReads_tags :
    ((hostUp {}).host 0).up = true ∧ Tab.find ((hostUp {}).host 0).tags 3 = none ∧
    Tab.find ((reading .outstanding false 32).host 0).tags 3 = some (tag0 .outstanding false) ∧ (reading .outstanding false 32).ictNs < 0 + 50000 ∧
    (Tab.find ((reading (.quarantined 5) false 32).host 0).tags 3 = some (tag0 (.quarantined 5) false) ∧ (reading (.quarantined 5) false 32).ictNs < 5) ∧
    (Tab.find ((reading (.dead 5) false 32).host 0).tags 3 = some (tag0 (.dead 5) false) ∧ (reading (.dead 5) false 32).ictNs < 5) ∧
    (tag0 .outstanding true).discard = true ∧ (tag0 .outstanding false).discard = false ∧ (1 : BitVec 3) ≠ 0 ∧
    Tab.find (reading .outstanding false 32).xfers 0 = some ⟨0, 0, 0, 0x1000, 32, [], .ferry, 0⟩ ∧ (tag0 .outstanding false).len ≤ (List.replicate 16 (0 : Byte)).length ∧
    (tag0 .outstanding false).len < 32 ∧ (reading .outstanding false 32).canIssue 0 0 0 = true ∧ (tag0 .outstanding false).len = 16 ∧
    0 + 50000 ≤ ({ reading .outstanding false 32 with clock := { ict := 2 ^ 24 * 50000 } } : State).ictNs ∧
    0 ≤ (reading (.quarantined 0) false 32).ictNs ∧ (reading (.quarantined 0) false 32).readQ = [] ∧ (hostUp {}).counterHalf = false ∧
    ((hostUp {}).wr (Reg.portCntHalf 0 0) 1).counterHalf = true := by decide +kernel

theorem test_host_reads :
    (after (.controlWindowAccess 0 0 0xFFFFFC 4 none) (hostUp {})).out = [.completion 0 0 [0, 0, 0, 0]] ∧
    (Tab.find (after (.hostCompletion 0 3 0 false (List.replicate 16 5)) (reading .outstanding false 32)).xfers 0).map (fun x => (x.addr, x.left)) = some (0x1010, 16) ∧
    Tab.find ((after (.tagQuarantineExpire 0 3) (reading (.quarantined 0) false 32)).host 0).tags 3 = none ∧
    (after (.intCauseClear 0 8) ((hostUp {}).wr (Reg.intCause 0) 8)).rd (Reg.intCause 0) = 0 := by decide +kernel

/-- PERST of link 0 released, with a reset of function 1 in progress. -/
def perst (up : Bool) (flr : BitVec 2) : State :=
  { booted with pins := { perstN := (Vector.replicate 2 false).set 0 true }, hosts := [(0, { up := up, flr := flr })] }

/-- A power transition into the state is being entered. -/
def enteringP (p : Nat) : State := { perst true 0 with power := { trans := some ⟨true, p, 0, 0, 0⟩ } }

/-- Links that may come up, at an accepted width and at one that is none; functions in and out of reset; words of the
configuration space with an effect, and one without; links in and below P2; PERST of a pin that is low. -/
theorem test_hyp_HostLinkResets :
    ((perst false 0).pairOn = false ∧ (perst false 0).pins.perstN[(0 : Fin 2).val] = true ∧ (perst false 0).boot.phase ≠ .off ∧
      (perst false 0).boot.phase ≠ .monitors ∧ (perst false 0).pstate < 3 ∧ (1 : Fin 7).val ≠ 0 ∧ (16 : Fin 17).val ∈ [1, 2, 4, 8, 16] ∧
      (3 : Fin 17).val ∉ [1, 2, 4, 8, 16]) ∧
    (((perst true 0).host 0).up = true ∧ (perst true 0).entering 2 = false ∧ ((perst true 0).host 0).flr.getLsbD 0 = false ∧
      ((perst true 2).host 0).flr.getLsbD 1 = true ∧ (perst true 2).entering 2 = false ∧ ((perst false 0).host 0).up = false) ∧
    ((22 : Fin 1024).val = 22 ∧ (2 : BitVec 4).getLsbD 1 = true ∧ (0x8000 : W32).getLsbD 15 = true ∧
      ¬((22 : Fin 1024).val = 22 ∧ (1 : BitVec 4).getLsbD 1 = true ∧ (0x8000 : W32).getLsbD 15 = true) ∧
      (22 : Fin 1024).val ≠ 1 ∧ (22 : Fin 1024).val ≠ 17 ∧ (22 : Fin 1024).val ≠ 44 ∧ (22 : Fin 1024).val ≠ 155) ∧
    (booted.pins.perstN[(0 : Fin 2).val] = false ∧ ({ perst false 0 with boot := { phase := .off } } : State).boot.phase = .off ∧ ({ perst false 0 with boot := { phase := .off } } : State).pairOn = false ∧
      ({ perst false 0 with boot := { phase := .off } } : State).pins.perstN[(0 : Fin 2).val] = true ∧
      (perst true 0).pstate < 2 ∧ (enteringP 3).entering 3 = true ∧ booted.entering 3 = false) ∧
    ((1 : Fin 3).val < 2 ∧ ¬((2 : Fin 3).val < 2) ∧ (9 : Fin 12).val < 10 ∧ 10 ≤ (11 : Fin 12).val ∧
      ((perst true 2).host 0).flr.getLsbD ((11 : Fin 12).val - 10) = true ∧ ((perst true 2).host 0).flr.getLsbD ((10 : Fin 12).val - 10) = false) := by
  decide +kernel

theorem test_host_link_resets :
    ((after (.hostLinkUp 0 5 16 true) (perst false 0)).rd (Reg.linkStatus 0)).toNat = 5 + 8 * 16 + 256 + 512 ∧
    (after (.hostLinkUp 0 5 3 true) (perst false 0)).hosts = (perst false 0).hosts ∧
    ((after (.initiateFlr 0 1) (perst true 0)).host 0).flr = 2 ∧ ((after (.flrComplete 0 1) (perst true 2)).host 0).flr = 0 ∧
    ((after (.hostLinkLoss 0) (perst true 0)).host 0).up = false ∧ ((after (.perstAssert 0) (perst true 0)).host 0).up = false ∧
    (after (.configWrite 0 0 4 8 0x12000000) (perst true 0)).cfg 0 0 4 / 2 ^ 24 = 0x12 ∧
    ((after (.receiverError 0 1) (perst true 0)).cfg 0 0 68).testBit 6 = true := by decide +kernel

/-- The device serves channel 0, and instance 1 is as given. -/
def serving (x : Instance) : State := { booted.setRf (Reg.devStatus 0) devStatus_READY 1 with insts := [(1, x)] }

/-- A command before READY, with an outstanding TAG, on instance 0, on a FREE one, on one of the other link; creation with good and
bad words; a quiesced instance with a generation to spare; VI_QOS of types 15, 16 and 17. -/
theorem test_hyp_InstanceCommands :
    booted.rf (Reg.devStatus 0) devStatus_READY = 0 ∧ (Instr.viDestroy 0 7 [1], 0x11) ∈ instRows 0 7 [1] ∧
    Serves (serving {}) 0 ∧ cmdWord [0x1000] 1 % 4096 = 0 ∧ ((serving {}).inst 1).st = .free ∧ ((serving { st := .active, link := 1 }).inst 1).link ≠ 0 ∧
    cmdWord [0x1001, 5] 1 / 2 ^ 12 % 512 = 1 ∧ cmdWord [0x1001, 5] 2 % 2 ^ 20 ≠ 0 ∧ cmdWord [0x101001, 5] 1 / 2 ^ 12 % 512 = 257 ∧
    ((serving { st := .quiesced }).inst 1).st = .quiesced ∧ (serving { st := .quiesced }).inflight 1 = 0 ∧ (serving { st := .quiesced }).genWrap 1 = false ∧
    ((serving { st := .active }).inst 1).st = .active ∧ cmdWord [0xF001] 1 / 4096 % 32 = 15 ∧ cmdWord [0x10001] 1 / 4096 % 32 = 16 ∧ cmdWord [0x11001] 1 / 4096 % 32 = 17 ∧
    (serving { st := .quiesced }).stopped = false ∧ cmdWord [0x1001] 1 % 4096 ≠ 0 ∧ ((serving { st := .active }).inst 1).link = 0 ∧
    ((serving { st := .active }).inst 1).st ≠ .quiesced ∧ (serving { st := .active }).genWrap 1 = false ∧
    (⟨0, 0x14, 7, 1, 0, 0⟩ : HostCmd) ∈ ({ serving {} with hostCmds := [⟨0, 0x14, 7, 1, 0, 0⟩] } : State).hostCmds := by
  constructorm* _ ∧ _ <;> first | decide +kernel | exact serves_sound (by decide +kernel)

/-- An instance whose next generation is that of its oldest stale work. -/
theorem test_hyp_InstanceCommands_wrap :
    ({ serving { st := .quiesced, gen := 6, oldestStale := 7 } with ciphJobs := [{ job0 with inst := 1, gen := 7 }] } : State).genWrap 1 = true := by decide +kernel

theorem test_instances :
    ((after (.viCreate 0 7 [0x1001, 5]) (serving {})).inst 1).st = .active ∧
    ((after (.viCreate 0 7 [0x1001, 5]) (serving {})).mbox 16).ab.map (fun w => w.word) = [0x710, 1] ∧
    ((after (.viDbStop 0 7 [1]) (serving { st := .active })).inst 1).st = .quiesced ∧
    ((after (.viReset 0 7 [1]) (serving { st := .active })).inst 1).st = .resetting ∧
    ((after (.viDestroy 0 7 [1]) (serving { st := .active })).mbox 16).ab.map (fun w => w.word) = [0x30711] := by decide +kernel

/-- A queue pair of instance 1. -/
def pair0 (st : Nat) : QPair := { txq := 1, rxq := 1, work := false, worker := false, descDst := false, flowClass := 0, tc := 0, dst := 0, queue := 0, nexthop := 0, group := 0, bufSize := 1024, starve := 0, cb := 0x100, tx := { base := 0x1000, tail := 3 }, buf := {}, cpl := {}, st := st }

/-- Instance 1 is active with queue pair 2 in the state. -/
def withPair (st : Nat) : State := { serving { st := .active, qpMax := 3 } with qps := [(258, pair0 st)] }

/-- Words of QP_CREATE: rings of 64 entries, buffers of 1 KiB, all aligned; the same with a bad size; queue pair 2 and 3 of 3. -/
def create (loc lt : Nat) : List W32 := [BitVec.ofNat 32 (1 + 4096 * loc), 0, 0, BitVec.ofNat 32 (lt * 2 ^ 8 + 6 * 2 ^ 12 + 6 * 2 ^ 16 + 2 ^ 20), 0, 0x1000, 0, 0x100, 0, 0x2000, 0, 0x3000, 0]

theorem test_hyp_QueuePairCommands :
    Serves (withPair 1) 0 ∧ cmdWord (create 2 6) 1 % 4096 = 1 ∧ ((withPair 1).inst 1).st = .active ∧ ((withPair 1).inst 1).link = 0 ∧
    cmdWord (create 2 6) 4 / 2 ^ 8 % 16 = 6 ∧ cmdWord (create 2 5) 4 / 2 ^ 8 % 16 = 5 ∧ ((withPair 1).inst 1).qpMax = 3 ∧
    cmdWord (create 3 6) 1 / 4096 % 256 = 3 ∧ (withPair 1).qp 258 = some (pair0 1) ∧ (withPair 1).qp 257 = none ∧ (withPair 1).qps.length < 65536 ∧
    (pair0 0).st = 0 ∧ (pair0 1).st = 1 ∧ ((pair0 1).ring 0).src = none ∧ (pair0 2).deliv = [] ∧
    (cmdWord [0x2001, 0x00010000] 2 % 65536 < 2048 ∧ cmdWord [0x2001, 0x00010000] 2 / 65536 % 512 = 1 ∧ cmdWord [0x2001, 0x00010000] 3 % 1024 ≤ 1000) ∧
    2048 ≤ cmdWord [0x2001, 0x00010800] 2 % 65536 ∧ (Tab.get ({} : IrqEntry) ((withPair 1).host 0).msix1 0).owner = 0 ∧
    (Tab.get ({} : IrqEntry) ({ msix1 := [(0, { owner := 2 })] } : HostLink).msix1 0).owner = 2 := by
  constructorm* _ ∧ _ <;> first | decide +kernel | exact serves_sound (by decide +kernel)

/-- A draining queue pair that has served all, with its command; before and at the limit. -/
def draining (till : Nat) : State := { withPair 3 with hostCmds := [⟨0, 0x24, 7, 1, 2, till⟩], qps := [(258, { pair0 3 with work := true })] }

theorem test_hyp_QueuePairCommands_drain :
    (draining 0).stopped = false ∧ (draining 0).cmdWait = [] ∧ (draining 0).qp 258 = some { pair0 3 with work := true } ∧
    ({ pair0 3 with work := true } : QPair).deliv = [] ∧ (draining 0).qp 259 = none ∧
    ((pair0 3).tx.done ≠ (pair0 3).txLimit ∧ (pair0 3).work = false) ∧
    (∀ c ∈ (withPair 3).hostCmds, ¬(c.inst = 1 ∧ c.op = 0x24 ∧ c.loc = 2)) ∧ (draining 0).hostCmds = [⟨0, 0x24, 7, 1, 2, 0⟩] ∧
    ((draining 0).hostCmds.find? fun c => c.inst = (1 : Fin 4096).val ∧ c.op = 0x24) = some ⟨0, 0x24, 7, 1, 2, 0⟩ ∧ 0 ≤ (draining 0).ictNs ∧ (draining 1).ictNs < 1 ∧
    ((after (.qpDrainDone 1 2) (draining 0)).qp 258).map (fun q => (q.st, q.reason)) = some (2, 1) ∧
    ((after (.qpDrainTimeout 1 2) (draining 0)).mbox 16).ab.map (fun w => w.word) = [0x80724] := by decide +kernel

/-- An entry that belongs to another instance; a LOCAL at QP_COUNT. -/
def owned : State := (withPair 1).setHost 0 { (withPair 1).host 0 with msix1 := [(0, { owner := 2 })] }

theorem test_hyp_QueuePairCommands_owned :
    (Tab.get ({} : IrqEntry) (owned.host 0).msix1 0).owner = 2 ∧ (owned.qp 258).isSome = true ∧ owned.qp 259 = none ∧ (owned.inst 1).qpMax = 3 ∧
    ((after (.intrBind 0 7 [0x2001, 0x00010000, 0x400]) owned).mbox 16).ab.map (fun w => w.word) = [0x30726] ∧
    ((after (.qpStop 0 7 [0x3001]) owned).mbox 16).ab.map (fun w => w.word) = [0x40723] := by decide +kernel

theorem test_queue_pairs :
    ((after (.qpCreate 0 7 (create 1 6)) (withPair 1)).qp 257).map (fun q => (q.st, q.bufSize, q.txq)) = some (0, 1024, 0) ∧
    ((after (.qpStart 0 7 [0x2001]) (withPair 0)).qp 258).map (fun q => q.st) = some 1 ∧
    ((after (.qpStop 0 7 [0x2001]) (withPair 1)).qp 258).map (fun q => (q.st, q.reason)) = some (2, 1) ∧
    ((after (.qpDestroy 0 7 [0x2001]) (withPair 1)).qp 258).isSome = true ∧
    ((after (.intrBind 0 7 [0x2001, 0x00010000, 0x400]) (withPair 1)).qp 258).map (fun q => q.tx.src) = some (some ⟨false, 0, 1, 0, true, true, 0, none⟩) := by decide +kernel

/-! ### Device commands, rings, sessions, ingest -/

/-- Commands of the device: CAPTURE_EXPORT with and without Bus Master Enable, IMG_WRITE of no pages and of one into each slot,
an image that fails, one still to be read, fuses busy or not. -/
theorem test_hyp_DeviceCommands :
    Serves (serving {}) 0 ∧ (serving {}).canIssue 0 0 0 = false ∧
    ({ serving {} with hosts := [(0, { up := true, cfg := [(1, 6)] })] } : State).canIssue 0 0 0 = true ∧
    ¬(1 ≤ cmdWord [1, 0, 0, 0, 0] 5) ∧ (1 ≤ cmdWord [1, 0x3F00000, 0, 0, 1048576] 5 ∧ cmdWord [1, 0x3F00000, 0, 0, 1048576] 5 ≤ 1048576) ∧
    cmdWord [1, 0x3F00000, 0, 0, 1048576] 2 + cmdWord [1, 0x3F00000, 0, 0, 1048576] 5 ≤ 0x4000000 ∧
    cmdWord [1, 0, 0, 0, 1] 1 % 2 ≠ (serving {}).rf Reg.bootStatus bootStatus_SLOT ∧ cmdWord [0, 0, 0, 0, 1] 1 % 2 = (serving {}).rf Reg.bootStatus bootStatus_SLOT ∧
    ((serving {}).imageFault []).isSome = true ∧ (serving {}).rf Reg.pwrStatus pwrStatus_BUSY = 0 ∧ (serving {}).rf Reg.fuseResult fuseResult_BUSY = 0 ∧
    ((serving {}).setRf Reg.fuseResult fuseResult_BUSY 1).rf Reg.fuseResult fuseResult_BUSY = 1 := by
  constructorm* _ ∧ _ <;> first | decide +kernel | exact serves_sound (by decide +kernel)

/-- A message of two words, with an OP that firmware does not know, of which the last word is not yet visible. -/
theorem test_hyp_DeviceCommands_unknown :
    let s : State := { serving {} with mboxes := [(16, { ba := [⟨0x17F, false, true⟩] ++ [⟨5, true, false⟩] })] }
    s.stopped = false ∧ s.rf (Reg.devStatus ((0 : Fin 16).val / 8)) devStatus_READY = 1 ∧
    (s.mbox 16).ba = [⟨0x17F, false, true⟩] ++ [⟨5, true, false⟩] ∧ ([⟨0x17F, false, true⟩] ++ [⟨5, true, false⟩] : List MbWord).head? = some ⟨0x17F, false, true⟩ ∧
    (∀ y ∈ [(⟨0x17F, false, true⟩ : MbWord)], y.seen = true ∧ y.fin = false) ∧ 0x17F % 256 ∉ hostOps ∧ (s.mbox 16).ab.length < 16 ∧
    (s.mbox 16).openA < 16 ∧ (∀ r ∈ s.replies, r.1 ≠ 16) ∧
    ((after (.mailboxDeliver 16 false) s).mbox 16).ab.map (fun y => (y.word, y.fin)) = [(0x1017F, true)] := by
  decide +kernel

/-- A reset that has drained, and one with stale work at 1 ms. -/
def resetting (w : List CiphJob) (t : Nat) : State :=
  { serving { st := .resetting, gen := 2, resetAt := some 0 } with hostCmds := [⟨0, 0x14, 7, 1, 0, 0⟩], ciphJobs := w, clock := { ict := 2 ^ 24 * t } }

theorem test_hyp_DeviceCommands_reset :
    (resetting [] 0).stopped = false ∧ (resetting [] 0).cmdWait = [] ∧ ((resetting [] 0).inst 1).st = .resetting ∧ (resetting [] 0).staleWork 1 = 0 ∧
    ((resetting [] 0).hostCmds.find? fun c => c.inst = 1 ∧ c.op = 0x14) = some ⟨0, 0x14, 7, 1, 0, 0⟩ ∧
    (resetting [{ job0 with inst := 1, gen := 1 }] 1000000).staleWork 1 ≠ 0 ∧ 0 + 1000000 ≤ (resetting [{ job0 with inst := 1, gen := 1 }] 1000000).ictNs ∧
    (resetting [{ job0 with inst := 1, gen := 1 }] 999999).ictNs < 0 + 1000000 ∧
    ((after (.resetStaleDrained 1) (resetting [] 0)).mbox 16).ab.map (fun w => w.word) = [0x714, 2, 0] ∧
    ((after (.resetSlow 1) (resetting [{ job0 with inst := 1, gen := 1 }] 1000000)).inst 1).resetSlow = true := by decide +kernel

theorem test_device_commands :
    ((after (.devInfo 0 7) (serving {})).mbox 16).ab.map (fun w => w.word) = [0x701, 0, 0, 65536] ∧
    ((after (.captureExport 0 7 [0, 0, 4]) (serving {})).mbox 16).ab.map (fun w => w.word) = [0x731, 0, 0] ∧
    ((after (.clusterRestart 0 7 [0]) (serving {})).mbox 16).ab.map (fun w => w.word) = [0x730] ∧
    (after (.rollbackCommit 0 7 []) (serving {})).hostCmds.map (fun c => c.op) = [0x42] := by decide +kernel

/-- Link 0 up with Memory Space and Bus Master Enable, the device READY, and queue pair 2 of instance 1 in the state. -/
def ringing (st : Nat) : State := { withPair st with hosts := [(0, { up := true, cfg := [(1, 6), (1025, 6)] })] }

/-- Lengths that a doorbell lacks; an instance that is quiesced; a queue pair that runs or not; TAIL one on, unchanged, beyond the
ring, reserved, and the fetch form. -/
theorem test_hyp_Doorbells :
    ((ringing 1).host 0).up = true ∧ ((ringing 1).host 0).flr.getLsbD 1 = false ∧ (ringing 1).mse 0 1 = true ∧
    ({ ringing 1 with hosts := [(0, { up := true })] } : State).mse 0 1 = false ∧ ((perst true 2).host 0).flr.getLsbD 1 = true ∧
    ¬((5 : Nat) = 4 ∨ ((5 : Nat) = 8 ∧ (0 : Nat) ≠ 1)) ∧ ¬((8 : Nat) = 4 ∨ ((8 : Nat) = 8 ∧ (1 : Nat) ≠ 1)) ∧
    ((serving { st := .quiesced }).inst 1).st ≠ .active ∧ ((ringing 1).inst 1).st = .active ∧ (ringing 1).rf (Reg.devStatus 0) devStatus_READY = 1 ∧
    ((ringing 1).inst 1).link = 0 ∧
    (ringing 1).dstate 0 1 = 0 ∧ (ringing 1).qp 257 = none ∧ (ringing 1).qp 258 = some (pair0 1) ∧ (pair0 2).st ≠ 1 ∧ (pair0 2).st ≠ 3 ∧ ((pair0 1).ring 0).tail = 3 ∧
    ((4 + 32768 - ((pair0 1).ring 0).tail % 32768) % 32768 ≤ 2 ^ ((pair0 1).ring 0).log2 ∧ (4 + 32768 - ((pair0 1).ring 0).pub % 32768) % 32768 ≤ 2 ^ ((pair0 1).ring 0).log2) ∧
    ((0x7FFF + 32768 - ((pair0 1).ring 2).tail % 32768) % 32768 ≤ 2 ^ 15 ∧ ¬((((pair0 1).ring 2).pub + 32768 - 0x7000 % 32768) % 32768 ≤ 2 ^ ((pair0 1).ring 2).log2)) ∧
    ¬((68 + 32768 - 3 % 32768) % 32768 ≤ 2 ^ ((pair0 1).ring 0).log2) ∧ (0x8000 : W64).getLsbD 16 = false ∧ (0x20000 : W64).getLsbD 16 = false ∧
    (ringing 1).canIssue 0 1 0 = true ∧ (withPair 1).canIssue 0 1 0 = false := by decide +kernel

theorem test_doorbells :
    ((after (.doorbellTx 0 1 2 4 4) (ringing 1)).qp 258).map (fun q => q.tx.tail) = some 4 ∧
    ((after (.doorbellTx 0 1 2 4 68) (ringing 1)).qp 258).map (fun q => (q.st, q.reason)) = some (2, 5) ∧
    ((after (.doorbellBuf 0 1 2 4 1) (ringing 2)).inst 1).dbBad = 1 ∧
    ((after (.doorbellCpl 0 1 2 4 0xFFFF) (ringing 1)).xfers.map fun e => e.2.addr) = [0x180] := by decide +kernel

/-- A source of four events, whose count ends at 2 µs. -/
def source (armed : Bool) (n : Nat) : IntrSrc := ⟨false, 0, 4, 2, true, armed, n, some 2000⟩

/-- Queue pair 2 changed by `f`, at the time. -/
def ringAt (ns : Nat) (f : QPair → QPair) : State := { ringing 1 with qps := [(258, f (pair0 1))], clock := { ict := 2 ^ 24 * ns } }

/-- A work ring; no source, one unarmed, without events, before and at its end; a descriptor to read, and none; a chain read whole;
deliveries that have waited STARVE and that have not; buckets with a rate and without one. -/
theorem test_hyp_RingEvents :
    ((ringAt 0 id).stopped = false ∧ (ringAt 0 id).qp 257 = none ∧ (ringAt 0 id).qp 258 = some (pair0 1) ∧ (ringAt 0 id).canIssue 0 1 0 = true ∧
      (ringAt 0 id).dstate 0 1 = 0 ∧ (pair0 1).cb % 256 = 0 ∧ (withPair 1).canIssue 0 1 0 = false ∧ ¬((0 : Fin 3).val = 0 ∧ (pair0 1).work = true)) ∧
    (((pair0 1).ring 1).src = none ∧ (source true 4).armed = true ∧ (source false 4).armed = false ∧ (source true 0).events = 0 ∧
      ((source true 1).events < (source true 1).modCount ∧ ¬(2000 ≤ (ringAt 1999 id).ictNs)) ∧ (source true 1).till = some 2000 ∧ 2000 ≤ (ringAt 2000 id).ictNs) ∧
    (¬((pair0 1).work = true ∨ (pair0 1).busy = true ∨ (pair0 1).ready = true ∨ ((pair0 1).st ≠ 1 ∧ (pair0 1).st ≠ 3) ∨ (pair0 1).tx.next = (pair0 1).drainTail.getD (pair0 1).tx.tail) ∧
      ((pair0 2).st ≠ 1 ∧ (pair0 2).st ≠ 3) ∧ (pair0 1).ready = false ∧ bit (txFlags (([List.replicate 32 (0 : Byte)]).headD [])) 2 = false) ∧
    (0 + 1000 * 2 ≤ (ringAt 2000 id).ictNs ∧ (ringAt 1999 id).ictNs < 0 + 1000 * 2) ∧
    ((ringAt 0 id).inst 1).intrRate = 0 ∧ ((serving { intrRate := 5 }).inst 1).intrRate ≠ 0 ∧ ((serving { intrRate := 5 }).inst 1).held = [] := by
  decide +kernel

theorem test_ring_events :
    ((after (.txDescriptorFetch 1 2) (ringAt 2000 id)).xfers.map fun e => (e.2.addr, e.2.left)) = [(0x1000, 32)] ∧
    ((after (.headPublish 1 2 0) (ringAt 2000 id)).out.length = 1) ∧
    ((after (.starveExpire 1 2) (ringAt 2000 fun q => { q with starve := 2, deliv := [⟨1, 1, none, [], none, some 0⟩] })).qp 258).map (fun q => (q.drops, q.deliv.length)) = some (1, 0) ∧
    ((after (.modTimeExpire 1 2 0) (ringAt 2000 fun q => { q with tx := { q.tx with src := some (source true 1) } })).qp 258).map (fun q => q.tx.src.map fun y => y.events) = some (some 0) ∧
    (after (.txChainAttach 1 2) (ringAt 2000 fun q => { q with ready := true, chain := [List.replicate 32 0], data := List.replicate 60 1 })).nextFrame = 1 ∧
    ((after (.intrRateRefill 1) { serving { intrRate := 5, intrBurst := 1 } with clock := { ict := 2 ^ 24 * 1000 } }).inst 1).tokens = 5 := by decide +kernel

/-- A frame with a context number, at a session unit. -/
def sts (c : Nat) (a : Bool) (kind : Nat) : State :=
  { booted with frames := [(1, frame1.sf sfCtx c)], stsIn := if a then [(0, [1])] else [], stsOut := if a then [] else [(0, [1])],
                mem := if kind = 0 then [] else [(0x08000000, BitVec.ofNat 8 kind)] }

/-- A segment whose context waits in the extension, names nothing, is free, is a connection without TCP; a context that enters. -/
theorem test_hyp_SessionUnits :
    (sts 131072 true 0).stopped = false ∧ (sts 131072 true 0).accepts 0x42 = true ∧ Tab.get [] (sts 131072 true 0).stsIn 0 = [1] ∧ ((sts 131072 true 0).frame 1).gf sfCtx = 131072 ∧
    131072 ∉ Tab.get [] (sts 131072 true 0).ctxCache 0 ∧ ((booted.setRf (Reg.cbRegion 1) cbRegion_SIZE 1).ctxAddr 131072).isSome = true ∧ ((sts 0xFFFFF true 0).frame 1).gf sfCtx = 0xFFFFF ∧ ((sts 0xFFFFF true 0).ctxAddr 0xFFFFF).isNone = true ∧
    ((sts 0 true 0).ctxAddr 0).isNone = false ∧ (sts 0 true 0).ctxLost 0 = false ∧ (sts 0 true 0).ctxKind 0 = 0 ∧
    (sts 0 true 1).stsRefuse (((sts 0 true 1).frame 1)) = none ∧ tcpSpan ((sts 0 true 1).frame 1) = none ∧ Tab.get [] (sts 0 false 1).stsOut 0 = [1] ∧
    (sts 0 false 0).stsRefuse ((sts 0 false 0).frame 1) = some 0x13 ∧
    ((booted.setRf (Reg.cbRegion 1) cbRegion_SIZE 1).ctxAddr 131072).isNone = false ∧ 131072 / 8192 % 16 = 0 ∧
    Tab.get [] (after (.contextFetchComplete 0 131072) (booted.setRf (Reg.cbRegion 1) cbRegion_SIZE 1)).ctxCache 0 = [131072] := by decide +kernel

theorem test_sessions :
    (after (.stsArrival 0) (sts 0xFFFFF true 0)).frames = [] ∧ (after (.stsArrival 0) (sts 0xFFFFF true 0)).rd (Reg.excCnt 0x13) = 1 ∧
    (after (.stsArrival 0) (sts 0 true 1)).groupQ 0 = [1] ∧ (after (.stsArrival 0) ((sts 131072 true 0).setRf (Reg.cbRegion 1) cbRegion_SIZE 1)).stsIn = [(0, [1])] := by decide +kernel

/-- Context 5 of kind 3 in engine 0: one data shard of 64 KiB on link 0, and the job open under it. -/
def store (j : List StoreJob) : State :=
  { (booted.stBytes 0x08000500 ([3, 0, 0, 0, 0, 0, 0, 0] ++ leBytes 8 65536 ++ List.replicate 8 0 ++ List.replicate 8 0 ++ leBytes 4 1)) with
    jobs := j.map fun x => (5, x) }

/-- A job of engine 0 in its data phase, with a read command outstanding. -/
def open5 (cmds : List ShelfCmd) (ops : List UnitOp) : StoreJob :=
  { kind := 3, eng := 0, inst := 0, gen := 0, phase := .data, cmds := cmds, ops := ops }

/-- A read of units 0 and 1 of shard 0. -/
def cmd9 : ShelfCmd := { num := 9, op := 4, w := false, shard := 0, unit := 0, count := 2, data := [], sentAt := 0 }

/-- OPEN of a context that is absent, free, open, refused and good; ABORT with and without a job; a halt. -/
theorem test_hyp_IngestJobs :
    (store []).stopped = false ∧ (store []).halting = false ∧ ({ store [] with power := { trans := some ⟨true, 2, 0, false, 0⟩ }, clock := { ict := 2 ^ 24 * 10000 } } : State).halting = true ∧
    Open (store []) (Reg.jobCmd 0 16) ∧ ((store []).ctxAddr 0xFFFFF).isNone = true ∧ (store []).ctxKind 6 < 3 ∧ ((store [open5 [] []]).job 5).isSome = true ∧
    (store []).ctxKind 5 = 3 ∧ (store []).openCode 0 5 = 0 ∧ (store []).openCode 1 5 ≠ 0 ∧ (store [open5 [] []]).job 5 = some (open5 [] []) ∧ (open5 [] []).eng / 4 = 0 := by
  unfold Open; decide +kernel

theorem test_open_abort :
    ((after (.jobOpen 0 0 5) (store [])).job 5).map (fun j => j.kind) = some 3 ∧ (after (.jobOpen 0 0 5) (store [])).rf (Reg.jobResult 0 0) jobResult_CODE = 0 ∧
    (after (.jobAbort 0 0 6) (store [])).rf (Reg.jobResult 0 0) jobResult_CODE = 4 := by decide +kernel

/-- A segment at an ingest island: fenced, without a shaper due, with one due that is open and one that is not. -/
def segment (i d : Nat) : State :=
  { booted with frames := [(1, (frame1.sf sfInstance i).sf sfSvc d)], ingIn := [(0, [1])] }

/-- The shaper of index 0 at ingest island 0 holds a balance below zero. -/
def shut (s : State) : State :=
  (s.setRf (shaperCfgAddr 0x5B 0) tmShaperCfg_EN 1).setRf (shaperBalAddr 0x5B 0) tmShaperBal_BAL (2 ^ 48 - 1)

theorem test_hyp_IngestJobs_segment :
    (segment 0 0).stopped = false ∧ (segment 0 0).accepts 0x5B = true ∧ Tab.get [] booted.ingIn 0 = [] ∧
    Tab.get [] (segment 0 0).ingIn 0 = [1] ∧ (segment 5 0).fence ((segment 5 0).frame 1) = some 3 ∧ (segment 0 0).fence ((segment 0 0).frame 1) = none ∧
    ((segment 0 0).frame 1).shpDue = false ∧ ((segment 0 0x3FFF).frame 1).shpDue = true ∧
    ((segment 0 0x3FFF).refillShapers 0x5B).shaperOpen 0x5B ((segment 0 0x3FFF).ctxN (((segment 0 0x3FFF).frame 1).gf sfCtx) 6 1) = true ∧
    ((shut (segment 0 0x3FFF)).refillShapers 0x5B).shaperOpen 0x5B ((shut (segment 0 0x3FFF)).ctxN (((shut (segment 0 0x3FFF)).frame 1).gf sfCtx) 6 1) = false := by
  decide +kernel

/-- A SEC operation of context 5 for unit 0 of shard 0: of a write or a read, of one shard or one frame, with no bytes. -/
def secOp (w single : Bool) (fid : Option Nat) : SecOp := ⟨5, w, single, 0, 0, 512, 0, [], fid, 0⟩

/-- The operation as a bulk operation that runs with its latch, or has stopped with `fail`, and the job open under it. -/
def secJob (x : SecOp) (fail : Option Nat) (ops : List UnitOp) : State :=
  { store [{ open5 [] ops with kind := 4 }] with ciphJobs := [{ running0 with sec := some x, fail := fail, src := none }], frames := [(1, frame1)] }

/-- Operations of SEC: none that can end; one stopped; one of a frame and one of a job of an old generation, a write with another to
come, and a read. -/
theorem test_hyp_IngestJobs_sec :
    (store []).stopped = false ∧ (∀ j ∈ (store []).ciphJobs, ∀ x, j.sec = some x → x.ctx = 5 → j.running = false ∧ j.fail = none) ∧
    (secJob (secOp true false none) (some 7) []).secReady 5 = some ({ running0 with sec := some (secOp true false none), fail := some 7, src := none }, secOp true false none) ∧
    (secJob (secOp true true (some 1)) none []).secReady 5 = some ({ running0 with sec := some (secOp true true (some 1)), src := none }, secOp true true (some 1)) ∧
    (secOp true false none).single = false ∧ (secOp true true (some 1)).single = true ∧ (secOp true true (some 1)).fid = some 1 ∧
    (secJob (secOp true false none) none []).job 5 = some { open5 [] [] with kind := 4 } ∧
    (secJob (secOp true false none) none []).jobFresh { open5 [] [] with gen := 1 } = false ∧ (secJob (secOp true false none) none []).jobFresh (open5 [] []) = true ∧
    (∃ o ∈ [(⟨true, 1, 0, [], none⟩ : UnitOp)], o.w = true) ∧ (secOp false false (some 1)).fid = some 1 := by
  decide +kernel

theorem test_sec :
    ((after (.secUnitOp ⟨5, false⟩) (secJob (secOp true false none) none [⟨true, 0, 0, [], none⟩, ⟨true, 1, 0, [], none⟩])).job 5).map (fun j => (j.ops.length, j.ready)) =
      some (1, [⟨true, 0, 0, [], none⟩]) ∧
    (after (.secUnitOp ⟨5, true⟩) (secJob (secOp true false none) none [])).jobs.length = 0 := by decide +kernel

/-- Shelf commands: a time-out at and before 10 ms, a retry that is due and one that is not, answers OK, BUSY and failed, and a
good unit. -/
theorem test_hyp_IngestJobs_shelf :
    ((open5 [cmd9] []).cmds.find? fun x => x.num = (9 : BitVec 12).toNat) = some cmd9 ∧ (∀ x ∈ (open5 [cmd9] []).cmds, x.num ≠ (8 : BitVec 12).toNat) ∧
    (store []).ctxN 5 0x4C 4 % 2 ^ 24 = 0 ∧ (store []).ictNs < cmd9.sentAt + 1000 * 10000 ∧
    0 + 1000 * 10000 ≤ ({ store [] with clock := { ict := 2 ^ 24 * 10 ^ 7 } } : State).ictNs ∧ cmd9.retryAt = none ∧ cmd9.data = [] ∧
    (store []).cmdExpired 5 cmd9 = false ∧ ({ store [] with clock := { ict := 2 ^ 24 * 10 ^ 7 } } : State).cmdExpired 5 cmd9 = true ∧
    ({ cmd9 with retryAt := some 10000 }.retryAt = some 10000 ∧ (store []).ictNs < 10000 ∧ 10000 ≤ ({ store [] with clock := { ict := 2 ^ 24 * 10 ^ 7 } } : State).ictNs) ∧
    leNat (slice ([0, 0, 0, 0] ++ leBytes 4 (5 + 9 * 2 ^ 20) : List Byte) 4 4) % 2 ^ 20 = 5 ∧ leNat (slice ([0, 0, 0, 0] ++ leBytes 4 (5 + 9 * 2 ^ 20) : List Byte) 4 4) / 2 ^ 20 = 9 ∧
    byteAt ([7, 0, 0, 0] : List Byte) 0 = 7 ∧ cmd9.busy < 8 ∧ cmd9.w = false ∧ cmd9.op = 4 ∧ cmd9.got < cmd9.count ∧
    (byteAt ([2, 0, 0, 0] : List Byte) 0 ≠ 0 ∧ byteAt ([2, 0, 0, 0] : List Byte) 0 ≠ 7) ∧ (∀ m ∈ (store []).unitIn, m.1 ≠ 0) ∧
    ((store []).sideOf 5 false).u = 512 ∧ ((List.replicate 512 (0 : Byte)) ++ leBytes 8 0 ++ leBytes 8 0).length = 512 + 16 ∧
    crc64n (List.replicate 16 0) = leNat (leBytes 8 (crc64n (List.replicate 16 0))) := by decide +kernel

/-- A unit of the wrong length fails its check; a shelf that answers BUSY is asked again. -/
theorem test_shelf :
    ((after (.unitArrival 0 5 9) { store [open5 [cmd9] []] with unitIn := [(0, [1, 2, 3])] }).job 5).map (fun j => (j.ops.length, j.badMask)) = some (0, 1) ∧
    ((after .shelfResponse { store [open5 [cmd9] []] with shelfResps := [(0, [7, 0, 0, 0] ++ leBytes 4 (5 + 9 * 2 ^ 20))] }).job 5).map (fun j => j.cmds.map fun x => x.busy) = some [1] := by decide +kernel

/-! ### Ferry, Hamper links and the pair -/

/-- Ferry channel 20 with its configuration, STATE and TAIL, and what it holds beyond them. -/
def channel (en log mode st tail : Nat) (f : Ferry) : State :=
  { ((((booted.setRf (ferryAddr 20 0) ferryCfgN_EN en).setRf (ferryAddr 20 0) ferryCfgN_LOG2_ENTRIES log).setRf (ferryAddr 20 0) ferryCfgN_MODE mode).setRf
      (ferryAddr 20 0x10) ferryStatusN_STATE st).setRf (ferryAddr 20 8) ferryTailN_TAIL tail with ferry := if f = {} then [] else [(20, f)] }

/-- Eight bytes from 0x08000000 to 0x08000100. -/
def desc8 : FerryDesc := ⟨0x08000000, 0x08000100, 8, 0, 0, 0⟩

/-- The beat of `desc8` issued. -/
def beating (stop : Bool) : Ferry := { desc := some desc8, issued := some (0, 8), stop := stop }

/-- A writer that reaches the channel and one without power; enable of a small ring, of a channel that is on, of one that is
off; TAIL one and seventeen on; START and STOP in each STATE and MODE. -/
theorem test_hyp_FerryChannels :
    ({ booted with boot := { phase := .off } } : State).canWrite (writerInit .debug) (ferryAddr 20 0) = false ∧ (channel 1 4 0 0 0 {}).halting = false ∧
    (channel 1 4 0 1 0 (beating false)).ferryTurnOf 20 = true ∧ (channel 1 4 0 0 0 {}).ferryTurnOf 20 = false ∧
    FerryOpen (channel 1 4 0 0 0 {}) .debug 20 ∧ (channel 0 3 0 0 0 {}).fCfg 20 ferryCfgN_LOG2_ENTRIES < 4 ∧ (channel 0 4 0 0 0 {}).fCfg 20 ferryCfgN_EN = 0 ∧
    ((channel 0 4 0 0 0 {}).ferryCh 20).named = [] ∧ (channel 1 4 0 0 0 {}).fCfg 20 ferryCfgN_EN = 1 ∧ 4 ≤ (channel 1 4 0 0 0 {}).fCfg 20 ferryCfgN_LOG2_ENTRIES ∧
    (channel 1 4 0 1 0 {}).fStat 20 ferryStatusN_STATE = 1 ∧ (channel 1 4 0 2 0 {}).fStat 20 ferryStatusN_STATE = 2 ∧ (channel 1 4 1 3 0 {}).fStat 20 ferryStatusN_STATE = 3 ∧
    (channel 1 4 1 0 0 {}).fCfg 20 ferryCfgN_MODE = 1 ∧ (channel 1 4 0 0 0 {}).fCfg 20 ferryCfgN_MODE = 0 ∧
    2 ^ 4 < (17 + 65536 - (channel 1 4 0 0 0 {}).fHead 20) % 65536 ∧ (16 + 65536 - (channel 1 4 0 0 0 {}).fHead 20) % 65536 ≤ 2 ^ 4 ∧
    (channel 1 4 0 0 0 {}).fTail 20 = (channel 1 4 0 0 0 {}).fHead 20 ∧ (1 : Nat) = ((channel 1 4 0 0 0 {}).fHead 20 + 1) % 65536 ∧
    ((channel 1 4 0 0 0 {}).ferryCh 20).desc = none ∧ ((channel 1 4 0 0 0 {}).ferryCh 20).stop = false ∧ ((channel 1 4 0 0 0 {}).ferryCh 20).disable = false ∧
    (channel 1 4 0 0 0 {}).addrLost ((channel 1 4 0 0 0 {}).ferryEntry 20 0) = false ∧ bit ((channel 1 4 0 0 0 {}).ferryRead ((channel 1 4 0 0 0 {}).ferryEntry 20 0)).ctrl 31 = false ∧
    ((channel 1 4 0 1 0 { disable := true }).ferryCh 20).disable = true ∧ (channel 1 4 0 1 0 (beating false)).pstate < 2 ∧
    ((channel 1 4 0 1 0 (beating false)).ferryCh 20).desc = some desc8 ∧ ((channel 1 4 0 1 0 (beating false)).ferryCh 20).issued = some (0, 8) ∧ desc8.srcSpace = 0 ∧
    desc8.dstSpace = 0 ∧ desc8.srcWrap = 0 ∧ desc8.dstWrap = 0 ∧ (beating false).obs = false ∧ ((channel 1 4 0 1 0 { disable := true }).ferryCh 20).issued = none ∧
    ((channel 1 4 0 1 0 { disable := true }).ferryCh 20).named = [] := by
  unfold FerryOpen OpenTo Open; decide +kernel

theorem test_ferry :
    (after (.ferryChEnable .debug 20) (channel 0 4 0 2 0 {})).fStat 20 ferryStatusN_STATE = 0 ∧
    (after (.ferryTailWrite .debug 20 1) (channel 1 4 0 0 0 {})).fStat 20 ferryStatusN_CAUSE = 1 ∧
    (after (.ferryBeat 20 false) { channel 1 4 0 1 0 (beating false) with mem := [(0x08000003, 9)] }).ldByte 0x08000103 = 9 ∧
    (after (.ferryChDisabled 20) (channel 1 4 0 1 0 { disable := true })).fCfg 20 ferryCfgN_EN = 0 := by decide +kernel

/-- Link 2 enabled or not, up or not, with what it holds, at 1 s. -/
def hamper (en up : Nat) (x : HLink) : State :=
  { (booted.setRf (hlAddr 2 0) hlCfg_EN en).setRf (hlAddr 2 4) hlStatus_UP up with hlinks := if x = {} then [] else [(2, x)], clock := { ict := 2 ^ 24 * 10 ^ 9 } }

/-- A message of 300 bytes. -/
def msg300 : HMsg := { sub := {}, bytes := List.replicate 300 5 }

/-- A flit that alone is a message of four bytes on channel 1, as the sender makes it. -/
def flit4 : List Byte := flitBytes 1 true true 1 0 0 {} [1, 2, 3, 4]

set_option maxRecDepth 20000 in
/-- Links that reach their registers; off, on, and up; the limits of the training and of a silence; a flit that is whole, one that is
not, and a control flit; a message of each channel; a channel with and without credits, in and out of its turn. -/
theorem test_hyp_HamperLinks :
    (Open (hamper 0 0 {}) (hlAddr 2 0) ∧ Open (hamper 0 0 {}) (hlAddr 2 0x108) ∧ ((hamper 0 0 {}).island 0x65).power ≠ .off ∧
      ({ hamper 0 0 {} with isl := [(0x65, { power := .off })] } : State).island 0x65 = { power := .off } ∧
      (hamper 1 1 { flitAt := 10 ^ 9 - 9999 }).ictNs < ((hamper 1 1 { flitAt := 10 ^ 9 - 9999 }).hl 2).flitAt + 10000 ∧
      ((hamper 1 1 { flitAt := 10 ^ 9 - 10000 }).hl 2).flitAt + 10000 ≤ (hamper 1 1 {}).ictNs) ∧
    ((hamper 1 1 { vcs := [(0, { txq := [msg300], credits := 1 })] }).vcTurn 2 0 = true ∧
      (hamper 1 1 { turn := 0, vcs := [(0, { txq := [msg300], credits := 1 }), (1, { txq := [msg300], credits := 1 })] }).vcTurn 2 0 = false ∧
      (hamper 1 1 {}).vcTurn 2 0 = true) ∧
    (hamper 0 0 {}).pairOn = false ∧ (hamper 0 0 {}).hlEn 2 = false ∧ (hamper 1 0 {}).hlEn 2 = true ∧ (hamper 1 0 {}).hlUp 2 = false ∧ (hamper 1 1 {}).hlUp 2 = true ∧
    ((hamper 1 0 {}).hl 2).trainAt + 500000000 ≤ (hamper 1 0 {}).ictNs ∧ (hamper 1 0 { trainAt := 10 ^ 9 }).ictNs < ((hamper 1 0 { trainAt := 10 ^ 9 }).hl 2).trainAt + 500000000 ∧
    (∀ e ∈ ((hamper 1 1 {}).hl 2).vcs, e.2.txq = []) ∧ (hamper 1 1 {}).stopped = false ∧
    flitCheck ((slice flit4 0 256).take 14) ((slice flit4 0 256).drop 16) = leNat (slice (slice flit4 0 256) 14 2) ∧ leNat (slice flit4 0 4) / 16 % 256 = 4 ∧
    flitCheck ((slice (flit4.set 20 9) 0 256).take 14) ((slice (flit4.set 20 9) 0 256).drop 16) ≠ leNat (slice (slice (flit4.set 20 9) 0 256) 14 2) ∧
    leNat (slice (flitBytes 0 false false 0 0 0 {} []) 0 4) / 16 % 256 = 0 ∧ bit (leNat (slice flit4 0 4)) 2 = true ∧ bit (leNat (slice flit4 0 4)) 3 = true ∧
    leNat (slice flit4 0 4) / 2 ^ 12 % 1024 = (((hamper 1 1 {}).hvc 2 1).rxCnt + 1) % 1024 ∧ (((hamper 1 1 {}).hlCount 2 1).hvc 2 1).part = none ∧ (((hamper 1 1 {}).hlCount 2 1).hvc 2 1).partFlits = 0 ∧
    ({ mu := 1, fmtGen := 5 } : HSubset).mu = 1 ∧ (hamper 1 1 {}).rf Reg.fmtGen fmtGen_GMAX < 5 ∧ ({} : HSubset).mu ≠ 1 ∧
    ((hamper 1 1 { rx := [(0, {}, [1], 1)] }).hl 2).rx = [(0, {}, [1], 1)] ∧ (hamper 1 1 {}).isShelf 2 = true ∧
    ({ hamper 1 1 {} with jobs := [(5, open5 [{ cmd9 with op := 4 }] [])] } : State).unitsDue ((({ hamper 1 1 {} with jobs := [(5, open5 [{ cmd9 with op := 4 }] [])] } : State).sideOf 5 false).link 0) = true ∧
    (hamper 1 1 {}).rf (hlAddr 2 0x110) hlFwrxCfg_EN = 0 ∧ ((hamper 1 1 {}).hvc 2 0).txq = [] ∧ ((hamper 1 1 { vcs := [(0, { txq := [msg300], credits := 1 })] }).hvc 2 0).txq = [msg300] ∧
    msg300.sent + 240 < msg300.bytes.length ∧ ((hamper 1 1 { vcs := [(0, { txq := [msg300] })] }).hvc 2 0).credits = 0 ∧
    0 + 100000 ≤ (hamper 1 1 {}).ictNs ∧ (hamper 1 1 {}).rf (hlAddr 2 0x100) hlFwtxCfg_EN = 0 := by
  unfold Open
  constructorm* _ ∧ _ <;> decide +kernel

set_option maxRecDepth 20000 in
theorem test_hamper :
    ((after (.flitReceive 2 ⟨flit4, 0, 0⟩) (hamper 1 1 {})).hl 2).rx.map (fun m => (m.1, m.2.2.1)) = [(1, [1, 2, 3, 4])] ∧
    (after (.flitReceive 2 ⟨flit4.set 20 9, 0, 0⟩) (hamper 1 1 {})).rdN (hlAddr 2 (0x800 + 16)) 2 = 1 ∧
    ((after (.flitSend 2 0) (hamper 1 1 { vcs := [(0, { txq := [msg300], credits := 1 })] })).hvc 2 0).credits = 0 ∧
    (after (.hamperVcStalled 2 0) (hamper 1 1 { vcs := [(0, { txq := [msg300] })] })).hlUp 2 = false ∧
    (after (.trainRetry 2) (hamper 1 0 {})).rdN (hlAddr 2 (0x800 + 56)) 2 = 1 := by decide +kernel

/-- A unit of a pair: MODE, ROLE, and what the pair controller holds beyond its registers, at 1 s; PREF is 8 and HOLDOFF zero. -/
def paired (mode role : Nat) (x : Pair) : State :=
  { (((((booted.setRf Reg.pairCtl pairCtl_EN 1).setRf Reg.pairCtl pairCtl_AUTO_FAILBACK 1).setRf Reg.pairCfg pairCfg_MODE mode).setRf Reg.pairStatus pairStatus_ROLE role).setRf
      Reg.pairCfg pairCfg_PREF 8).setRf Reg.pairStatus pairStatus_HEALTH 200 with pair := x, clock := { ict := 2 ^ 24 * 10 ^ 9 } }

/-- A PAIR_STATE of a peer in STARTING without a claim, a HANDOVER_REQ and a HANDOVER_ACK. -/
def pairMsg (op : Byte) : List Byte := [op, 1] ++ List.replicate 14 0

theorem test_hyp_PairHeartbeat :
    (paired 0 2 {}).role < 3 ∧ (paired 0 4 {}).role = 4 ∧ (paired 1 4 {}).pairMode = 1 ∧ booted.pairOn = false ∧ (paired 0 2 {}).pairOn = true ∧
    (0 + 100000 ≤ (paired 0 2 {}).ictNs ∧ (paired 0 2 { saidAt := 10 ^ 9 - 99999 }).ictNs < (10 ^ 9 - 99999) + 100000 ∧
      0 + 250000 ≤ (paired 0 4 {}).ictNs ∧ (paired 0 4 { claimAt := 10 ^ 9 - 249999 }).ictNs < (10 ^ 9 - 249999) + 250000) ∧
    ((paired 0 1 {}).role = 1 ∧ (paired 0 1 {}).pair.seen = false ∧ (paired 0 1 { seen := true }).pair.seen = true ∧
      (paired 0 1 { lost := some 0 }).pair.lost = some 0 ∧ (paired 0 2 {}).rf Reg.pairStatus pairStatus_ELIGIBLE = 0 ∧
      ((paired 0 2 {}).setRf Reg.pairStatus pairStatus_ELIGIBLE 1).rf Reg.pairStatus pairStatus_ELIGIBLE = 1 ∧
      ((paired 1 3 {}).role = 3 ∧ (paired 1 3 {}).pairMode ≠ 0 ∧ (paired 1 3 {}).pins.holdOut = false)) ∧
    ((paired 0 2 {}).ictNs / 1000000000 = (paired 0 2 { eccWin := 1 }).pair.eccWin ∧ (paired 0 2 {}).ictNs / 1000000000 ≠ (paired 0 2 {}).pair.eccWin) ∧
    ((paired 0 2 {}).setRf (hlAddr 5 4) hlStatus_UP 1).hlUp 5 = true ∧ leNat (slice (pairMsg 0x19) 0 1) ≠ 0x18 ∧ leNat (slice (pairMsg 0x18) 0 1) = 0x18 ∧
    (paired 0 2 { inbox := [pairMsg 0x18] }).pair.inbox = [pairMsg 0x18] ∧ (paired 0 2 { peerRole := 4 }).pair.lost = none ∧ 3 ≤ (paired 0 2 { peerRole := 4 }).pair.peerRole ∧
    (paired 0 2 {}).pair.peerAt = none ∧ (10 ^ 9 - 500000) + 500000 ≤ (paired 0 2 { peerAt := some (10 ^ 9 - 500000) }).ictNs ∧
    (paired 0 2 { peerAt := some (10 ^ 9 - 499999) }).ictNs < (10 ^ 9 - 499999) + 500000 ∧
    (((paired 0 2 {}).setRf Reg.pairCfg pairCfg_HOST_MASK 1).rf Reg.pairCfg pairCfg_HOST_MASK).testBit 0 = true ∧ ((paired 0 2 {}).host 0).up = false ∧
    ((paired 0 2 {}).host 0).lostAt + 100000000 ≤ (paired 0 2 {}).ictNs ∧ ((paired 0 2 {}).cluster 0).detections = [] ∧
    (({ paired 0 2 {} with clusters := [(0, { detections := [0] })] } : State).cluster 0).detections.getLast? = some 0 ∧
    (paired 0 2 {}).rf (Reg.staleStatus 0) staleStatus_CLEARED = 1 ∧
    ((paired 0 2 {}).setRf (Reg.staleStatus 0) staleStatus_CLEARED 0).rf (Reg.staleStatus 0) staleStatus_CLEARED = 0 := by decide +kernel

theorem test_pair_heartbeat :
    (after .pairState (paired 0 2 { peerRole := 4, inbox := [pairMsg 0x18] })).pair.peerRole = 1 ∧
    (after .pairPeerSilence (paired 0 2 { peerRole := 4, peerAt := some 0 })).pair.peerAt = none ∧
    (after .eccWindowEnd (paired 0 2 { eccErrs := 65536 })).pair.eccErrs = 0 := by decide +kernel

/-- The interlock free for 10 µs, a collision, a request to fail back, a HANDOVER_REQ and a HANDOVER_ACK, and the time limits. -/
theorem test_hyp_PairHandover :
    ((paired 1 3 {}).role = 3 ∧ (paired 1 3 {}).pairMode ≠ 0 ∧ (paired 1 3 {}).pins.holdOut = false ∧ (paired 1 3 {}).pins.holdIn = false ∧ (paired 1 3 {}).pair.backoff = none ∧
      (paired 1 3 {}).rf Reg.pairStatus pairStatus_HEALTH ≠ 0 ∧ max (paired 1 3 {}).pair.holdFreeAt (paired 1 3 {}).pair.roleAt + 10000 ≤ (paired 1 3 {}).ictNs) ∧
    (paired 1 3 { backoff := some 5 }).pair.backoff = some 5 ∧ (5 : Nat) ≤ (paired 1 3 { backoff := some 5 }).ictNs ∧
    (paired 1 3 {}).power.armed = false ∧ (paired 1 3 {}).power.trans = none ∧ (paired 1 3 {}).pair.holdOutAt = none ∧
    (paired 1 3 { holdOutAt := some (10 ^ 9 - 9999) }).ictNs < (10 ^ 9 - 9999) + 10000 ∧ (paired 1 2 { peerRole := 4 }).pair.lost = none ∧
    (paired 1 3 {}).pair.roleAt + 5000000 ≤ (paired 1 3 {}).ictNs ∧ (paired 1 3 { roleAt := 10 ^ 9 }).ictNs < (paired 1 3 { roleAt := 10 ^ 9 }).pair.roleAt + 5000000 ∧
    ((paired 1 3 {}).pairMode ≠ 0 ∧ (paired 1 3 {}).pins.holdOut = false) ∧
    ¬((paired 0 3 {}).rf Reg.pairCfg pairCfg_SHELF_LOSS_MAX < (paired 0 3 {}).rejecting.length ∨ ((paired 0 3 {}).pairMode ≠ 0 ∧ (paired 0 3 {}).pins.holdOut = false)) ∧
    ((paired 0 2 { peerRole := 4 }).role = 2 ∧ (paired 0 2 { peerRole := 4 }).rf Reg.pairCtl pairCtl_AUTO_FAILBACK = 1 ∧ 3 ≤ (paired 0 2 { peerRole := 4 }).pair.peerRole ∧
      ((paired 0 2 {}).rd Reg.pairPeerClaim).toNat / 2 ^ 28 % 16 < (paired 0 2 {}).rf Reg.pairCfg pairCfg_PREF) ∧
    0 + ((paired 0 2 {}).setRf Reg.pairCfg pairCfg_HOLDOFF 1).rf Reg.pairCfg pairCfg_HOLDOFF * 1000000000 ≤ ((paired 0 2 {}).setRf Reg.pairCfg pairCfg_HOLDOFF 1).ictNs ∧
    leNat (slice (pairMsg 0x19) 0 1) = 0x19 ∧ leNat (slice (pairMsg 0x1A) 0 1) = 0x1A ∧ (paired 0 5 {}).role = 5 ∧ (paired 0 5 {}).jobs = [] ∧
    ({ paired 0 5 { roleAt := 10 ^ 9 } with jobs := [(5, open5 [] [])] } : State).ictNs < 10 ^ 9 + ((paired 0 5 {}).setRf Reg.pairCtl pairCtl_HANDOVER_MS 1).rf Reg.pairCtl pairCtl_HANDOVER_MS * 1000000 ∧
    ((0 : Nat) + ((((paired 0 2 {}).setRf Reg.pairCtl pairCtl_HANDOVER_MS 1).rf Reg.pairCtl pairCtl_HANDOVER_MS) + 10) * 1000000 ≤ (paired 0 2 {}).ictNs) ∧ booted.pairOn = false ∧
    (paired 0 2 {}).pairOn = true ∧ Open booted Reg.pairCtl ∧ Open (paired 0 2 {}) Reg.pairCtl ∧ booted.role ≠ 2 ∧
    (paired 0 2 { eligAt := some 0 }).pair.eligAt = some 0 ∧ (paired 0 2 { reqAt := some 0 }).pair.reqAt = some 0 ∧
    ((paired 0 2 {}).jobs = [] ∧ (paired 1 4 { holdOutAt := some (10 ^ 9 - 9999) }).role = 4 ∧ (paired 1 2 {}).pair.reqAt = none) := by
  unfold Open; decide +kernel

theorem test_pair_handover :
    (after .holdSampleComplete ((paired 2 3 {}).setRf (hlAddr 2 4) hlStatus_UP 1)).pins.holdOut = true ∧
    (after .handoverReq (paired 0 4 { inbox := [pairMsg 0x19] })).role = 5 ∧
    (after .handoverAck (paired 1 2 { inbox := [pairMsg 0x1A], reqAt := some 1 })).role = 3 ∧
    (after .handoverRelease (paired 0 5 {})).role = 2 ∧ (after .takingTimeout (paired 1 3 {})).role = 2 := by decide +kernel

/-! ### Power, alarms, boot, Trailbook -/

/-- A transition, or none, in a power state. -/
def powered (cur : Nat) (tr : Option PowerTrans) (armed : Bool) : State :=
  { booted.setRf Reg.pwrStatus pwrStatus_CUR cur with power := { trans := tr, armed := armed } }

/-- Steward 0's entry into a power state, or an exit from one. -/
def entry (x : Nat) (woken : Bool) : PowerTrans := ⟨true, x, 0, woken, 0⟩

def leaving : PowerTrans := ⟨false, 0, 0, true, 0⟩

/-- No transition, entries into each state, woken or not, with a crossing or a read outstanding and without; sources armed and not; a
wake time; exits with and without the keys; an idle island in P1, at and before IDLE. -/
theorem test_hyp_PowerTransitions :
    ((powered 0 none false).power.trans = none ∧ (powered 0 (some (entry 1 false)) true).power.trans = some ⟨true, 1, 0, false, 0⟩ ∧
      (∃ t0, (powered 2 (some leaving) false).power.trans = some t0 ∧ t0.entry = false) ∧
      (powered 0 (some (entry 2 false)) true).crossing = false ∧ (powered 0 (some (entry 2 false)) true).readsOut = false ∧
      ({ powered 0 (some (entry 2 false)) true with hosts := [(0, { tags := [(3, tag0 .outstanding false)] })] } : State).readsOut = true ∧
      ({ powered 0 (some (entry 2 false)) true with clock := { ict := 2 ^ 24 * 10 ^ 6 } } : State).ictNs = 0 + 1000000) ∧
    ((powered 2 none true).power.armed = true ∧ (7 ≤ (7 : Fin 9).val ∨ ((powered 2 none true).rd Reg.wakeEn).toNat.testBit 6 = true) ∧
      (((powered 2 none true).setRf Reg.wakeEn ⟨0, 1⟩ 1).rd Reg.wakeEn).toNat.testBit 0 = true ∧ (powered 2 none true).pstate = 2 ∧ (powered 2 none true).power.firstWake = 0 ∧
      (powered 2 none false).power.armed = false ∧ (powered 0 (some (entry 2 false)) true).power.firstWake = 0) ∧
    ((powered 2 none true).rdN Reg.wakeTimer 2 = 0 ∧ ((powered 2 none true).setRf Reg.wakeTimer ⟨0, 8⟩ 5).rdN Reg.wakeTimer 2 = 5 ∧ (powered 2 none true).ictNs < 5) ∧
    ((powered 2 (some leaving) false).power.trans = some ⟨false, 0, 0, true, 0⟩ ∧ (powered 2 (some leaving) false).power.keysOff = false ∧
      (powered 2 (some leaving) false).bankMarked 176 = false ∧ 48 ≤ (50 : Fin 181).val ∧ (50 : Fin 181).val < 80 ∧ 48 ≤ (48 : Fin 181).val ∧ (79 : Fin 181).val < 80) ∧
    ((powered 1 none false).pstate = 1 ∧ gateable 0x21 = true ∧ ((powered 1 none false).island 0x21).power = .on ∧ (powered 1 none false).islandIdle 0x21 = true ∧
      ((powered 1 none false).island 0x21).busyAt + 1000 * (powered 1 none false).rf Reg.trimCfg trimCfg_IDLE ≤
        ({ powered 1 none false with clock := { ict := 2 ^ 24 * 10 ^ 6 } } : State).ictNs ∧
      ¬((powered 0 none false).pstate = 1) ∧ Open (powered 1 none false) Reg.trimCfg) := by
  unfold Open
  constructorm* _ ∧ _ <;> decide +kernel

theorem test_power :
    (after .powerEntryComplete (powered 0 (some (entry 1 false)) false)).pstate = 1 ∧
    (after .powerEntryComplete (powered 0 (some (entry 2 false)) false)).pstate = 2 ∧
    (after .powerEntryComplete (powered 0 (some (entry 4 false)) false)).boot.phase = .off ∧
    (after (.wakeEvent 7) (powered 2 none true)).power.trans = some leaving ∧
    (after (.powerExitComplete [⟨50, false, true, 0⟩] none) { powered 2 (some leaving) false with mem := [(0x0A100004, 7), (0x0A180000, 8)] }).mem = [(0x0A180000, 8)] ∧
    ((after (.islandIdleGate 0x21) { powered 1 none false with clock := { ict := 2 ^ 24 * 10 ^ 6 } }).island 0x21).power = .gated ∧
    (after (.trimCfgWrite 0) booted).rdN Reg.trimCfg 2 = 2 ^ 38 := by decide +kernel

/-- Fail-closed, with the alarms seen and those active. -/
def closed (seen active : Nat) : State :=
  (((booted.setRf Reg.alarmStatus alarmStatus_FAIL_CLOSED 1).setRf Reg.alarmStatus alarmStatus_SEEN seen).setRf Reg.alarmStatus alarmStatus_ACTIVE active)

theorem test_hyp_Alarms :
    ({ booted with boot := { phase := .off } } : State).boot.phase = .off ∧ booted.boot.phase ≠ .off ∧ booted.pstate ≠ 3 ∧
    (booted.rf Reg.alarmStatus alarmStatus_FAIL_CLOSED = 0) ∧ (closed 1 1).rf Reg.alarmStatus alarmStatus_ACTIVE ≠ 0 ∧
    ((closed 8 0).rf Reg.alarmStatus alarmStatus_SEEN).testBit 3 = true ∧
    ¬((closed 1 0).rf Reg.alarmStatus alarmStatus_FAIL_CLOSED = 0 ∨ (closed 1 0).rf Reg.alarmStatus alarmStatus_ACTIVE ≠ 0 ∨
      ((closed 1 0).rf Reg.alarmStatus alarmStatus_SEEN).testBit 3 = true) ∧ booted.pairOn = false ∧
    (100 : Int) ≤ (100 : Byte).toInt ∧ (99 : Byte).toInt < 100 ∧ (105 : Int) ≤ (105 : Byte).toInt ∧ (0xF6 : Byte).toInt = -10 ∧
    (booted.threadReady 2048 = true ∧ booted.threadReady 2051 = true ∧ ({ booted with stewards := [(0, { t := { run := .faulted } })] } : State).threadReady 2048 = false) ∧
    OpenTo (closed 4 0) (.steward 0) Reg.alarmCtl 4 ∧ OpenTo (closed 4 0) (.steward 1) Reg.alarmCtl 4 := by
  unfold OpenTo Open; decide +kernel

theorem test_alarms :
    (after (.alarm 3 0 0) booted).rf Reg.alarmStatus alarmStatus_SEEN = 4 ∧ (after (.alarm 3 0 0) booted).zeroising = some 3 ∧
    (after (.alarmConditionEnds 3) (closed 4 4)).rf Reg.alarmStatus alarmStatus_ACTIVE = 0 ∧
    (after (.alarmClear 0) (closed 4 0)).rf Reg.alarmStatus alarmStatus_FAIL_CLOSED = 0 ∧ (after (.alarmClear 0) (closed 8 0)).rf Reg.alarmStatus alarmStatus_FAIL_CLOSED = 1 ∧
    (after (.thermTrip 2 105) booted).pins.thermLow = true ∧ (after (.thermWarn 2 0xF6) booted).rf Reg.alarmStatus alarmStatus_THERM_WARN = 0 := by decide +kernel

/-- A boot phase at a time in milliseconds. -/
def booting (b : Boot) (ms : Nat) : State := { State.reset with boot := b, clock := { ict := 2 ^ 24 * 10 ^ 6 * ms } }

/-- FUSE_DATA, and the operation in progress. -/
def fusing (d : Nat) (op : Option FuseOp) : State := { booted.setRf Reg.fuseData ⟨0, 32⟩ d with fuseOp := op }

theorem test_hyp_BootAndFuses :
    (booting {} 0).pins.porstN = true ∧ ({ booting {} 0 with pins := { porstN := false } } : State).pins.porstN = false ∧
    ((booting {} 100).boot.phase = .monitors ∧ (booting {} 100).boot.reboot = false ∧ (booting {} 100).boot.envRecorded = false ∧ 100000000 ≤ (booting {} 100).ictNs) ∧
    (booting {} 99).ictNs < 100000000 ∧ (booting { phase := .failed } 10000).boot.phase = .failed ∧ 0 + 10000000000 ≤ (booting { phase := .failed } 10000).ictNs ∧
    (booting { phase := .failed } 9999).ictNs < 0 + 10000000000 ∧ (booting { phase := .copying } 0).boot.reasons = [] ∧
    (booting { phase := .copying, reasons := [(0, 6)] } 0).boot.reasons.length = 1 ∧ ((booting { phase := .copying } 0).imageFault []).isSome = true ∧
    booted.rf Reg.fuseResult fuseResult_BUSY = 0 ∧ (booted.setRf Reg.fuseResult fuseResult_BUSY 1).rf Reg.fuseResult fuseResult_BUSY = 1 ∧
    booted.rf Reg.pwrStatus pwrStatus_BUSY = 0 ∧ (booted.setRf Reg.pwrStatus pwrStatus_BUSY 1).rf Reg.pwrStatus pwrStatus_BUSY = 1 ∧
    booted.rf Reg.bootCtl bootCtl_SLOT_OVERRIDE < 3 ∧ (fusing 1 (some ⟨1, 9, 1, 0⟩)).fuseOp = some ⟨1, 9, 1, 0⟩ ∧ (fusing 1 (some ⟨3, 0, 1, 2⟩)).fuseOp = some ⟨3, 0, 1, 2⟩ ∧
    (booted.threadReady 2048 = true ∧ booted.threadReady 2050 = true ∧ State.reset.threadReady 2048 = false ∧ booted.fuseOp = none) ∧
    OpenTo booted (.steward 1) Reg.fuseCmd 4 ∧ OpenTo booted (.steward 0) Reg.bootCtl 4 ∧
    ({ booting { phase := .copying } 0 with loaded := [] } : State).boot.phase = .copying ∧ booted.boot.phase ≠ .copying := by
  unfold OpenTo Open; decide +kernel

theorem test_boot_and_fuses :
    (after (.porstAssert false) booted).boot.phase = .off ∧ (after (.bootMonitorsReady (some 1) none) State.reset).boot.slot = 1 ∧
    (after (.bootMonitorsReady none none) State.reset).boot.phase = .copying ∧
    (after (.imageCopyComplete [] false) (booting { phase := .copying } 0)).boot.slot = 1 ∧
    (after (.imageCopyComplete [] false) (booting { phase := .copying, reasons := [(0, 6)] } 0)).boot.phase = .failed ∧
    (after (.programRow 0 9) (fusing 1 none)).fuseOp = some ⟨1, 9, 1, 0⟩ ∧ (after (.programRow 0 3) (fusing 1 none)).fuseOp = some ⟨1, 3, 1, 2⟩ ∧
    Tab.get 0 (after (.fuseProgrammed true) (fusing 1 (some ⟨1, 9, 1, 0⟩))).fuses 9 = 1 ∧
    (after (.reboot 0) booted).boot.phase = .monitors ∧ (after (.reboot 2) booted).boot.phase = .running := by decide +kernel

/-- One record queued, fatal or not; a freeze or none, with the locations read. -/
def recording (fatal : Nat) (frozen : Option Nat) (read : Tab Bool) : State :=
  { booted with tb := { queue := [⟨0, 0x8001, 0, fatal, []⟩], frozen := frozen, read := read } }

theorem test_hyp_TrailbookCommands :
    (recording 0 none []).tb.queue = [⟨0, 0x8001, 0, 0, []⟩] ∧ booted.tb.queue = [] ∧ (recording 1 none []).tb.frozen = none ∧
    (recording 1 (some 7) []).tb.frozen = some 7 ∧ (recording 1 (some 7) []).tb.read.length < 4096 ∧
    (recording 1 (some 7) ((List.range 4096).map fun i => (i, true))).tb.read.length = 4096 ∧ (booted.pstate < 2 ∧ booted.boot.phase ≠ .off) ∧
    ((7 : Nat) + 32768 - 7) % 32768 < 4096 ∧ (0x7FFF : BitVec 16).toNat < 0x8000 ∧ 0x8000 ≤ (0x8000 : BitVec 16).toNat ∧
    ((recording 0 none []).tb.wroteAt = none ∧ ({ (recording 0 none []).tb with wroteAt := some 0 } : Trailbook).wroteAt = some 0 ∧ (recording 0 none []).ictNs < 0 + 100) ∧
    Open booted Reg.tbFreeze ∧ OpenTo booted (writerInit (.steward 3)) Reg.tbFwCode 4 ∧ State.reset.tb.frozen = none ∧
    ¬(({ booted with boot := { phase := .off } } : State).pstate < 2 ∧ ({ booted with boot := { phase := .off } } : State).boot.phase ≠ .off) := by
  unfold OpenTo Open; decide +kernel

theorem test_trailbook :
    (after .trailbookWrite (recording 0 none [])).tb.index = 1 ∧ (after .trailbookWrite (recording 1 none [])).tb.frozen = some 28673 ∧
    (after .trailbookWrite (recording 1 (some 7) [])).rd Reg.tbMissed = 1 ∧
    ((after (.tbFwCode (.steward 0) 0x8000 true) booted).tb.queue.map fun q => (q.code, q.flags)) = [(0x8000, 3)] ∧
    (after (.tbFwCode (.steward 0) 0x7FFF true) booted).tb.queue = [] ∧
    (after (.trailbookRead 7) (recording 0 (some 7) [])).tb.read = [(7, true)] := by decide +kernel

/-! ### The invariant -/

/-- A state that meets the invariant and steps: one command waits, and a byte is stored. -/
theorem test_hyp_StepKeepsCanonical :
    Canonical State.reset ∧ Canonical { booted with mem := [(0x08000000, 7), (0x08000005, 1)] } ∧ ¬Canonical { booted with mem := [(5, 7), (4, 1)] } ∧
    ¬Canonical { booted with mem := [(5, 0)] } ∧
    (∃ t, step { booted with pending := [.tbTokenRefill] } = .next t) := by
  refine ⟨by unfold Canonical; decide +kernel, by unfold Canonical; decide +kernel, by unfold Canonical; decide +kernel, by unfold Canonical; decide +kernel, ⟨_, rfl⟩⟩

end Sys2Proof.Tests
end

section
/-! Proofs about writes of control registers (R8, R18 to R23, R42): what a write does in each of its cases, the words it
holds and applies, accesses that a gated island holds, the generations of FAB.FMT_GEN, and obligation O29. -/

namespace Sys2Proof.Machine

open Sys2Proof.Safety

/-! ### Entries of sparse tables -/

/-- An entry after a listing. -/
theorem Tab.find_put {α : Type} (t : Tab α) (k : Nat) (v : α) (j : Nat) :
    Tab.find (Tab.put t k v) j = if j = k then some v else Tab.find t j := by
  induction t with
  | nil => rfl
  | cons e t ih =>
    obtain ⟨a, w⟩ := e
    simp only [Tab.put]
    split
    · next h => subst h; by_cases hj : j = k <;> simp [Tab.find, hj]
    · split
      · rfl
      · next h _ =>
        simp only [Tab.find, ih]
        by_cases hj : j = a
        · simp [hj, Ne.symm h]
        · simp [hj]

/-- An entry after a removal. -/
theorem Tab.find_del {α : Type} (t : Tab α) (k j : Nat) :
    Tab.find (Tab.del t k) j = if j = k then none else Tab.find t j := by
  induction t with
  | nil => simp [Tab.del, Tab.find]
  | cons e t ih =>
    obtain ⟨a, w⟩ := e
    simp only [Tab.del]
    split
    · next h => subst h; rw [ih]; by_cases hj : j = k <;> simp [Tab.find, hj]
    · next h =>
      simp only [Tab.find, ih]
      by_cases hj : j = a
      · simp [hj, Ne.symm h]
      · simp [hj]

/-! ### Held words -/

/-- Forgetting held words changes the held words alone. -/
theorem State.dropHeld_only (s : State) (a n : Nat) : { s.dropHeld a n with held := s.held } = s := by
  induction n generalizing s a with
  | zero => rfl
  | succ n ih => exact (congrArg (fun t : State => { t with held := s.held }) (ih { s with held := Tab.del s.held a } (a + 4)) :)

@[simp] theorem State.dropHeld_regs (s : State) (a n : Nat) : (s.dropHeld a n).regs = s.regs :=
  (congrArg State.regs (s.dropHeld_only a n) :)

@[simp] theorem State.rd_dropHeld (s : State) (a n b : Nat) : (s.dropHeld a n).rd b = s.rd b :=
  State.rd_congr (s.dropHeld_regs a n) b

/-- What is held after the words of a pair have been forgotten. -/
theorem State.find_dropHeld_pair (s : State) (a b : Nat) :
    Tab.find (s.dropHeld a 2).held b = if b = a + 4 ∨ b = a then none else Tab.find s.held b := by
  simp only [State.dropHeld, Tab.find_del, ite_or]

/-- The value that a pair takes: of each word what is held, else what is in effect. -/
theorem State.groupValue_pair (s : State) (a : Nat) : s.groupValue a 2 =
    ((Tab.find s.held a).getD (s.rd a)).toNat + 2 ^ 32 * ((Tab.find s.held (a + 4)).getD (s.rd (a + 4))).toNat := rfl

/-! ### Words written by the access codes of their fields (R8) -/

/-- Word `w` of a register with fields of no effect of their own: `new` is `old` after a write of `v`. -/
def WordWritten (d : RegDesc) (w v : Nat) (old new : W32) : Prop :=
  ∀ j, j < 32 → new.getLsbD j = (!(v.testBit j && (d.mask .w1c w).testBit j) &&
    (if (d.mask .rw w ||| d.mask .wos w).testBit j then v.testBit j else old.getLsbD j))

theorem State.wordSet_only (s : State) (d : RegDesc) (w a v : Nat) : { s.wordSet d w a v with regs := s.regs } = s := rfl

@[simp] theorem State.wordSet_held (s : State) (d : RegDesc) (w a v : Nat) : (s.wordSet d w a v).held = s.held := rfl

theorem State.rd_wordSet_ne (s : State) (d : RegDesc) (w v : Nat) {a b : Nat} (h : b ≠ a) :
    (s.wordSet d w a v).rd b = s.rd b := State.rd_wr_ne _ _ h

theorem testBit_ones32 {j : Nat} (h : j < 32) : (0xFFFFFFFF : Nat).testBit j = true := by
  rw [show (0xFFFFFFFF : Nat) = 2 ^ 32 - 1 from rfl, Nat.testBit_two_pow_sub_one]
  simp [h]

theorem State.wordWritten_wordSet (s : State) (d : RegDesc) (w a v : Nat) :
    WordWritten d w v (s.rd a) ((s.wordSet d w a v).rd a) := by
  intro j hj
  unfold State.wordSet
  generalize d.mask .rw w ||| d.mask .wos w = m
  simp only [State.rd_wr_self, BitVec.getLsbD_ofNat, Nat.testBit_and, Nat.testBit_or, Nat.testBit_xor, testBit_ones32 hj,
    hj, decide_true, Bool.true_and, Bool.true_xor, BitVec.testBit_toNat]
  by_cases hm : m.testBit j = true
  · simp [hm, Bool.and_comm]
  · simp [hm, Bool.and_comm]

/-! ### The words of a register -/

/-- The word of an array element lies no further than the offset that it is found from. -/
theorem wordIn_le {words : Nat} {dims : List (Nat × Nat)} {r w : Nat} (h : wordIn words dims r = some w) : 4 * w ≤ r := by
  induction dims generalizing r with
  | nil =>
    simp only [wordIn] at h
    split at h
    · cases h; omega
    · cases h
  | cons x dims ih =>
    obtain ⟨st, n⟩ := x
    simp only [wordIn] at h
    split at h
    · exact (ih h).trans (Nat.mod_le _ _)
    · cases h

theorem findReg_wordAt {ds : List RegDesc} {a : Nat} {d : RegDesc} {w : Nat} (h : findReg ds a = some (d, w)) :
    d.wordAt a = some w := by
  induction ds with
  | nil => cases h
  | cons x ds ih =>
    simp only [findReg] at h
    split at h
    · next hx => cases h; exact hx
    · exact ih h

/-- A word that is not the first of its register has the words before it below it. -/
theorem regAt_le {a : Nat} {d : RegDesc} {w : Nat} (h : regAt a = some (d, w)) : 4 * w ≤ a := by
  have hw := findReg_wordAt h
  unfold RegDesc.wordAt at hw
  split at hw
  · have := wordIn_le hw; omega
  · cases hw

/-! ### Writes of a register whose fields have no effect of their own (R18) -/

theorem State.groupWrite_plain (s : State) (x : Initiator) {d : RegDesc} (w a v n : Nat) (h : d.kind = .plain) :
    s.groupWrite x d w a v n = s.wordsSet d w a v n := by
  simp only [State.groupWrite, h]

section
variable {x : Initiator} {a w : Nat} {d : RegDesc} (v : Nat) (s : State) (hx : ksForeign x a = false)
  (hd : regAt a = some (d, w))
include hx hd

theorem State.wordWrite_single (hk : d.kind = .plain) (hg : d.group ≤ 1) :
    s.wordWrite x a v = s.wordSet d w a (v % 2 ^ 32) := by
  simp [State.wordWrite, hx, hd, hg, State.groupWrite_plain _ _ _ _ _ _ hk, State.wordsSet]

theorem State.wordWrite_first (hg : d.group = 2) (hw : w % 2 = 0) (hl : w + 1 ≠ d.words) :
    s.wordWrite x a v = { s with held := Tab.put s.held a (BitVec.ofNat 32 v) } := by
  simp [State.wordWrite, hx, hd, hg, hw, hl]

/-- The second word of a pair applies the first, held or in effect, and itself. -/
theorem State.wordWrite_second (hk : d.kind = .plain) (hg : d.group = 2) (hw : w % 2 = 1) :
    s.wordWrite x a v =
      ((({ s with held := Tab.put s.held a (BitVec.ofNat 32 v) } : State).dropHeld (a - 4) 2).wordSet d (w - 1) (a - 4)
        ((Tab.find s.held (a - 4)).getD (s.rd (a - 4))).toNat).wordSet d w a (v % 2 ^ 32) := by
  have ha : a - 4 + 4 = a := by have := regAt_le hd; omega
  have hne : a - 4 ≠ a := by omega
  have hp : ({ s with held := Tab.put s.held a (BitVec.ofNat 32 v) } : State).groupValue (a - 4) 2 =
      ((Tab.find s.held (a - 4)).getD (s.rd (a - 4))).toNat + 2 ^ 32 * (v % 2 ^ 32) := by
    rw [State.groupValue_pair, ha]
    simp only [Tab.find_put, hne, if_false, if_true, Option.getD_some, BitVec.toNat_ofNat]
    rfl
  have hlt := ((Tab.find s.held (a - 4)).getD (s.rd (a - 4))).isLt
  have hw2 : w - 1 + 1 = w := by omega
  simp only [State.wordWrite, hx, hd, hg, hw, Bool.false_eq_true, if_false, if_true, true_or,
    show ¬(2 ≤ 1) by decide, show (1 + 1 = 2) from rfl, show 4 * (2 - 1) = 4 from rfl, hp,
    State.groupWrite_plain _ _ _ _ _ _ hk, State.wordsSet, ha, hw2, show w + 1 - 2 = w - 1 by omega]
  congr 1
  · congr 1; omega
  · omega

end

/-! ### A write by an initiator (R19 to R23) -/

theorem exec_registerWrite (who : Writer) (addr : W32) (wide : Bool) (data : W64) (s : State) :
    exec (.registerWrite who addr wide data) s =
      .next (s.writeBy (writerInit who) addr.toNat (if wide then 8 else 4) data.toNat fun s =>
        s.ctlWrite (writerInit who) addr.toNat (if wide then 8 else 4) data.toNat).settle := rfl

section
variable {s : State} {x : Initiator} {a size : Nat} (v : Nat) (f : State → State)

theorem State.writeBy_not_canWrite (h : s.canWrite x a = false) : s.writeBy x a size v f = s := by
  simp [State.writeBy, h]

theorem State.writeBy_denied (h : s.canWrite x a = true) (hd : s.ctlDenied x a size = true) :
    s.writeBy x a size v f = s.denyWrite x a := by simp [State.writeBy, h, hd]

theorem State.writeBy_secure (h : s.canWrite x a = true) (hd : s.ctlDenied x a size = false)
    (hs : 0x800000 ≤ a % 0x1000000 ∧ s.secureOk x = false) :
    s.writeBy x a size v f = (s.secureDenied x a).denyWrite x a := by simp [State.writeBy, h, hd, hs]

theorem State.writeBy_reach (h : s.canWrite x a = true) (hd : s.ctlDenied x a size = false)
    (hs : ¬(0x800000 ≤ a % 0x1000000 ∧ s.secureOk x = false)) :
    s.writeBy x a size v f = s.reach x a size v f := by
  simp only [State.writeBy, h, hd, Bool.not_true, Bool.false_eq_true, if_false, Bool.not_eq_true', if_neg hs]

theorem State.reach_off (h : (s.island (a / 0x1000000)).power = .off) : s.reach x a size v f = s.offRecord x a true := by
  simp [State.reach, h]

theorem State.reach_holds (h : (s.island (a / 0x1000000)).power ≠ .off) (hh : s.holds (a / 0x1000000) = true)
    (hz : size ≠ 16) : s.reach x a size v f = { s with gated := s.gated ++ [⟨x, 0, a, size, some v⟩] } := by
  simp [State.reach, h, hh, hz]

theorem State.reach_performs (h : (s.island (a / 0x1000000)).power ≠ .off) (hh : s.holds (a / 0x1000000) = false) :
    s.reach x a size v f = f s := by simp [State.reach, h, hh]

theorem State.writeBy_openTo (h : OpenTo s x a size) : s.writeBy x a size v f = f s := by
  obtain ⟨hc, hd, hs, -, hp, hh⟩ := h
  rw [State.writeBy_reach v f hc hd (fun h' => by simp [hs h'.1] at h'), State.reach_performs v f hp hh]

/-! ### A row that names no initiator (R23, R25) -/

theorem State.rowWrite_unpowered (h : s.boot.phase = .off) : s.rowWrite a size v f = s := by simp [State.rowWrite, h]

theorem State.rowWrite_powered (h : s.boot.phase ≠ .off) :
    s.rowWrite a size v f = s.reach .hw a size v fun s => f (s.dropHeld a (size / 4)) := by simp [State.rowWrite, h]

theorem State.rowWrite_open (h : Open s a) : s.rowWrite a size v f = f (s.dropHeld a (size / 4)) := by
  obtain ⟨hb, hp, hh⟩ := h
  rw [State.rowWrite_powered v f hb, State.reach_performs v _ hp hh]

end

/-- Row `x` writes the value `x.2.2.2` of `x.2.2.1` bytes to the register at `x.2.1` without naming an initiator. -/
def RowWrites (s : State) (x : Instr × Nat × Nat × Nat) : Prop :=
  x.2.2.1 ≠ 16 ∧ ∃ f, exec x.1 s = .next (s.rowWrite x.2.1 x.2.2.1 x.2.2.2 f) ∨
    exec x.1 s = .next (s.rowWrite x.2.1 x.2.2.1 x.2.2.2 f).settle

theorem RowWrites.next {s : State} {c : Instr} {a size v : Nat} {f : State → State} (hz : size ≠ 16)
    (h : exec c s = .next (s.rowWrite a size v f)) : RowWrites s (c, a, size, v) := ⟨hz, f, .inl h⟩

theorem RowWrites.settled {s : State} {c : Instr} {a size v : Nat} {f : State → State} (hz : size ≠ 16)
    (h : exec c s = .next (s.rowWrite a size v f).settle) : RowWrites s (c, a, size, v) := ⟨hz, f, .inr h⟩

/-- What a row comes to where its register is not written. -/
theorem RowWrites.ends {s : State} {x : Instr × Nat × Nat × Nat} (h : RowWrites s x) :
    let ends := fun (u : State) => exec x.1 s = .next u ∨ exec x.1 s = .next u.settle
    (s.boot.phase = .off → ends s) ∧
    (s.boot.phase ≠ .off → (s.island (x.2.1 / 0x1000000)).power = .off → ends (s.offRecord .hw x.2.1 true)) ∧
    (s.boot.phase ≠ .off → (s.island (x.2.1 / 0x1000000)).power ≠ .off → s.holds (x.2.1 / 0x1000000) = true →
      ends { s with gated := s.gated ++ [⟨.hw, 0, x.2.1, x.2.2.1, some x.2.2.2⟩] }) := by
  obtain ⟨hz, f, hf⟩ := h
  refine ⟨fun hb => ?_, fun hb hp => ?_, fun hb hp hh => ?_⟩
  · rwa [State.rowWrite_unpowered _ _ hb] at hf
  · rwa [State.rowWrite_powered _ _ hb, State.reach_off _ _ hp] at hf
  · rwa [State.rowWrite_powered _ _ hb, State.reach_holds _ _ hp hh hz] at hf

/-! ### Denials -/

theorem State.ctlDenied_iff (s : State) (x : Initiator) (a size : Nat) : s.ctlDenied x a size = true ↔
    0x68 < a / 0x1000000 ∨ a % size ≠ 0 ∨ ∃ n, x = .thread n ∧ (s.entryOf n).ctl = false := by
  cases x with
  | thread n => simp [State.ctlDenied, islandAssigned]; tauto
  | _ => simp [State.ctlDenied, islandAssigned]

/-- A record changes the Trailbook and the count of lost records alone. -/
theorem State.record_only (s : State) (code island : Nat) (items : List (Nat × Nat × Nat)) :
    { s.record code island items with tb := s.tb, regs := s.regs } = s := by
  simp only [State.record, State.recordFlags]
  split
  · rfl
  · split <;> rfl

/-- A denial raises the control-access exception at a thread or steward, and nothing at another initiator. -/
theorem State.denyWrite_writer (s : State) (who : Writer) (a : Nat) : s.denyWrite (writerInit who) a =
    match writerInit who with
      | .thread n => s.takeException n 5 (s.thr n).pc a
      | .steward k => s.takeException (2048 + k) 5 (s.thr (2048 + k)).pc a
      | _ => s := by
  cases who <;> rfl

/-! ### Accesses held at a gated island (R23) -/

/-- An operation that waits for control access `op`, which has answered `v`. -/
def MemOp.ctlAnswered (op v : Nat) (o : MemOp) : MemOp :=
  match o.act with
  | .ctl rd k m w => { o with act := .ctl rd k m (if o.id = op then some v else w) }
  | _ => o

/-- The thread's operation takes the answer of its access. -/
def State.ctlAnswer (s : State) (n op v : Nat) : State :=
  s.modThr n fun t => { t with ops := t.ops.map (MemOp.ctlAnswered op v) }

/-- A held access performed, or discarded at an island that is off by then: the state, and the value read. -/
def State.gatedPerform (s : State) (g : GatedAccess) : State × Nat :=
  if (s.island (g.addr / 0x1000000)).power = .off then (s.offRecord g.who g.addr g.wdata.isSome, 2 ^ (8 * g.size) - 1)
  else s.ctlPerform g.who g.addr g.size g.wdata

theorem State.gatedDone_eq (s : State) (g : GatedAccess) : s.gatedDone g =
    match g.who with
      | .thread n => (s.gatedPerform g).1.ctlAnswer n g.op (s.gatedPerform g).2
      | .steward k => (s.gatedPerform g).1.ctlAnswer (2048 + k) g.op (s.gatedPerform g).2
      | .window h => if g.wdata.isNone then (s.gatedPerform g).1.barReturn h g.size (s.gatedPerform g).2
          else (s.gatedPerform g).1
      | _ => (s.gatedPerform g).1 := by
  have hf : ∀ (op v : Nat), (fun o : MemOp => if o.id = op then { o with act := match o.act with
      | .ctl rd k m _ => .ctl rd k m (some v)
      | a => a } else o) = MemOp.ctlAnswered op v := by
    intro op v
    funext ⟨id, act, addr, pc, issued⟩
    cases act <;> by_cases h : id = op <;> simp [MemOp.ctlAnswered, h]
  unfold State.gatedDone State.ctlAnswer
  rw [← hf]
  rfl

theorem exec_gatedAccessComplete_none (e : Fin 256) (s : State)
    (h : (s.gated.filter fun g => decide (g.addr / 0x1000000 = e.val)) = []) :
    exec (.gatedAccessComplete e) s = .next s := by
  show execGatedAccessComplete e s = _
  simp [execGatedAccessComplete, h]

theorem exec_gatedAccessComplete_some (e : Fin 256) (s : State)
    (h : (s.gated.filter fun g => decide (g.addr / 0x1000000 = e.val)) ≠ []) :
    let u : State := { s with gated := s.gated.filter fun g => decide (g.addr / 0x1000000 ≠ e.val) }
    exec (.gatedAccessComplete e) s = .next
      ((s.gated.filter fun g => decide (g.addr / 0x1000000 = e.val)).foldl State.gatedDone
        (if (s.island e.val).power = .gated then u.setIsland e.val { s.island e.val with power := .on, busyAt := s.ictNs } else u)).settle := by
  show execGatedAccessComplete e s = _
  have h' : (s.gated.filter fun g => decide (g.addr / 0x1000000 = e.val)).isEmpty = false := by simpa using h
  simp only [execGatedAccessComplete, h', Bool.false_eq_true, if_false]
  rfl

/-! ### Fields within one word -/

/-- A field that is set changes the register file alone. -/
theorem State.setRf_only (s : State) (a : Nat) (f : Fld) (v : Nat) : { s.setRf a f v with regs := s.regs } = s :=
  s.wrN_only _ _ _

/-- A field within one word that has been set. -/
theorem State.rf_setRf_self (s : State) (a : Nat) (f : Fld) (v : Nat) (h : f.words = 1) :
    (s.setRf a f v).rf a f = v % 2 ^ f.width := by
  have hw : f.lo % 32 + f.width ≤ 32 := by unfold Fld.words at h; omega
  simp only [State.rf, State.setRf, h, State.rdN, State.wrN, State.rd_wr_self, Nat.mul_zero, Nat.add_zero, BitVec.toNat_ofNat]
  rw [Nat.mod_eq_of_lt (setFld_lt _ _ _ _ 32 (BitVec.isLt _) hw), fld_setFld]

/-- A field within the word at its address reads that word alone. -/
theorem State.rf_congr {s t : State} {a b : Nat} {f : Fld} (h : f.lo < 32) (hw : f.words = 1) (hr : t.rd a = s.rd b) :
    t.rf a f = s.rf b f := by
  simp [State.rf, hw, State.rdN, show f.lo / 32 = 0 by omega, hr]

/-- A field within the word at its address. -/
theorem State.rf_word (s : State) (a : Nat) {f : Fld} (h : f.lo < 32) (hw : f.words = 1) :
    s.rf a f = fld (s.rd a).toNat f.lo f.width := by
  simp [State.rf, hw, State.rdN, show f.lo / 32 = 0 by omega, Nat.mod_eq_of_lt h]

/-- A field below the bit at which a number is cut. -/
theorem fld_mod_two_pow (x lo n k : Nat) (h : lo + n ≤ k) : fld (x % 2 ^ k) lo n = fld x lo n := by
  apply Nat.eq_of_testBit_eq
  intro i
  simp only [testBit_fld, Nat.testBit_mod_two_pow]
  by_cases hi : i < n
  · simp [show lo + i < k by omega]
  · simp [hi]

/-! ### Interrupt causes (R306 to R309) -/

/-- All of the state but the registers, the links and what has been shown to the outside is as it was. -/
def LinksOnly (s t : State) : Prop := { t with regs := s.regs, hosts := s.hosts, out := s.out } = s

theorem LinksOnly.trans {s t u : State} (hst : LinksOnly s t) (htu : LinksOnly t u) : LinksOnly s u :=
  (congrArg (fun x : State => { x with regs := s.regs, hosts := s.hosts, out := s.out }) htu :).trans hst

theorem LinksOnly.of_regs {s t : State} (h : { t with regs := s.regs } = s) : LinksOnly s t :=
  (congrArg (fun x : State => { x with hosts := s.hosts, out := s.out }) h :)

/-- What a cause of host link `h` may change: what has been shown to the outside, the links, and the registers of the link's
island but its first word. -/
structure CauseKept (h : Nat) (s t : State) : Prop where
  only : LinksOnly s t
  rd : ∀ b, b ≤ Reg.devStatus h ∨ Reg.devStatus (h + 1) ≤ b → t.rd b = s.rd b

theorem CauseKept.refl (h : Nat) (s : State) : CauseKept h s s := ⟨rfl, fun _ _ => rfl⟩

theorem CauseKept.trans {h : Nat} {s t u : State} (hst : CauseKept h s t) (htu : CauseKept h t u) : CauseKept h s u :=
  ⟨hst.only.trans htu.only, fun b hb => (htu.rd b hb).trans (hst.rd b hb)⟩

theorem CauseKept.ite {h : Nat} {s t u : State} {p : Prop} [Decidable p] (ht : CauseKept h s t) (hu : CauseKept h s u) :
    CauseKept h s (if p then t else u) := by split <;> assumption

/-- A change of the links or of what has been shown. -/
theorem CauseKept.of_regs {h : Nat} {s t : State} (ho : LinksOnly s t) (hr : t.regs = s.regs) : CauseKept h s t := ⟨ho, fun _ _ => State.rd_congr hr _⟩

theorem causeKept_setHost (s : State) (h k : Nat) (x : HostLink) : CauseKept h s (s.setHost k x) := .of_regs rfl rfl

theorem causeKept_emit (s : State) (h : Nat) (o : Output) : CauseKept h s (s.emit o) := .of_regs rfl rfl

/-- Words written within the link's island above its first. -/
theorem causeKept_wrN (s : State) (h a n v : Nat) (hlo : Reg.devStatus h < a) (hhi : a + 4 * n ≤ Reg.devStatus (h + 1)) :
    CauseKept h s (s.wrN a n v) :=
  ⟨.of_regs (s.wrN_only a n v), fun b hb => State.rd_wrN_ne _ _ _ _ _ fun i hi => by omega⟩

theorem causeKept_hostCount (s : State) (h c : Nat) (hc : c ≤ 12) : CauseKept h s (s.hostCount h c) :=
  causeKept_wrN _ _ _ _ _ (by simp only [Reg.devStatus, Reg.hostCnt, ctlAddr]; omega)
    (by simp only [Reg.devStatus, Reg.hostCnt, ctlAddr]; omega)

theorem causeKept_intCause (s : State) (h i v : Nat) (hi : i < 32) : CauseKept h s (s.setRf (Reg.intCause h) ⟨i, 1⟩ v) :=
  causeKept_wrN _ _ _ _ _ (by simp only [Reg.devStatus, Reg.intCause, ctlAddr]; omega)
    (by simp only [Reg.devStatus, Reg.intCause, ctlAddr, Fld.words]; omega)

theorem causeKept_sendEntry (s : State) (h fn : Nat) (table : Bool) (e : IrqEntry) :
    CauseKept h s (s.sendEntry h fn table e).1 := by
  unfold State.sendEntry
  split
  · split
    · exact .refl _ _
    · exact causeKept_hostCount _ _ _ (by omega)
  · split
    · exact .refl _ _
    · exact (causeKept_emit _ _ _).trans (causeKept_hostCount _ _ _ (by omega))

theorem causeKept_fireMsix0 (s : State) (h i : Nat) : CauseKept h s (s.fireMsix0 h i) :=
  (causeKept_sendEntry _ _ _ _ _).trans (causeKept_setHost _ _ _ _)

theorem causeKept_updateInta (s : State) (h : Nat) : CauseKept h s (s.updateInta h) := by
  have hs (x : HostLink) (o : Output) : CauseKept h s ((s.setHost h x).emit o) :=
    (causeKept_setHost _ _ _ _).trans (causeKept_emit _ _ _)
  exact .ite (.refl _ _) (.ite ((hs _ _).trans (causeKept_hostCount _ _ _ (by omega))) (hs _ _))

theorem causeKept_setCause (s : State) (h i : Nat) (hi : i < 32) : CauseKept h s (s.setCause h i) :=
  ((causeKept_intCause s h i 1 hi).trans (.ite (causeKept_fireMsix0 _ _ _) (.refl _ _))).trans (causeKept_updateInta _ _)

/-! ### FAB.FMT_GEN (R42) -/

/-- CUR shown in PF0.DEV_STATUS of host link `h`. -/
def State.showCur (s : State) (h cur : Nat) : State :=
  if s.rf (Reg.devStatus h) devStatus_FMT_CUR = cur then s
  else (s.setRf (Reg.devStatus h) devStatus_FMT_CUR cur).setCause h 1

theorem State.setDevStatus_FMT_CUR (s : State) (cur : Nat) :
    s.setDevStatus devStatus_FMT_CUR cur = (s.showCur 0 cur).showCur 1 cur := rfl

theorem State.rf_showCur (s : State) (h : Nat) {cur : Nat} (hc : cur < 256) :
    (s.showCur h cur).rf (Reg.devStatus h) devStatus_FMT_CUR = cur := by
  unfold State.showCur
  split
  · assumption
  · have hk := causeKept_setCause (s.setRf (Reg.devStatus h) devStatus_FMT_CUR cur) h 1 (by omega)
    rw [State.rf_congr (by decide) (by decide) (hk.rd _ (.inl le_rfl)), State.rf_setRf_self _ _ _ _ (by decide)]
    exact Nat.mod_eq_of_lt hc

/-- Showing CUR changes no register below the link's island or above it. -/
theorem State.rd_showCur (s : State) (h cur b : Nat) (hb : b < Reg.devStatus h ∨ Reg.devStatus (h + 1) ≤ b) :
    (s.showCur h cur).rd b = s.rd b := by
  unfold State.showCur
  split
  · rfl
  · rw [(causeKept_setCause _ h 1 (by omega)).rd b (by omega)]
    refine State.rd_setRf_ne _ _ _ _ _ fun i hi => ?_
    have hd : Reg.devStatus (h + 1) = Reg.devStatus h + 0x1000000 := by simp only [Reg.devStatus, ctlAddr]; omega
    have hi1 : i < 1 := hi
    have h0 : 4 * (devStatus_FMT_CUR.lo / 32) = 0 := rfl
    omega

theorem State.linksOnly_showCur (s : State) (h cur : Nat) : LinksOnly s (s.showCur h cur) := by
  unfold State.showCur
  split
  · rfl
  · exact (LinksOnly.of_regs (s.setRf_only _ _ _)).trans (causeKept_setCause _ h 1 (by omega)).only

/-- Both links show CUR, and no register outside their islands has changed. -/
theorem State.setDevStatus_cur (s : State) {cur : Nat} (hc : cur < 256) :
    (s.setDevStatus devStatus_FMT_CUR cur).rf (Reg.devStatus 0) devStatus_FMT_CUR = cur ∧
    (s.setDevStatus devStatus_FMT_CUR cur).rf (Reg.devStatus 1) devStatus_FMT_CUR = cur ∧
    (∀ b, b < Reg.devStatus 0 ∨ Reg.devStatus 2 ≤ b → (s.setDevStatus devStatus_FMT_CUR cur).rd b = s.rd b) ∧
    LinksOnly s (s.setDevStatus devStatus_FMT_CUR cur) := by
  rw [State.setDevStatus_FMT_CUR]
  have h01 : Reg.devStatus 0 < Reg.devStatus 1 := by decide
  have h12 : Reg.devStatus 1 < Reg.devStatus 2 := by decide
  refine ⟨?_, State.rf_showCur _ _ hc, fun b hb => ?_, (s.linksOnly_showCur 0 cur).trans (State.linksOnly_showCur _ 1 cur)⟩
  · rw [State.rf_congr (by decide) (by decide) (State.rd_showCur _ _ _ _ (.inl h01)), State.rf_showCur _ _ hc]
  · have hb1 : b < Reg.devStatus 1 ∨ Reg.devStatus 2 ≤ b := by omega
    have hb0 : b < Reg.devStatus 0 ∨ Reg.devStatus 1 ≤ b := by omega
    rw [State.rd_showCur _ 1 _ _ hb1, State.rd_showCur _ 0 _ _ hb0]

theorem State.pairOn_congr {s t : State} (h : t.rd Reg.pairCtl = s.rd Reg.pairCtl) : t.pairOn = s.pairOn := by
  unfold State.pairOn
  rw [State.rf_congr (by decide) (by decide) h]

theorem State.trigTidy_only (s : State) : { s.trigTidy with pair := s.pair } = s := by
  simp only [State.trigTidy]
  split <;> rfl

/-- While no pairing is on, what follows a change of what health depends on is within the pair controller. -/
theorem State.pairUpdate_only (s : State) (h : s.pairOn = false) : { s.pairUpdate with pair := s.pair } = s := by
  have hp : s.trigTidy.pairOn = false :=
    (State.pairOn_congr (State.rd_congr (congrArg State.regs s.trigTidy_only :) _)).trans h
  have hu : s.pairUpdate = s.trigTidy := by simp [State.pairUpdate, hp]
  rw [hu, s.trigTidy_only]

theorem exec_fmtGenWrite (v : W32) (s : State) (h : Open s Reg.fmtGen) :
    exec (.fmtGenWrite v) s = .next ((s.dropHeld Reg.fmtGen 1).fmtGenSet v.toNat) :=
  congrArg Host.Outcome.next (State.rowWrite_open v.toNat (fun s => s.fmtGenSet v.toNat) h)

theorem State.fmtGenSet_outside (s : State) (v : Nat) (h : ¬(fld v 8 8 ≤ fld v 0 8 ∧ fld v 0 8 ≤ fld v 16 8)) :
    s.fmtGenSet v = s := by
  simp only [State.fmtGenSet]
  rw [if_pos (by omega)]

theorem State.fmtGenSet_inside (s : State) (v : Nat) (hlo : fld v 8 8 ≤ fld v 0 8) (hhi : fld v 0 8 ≤ fld v 16 8) :
    s.fmtGenSet v = ((s.wr Reg.fmtGen (BitVec.ofNat 32 (v % 2 ^ 24))).setDevStatus devStatus_FMT_CUR (fld v 0 8)).pairUpdate := by
  simp only [State.fmtGenSet]
  rw [if_neg (by omega)]

/-- While no pairing is on, a write with CUR inside sets the register and CUR in both links' PF0.DEV_STATUS, and changes
nothing beside registers, the links, the pair controller and what is shown to the outside. -/
theorem State.fmtGenSet_effect (s : State) (v : Nat) (hlo : fld v 8 8 ≤ fld v 0 8) (hhi : fld v 0 8 ≤ fld v 16 8)
    (hp : s.pairOn = false) :
    (∀ f : Fld, f.lo + f.width ≤ 24 → f.words = 1 → (s.fmtGenSet v).rf Reg.fmtGen f = fld v f.lo f.width) ∧
    (s.fmtGenSet v).rf (Reg.devStatus 0) devStatus_FMT_CUR = fld v 0 8 ∧
    (s.fmtGenSet v).rf (Reg.devStatus 1) devStatus_FMT_CUR = fld v 0 8 ∧
    { s.fmtGenSet v with regs := s.regs, hosts := s.hosts, out := s.out, pair := s.pair } = s := by
  rw [State.fmtGenSet_inside s v hlo hhi]
  obtain ⟨h0, h1, hrd, hk⟩ :=
    (s.wr Reg.fmtGen (BitVec.ofNat 32 (v % 2 ^ 24))).setDevStatus_cur (fld_lt v 0 8)
  generalize (s.wr Reg.fmtGen (BitVec.ofNat 32 (v % 2 ^ 24))).setDevStatus devStatus_FMT_CUR (fld v 0 8) = t at *
  have hpair : t.pairOn = false := by
    rw [← hp]
    exact State.pairOn_congr ((hrd _ (.inr (by decide))).trans (State.rd_wr_ne _ _ (by decide)))
  have hu := t.pairUpdate_only hpair
  have hur (b : Nat) : t.pairUpdate.rd b = t.rd b := State.rd_congr (congrArg State.regs hu :) b
  have hts : LinksOnly s t := (LinksOnly.of_regs rfl).trans hk
  refine ⟨fun f hf hw => ?_, ?_, ?_, ?_⟩
  · rw [State.rf_word _ _ (by omega) hw, hur, hrd _ (.inl (by decide)), State.rd_wr_self, BitVec.toNat_ofNat,
      fld_mod_two_pow _ _ _ _ (by omega), fld_mod_two_pow _ _ _ _ hf]
  · rw [State.rf_congr (by decide) (by decide) (hur _), h0]
  · rw [State.rf_congr (by decide) (by decide) (hur _), h1]
  · exact (congrArg (fun x : State => { x with regs := s.regs, hosts := s.hosts, out := s.out, pair := s.pair }) hu :).trans
      (congrArg (fun x : State => { x with pair := s.pair }) hts :)

/-! ### Plain registers written by REGISTER_WRITE -/

section
variable {who : Writer} {addr : W32} {data : W64} {s : State} {d : RegDesc} {w : Nat}
  (ho : OpenTo s (writerInit who) addr.toNat 4)
include ho

theorem exec_registerWrite_openTo : exec (.registerWrite who addr false data) s =
    .next (s.wordWrite (writerInit who) addr.toNat (data.toNat % 2 ^ 32)).settle := by
  simp [exec_registerWrite, State.writeBy_openTo _ _ ho, State.ctlWrite]

variable (hx : ksForeign (writerInit who) addr.toNat = false)
  (hd : regAt addr.toNat = some (d, w))
include hx hd

theorem endsSettled_plain_single (hk : d.kind = .plain) (hg : d.group ≤ 1) :
    EndsSettled (.registerWrite who addr false data) s fun u =>
      (∀ b, b ≠ addr.toNat → u.rd b = s.rd b) ∧ { u with regs := s.regs } = s ∧
      WordWritten d w (data.toNat % 2 ^ 32) (s.rd addr.toNat) (u.rd addr.toNat) := by
  refine ⟨_, exec_registerWrite_openTo ho, ?_⟩
  rw [State.wordWrite_single _ s hx hd hk hg, Nat.mod_mod]
  exact ⟨fun b hb => State.rd_wordSet_ne _ _ _ _ hb, State.wordSet_only _ _ _ _ _, State.wordWritten_wordSet _ _ _ _ _⟩

theorem endsSettled_pair_first (hg : d.group = 2) (hw : w % 2 = 0) (hl : w + 1 ≠ d.words) :
    EndsSettled (.registerWrite who addr false data) s fun u =>
      Tab.find u.held addr.toNat = some (data.setWidth 32) ∧ { u with held := s.held } = s := by
  refine ⟨_, exec_registerWrite_openTo ho, ?_⟩
  rw [State.wordWrite_first _ s hx hd hg hw hl]
  refine ⟨?_, rfl⟩
  rw [Tab.find_put, if_pos rfl]
  exact congrArg some (BitVec.eq_of_toNat_eq (by simp))

theorem endsSettled_pair_second (hk : d.kind = .plain) (hg : d.group = 2) (hw : w % 2 = 1) :
    EndsSettled (.registerWrite who addr false data) s fun u =>
      Tab.find u.held addr.toNat = none ∧ Tab.find u.held (addr.toNat - 4) = none ∧
      { u with held := s.held, regs := s.regs } = s ∧
      (∀ b, b ≠ addr.toNat → b ≠ addr.toNat - 4 → u.rd b = s.rd b) ∧
      WordWritten d w (data.toNat % 2 ^ 32) (s.rd addr.toNat) (u.rd addr.toNat) ∧
      WordWritten d (w - 1) ((Tab.find s.held (addr.toNat - 4)).getD (s.rd (addr.toNat - 4))).toNat
        (s.rd (addr.toNat - 4)) (u.rd (addr.toNat - 4)) := by
  refine ⟨_, exec_registerWrite_openTo ho, ?_⟩
  rw [State.wordWrite_second _ s hx hd hk hg hw, Nat.mod_mod]
  generalize addr.toNat = a at *
  have ha : a - 4 + 4 = a := by have := regAt_le hd; omega
  have hne : a - 4 ≠ a := by omega
  generalize ht : ({ s with held := Tab.put s.held a (BitVec.ofNat 32 (data.toNat % 2 ^ 32)) } : State) = t
  have hts : { t with held := s.held } = s := by rw [← ht]
  have hrd (b : Nat) : (t.dropHeld (a - 4) 2).rd b = s.rd b := by rw [State.rd_dropHeld, ← ht]; rfl
  generalize ((Tab.find s.held (a - 4)).getD (s.rd (a - 4))).toNat = f
  refine ⟨?_, ?_, ?_, fun b hb hb' => ?_, ?_, ?_⟩
  · rw [State.wordSet_held, State.wordSet_held, State.find_dropHeld_pair, if_pos (.inl ha.symm)]
  · rw [State.wordSet_held, State.wordSet_held, State.find_dropHeld_pair, if_pos (.inr rfl)]
  · exact (congrArg (fun x : State => { x with held := s.held, regs := s.regs }) (t.dropHeld_only (a - 4) 2) :).trans
      (congrArg (fun x : State => { x with regs := s.regs }) hts :)
  · rw [State.rd_wordSet_ne _ _ _ _ hb, State.rd_wordSet_ne _ _ _ _ hb', hrd]
  · have h := State.wordWritten_wordSet ((t.dropHeld (a - 4) 2).wordSet d (w - 1) (a - 4) f) d w a (data.toNat % 2 ^ 32)
    rwa [State.rd_wordSet_ne _ _ _ _ hne.symm, hrd] at h
  · have h := State.wordWritten_wordSet (t.dropHeld (a - 4) 2) d (w - 1) (a - 4) f
    rw [hrd] at h
    rwa [State.rd_wordSet_ne _ _ _ _ hne]

end

/-- Settles O29: each conjunct is a case of `writeBy`, `reach`, `wordWrite`, `gatedDone`, `fmtGenSet` or `rowWrite`; that a
misaligned access to a secure half is denied without a record is the order of `writeBy` (log entry 132). -/
theorem registerWrites : Obligations.RegisterWrites := by
  unfold Obligations.RegisterWrites
  refine ⟨?_, ?_, ?_⟩
  · intro who addr wide data s a i size c x barred
    have hc := exec_registerWrite who addr wide data s
    have hz : size ≠ 16 := by simp only [size]; split <;> decide
    refine ⟨fun h => ⟨s, ?_, rfl⟩, fun h => ⟨s.ctlDenied_iff x a size, fun hd => ⟨_, ?_, rfl⟩, fun hd =>
      ⟨fun hb => ⟨_, ?_, rfl⟩, fun hb hp => ⟨_, ?_, rfl⟩, fun hb hp hh => ⟨_, ?_, rfl⟩⟩⟩, ?_, ?_, ?_, ?_⟩
    · rw [hc, State.writeBy_not_canWrite _ _ h]
    · rw [hc, State.writeBy_denied _ _ h hd]
    · rw [hc, State.writeBy_secure _ _ h hd hb]
    · rw [hc, State.writeBy_reach _ _ h hd hb, State.reach_off _ _ hp]
    · rw [hc, State.writeBy_reach _ _ h hd hb, State.reach_holds _ _ hp hh hz]
    · exact fun u b => ⟨u.record_only _ _ _, u.record_only _ _ _, u.denyWrite_writer who b⟩
    · intro d w ho hx hd hk hwide
      subst hwide
      exact ⟨endsSettled_plain_single ho hx hd hk, endsSettled_pair_first ho hx hd, endsSettled_pair_second ho hx hd hk⟩
    · exact fun e => ⟨exec_gatedAccessComplete_none e s, fun h => ⟨_, exec_gatedAccessComplete_some e s h, rfl⟩⟩
    · exact fun u g => u.gatedDone_eq g
  · intro v s cur lo hi ho
    have hf (k : Nat) : (v.extractLsb' k 8).toNat = fld v.toNat k 8 := by
      simp [fld, BitVec.extractLsb'_toNat, Nat.shiftRight_eq_div_pow]
    have hcur : cur = fld v.toNat 0 8 := hf 0
    have hlo : lo = fld v.toNat 8 8 := hf 8
    have hhi : hi = fld v.toNat 16 8 := hf 16
    clear_value cur lo hi
    subst hcur hlo hhi
    refine ⟨fun h => ?_, fun h h' hp => ⟨_, exec_fmtGenWrite v s ho, ?_⟩⟩
    · rw [exec_fmtGenWrite v s ho, State.fmtGenSet_outside _ _ h]
    · have hd := s.dropHeld_only Reg.fmtGen 1
      have hpd : (s.dropHeld Reg.fmtGen 1).pairOn = false := (State.pairOn_congr (State.rd_dropHeld _ _ _ _)).trans hp
      generalize s.dropHeld Reg.fmtGen 1 = t at *
      obtain ⟨hg, h0, h1, hk⟩ := t.fmtGenSet_effect v.toNat h h' hpd
      exact ⟨hg _ (by decide) (by decide), hg _ (by decide) (by decide), hg _ (by decide) (by decide), h0, h1,
        (congrArg State.mem hk :).trans (congrArg State.mem hd :), (congrArg State.frames hk :).trans (congrArg State.frames hd :),
        (congrArg State.threads hk :).trans (congrArg State.threads hd :), (congrArg State.insts hk :).trans (congrArg State.insts hd :)⟩
  · intro v w cl port link s rows
    suffices h : ∀ x ∈ rows, RowWrites s x from fun x hx => (h x hx).ends
    simp only [rows, List.forall_mem_cons, List.not_mem_nil, false_implies, implies_true, and_true]
    exact ⟨.next (by decide) rfl, .next (by decide) rfl, .next (by decide) rfl, .next (by decide) rfl,
      .next (by decide) rfl, .next (by decide) rfl, .next (by decide) rfl, .settled (by decide) rfl,
      .next (by decide) rfl, .next (by decide) rfl, .next (by decide) rfl, .settled (by decide) rfl⟩

end Sys2Proof.Machine
end

section
/-! SUPPORT. Numbers and fields that span several words of the register file, and the little-endian bytes of a number. -/

namespace Sys2Proof.Machine

/-! ### Words in a row -/

theorem State.rdN_lt (s : State) (a n : Nat) : s.rdN a n < 2 ^ (32 * n) := by
  induction n generalizing a with
  | zero => simp [State.rdN]
  | succ n ih =>
    have h := ih (a + 4)
    have hw := (s.rd a).isLt
    rw [State.rdN, show 32 * (n + 1) = 32 * n + 32 by omega, Nat.pow_add]
    omega

/-- A number in a row of words depends on these words alone. -/
theorem State.rdN_congr {s t : State} {a n : Nat} (h : ∀ i, i < n → t.rd (a + 4 * i) = s.rd (a + 4 * i)) :
    t.rdN a n = s.rdN a n := by
  induction n generalizing a with
  | zero => rfl
  | succ n ih =>
    have h0 := h 0 (by omega)
    have hs := ih (a := a + 4) fun i hi => by
      have hi' := h (i + 1) (by omega)
      rwa [show a + 4 * (i + 1) = a + 4 + 4 * i by omega] at hi'
    simp only [Nat.mul_zero, Nat.add_zero] at h0
    rw [State.rdN, State.rdN, h0, hs]

/-- A number written in a row of words, cut to what they hold. -/
theorem State.rdN_wrN_self (s : State) (a n v : Nat) : (s.wrN a n v).rdN a n = v % 2 ^ (32 * n) := by
  induction n generalizing s a v with
  | zero => simp [State.rdN, Nat.mod_one]
  | succ n ih =>
    have h0 : ((s.wr a (BitVec.ofNat 32 v)).wrN (a + 4) n (v / 2 ^ 32)).rd a = BitVec.ofNat 32 v := by
      rw [State.rd_wrN_ne _ _ _ _ _ fun i _ => by omega, State.rd_wr_self]
    rw [State.wrN, State.rdN, ih, h0, BitVec.toNat_ofNat, show 32 * (n + 1) = 32 + 32 * n by omega, Nat.pow_add, Nat.mod_mul]

/-! ### Fields -/

/-- The words of a field hold it whole. -/
theorem Fld.le_words (f : Fld) : f.lo % 32 + f.width ≤ 32 * f.words := by unfold Fld.words; omega

/-- A field that has been set. -/
theorem State.rf_setRf_same (s : State) (a : Nat) (f : Fld) (v : Nat) : (s.setRf a f v).rf a f = v % 2 ^ f.width := by
  rw [State.rf, State.setRf, State.rdN_wrN_self, Nat.mod_eq_of_lt (setFld_lt _ _ _ _ _ (s.rdN_lt _ _) f.le_words), fld_setFld]

/-- A field none of whose words is a word of the field that has been set. -/
theorem State.rf_setRf_apart (s : State) (a b : Nat) (f g : Fld) (v : Nat)
    (h : b + 4 * (g.lo / 32) + 4 * g.words ≤ a + 4 * (f.lo / 32) ∨ a + 4 * (f.lo / 32) + 4 * f.words ≤ b + 4 * (g.lo / 32)) :
    (s.setRf a f v).rf b g = s.rf b g := by
  rw [State.rf, State.rf, State.rdN_congr fun i hi => s.rd_setRf_ne a f v _ fun j hj => by omega]

/-! ### Bytes -/

/-- The little-endian bytes of a number, read again. -/
theorem leNat_leBytes (n x : Nat) : leNat (leBytes n x) = x % 256 ^ n := by
  induction n generalizing x with
  | zero => simp [leBytes, leNat, Nat.mod_one]
  | succ n ih =>
    rw [leBytes, leNat, ih, BitVec.toNat_ofNat, show 256 ^ (n + 1) = 2 ^ 8 * 256 ^ n from Nat.pow_succ', Nat.mod_mul (a := 2 ^ 8)]
    rfl

end Sys2Proof.Machine
end

section
/-! Proofs about control accesses of threads and stewards (R18 to R21, R74), and obligation O14. -/

namespace Sys2Proof.Machine

open Sys2Proof.Safety

/-! ### LDC and STC -/

theorem exec_ldc (who : Agent) (pr : BitVec 3) (rd ra : BitVec 5) (size : BitVec 2) (off : BitVec 9) (s : State) :
    exec (.ldc who pr rd ra size off) s = execAfv who pr (.load .zero rd ra 3 size off) s := rfl

theorem exec_stc (who : Agent) (pr : BitVec 3) (rs ra : BitVec 5) (size : BitVec 2) (off : BitVec 9) (s : State) :
    exec (.stc who pr rs ra size off) s = execAfv who pr (.store false rs ra 3 size off) s := rfl

/-- An operation of space 0b11 finds room where no other control access is outstanding (R98). -/
theorem State.roomFor_ctl {s : State} {n : Nat} (h : ∀ x ∈ (s.thr n).ops, x.act.inSet 4 = false) (k : LoadKind) (be : Bool)
    (r ra : BitVec 5) (size : BitVec 2) (off : BitVec 9) :
    s.roomFor n (.load k r ra 3 size off) = true ∧ s.roomFor n (.store be r ra 3 size off) = true := by
  simpa [State.roomFor] using h

/-- A load of space 0b11 is a control access without data. -/
theorem State.insn_load_ctl (s : State) (n : Nat) (k : LoadKind) (rd ra : BitVec 5) (size : BitVec 2) (off : BitVec 9) :
    s.insn n (.load k rd ra 3 size off) =
      s.runCtl n k (some rd) (reg s n ra + off.signExtend 64).toNat (2 ^ size.toNat) none := rfl

/-- A store of space 0b11 is a control access with the low bytes of its register. -/
theorem State.insn_store_ctl (s : State) (n : Nat) (rs ra : BitVec 5) (size : BitVec 2) (off : BitVec 9) :
    s.insn n (.store false rs ra 3 size off) =
      s.runCtl n .zero none (reg s n ra + off.signExtend 64).toNat (2 ^ size.toNat)
        (some ((reg s n rs).toNat % 2 ^ (8 * 2 ^ size.toNat))) := by
  have h : leNat (storeVal false (reg s n rs) (2 ^ size.toNat)) = (reg s n rs).toNat % 2 ^ (8 * 2 ^ size.toNat) := by
    rw [Nat.pow_mul]
    exact leNat_leBytes _ _
  rw [← h]
  rfl

/-- The issue of an instruction writes no general register. -/
theorem reg_noteIssue (s : State) (n : Nat) (r : BitVec 5) : reg (s.noteIssue n) n r = reg s n r := by
  simp [reg]

theorem State.entryOf_noteIssue (s : State) (n m : Nat) : (s.noteIssue n).entryOf m = s.entryOf m := by
  have h : (s.noteIssue n).entries = s.entries := (congrArg State.entries (s.noteIssue_only n) :)
  rw [State.entryOf, h, State.entryOf]

theorem State.nextOp_noteIssue (s : State) (n : Nat) : (s.noteIssue n).nextOp = s.nextOp :=
  (congrArg State.nextOp (s.noteIssue_only n) :)

/-- An instruction that has written nothing itself goes on to the next. -/
theorem Res.apply_ok_nil (s : State) (n pc : Nat) : (Res.ok s [] []).apply n pc = goesOn s n := rfl

/-! ### The cases of a control access -/

section
variable (s : State) (n : Nat) (k : LoadKind) (rd : Option (BitVec 5)) (w : Option Nat) {ea m : Nat}

/-- Fewer than four bytes: no such access (R74). -/
theorem State.runCtl_narrow (h : m < 4) : s.runCtl n k rd ea m w = .fault s 1 0 := by
  simp only [State.runCtl, if_pos h, excIllegal]

/-- A worker without the CTL grant, or an address beyond control space (R18, R20). -/
theorem State.runCtl_barred (hm : 4 ≤ m) (h : (n < 2048 ∧ (s.entryOf n).ctl = false) ∨ 2 ^ 32 ≤ ea) :
    s.runCtl n k rd ea m w = .fault s 5 ea := by
  have h' : (n < 2048 ∧ (!(s.entryOf n).ctl) = true) ∨ 2 ^ 32 ≤ ea := by simpa using h
  simp only [State.runCtl, if_neg (Nat.not_lt.2 hm), if_pos h', excCtlAccess]

/-- An access to the lower half of an island that runs and holds none is performed at its issue (log entry 35). -/
theorem State.ctlAccess_performed (who : Initiator) (op : Nat) (hi : ea / 0x1000000 ≤ 0x68) (ha : ea % m = 0)
    (hl : ea % 0x1000000 < 0x800000) (hp : (s.island (ea / 0x1000000)).power ≠ .off) (hh : s.holds (ea / 0x1000000) = false) :
    s.ctlAccess who op ea m w = ((s.ctlPerform who ea m w).1, .value (s.ctlPerform who ea m w).2) := by
  simp [State.ctlAccess, islandAssigned, hi, ha, hp, hh, Nat.not_le.2 hl]

theorem State.runCtl_performed (hm : 4 ≤ m) (hg : n < 2048 → (s.entryOf n).ctl = true) (hea : ea < 2 ^ 32)
    (hi : ea / 0x1000000 ≤ 0x68) (ha : ea % m = 0) (hl : ea % 0x1000000 < 0x800000)
    (hp : (s.bumpOp.island (ea / 0x1000000)).power ≠ .off) (hh : s.bumpOp.holds (ea / 0x1000000) = false) :
    s.runCtl n k rd ea m w =
      .ok ((s.bumpOp.ctlPerform (agentInit n) ea m w).1.settle.startOp n s.nextOp
        (.ctl rd k m (some (s.bumpOp.ctlPerform (agentInit n) ea m w).2)) ea) [] [] := by
  have h' : ¬((n < 2048 ∧ (!(s.entryOf n).ctl) = true) ∨ 2 ^ 32 ≤ ea) := by
    rintro (⟨hn, hc⟩ | h)
    · simp [hg hn] at hc
    · omega
  simp only [State.runCtl, if_neg (Nat.not_lt.2 hm), if_neg h', s.bumpOp.ctlAccess_performed w _ _ hi ha hl hp hh]

end

/-! ### What LDC and STC come to where the thread may issue them -/

section
variable {who : Agent} {n : Nat} {pr : BitVec 3} {rd ra : BitVec 5} {s : State} (size : BitVec 2) (off : BitVec 9)
  (hw : agentNum who = some n) (hc : CanIssue s n pr [rd, ra] []) (hr : ∀ x ∈ (s.thr n).ops, x.act.inSet 4 = false)
include hw hc hr

theorem exec_ldc_runCtl : exec (.ldc who pr rd ra size off) s =
    .next (((s.noteIssue n).runCtl n .zero (some rd) (reg s n ra + off.signExtend 64).toNat (2 ^ size.toNat) none).apply n
      (s.thr n).pc) := by
  rw [exec_ldc, agentNum_execAfv hw, canIssue_exec hc _ (by simp [Afv.regs]) (by simp [Afv.preds])
    (State.roomFor_ctl hr .zero false rd ra size off).1, State.insn_load_ctl, reg_noteIssue]

theorem exec_stc_runCtl : exec (.stc who pr rd ra size off) s =
    .next (((s.noteIssue n).runCtl n .zero none (reg s n ra + off.signExtend 64).toNat (2 ^ size.toNat)
      (some ((reg s n rd).toNat % 2 ^ (8 * 2 ^ size.toNat)))).apply n (s.thr n).pc) := by
  rw [exec_stc, agentNum_execAfv hw, canIssue_exec hc _ (by simp [Afv.regs]) (by simp [Afv.preds])
    (State.roomFor_ctl hr .zero false rd ra size off).2, State.insn_store_ctl, reg_noteIssue, reg_noteIssue]

end

/-- Settles O14: LDC and STC are `runCtl` after the issue has been counted, whose three cases are the three conjuncts; the
access is performed at its issue (log entry 35). -/
theorem controlAccesses : Obligations.ControlAccesses := by
  unfold Obligations.ControlAccesses
  intro who n pr rd ra size off s hw hc hr ea m i u
  have hL := exec_ldc_runCtl size off hw hc hr
  have hS := exec_stc_runCtl size off hw hc hr
  refine ⟨fun hm => ?_, fun hm hb => ?_, fun hm hg hea hi ha hl hp hh => ?_⟩
  · rw [Raises, Raises, hL, hS, State.runCtl_narrow _ _ _ _ _ hm, State.runCtl_narrow _ _ _ _ _ hm]
    exact ⟨rfl, rfl⟩
  · rw [← State.entryOf_noteIssue s n n] at hb
    rw [Raises, Raises, hL, hS, State.runCtl_barred _ _ _ _ _ hm hb, State.runCtl_barred _ _ _ _ _ hm hb]
    exact ⟨rfl, rfl⟩
  · rw [← State.entryOf_noteIssue s n n] at hg
    rw [hL, hS, State.runCtl_performed _ _ _ _ _ hm hg hea hi ha hl hp hh,
      State.runCtl_performed _ _ _ _ _ hm hg hea hi ha hl hp hh, State.nextOp_noteIssue]
    exact ⟨rfl, rfl⟩

end Sys2Proof.Machine
end

section
/-! Proofs about the Lantern's time scales (R27 to R30): a tick, snapshots and steps, and obligation O28. -/

namespace Sys2Proof.Machine

open Sys2Proof.Safety

/-! ### What only the time base changes -/

theorem clockKept_refl (s : State) : ClockKept s s := rfl

theorem clockKept_trans {s t u : State} (hst : ClockKept s t) (htu : ClockKept t u) : ClockKept s u :=
  (congrArg (fun x : State => { x with clock := s.clock, regs := s.regs }) htu :).trans hst

theorem clockKept_setRf {s t : State} (h : ClockKept s t) (a : Nat) (f : Fld) (v : Nat) : ClockKept s (t.setRf a f v) :=
  clockKept_trans h (congrArg (fun x : State => { x with clock := t.clock }) (t.setRf_only a f v) :)

/-! ### A step of TOD (R30) -/

/-- A number of `n` bits read as signed. -/
theorem sgn_eq_toInt (n x : Nat) (hn : 0 < n) (h : x < 2 ^ n) : sgn n x = (BitVec.ofNat n x).toInt := by
  have h2 : 2 ^ n = 2 * 2 ^ (n - 1) := by rw [← Nat.pow_succ', Nat.succ_eq_add_one, Nat.sub_add_cancel hn]
  rw [BitVec.toInt_eq_toNat_cond, BitVec.toNat_ofNat, Nat.mod_eq_of_lt h, sgn]
  by_cases hx : x < 2 ^ (n - 1)
  · rw [if_pos hx, if_pos (by omega)]
  · rw [if_neg hx, if_neg (by omega)]
    push_cast
    rfl

theorem stepTod_frac (tod : Nat) (d : Int) : stepTod tod d % 2 ^ 24 = tod % 2 ^ 24 := by
  simp only [stepTod, nsUnit]; omega

theorem stepTod_ns (tod : Nat) (d : Int) : stepTod tod d / 2 ^ 24 = (((tod / 2 ^ 24 : Nat) : Int) + d).toNat % 2 ^ 64 := by
  simp only [stepTod, nsUnit]; omega

/-! ### A tick (R27) -/

/-- TOD after the next tick: the addend, then a requested step. -/
def State.todNext (s : State) : Nat :=
  let tod := (s.clock.tod + (s.rd Reg.timeAddend).toNat) % 2 ^ 88
  if s.clock.stepReq then stepTod tod (BitVec.ofNat 64 (s.rdN Reg.timeStep 2)).toInt else tod

/-- Both scales have advanced, and no request waits. -/
def State.scalesAdvanced (s : State) : State :=
  { s with clock :=
    { tod := s.todNext, ict := (s.clock.ict + (s.rd Reg.timeAddend).toNat) % 2 ^ 88, snapReq := false, stepReq := false } }

/-- TIME_SNAP has taken both scales. -/
def State.snapLatched (s : State) : State :=
  (((s.setRf Reg.timeSnap timeSnap_FRAC (s.clock.tod % 2 ^ 24 / 256)).setRf Reg.timeSnap timeSnap_TOD_NS
    (s.clock.tod / 2 ^ 24)).setRf Reg.timeSnap timeSnap_ICT_NS (s.clock.ict / 2 ^ 24)).setRf Reg.timeCtl timeCtl_SNAP_DONE 1

/-- A tick of a Lantern that runs. -/
theorem State.tick_eq (s : State) (h : s.boot.phase ≠ .off) :
    s.tick = if s.clock.snapReq then s.scalesAdvanced.snapLatched else s.scalesAdvanced := by
  simp only [State.tick, if_neg h, sgn_eq_toInt 64 _ (by decide) (s.rdN_lt Reg.timeStep 2)]
  rfl

theorem State.todNext_lt (s : State) : s.todNext < 2 ^ 88 := by
  simp only [State.todNext, stepTod, nsUnit]
  split <;> omega

theorem clockKept_snapLatched (s : State) : ClockKept s s.snapLatched :=
  clockKept_setRf (clockKept_setRf (clockKept_setRf (clockKept_setRf (clockKept_refl s) _ _ _) _ _ _) _ _ _) _ _ _

theorem State.snapLatched_clock (s : State) : s.snapLatched.clock = s.clock := by
  simp only [State.snapLatched, State.setRf_clock]

/-- The fields of a snapshot stand in words of their own. -/
theorem State.snapLatched_fields (s : State) :
    s.snapLatched.rf Reg.timeSnap timeSnap_ICT_NS = s.clock.ict / 2 ^ 24 % 2 ^ 64 ∧
    s.snapLatched.rf Reg.timeSnap timeSnap_TOD_NS = s.clock.tod / 2 ^ 24 % 2 ^ 64 ∧
    s.snapLatched.rf Reg.timeSnap timeSnap_FRAC = s.clock.tod % 2 ^ 24 / 256 % 2 ^ 16 ∧
    s.snapLatched.rf Reg.timeCtl timeCtl_SNAP_DONE = 1 := by
  unfold State.snapLatched
  refine ⟨?_, ?_, ?_, State.rf_setRf_same _ _ _ _⟩
  · rw [State.rf_setRf_apart _ _ _ _ _ _ (by decide), State.rf_setRf_same]
  · rw [State.rf_setRf_apart _ _ _ _ _ _ (by decide), State.rf_setRf_apart _ _ _ _ _ _ (by decide), State.rf_setRf_same]
  · rw [State.rf_setRf_apart _ _ _ _ _ _ (by decide), State.rf_setRf_apart _ _ _ _ _ _ (by decide),
      State.rf_setRf_apart _ _ _ _ _ _ (by decide), State.rf_setRf_same]

/-- A snapshot writes no word of the power controller. -/
theorem State.pstate_snapLatched (s : State) : s.snapLatched.pstate = s.pstate := by
  simp only [State.pstate, State.snapLatched]
  rw [State.rf_setRf_apart _ _ _ _ _ _ (by decide), State.rf_setRf_apart _ _ _ _ _ _ (by decide),
    State.rf_setRf_apart _ _ _ _ _ _ (by decide), State.rf_setRf_apart _ _ _ _ _ _ (by decide)]

theorem State.pstate_tick (s : State) (h : s.boot.phase ≠ .off) : s.tick.pstate = s.pstate := by
  rw [s.tick_eq h]
  split
  · exact s.scalesAdvanced.pstate_snapLatched
  · rfl

theorem State.tick_clock (s : State) (h : s.boot.phase ≠ .off) : s.tick.clock = s.scalesAdvanced.clock := by
  rw [s.tick_eq h]
  split
  · exact s.scalesAdvanced.snapLatched_clock
  · rfl

theorem clockKept_tick (s : State) (h : s.boot.phase ≠ .off) : ClockKept s s.tick := by
  have ha : ClockKept s s.scalesAdvanced := rfl
  rw [s.tick_eq h]
  split
  · exact clockKept_trans ha (clockKept_snapLatched _)
  · exact ha

/-- A requested snapshot holds what the scales read after the tick. -/
theorem State.tick_snapshot (s : State) (h : s.boot.phase ≠ .off) (hs : s.clock.snapReq = true) :
    s.tick.rf Reg.timeSnap timeSnap_ICT_NS = s.tick.clock.ict / 2 ^ 24 ∧
    s.tick.rf Reg.timeSnap timeSnap_TOD_NS = s.tick.clock.tod / 2 ^ 24 ∧
    s.tick.rf Reg.timeSnap timeSnap_FRAC = s.tick.clock.tod % 2 ^ 24 / 256 ∧
    s.tick.rf Reg.timeCtl timeCtl_SNAP_DONE = 1 := by
  rw [s.tick_clock h, s.tick_eq h, if_pos hs]
  obtain ⟨hict, htod, hfrac, hdone⟩ := s.scalesAdvanced.snapLatched_fields
  have hi : s.scalesAdvanced.clock.ict < 2 ^ 88 := Nat.mod_lt _ (by decide)
  have ht : s.scalesAdvanced.clock.tod < 2 ^ 88 := s.todNext_lt
  exact ⟨hict.trans (Nat.mod_eq_of_lt (by omega)), htod.trans (Nat.mod_eq_of_lt (by omega)),
    hfrac.trans (Nat.mod_eq_of_lt (by omega)), hdone⟩

/-! ### The power controller at a tick (R26, R406) -/

theorem State.trimFollow_of_ne (s : State) (h : s.pstate ≠ 1) : s.trimFollow = s := by simp [State.trimFollow, h]

theorem State.noteBusy_of_ne (s : State) (h : s.pstate ≠ 1) : s.noteBusy = s := by simp [State.noteBusy, h]

theorem exec_lanternTick_off (s : State) (h : s.boot.phase = .off) : exec .lanternTick s = .next s := by
  show execLanternTick s = _
  rw [execLanternTick, if_pos h]

theorem exec_lanternTick (s : State) (h : s.boot.phase ≠ .off) :
    exec .lanternTick s = .next (if s.pstate = 1 then s.tick.trimFollow.noteBusy else s.tick) := by
  show execLanternTick s = _
  rw [execLanternTick, if_neg h]
  split
  · rfl
  · next hp =>
    rw [← s.pstate_tick h] at hp
    rw [State.trimFollow_of_ne _ hp, State.noteBusy_of_ne _ hp]

/-! ### Requests (R30) -/

section
variable {s : State} (h : Open s Reg.timeCtl)
include h

theorem exec_timeSnap : exec .timeSnap s = .next
    (({ s.dropHeld Reg.timeCtl 1 with clock := { s.clock with snapReq := true } } : State).setRf Reg.timeCtl timeCtl_SNAP_DONE 0) :=
  congrArg Host.Outcome.next (State.rowWrite_open 1 (fun s => s.timeCtlWrite 1) h)

theorem exec_timeStep : exec .timeStep s = .next
    { s.dropHeld Reg.timeCtl 1 with clock := { s.clock with stepReq := true } } :=
  congrArg Host.Outcome.next (State.rowWrite_open 2 (fun s => s.timeCtlWrite 2) h)

end

/-! ### Followers (R29) -/

theorem exec_followerRealigned (i : Fin 256) (s : State) : exec (.followerRealigned i) s =
    .next (if (s.island i.val).power = .off ∨ s.gatedNow i.val = true then s
      else s.setIsland i.val { s.island i.val with power := .on, aligned := true }) := by
  show execFollowerRealigned i s = _
  simp only [execFollowerRealigned, Bool.or_eq_true, decide_eq_true_eq]

/-- Settles O28: a tick advances the scales by `todNext` and latches them by `snapLatched`, whose fields stand in words of
their own, none of them the power controller's. -/
theorem timeScales : Obligations.TimeScales := by
  unfold Obligations.TimeScales
  intro s a tod d
  refine ⟨exec_lanternTick_off s, fun h => ⟨s.tick, exec_lanternTick s h, ?_⟩, fun h => ⟨⟨_, exec_timeSnap h, ?_, ?_, ?_⟩,
    exec_timeStep h⟩, fun i => exec_followerRealigned i s⟩
  · have hclock := s.tick_clock h
    refine ⟨by rw [hclock]; rfl, fun hstep => ?_, fun hstep => ?_, by rw [hclock]; rfl, by rw [hclock]; rfl, fun hsnap => ?_,
      s.tick_snapshot h, clockKept_tick s h⟩
    · rw [hclock]
      exact if_neg (by simp [hstep])
    · have ht : s.tick.clock.tod = stepTod tod d := by
        rw [hclock]
        exact if_pos hstep
      rw [ht]
      exact ⟨stepTod_frac _ _, stepTod_ns _ _⟩
    · rw [s.tick_eq h, if_neg (by simp [hsnap])]
      rfl
  · exact State.setRf_clock _ _ _ _
  · exact State.rf_setRf_same _ _ _ _
  · have hreq : ClockKept (s.dropHeld Reg.timeCtl 1) { s.dropHeld Reg.timeCtl 1 with clock := { s.clock with snapReq := true } } := rfl
    exact clockKept_setRf hreq _ _ _

end Sys2Proof.Machine
end

section
/-! Proofs about the state after reset, and obligation O59. -/

namespace Sys2Proof.Machine

open Sys2Proof.Safety

/-- After reset no register has been written: each word reads its reset value (R8). -/
theorem State.rd_reset (a : Nat) : State.reset.rd a = regReset a := Tab.get_nil _ _

/-- Nothing is listed after reset, and the empty tables are canonical. -/
theorem canonical_reset : Canonical State.reset := ⟨State.memory_wf_reset, Tab.wf_nil _, Tab.wf_nil _⟩

/-- After reset every key slot is EMPTY (the model's choice, log entry 17). -/
theorem State.slot_reset (n : Nat) : (State.reset.slot n).st = .empty := rfl

/-- Settles O59: nothing is listed after reset, so each clause reads a default: a register its reset value (R7, R8), a key slot
EMPTY (the model's choice, log entry 17), a byte of memory zero (log entry 11). -/
theorem resetState : Obligations.ResetState := by
  unfold Obligations.ResetState
  exact ⟨rfl, rfl, by decide, rfl, fun h => ⟨rfl, rfl⟩, (State.rd_reset _).trans (by decide),
    (State.rd_reset _).trans (by decide), by decide, by decide, (State.rd_reset _).trans (by decide), State.rd_reset,
    fun a => rfl, fun k _ => rfl, rfl, rfl, rfl, rfl, fun n _ => State.slot_reset n, canonical_reset⟩

end Sys2Proof.Machine
end

section
/-! Proofs about SPUT (R38, R56, R72): the satchel word that it leaves, its loads of INST_GEN and SVC, its write of EXC, and
obligation O9. -/

namespace Sys2Proof.Machine

open Sys2Proof.Safety

/-! ### Fields of a word -/

theorem fld_toNat {w : Nat} (x : BitVec w) (lo n : Nat) : fld x.toNat lo n = (x.extractLsb' lo n).toNat := by
  rw [BitVec.extractLsb'_toNat, Nat.shiftRight_eq_div_pow, fld]

theorem fld_toNat_ne_zero {w : Nat} (x : BitVec w) (lo n : Nat) : fld x.toNat lo n ≠ 0 ↔ x.extractLsb' lo n ≠ 0 := by
  rw [fld_toNat]
  exact not_congr ⟨fun h => BitVec.eq_of_toNat_eq h, fun h => by rw [h]; rfl⟩

theorem bit_toNat {w : Nat} (x : BitVec w) (i : Nat) : bit x.toNat i = x.getLsbD i := bit_eq_testBit _ _

theorem fld_one_eq_iff {w : Nat} (x y : BitVec w) (i : Nat) :
    fld x.toNat i 1 = fld y.toNat i 1 ↔ x.getLsbD i = y.getLsbD i := by
  rw [← bit_toNat, ← bit_toNat, bit, bit, decide_eq_decide, fld, fld]
  omega

/-- A field replaced: the bits that `keep` lists stay, and the others take the value. -/
theorem ofNat_setFld (x keep : W32) (lo n v : Nat)
    (hk : ∀ i, i < 32 → keep.getLsbD i = !decide (lo ≤ i ∧ i < lo + n)) :
    BitVec.ofNat 32 (setFld x.toNat lo n v) = (x &&& keep) ||| (BitVec.ofNat 32 v <<< lo &&& ~~~keep) := by
  apply BitVec.eq_of_getLsbD_eq
  intro i hi
  simp only [BitVec.getLsbD_ofNat, testBit_setFld, BitVec.getLsbD_or, BitVec.getLsbD_and, BitVec.getLsbD_not,
    BitVec.getLsbD_shiftLeft, hk i hi, hi, decide_true, Bool.true_and, Bool.not_not]
  by_cases h : lo ≤ i ∧ i < lo + n
  · simp [h, show i - lo < 32 by omega, Nat.not_lt.2 h.1]
  · simp [h, BitVec.testBit_toNat]

/-! ### Words of a satchel -/

/-- Word `i` of a frame's satchel, as bits. -/
def Frame.word (f : Frame) (i : Nat) : W32 := f.s[i]?.getD 0

theorem word_eq_frame_word (s : State) (fid i : Nat) : word s fid i = (s.frame fid).word i := rfl

theorem Frame.satWord_eq (f : Frame) (i : Nat) : satWord f.s i = (f.word i).toNat := rfl

/-- The frame with word `k` of its satchel replaced. -/
def Frame.setWord (f : Frame) (k : Nat) (x : W32) : Frame := { f with s := satSetWord f.s k x.toNat }

theorem Frame.word_setWord (f : Frame) {k : Nat} (hk : k < 16) (x : W32) (i : Nat) :
    (f.setWord k x).word i = if i = k then x else f.word i := by
  simp only [Frame.word, Frame.setWord, satSetWord, BitVec.ofNat_toNat, BitVec.setWidth_eq, Vector.getElem?_setIfInBounds]
  by_cases h : i = k
  · subst h; simp [hk]
  · simp [h, Ne.symm h]

theorem Frame.gf_eq (f : Frame) (x : SatField) : f.gf x = fld (f.word x.w).toNat x.lo x.n := rfl

theorem Frame.sf_eq (f : Frame) (x : SatField) (v : Nat) (hn : x.lo + x.n ≤ 32) :
    f.sf x v = f.setWord x.w (BitVec.ofNat 32 (setFld (f.word x.w).toNat x.lo x.n v)) := by
  rw [Frame.setWord, BitVec.toNat_ofNat, Nat.mod_eq_of_lt (setFld_lt _ _ _ _ 32 (BitVec.isLt _) hn)]
  rfl

/-- INST_GEN replaced. -/
theorem Frame.sf_instGen (f : Frame) (v : Nat) : f.sf sfInstGen v =
    f.setWord 0 ((f.word 0 &&& 0xF0000FFF) ||| (BitVec.ofNat 32 v <<< 12 &&& 0x0FFFF000)) := by
  rw [Frame.sf_eq f _ v (by decide), ofNat_setFld _ 0xF0000FFF _ _ _ (by decide)]
  rfl

/-- SVC replaced. -/
theorem Frame.sf_svc (f : Frame) (v : Nat) : f.sf sfSvc v =
    f.setWord 2 ((f.word 2 &&& 0xFFFFC000) ||| BitVec.ofNat 32 (v % 2 ^ 14)) := by
  have hv : BitVec.ofNat 32 v <<< 0 &&& ~~~(0xFFFFC000 : W32) = BitVec.ofNat 32 (v % 2 ^ 14) := by
    apply BitVec.eq_of_toNat_eq
    have h : (~~~(0xFFFFC000 : W32)).toNat = 2 ^ 14 - 1 := rfl
    rw [BitVec.toNat_and, h, Nat.and_two_pow_sub_one_eq_mod, BitVec.shiftLeft_zero, BitVec.toNat_ofNat, BitVec.toNat_ofNat]
    omega
  rw [Frame.sf_eq f _ v (by decide), ofNat_setFld _ 0xFFFFC000 _ _ _ (by decide), ← hv]

/-! ### The word that SPUT leaves (R72) -/

/-- Word `k` after a SPUT of `a` under the mask `m`: DONE takes the bits that are set, EXC stays, and the writable bits of another
word are replaced. -/
def putWord (k : Nat) (old a m : W32) : W32 :=
  if k = 2 then old ||| (a &&& m &&& 0x0FFFC000) else (old &&& ~~~(m &&& writable k)) ||| (a &&& m &&& writable k)

/-- The frame after a SPUT of word `k`, without the loads and EXC. -/
def Frame.put (f : Frame) (k : Nat) (a m : W32) : Frame := f.setWord k (putWord k (f.word k) a m)

theorem satMask_eq {k : Nat} (hk : k < 16) : satMask k false = (writable k).toNat := by
  revert k; decide

theorem sputFrame_eq (f : Frame) {k : Nat} (hk : k < 16) (a m : W32) : sputFrame f k a.toNat m.toNat false = f.put k a m := by
  unfold sputFrame Frame.put Frame.setWord putWord
  by_cases h2 : k = 2
  · subst h2
    simp only [if_pos]
    rfl
  · have hx : ∀ y : W32, 0xFFFFFFFF ^^^ y.toNat = (~~~y).toNat := fun y => by
      rw [← BitVec.allOnes_xor, BitVec.toNat_xor]; rfl
    simp only [if_neg h2, satMask_eq hk, Frame.satWord_eq, ← BitVec.toNat_and, hx, ← BitVec.toNat_or, BitVec.and_assoc]

theorem Frame.word_put (f : Frame) {k : Nat} (hk : k < 16) (a m : W32) (i : Nat) :
    (f.put k a m).word i = if i = k then putWord k (f.word k) a m else f.word i := f.word_setWord hk _ i

/-- EXC is not among the bits that SPUT writes as they stand. -/
theorem Frame.getLsbD_put_exc (f : Frame) (a m : W32) : ((f.put 2 a m).word 2).getLsbD 28 = (f.word 2).getLsbD 28 := by
  simp [Frame.word_put, putWord]

/-! ### What SPUT does -/

/-- SPUT in terms of words: its word, the loads, and what its write of EXC means. -/
theorem State.sput_eq (s : State) (fid : Nat) {k : Nat} (hk : k < 16) (a m : W64) : s.sput fid k a m false =
    let a := a.setWidth 32
    let m := m.setWidth 32
    let s := s.modFrame fid fun f => f.put k a m
    let s := if k = 0 ∧ m.extractLsb' 0 12 ≠ 0 then s.loadGen fid else s
    let s := if k = 1 ∧ m.extractLsb' 12 10 ≠ 0 then s.loadSvc fid else s
    let f := s.frame fid
    if k ≠ 2 ∨ !m.getLsbD 28 ∨ (f.word 2).getLsbD 28 = a.getLsbD 28 then (s, .keep)
    else if a.getLsbD 28 then (s, .raise (fwReason (f.gf sfReason)))
    else (s.setFrame fid ((f.sf sfExc 0).sf sfReason 0), .resume) := by
  unfold State.sput
  simp only [← BitVec.toNat_setWidth, sputFrame_eq _ hk, fld_toNat_ne_zero, bit_toNat, Frame.gf_eq _ sfExc, fld_one_eq_iff,
    -Nat.reducePow]

section
variable (s : State) (fid : Nat) (a m : W64)

/-- A SPUT that writes neither INSTANCE nor FLOW_CLASS and leaves EXC as it is has written its word alone. -/
theorem State.sput_plain {k : Nat} (hk : k < 16) (h0 : k = 0 → (m.setWidth 32).extractLsb' 0 12 = 0)
    (h1 : k = 1 → (m.setWidth 32).extractLsb' 12 10 = 0)
    (h2 : k = 2 → (m.setWidth 32).getLsbD 28 = false ∨ (a.setWidth 32).getLsbD 28 = (word s fid 2).getLsbD 28) :
    s.sput fid k a m false = (s.modFrame fid fun f => f.put k (a.setWidth 32) (m.setWidth 32), .keep) := by
  rw [State.sput_eq s fid hk]
  simp only [show ¬(k = 0 ∧ (m.setWidth 32).extractLsb' 0 12 ≠ 0) from fun h => h.2 (h0 h.1),
    show ¬(k = 1 ∧ (m.setWidth 32).extractLsb' 12 10 ≠ 0) from fun h => h.2 (h1 h.1), if_false]
  rw [if_pos]
  by_cases hk2 : k = 2
  · subst hk2
    rw [State.frame_modFrame, if_pos rfl, Frame.getLsbD_put_exc]
    rcases h2 rfl with h | h
    · simp only [h, Bool.not_false, true_or, or_true]
    · exact .inr (.inr h.symm)
  · exact .inl hk2

/-- A SPUT of word 0 that writes INSTANCE also loads INST_GEN (R38). -/
theorem State.sput_instance (hm : (m.setWidth 32).extractLsb' 0 12 ≠ 0) :
    s.sput fid 0 a m false = ((s.modFrame fid fun f => f.put 0 (a.setWidth 32) (m.setWidth 32)).loadGen fid, .keep) := by
  simp only [State.sput_eq s fid (show 0 < 16 by decide), ne_eq, hm, not_false_eq_true, and_self, if_true, Nat.zero_ne_one,
    false_and, if_false, OfNat.zero_ne_ofNat, true_or]

/-- A SPUT of word 1 that writes FLOW_CLASS also loads SVC (R38). -/
theorem State.sput_flowClass (hm : (m.setWidth 32).extractLsb' 12 10 ≠ 0) :
    s.sput fid 1 a m false = ((s.modFrame fid fun f => f.put 1 (a.setWidth 32) (m.setWidth 32)).loadSvc fid, .keep) := by
  simp only [State.sput_eq s fid (show 1 < 16 by decide), ne_eq, hm, not_false_eq_true, and_self, if_true, Nat.one_ne_zero,
    false_and, if_false, OfNat.one_ne_ofNat, true_or]

/-- A SPUT of word 2 that changes EXC raises with the satchel's REASON where it sets EXC, and else clears EXC and REASON to
resume (R56). -/
theorem State.sput_exc (hm : (m.setWidth 32).getLsbD 28 = true)
    (ha : (a.setWidth 32).getLsbD 28 = !(word s fid 2).getLsbD 28) : s.sput fid 2 a m false =
    let f := (s.frame fid).put 2 (a.setWidth 32) (m.setWidth 32)
    if (a.setWidth 32).getLsbD 28 then (s.setFrame fid f, .raise (fwReason ((s.frame fid).gf sfReason)))
    else ((s.setFrame fid f).setFrame fid ((f.sf sfExc 0).sf sfReason 0), .resume) := by
  have hr : ((s.frame fid).put 2 (a.setWidth 32) (m.setWidth 32)).gf sfReason = (s.frame fid).gf sfReason := by
    rw [Frame.gf_eq, Frame.gf_eq, Frame.put, Frame.word_setWord _ (by decide), if_neg (by decide)]
  have hk : ¬((2 : Nat) ≠ 2 ∨ (!(m.setWidth 32).getLsbD 28) = true ∨
      (((s.frame fid).put 2 (a.setWidth 32) (m.setWidth 32)).word 2).getLsbD 28 = (a.setWidth 32).getLsbD 28) := by
    rw [Frame.getLsbD_put_exc, hm, ha, word_eq_frame_word]
    simp
  simp only [State.sput_eq s fid (show 2 < 16 by decide), OfNat.ofNat_ne_zero, OfNat.ofNat_ne_one, false_and, if_false,
    State.frame_modFrame, if_true, hk, hr]
  rfl

end

/-! ### The loads (R38) -/

/-- The edit of a satchel: but for the frames and the control registers, nothing has changed, and of the frames no byte and no
satchel but that of `fid`. -/
structure SatchelEdited (x u : State) (fid : Nat) : Prop where
  only : { u with frames := x.frames, regs := x.regs } = x
  data : (u.frame fid).data = (x.frame fid).data
  others : ∀ g, g ≠ fid → u.frame g = x.frame g

theorem SatchelEdited.trans {x y z : State} {fid : Nat} (h : SatchelEdited x y fid) (h' : SatchelEdited y z fid) :
    SatchelEdited x z fid where
  only := (congrArg (fun s : State => { s with frames := x.frames, regs := x.regs }) h'.only :).trans h.only
  data := h'.data.trans h.data
  others g hg := (h'.others g hg).trans (h.others g hg)

theorem satchelEdited_modFrame (s : State) (fid : Nat) (g : Frame → Frame) (hg : (g (s.frame fid)).data = (s.frame fid).data) :
    SatchelEdited s (s.modFrame fid g) fid where
  only := rfl
  data := by rw [State.frame_modFrame, if_pos rfl, hg]
  others i hi := by rw [State.frame_modFrame, if_neg hi]

theorem satchelEdited_of_regs {x u : State} (h : { u with regs := x.regs } = x) (fid : Nat) : SatchelEdited x u fid := by
  have hf : u.frames = x.frames := (congrArg State.frames h :)
  exact ⟨(congrArg (fun s : State => { s with frames := x.frames }) h :), by rw [State.frame_congr hf],
    fun g _ => State.frame_congr hf g⟩

/-- No-ops that are counted change the registers alone. -/
theorem State.noop_only (s : State) (ph b : Nat) : { s.noop ph b with regs := s.regs } = s := s.wrN_only _ _ _

theorem State.noops_only (s : State) (ph : Nat) (f : Frame) (l : List Nat) :
    { l.foldl (fun s p => if f.wants (orderOf ph p) then s.noop ph (orderOf ph p) else s) s with regs := s.regs } = s := by
  induction l generalizing s with
  | nil => rfl
  | cons p l ih =>
    rw [List.foldl_cons]
    split
    · exact (congrArg (fun t : State => { t with regs := s.regs }) (ih _) :).trans (s.noop_only _ _)
    · exact ih s

/-- The counts of `loadSvc` apart, SVC has been loaded from the flow class. -/
theorem State.loadSvc_only (s : State) (fid : Nat) :
    { s.loadSvc fid with regs := s.regs } = s.modFrame fid fun f => f.sf sfSvc (s.classSvc (f.gf sfFlowClass)) :=
  State.noops_only _ _ _ _

theorem State.frame_loadSvc (s : State) (fid g : Nat) : (s.loadSvc fid).frame g =
    if g = fid then (s.frame fid).sf sfSvc (s.classSvc ((s.frame fid).gf sfFlowClass)) else s.frame g := by
  have h := State.frame_congr (congrArg State.frames (s.loadSvc_only fid) :) g
  rw [← State.frame_modFrame s fid (fun f => f.sf sfSvc (s.classSvc (f.gf sfFlowClass)))]
  exact h

theorem satchelEdited_loadSvc (s : State) (fid : Nat) : SatchelEdited s (s.loadSvc fid) fid :=
  (satchelEdited_modFrame s fid _ rfl).trans (satchelEdited_of_regs (s.loadSvc_only fid) fid)

theorem State.rd_noteIssue_below (s : State) (n : Nat) {a : Nat} (h : a < 0x42000000) : (s.noteIssue n).rd a = s.rd a := by
  refine (s.noteIssue_rd n a).resolve_left fun ⟨_, ha⟩ => ?_
  rw [Reg.staleStatus, ctlAddr] at ha
  omega

theorem State.rf_noteIssue_below (s : State) (n : Nat) {a : Nat} {f : Fld}
    (h : a + 4 * (f.lo / 32) + 4 * f.words ≤ 0x42000000) :
    (s.noteIssue n).rf a f = s.rf a f := by
  rw [State.rf, State.rf, State.rdN_congr fun i hi => s.rd_noteIssue_below n (by omega)]

/-- The flow class records stand below the registers that an issue changes. -/
theorem State.classSvc_noteIssue (s : State) (n : Nat) {c : Nat} (hc : c < 2 ^ 10) :
    (s.noteIssue n).classSvc c = s.classSvc c := by
  have hw : flowClass_VALID.words = 1 ∧ flowClass_SVC.words = 1 := by decide
  have ha : flowClassAddr c = 0x41030000 + 16 * c := by rw [flowClassAddr, ctlAddr]; omega
  rw [State.classSvc, State.classSvc, State.rf_noteIssue_below, State.rf_noteIssue_below]
  · rw [hw.2, ha, show flowClass_SVC.lo = 0 from rfl]; omega
  · rw [hw.1, ha, show flowClass_VALID.lo = 96 from rfl]; omega

theorem State.frame_noteIssue (s : State) (n fid : Nat) : (s.noteIssue n).frame fid = s.frame fid :=
  State.frame_congr (congrArg State.frames (s.noteIssue_only n) :) fid

theorem word_noteIssue (s : State) (n fid i : Nat) : word (s.noteIssue n) fid i = word s fid i := by
  rw [word_eq_frame_word, word_eq_frame_word, State.frame_noteIssue]

theorem State.inst_noteIssue (s : State) (n i : Nat) : (s.noteIssue n).inst i = s.inst i := by
  have h : (s.noteIssue n).insts = s.insts := (congrArg State.insts (s.noteIssue_only n) :)
  rw [State.inst, State.inst, h]

/-! ### SPUT at a thread or steward -/

section
variable {who : Agent} {n : Nat} {pr : BitVec 3} {w : BitVec 4} {ra rb : BitVec 5} {s : State}
  (hw : agentNum who = some n) (hc : CanIssue s n pr [ra, rb] [])
include hw hc

theorem exec_sput_runSput :
    exec (.sput who pr w ra rb) s = .next (((s.noteIssue n).runSput n w ra rb).apply n (s.thr n).pc) := by
  have h : exec (.sput who pr w ra rb) s = execAfv who pr (.sput w ra rb) s := rfl
  rw [h, agentNum_execAfv hw, canIssue_exec hc _ (by simp [Afv.regs]) (by simp [Afv.preds]) rfl, State.insn_sput]

theorem raises_sput (hh : (s.thr n).held = none) : Raises (.sput who pr w ra rb) s n 8 0 := by
  rw [Raises, exec_sput_runSput hw hc, State.runSput, State.thr_noteIssue_self, hh]
  rfl

variable {fid : Nat} (hh : (s.thr n).held = some fid)
include hh

/-- A SPUT that keeps EXC leaves the thread its satchel. -/
theorem exec_sput_keep {u : State} (hu : (s.noteIssue n).sput fid w.toNat (reg s n ra) (reg s n rb) false = (u, .keep)) :
    exec (.sput who pr w ra rb) s = .next (goesOn u n) := by
  rw [← reg_noteIssue s n ra, ← reg_noteIssue s n rb, reg, reg] at hu
  simp only [exec_sput_runSput hw hc, State.runSput, State.thr_noteIssue_self, hh] at hu ⊢
  rw [hu, Res.apply_ok_nil]

theorem exec_sput_raise {u : State} {c : Nat}
    (hu : (s.noteIssue n).sput fid w.toNat (reg s n ra) (reg s n rb) false = (u, .raise c)) :
    exec (.sput who pr w ra rb) s =
      .next (goesOn ((u.modThr n fun t => { t with held := none }).raiseExc fid c).settle n) := by
  rw [← reg_noteIssue s n ra, ← reg_noteIssue s n rb, reg, reg] at hu
  simp only [exec_sput_runSput hw hc, State.runSput, State.thr_noteIssue_self, hh] at hu ⊢
  rw [hu, Res.apply_ok_nil]

theorem exec_sput_resume {u : State}
    (hu : (s.noteIssue n).sput fid w.toNat (reg s n ra) (reg s n rb) false = (u, .resume)) :
    exec (.sput who pr w ra rb) s =
      .next (goesOn ((u.modThr n fun t => { t with held := none }).release (agentEnd n) fid).settle n) := by
  rw [← reg_noteIssue s n ra, ← reg_noteIssue s n rb, reg, reg] at hu
  simp only [exec_sput_runSput hw hc, State.runSput, State.thr_noteIssue_self, hh] at hu ⊢
  rw [hu, Res.apply_ok_nil]

end

/-! ### The end of a SPUT that keeps EXC -/

section
variable {s u : State} {n fid : Nat}

theorem frame_goesOn (s : State) (n g : Nat) : (goesOn s n).frame g = s.frame g := State.frame_congr (State.modThr_frames _ _ _) g

theorem word_goesOn (s : State) (n fid i : Nat) : word (goesOn s n) fid i = word s fid i := by
  rw [word_eq_frame_word, word_eq_frame_word, frame_goesOn]

/-- A state that differs in frames and registers goes on to one that differs in the same. -/
theorem goesOn_congr {x u : State} (h : { u with frames := x.frames, regs := x.regs } = x) (n : Nat) :
    goesOn u n = { goesOn x n with frames := u.frames, regs := u.regs } := by
  have hu : u = { x with frames := u.frames, regs := u.regs } :=
    (congrArg (fun t : State => { t with frames := u.frames, regs := u.regs }) h :)
  rw [hu]
  simp only [goesOn, State.modThr, State.setThr]
  split <;> rfl

/-- The frames and the registers apart, an instruction that has edited the satchel of `fid` has gone on and changed nothing. -/
theorem goesOn_satchelEdited (h : SatchelEdited (s.noteIssue n) u fid) :
    ((goesOn u n).frame fid).data = (s.frame fid).data ∧ (∀ g, g ≠ fid → (goesOn u n).frame g = s.frame g) ∧
    RegsKept s (goesOn u n) n ∧ Advanced s (goesOn u n) n ∧ (∀ m, m ≠ n → (goesOn u n).thr m = s.thr m) ∧
    RestKept { s with frames := (goesOn u n).frames } (goesOn u n) := by
  obtain ⟨⟨hthr, -, -⟩, hrest⟩ := others_ok s n 0 [] []
  have hself : (goesOn (s.noteIssue n) n).thr n =
      { s.thr n with issued := (s.thr n).issued + 1, pc := (s.thr n).pc + 1 } := by
    rw [goesOn, State.thr_modThr_self, State.thr_noteIssue_self]
  have hthr' (m : Nat) : (goesOn u n).thr m = (goesOn (s.noteIssue n) n).thr m := by rw [goesOn_congr h.only n]; rfl
  refine ⟨?_, fun g hg => ?_, ?_, ?_, fun m hm => (hthr' m).trans (hthr m hm), ?_⟩
  · rw [frame_goesOn, h.data, State.frame_noteIssue]
  · rw [frame_goesOn, h.others g hg, State.frame_noteIssue]
  · rw [RegsKept, hthr', hself]
  · simp [Advanced, hthr', hself]
  · rw [goesOn_congr h.only n]
    exact (congrArg (fun t : State => { t with frames := u.frames }) hrest :)

theorem othersKept_goesOn (h : SatchelEdited (s.noteIssue n) u fid) (hr : u.regs = (s.noteIssue n).regs) :
    OthersKept s (goesOn u n) n := by
  obtain ⟨⟨hthr, hstw, hrd⟩, -⟩ := others_ok s n 0 [] []
  rw [goesOn_congr h.only n]
  refine ⟨hthr, hstw, fun a => (hrd a).imp_right fun ha => ?_⟩
  rw [← ha]
  exact State.rd_congr (hr.trans (State.modThr_regs _ _ _).symm) a

end

/-! ### The edits of a SPUT that keeps EXC -/

section
variable (s : State) (fid : Nat) {k : Nat} (a m : W32)

theorem satchelEdited_put : SatchelEdited s (s.modFrame fid fun f => f.put k a m) fid :=
  satchelEdited_modFrame s fid _ rfl

theorem word_modFrame_put (hk : k < 16) (i : Nat) : word (s.modFrame fid fun f => f.put k a m) fid i =
    if i = k then putWord k (word s fid k) a m else word s fid i := by
  rw [word_eq_frame_word, State.frame_modFrame, if_pos rfl, Frame.word_put _ hk]
  rfl

theorem satchelEdited_loadGen : SatchelEdited s (s.loadGen fid) fid := satchelEdited_modFrame s fid _ rfl

/-- INST_GEN takes the generation of the instance that word 0 names. -/
theorem word_loadGen (i : Nat) : word (s.loadGen fid) fid i = if i = 0 then
    (word s fid 0 &&& 0xF0000FFF) ||| (BitVec.ofNat 32 (s.inst ((word s fid 0).extractLsb' 0 12).toNat).gen <<< 12 &&& 0x0FFFF000)
    else word s fid i := by
  rw [word_eq_frame_word, State.loadGen, State.frame_modFrame, if_pos rfl, Frame.sf_instGen, Frame.word_setWord _ (by decide), Frame.gf_eq,
    fld_toNat]
  rfl

/-- SVC takes the vector of the flow class that word 1 names. -/
theorem word_loadSvc (i : Nat) : word (s.loadSvc fid) fid i = if i = 2 then
    (word s fid 2 &&& 0xFFFFC000) ||| BitVec.ofNat 32 (s.classSvc ((word s fid 1).extractLsb' 12 10).toNat % 2 ^ 14)
    else word s fid i := by
  rw [word_eq_frame_word, State.frame_loadSvc, if_pos rfl, Frame.sf_svc, Frame.word_setWord _ (by decide), Frame.gf_eq, fld_toNat]
  rfl

end

/-- A SPUT that writes no FLOW_CLASS and leaves EXC as it is: the word that it leaves, with INST_GEN loaded where it writes
INSTANCE (R38, R72). -/
theorem State.sput_keep (s : State) (fid : Nat) {k : Nat} (hk : k < 16) (a m : W64)
    (h1 : k = 1 → (m.setWidth 32).extractLsb' 12 10 = 0)
    (h2 : k = 2 → (m.setWidth 32).getLsbD 28 = false ∨ (a.setWidth 32).getLsbD 28 = (word s fid 2).getLsbD 28) :
    ∃ u, s.sput fid k a m false = (u, .keep) ∧ SatchelEdited s u fid ∧ u.regs = s.regs ∧
      let put := putWord k (word s fid k) (a.setWidth 32) (m.setWidth 32)
      ∀ i, word u fid i =
        if i ≠ k then word s fid i
        else if k = 0 ∧ (m.setWidth 32).extractLsb' 0 12 ≠ 0 then
          (put &&& 0xF0000FFF) ||| (BitVec.ofNat 32 (s.inst (put.extractLsb' 0 12).toNat).gen <<< 12 &&& 0x0FFFF000)
        else put := by
  have hput := word_modFrame_put s fid (a.setWidth 32) (m.setWidth 32) hk
  by_cases h0 : k = 0 ∧ (m.setWidth 32).extractLsb' 0 12 ≠ 0
  · obtain ⟨rfl, hm⟩ := h0
    refine ⟨_, s.sput_instance fid a m hm, (satchelEdited_put s fid _ _).trans (satchelEdited_loadGen _ fid), rfl,
      fun i => ?_⟩
    rw [word_loadGen, hput, hput]
    simp only [if_true, ite_not, true_and, if_pos hm]
    split <;> rfl
  · refine ⟨_, s.sput_plain fid a m hk (fun h => not_not.1 fun hm => h0 ⟨h, hm⟩) h1 h2, satchelEdited_put s fid _ _,
      rfl, fun i => ?_⟩
    rw [hput, if_neg h0, ite_not]

/-- Settles O9: where the thread may issue, SPUT is `State.sput` on its satchel after the issue has been counted, which keeps EXC
(`sput_keep`, `sput_flowClass`) or changes it (`sput_exc`) and then takes the satchel from the thread (log entry 21). -/
theorem satchelWrites : Obligations.SatchelWrites := by
  unfold Obligations.SatchelWrites
  refine ⟨?_, ?_, ?_⟩
  · intro who n pr w ra rb s hw hc a m k
    refine ⟨raises_sput hw hc, fun fid hh h1 h2 => ?_⟩
    obtain ⟨u, hu, he, hr, hword⟩ := (s.noteIssue n).sput_keep fid w.isLt (reg s n ra) (reg s n rb) h1
      (by rw [word_noteIssue]; exact h2)
    obtain ⟨hdata, hothers, hregs, hadv, -, hrest⟩ := goesOn_satchelEdited he
    refine ⟨_, exec_sput_keep hw hc hh hu, fun i _ => ?_, hdata, hothers, hregs, hadv, othersKept_goesOn he hr, hrest⟩
    rw [word_goesOn, hword]
    simp only [word_noteIssue, State.inst_noteIssue]
    by_cases h2k : k = 2
    · simp [h2k, putWord, show w.toNat = 2 from h2k, a, m]
    · simp only [putWord, show w.toNat = k from rfl, if_neg h2k]
      rfl
  · intro who n pr ra rb s fid hw hc hh m put hm
    have hu := (s.noteIssue n).sput_flowClass fid (reg s n ra) (reg s n rb) hm
    have he := (satchelEdited_put (s.noteIssue n) fid (k := 1) ((reg s n ra).setWidth 32) m).trans (satchelEdited_loadSvc _ _)
    have hword (i : Nat) := word_loadSvc ((s.noteIssue n).modFrame fid fun f => f.put 1 ((reg s n ra).setWidth 32) m) fid i
    simp only [word_modFrame_put _ _ _ _ (show 1 < 16 by decide), word_noteIssue] at hword
    refine ⟨_, exec_sput_keep hw hc hh hu, ?_, ?_, fun i _ h1 h2 => ?_, goesOn_satchelEdited he⟩
    · rw [word_goesOn, hword]
      rfl
    · rw [word_goesOn, hword, if_pos rfl, ← State.classSvc_noteIssue s n (BitVec.isLt _)]
      rfl
    · rw [word_goesOn, hword, if_neg h2, if_neg h1]
  · intro who n pr ra rb s fid hw hc hh a m f r drop hm ha
    have hx := (s.noteIssue n).sput_exc fid (reg s n ra) (reg s n rb) hm (by rw [word_noteIssue]; exact ha)
    rw [State.frame_noteIssue] at hx
    refine ⟨fun h => ?_, fun h => ?_⟩
    · rw [if_pos h] at hx
      exact exec_sput_raise hw hc hh hx
    · rw [if_neg (by rw [h]; decide)] at hx
      exact exec_sput_resume hw hc hh hx

end Sys2Proof.Machine
end

section
/-! Proofs about the encoding of AFV-2 (R62 to R91): each format as an A-format word, the fields that the decoder reads from a
word of each format, and obligations O24 and O25. -/

namespace Sys2Proof.Machine

open Sys2Proof.Safety

/-! ### Formats -/

theorem wf_toNat (w : W32) (lo n : Nat) : (wf w lo n).toNat = fld w.toNat lo n := by
  rw [wf, BitVec.toNat_ofNat, Nat.mod_eq_of_lt (fld_lt _ _ _)]

/-- A field of a word whose number is known. -/
theorem wf_eq_of {n : Nat} {w : W32} {lo : Nat} {v : BitVec n} (h : fld w.toNat lo n = v.toNat) : wf w lo n = v :=
  BitVec.eq_of_toNat_eq ((wf_toNat w lo n).trans h)

/-- The selector is the lowest three bits, whatever stands above it. -/
theorem afvPred_ofNat (k : Nat) (pr : BitVec 3) : afvPred (BitVec.ofNat 32 (k * 8 + pr.toNat)) = pr := by
  have := pr.isLt
  exact wf_eq_of (by simp only [fld, BitVec.toNat_ofNat]; omega)

section
variable (m : Nat) (rd ra rb : BitVec 5) (pr : BitVec 3)

/-- An E-format word is an A-format word whose func holds op and pd. -/
theorem eForm_eq_aForm (op : Nat) (pd : BitVec 3) : eForm m rd ra rb op pd pr = aForm m rd ra rb (op * 8 + pd.toNat) pr := by
  rw [eForm, aForm]; exact congrArg _ (by omega)

/-- An M-format word is an A-format word whose rb and func hold space, size and offset. -/
theorem mForm_eq_aForm (space size : BitVec 2) (off : BitVec 9) : mForm m rd ra space size off pr =
    aForm m rd ra (BitVec.ofNat 5 (space.toNat * 8 + size.toNat * 2 + off.toNat / 256)) (off.toNat % 256) pr := by
  have := space.isLt; have := size.isLt; have := off.isLt
  rw [mForm, aForm, BitVec.toNat_ofNat]; exact congrArg _ (by omega)

/-- A T-format word is an A-format word whose rb and func hold table, counts and pd. -/
theorem tForm_eq_aForm (table : BitVec 4) (klen rcnt : BitVec 2) (pd : BitVec 3) : tForm m rd ra table klen rcnt pd pr =
    aForm m rd ra (BitVec.ofNat 5 (table.toNat * 2 + klen.toNat / 2)) (klen.toNat % 2 * 128 + rcnt.toNat * 32 + pd.toNat * 4) pr := by
  have := table.isLt; have := klen.isLt
  rw [tForm, aForm, BitVec.toNat_ofNat]; exact congrArg _ (by omega)

/-- A B-format word is an A-format word whose operands hold the offset. -/
theorem bForm_eq_aForm (off : BitVec 20) : bForm m off pr = aForm m (BitVec.ofNat 5 (off.toNat / 2 ^ 18))
    (BitVec.ofNat 5 (off.toNat / 2 ^ 13)) (BitVec.ofNat 5 (off.toNat / 2 ^ 8)) (off.toNat % 2 ^ 8) pr := by
  have := off.isLt
  rw [bForm, aForm, BitVec.toNat_ofNat, BitVec.toNat_ofNat, BitVec.toNat_ofNat]; exact congrArg _ (by omega)

/-- An I-format word is an A-format word whose major, rb and func hold the immediate. -/
theorem iForm_eq_aForm (i : BitVec 14) : iForm m rd ra i pr =
    aForm (2 * m + i.toNat / 2 ^ 13) rd ra (BitVec.ofNat 5 (i.toNat / 2 ^ 8)) (i.toNat % 2 ^ 8) pr := by
  have := i.isLt
  rw [iForm, aForm, BitVec.toNat_ofNat]; exact congrArg _ (by omega)

theorem afvPred_aForm_any (f : Nat) : afvPred (aForm m rd ra rb f pr) = pr := by
  have h : aForm m rd ra rb f pr = BitVec.ofNat 32
      ((m * 2 ^ 23 + rd.toNat * 2 ^ 18 + ra.toNat * 2 ^ 13 + rb.toNat * 2 ^ 8 + f) * 8 + pr.toNat) := congrArg (BitVec.ofNat 32) (by omega)
  rw [h, afvPred_ofNat]

end

theorem afvPred_afvEncode (a : Afv) (pr : BitVec 3) : afvPred (afvEncode a pr) = pr := by
  cases a <;> simp only [afvEncode, eForm_eq_aForm, mForm_eq_aForm, tForm_eq_aForm, bForm_eq_aForm, iForm_eq_aForm, afvPred_aForm_any]

/-! ### What the decoder reads from a word of each format -/

/-- A field of a field. -/
theorem fld_fld (x lo n a k : Nat) (h : a + k ≤ n) : fld (fld x lo n) a k = fld x (lo + a) k := by
  apply Nat.eq_of_testBit_eq
  intro i
  simp only [testBit_fld, Nat.add_assoc]
  by_cases hi : i < k
  · simp [hi, show a + i < n by omega]
  · simp [hi]

/-- Fields within rd, ra and rb. -/
theorem fld_wRd (w : W32) (a k : Nat) (h : a + k ≤ 5) : fld w.toNat (21 + a) k = fld (wRd w).toNat a k := by
  rw [wRd, wf_toNat, fld_fld _ _ _ _ _ h]

theorem fld_wRa (w : W32) (a k : Nat) (h : a + k ≤ 5) : fld w.toNat (16 + a) k = fld (wRa w).toNat a k := by
  rw [wRa, wf_toNat, fld_fld _ _ _ _ _ h]

theorem fld_wRb (w : W32) (a k : Nat) (h : a + k ≤ 5) : fld w.toNat (11 + a) k = fld (wRb w).toNat a k := by
  rw [wRb, wf_toNat, fld_fld _ _ _ _ _ h]

section
variable {m : Nat} (rd ra rb : BitVec 5) (pr : BitVec 3) (hm : m < 64)
include hm

/-- Fields within func of an A- or K-format word. -/
theorem fld_func_aForm {f : Nat} (hf : f < 256) (a k : Nat) (h : a + k ≤ 8) :
    fld (aForm m rd ra rb f pr).toNat (3 + a) k = fld f a k := by
  rw [← fld_fld _ 3 8 a k h, func_aForm rd ra rb pr hm hf]

/-- The fields of an A- or K-format word. -/
theorem fields_aForm {f : Nat} (hf : f < 256) :
    wRd (aForm m rd ra rb f pr) = rd ∧ wRa (aForm m rd ra rb f pr) = ra ∧ wRb (aForm m rd ra rb f pr) = rb ∧
    fld (aForm m rd ra rb f pr).toNat 3 8 = f :=
  ⟨wRd_aForm rd ra rb pr hm hf, wRa_aForm rd ra rb pr hm hf, wRb_aForm rd ra rb pr hm hf, func_aForm rd ra rb pr hm hf⟩

/-- The fields of an E-format word. -/
theorem fields_eForm {op : Nat} (ho : op < 32) (pd : BitVec 3) :
    wRd (eForm m rd ra rb op pd pr) = rd ∧ wRa (eForm m rd ra rb op pd pr) = ra ∧ wRb (eForm m rd ra rb op pd pr) = rb ∧
    fld (eForm m rd ra rb op pd pr).toNat 6 5 = op ∧ fld (eForm m rd ra rb op pd pr).toNat 3 3 = pd.toNat := by
  have := pd.isLt
  rw [eForm_eq_aForm, wRd_aForm rd ra rb pr hm (by omega), wRa_aForm rd ra rb pr hm (by omega),
    wRb_aForm rd ra rb pr hm (by omega), fld_func_aForm rd ra rb pr hm (by omega) 3 5 (by omega),
    fld_func_aForm rd ra rb pr hm (by omega) 0 3 (by omega), fld, fld]
  exact ⟨rfl, rfl, rfl, by omega, by omega⟩

/-- The fields of an M-format word. -/
theorem fields_mForm (space size : BitVec 2) (off : BitVec 9) :
    wRd (mForm m rd ra space size off pr) = rd ∧ wRa (mForm m rd ra space size off pr) = ra ∧
    wf (mForm m rd ra space size off pr) 14 2 = space ∧ wf (mForm m rd ra space size off pr) 12 2 = size ∧
    wf (mForm m rd ra space size off pr) 3 9 = off := by
  have := rd.isLt; have := ra.isLt; have := space.isLt; have := size.isLt; have := off.isLt; have := pr.isLt
  refine ⟨wf_eq_of ?_, wf_eq_of ?_, wf_eq_of ?_, wf_eq_of ?_, wf_eq_of ?_⟩ <;> rw [mForm_toNat _ _ _ _ _ _ _ hm, fld] <;> omega

/-- The fields of a T-format word. -/
theorem fields_tForm (table : BitVec 4) (klen rcnt : BitVec 2) (pd : BitVec 3) :
    wRd (tForm m rd ra table klen rcnt pd pr) = rd ∧ wRa (tForm m rd ra table klen rcnt pd pr) = ra ∧
    wf (tForm m rd ra table klen rcnt pd pr) 12 4 = table ∧ wf (tForm m rd ra table klen rcnt pd pr) 10 2 = klen ∧
    wf (tForm m rd ra table klen rcnt pd pr) 8 2 = rcnt ∧ wf (tForm m rd ra table klen rcnt pd pr) 5 3 = pd ∧
    fld (tForm m rd ra table klen rcnt pd pr).toNat 3 2 = 0 := by
  have := rd.isLt; have := ra.isLt; have := table.isLt; have := klen.isLt; have := rcnt.isLt; have := pd.isLt; have := pr.isLt
  refine ⟨wf_eq_of ?_, wf_eq_of ?_, wf_eq_of ?_, wf_eq_of ?_, wf_eq_of ?_, wf_eq_of ?_, ?_⟩ <;>
    rw [tForm_toNat _ _ _ _ _ _ _ _ hm, fld] <;> omega

omit rd ra rb in
/-- The offset of a B-format word; the bits above it are zero. -/
theorem fields_bForm (off : BitVec 20) : wf (bForm m off pr) 3 20 = off ∧ fld (bForm m off pr).toNat 23 3 = 0 := by
  have := off.isLt; have := pr.isLt
  refine ⟨wf_eq_of ?_, ?_⟩ <;> rw [bForm_toNat _ _ _ hm, fld] <;> omega

end

/-- The fields of an I-format word. -/
theorem fields_iForm {m : Nat} (hm : m < 32) (rd ra : BitVec 5) (pr : BitVec 3) (i : BitVec 14) :
    wRd (iForm m rd ra i pr) = rd ∧ wRa (iForm m rd ra i pr) = ra ∧ wImm (iForm m rd ra i pr) = i := by
  have := rd.isLt; have := ra.isLt; have := i.isLt; have := pr.isLt
  refine ⟨wf_eq_of ?_, wf_eq_of ?_, BitVec.eq_of_toNat_eq ?_⟩
  · rw [iForm_toNat _ _ _ _ _ hm, fld]; omega
  · rw [iForm_toNat _ _ _ _ _ hm, fld]; omega
  · rw [wImm, BitVec.toNat_ofNat, iForm_toNat _ _ _ _ _ hm, fld, fld]; omega

/-! ### The major that a word of each format is decoded by -/

section
variable {m : Nat} (rd ra rb : BitVec 5) (pr : BitVec 3) (hm : m < 64) (h : m < 8 ∨ 0x22 ≤ m)
include hm h

theorem decode_eForm {op : Nat} (ho : op < 32) (pd : BitVec 3) :
    afvDecode (eForm m rd ra rb op pd pr) = decodeMajor (eForm m rd ra rb op pd pr) m := by
  have := pd.isLt
  rw [eForm_eq_aForm, decode_aForm rd ra rb pr hm (by omega) h]

theorem decode_mForm (space size : BitVec 2) (off : BitVec 9) :
    afvDecode (mForm m rd ra space size off pr) = decodeMajor (mForm m rd ra space size off pr) m := by
  rw [mForm_eq_aForm, decode_aForm rd ra _ pr hm (Nat.mod_lt _ (by decide)) h]

theorem decode_tForm (table : BitVec 4) (klen rcnt : BitVec 2) (pd : BitVec 3) :
    afvDecode (tForm m rd ra table klen rcnt pd pr) = decodeMajor (tForm m rd ra table klen rcnt pd pr) m := by
  have := rcnt.isLt; have := pd.isLt
  rw [tForm_eq_aForm, decode_aForm rd ra _ pr hm (by omega) h]

omit rd ra rb in
theorem decode_bForm (off : BitVec 20) : afvDecode (bForm m off pr) = decodeMajor (bForm m off pr) m := by
  have hf : off.toNat % 2 ^ 8 < 256 := Nat.mod_lt _ (by decide)
  rw [bForm_eq_aForm, decode_aForm _ _ _ pr hm hf h]

end

theorem decode_iForm {m : Nat} (h4 : 4 ≤ m) (h17 : m < 17) (rd ra : BitVec 5) (pr : BitVec 3) (i : BitVec 14) :
    afvDecode (iForm m rd ra i pr) = decodeImm (iForm m rd ra i pr) m := by
  have := i.isLt
  have hf : i.toNat % 2 ^ 8 < 256 := Nat.mod_lt _ (by decide)
  have hmaj : fld (iForm m rd ra i pr).toNat 26 6 = 2 * m + i.toNat / 2 ^ 13 := by
    rw [iForm_eq_aForm, major_aForm rd ra _ pr (by omega) hf]
  simp only [afvDecode, hmaj]
  rw [if_pos (by omega)]
  exact congrArg _ (by omega)

/-! ### Decoding an encoded instruction (O24) -/

theorem aluOfFunc_func (op : AluOp) : aluOfFunc op.func = some op := by cases op <;> rfl
theorem mulOfFunc_func (op : MulOp) : mulOfFunc op.func = some op := by cases op <;> rfl
theorem amoOfCode_code (op : AmoOp) : amoOfCode op.code = some op := by cases op <;> rfl

theorem AluOp.func_lt (op : AluOp) : op.func < 256 := by cases op <;> decide
theorem MulOp.func_lt (op : MulOp) : op.func < 256 := by cases op <;> decide
theorem PredOp.func_lt (op : PredOp) : op.func < 256 := by cases op <;> decide
theorem HelpOp.func_lt (op : HelpOp) : op.func < 256 := by cases op <;> decide
theorem AmoOp.code_lt (op : AmoOp) : op.code < 8 := by cases op <;> decide

theorem predOfFunc_func (op : PredOp) : ([PredOp.and, .or, .xor, .andn, .not] : List PredOp)[op.func]? = some op := by
  cases op <;> rfl
theorem helpOfFunc_func (op : HelpOp) : ([HelpOp.crc32c, .crc64n, .gfmul, .gfxor] : List HelpOp)[op.func]? = some op := by
  cases op <;> rfl
theorem shiftOfKind_kind (op : ShiftOp) : ([ShiftOp.shl, .shr, .sra, .rol] : List ShiftOp).getD op.kind .shl = op := by
  cases op <;> rfl

/-- The two predicate fields that share rd with a mode (R69). -/
theorem fields_pdMode (pd : BitVec 3) (mode : BitVec 2) :
    fld (pdMode pd mode).toNat 2 3 = pd.toNat ∧ fld (pdMode pd mode).toNat 0 2 = mode.toNat := by
  have := pd.isLt; have := mode.isLt
  rw [pdMode, BitVec.toNat_ofNat, fld, fld]
  omega

/-- A predicate in the upper bits of a register field, the others zero (R70). -/
theorem fields_predHi (p : BitVec 3) : fld (predHi p).toNat 2 3 = p.toNat ∧ fld (predHi p).toNat 0 2 = 0 := by
  have := p.isLt
  rw [predHi, BitVec.toNat_ofNat, fld, fld]
  omega

section
variable (rd ra rb : BitVec 5) (pr : BitVec 3)

theorem decode_encode_alu (op : AluOp) (h : (Afv.alu op rd ra rb).wf = true) :
    afvDecode (afvEncode (.alu op rd ra rb) pr) = some (.alu op rd ra rb) := by
  simp only [Afv.wf] at h
  simp only [afvEncode, decode_aForm, fields_aForm, op.func_lt, decodeMajor, aluOfFunc_func, Option.bind_some, clean, h, if_true,
    Nat.reduceLT, true_or]

theorem decode_encode_cmp (pd : BitVec 3) (mode : BitVec 2) (cond : BitVec 4) (pe : BitVec 3) :
    afvDecode (aForm 0x02 (pdMode pd mode) ra rb (cond.toNat * 16 + pe.toNat * 2) pr) =
      if cond.toNat < 8 then some (.cmp pd mode cond pe ra rb) else none := by
  have := cond.isLt; have := pe.isLt
  have hf : cond.toNat * 16 + pe.toNat * 2 < 256 := by omega
  rw [decode_aForm _ ra rb pr (by decide) hf (by decide)]
  obtain ⟨hrd, hra, hrb, -⟩ := fields_aForm (m := 0x02) (pdMode pd mode) ra rb pr (by decide) hf
  have hfunc := fld_func_aForm (m := 0x02) (pdMode pd mode) ra rb pr (by decide) hf
  generalize aForm 0x02 (pdMode pd mode) ra rb (cond.toNat * 16 + pe.toNat * 2) pr = w at *
  have h0 : fld w.toNat 3 1 = 0 := (hfunc 0 1 (by decide)).trans (by rw [fld]; omega)
  have hcond : fld w.toNat 7 4 = cond.toNat := (hfunc 4 4 (by decide)).trans (by rw [fld]; omega)
  have hpe : fld w.toNat 4 3 = pe.toNat := (hfunc 1 3 (by decide)).trans (by rw [fld]; omega)
  have hpd : fld w.toNat 23 3 = pd.toNat := (fld_wRd w 2 3 (by decide)).trans (by rw [hrd, (fields_pdMode pd mode).1])
  have hmode : fld w.toNat 21 2 = mode.toNat := (fld_wRd w 0 2 (by decide)).trans (by rw [hrd, (fields_pdMode pd mode).2])
  simp only [decodeMajor, hra, hrb, h0, hcond, wf_eq_of hpd, wf_eq_of hmode, wf_eq_of hpe, wf_eq_of hcond, clean, true_and,
    decide_eq_true_eq]

theorem decode_pred (op : PredOp) (pd pa pb : BitVec 3) :
    afvDecode (afvEncode (.pred op pd pa pb) pr) = clean (Afv.pred op pd pa pb).wf (.pred op pd pa pb) := by
  rw [afvEncode, decode_aForm _ _ _ pr (by decide) op.func_lt (by decide)]
  obtain ⟨hrd, hra, hrb, hfunc⟩ := fields_aForm (m := 0x03) (predHi pd) (predHi pa) (predHi pb) pr (by decide) op.func_lt
  generalize aForm 0x03 (predHi pd) (predHi pa) (predHi pb) op.func pr = w at *
  have hpd : fld w.toNat 23 3 = pd.toNat := (fld_wRd w 2 3 (by decide)).trans (by rw [hrd, (fields_predHi pd).1])
  have hpd0 : fld w.toNat 21 2 = 0 := (fld_wRd w 0 2 (by decide)).trans (by rw [hrd, (fields_predHi pd).2])
  have hpa : fld w.toNat 18 3 = pa.toNat := (fld_wRa w 2 3 (by decide)).trans (by rw [hra, (fields_predHi pa).1])
  have hpa0 : fld w.toNat 16 2 = 0 := (fld_wRa w 0 2 (by decide)).trans (by rw [hra, (fields_predHi pa).2])
  have hpb : fld w.toNat 13 3 = pb.toNat := (fld_wRb w 2 3 (by decide)).trans (by rw [hrb, (fields_predHi pb).1])
  have hpb0 : fld w.toNat 11 2 = 0 := (fld_wRb w 0 2 (by decide)).trans (by rw [hrb, (fields_predHi pb).2])
  have hz : pb.toNat = 0 ↔ pb = 0 := ⟨fun h => BitVec.eq_of_toNat_eq h, fun h => by rw [h]; rfl⟩
  simp only [decodeMajor, hfunc, predOfFunc_func, Option.bind_some, wf_eq_of hpd, wf_eq_of hpa, wf_eq_of hpb, hpd0, hpa0, hpb, hpb0,
    hz, true_and, and_self]
  rfl

theorem decode_encode_pred (op : PredOp) (pd pa pb : BitVec 3) (h : (Afv.pred op pd pa pb).wf = true) :
    afvDecode (afvEncode (.pred op pd pa pb) pr) = some (.pred op pd pa pb) := (decode_pred pr op pd pa pb).trans (if_pos h)

theorem decode_encode_sput (n : BitVec 4) : afvDecode (afvEncode (.sput n ra rb) pr) = some (.sput n ra rb) := by
  have := n.isLt
  have hf : n.toNat * 16 < 256 := by omega
  rw [afvEncode, decode_aForm _ ra rb pr (by decide) hf (by decide)]
  obtain ⟨hrd, hra, hrb, -⟩ := fields_aForm (m := 0x04) 0 ra rb pr (by decide) hf
  have hfunc := fld_func_aForm (m := 0x04) 0 ra rb pr (by decide) hf
  generalize aForm 0x04 0 ra rb (n.toNat * 16) pr = w at *
  have h0 : fld w.toNat 3 4 = 0 := (hfunc 0 4 (by decide)).trans (by rw [fld]; omega)
  have hn : fld w.toNat 7 4 = n.toNat := (hfunc 4 4 (by decide)).trans (by rw [fld]; omega)
  simp only [decodeMajor, hrd, hra, hrb, h0, wf_eq_of hn, clean, and_self, decide_true, if_true]

theorem decode_encode_amo (op : AmoOp) (space : BitVec 2) (wide : Bool) (h : (Afv.amo op rd ra rb space wide).wf = true) :
    afvDecode (afvEncode (.amo op rd ra rb space wide) pr) = some (.amo op rd ra rb space wide) := by
  have hs : space.toNat < 2 := of_decide_eq_true h
  have := op.code_lt
  have hb : b2n wide ≤ 1 := by cases wide <;> decide
  have hf : space.toNat * 64 + op.code * 8 + b2n wide * 4 < 256 := by omega
  rw [afvEncode, decode_aForm rd ra rb pr (by decide) hf (by decide)]
  obtain ⟨hrd, hra, hrb, -⟩ := fields_aForm (m := 0x05) rd ra rb pr (by decide) hf
  have hfunc := fld_func_aForm (m := 0x05) rd ra rb pr (by decide) hf
  generalize aForm 0x05 rd ra rb (space.toNat * 64 + op.code * 8 + b2n wide * 4) pr = w at *
  have h0 : fld w.toNat 3 2 = 0 := (hfunc 0 2 (by decide)).trans (by rw [fld]; omega)
  have hop : fld w.toNat 6 3 = op.code := (hfunc 3 3 (by decide)).trans (by rw [fld]; omega)
  have hsp : fld w.toNat 9 2 = space.toNat := (hfunc 6 2 (by decide)).trans (by rw [fld]; omega)
  have hw : bit w.toNat 5 = wide := by
    have h5 : fld w.toNat 5 1 = b2n wide := (hfunc 2 1 (by decide)).trans (by rw [fld]; omega)
    have hbit : bit w.toNat 5 = decide (fld w.toNat 5 1 = 1) := rfl
    rw [hbit, h5]
    cases wide <;> rfl
  simp only [decodeMajor, hop, amoOfCode_code, Option.bind_some, hrd, hra, hrb, h0, hsp, hs, hw, wf_eq_of hsp, clean, and_self,
    decide_true, if_true]

theorem decode_encode_shift (op : ShiftOp) (hi amt : BitVec 6) :
    afvDecode (afvEncode (.shift op rd ra hi amt) pr) = some (.shift op rd ra hi amt) := by
  have hk : op.kind < 4 := by cases op <;> decide
  have := hi.isLt; have := amt.isLt
  have hi14 : hi.toNat * 256 + op.kind * 64 + amt.toNat < 2 ^ 14 := by omega
  have hkind : fld (hi.toNat * 256 + op.kind * 64 + amt.toNat) 6 2 = op.kind := by rw [fld]; omega
  have hhi : fld (hi.toNat * 256 + op.kind * 64 + amt.toNat) 8 6 = hi.toNat := by rw [fld]; omega
  have hamt : fld (hi.toNat * 256 + op.kind * 64 + amt.toNat) 0 6 = amt.toNat := by rw [fld]; omega
  simp only [afvEncode, decode_iForm, fields_iForm, decodeImm, BitVec.toNat_ofNat, Nat.mod_eq_of_lt hi14, hkind, hhi, hamt,
    shiftOfKind_kind, BitVec.ofNat_toNat, BitVec.setWidth_eq, Nat.reduceLT, Nat.reduceLeDiff]

theorem decode_encode_cmpi (cc : ImmCond) (pd : BitVec 3) (mode : BitVec 2) (i : BitVec 14) :
    afvDecode (afvEncode (.cmpi cc pd mode ra i) pr) = some (.cmpi cc pd mode ra i) := by
  have hc : 4 ≤ cc.pair ∧ cc.pair < 17 := by cases cc <;> decide
  rw [afvEncode, decode_iForm hc.1 hc.2]
  obtain ⟨hrd, hra, himm⟩ := fields_iForm (show cc.pair < 32 by omega) (pdMode pd mode) ra pr i
  generalize iForm cc.pair (pdMode pd mode) ra i pr = w at *
  have hpd : fld w.toNat 23 3 = pd.toNat := (fld_wRd w 2 3 (by decide)).trans (by rw [hrd, (fields_pdMode pd mode).1])
  have hmode : fld w.toNat 21 2 = mode.toNat := (fld_wRd w 0 2 (by decide)).trans (by rw [hrd, (fields_pdMode pd mode).2])
  cases cc <;> simp only [ImmCond.pair, decodeImm, hra, himm, wf_eq_of hpd, wf_eq_of hmode]

theorem decode_encode_imm (op : ImmOp) (i : BitVec 14) :
    afvDecode (afvEncode (.imm op rd ra i) pr) = some (.imm op rd ra i) := by
  cases op <;> simp [afvEncode, ImmOp.pair, decode_iForm, fields_iForm, decodeImm]

theorem decode_encode_load (k : LoadKind) (space size : BitVec 2) (off : BitVec 9) :
    afvDecode (afvEncode (.load k rd ra space size off) pr) = some (.load k rd ra space size off) := by
  cases k <;> simp [afvEncode, loadMajor, decode_mForm, fields_mForm, decodeMajor]

theorem decode_encode_store (be : Bool) (space size : BitVec 2) (off : BitVec 9) :
    afvDecode (afvEncode (.store be rd ra space size off) pr) = some (.store be rd ra space size off) := by
  cases be <;> simp [afvEncode, decode_mForm, fields_mForm, decodeMajor]

theorem decode_encode_rcmp (tag : BitVec 4) : afvDecode (afvEncode (.rcmp rd ra tag) pr) = some (.rcmp rd ra tag) := by
  have := rd.isLt; have := ra.isLt; have := tag.isLt; have := pr.isLt
  rw [afvEncode, decode_tForm rd ra pr (by decide) (by decide)]
  obtain ⟨hrd, hra, htag, -, -, -, h3⟩ := fields_tForm (m := 0x35) rd ra pr (by decide) tag 0 0 0
  have h5 : fld (tForm 0x35 rd ra tag 0 0 0 pr).toNat 5 7 = 0 := by
    rw [tForm_toNat _ _ _ _ _ _ _ _ (by decide), fld, show (0 : BitVec 2).toNat = 0 from rfl, show (0 : BitVec 3).toNat = 0 from rfl]
    omega
  simp only [decodeMajor, hrd, hra, htag, h3, h5, clean, and_self, decide_true, if_true]

theorem decode_encode_getw (pd : BitVec 3) : afvDecode (afvEncode (.getw rd ra pd) pr) = some (.getw rd ra pd) := by
  rw [afvEncode, decode_eForm rd ra 0 pr (by decide) (by decide) (by decide)]
  obtain ⟨hrd, hra, hrb, hop, hpd⟩ := fields_eForm (m := 0x3B) rd ra 0 pr (by decide) (show 0 < 32 by decide) pd
  simp only [decodeMajor, decodeWork, hop, hrd, hra, hrb, wf_eq_of hpd, clean, decide_true, if_true]

theorem decode_encode_take (pd pe : BitVec 3) : afvDecode (afvEncode (.take rd ra pd pe) pr) = some (.take rd ra pd pe) := by
  have := pe.isLt
  rw [afvEncode, decode_eForm rd ra _ pr (by decide) (by decide) (by decide)]
  obtain ⟨hrd, hra, hrb, hop, hpd⟩ :=
    fields_eForm (m := 0x39) rd ra (BitVec.ofNat 5 pe.toNat) pr (by decide) (show 2 < 32 by decide) pd
  generalize eForm 0x39 rd ra (BitVec.ofNat 5 pe.toNat) 2 pd pr = w at *
  have hpe : fld w.toNat 11 3 = pe.toNat := (fld_wRb w 0 3 (by decide)).trans (by rw [hrb, BitVec.toNat_ofNat, fld]; omega)
  have h0 : fld w.toNat 14 2 = 0 := (fld_wRb w 3 2 (by decide)).trans (by rw [hrb, BitVec.toNat_ofNat, fld]; omega)
  simp only [decodeMajor, decodeMail, hop, hrd, hra, h0, wf_eq_of hpd, wf_eq_of hpe, clean, decide_true, if_true]

theorem decode_encode_fence (pre succ : BitVec 4) : afvDecode (afvEncode (.fence pre succ) pr) = some (.fence pre succ) := by
  have := pre.isLt; have := succ.isLt
  rw [afvEncode, decode_eForm _ _ _ pr (by decide) (by decide) (by decide)]
  obtain ⟨hrd, hra, hrb, hop, hpd⟩ := fields_eForm (m := 0x3A) (BitVec.ofNat 5 pre.toNat) (BitVec.ofNat 5 succ.toNat) 0 pr
    (by decide) (show 1 < 32 by decide) 0
  generalize eForm 0x3A (BitVec.ofNat 5 pre.toNat) (BitVec.ofNat 5 succ.toNat) 0 1 0 pr = w at *
  have hpre : fld w.toNat 21 4 = pre.toNat := (fld_wRd w 0 4 (by decide)).trans (by rw [hrd, BitVec.toNat_ofNat, fld]; omega)
  have hsucc : fld w.toNat 16 4 = succ.toNat := (fld_wRa w 0 4 (by decide)).trans (by rw [hra, BitVec.toNat_ofNat, fld]; omega)
  have h25 : fld w.toNat 25 1 = 0 := (fld_wRd w 4 1 (by decide)).trans (by rw [hrd, BitVec.toNat_ofNat, fld]; omega)
  have h20 : fld w.toNat 20 1 = 0 := (fld_wRa w 4 1 (by decide)).trans (by rw [hra, BitVec.toNat_ofNat, fld]; omega)
  simp [decodeMajor, hop, hrb, hpd, h25, h20, wf_eq_of hpre, wf_eq_of hsucc, clean]

end

/-- Settles O24: each format's fields read back what the encoder put there, instruction by instruction. -/
theorem decodeOfEncode : Obligations.DecodeOfEncode := by
  unfold Obligations.DecodeOfEncode
  intro a pr h
  refine ⟨?_, afvPred_afvEncode a pr⟩
  cases a with
  | alu op rd ra rb => exact decode_encode_alu rd ra rb pr op h
  | mul op rd ra rb => simp [afvEncode, decode_aForm, fields_aForm, op.func_lt, decodeMajor, mulOfFunc_func]
  | cmp pd mode cond pe ra rb => exact (decode_encode_cmp ra rb pr pd mode cond pe).trans (if_pos (of_decide_eq_true h))
  | pred op pd pa pb => exact decode_encode_pred pr op pd pa pb h
  | sput n ra rb => exact decode_encode_sput ra rb pr n
  | amo op rd ra rb space wide => exact decode_encode_amo rd ra rb pr op space wide h
  | help op rd ra rb => simp [afvEncode, decode_aForm, fields_aForm, op.func_lt, decodeMajor, helpOfFunc_func]
  | ciph mode rd ra rb =>
    have hm : mode < 256 := of_decide_eq_true h
    simp [afvEncode, decode_aForm, fields_aForm, hm, decodeMajor]
  | imm op rd ra i => exact decode_encode_imm rd ra pr op i
  | shift op rd ra hi amt => exact decode_encode_shift rd ra pr op hi amt
  | ext rd ra i => simp [afvEncode, decode_iForm, fields_iForm, decodeImm]
  | ins rd ra i => simp [afvEncode, decode_iForm, fields_iForm, decodeImm]
  | cmpi cc pd mode ra i => exact decode_encode_cmpi ra pr cc pd mode i
  | sget rd i => simp [afvEncode, decode_iForm, fields_iForm, decodeImm, clean]
  | load k rd ra space size off => exact decode_encode_load rd ra pr k space size off
  | store be rs ra space size off => exact decode_encode_store rs ra pr be space size off
  | branch off => simp [afvEncode, decode_bForm, fields_bForm, decodeMajor, clean]
  | call off => simp [afvEncode, decode_bForm, fields_bForm, decodeMajor, clean]
  | jr rd ra => simp [afvEncode, decode_aForm, fields_aForm, decodeMajor, clean]
  | look rd ra table klen rcnt pd => simp [afvEncode, decode_tForm, fields_tForm, decodeMajor, clean]
  | rcmp rd ra tag => exact decode_encode_rcmp rd ra pr tag
  | waite rd ra => simp [afvEncode, decode_eForm, fields_eForm, decodeMajor, decodeEvent, clean]
  | sige ra rb => simp [afvEncode, decode_eForm, fields_eForm, decodeMajor, decodeEvent, clean]
  | sett ra => simp [afvEncode, decode_eForm, fields_eForm, decodeMajor, decodeEvent, clean]
  | clrt => simp [afvEncode, decode_eForm, fields_eForm, decodeMajor, decodeEvent, clean]
  | evrd rd => simp [afvEncode, decode_eForm, fields_eForm, decodeMajor, decodeEvent, clean]
  | post fin ra rb => cases fin <;> simp [afvEncode, b2n, decode_eForm, fields_eForm, decodeMajor, decodeMail, clean]
  | take rd ra pd pe => exact decode_encode_take rd ra pr pd pe
  | fence pre succ => exact decode_encode_fence pr pre succ
  | getw rd ra pd => exact decode_encode_getw rd ra pr pd
  | dispCont => simp [afvEncode, decode_eForm, fields_eForm, decodeMajor, decodeWork, clean]
  | dispDrop => simp [afvEncode, decode_eForm, fields_eForm, decodeMajor, decodeWork, clean]
  | dispGroup ra => simp [afvEncode, decode_eForm, fields_eForm, decodeMajor, decodeWork, clean]
  | news rd ra rb => simp [afvEncode, decode_eForm, fields_eForm, decodeMajor, decodeWork, clean]
  | sysr rd ra => simp [afvEncode, decode_eForm, fields_eForm, decodeMajor, decodeSystem, clean]
  | sysw ra rb => simp [afvEncode, decode_eForm, fields_eForm, decodeMajor, decodeSystem, clean]
  | eret => simp [afvEncode, decode_eForm, fields_eForm, decodeMajor, decodeSystem, clean]
  | waitPwr rd => simp [afvEncode, decode_eForm, fields_eForm, decodeMajor, decodeSystem, clean]
  | clctl ra rb => simp [afvEncode, decode_eForm, fields_eForm, decodeMajor, decodeSystem, clean]
  | trestart ra => simp [afvEncode, decode_eForm, fields_eForm, decodeMajor, decodeSystem, clean]
  | trap code => simp [afvEncode, decode_eForm, fields_eForm, decodeMajor, decodeSystem, clean]

/-! ### Encoding a decoded word (O25) -/

theorem clean_eq_some {ok : Bool} {i a : Afv} : clean ok i = some a ↔ ok = true ∧ i = a := by
  cases ok <;> simp [clean]

section
variable (w : W32)

/-- A word is the A-format word of its fields. -/
theorem aForm_fields : aForm (fld w.toNat 26 6) (wRd w) (wRa w) (wRb w) (fld w.toNat 3 8) (afvPred w) = w := by
  have := w.isLt
  apply BitVec.eq_of_toNat_eq
  rw [aForm_toNat _ _ _ _ _ _ (fld_lt _ _ _) (fld_lt _ _ _), wRd, wRa, wRb, afvPred, wf_toNat, wf_toNat, wf_toNat, wf_toNat]
  simp only [fld]
  omega

/-- A word is the E-format word of its fields. -/
theorem eForm_fields :
    eForm (fld w.toNat 26 6) (wRd w) (wRa w) (wRb w) (fld w.toNat 6 5) (wf w 3 3) (afvPred w) = w := by
  have h : fld w.toNat 6 5 * 8 + fld w.toNat 3 3 = fld w.toNat 3 8 := by simp only [fld]; omega
  rw [eForm_eq_aForm, wf_toNat, h, aForm_fields]

/-- A word is the M-format word of its fields. -/
theorem mForm_fields :
    mForm (fld w.toNat 26 6) (wRd w) (wRa w) (wf w 14 2) (wf w 12 2) (wf w 3 9) (afvPred w) = w := by
  have := w.isLt
  apply BitVec.eq_of_toNat_eq
  rw [mForm_toNat _ _ _ _ _ _ _ (fld_lt _ _ _), wRd, wRa, afvPred, wf_toNat, wf_toNat, wf_toNat, wf_toNat, wf_toNat, wf_toNat]
  simp only [fld]
  omega

/-- A word without bits [4:3] is the T-format word of its fields. -/
theorem tForm_fields (h : fld w.toNat 3 2 = 0) :
    tForm (fld w.toNat 26 6) (wRd w) (wRa w) (wf w 12 4) (wf w 10 2) (wf w 8 2) (wf w 5 3) (afvPred w) = w := by
  have := w.isLt
  apply BitVec.eq_of_toNat_eq
  rw [tForm_toNat _ _ _ _ _ _ _ _ (fld_lt _ _ _), wRd, wRa, afvPred, wf_toNat, wf_toNat, wf_toNat, wf_toNat, wf_toNat, wf_toNat,
    wf_toNat]
  simp only [fld] at h ⊢
  omega

/-- A word without bits [25:23] is the B-format word of its fields. -/
theorem bForm_fields (h : fld w.toNat 23 3 = 0) : bForm (fld w.toNat 26 6) (wf w 3 20) (afvPred w) = w := by
  have := w.isLt
  apply BitVec.eq_of_toNat_eq
  rw [bForm_toNat _ _ _ (fld_lt _ _ _), afvPred, wf_toNat, wf_toNat]
  simp only [fld] at h ⊢
  omega

/-- A word is the I-format word of its fields. -/
theorem iForm_fields : iForm (fld w.toNat 26 6 / 2) (wRd w) (wRa w) (wImm w) (afvPred w) = w := by
  have := w.isLt
  have hm := fld_lt w.toNat 26 6
  have hb := fld_lt w.toNat 26 1
  have hl := fld_lt w.toNat 3 13
  have himm : (wImm w).toNat = fld w.toNat 26 1 * 2 ^ 13 + fld w.toNat 3 13 := Nat.mod_eq_of_lt (by omega)
  have hhi : (wImm w).toNat / 2 ^ 13 = fld w.toNat 26 1 := by omega
  have hlo : (wImm w).toNat % 2 ^ 13 = fld w.toNat 3 13 := by omega
  apply BitVec.eq_of_toNat_eq
  rw [iForm_toNat _ _ _ _ _ (by omega), hhi, hlo, wRd, wRa, afvPred, wf_toNat, wf_toNat, wf_toNat]
  simp only [fld]
  omega

theorem pdMode_fields : pdMode (wf w 23 3) (wf w 21 2) = wRd w := by
  apply BitVec.eq_of_toNat_eq
  rw [pdMode, wRd, BitVec.toNat_ofNat, wf_toNat, wf_toNat, wf_toNat]
  simp only [fld]
  omega

/-- A predicate read from the upper bits of a register field whose other bits are zero. -/
theorem predHi_fields {lo : Nat} (h : fld w.toNat lo 2 = 0) : predHi (wf w (lo + 2) 3) = wf w lo 5 := by
  have hx : fld w.toNat (lo + 2) 3 = fld (fld w.toNat lo 5) 2 3 := (fld_fld _ lo 5 2 3 (by decide)).symm
  have h0 : fld w.toNat lo 2 = fld (fld w.toNat lo 5) 0 2 := (fld_fld _ lo 5 0 2 (by decide)).symm
  have hlt := fld_lt w.toNat lo 5
  apply BitVec.eq_of_toNat_eq
  rw [predHi, BitVec.toNat_ofNat, wf_toNat, wf_toNat, hx]
  rw [h0] at h
  generalize fld w.toNat lo 5 = x at *
  simp only [fld] at h ⊢
  omega

/-- The immediate of a shift from its three fields (R68). -/
theorem shiftImm_fields (i : BitVec 14) : BitVec.ofNat 14 ((BitVec.ofNat 6 (fld i.toNat 8 6)).toNat * 256 +
    (([ShiftOp.shl, .shr, .sra, .rol] : List ShiftOp).getD (fld i.toNat 6 2) .shl).kind * 64 +
    (BitVec.ofNat 6 (fld i.toNat 0 6)).toNat) = i := by
  have := i.isLt
  have hk : ∀ k, k < 4 → (([ShiftOp.shl, .shr, .sra, .rol] : List ShiftOp).getD k .shl).kind = k := by decide
  apply BitVec.eq_of_toNat_eq
  rw [hk _ (fld_lt _ _ _), BitVec.toNat_ofNat, BitVec.toNat_ofNat, BitVec.toNat_ofNat]
  simp only [fld]
  omega

end

/-- What O25 says of a word and what it decodes to. -/
def Encodes (w : W32) (a : Afv) : Prop := a.wf = true ∧ afvEncode a (afvPred w) = w

section
variable {w : W32} {a : Afv}

theorem encodes_of_decodeImm {p : Nat} (hp : fld w.toNat 26 6 / 2 = p) (h : decodeImm w p = some a) : Encodes w a := by
  have hI := iForm_fields w
  rw [hp] at hI
  unfold decodeImm at h
  split at h
  case h_5 =>
    cases h
    exact ⟨rfl, by rw [afvEncode, shiftImm_fields]; exact hI⟩
  case h_9 | h_10 | h_11 | h_12 =>
    cases h
    exact ⟨rfl, by rw [afvEncode, pdMode_fields]; exact hI⟩
  case h_13 =>
    obtain ⟨h0, rfl⟩ := clean_eq_some.1 h
    rw [of_decide_eq_true h0] at hI
    exact ⟨rfl, hI⟩
  case h_14 => cases h
  all_goals cases h; exact ⟨rfl, hI⟩

theorem encodes_of_decodeEvent {op : Nat} (hm : fld w.toNat 26 6 = 0x38) (hop : fld w.toNat 6 5 = op)
    (h : decodeEvent w op = some a) : Encodes w a := by
  have hE := eForm_fields w
  rw [hm, hop, wf] at hE
  unfold decodeEvent at h
  split at h
  case h_6 => cases h
  all_goals
    obtain ⟨h0, rfl⟩ := clean_eq_some.1 h
    simp only [decide_eq_true_eq] at h0
    simp only [h0] at hE
    exact ⟨rfl, hE⟩

theorem encodes_of_decodeMail {op : Nat} (hm : fld w.toNat 26 6 = 0x39) (hop : fld w.toNat 6 5 = op)
    (h : decodeMail w op = some a) : Encodes w a := by
  have hE := eForm_fields w
  rw [hm, hop] at hE
  unfold decodeMail at h
  split at h
  case h_3 =>
    obtain ⟨h0, rfl⟩ := clean_eq_some.1 h
    have hpe : BitVec.ofNat 5 (wf w 11 3).toNat = wRb w := by
      apply BitVec.eq_of_toNat_eq
      have h0 := of_decide_eq_true h0
      rw [wRb, BitVec.toNat_ofNat, wf_toNat, wf_toNat]
      simp only [fld] at h0 ⊢
      omega
    exact ⟨rfl, by rw [afvEncode, hpe]; exact hE⟩
  case h_4 => cases h
  all_goals
    obtain ⟨h0, rfl⟩ := clean_eq_some.1 h
    simp only [decide_eq_true_eq] at h0
    simp only [wf, h0] at hE
    exact ⟨rfl, hE⟩

theorem encodes_of_decodeWork {op : Nat} (hm : fld w.toNat 26 6 = 0x3B) (hop : fld w.toNat 6 5 = op)
    (h : decodeWork w op = some a) : Encodes w a := by
  have hE := eForm_fields w
  rw [hm, hop] at hE
  unfold decodeWork at h
  split at h
  case h_6 => cases h
  all_goals
    obtain ⟨h0, rfl⟩ := clean_eq_some.1 h
    simp only [decide_eq_true_eq] at h0
    simp only [wf, h0] at hE
    exact ⟨rfl, hE⟩

theorem encodes_of_decodeSystem {op : Nat} (hm : fld w.toNat 26 6 = 0x3C) (hop : fld w.toNat 6 5 = op)
    (h : decodeSystem w op = some a) : Encodes w a := by
  have hE := eForm_fields w
  rw [hm, hop, wf] at hE
  by_cases hpd : fld w.toNat 3 3 = 0
  · simp only [decodeSystem, hpd, ne_eq, not_true, if_false] at h
    rw [hpd] at hE
    split at h
    case h_8 => cases h
    all_goals
      obtain ⟨h0, rfl⟩ := clean_eq_some.1 h
      simp only [decide_eq_true_eq] at h0
      simp only [h0] at hE
      exact ⟨rfl, hE⟩
  · simp [decodeSystem, hpd] at h

end

/-! ### Operations by their func values -/

theorem aluOfFunc_eq_some {f : Nat} {op : AluOp} (h : aluOfFunc f = some op) : op.func = f := by
  have hf : f < 22 := by
    unfold aluOfFunc at h
    split at h
    · cases h
    · obtain ⟨hf, -⟩ := List.getElem?_eq_some_iff.1 h
      exact hf
  interval_cases f <;> cases h <;> rfl

theorem mulOfFunc_eq_some {f : Nat} {op : MulOp} (h : mulOfFunc f = some op) : op.func = f := by
  unfold mulOfFunc at h
  split at h <;> cases h <;> rfl

theorem amoOfCode_eq_some {f : Nat} {op : AmoOp} (h : amoOfCode f = some op) : op.code = f := by
  obtain ⟨hf, rfl⟩ := List.getElem?_eq_some_iff.1 h
  simp only [List.length_cons, List.length_nil] at hf
  interval_cases f <;> rfl

theorem predOfFunc_eq_some {f : Nat} {op : PredOp} (h : ([PredOp.and, .or, .xor, .andn, .not] : List PredOp)[f]? = some op) :
    op.func = f := by
  obtain ⟨hf, rfl⟩ := List.getElem?_eq_some_iff.1 h
  simp only [List.length_cons, List.length_nil] at hf
  interval_cases f <;> rfl

theorem helpOfFunc_eq_some {f : Nat} {op : HelpOp} (h : ([HelpOp.crc32c, .crc64n, .gfmul, .gfxor] : List HelpOp)[f]? = some op) :
    op.func = f := by
  obtain ⟨hf, rfl⟩ := List.getElem?_eq_some_iff.1 h
  simp only [List.length_cons, List.length_nil] at hf
  interval_cases f <;> rfl

/-! ### The A-format majors with fields of their own -/

section
variable {w : W32} {a : Afv} {m : Nat} (hm : fld w.toNat 26 6 = m) (h : decodeMajor w m = some a)
include hm h

theorem encodes_of_decode_cmp (h2 : m = 0x02) : Encodes w a := by
  subst h2
  have hA := aForm_fields w
  obtain ⟨h0, rfl⟩ := clean_eq_some.1 h
  obtain ⟨h3, hc⟩ := of_decide_eq_true h0
  have hf : (wf w 7 4).toNat * 16 + (wf w 4 3).toNat * 2 = fld w.toNat 3 8 := by
    rw [wf_toNat, wf_toNat]
    simp only [fld] at h3 ⊢
    omega
  refine ⟨decide_eq_true (by rw [wf_toNat]; exact hc), ?_⟩
  rw [afvEncode, pdMode_fields, hf, ← hm, hA]

theorem encodes_of_decode_pred (h3 : m = 0x03) : Encodes w a := by
  subst h3
  have hA := aForm_fields w
  obtain ⟨op, hop, h⟩ := Option.bind_eq_some_iff.1 h
  obtain ⟨h0, rfl⟩ := clean_eq_some.1 h
  obtain ⟨⟨h21, h16, h11⟩, hn⟩ := of_decide_eq_true h0
  refine ⟨decide_eq_true (hn.imp_right fun h => wf_eq_of h), ?_⟩
  rw [afvEncode, predHi_fields w h21, predHi_fields w h16, predHi_fields w h11, predOfFunc_eq_some hop]
  rw [hm] at hA
  exact hA

theorem encodes_of_decode_sput (h4 : m = 0x04) : Encodes w a := by
  subst h4
  have hA := aForm_fields w
  obtain ⟨h0, rfl⟩ := clean_eq_some.1 h
  obtain ⟨hrd, h3⟩ := of_decide_eq_true h0
  have hf : (wf w 7 4).toNat * 16 = fld w.toNat 3 8 := by
    rw [wf_toNat]
    simp only [fld] at h3 ⊢
    omega
  refine ⟨rfl, ?_⟩
  rw [afvEncode, hf, ← hm, ← hrd, hA]

theorem encodes_of_decode_amo (h5 : m = 0x05) : Encodes w a := by
  subst h5
  have hA := aForm_fields w
  obtain ⟨op, hop, h⟩ := Option.bind_eq_some_iff.1 h
  obtain ⟨h0, rfl⟩ := clean_eq_some.1 h
  obtain ⟨h3, hs⟩ := of_decide_eq_true h0
  have hw : b2n (bit w.toNat 5) = fld w.toNat 5 1 := by
    have hlt := fld_lt w.toNat 5 1
    have hbit : bit w.toNat 5 = decide (fld w.toNat 5 1 = 1) := rfl
    obtain h | h : fld w.toNat 5 1 = 0 ∨ fld w.toNat 5 1 = 1 := by omega
    · rw [hbit, h]; rfl
    · rw [hbit, h]; rfl
  have hf : (wf w 9 2).toNat * 64 + op.code * 8 + b2n (bit w.toNat 5) * 4 = fld w.toNat 3 8 := by
    rw [wf_toNat, amoOfCode_eq_some hop, hw]
    simp only [fld] at h3 hs ⊢
    omega
  refine ⟨decide_eq_true (by rw [wf_toNat]; exact hs), ?_⟩
  rw [afvEncode, hf, ← hm, hA]

theorem encodes_of_decode_rcmp (h35 : m = 0x35) : Encodes w a := by
  subst h35
  obtain ⟨h0, rfl⟩ := clean_eq_some.1 h
  obtain ⟨h3, h5⟩ := of_decide_eq_true h0
  have hT := tForm_fields w h3
  have h10 : wf w 10 2 = 0 := wf_eq_of (by simp only [fld] at h5 ⊢; rw [show (0 : BitVec 2).toNat = 0 from rfl]; omega)
  have h8 : wf w 8 2 = 0 := wf_eq_of (by simp only [fld] at h5 ⊢; rw [show (0 : BitVec 2).toNat = 0 from rfl]; omega)
  have hpd : wf w 5 3 = 0 := wf_eq_of (by simp only [fld] at h5 ⊢; rw [show (0 : BitVec 3).toNat = 0 from rfl]; omega)
  rw [hm, h10, h8, hpd] at hT
  exact ⟨rfl, hT⟩

theorem encodes_of_decode_fence (h3A : m = 0x3A) : Encodes w a := by
  subst h3A
  have hE := eForm_fields w
  obtain ⟨h0, rfl⟩ := clean_eq_some.1 h
  obtain ⟨hop, h25, h20, hrb, hpd⟩ := of_decide_eq_true h0
  have hrd : BitVec.ofNat 5 (wf w 21 4).toNat = wRd w := BitVec.eq_of_toNat_eq (by
    rw [wRd, BitVec.toNat_ofNat, wf_toNat, wf_toNat]
    simp only [fld] at h25 ⊢
    omega)
  have hra : BitVec.ofNat 5 (wf w 16 4).toNat = wRa w := BitVec.eq_of_toNat_eq (by
    rw [wRa, BitVec.toNat_ofNat, wf_toNat, wf_toNat]
    simp only [fld] at h20 ⊢
    omega)
  rw [hm, hop, hrb, wf, hpd] at hE
  exact ⟨rfl, by rw [afvEncode, hrd, hra]; exact hE⟩

end

section
variable {w : W32} {a : Afv}

theorem encodes_of_decodeMajor {m : Nat} (hm : fld w.toNat 26 6 = m) (h : decodeMajor w m = some a) : Encodes w a := by
  have hA := aForm_fields w
  have hM := mForm_fields w
  have hB := bForm_fields w
  have hT := tForm_fields w
  have hE := eForm_fields w
  rw [hm] at hA hM hB hT hE
  have h' := h
  unfold decodeMajor at h
  split at h
  case h_3 => exact encodes_of_decode_cmp hm h' rfl
  case h_4 => exact encodes_of_decode_pred hm h' rfl
  case h_5 => exact encodes_of_decode_sput hm h' rfl
  case h_6 => exact encodes_of_decode_amo hm h' rfl
  case h_1 =>
    obtain ⟨op, hop, h⟩ := Option.bind_eq_some_iff.1 h
    obtain ⟨h0, rfl⟩ := clean_eq_some.1 h
    exact ⟨h0, by rw [afvEncode, aluOfFunc_eq_some hop, hA]⟩
  case h_2 =>
    obtain ⟨op, hop, rfl⟩ := Option.map_eq_some_iff.1 h
    exact ⟨rfl, by rw [afvEncode, mulOfFunc_eq_some hop, hA]⟩
  case h_7 =>
    obtain ⟨op, hop, rfl⟩ := Option.map_eq_some_iff.1 h
    exact ⟨rfl, by rw [afvEncode, helpOfFunc_eq_some hop, hA]⟩
  case h_8 =>
    cases h
    exact ⟨decide_eq_true (fld_lt _ _ _), hA⟩
  case h_9 | h_10 | h_11 | h_12 | h_13 =>
    cases h
    exact ⟨rfl, hM⟩
  case h_14 | h_15 =>
    obtain ⟨h0, rfl⟩ := clean_eq_some.1 h
    exact ⟨rfl, hB (of_decide_eq_true h0)⟩
  case h_16 =>
    obtain ⟨h0, rfl⟩ := clean_eq_some.1 h
    obtain ⟨hrb, hf⟩ := of_decide_eq_true h0
    rw [hrb, hf] at hA
    exact ⟨rfl, hA⟩
  case h_17 =>
    obtain ⟨h0, rfl⟩ := clean_eq_some.1 h
    exact ⟨rfl, hT (of_decide_eq_true h0)⟩
  case h_18 => exact encodes_of_decode_rcmp hm h' rfl
  case h_19 => exact encodes_of_decodeEvent hm rfl h
  case h_20 => exact encodes_of_decodeMail hm rfl h
  case h_21 => exact encodes_of_decode_fence hm h' rfl
  case h_22 => exact encodes_of_decodeWork hm rfl h
  case h_23 => exact encodes_of_decodeSystem hm rfl h
  case h_24 => cases h

end

/-- Settles O25: a word is the word of its fields in the format of its major, and a field that the instruction does not use is zero
in a word that decodes (the model's reading, log entry 119). -/
theorem encodeOfDecode : Obligations.EncodeOfDecode := by
  unfold Obligations.EncodeOfDecode
  intro w a h
  simp only [afvDecode] at h
  split at h
  · exact encodes_of_decodeImm rfl h
  · exact encodes_of_decodeMajor rfl h

end Sys2Proof.Machine
end

section
/-! Proofs about the instructions that only compute (R66 to R70, R84): the value of each operation as the rule gives it, and
obligations O3 to O7. -/

namespace Sys2Proof.Machine

open Sys2Proof.Safety

/-! ### Values of the ALU group (R66) -/

section
variable (x y : W64)

theorem aluVal_rol : aluVal .rol x y = (x <<< (y.toNat % 64)) ||| (x >>> (64 - y.toNat % 64)) := by
  simp only [aluVal, shiftVal, BitVec.rotateLeft_def, Nat.mod_mod]

theorem aluVal_ror : aluVal .ror x y = (x >>> (y.toNat % 64)) ||| (x <<< (64 - y.toNat % 64)) := by
  simp only [aluVal, BitVec.rotateRight_def, Nat.mod_mod]

theorem ite_le_eq_ite_lt {α β : Type} [LinearOrder α] {f : β → α} (hf : Function.Injective f) (x y : β) :
    (if f x ≤ f y then x else y) = if f x < f y then x else y := by
  rcases lt_trichotomy (f x) (f y) with h | h | h
  · rw [if_pos h.le, if_pos h]
  · rw [hf h, ite_self, ite_self]
  · rw [if_neg (not_le.mpr h), if_neg (not_lt.mpr h.le)]

theorem ite_le_eq_ite_lt' {α β : Type} [LinearOrder α] {f : β → α} (hf : Function.Injective f) (x y : β) :
    (if f x ≤ f y then y else x) = if f x < f y then y else x := by
  rcases lt_trichotomy (f x) (f y) with h | h | h
  · rw [if_pos h.le, if_pos h]
  · rw [hf h, ite_self, ite_self]
  · rw [if_neg (not_le.mpr h), if_neg (not_lt.mpr h.le)]

theorem toNat_injective {w : Nat} : Function.Injective (BitVec.toNat : BitVec w → Nat) := fun _ _ => BitVec.eq_of_toNat_eq
theorem toInt_injective {w : Nat} : Function.Injective (BitVec.toInt : BitVec w → Int) := fun _ _ => BitVec.eq_of_toInt_eq

theorem aluVal_minu : aluVal .minu x y = if x.ult y then x else y := by
  simp only [aluVal, BitVec.ult, decide_eq_true_eq, ite_le_eq_ite_lt toNat_injective]
theorem aluVal_maxu : aluVal .maxu x y = if x.ult y then y else x := by
  simp only [aluVal, BitVec.ult, decide_eq_true_eq, ite_le_eq_ite_lt' toNat_injective]
theorem aluVal_mins : aluVal .mins x y = if x.slt y then x else y := by
  simp only [aluVal, BitVec.slt, decide_eq_true_eq, ite_le_eq_ite_lt toInt_injective]
theorem aluVal_maxs : aluVal .maxs x y = if x.slt y then y else x := by
  simp only [aluVal, BitVec.slt, decide_eq_true_eq, ite_le_eq_ite_lt' toInt_injective]

theorem aluVal_add32 : aluVal .add32 x y = ((x + y).extractLsb' 0 32).setWidth 64 := by
  apply BitVec.eq_of_toNat_eq
  simp [aluVal]
theorem aluVal_sub32 : aluVal .sub32 x y = ((x - y).extractLsb' 0 32).setWidth 64 := by
  apply BitVec.eq_of_toNat_eq
  have := x.isLt; have := y.isLt
  simp only [aluVal, BitVec.toNat_ofNat, BitVec.toNat_setWidth, BitVec.extractLsb'_toNat, BitVec.toNat_sub, Nat.shiftRight_zero]
  omega

theorem clzN_eq (n x : Nat) : clzN n x = ((List.range n).takeWhile fun i => !x.testBit (n - 1 - i)).length := by
  induction n with
  | zero => rfl
  | succ n ih =>
    rw [clzN, ih, List.range_succ_eq_map, List.takeWhile_cons, List.takeWhile_map, Nat.testBit_eq_decide_div_mod_eq]
    simp only [Nat.add_sub_cancel, Nat.sub_zero]
    by_cases h : x / 2 ^ n % 2 = 1
    · simp [h]
    · rw [if_neg h, decide_eq_false h, Bool.not_false, if_pos rfl, List.length_cons, List.length_map, Nat.add_comm]
      simp only [Function.comp_def, Nat.sub_sub, Nat.succ_eq_add_one, Nat.add_comm 1]

theorem ctzN_eq (n x : Nat) : ctzN n x = ((List.range n).takeWhile fun i => !x.testBit i).length := by
  induction n generalizing x with
  | zero => rfl
  | succ n ih =>
    rw [ctzN, ih, List.range_succ_eq_map, List.takeWhile_cons, List.takeWhile_map, Nat.testBit_zero]
    by_cases h : x % 2 = 1
    · simp [h]
    · simp [h, Function.comp_def, Nat.testBit_succ, Nat.add_comm]

theorem popcount_eq (n x : Nat) : popcount n x = ((List.range n).filter fun i => x.testBit i).length := by
  induction n generalizing x with
  | zero => rfl
  | succ n ih =>
    rw [popcount, ih, List.range_succ_eq_map, List.filter_cons, List.filter_map, Nat.testBit_zero]
    rcases Nat.mod_two_eq_zero_or_one x with h | h <;> simp [h, Function.comp_def, Nat.testBit_succ, Nat.add_comm]

theorem aluVal_clz : aluVal .clz x y = BitVec.ofNat 64 ((List.range 64).takeWhile fun i => !x.getLsbD (63 - i)).length :=
  congrArg (BitVec.ofNat 64) (clzN_eq 64 x.toNat)
theorem aluVal_ctz : aluVal .ctz x y = BitVec.ofNat 64 ((List.range 64).takeWhile fun i => !x.getLsbD i).length :=
  congrArg (BitVec.ofNat 64) (ctzN_eq 64 x.toNat)
theorem aluVal_popc : aluVal .popc x y = BitVec.ofNat 64 ((List.range 64).filter fun i => x.getLsbD i).length :=
  congrArg (BitVec.ofNat 64) (popcount_eq 64 x.toNat)

theorem beNat_reverse (bs : List Byte) : beNat bs.reverse = leNat bs := by
  induction bs with
  | nil => rfl
  | cons b bs ih => rw [beNat] at ih; rw [beNat, List.reverse_cons, List.foldl_append, ih]; simp [leNat]; omega

/-- The bytes of a 64-bit value that was put together from bytes. -/
theorem leNat_byte (bs : List Byte) {i : Nat} (h : i < 8) : (BitVec.ofNat 64 (leNat bs)).extractLsb' (8 * i) 8 = bs.getD i 0 := by
  apply BitVec.eq_of_getLsbD_eq
  intro k hk
  have hd : (8 * i + k) / 8 = i ∧ (8 * i + k) % 8 = k := by omega
  simp only [BitVec.getLsbD_extractLsb', hk, decide_true, Bool.true_and, BitVec.getLsbD_ofNat, testBit_leNat, hd,
    show 8 * i + k < 64 by omega]

theorem bswap64_byte (i : Nat) (h : i < 8) : (bswap64 x).extractLsb' (8 * i) 8 = x.extractLsb' (8 * (7 - i)) 8 := by
  have hr : beNat (leBytes 8 x.toNat) = leNat (leBytes 8 x.toNat).reverse := by rw [← beNat_reverse, List.reverse_reverse]
  have hg : (leBytes 8 x.toNat).reverse.getD i 0 = (leBytes 8 x.toNat).getD (7 - i) 0 := by
    rw [List.getD_eq_getElem?_getD, List.getD_eq_getElem?_getD, List.getElem?_reverse (by simpa using h), leBytes_length]
  apply BitVec.eq_of_toNat_eq
  rw [bswap64, hr, leNat_byte _ h, hg, leBytes_getD _ _ _ (by omega), BitVec.toNat_ofNat, BitVec.extractLsb'_toNat,
    Nat.shiftRight_eq_div_pow, Nat.pow_mul]

end

/-! ### Instructions of the ALU group and of multiplication -/

section
variable {who : Agent} {n : Nat} {pr : BitVec 3} {rd ra rb : BitVec 5} {s : State} {c : Instr}

theorem computes_alu {op : AluOp} {v : W64} (h : agentNum who = some n) (hc : CanIssue s n pr [rd, ra, rb] [])
    (he : exec c s = execAfv who pr (.alu op rd ra rb) s) (hu : op.unary = false ∨ rb = 0)
    (hv : aluVal op (reg s n ra) (reg s n rb) = v) : Computes c s n rd v := by
  refine computes_of_pure h hc he (List.Subset.refl _) (List.Subset.refl _) rfl (fun s => s.insn_alu n op rd ra rb) ?_
  have hb : (op.unary && decide (rb ≠ 0)) = false := by rcases hu with h | h <;> simp [h]
  rw [pureVal, hb, ← hv]
  rfl

theorem raises_alu {op : AluOp} (h : agentNum who = some n) (hc : CanIssue s n pr [rd, ra, rb] [])
    (he : exec c s = execAfv who pr (.alu op rd ra rb) s) (hu : op.unary = true) (hb : rb ≠ 0) : Raises c s n 1 0 := by
  refine raises_of_pure h hc he (List.Subset.refl _) (List.Subset.refl _) rfl (fun s => s.insn_alu n op rd ra rb) ?_
  rw [pureVal, hu, decide_eq_true hb]
  rfl

/-- What each func value of major 0x00 decodes to. -/
theorem decode_alu (rd ra rb : BitVec 5) (pr : BitVec 3) {f : Nat} (hf : f < 256) : afvDecode (aForm 0x00 rd ra rb f pr) =
    (aluOfFunc f).bind fun op => clean (!op.unary || rb = 0) (.alu op rd ra rb) := by
  obtain ⟨hrd, hra, hrb, hfunc⟩ := fields_aForm (m := 0x00) rd ra rb pr (by decide) hf
  rw [decode_aForm _ _ _ pr (by decide) hf (by decide)]
  simp only [decodeMajor, hrd, hra, hrb, hfunc]

end

/-- The func values of major 0x00 with two source registers, and those with one (R66). -/
def aluTwo : List (Nat × AluOp) :=
  [(0x00, .add), (0x01, .sub), (0x02, .and), (0x03, .or), (0x04, .xor), (0x05, .andn), (0x06, .shl), (0x07, .shr), (0x08, .sra),
   (0x09, .rol), (0x0A, .ror), (0x0B, .minu), (0x0C, .maxu), (0x0D, .mins), (0x0E, .maxs), (0x14, .add32), (0x15, .sub32)]
def aluOne : List (Nat × AluOp) := [(0x10, .clz), (0x11, .ctz), (0x12, .popc), (0x13, .bswap)]

theorem aluOfFunc_none {f : Nat} (h : 22 ≤ f) : aluOfFunc f = none := by
  rw [aluOfFunc, if_neg (by omega)]
  exact List.getElem?_eq_none h

theorem lookup_aluTwo (f : Nat) : aluTwo.lookup f = (aluOfFunc f).filter fun op => !op.unary := by
  by_cases h : f < 22
  · exact (by decide : ∀ f < 22, aluTwo.lookup f = (aluOfFunc f).filter fun op => !op.unary) f h
  · rw [aluOfFunc_none (by omega), Option.filter_none, List.lookup_eq_none_iff]
    have hk : ∀ p ∈ aluTwo, p.1 < 22 := by decide
    intro p hp
    have := hk p hp
    simp only [bne_iff_ne, ne_eq]
    omega

theorem lookup_aluTwo_aluOne (f : Nat) : (aluTwo ++ aluOne).lookup f = aluOfFunc f := by
  by_cases h : f < 22
  · exact (by decide : ∀ f < 22, (aluTwo ++ aluOne).lookup f = aluOfFunc f) f h
  · rw [aluOfFunc_none (by omega), List.lookup_eq_none_iff]
    have hk : ∀ p ∈ aluTwo ++ aluOne, p.1 < 22 := by decide
    intro p hp
    have := hk p hp
    simp only [bne_iff_ne, ne_eq]
    omega

theorem decode_alu_lookup (rd ra rb : BitVec 5) (pr : BitVec 3) {f : Nat} (hf : f < 256) : afvDecode (aForm 0x00 rd ra rb f pr) =
    ((aluTwo ++ if rb = 0 then aluOne else []).lookup f).map fun op => .alu op rd ra rb := by
  rw [decode_alu rd ra rb pr hf]
  by_cases hb : rb = 0
  · rw [if_pos hb, lookup_aluTwo_aluOne]
    cases aluOfFunc f <;> simp [clean, hb]
  · have hb' : ¬rb = 0#5 := hb
    rw [if_neg hb, List.append_nil, lookup_aluTwo]
    cases aluOfFunc f with
    | none => rfl
    | some op => cases hu : op.unary <;> simp [clean, hu, Option.filter, hb']

/-- Settles O3: each operation's value is the rule's, and `decode_alu_lookup` reads the func values off the table. -/
theorem aluResults : Obligations.AluResults := by
  intro who n pr rd ra rb s h hc x y k
  have two {op : AluOp} {c : Instr} {v : W64} (hu : op.unary = false) (he : exec c s = execAfv who pr (.alu op rd ra rb) s)
      (hv : aluVal op x y = v) : Computes c s n rd v := computes_alu h hc he (.inl hu) hv
  refine ⟨two rfl rfl rfl, two rfl rfl rfl, two rfl rfl rfl, two rfl rfl rfl, two rfl rfl rfl, two rfl rfl rfl, two rfl rfl rfl,
    two rfl rfl rfl, two rfl rfl rfl, two rfl rfl (aluVal_rol x y), two rfl rfl (aluVal_ror x y), two rfl rfl (aluVal_minu x y),
    two rfl rfl (aluVal_maxu x y), two rfl rfl (aluVal_mins x y), two rfl rfl (aluVal_maxs x y), two rfl rfl (aluVal_add32 x y),
    two rfl rfl (aluVal_sub32 x y), ?_, fun f hf => decode_alu_lookup rd ra rb pr hf⟩
  split
  case isTrue hb =>
    exact ⟨computes_alu h hc rfl (.inr hb) (aluVal_clz x y), computes_alu h hc rfl (.inr hb) (aluVal_ctz x y),
      computes_alu h hc rfl (.inr hb) (aluVal_popc x y), bswap64 x, bswap64_byte x, computes_alu h hc rfl (.inr hb) rfl⟩
  case isFalse hb =>
    exact ⟨raises_alu h hc rfl rfl hb, raises_alu h hc rfl rfl hb, raises_alu h hc rfl rfl hb, raises_alu h hc rfl rfl hb⟩

/-! ### Products and quotients (R67) -/

section
variable (x y : W64)

theorem mulVal_mulhu : mulVal .mulhu x y = (x.setWidth 128 * y.setWidth 128).extractLsb' 64 64 := by
  have := Nat.mul_lt_mul'' x.isLt y.isLt
  apply BitVec.eq_of_toNat_eq
  simp only [mulVal, BitVec.toNat_ofNat, BitVec.extractLsb'_toNat, BitVec.toNat_mul, BitVec.toNat_setWidth, Nat.shiftRight_eq_div_pow]
  rw [Nat.mod_eq_of_lt (a := x.toNat) (by omega), Nat.mod_eq_of_lt (a := y.toNat) (by omega),
    Nat.mod_eq_of_lt (a := x.toNat * y.toNat) (by omega)]

theorem mulVal_mulhs : mulVal .mulhs x y = (x.signExtend 128 * y.signExtend 128).extractLsb' 64 64 := by
  have hp : x.signExtend 128 * y.signExtend 128 = BitVec.ofInt 128 (x.toInt * y.toInt) := by
    rw [BitVec.ofInt_mul, BitVec.signExtend, BitVec.signExtend]
  have hn : ((x.signExtend 128 * y.signExtend 128).toNat : Int) = x.toInt * y.toInt % 2 ^ 128 := by
    rw [hp, BitVec.toNat_ofInt, Int.toNat_of_nonneg (Int.emod_nonneg _ (by decide))]
    rfl
  apply BitVec.eq_of_toNat_eq
  rw [mulVal, BitVec.toNat_ofInt, BitVec.extractLsb'_toNat, Nat.shiftRight_eq_div_pow]
  generalize (x.signExtend 128 * y.signExtend 128).toNat = p at *
  generalize x.toInt * y.toInt = q at *
  omega

end

section
variable {who : Agent} {n : Nat} {pr : BitVec 3} {rd ra rb : BitVec 5} {s : State} {c : Instr}

theorem computes_mul {op : MulOp} {v : W64} (h : agentNum who = some n) (hc : CanIssue s n pr [rd, ra, rb] [])
    (he : exec c s = execAfv who pr (.mul op rd ra rb) s) (hv : mulVal op (reg s n ra) (reg s n rb) = v) : Computes c s n rd v :=
  computes_of_pure h hc he (List.Subset.refl _) (List.Subset.refl _) rfl (fun s => s.insn_mul n op rd ra rb) (by rw [← hv]; rfl)

end

theorem decode_mul (rd ra rb : BitVec 5) (pr : BitVec 3) (op : MulOp) :
    afvDecode (aForm 0x01 rd ra rb op.func pr) = some (.mul op rd ra rb) := by
  rw [decode_aForm _ _ _ pr (by decide) op.func_lt (by decide)]
  obtain ⟨hrd, hra, hrb, hfunc⟩ := fields_aForm (m := 0x01) rd ra rb pr (by decide) op.func_lt
  simp only [decodeMajor, hrd, hra, hrb, hfunc, mulOfFunc_func, Option.map_some]

/-- Settles O4: the high halves through the 128-bit product, the corners by evaluation. -/
theorem mulDivResults : Obligations.MulDivResults := by
  intro who n pr rd ra rb s h hc x y
  have op {op : MulOp} {c : Instr} {v : W64} (he : exec c s = execAfv who pr (.mul op rd ra rb) s)
      (hv : mulVal op x y = v) : Computes c s n rd v := computes_mul h hc he hv
  refine ⟨op rfl rfl, op rfl (mulVal_mulhu x y), op rfl (mulVal_mulhs x y), fun hy => ?_, fun hy => ?_, fun hx hy => ?_,
    decode_mul _ _ _ _ .mul, decode_mul _ _ _ _ .mulhu, decode_mul _ _ _ _ .mulhs, decode_mul _ _ _ _ .divu,
    decode_mul _ _ _ _ .remu, decode_mul _ _ _ _ .divs, decode_mul _ _ _ _ .rems⟩
  · exact ⟨op rfl (if_neg hy), op rfl (if_neg hy), op rfl (if_neg hy), op rfl (if_neg hy)⟩
  · exact ⟨op rfl (if_pos hy), op rfl (if_pos hy), op rfl (if_pos hy), op rfl (if_pos hy)⟩
  · exact ⟨op rfl (by rw [hx, hy]; decide), op rfl (by rw [hx, hy]; decide)⟩

/-! ### Immediate operations (R68) -/

section
variable {who : Agent} {n : Nat} {pr : BitVec 3} {rd ra : BitVec 5} {s : State} {c : Instr}

theorem computes_imm {op : ImmOp} {imm : BitVec 14} (h : agentNum who = some n) (hc : CanIssue s n pr [rd, ra] [])
    (he : exec c s = execAfv who pr (.imm op rd ra imm) s) : Computes c s n rd (immVal op (reg s n ra) imm) :=
  computes_of_pure h hc he (List.Subset.refl _) (List.Subset.refl _) rfl (fun s => s.insn_imm n op rd ra imm) rfl

theorem computes_shift {op : ShiftOp} {hi amt : BitVec 6} (h : agentNum who = some n) (hc : CanIssue s n pr [rd, ra] [])
    (he : exec c s = execAfv who pr (.shift op rd ra hi amt) s) (hz : hi = 0) :
    Computes c s n rd (shiftVal op (reg s n ra) amt.toNat) :=
  computes_of_pure h hc he (List.Subset.refl _) (List.Subset.refl _) rfl (fun s => s.insn_shift n op rd ra hi amt) (if_pos hz)

theorem raises_shift {op : ShiftOp} {hi amt : BitVec 6} (h : agentNum who = some n) (hc : CanIssue s n pr [rd, ra] [])
    (he : exec c s = execAfv who pr (.shift op rd ra hi amt) s) (hz : hi ≠ 0) : Raises c s n 1 0 :=
  raises_of_pure h hc he (List.Subset.refl _) (List.Subset.refl _) rfl (fun s => s.insn_shift n op rd ra hi amt) (if_neg hz)

theorem computes_ext {imm : BitVec 14} {v : W64} (h : agentNum who = some n) (hc : CanIssue s n pr [rd, ra] [])
    (he : exec c s = execAfv who pr (.ext rd ra imm) s) (hv : extVal (reg s n ra) imm = some v) : Computes c s n rd v :=
  computes_of_pure h hc he (List.Subset.refl _) (List.Subset.refl _) rfl (fun s => s.insn_ext n rd ra imm)
    (by rw [reg] at hv; simp only [pureVal, hv])

theorem raises_ext {imm : BitVec 14} (h : agentNum who = some n) (hc : CanIssue s n pr [rd, ra] [])
    (he : exec c s = execAfv who pr (.ext rd ra imm) s) (hv : extVal (reg s n ra) imm = none) : Raises c s n 1 0 :=
  raises_of_pure h hc he (List.Subset.refl _) (List.Subset.refl _) rfl (fun s => s.insn_ext n rd ra imm)
    (by rw [reg] at hv; simp only [pureVal, hv])

theorem computes_ins {imm : BitVec 14} {v : W64} (h : agentNum who = some n) (hc : CanIssue s n pr [rd, ra] [])
    (he : exec c s = execAfv who pr (.ins rd ra imm) s) (hv : insVal (reg s n rd) (reg s n ra) imm = some v) :
    Computes c s n rd v :=
  computes_of_pure h hc he (List.Subset.refl _) (List.Subset.refl _) rfl (fun s => s.insn_ins n rd ra imm)
    (by rw [reg, reg] at hv; simp only [pureVal, hv])

theorem raises_ins {imm : BitVec 14} (h : agentNum who = some n) (hc : CanIssue s n pr [rd, ra] [])
    (he : exec c s = execAfv who pr (.ins rd ra imm) s) (hv : insVal (reg s n rd) (reg s n ra) imm = none) : Raises c s n 1 0 :=
  raises_of_pure h hc he (List.Subset.refl _) (List.Subset.refl _) rfl (fun s => s.insn_ins n rd ra imm)
    (by rw [reg, reg] at hv; simp only [pureVal, hv])

end

section
variable (x d : W64) (i : BitVec 14)

/-- One bit of an immediate as the number that its field holds. -/
theorem fld_one_toNat (k : Nat) : fld i.toNat k 1 = 1 ↔ i.getLsbD k = true := by
  rw [← bit_toNat, bit, fld, pow_one, decide_eq_true_eq]

theorem extVal_none (h : i.getLsbD 13 = true ∨ 64 < (i.extractLsb' 0 6).toNat + ((i.extractLsb' 6 6).toNat + 1)) :
    extVal x i = none := by
  rw [← fld_toNat, ← fld_toNat, ← fld_one_toNat] at h
  rw [extVal, if_pos h.symm]

theorem insVal_none (h : i.getLsbD 13 = true ∨ 64 < (i.extractLsb' 0 6).toNat + ((i.extractLsb' 6 6).toNat + 1) ∨ i.getLsbD 12 = true) :
    insVal d x i = none := by
  rw [← fld_toNat, ← fld_toNat, ← fld_one_toNat, ← fld_one_toNat] at h
  rw [insVal, if_pos]
  rcases h with h | h | h
  · right; simp only [fld] at h ⊢; omega
  · exact .inl h
  · right; simp only [fld] at h ⊢; omega

/-- EXT takes the field and extends it with zeros, or with its top bit where imm[12] is 1. -/
theorem extVal_some (h : ¬(i.getLsbD 13 = true ∨ 64 < (i.extractLsb' 0 6).toNat + ((i.extractLsb' 6 6).toNat + 1))) :
    ∃ v : W64, extVal x i = some v ∧ ∀ j, j < 64 → v.getLsbD j =
      if j < (i.extractLsb' 6 6).toNat + 1 then x.getLsbD ((i.extractLsb' 0 6).toNat + j)
      else (i.getLsbD 12 && x.getLsbD ((i.extractLsb' 0 6).toNat + ((i.extractLsb' 6 6).toNat + 1) - 1)) := by
  rw [← fld_toNat, ← fld_toNat] at h
  simp only [extVal, ← fld_toNat, fld_one_toNat]
  generalize fld i.toNat 0 6 = pos at *
  generalize fld i.toNat 6 6 = len at *
  rw [if_neg fun e => h e.symm]
  by_cases hs : i.getLsbD 12 = true
  · refine ⟨_, if_pos hs, fun j hj => ?_⟩
    rw [BitVec.getLsbD_ofNat, testBit_sext _ _ _ _ (by omega) (by omega) hj, testBit_fld, testBit_fld]
    simp only [hj, decide_true, Bool.true_and, hs, Nat.add_sub_cancel, Nat.lt_succ_self, ← Nat.add_assoc]
    split <;> simp [*, BitVec.getLsbD]
  · refine ⟨_, if_neg hs, fun j hj => ?_⟩
    rw [BitVec.getLsbD_ofNat, testBit_fld, Bool.eq_false_iff.mpr hs]
    by_cases hl : j < len + 1 <;> simp [hl, hj, BitVec.getLsbD]

/-- INS replaces the field of `d` by the low bits of `x`. -/
theorem insVal_some (h : ¬(i.getLsbD 13 = true ∨ 64 < (i.extractLsb' 0 6).toNat + ((i.extractLsb' 6 6).toNat + 1)))
    (h12 : ¬i.getLsbD 12 = true) :
    ∃ v : W64, insVal d x i = some v ∧ ∀ j, j < 64 → v.getLsbD j =
      if (i.extractLsb' 0 6).toNat ≤ j ∧ j < (i.extractLsb' 0 6).toNat + ((i.extractLsb' 6 6).toNat + 1) then
        x.getLsbD (j - (i.extractLsb' 0 6).toNat) else d.getLsbD j := by
  rw [← fld_toNat, ← fld_toNat, ← fld_one_toNat] at h
  rw [← fld_one_toNat] at h12
  simp only [← fld_toNat]
  refine ⟨_, if_neg ?_, fun j hj => ?_⟩
  · simp only [fld] at h h12 ⊢; omega
  · rw [BitVec.getLsbD_ofNat, testBit_setFld, decide_eq_true hj, Bool.true_and]
    rfl

end

/-- Settles O5: the immediate and shift rows by their values, EXT and INS bit by bit. -/
theorem immediateResults : Obligations.ImmediateResults := by
  intro who n pr rd ra imm hi amt s h hc x d pos len
  have hamt : amt.toNat % 64 = amt.toNat := Nat.mod_eq_of_lt amt.isLt
  refine ⟨computes_imm (op := .addi) h hc rfl, computes_imm (op := .andi) h hc rfl, computes_imm (op := .ori) h hc rfl,
    computes_imm (op := .xori) h hc rfl, computes_imm (op := .movk) h hc rfl, ?_, ?_⟩
  · split
    case isTrue hz =>
      have shl := computes_shift (op := .shl) (c := .shli who pr rd ra hi amt) h hc rfl hz
      have shr := computes_shift (op := .shr) (c := .shri who pr rd ra hi amt) h hc rfl hz
      have sra := computes_shift (op := .sra) (c := .srai who pr rd ra hi amt) h hc rfl hz
      have rol := computes_shift (op := .rol) (c := .roli who pr rd ra hi amt) h hc rfl hz
      simp only [shiftVal, BitVec.rotateLeft_def, hamt] at shl shr sra rol
      exact ⟨shl, shr, sra, rol⟩
    case isFalse hz =>
      exact ⟨raises_shift h hc rfl hz, raises_shift h hc rfl hz, raises_shift h hc rfl hz, raises_shift h hc rfl hz⟩
  · split
    case isTrue hb =>
      exact ⟨raises_ext h hc rfl (extVal_none x imm hb),
        raises_ins h hc rfl (insVal_none x d imm (hb.imp_right fun h => .inl h))⟩
    case isFalse hb =>
      obtain ⟨v, hv, hbits⟩ := extVal_some x imm hb
      refine ⟨⟨v, hbits, computes_ext h hc rfl hv⟩, ?_⟩
      split
      case isTrue h12 => exact raises_ins h hc rfl (insVal_none x d imm (.inr (.inr h12)))
      case isFalse h12 =>
        obtain ⟨v, hv, hbits⟩ := insVal_some x d imm hb h12
        exact ⟨v, hbits, computes_ins h hc rfl hv⟩

/-! ### Comparisons and predicate logic (R69, R70) -/

section
variable (x y : W64)

/-- The condition codes of CMP as R69 gives them. -/
theorem condVal_of_holds {c : Nat} {b : Bool} (hc : c < 8) (h : b = true ↔ holdsCond c x y) : condVal c x y = some b := by
  have hb {d : Bool} (e : holdsCond c x y ↔ d = true) : some d = some b := congrArg some (Bool.eq_iff_iff.mpr (h.trans e).symm)
  match c, hc with
  | 0, _ | 1, _ | 2, _ | 3, _ | 4, _ | 5, _ | 6, _ | 7, _ => exact hb (by simp [holdsCond])

theorem condVal_reserved {c : Nat} (hc : 8 ≤ c) : condVal c x y = none := by
  obtain ⟨k, rfl⟩ := Nat.exists_eq_add_of_le' hc
  rfl

theorem cmpMode_eq_afterMode (mode : BitVec 2) (old c : Bool) : cmpMode mode.toNat old c = afterMode mode old c := by
  revert old c
  revert mode
  decide

end

section
variable {who : Agent} {n : Nat} {pr pd pe pa pb : BitVec 3} {ra rb : BitVec 5} {s : State} {c : Instr}

/-- The predicates after the writes of a comparison: pe is written last. -/
theorem pred_cmp_writes (r : Regs) (pd pe : BitVec 3) (v : Bool) (p : BitVec 3) :
    (r.writes [] ((pd, v) :: if pe = 0 then [] else [(pe, !v)])).pred p =
      if p = 0 then true else if p = pe ∧ pe ≠ 0 then !v else if p = pd then v else r.pred p := by
  by_cases hpe : pe = 0
  · simp [Regs.writes, hpe, Regs.pred_setPred]
  · rw [if_neg hpe, Regs.writes, List.foldl_nil, List.foldl_cons, List.foldl_cons, List.foldl_nil, Regs.pred_setPred, Regs.pred_setPred]
    by_cases hp : p = 0
    · rw [if_pos hp, if_pos hp]
    · simp only [hp, if_false, ne_eq, hpe, not_false_eq_true, and_true]

theorem decides_cmp {mode : BitVec 2} {cond : BitVec 4} {b : Bool} (h : agentNum who = some n) (hc : CanIssue s n pr [ra, rb] [pd, pe])
    (he : exec c s = execAfv who pr (.cmp pd mode cond pe ra rb) s) (hv : condVal cond.toNat (reg s n ra) (reg s n rb) = some b) :
    Decides c s n fun p => if p = pe ∧ pe ≠ 0 then !(afterMode mode (pred s n pd) b)
      else if p = pd then afterMode mode (pred s n pd) b else pred s n p :=
  decides_of_pure h hc he (List.Subset.refl _) (List.Subset.refl _) rfl (fun s => s.insn_cmp n pd mode cond pe ra rb)
    (by rw [reg, reg] at hv; simp only [pureVal, hv, cmpResult, cmpMode_eq_afterMode]; rfl) (pred_cmp_writes _ pd pe _)

theorem raises_cmp {mode : BitVec 2} {cond : BitVec 4} (h : agentNum who = some n) (hc : CanIssue s n pr [ra, rb] [pd, pe])
    (he : exec c s = execAfv who pr (.cmp pd mode cond pe ra rb) s) (hv : 8 ≤ cond.toNat) : Raises c s n 1 0 :=
  raises_of_pure h hc he (List.Subset.refl _) (List.Subset.refl _) rfl (fun s => s.insn_cmp n pd mode cond pe ra rb)
    (by simp only [pureVal, condVal_reserved _ _ hv])

theorem decides_cmpi {mode : BitVec 2} {cc : ImmCond} {imm : BitVec 14} {b : Bool} (h : agentNum who = some n)
    (hc : CanIssue s n pr [ra, rb] [pd, pe]) (he : exec c s = execAfv who pr (.cmpi cc pd mode ra imm) s)
    (hb : b = true ↔ holdsCond cc.code (reg s n ra) (cc.extend imm)) :
    Decides c s n fun p => if p = pd then afterMode mode (pred s n pd) b else pred s n p := by
  have hv := condVal_of_holds _ _ (by cases cc <;> decide) hb
  refine decides_of_pure h hc he (by simp [Afv.regs]) (by simp [Afv.preds]) rfl (fun s => s.insn_cmpi n cc pd mode ra imm)
    (by rw [reg] at hv; simp only [pureVal, hv, cmpResult, cmpMode_eq_afterMode]; rfl) fun p => ?_
  exact (pred_cmp_writes _ pd 0 _ p).trans (by simp [pred])

theorem decides_pred {op : PredOp} (h : agentNum who = some n) (hc : CanIssue s n pr [] [pd, pa, pb])
    (he : exec c s = execAfv who pr (.pred op pd pa pb) s) (hb : op ≠ .not ∨ pb = 0) :
    Decides c s n fun p => if p = pd then predVal op (pred s n pa) (pred s n pb) else pred s n p :=
  decides_of_pure h hc he (List.Subset.refl _) (List.Subset.refl _) rfl (fun s => s.insn_pred n op pd pa pb)
    (if_neg (by rintro ⟨e, hz⟩; exact hb.elim (· e) hz)) fun p => Regs.pred_setPred _ _ _ p

theorem raises_pnot (h : agentNum who = some n) (hc : CanIssue s n pr [] [pd, pa, pb])
    (he : exec c s = execAfv who pr (.pred .not pd pa pb) s) (hb : pb ≠ 0) : Raises c s n 1 0 :=
  raises_of_pure h hc he (List.Subset.refl _) (List.Subset.refl _) rfl (fun s => s.insn_pred n .not pd pa pb) (if_pos ⟨rfl, hb⟩)

end

/-- Settles O6: CMP through `condVal_of_holds` and `pred_cmp_writes`, CMPI as a comparison without pe. -/
theorem compareResults : Obligations.CompareResults := by
  refine ⟨?_, ?_⟩
  · intro who n pr pd pe mode cond ra rb imm s h hc x q q2
    exact ⟨fun b hlt hb => decides_cmp h hc rfl (condVal_of_holds _ _ hlt hb), raises_cmp h hc rfl,
      fun b hb => decides_cmpi (cc := .eq) h hc rfl hb, fun b hb => decides_cmpi (cc := .ltu) h hc rfl hb,
      fun b hb => decides_cmpi (cc := .lts) h hc rfl hb, fun b hb => decides_cmpi (cc := .any) h hc rfl hb,
      decode_encode_cmp ra rb pr pd mode cond pe⟩
  · intro who n pr pd pa pb s h hc x y q w
    refine ⟨decides_pred (op := .and) h hc rfl (.inl (by decide)), decides_pred (op := .or) h hc rfl (.inl (by decide)),
      decides_pred (op := .xor) h hc rfl (.inl (by decide)), decides_pred (op := .andn) h hc rfl (.inl (by decide)), ?_,
      decode_encode_pred pr .and pd pa pb rfl, decode_encode_pred pr .or pd pa pb rfl, decode_encode_pred pr .xor pd pa pb rfl,
      decode_encode_pred pr .andn pd pa pb rfl, (decode_pred pr .not pd pa pb).trans ?_⟩
    · split
      case isTrue hb => exact decides_pred (op := .not) h hc rfl (.inr hb)
      case isFalse hb => exact raises_pnot h hc rfl hb
    · simp [clean, Afv.wf]

/-! ### The helpers (R84) -/

/-- `k` shifts take no notice of the bits above the low `k` but to move them down. -/
theorem crcShift_iterate_xor (poly k a b : Nat) : (crcShift poly)^[k] (a ^^^ 2 ^ k * b) = (crcShift poly)^[k] a ^^^ b := by
  induction k generalizing a with
  | zero => simp
  | succ k ih =>
    have hm : (a ^^^ 2 ^ (k + 1) * b) % 2 = a % 2 := by
      rw [Nat.xor_mod_two_eq, Nat.pow_succ', Nat.mul_assoc, Nat.add_mul_mod_self_left]
    have hd : (a ^^^ 2 ^ (k + 1) * b) / 2 = a / 2 ^^^ 2 ^ k * b := by
      rw [Nat.xor_div_two, Nat.pow_succ', Nat.mul_assoc, Nat.mul_div_cancel_left _ (by decide)]
    have hs : crcShift poly (a ^^^ 2 ^ (k + 1) * b) = crcShift poly a ^^^ 2 ^ k * b := by
      unfold crcShift
      rw [hm, hd]
      split
      · rw [Nat.xor_assoc, Nat.xor_comm _ poly, ← Nat.xor_assoc]
      · rfl
    rw [Function.iterate_succ_apply, Function.iterate_succ_apply, hs, ih]

/-- Bytes into a CRC, lowest first: the number they are is added, then there is one shift for each bit. -/
theorem crcUpdate_leBytes (poly n c y : Nat) (hy : y < 256 ^ n) :
    crcUpdate poly c (leBytes n y) = (crcShift poly)^[8 * n] (c ^^^ y) := by
  induction n generalizing c y with
  | zero => simp [crcUpdate, leBytes, show y = 0 by simpa using hy]
  | succ n ih =>
    have hy' : y / 256 < 256 ^ n := by rw [Nat.pow_succ] at hy; exact Nat.div_lt_of_lt_mul (by rwa [Nat.mul_comm])
    have hb : y % 256 ^^^ 2 ^ 8 * (y / 256) = y := by
      apply Nat.eq_of_testBit_eq
      intro i
      rw [Nat.testBit_xor, show 256 = 2 ^ 8 from rfl, Nat.testBit_mod_two_pow, Nat.testBit_two_pow_mul, Nat.testBit_div_two_pow]
      by_cases hi : i < 8
      · simp [hi, show ¬8 ≤ i by omega]
      · simp [hi, show 8 ≤ i by omega]
    have hstep : crcUpdate poly c (leBytes (n + 1) y) = crcUpdate poly ((crcShift poly)^[8] (c ^^^ y % 256)) (leBytes n (y / 256)) := by
      simp only [leBytes, crcUpdate, List.foldl_cons, crcByte, BitVec.toNat_ofNat]
      rfl
    rw [hstep, ih _ _ hy', ← crcShift_iterate_xor, ← Function.iterate_add_apply, Nat.xor_assoc, hb, Nat.mul_succ]

theorem gfX_lt {a : Nat} (h : a < 256) : gfX a < 256 := by
  rw [gfX]
  split
  case isTrue h1 => omega
  case isFalse h1 =>
    have hd : (2 * a ^^^ 0x11D) / 2 ^ 8 = 0 := by
      rw [Nat.xor_div_two_pow, show 2 * a / 2 ^ 8 = 1 by omega]
      rfl
    omega

theorem gfMulN_lt (n b : Nat) {a : Nat} (h : a < 256) : gfMulN n a b < 256 := by
  induction n generalizing a b with
  | zero => exact (by decide : (0 : Nat) < 256)
  | succ n ih =>
    have hx : (if b % 2 = 1 then a else 0) < 2 ^ 8 := by split <;> omega
    exact Nat.xor_lt_two_pow hx (ih _ (gfX_lt h))

theorem gfMul_lt (a b : Nat) : gfMul a b < 256 := gfMulN_lt 8 _ (Nat.mod_lt _ (by decide))

theorem gfMulBytes_byte (x y : W64) (i : Nat) (h : i < 8) : ((gfMulBytes x y).extractLsb' (8 * i) 8).toNat =
    gfMul (x.extractLsb' (8 * i) 8).toNat (y.extractLsb' (8 * i) 8).toNat := by
  rw [gfMulBytes, leNat_byte _ h, List.getD_eq_getElem?_getD, List.getElem?_map, List.getElem?_range h, Option.map_some,
    Option.getD_some, BitVec.toNat_ofNat, Nat.mod_eq_of_lt (gfMul_lt _ _), fld_toNat, fld_toNat]

theorem decode_help (rd ra rb : BitVec 5) (pr : BitVec 3) (op : HelpOp) :
    afvDecode (aForm 0x06 rd ra rb op.func pr) = some (.help op rd ra rb) := by
  rw [decode_aForm _ _ _ pr (by decide) op.func_lt (by decide)]
  obtain ⟨hrd, hra, hrb, hfunc⟩ := fields_aForm (m := 0x06) rd ra rb pr (by decide) op.func_lt
  simp only [decodeMajor, hrd, hra, hrb, hfunc, helpOfFunc_func, Option.map_some]

theorem computes_help {who : Agent} {n : Nat} {pr : BitVec 3} {rd ra rb : BitVec 5} {s : State} {c : Instr} {op : HelpOp} {v : W64}
    (h : agentNum who = some n) (hc : CanIssue s n pr [rd, ra, rb] []) (he : exec c s = execAfv who pr (.help op rd ra rb) s)
    (hv : helpVal op (reg s n ra) (reg s n rb) = v) : Computes c s n rd v :=
  computes_of_pure h hc he (List.Subset.refl _) (List.Subset.refl _) rfl (fun s => s.insn_help n op rd ra rb) (by rw [← hv]; rfl)

/-- Settles O7: the CRC steps by `crcUpdate_leBytes`, the products byte by byte. -/
theorem helperResults : Obligations.HelperResults := by
  intro who n pr rd ra rb s h hc x y shifts
  have hy : y.toNat < 256 ^ 8 := y.isLt
  exact ⟨computes_help (op := .crc64n) h hc rfl (congrArg (BitVec.ofNat 64) (crcUpdate_leBytes _ 8 _ _ hy)),
    computes_help (op := .crc32c) h hc rfl (congrArg (BitVec.ofNat 64) (crcUpdate_leBytes _ 8 _ _ hy)),
    ⟨gfMulBytes x y, gfMulBytes_byte x y, computes_help (op := .gfmul) h hc rfl rfl, computes_help (op := .gfxor) h hc rfl rfl⟩,
    decode_help _ _ _ _ .crc32c, decode_help _ _ _ _ .crc64n, decode_help _ _ _ _ .gfmul, decode_help _ _ _ _ .gfxor⟩

end Sys2Proof.Machine
end

section
/-! The rules of an instruction at a thread: the state that its issue leads to, and what a change of the issuing thread leaves
alone. -/

namespace Sys2Proof.Safety

open Sys2Proof.Machine

/-! ### What a change of the issuing thread leaves alone -/

section
variable {s t u x : State} {n : Nat}

theorem othersKept_noteIssue (s : State) (n : Nat) : OthersKept s (s.noteIssue n) n :=
  ⟨fun m hm => by rw [State.thr_noteIssue, if_neg hm], State.noteIssue_stw s n, State.noteIssue_rd s n⟩

theorem restKept_noteIssue (s : State) (n : Nat) : RestKept s (s.noteIssue n) := State.noteIssue_only s n

theorem restKept_noteIssue_frames (s : State) (n : Nat) (fs : Tab Frame) :
    RestKept { s with frames := fs } { s.noteIssue n with frames := fs } :=
  (congrArg (fun t : State => { t with frames := fs }) (restKept_noteIssue s n) :)

/-- Only the threads, the stewards and the registers count. -/
theorem OthersKept.congr (h : OthersKept s u n) (ht : t.threads = u.threads) (hs : t.stewards = u.stewards)
    (hr : t.regs = u.regs) : OthersKept s t n := by
  obtain ⟨h1, h2, h3⟩ := h
  refine ⟨fun m hm => (State.thr_congr ht hs m).trans (h1 m hm), fun k => ?_, fun a => ?_⟩
  · rw [State.stw_congr hs, h2]
  · rw [State.rd_congr hr]
    exact h3 a

theorem OthersKept.modThr (h : OthersKept s u n) (g : Thread → Thread) : OthersKept s (u.modThr n g) n := by
  obtain ⟨h1, h2, h3⟩ := h
  refine ⟨fun m hm => by rw [State.thr_modThr, if_neg hm, h1 m hm], fun k => (State.stw_setThr _ _ _ _).trans (h2 k), fun a => ?_⟩
  rw [State.rd_congr (State.modThr_regs u n g)]
  exact h3 a

theorem RestKept.setThr (h : RestKept x u) (n : Nat) (r : Thread) : RestKept x (u.setThr n r) := by
  rw [RestKept, State.setThr]
  split
  · exact h
  · exact h

theorem RestKept.modThr (h : RestKept x u) (n : Nat) (g : Thread → Thread) : RestKept x (u.modThr n g) := h.setThr n _

theorem RestKept.refl (s : State) : RestKept s s := rfl

end

end Sys2Proof.Safety

namespace Sys2Proof.Machine

open Sys2Proof.Safety

/-! ### The state that an issue leads to -/

section
variable {who : Agent} {n : Nat} {pr : BitVec 3} {rs : List (BitVec 5)} {ps : List (BitVec 3)} {s u : State} {c : Instr} {a : Afv}

/-- An instruction at a thread that may issue it is its effect after the issue has been counted. -/
theorem exec_issued (h : agentNum who = some n) (hc : CanIssue s n pr rs ps) (he : exec c s = execAfv who pr a s)
    (hr : a.regs ⊆ rs) (hp : a.preds ⊆ ps) (hroom : s.roomFor n a = true) :
    exec c s = .next (((s.noteIssue n).insn n a).apply n (s.thr n).pc) := by
  rw [he, agentNum_execAfv h, canIssue_exec hc a hr hp hroom]

theorem exec_full (h : agentNum who = some n) (hc : CanIssue s n pr rs ps) (he : exec c s = execAfv who pr a s)
    (hroom : s.roomFor n a = false) : exec c s = .next s := by
  rw [he, agentNum_execAfv h, canIssue_full hc a hroom]

theorem advanced_goesOn (hu : u.thr n = (s.noteIssue n).thr n) : RegsKept s (goesOn u n) n ∧ Advanced s (goesOn u n) n := by
  rw [State.thr_noteIssue_self] at hu
  simp [RegsKept, Advanced, goesOn, hu]

/-- An instruction that writes one register beside an effect `u` elsewhere. -/
theorem wrote_of_apply (hu : u.thr n = (s.noteIssue n).thr n) (rd : BitVec 5) (v : W64) (pc : Nat) :
    Wrote s ((Res.ok u [(rd, v)] []).apply n pc) n rd v ∧ Advanced s ((Res.ok u [(rd, v)] []).apply n pc) n := by
  rw [State.thr_noteIssue_self] at hu
  refine ⟨⟨fun r => ?_, fun p => ?_⟩, ?_⟩
  · simp [reg, Res.apply_ok_thr, hu, Regs.writes, Regs.get_set]
  · simp [pred, Res.apply_ok_thr, hu, Regs.writes]
  · simp [Advanced, Res.apply_ok_thr, hu]

end

end Sys2Proof.Machine
end

section
/-! Proofs about SGET and about loads, stores and AMOs (R71, R74 to R77): the bytes of a register, what each space raises, and
obligations O8, O10, O11 and O12. -/

namespace Sys2Proof.Machine

open Sys2Proof.Safety

/-! ### Bytes of a register (R76) -/

theorem leBytes_getD_byte (n : Nat) (v : W64) {i : Nat} (h : i < n) : (leBytes n v.toNat).getD i 0 = v.extractLsb' (8 * i) 8 := by
  apply BitVec.eq_of_toNat_eq
  rw [leBytes_getD _ _ _ h, BitVec.toNat_ofNat, BitVec.extractLsb'_toNat, Nat.shiftRight_eq_div_pow, Nat.pow_mul]

theorem getD_reverse (bs : List Byte) {i : Nat} (h : i < bs.length) : bs.reverse.getD i 0 = bs.getD (bs.length - 1 - i) 0 := by
  rw [List.getD_eq_getElem?_getD, List.getD_eq_getElem?_getD, List.getElem?_reverse h]

@[simp] theorem storeVal_length (be : Bool) (v : W64) (n : Nat) : (storeVal be v n).length = n := by
  unfold storeVal
  split <;> simp

theorem storeVal_getD (be : Bool) (v : W64) {n i : Nat} (h : i < n) : (storeVal be v n).getD i 0 = stored be n v i := by
  cases be with
  | false => exact leBytes_getD_byte n v h
  | true =>
    have hr := getD_reverse (leBytes n v.toNat) (i := i) (by simpa using h)
    rw [leBytes_length, leBytes_getD_byte _ _ (by omega)] at hr
    exact hr

theorem storeVal_eq_map (be : Bool) (v : W64) (n : Nat) : storeVal be v n = (List.range n).map (stored be n v) := by
  refine List.ext_getElem (by simp) fun i h1 h2 => ?_
  have h := storeVal_getD be v (n := n) (i := i) (by simpa using h1)
  rw [List.getD_eq_getElem _ _ h1] at h
  rw [h, List.getElem_map, List.getElem_range]

theorem getD_of_le (bs : List Byte) {i : Nat} (h : bs.length ≤ i) : bs.getD i 0 = 0 := by
  rw [List.getD_eq_getElem?_getD, List.getElem?_eq_none h]
  rfl

/-- The value that a load makes of one to eight bytes. -/
theorem loaded_loadVal (k : LoadKind) {m : Nat} {b : Nat → Byte} {bs : List Byte} (h1 : 1 ≤ m) (h8 : m ≤ 8) (hl : bs.length = m)
    (hb : ∀ i, i < m → bs.getD i 0 = b i) : Loaded k m b (loadVal k bs) := by
  intro i hi
  cases k with
  | zero =>
    rw [loadVal, leNat_byte bs hi]
    simp only
    split
    · next h => exact hb i h
    · exact getD_of_le bs (by omega)
  | sign =>
    apply BitVec.eq_of_getLsbD_eq
    intro k hk
    have hd : (8 * i + k) / 8 = i ∧ (8 * i + k) % 8 = k := by omega
    have ht : (8 * m - 1) / 8 = m - 1 ∧ (8 * m - 1) % 8 = 7 := by omega
    simp only [loadVal, BitVec.getLsbD_extractLsb', hk, decide_true, Bool.true_and, BitVec.getLsbD_ofNat, hl,
      show 8 * i + k < 64 by omega]
    rw [testBit_sext _ _ _ _ (by omega) (by omega) (by omega), testBit_leNat, testBit_leNat, hd.1, hd.2, ht.1, ht.2, hb (m - 1) (by omega)]
    by_cases him : i < m
    · rw [if_pos (by omega), if_pos him, hb i him]
    · rw [if_neg (by omega), if_neg him]
      cases (b (m - 1)).getLsbD 7 with
      | true => exact (by decide : ∀ k < 8, true = (0xFF : Byte).getLsbD k) k hk
      | false => simp
  | be =>
    have hr : beNat bs = leNat bs.reverse := by rw [← beNat_reverse, List.reverse_reverse]
    rw [loadVal, hr, leNat_byte _ hi]
    simp only
    split
    · rw [getD_reverse bs (by omega), hl, hb _ (by omega)]
    · exact getD_of_le _ (by rw [List.length_reverse]; omega)

theorem accBytes_pos (size : BitVec 2) : 1 ≤ accBytes size := Nat.one_le_two_pow
theorem accBytes_le (size : BitVec 2) : accBytes size ≤ 8 :=
  Nat.pow_le_pow_right (by decide) (Nat.le_of_lt_succ size.isLt : size.toNat ≤ 3)

/-! ### Bytes of memory and of a frame -/

theorem State.ldBytes_length (s : State) (a n : Nat) : (s.ldBytes a n).length = n := by
  induction n generalizing a with
  | zero => rfl
  | succ n ih => exact congrArg (· + 1) (ih (a + 1))

theorem State.ldBytes_getD (s : State) (a n : Nat) {i : Nat} (h : i < n) : (s.ldBytes a n).getD i 0 = s.ldByte (a + i) := by
  induction n generalizing a i with
  | zero => omega
  | succ n ih =>
    cases i with
    | zero => rfl
    | succ i => exact (ih (a + 1) (by omega)).trans (by rw [Nat.add_right_comm, Nat.add_assoc])

theorem map_range_getD {α : Type} (f : Nat → α) (d : α) {n i : Nat} (h : i < n) : ((List.range n).map f).getD i d = f i := by
  rw [List.getD_eq_getElem?_getD, List.getElem?_map, List.getElem?_range h]
  rfl

theorem State.localLoad_length (s : State) (n a m : Nat) : (s.localLoad n a m).length = m := by
  unfold State.localLoad
  split
  · exact s.ldBytes_length _ _
  · simp

theorem State.localLoad_getD (s : State) (n a : Nat) {m i : Nat} (h : i < m) : (s.localLoad n a m).getD i 0 = localByte s n (a + i) := by
  unfold State.localLoad localByte
  split
  · rw [s.ldBytes_getD _ _ h, Nat.add_assoc]
  · rw [map_range_getD _ _ h, Nat.add_assoc]

theorem State.localLoad_eq_map (s : State) (n a m : Nat) : s.localLoad n a m = (List.range m).map fun i => localByte s n (a + i) := by
  refine List.ext_getElem (by simp [State.localLoad_length]) fun i h1 h2 => ?_
  have h := s.localLoad_getD n a (m := m) (i := i) (by simpa [State.localLoad_length] using h1)
  rw [List.getD_eq_getElem _ _ h1] at h
  rw [h, List.getElem_map, List.getElem_range]

theorem localByte_noteIssue (s : State) (n a : Nat) : localByte (s.noteIssue n) n a = localByte s n a := by
  have hm : (s.noteIssue n).mem = s.mem := (congrArg State.mem (s.noteIssue_only n) :)
  have hs : (s.noteIssue n).scratch = s.scratch := (congrArg State.scratch (s.noteIssue_only n) :)
  rw [localByte, localByte, State.ldByte_congr hm, hs]

/-- Scratch memory after a byte string was stored. -/
theorem get_foldl_set (f : Nat → Byte) (t : Tab Byte) (b m a : Nat) :
    Tab.get 0 ((List.range m).foldl (fun t i => Tab.set 0 t (b + i) (f i)) t) a =
      if b ≤ a ∧ a < b + m then f (a - b) else Tab.get 0 t a := by
  induction m with
  | zero => simp
  | succ m ih =>
    rw [List.range_succ, List.foldl_append, List.foldl_cons, List.foldl_nil, Tab.get_set]
    by_cases h : a = b + m
    · rw [if_pos h, if_pos (by omega), h, Nat.add_sub_cancel_left]
    · rw [if_neg h, ih]
      exact if_congr (by omega) rfl rfl

theorem State.localStore_only (s : State) (n a : Nat) (bs : List Byte) :
    { s with mem := (s.localStore n a bs).mem, scratch := (s.localStore n a bs).scratch } = s.localStore n a bs := by
  unfold State.localStore
  split
  · have h := s.stBytes_only (coreData (n / 8) + a) bs
    have hs : (s.stBytes (coreData (n / 8) + a) bs).scratch = s.scratch := (congrArg State.scratch h :)
    rw [hs]
    exact (congrArg (fun t : State => { t with mem := (s.stBytes (coreData (n / 8) + a) bs).mem }) h).symm
  · rfl

theorem State.ldByte_localStore (s : State) (n ea : Nat) (bs : List Byte) (a : Nat) :
    (s.localStore n ea bs).ldByte a = if n < 2048 ∧ coreData (n / 8) + ea ≤ a ∧ a < coreData (n / 8) + ea + bs.length then
      bs.getD (a - (coreData (n / 8) + ea)) 0 else s.ldByte a := by
  unfold State.localStore
  by_cases hn : n < 2048
  · rw [if_pos hn, State.ldByte_stBytes]
    exact if_congr (by simp [hn]) rfl rfl
  · rw [if_neg hn, if_neg (by simp [hn])]
    rfl

theorem State.scratch_localStore (s : State) (n ea : Nat) (bs : List Byte) (a : Nat) :
    Tab.get 0 (s.localStore n ea bs).scratch a =
      if ¬n < 2048 ∧ 65536 * (n - 2048) + ea ≤ a ∧ a < 65536 * (n - 2048) + ea + bs.length then
        bs.getD (a - (65536 * (n - 2048) + ea)) 0 else Tab.get 0 s.scratch a := by
  unfold State.localStore
  by_cases hn : n < 2048
  · rw [if_pos hn, if_neg (by simp [hn])]
    exact congrArg (Tab.get 0 · a) (congrArg State.scratch (s.stBytes_only (coreData (n / 8) + ea) bs) :)
  · rw [if_neg hn]
    exact (get_foldl_set _ _ _ _ _).trans (if_congr (by simp [hn]) rfl rfl)

/-! ### SGET (R71) -/

section
variable {who : Agent} {n : Nat} {pr : BitVec 3} {rs : List (BitVec 5)} {s : State} {c : Instr}

theorem sgetVal_none (f : Frame) (imm : BitVec 14)
    (h : imm.extractLsb' 5 9 ≠ 0 ∨ (imm.getLsbD 4 = true ∧ (imm.extractLsb' 0 4).toNat % 2 = 1)) : sgetVal f imm = none := by
  rw [← fld_toNat_ne_zero, ← fld_toNat, ← bit_toNat] at h
  exact if_pos h

theorem sgetVal_some (s : State) (fid : Nat) (imm : BitVec 14)
    (h : ¬(imm.extractLsb' 5 9 ≠ 0 ∨ (imm.getLsbD 4 = true ∧ (imm.extractLsb' 0 4).toNat % 2 = 1))) :
    sgetVal (s.frame fid) imm = some (if imm.getLsbD 4 then word s fid ((imm.extractLsb' 0 4).toNat + 1) ++ word s fid (imm.extractLsb' 0 4).toNat
      else (word s fid (imm.extractLsb' 0 4).toNat).setWidth 64) := by
  rw [← fld_toNat_ne_zero, ← fld_toNat, ← bit_toNat] at h
  rw [sgetVal, if_neg h, ← fld_toNat, bit_toNat, satWord, satWord, word, word]
  generalize (s.frame fid).s[fld imm.toNat 0 4]?.getD 0 = lo
  generalize (s.frame fid).s[fld imm.toNat 0 4 + 1]?.getD 0 = hi
  have := lo.isLt; have := hi.isLt
  refine congrArg some (BitVec.eq_of_toNat_eq ?_)
  by_cases hp : imm.getLsbD 4 = true
  · rw [if_pos hp, if_pos hp, BitVec.toNat_ofNat, BitVec.toNat_append, ← Nat.shiftLeft_add_eq_or_of_lt lo.isLt, Nat.shiftLeft_eq]
    omega
  · rw [if_neg hp, if_neg hp, BitVec.toNat_ofNat, BitVec.toNat_setWidth, Nat.add_zero]

end

/-- Settles O8: SGET's value is `sgetVal`, whose cases are the two lemmas above. -/
theorem satchelReads : Obligations.SatchelReads := by
  intro who n pr rd imm s h hc k bad
  have fault {code : Nat} (hv : (s.noteIssue n).runSget n rd imm = .fault (s.noteIssue n) code 0) :
      Raises (.sget who pr rd imm) s n code 0 :=
    raises_of_fault h hc rfl (List.Subset.refl _) (List.Subset.refl _) rfl hv
  refine ⟨fun hb => fault ?_, fun hb hh => fault ?_, fun fid hb hh => ?_⟩
  · rw [State.runSget, sgetVal_none {} imm hb]
  · obtain ⟨v, hv⟩ : ∃ v, sgetVal {} imm = some v := ⟨_, sgetVal_some {} 0 imm hb⟩
    simp only [State.runSget, hv, State.thr_noteIssue_self, hh]
  · obtain ⟨v, hv⟩ : ∃ v, sgetVal {} imm = some v := ⟨_, sgetVal_some {} 0 imm hb⟩
    refine computes_of_ok ?_
    rw [exec_issued h hc rfl (a := .sget rd imm) (List.Subset.refl _) (List.Subset.refl _) rfl, State.insn_sget]
    simp only [State.runSget, hv, State.thr_noteIssue_self, hh, State.frame_noteIssue, sgetVal_some s fid imm hb, Option.getD_some]
    rfl

/-! ### Loads and stores in spaces 0b00 and 0b10 (R74 to R76) -/

section
variable {who : Agent} {n : Nat} {pr : BitVec 3} {rd ra : BitVec 5} {size : BitVec 2} {off : BitVec 9} {s : State} {c : Instr}
  {k : LoadKind} {be : Bool}

theorem localFault_far {a m : Nat} (h : 0x10000 < a + m) : localFault a m = some 4 := if_pos h
theorem localFault_misaligned {a m : Nat} (h : a + m ≤ 0x10000) (hm : a % m ≠ 0) : localFault a m = some 3 :=
  (if_neg (by omega)).trans (if_pos hm)
theorem localFault_none {a m : Nat} (h : a + m ≤ 0x10000) (hm : a % m = 0) : localFault a m = none :=
  (if_neg (by omega)).trans (if_neg (by omega))

theorem raises_load_local {code : Nat} (h : agentNum who = some n) (hc : CanIssue s n pr [rd, ra] [])
    (he : exec c s = execAfv who pr (.load k rd ra 0 size off) s)
    (hf : localFault (effAddr (reg s n ra) off) (accBytes size) = some code) : Raises c s n code (effAddr (reg s n ra) off) := by
  refine raises_of_fault h hc he (List.Subset.refl _) (List.Subset.refl _) rfl ?_
  rw [← reg_noteIssue] at hf ⊢
  rw [State.insn_load, State.runLoad, if_pos rfl]
  rw [reg] at hf ⊢
  rw [hf]

theorem computes_load_local (h : agentNum who = some n) (hc : CanIssue s n pr [rd, ra] [])
    (he : exec c s = execAfv who pr (.load k rd ra 0 size off) s)
    (hf : localFault (effAddr (reg s n ra) off) (accBytes size) = none) :
    ∃ v, Loaded k (accBytes size) (fun i => localByte s n (effAddr (reg s n ra) off + i)) v ∧ Computes c s n rd v := by
  refine ⟨loadVal k ((s.noteIssue n).localLoad n (effAddr (reg s n ra) off) (accBytes size)),
    loaded_loadVal k (accBytes_pos _) (accBytes_le _) (State.localLoad_length _ _ _ _) fun i hi => ?_, computes_of_ok ?_⟩
  · rw [State.localLoad_getD _ _ _ hi, localByte_noteIssue]
  · rw [exec_issued h hc he (List.Subset.refl _) (List.Subset.refl _) rfl, State.insn_load, State.runLoad, if_pos rfl]
    rw [← reg_noteIssue, reg] at hf ⊢
    rw [hf]

theorem raises_load_window (h : agentNum who = some n) (hc : CanIssue s n pr [rd, ra] [])
    (he : exec c s = execAfv who pr (.load k rd ra 2 size off) s) (hh : (s.thr n).held = none) : Raises c s n 8 0 := by
  refine raises_of_fault h hc he (List.Subset.refl _) (List.Subset.refl _) rfl ?_
  rw [State.insn_load, State.runLoad, if_neg (by decide), if_neg (by decide), if_pos rfl, State.thr_noteIssue_self]
  simp only [hh]

theorem raises_load_window_miss {fid : Nat} (h : agentNum who = some n) (hc : CanIssue s n pr [rd, ra] [])
    (he : exec c s = execAfv who pr (.load k rd ra 2 size off) s) (hh : (s.thr n).held = some fid)
    (hm : 256 < effAddr (reg s n ra) off + accBytes size) : Raises c s n 4 0 := by
  refine raises_of_fault h hc he (List.Subset.refl _) (List.Subset.refl _) rfl ?_
  have hw : windowMiss (effAddr ((s.thr n).r.get ra) off) (accBytes size) = true := decide_eq_true hm
  rw [State.insn_load, State.runLoad, if_neg (by decide), if_neg (by decide), if_pos rfl, State.thr_noteIssue_self]
  simp only [hh, hw, if_true]

theorem computes_load_window {fid : Nat} (h : agentNum who = some n) (hc : CanIssue s n pr [rd, ra] [])
    (he : exec c s = execAfv who pr (.load k rd ra 2 size off) s) (hh : (s.thr n).held = some fid)
    (hm : effAddr (reg s n ra) off + accBytes size ≤ 256) :
    ∃ v, Loaded k (accBytes size) (fun i => frameByte s fid (effAddr (reg s n ra) off + i)) v ∧ Computes c s n rd v := by
  refine ⟨loadVal k ((s.frame fid).windowLoad (effAddr (reg s n ra) off) (accBytes size)),
    loaded_loadVal k (accBytes_pos _) (accBytes_le _) (by simp [Frame.windowLoad]) fun i hi => map_range_getD _ _ hi,
    computes_of_ok ?_⟩
  have hw : windowMiss (effAddr ((s.thr n).r.get ra) off) (accBytes size) = false := decide_eq_false (by exact Nat.not_lt.mpr hm)
  rw [exec_issued h hc he (List.Subset.refl _) (List.Subset.refl _) rfl, State.insn_load, State.runLoad, if_neg (by decide),
    if_neg (by decide), if_pos rfl, State.thr_noteIssue_self]
  simp only [hh, hw, State.frame_noteIssue, reg]
  rfl

end

/-- The bytes of a frame after a store through the window: its length stays, and what lies beyond it is discarded (R75). -/
theorem Frame.windowStore_length (f : Frame) (a : Nat) (bs : List Byte) : (f.windowStore a bs).data.length = f.data.length := by
  simp only [Frame.windowStore, splice, List.length_append, List.length_take, List.length_drop]
  omega

theorem Frame.windowStore_getD (f : Frame) (a : Nat) (bs : List Byte) {j : Nat} (h : j < f.data.length) :
    (f.windowStore a bs).data.getD j 0 = if a ≤ j ∧ j < a + bs.length then bs.getD (j - a) 0 else f.data.getD j 0 := by
  have ha : a ≤ j → (f.data.take a).length = a := fun hj => List.length_take_of_le (by omega)
  have hv : ((bs.take (f.data.length - a)).take (f.data.length - a)).length = min (f.data.length - a) bs.length := by
    rw [List.take_take, Nat.min_self, List.length_take]
  simp only [Frame.windowStore, splice, List.getD_eq_getElem?_getD, List.append_assoc]
  rcases Nat.lt_or_ge j a with hj | hj
  · rw [if_neg (by omega), List.getElem?_append_left (by rw [List.length_take]; omega), List.getElem?_take_of_lt hj]
  · rw [List.getElem?_append_right (by rw [ha hj]; exact hj), ha hj]
    rcases Nat.lt_or_ge j (a + bs.length) with hb | hb
    · rw [if_pos ⟨hj, hb⟩, List.getElem?_append_left (by rw [hv]; omega), List.getElem?_take_of_lt (by omega),
        List.getElem?_take_of_lt (by omega)]
    · rw [if_neg (by omega), List.getElem?_append_right (by rw [hv]; omega), hv, List.getElem?_drop, List.length_take]
      congr 2
      omega

section
variable {who : Agent} {n : Nat} {pr : BitVec 3} {rd ra : BitVec 5} {size : BitVec 2} {off : BitVec 9} {s : State} {c : Instr}
  {be : Bool}

theorem raises_store_local {code : Nat} (h : agentNum who = some n) (hc : CanIssue s n pr [rd, ra] [])
    (he : exec c s = execAfv who pr (.store be rd ra 0 size off) s)
    (hf : localFault (effAddr (reg s n ra) off) (accBytes size) = some code) : Raises c s n code (effAddr (reg s n ra) off) := by
  refine raises_of_fault h hc he (List.Subset.refl _) (List.Subset.refl _) rfl ?_
  rw [← reg_noteIssue] at hf ⊢
  rw [State.insn_store, State.runStore, if_pos rfl]
  rw [reg] at hf ⊢
  rw [hf]

theorem exec_store_local (h : agentNum who = some n) (hc : CanIssue s n pr [rd, ra] [])
    (he : exec c s = execAfv who pr (.store be rd ra 0 size off) s)
    (hf : localFault (effAddr (reg s n ra) off) (accBytes size) = none) :
    exec c s = .next (goesOn ((s.noteIssue n).localStore n (effAddr (reg s n ra) off) (storeVal be (reg s n rd) (accBytes size))) n) := by
  rw [exec_issued h hc he (List.Subset.refl _) (List.Subset.refl _) rfl, State.insn_store, State.runStore, if_pos rfl]
  rw [← reg_noteIssue s n ra, ← reg_noteIssue s n rd, reg, reg] at *
  rw [hf]
  rfl

theorem raises_store_window (h : agentNum who = some n) (hc : CanIssue s n pr [rd, ra] [])
    (he : exec c s = execAfv who pr (.store be rd ra 2 size off) s) (hh : (s.thr n).held = none) : Raises c s n 8 0 := by
  refine raises_of_fault h hc he (List.Subset.refl _) (List.Subset.refl _) rfl ?_
  rw [State.insn_store, State.runStore, if_neg (by decide), if_neg (by decide), if_pos rfl, State.thr_noteIssue_self]
  simp only [hh]

theorem raises_store_window_miss {fid : Nat} (h : agentNum who = some n) (hc : CanIssue s n pr [rd, ra] [])
    (he : exec c s = execAfv who pr (.store be rd ra 2 size off) s) (hh : (s.thr n).held = some fid)
    (hm : 256 < effAddr (reg s n ra) off + accBytes size) : Raises c s n 4 0 := by
  refine raises_of_fault h hc he (List.Subset.refl _) (List.Subset.refl _) rfl ?_
  have hw : windowMiss (effAddr ((s.thr n).r.get ra) off) (accBytes size) = true := decide_eq_true hm
  rw [State.insn_store, State.runStore, if_neg (by decide), if_neg (by decide), if_pos rfl, State.thr_noteIssue_self]
  simp only [hh, hw, if_true]

theorem exec_store_window {fid : Nat} (h : agentNum who = some n) (hc : CanIssue s n pr [rd, ra] [])
    (he : exec c s = execAfv who pr (.store be rd ra 2 size off) s) (hh : (s.thr n).held = some fid)
    (hm : effAddr (reg s n ra) off + accBytes size ≤ 256) :
    exec c s = .next (goesOn ((s.noteIssue n).modFrame fid fun f =>
      f.windowStore (effAddr (reg s n ra) off) (storeVal be (reg s n rd) (accBytes size))) n) := by
  have hw : windowMiss (effAddr ((s.thr n).r.get ra) off) (accBytes size) = false := decide_eq_false (by exact Nat.not_lt.mpr hm)
  rw [exec_issued h hc he (List.Subset.refl _) (List.Subset.refl _) rfl, State.insn_store, State.runStore, if_neg (by decide),
    if_neg (by decide), if_pos rfl, State.thr_noteIssue_self]
  simp only [hh, hw, reg]
  rfl

theorem State.ldByte_modThr (s : State) (n : Nat) (g : Thread → Thread) (a : Nat) : (s.modThr n g).ldByte a = s.ldByte a :=
  State.ldByte_congr (State.modThr_mem s n g) a

/-- What a thread's store to its local memory leaves alone. -/
theorem localStore_kept (s : State) (n ea : Nat) (bs : List Byte) :
    let u := (s.noteIssue n).localStore n ea bs
    u.thr n = (s.noteIssue n).thr n ∧ OthersKept s u n ∧ RestKept { s with mem := u.mem, scratch := u.scratch } u := by
  intro u
  have hu := State.localStore_only (s.noteIssue n) n ea bs
  have ht : u.threads = (s.noteIssue n).threads := (congrArg State.threads hu.symm :)
  have hs : u.stewards = (s.noteIssue n).stewards := (congrArg State.stewards hu.symm :)
  refine ⟨State.thr_congr ht hs n, (othersKept_noteIssue s n).congr ht hs (congrArg State.regs hu.symm :), ?_⟩
  have h := congrArg (fun t : State => { t with mem := u.mem, scratch := u.scratch }) (restKept_noteIssue s n)
  rw [RestKept, ← h]
  exact congrArg (fun t : State => { t with threads := s.threads, stewards := s.stewards, regs := s.regs }) hu.symm

/-- Every byte of memory and of scratch memory after a thread's store to its local memory. -/
theorem localStore_bytes (s : State) (n ea : Nat) (bs : List Byte) (f : Nat → Byte) (hf : ∀ i, i < bs.length → bs.getD i 0 = f i) :
    let u := (s.noteIssue n).localStore n ea bs
    let base := if n < 2048 then coreData (n / 8) else 65536 * (n - 2048)
    let after := fun (a : Nat) (b : Byte) => if base + ea ≤ a ∧ a < base + ea + bs.length then f (a - (base + ea)) else b
    (∀ a, u.ldByte a = if n < 2048 then after a (s.ldByte a) else s.ldByte a) ∧
    (∀ a, Tab.get 0 u.scratch a = if n < 2048 then Tab.get 0 s.scratch a else after a (Tab.get 0 s.scratch a)) := by
  intro u base after
  have hm' : (s.noteIssue n).mem = s.mem := (congrArg State.mem (s.noteIssue_only n) :)
  have hs' : (s.noteIssue n).scratch = s.scratch := (congrArg State.scratch (s.noteIssue_only n) :)
  refine ⟨fun a => ?_, fun a => ?_⟩
  · rw [State.ldByte_localStore, State.ldByte_congr hm']
    by_cases hn : n < 2048
    · simp only [hn, true_and, if_true, after, base]
      split
      · next h => exact hf _ (by omega)
      · rfl
    · simp [hn]
  · rw [State.scratch_localStore, hs']
    by_cases hn : n < 2048
    · simp [hn]
    · simp only [hn, not_false_eq_true, true_and, if_false, after, base]
      split
      · next h => exact hf _ (by omega)
      · rfl

theorem ends_store_local (h : agentNum who = some n) (hc : CanIssue s n pr [rd, ra] [])
    (he : exec c s = execAfv who pr (.store be rd ra 0 size off) s)
    (hf : localFault (effAddr (reg s n ra) off) (accBytes size) = none) :
    let ea := effAddr (reg s n ra) off
    let m := accBytes size
    let base := if n < 2048 then coreData (n / 8) else 65536 * (n - 2048)
    let after := fun (a : Nat) (b : Byte) => if base + ea ≤ a ∧ a < base + ea + m then stored be m (reg s n rd) (a - (base + ea)) else b
    Ends c s fun t =>
      (∀ a, t.ldByte a = if n < 2048 then after a (s.ldByte a) else s.ldByte a) ∧
      (∀ a, Tab.get 0 t.scratch a = if n < 2048 then Tab.get 0 s.scratch a else after a (Tab.get 0 s.scratch a)) ∧
      RegsKept s t n ∧ Advanced s t n ∧ OthersKept s t n ∧ RestKept { s with mem := t.mem, scratch := t.scratch } t := by
  intro ea m base after
  have hb := localStore_bytes s n ea (storeVal be (reg s n rd) m) (stored be m (reg s n rd))
    fun i hi => storeVal_getD be _ (by simpa using hi)
  obtain ⟨ht, ho, hr⟩ := localStore_kept s n ea (storeVal be (reg s n rd) m)
  obtain ⟨hregs, hadv⟩ := advanced_goesOn ht
  rw [storeVal_length] at hb
  refine ⟨_, exec_store_local h hc he hf, fun a => (State.ldByte_modThr _ _ _ a).trans (hb.1 a), ?_, hregs, hadv, ho.modThr _, ?_⟩
  · rw [goesOn, State.modThr_scratch]
    exact hb.2
  · rw [goesOn, State.modThr_mem, State.modThr_scratch]
    exact hr.modThr n _

theorem ends_store_window {fid : Nat} (h : agentNum who = some n) (hc : CanIssue s n pr [rd, ra] [])
    (he : exec c s = execAfv who pr (.store be rd ra 2 size off) s) (hh : (s.thr n).held = some fid)
    (hm : effAddr (reg s n ra) off + accBytes size ≤ 256) :
    let ea := effAddr (reg s n ra) off
    let m := accBytes size
    Ends c s fun t =>
      (t.frame fid).data.length = (s.frame fid).data.length ∧
      (∀ j, j < (s.frame fid).data.length → frameByte t fid j =
        if ea ≤ j ∧ j < ea + m then stored be m (reg s n rd) (j - ea) else frameByte s fid j) ∧
      (t.frame fid).s = (s.frame fid).s ∧ (∀ g, g ≠ fid → t.frame g = s.frame g) ∧
      RegsKept s t n ∧ Advanced s t n ∧ OthersKept s t n ∧ RestKept { s with frames := t.frames } t := by
  intro ea m
  refine ⟨_, exec_store_window h hc he hh hm, ?_⟩
  generalize hu : (s.noteIssue n).modFrame fid (fun f => f.windowStore (effAddr (reg s n ra) off)
    (storeVal be (reg s n rd) (accBytes size))) = u
  have hfr (g : Nat) : u.frame g = if g = fid then (s.frame fid).windowStore ea (storeVal be (reg s n rd) m) else s.frame g := by
    rw [← hu, State.frame_modFrame, State.frame_noteIssue, State.frame_noteIssue]
  have ho : OthersKept s u n := (othersKept_noteIssue s n).congr (by rw [← hu]; rfl) (by rw [← hu]; rfl) (by rw [← hu]; rfl)
  have ht : u.thr n = (s.noteIssue n).thr n := State.thr_congr (by rw [← hu]; rfl) (by rw [← hu]; rfl) n
  have hr : RestKept { s with frames := u.frames } u := by
    subst hu
    exact restKept_noteIssue_frames s n _
  obtain ⟨hregs, hadv⟩ := advanced_goesOn ht
  have hself : u.frame fid = (s.frame fid).windowStore ea (storeVal be (reg s n rd) m) := (hfr fid).trans (if_pos rfl)
  refine ⟨?_, fun j hj => ?_, ?_, fun g hg => ?_, hregs, hadv, ho.modThr _, ?_⟩
  · rw [frame_goesOn, hself, Frame.windowStore_length]
  · rw [frameByte, frame_goesOn, hself, Frame.windowStore_getD _ _ _ hj, storeVal_length]
    split
    · next hin => exact storeVal_getD be _ (by omega)
    · rfl
  · rw [frame_goesOn, hself]
    rfl
  · rw [frame_goesOn, hfr, if_neg hg]
  · rw [goesOn, State.modThr_frames]
    exact hr.modThr n _

end

/-- Settles O10: a load or store of local memory or of the frame window by its own lemma for each end. A miss of the window
reports ADDR 0 (log entry 127, a reading of R96). -/
theorem localAccesses : Obligations.LocalAccesses := by
  refine ⟨?_, ?_⟩
  · intro who n pr rd ra size off s k c h hc hrow ea m
    have he (space : BitVec 2) : exec (c space) s = execAfv who pr (.load k rd ra space size off) s := by
      rcases hrow with ⟨rfl, rfl⟩ | ⟨rfl, rfl⟩ | ⟨rfl, rfl⟩ <;> rfl
    exact ⟨fun hf => raises_load_local h hc (he 0) (localFault_far hf),
      fun hf hm => raises_load_local h hc (he 0) (localFault_misaligned hf hm),
      fun hf hm => computes_load_local h hc (he 0) (localFault_none hf hm), raises_load_window h hc (he 2),
      fun fid hh hm => raises_load_window_miss h hc (he 2) hh hm, fun fid hh hm => computes_load_window h hc (he 2) hh hm⟩
  · intro who n pr rs ra size off s be c h hc hrow ea m v base after
    have he (space : BitVec 2) : exec (c space) s = execAfv who pr (.store be rs ra space size off) s := by
      rcases hrow with ⟨rfl, rfl⟩ | ⟨rfl, rfl⟩ <;> rfl
    exact ⟨fun hf => raises_store_local h hc (he 0) (localFault_far hf),
      fun hf hm => raises_store_local h hc (he 0) (localFault_misaligned hf hm),
      fun hf hm => ends_store_local h hc (he 0) (localFault_none hf hm), raises_store_window h hc (he 2),
      fun fid hh hm => raises_store_window_miss h hc (he 2) hh hm, fun fid hh hm => ends_store_window h hc (he 2) hh hm⟩

/-! ### AMOs in local memory (R77) -/

theorem amoNew_eq (op : AmoOp) (m old cmp b : Nat) :
    amoNew op m old cmp b = amoLeaves op m old (cmp % 2 ^ (8 * m)) (b % 2 ^ (8 * m)) := by
  cases op with
  | add => simp only [amoNew, amoLeaves]
  | swap => rfl
  | cas => rfl
  | and => rfl
  | or => rfl
  | maxu => simp only [amoNew, amoLeaves, Nat.max_def]; split <;> split <;> omega
  | minu => simp only [amoNew, amoLeaves, Nat.min_def]; split <;> split <;> omega

section
variable {who : Agent} {n : Nat} {pr : BitVec 3} {rd ra rb : BitVec 5} {s : State} {op : AmoOp} {wide : Bool}

theorem exec_amoRow (op : AmoOp) (who : Agent) (pr : BitVec 3) (rd ra rb : BitVec 5) (space : BitVec 2) (wide : Bool) (s : State) :
    exec (amoRow op who pr rd ra rb space wide) s = execAfv who pr (.amo op rd ra rb space wide) s := by
  cases op <;> rfl

theorem raises_amo_space {space : BitVec 2} (h : agentNum who = some n) (hc : CanIssue s n pr [rd, ra, rb] [])
    (hs : 2 ≤ space.toNat) : Raises (amoRow op who pr rd ra rb space wide) s n 1 0 := by
  have h0 : space ≠ 0 := by rintro rfl; exact absurd hs (by decide)
  have h1 : space ≠ 1 := by rintro rfl; exact absurd hs (by decide)
  refine raises_of_fault h hc (exec_amoRow ..) (List.Subset.refl _) (List.Subset.refl _) (if_neg h1) ?_
  rw [State.insn_amo, State.runAmo, if_neg h0, if_neg h1]

theorem raises_amo_local {code : Nat} (h : agentNum who = some n) (hc : CanIssue s n pr [rd, ra, rb] [])
    (hf : localFault (reg s n ra).toNat (if wide then 8 else 4) = some code) :
    Raises (amoRow op who pr rd ra rb 0 wide) s n code (reg s n ra).toNat := by
  refine raises_of_fault h hc (exec_amoRow ..) (List.Subset.refl _) (List.Subset.refl _) rfl ?_
  rw [State.insn_amo, State.runAmo, if_pos rfl]
  rw [← reg_noteIssue, reg] at hf ⊢
  rw [hf]

theorem ends_amo_local (h : agentNum who = some n) (hc : CanIssue s n pr [rd, ra, rb] [])
    (hf : localFault (reg s n ra).toNat (if wide then 8 else 4) = none) :
    let ea := (reg s n ra).toNat
    let m := if wide then 8 else 4
    let old := leNat ((List.range m).map fun i => localByte s n (ea + i))
    let new := amoLeaves op m old ((reg s n rd).toNat % 2 ^ (8 * m)) ((reg s n rb).toNat % 2 ^ (8 * m))
    let base := if n < 2048 then coreData (n / 8) else 65536 * (n - 2048)
    let after := fun (a : Nat) (b : Byte) =>
      if base + ea ≤ a ∧ a < base + ea + m then BitVec.ofNat 8 (new / 256 ^ (a - (base + ea))) else b
    Ends (amoRow op who pr rd ra rb 0 wide) s fun t =>
      Wrote s t n rd (BitVec.ofNat 64 old) ∧
      (∀ a, t.ldByte a = if n < 2048 then after a (s.ldByte a) else s.ldByte a) ∧
      (∀ a, Tab.get 0 t.scratch a = if n < 2048 then Tab.get 0 s.scratch a else after a (Tab.get 0 s.scratch a)) ∧
      Advanced s t n ∧ OthersKept s t n ∧ RestKept { s with mem := t.mem, scratch := t.scratch } t := by
  intro ea m old new base after
  have hold : leNat ((s.noteIssue n).localLoad n ea m) = old := by
    rw [State.localLoad_eq_map]
    simp only [localByte_noteIssue]
    rfl
  have hexec : exec (amoRow op who pr rd ra rb 0 wide) s =
      .next ((Res.ok ((s.noteIssue n).localStore n ea (leBytes m new)) [(rd, BitVec.ofNat 64 old)] []).apply n (s.thr n).pc) := by
    rw [exec_issued h hc (exec_amoRow ..) (List.Subset.refl _) (List.Subset.refl _) rfl, State.insn_amo, State.runAmo, if_pos rfl]
    simp only [State.thr_noteIssue_self]
    rw [reg] at hf
    have hnew : new = amoLeaves op m (leNat ((s.noteIssue n).localLoad n ea m)) ((reg s n rd).toNat % 2 ^ (8 * m))
        ((reg s n rb).toNat % 2 ^ (8 * m)) := by rw [hold]
    rw [hf, amoNew_eq, hnew, ← hold]
    rfl
  have hb := localStore_bytes s n ea (leBytes m new) (fun i => BitVec.ofNat 8 (new / 256 ^ i))
    fun i hi => leBytes_getD _ _ _ (by simpa using hi)
  obtain ⟨ht, ho, hr⟩ := localStore_kept s n ea (leBytes m new)
  obtain ⟨hw, hadv⟩ := wrote_of_apply ht rd (BitVec.ofNat 64 old) (s.thr n).pc
  rw [leBytes_length] at hb
  refine ⟨_, hexec, hw, fun a => (State.ldByte_modThr _ _ _ a).trans (hb.1 a), ?_, hadv, ho.modThr _, ?_⟩
  · rw [Res.apply, State.modThr_scratch]
    exact hb.2
  · rw [Res.apply, State.modThr_mem, State.modThr_scratch]
    exact hr.modThr n _

end

/-- Settles O11: memory takes `amoLeaves` (`amoNew_eq`), rd the old value, a 4-byte one zero-extended (the model's choice, log
entry 136). -/
theorem amoLocal : Obligations.AmoLocal := by
  intro op who n pr rd ra rb space wide s h hc c ea m old new base after
  refine ⟨raises_amo_space h hc, ?_, ?_, ?_⟩
  · rintro rfl hf
    exact raises_amo_local h hc (localFault_far hf)
  · rintro rfl hf hm
    exact raises_amo_local h hc (localFault_misaligned hf hm)
  · rintro rfl hf hm
    exact ends_amo_local h hc (localFault_none hf hm)

/-! ### Device space (R74, R77, R98) -/

theorem insnBarred_load {n a m : Nat} (h1 : 1 ≤ m) (h8 : m ≤ 8) : insnBarred n a m false = true ↔
    n < 2048 ∧ ((0x0B000000 + n / 8 * 0x18000 ≤ a ∧ a < 0x0B000000 + n / 8 * 0x18000 + 0x8000) ∨
      (0x0B000000 + n / 8 * 0x18000 ≤ a + m - 1 ∧ a + m - 1 < 0x0B000000 + n / 8 * 0x18000 + 0x8000)) := by
  simp only [insnBarred, Bool.and_eq_true, decide_eq_true_eq, Bool.false_eq_true, if_false]
  rw [coreData, coreBase]
  generalize n / 8 * 0x18000 = b
  omega

theorem insnBarred_store (n a m : Nat) : insnBarred n a m true = true ↔ n < 2048 ∧
    ((0x0B000000 ≤ a ∧ a < 0x0C800000 ∧ (a - 0x0B000000) % 0x18000 < 0x8000) ∨
      (0x0B000000 ≤ a + m - 1 ∧ a + m - 1 < 0x0C800000 ∧ (a + m - 1 - 0x0B000000) % 0x18000 < 0x8000)) := by
  simp [insnBarred, inInsnMem, and_assoc]

theorem devReserved_iff (a : Nat) : devReserved a = true ↔ (0x0D000000 ≤ a ∧ a < 0x100000000) ∨ 0x1900000000 ≤ a := by
  simp [devReserved]

theorem devFault_eq (n ea : Nat) {m : Nat} (h1 : 1 ≤ m) (h8 : m ≤ 8) (store : Bool) :
    devFault n ea m store = deviceRaises n ea m store := by
  rw [devFault, deviceRaises]
  refine if_congr ?_ rfl rfl
  rw [Bool.or_eq_true, Bool.or_eq_true, devReserved_iff, devReserved_iff, or_assoc]
  cases store with
  | true => exact or_congr_right (or_congr_right (insnBarred_store n ea m))
  | false => exact or_congr_right (or_congr_right (insnBarred_load h1 h8))

theorem sum_map_range (f : Nat → Nat) (m k : Nat) : (List.range m).foldl (fun a i => a + f i) k = k + ((List.range m).map f).sum := by
  generalize List.range m = l
  induction l generalizing k with
  | nil => simp
  | cons x l ih => simp [ih, Nat.add_assoc]


theorem roomFor_more (s : State) (n : Nat) : (decide (s.loadsOut n < 4) && (2048 ≤ n
    || decide (((List.range 8).foldl (fun k i => k + s.loadsOut (n / 8 * 8 + i)) 0) < 16))) = true ↔ LoadRoom s n := by
  rw [sum_map_range, Nat.zero_add, LoadRoom, Bool.and_eq_true, Bool.or_eq_true, decide_eq_true_eq, decide_eq_true_eq, decide_eq_true_eq]
  exact and_congr_right fun _ => ⟨fun h hn => h.resolve_left (by omega), fun h => (Nat.lt_or_ge n 2048).symm.imp_right h⟩

theorem roomFor_load (s : State) (n : Nat) (k : LoadKind) (rd ra : BitVec 5) (size : BitVec 2) (off : BitVec 9) :
    s.roomFor n (.load k rd ra 1 size off) = true ↔ LoadRoom s n := roomFor_more s n
theorem roomFor_amo (s : State) (n : Nat) (op : AmoOp) (rd ra rb : BitVec 5) (wide : Bool) :
    s.roomFor n (.amo op rd ra rb 1 wide) = true ↔ LoadRoom s n := roomFor_more s n

section
variable {who : Agent} {n : Nat} {pr : BitVec 3} {rs : List (BitVec 5)} {ps : List (BitVec 3)} {s : State} {c : Instr} {a : Afv}

/-- An operation of device space whose response is outstanding. -/
theorem ends_outstanding {act : MemAct} {ea : Nat} (h : agentNum who = some n) (hc : CanIssue s n pr rs ps)
    (he : exec c s = execAfv who pr a s) (hr : a.regs ⊆ rs) (hp : a.preds ⊆ ps) (hroom : s.roomFor n a = true)
    (hi : (s.noteIssue n).insn n a = .ok ((s.noteIssue n).bumpOp.startOp n (s.noteIssue n).nextOp act ea) [] []) :
    Ends c s fun t => Outstanding s t n act ea := by
  refine ⟨_, (exec_issued h hc he hr hp hroom).trans (by rw [hi, Res.apply_ok_nil]), ?_⟩
  generalize hu : (s.noteIssue n).bumpOp.startOp n (s.noteIssue n).nextOp act ea = u
  have hthr : u.thr n = { s.thr n with issued := (s.thr n).issued + 1, ops := (s.thr n).ops ++
      [⟨s.nextOp, act, ea, (s.thr n).pc, (s.thr n).issued + 1⟩] } := by
    have hb : (s.noteIssue n).bumpOp.thr n = (s.noteIssue n).thr n := rfl
    rw [← hu, State.startOp, State.thr_modThr_self, hb, State.thr_noteIssue_self, State.nextOp_noteIssue]
  have hnext : u.nextOp = s.nextOp + 1 := by
    rw [← hu, State.startOp, State.modThr_nextOp, State.bumpOp, State.nextOp_noteIssue]
  have ho : OthersKept s u n := by
    rw [← hu]
    exact OthersKept.modThr (u := (s.noteIssue n).bumpOp) ((othersKept_noteIssue s n).congr rfl rfl rfl) _
  have hrest : RestKept { s with nextOp := s.nextOp + 1 } u := by
    rw [← hu]
    refine RestKept.modThr (u := (s.noteIssue n).bumpOp) ?_ n _
    rw [← State.nextOp_noteIssue s n]
    exact (congrArg (fun t : State => { t with nextOp := (s.noteIssue n).nextOp + 1 }) (restKept_noteIssue s n) :)
  have hnext' : (goesOn u n).nextOp = s.nextOp + 1 := (State.modThr_nextOp _ _ _).trans hnext
  refine ⟨?_, hnext', ?_, ?_, ?_, ?_, ?_, ?_, ?_, ho.modThr _, ?_⟩
  case refine_9 => rw [hnext']; exact hrest.modThr n _
  all_goals simp [goesOn, RegsKept, hthr]

end

section
variable {who : Agent} {n : Nat} {pr : BitVec 3} {rd ra rb : BitVec 5} {size : BitVec 2} {off : BitVec 9} {s : State} {c : Instr}
  {k : LoadKind} {be wide : Bool} {op : AmoOp}

theorem raises_load_device {x : Nat} (h : agentNum who = some n) (hc : CanIssue s n pr [rd, ra, rb] [])
    (he : exec c s = execAfv who pr (.load k rd ra 1 size off) s) (hroom : LoadRoom s n)
    (hf : deviceRaises n (effAddr (reg s n ra) off) (accBytes size) false = some x) :
    Raises c s n x (effAddr (reg s n ra) off) := by
  refine raises_of_fault h hc he (by simp [Afv.regs]) (List.Subset.refl _) ((roomFor_load ..).mpr hroom) ?_
  rw [← devFault_eq _ _ (accBytes_pos _) (accBytes_le _), ← reg_noteIssue] at hf
  rw [← reg_noteIssue, State.insn_load, State.runLoad, if_neg (by decide), if_pos rfl]
  rw [reg] at hf ⊢
  rw [hf]

theorem ends_load_device (h : agentNum who = some n) (hc : CanIssue s n pr [rd, ra, rb] [])
    (he : exec c s = execAfv who pr (.load k rd ra 1 size off) s) (hroom : LoadRoom s n)
    (hf : deviceRaises n (effAddr (reg s n ra) off) (accBytes size) false = none) :
    Ends c s fun t => Outstanding s t n (.load k rd (accBytes size)) (effAddr (reg s n ra) off) := by
  refine ends_outstanding h hc he (by simp [Afv.regs]) (List.Subset.refl _) ((roomFor_load ..).mpr hroom) ?_
  rw [← devFault_eq _ _ (accBytes_pos _) (accBytes_le _), ← reg_noteIssue] at hf
  rw [← reg_noteIssue, State.insn_load, State.runLoad, if_neg (by decide), if_pos rfl]
  rw [reg] at hf ⊢
  rw [hf]

theorem raises_store_device {x : Nat} (h : agentNum who = some n) (hc : CanIssue s n pr [rd, ra, rb] [])
    (he : exec c s = execAfv who pr (.store be rd ra 1 size off) s)
    (hf : deviceRaises n (effAddr (reg s n ra) off) (accBytes size) true = some x) :
    Raises c s n x (effAddr (reg s n ra) off) := by
  refine raises_of_fault h hc he (by simp [Afv.regs]) (List.Subset.refl _) rfl ?_
  rw [← devFault_eq _ _ (accBytes_pos _) (accBytes_le _), ← reg_noteIssue] at hf
  rw [← reg_noteIssue, State.insn_store, State.runStore, if_neg (by decide), if_pos rfl]
  rw [reg] at hf ⊢
  rw [hf]

theorem ends_store_device (h : agentNum who = some n) (hc : CanIssue s n pr [rd, ra, rb] [])
    (he : exec c s = execAfv who pr (.store be rd ra 1 size off) s)
    (hf : deviceRaises n (effAddr (reg s n ra) off) (accBytes size) true = none) :
    Ends c s fun t => Outstanding s t n (.store ((List.range (accBytes size)).map (stored be (accBytes size) (reg s n rd))))
      (effAddr (reg s n ra) off) := by
  refine ends_outstanding h hc he (by simp [Afv.regs]) (List.Subset.refl _) rfl ?_
  rw [← devFault_eq _ _ (accBytes_pos _) (accBytes_le _), ← reg_noteIssue] at hf
  rw [← storeVal_eq_map, ← reg_noteIssue s n ra, ← reg_noteIssue s n rd, State.insn_store, State.runStore, if_neg (by decide), if_pos rfl]
  rw [reg] at hf
  rw [reg, reg, hf]

theorem wide_bytes (wide : Bool) : 1 ≤ (if wide then 8 else 4) ∧ (if wide then 8 else 4) ≤ 8 := by cases wide <;> decide

theorem raises_amo_device {x : Nat} (h : agentNum who = some n) (hc : CanIssue s n pr [rd, ra, rb] []) (hroom : LoadRoom s n)
    (hf : deviceRaises n (reg s n ra).toNat (if wide then 8 else 4) true = some x) :
    Raises (amoRow op who pr rd ra rb 1 wide) s n x (reg s n ra).toNat := by
  refine raises_of_fault h hc (exec_amoRow ..) (List.Subset.refl _) (List.Subset.refl _) ((roomFor_amo ..).mpr hroom) ?_
  rw [← devFault_eq _ _ (wide_bytes wide).1 (wide_bytes wide).2, ← reg_noteIssue] at hf
  rw [← reg_noteIssue, State.insn_amo, State.runAmo, if_neg (by decide), if_pos rfl]
  rw [reg] at hf ⊢
  rw [hf]

theorem ends_amo_device (h : agentNum who = some n) (hc : CanIssue s n pr [rd, ra, rb] []) (hroom : LoadRoom s n)
    (hf : deviceRaises n (reg s n ra).toNat (if wide then 8 else 4) true = none) :
    Ends (amoRow op who pr rd ra rb 1 wide) s fun t =>
      Outstanding s t n (.amo op rd (if wide then 8 else 4) (reg s n rd) (reg s n rb)) (reg s n ra).toNat := by
  refine ends_outstanding h hc (exec_amoRow ..) (List.Subset.refl _) (List.Subset.refl _) ((roomFor_amo ..).mpr hroom) ?_
  rw [← devFault_eq _ _ (wide_bytes wide).1 (wide_bytes wide).2, ← reg_noteIssue] at hf
  rw [← reg_noteIssue s n ra, ← reg_noteIssue s n rd, ← reg_noteIssue s n rb, State.insn_amo, State.runAmo, if_neg (by decide), if_pos rfl]
  rw [reg] at hf
  rw [reg, reg, reg, hf]

end

/-- Settles O12: what `deviceRaises` says, by the lemma for each kind of access. A worker's load from its own core's
instruction memory raises MEM_ACCESS (log entry 32, deduced from R61). -/
theorem deviceAccesses : Obligations.DeviceAccesses := by
  intro who n pr rd ra rb size off wide op s h hc ea m aa w
  have full {c : Instr} {a : Afv} (he : exec c s = execAfv who pr a s) (hn : s.roomFor n a = true ↔ LoadRoom s n)
      (hroom : ¬LoadRoom s n) : exec c s = .next s :=
    exec_full h hc he (Bool.eq_false_iff.mpr fun e => hroom (hn.mp e))
  exact ⟨fun x hroom hf => ⟨raises_load_device (k := .zero) h hc rfl hroom hf, raises_load_device (k := .sign) h hc rfl hroom hf,
      raises_load_device (k := .be) h hc rfl hroom hf⟩,
    fun hroom hf => ⟨ends_load_device h hc rfl hroom hf, ends_load_device h hc rfl hroom hf, ends_load_device h hc rfl hroom hf⟩,
    fun x hf => ⟨raises_store_device (be := false) h hc rfl hf, raises_store_device (be := true) h hc rfl hf⟩,
    fun hf => ⟨ends_store_device h hc rfl hf, ends_store_device h hc rfl hf⟩,
    fun x hroom hf => raises_amo_device h hc hroom hf, fun hroom hf => ends_amo_device h hc hroom hf,
    fun hroom => ⟨full (a := .load .zero rd ra 1 size off) rfl (roomFor_load ..) hroom,
      full (a := .load .sign rd ra 1 size off) rfl (roomFor_load ..) hroom,
      full (a := .load .be rd ra 1 size off) rfl (roomFor_load ..) hroom, full (exec_amoRow ..) (roomFor_amo ..) hroom⟩⟩

end Sys2Proof.Machine
end

section
/-! Proofs about responses, FENCE, transfers of control and lookups (R76 to R79, R81 to R83), and obligations O13, O15, O16 and
O17. -/

namespace Sys2Proof.Machine

open Sys2Proof.Safety

/-! ### Responses (R76 to R78) -/

section
variable (s : State) (n : Nat) (r : Thread)

theorem State.devByte_setThr (a : Nat) : (s.setThr n r).devByte a = s.devByte a := by
  rw [State.setThr]
  split <;> rfl

theorem State.devLoad_eq_map (a m : Nat) : s.devLoad a m = (List.range m).map fun i => s.devByte (a + i) := by
  induction m generalizing a with
  | zero => rfl
  | succ m ih =>
    rw [State.devLoad, ih, List.range_succ_eq_map, List.map_cons, List.map_map]
    refine congrArg (s.devByte a :: ·) (List.map_congr_left fun i _ => ?_)
    simp [Nat.add_assoc, Nat.add_comm 1]

theorem State.devStore_outside {a : Nat} (bs : List Byte) (h : a + 64 ≤ 0x0A000000 ∨ 0x0B000000 ≤ a) :
    s.devStore n a bs = s.stBytes a bs := if_neg (by omega)

end

section
variable {who : Agent} {n : Nat} {s : State} {x : MemOp} {rest : List MemOp}

/-- The state in which the oldest operation is no longer outstanding. -/
def afterFirstOp (s : State) (n : Nat) (rest : List MemOp) : State := s.setThr n { s.thr n with ops := rest }

theorem restKept_afterFirstOp (s : State) (n : Nat) (rest : List MemOp) : RestKept s (afterFirstOp s n rest) :=
  (RestKept.refl s).setThr n _

theorem thr_afterFirstOp (s : State) (n : Nat) (rest : List MemOp) (m : Nat) :
    (afterFirstOp s n rest).thr m = if m = n then { s.thr n with ops := rest } else s.thr m := State.thr_setThr _ _ _ _

theorem ldByte_afterFirstOp (s : State) (n : Nat) (rest : List MemOp) (a : Nat) : (afterFirstOp s n rest).ldByte a = s.ldByte a :=
  State.ldByte_congr (State.setThr_mem _ _ _) a

/-- The response to the oldest outstanding operation performs it: nothing comes before it. -/
theorem exec_memoryResponse_first (h : agentNum who = some n) (hp : s.pstate < 2) (ho : (s.thr n).ops = x :: rest)
    (hd : opDue [] x = true) : exec (.memoryResponse who (BitVec.ofNat 32 x.id) false) s =
      .next ((afterFirstOp s n rest).performOp n x) := by
  have hi : firstIdx (fun y : MemOp => y.id % 2 ^ 32 = (BitVec.ofNat 32 x.id).toNat) (x :: rest) = some 0 := by
    rw [firstIdx, if_pos (by simp)]
  have hr : s.respondOp n (BitVec.ofNat 32 x.id).toNat false = (afterFirstOp s n rest).performOp n x := by
    simp only [State.respondOp, ho, hi, List.getElem?_cons_zero, List.take_zero, hd, Bool.not_true, Bool.false_and, Bool.false_eq_true,
      if_false]
    rfl
  show execMemoryResponse who (BitVec.ofNat 32 x.id) false s = _
  rw [execMemoryResponse, h, ← hr]
  exact congrArg Host.Outcome.next (if_pos hp)

/-- A register that a response writes. -/
theorem wrote_response {u : State} (hu : u.thr n = { s.thr n with ops := rest }) (rd : BitVec 5) (v : W64) :
    let t := u.modThr n fun t => { t with r := t.r.set rd v }
    Wrote s t n rd v ∧ (t.thr n).ops = rest ∧ (t.thr n).pc = (s.thr n).pc := by
  intro t
  refine ⟨⟨fun r => ?_, fun p => ?_⟩, ?_, ?_⟩
  · simp [t, reg, hu, Regs.get_set]
  · simp [t, pred, hu]
  · simp [t, hu]
  · simp [t, hu]

/-- A response's store: every byte, and what it leaves alone. -/
theorem stored_response (s : State) (n : Nat) (rest : List MemOp) (a : Nat) (bs : List Byte) :
    let u := (afterFirstOp s n rest).stBytes a bs
    (∀ b, u.ldByte b = if a ≤ b ∧ b < a + bs.length then bs.getD (b - a) 0 else s.ldByte b) ∧
    (∀ m, u.thr m = if m = n then { s.thr n with ops := rest } else s.thr m) ∧ RestKept { s with mem := u.mem } u := by
  intro u
  have hu : { u with mem := (afterFirstOp s n rest).mem } = afterFirstOp s n rest := State.stBytes_only _ _ _
  refine ⟨fun b => ?_, fun m => ?_, ?_⟩
  · rw [State.ldByte_stBytes, ldByte_afterFirstOp]
  · rw [← thr_afterFirstOp]
    exact State.thr_congr (congrArg State.threads hu :) (congrArg State.stewards hu :) m
  · have h := congrArg (fun t : State => { t with mem := u.mem }) (restKept_afterFirstOp s n rest)
    rw [← hu] at h
    exact h

end

/-- Settles O13: a load writes what its bytes make (`loaded_loadVal`), a store its bytes, an AMO both. The operation is performed
at its response (log entry 35), and the old value of a 4-byte AMO is zero-extended (log entry 136). -/
theorem memoryResponses : Obligations.MemoryResponses := by
  intro who n s x rest h hp ho hout
  have others {t : State} {m : Nat} (hm : m ≠ n) (ht : t.thr m = if m = n then { s.thr n with ops := rest } else s.thr m) :
      t.thr m = s.thr m := ht.trans (if_neg hm)
  refine ⟨fun rd k m hact h1 h8 => ?_, fun bs hact => ?_, fun op rd m cmp b hact hm => ?_⟩
  · refine ⟨_, exec_memoryResponse_first h hp ho (by simp [opDue, hact]), ?_⟩
    simp only [State.performOp, hact]
    obtain ⟨hw, hops, hpc⟩ := wrote_response ((thr_afterFirstOp s n rest n).trans (if_pos rfl)) rd
      (loadVal k ((afterFirstOp s n rest).devLoad x.addr m))
    refine ⟨⟨_, loaded_loadVal k h1 h8 (by simp [State.devLoad_eq_map]) fun i hi => ?_, hw⟩, hops, hpc, fun a => ?_, fun j hj => ?_,
      (restKept_afterFirstOp s n rest).modThr n _⟩
    · rw [State.devLoad_eq_map, map_range_getD _ _ hi]
      exact State.devByte_setThr _ _ _ _
    · rw [State.ldByte_modThr, ldByte_afterFirstOp]
    · rw [State.thr_modThr, if_neg hj, others hj (thr_afterFirstOp s n rest j)]
  · refine ⟨_, exec_memoryResponse_first h hp ho (by simp [opDue, hact]), ?_⟩
    obtain ⟨hb, ht, hr⟩ := stored_response s n rest x.addr bs
    simp only [State.performOp, hact, State.devStore_outside _ _ _ hout]
    have hself := (ht n).trans (if_pos rfl)
    exact ⟨hb, by rw [RegsKept, hself], by rw [hself], by rw [hself], fun j hj => others hj (ht j), hr⟩
  · intro old new
    have hold : leNat ((afterFirstOp s n rest).devLoad x.addr m) = old := by
      rw [State.devLoad_eq_map]
      exact congrArg leNat (List.map_congr_left fun i _ => State.devByte_setThr _ _ _ _)
    refine ⟨_, exec_memoryResponse_first h hp ho (by simp [opDue, hact]), ?_⟩
    simp only [State.performOp, hact, State.devStore_outside _ _ _ hout, hold, amoNew_eq]
    obtain ⟨hb, ht, hr⟩ := stored_response s n rest x.addr (leBytes m new)
    obtain ⟨hw, hops, -⟩ := wrote_response ((ht n).trans (if_pos rfl)) rd (BitVec.ofNat 64 old)
    refine ⟨hw, fun a => ?_, hops, fun j hj => ?_, ?_⟩
    · rw [State.ldByte_modThr, hb, leBytes_length]
      split
      · exact leBytes_getD _ _ _ (by omega)
      · rfl
    · rw [State.thr_modThr, if_neg hj, others hj (ht j)]
    · rw [State.modThr_mem]
      exact hr.modThr n _

/-! ### FENCE (R79) -/

theorem roomFor_fence (s : State) (n : Nat) (pre succ : BitVec 4) : s.roomFor n (.fence pre succ) = false ↔ pre ≠ 0 ∧ succ ≠ 0 ∧
    ((∃ x ∈ (s.thr n).ops, x.act.inSet pre = true) ∨ (pre.getLsbD 3 = true ∧ ∃ m ∈ s.signals, m.src = n)) := by
  simp only [State.roomFor, Bool.or_eq_false_iff, decide_eq_false_iff_not, Bool.not_eq_false', Bool.or_eq_true, Bool.and_eq_true,
    List.any_eq_true, decide_eq_true_eq, and_assoc]

/-- Settles O15: `roomFor_fence` is the wait. Of the X operations only undelivered signals are not complete at issue (log entry
128, deduced). -/
theorem fenceWaits : Obligations.FenceWaits := by
  intro who n pr pre succ s h hc waits
  refine ⟨fun hw => ?_, fun hw => exec_full (a := .fence pre succ) h hc rfl ((roomFor_fence s n pre succ).mpr hw)⟩
  have hroom : s.roomFor n (.fence pre succ) = true := by
    rw [← Bool.not_eq_false, roomFor_fence]
    exact hw
  refine ⟨_, exec_issued h hc rfl (List.Subset.refl _) (List.Subset.refl _) hroom, ?_⟩
  rw [State.insn_fence, Res.apply_ok_nil]
  obtain ⟨hregs, hadv⟩ := advanced_goesOn (s := s) (n := n) rfl
  exact ⟨hregs, hadv, (othersKept_noteIssue s n).modThr _, (restKept_noteIssue s n).modThr n _⟩

/-! ### Transfers of control (R81) -/

section
variable {who : Agent} {n : Nat} {pr : BitVec 3} {rs : List (BitVec 5)} {s : State} {c : Instr} {a : Afv}

theorem jumpTo_inside {s : State} {n : Nat} {g : List (BitVec 5 × W64)} {target : Int} (h : 0 ≤ target ∧ target < pcLimit n) :
    jumpTo s n g target = .jump s g target.toNat := if_pos h
theorem jumpTo_outside {s : State} {n : Nat} {g : List (BitVec 5 × W64)} {target : Int} (h : ¬(0 ≤ target ∧ target < pcLimit n)) :
    jumpTo s n g target = .fault s 4 0 := if_neg h

/-- A transfer of control to a target inside the instruction memory; `link` is g0 where there is none. -/
theorem jumps_of_jump {g : List (BitVec 5 × W64)} {link : BitVec 5} {target : Nat} (h : agentNum who = some n) (hc : CanIssue s n pr rs [])
    (he : exec c s = execAfv who pr a s) (hr : a.regs ⊆ rs) (hp : a.preds ⊆ []) (hroom : s.roomFor n a = true)
    (hi : (s.noteIssue n).insn n a = .jump (s.noteIssue n) g target)
    (hg : ∀ r, ((s.thr n).r.writes g []).get r = if r = 0 then 0 else if r = link then BitVec.ofNat 64 ((s.thr n).pc + 1) else reg s n r)
    (hq : ∀ p, ((s.thr n).r.writes g []).pred p = pred s n p) : Jumps c s n link target := by
  refine ⟨_, (exec_issued h hc he hr hp hroom).trans (by rw [hi]), ?_⟩
  have hthr : ((Res.jump (s.noteIssue n) g target).apply n (s.thr n).pc).thr n =
      { s.thr n with issued := (s.thr n).issued + 1, r := (s.thr n).r.writes g [], pc := target } := by
    rw [Res.apply, State.thr_modThr_self, State.thr_noteIssue_self]
  refine ⟨by rw [hthr], ⟨fun r => ?_, fun p => ?_⟩, by rw [hthr], by rw [hthr], by rw [hthr], by rw [hthr], by rw [hthr], by rw [hthr],
    (othersKept_noteIssue s n).modThr _, (restKept_noteIssue s n).modThr n _⟩
  · rw [reg, hthr]
    exact hg r
  · rw [pred, hthr]
    exact hq p

theorem raises_of_jumpTo {g : List (BitVec 5 × W64)} {target : Int} (h : agentNum who = some n) (hc : CanIssue s n pr rs [])
    (he : exec c s = execAfv who pr a s) (hr : a.regs ⊆ rs) (hp : a.preds ⊆ []) (hroom : s.roomFor n a = true)
    (hi : (s.noteIssue n).insn n a = jumpTo (s.noteIssue n) n g target) (ht : ¬(0 ≤ target ∧ target < pcLimit n)) :
    Raises c s n 4 0 := raises_of_fault h hc he hr hp hroom (hi.trans (jumpTo_outside ht))

end

/-- Settles O16: the target check of `jumpTo`; a target out of range reports ADDR 0 (log entry 127, a reading of R96). -/
theorem controlTransfers : Obligations.ControlTransfers := by
  intro who n pr off rd ra s h hc limit near far
  have hlim : (pcLimit n : Int) = limit := by
    simp only [pcLimit, limit]
    split <;> rfl
  have hpc : ((s.noteIssue n).thr n).pc = (s.thr n).pc := by rw [State.thr_noteIssue_self]
  have hfar : (((s.noteIssue n).thr n).r.get ra).toNat = (reg s n ra).toNat := by rw [← reg_noteIssue]; rfl
  have hbranch : (s.noteIssue n).insn n (.branch off) = jumpTo (s.noteIssue n) n [] near := by rw [State.insn_branch, hpc]
  have hcall : (s.noteIssue n).insn n (.call off) =
      jumpTo (s.noteIssue n) n [(31, BitVec.ofNat 64 ((s.thr n).pc + 1))] near := by rw [State.insn_call, hpc]
  have hjr : (s.noteIssue n).insn n (.jr rd ra) =
      jumpTo (s.noteIssue n) n [(rd, BitVec.ofNat 64 ((s.thr n).pc + 1))] far := by rw [State.insn_jr, hpc, hfar]
  have hlink (r : BitVec 5) (q : BitVec 5) : ((s.thr n).r.writes [(r, BitVec.ofNat 64 ((s.thr n).pc + 1))] []).get q =
      if q = 0 then 0 else if q = r then BitVec.ofNat 64 ((s.thr n).pc + 1) else reg s n q := Regs.get_set _ _ _ _
  have hnone (q : BitVec 5) : ((s.thr n).r.writes [] []).get q =
      if q = 0 then 0 else if q = 0 then BitVec.ofNat 64 ((s.thr n).pc + 1) else reg s n q := by
    by_cases hq : q = 0
    · rw [if_pos hq, hq]
      rfl
    · rw [if_neg hq, if_neg hq]
      rfl
  have hpred (r : BitVec 5) (v : W64) (p : BitVec 3) : ((s.thr n).r.writes [(r, v)] []).pred p = pred s n p := Regs.pred_set _ _ _ _
  rw [← hlim]
  have hn0 : 0 ≤ far := Int.natCast_nonneg _
  refine ⟨fun ht => ⟨?_, ?_⟩, fun ht => ⟨?_, ?_⟩, fun ht => ?_, fun ht => ?_⟩
  · exact jumps_of_jump h hc rfl (List.nil_subset _) (List.Subset.refl _) rfl (hbranch.trans (jumpTo_inside ht)) hnone fun _ => rfl
  · exact jumps_of_jump h hc rfl (by simp [Afv.regs]) (List.Subset.refl _) rfl (hcall.trans (jumpTo_inside ht)) (hlink 31) (hpred _ _)
  · exact raises_of_jumpTo h hc rfl (List.nil_subset _) (List.Subset.refl _) rfl hbranch ht
  · exact raises_of_jumpTo h hc rfl (by simp [Afv.regs]) (List.Subset.refl _) rfl hcall ht
  · exact jumps_of_jump h hc rfl (by simp [Afv.regs]) (List.Subset.refl _) rfl (hjr.trans (jumpTo_inside ⟨hn0, ht⟩)) (hlink rd) (hpred _ _)
  · exact raises_of_jumpTo h hc rfl (by simp [Afv.regs]) (List.Subset.refl _) rfl hjr fun e => ht e.2

/-! ### Lookups at a thread (R82, R83) -/

theorem mem_allRegs (r : BitVec 5) : r ∈ (List.range 32).map (BitVec.ofNat 5) :=
  List.mem_map.mpr ⟨r.toNat, List.mem_range.mpr r.isLt, BitVec.eq_of_toNat_eq (by simp)⟩

theorem lookBad_iff (rd ra : BitVec 5) (klen rcnt : BitVec 2) :
    lookBad rd ra klen rcnt = true ↔ ¬(ra.toNat + klen.toNat ≤ 31 ∧ rd.toNat + rcnt.toNat ≤ 31) := by
  rw [lookBad, Bool.or_eq_true, decide_eq_true_eq, decide_eq_true_eq]
  omega

/-- Settles O17: `lookBad_iff` is the check of the ranges; RCMP is no instruction of a thread. -/
theorem threadLookups : Obligations.ThreadLookups := by
  intro who n pr rd ra table klen rcnt pd s h hc
  refine ⟨fun hok => ?_, fun hbad => ?_, ?_⟩
  · have hb : lookBad rd ra klen rcnt = false := by rw [← Bool.not_eq_true, lookBad_iff, not_not]; exact hok
    refine ends_outstanding h hc rfl (fun r _ => mem_allRegs r) (List.Subset.refl _) rfl ?_
    rw [State.insn_look, State.runLook, hb, if_neg Bool.false_ne_true, State.thr_noteIssue_self]
    rfl
  · refine raises_of_fault h hc rfl (fun r _ => mem_allRegs r) (List.Subset.refl _) rfl ?_
    rw [State.insn_look, State.runLook, if_pos ((lookBad_iff rd ra klen rcnt).mpr hbad)]
  · exact raises_of_fault h hc rfl (fun r _ => mem_allRegs r) (List.nil_subset _) rfl (State.insn_rcmp _ _ rd ra table)

end Sys2Proof.Machine
end

section
/-! Proofs about events, the timer and signals (R86 to R88, R116), and obligation O18. -/

namespace Sys2Proof.Safety

open Sys2Proof.Machine

section
variable {s t u : State} {n : Nat}

theorem OthersKept.refl (s : State) (n : Nat) : OthersKept s s n := ⟨fun _ _ => rfl, fun _ => rfl, fun _ => .inr rfl⟩

theorem RestKept.eq (h : RestKept s t) : t = { s with threads := t.threads, stewards := t.stewards, regs := t.regs } :=
  (congrArg (fun x : State => { x with threads := t.threads, stewards := t.stewards, regs := t.regs }) h :)

/-- The registers above the clusters' are as they were. -/
theorem OthersKept.rd (h : OthersKept s t n) {a : Nat} (ha : 0x52000000 ≤ a) : t.rd a = s.rd a := by
  obtain ⟨-, -, hrd⟩ := h
  refine (hrd a).resolve_left fun ⟨hn, e⟩ => ?_
  rw [Reg.staleStatus, ctlAddr] at e
  omega

theorem OthersKept.rf (h : OthersKept s t n) {a : Nat} (f : Fld) (ha : 0x52000000 ≤ a) : t.rf a f = s.rf a f := by
  rw [State.rf, State.rf, State.rdN_congr fun i _ => h.rd (by omega)]

theorem OthersKept.bindsOf (h : OthersKept s t n) (hr : RestKept s t) (m : Nat) : t.bindsOf m = s.bindsOf m := by
  obtain ⟨-, hstw, -⟩ := h
  have he : t.entryOf m = s.entryOf m := by rw [hr.eq]; rfl
  have hb : stwBinds (t.stw (m - 2048)) = stwBinds (s.stw (m - 2048)) := (congrArg stwBinds (hstw (m - 2048)) :)
  rw [State.bindsOf, State.bindsOf, he, hb]

/-- Whether a source holds is seen in no thread, steward or cluster register. -/
theorem OthersKept.levelHolds (h : OthersKept s t n) (hr : RestKept s t) (m type idx : Nat) :
    t.levelHolds m type idx = s.levelHolds m type idx := by
  have hg : t.groupQ idx = s.groupQ idx := by rw [hr.eq]; rfl
  have hm : t.mbEnd m idx = s.mbEnd m idx := by rw [hr.eq]; rfl
  have hb : t.mbox idx = s.mbox idx := by rw [hr.eq]; rfl
  have hf (f : Fld) : t.fStat idx f = s.fStat idx f := h.rf f (by rw [ferryAddr, ctlAddr]; omega)
  have hp : t.cqProd idx = s.cqProd idx := congrArg BitVec.toNat (h.rd (by rw [cqAddr, ctlAddr]; omega))
  have hc : t.cqCons idx = s.cqCons idx := congrArg BitVec.toNat (h.rd (by rw [cqAddr, ctlAddr]; omega))
  have hh (i : Nat) : t.rd (Reg.hostEvent i) = s.rd (Reg.hostEvent i) := h.rd (by rw [Reg.hostEvent, ctlAddr]; omega)
  have hhc (i : Nat) (f : Fld) : t.rf (Reg.hostEventCfg i) f = s.rf (Reg.hostEventCfg i) f :=
    h.rf f (by rw [Reg.hostEventCfg, ctlAddr]; omega)
  have hl (i o : Nat) (f : Fld) : t.rf (hlAddr i o) f = s.rf (hlAddr i o) f := h.rf f (by rw [hlAddr, ctlAddr]; omega)
  unfold State.levelHolds
  simp only [hg, hm, hb, hf, hp, hc, hh, hhc, hl]

theorem RestKept.ictNs (h : RestKept s t) : t.ictNs = s.ictNs := by
  rw [h.eq]
  rfl

end

end Sys2Proof.Safety

namespace Sys2Proof.Machine

open Sys2Proof.Safety

/-! ### Events and the timer -/

section
variable {s u : State} {n : Nat}

/-- The event bits of a thread before those of sources that hold are added. -/
def firedEv (s : State) (n : Nat) : W64 := if s.timerDue n then (s.thr n).ev ||| 0x10000 else (s.thr n).ev

theorem getLsbD_two_pow (b : Nat) {i : Nat} (hi : i < 64) : (BitVec.ofNat 64 (2 ^ b)).getLsbD i = decide (b = i) := by
  rw [BitVec.getLsbD_ofNat, Nat.testBit_two_pow, decide_eq_true hi, Bool.true_and]

theorem getLsbD_foldl_or (bs : List Binding) (p : Binding → Bool) (x : W64) {i : Nat} (hi : i < 64) :
    (bs.foldl (fun m b => if p b then m ||| BitVec.ofNat 64 (2 ^ b.bit) else m) x).getLsbD i =
      (x.getLsbD i || bs.any fun b => decide (b.bit = i) && p b) := by
  induction bs generalizing x with
  | nil => simp
  | cons b bs ih =>
    rw [List.foldl_cons, ih, List.any_cons, ← Bool.or_assoc]
    congr 1
    by_cases hb : p b = true
    · rw [if_pos hb, BitVec.getLsbD_or, getLsbD_two_pow _ hi, hb, Bool.and_true]
    · rw [if_neg hb, Bool.eq_false_iff.mpr hb, Bool.and_false, Bool.or_false]

/-- The event bits: those that are set, and those whose source holds. -/
theorem getLsbD_events (s : State) (n : Nat) {i : Nat} (hi : i < 64) :
    (s.events n).getLsbD i = ((firedEv s n).getLsbD i || sourceHolds s n i) := getLsbD_foldl_or _ _ _ hi

theorem events_eq_foldl (s : State) (n : Nat) : s.events n =
    (s.bindsOf n).foldl (fun m b => if s.levelHolds n b.type b.index then m ||| BitVec.ofNat 64 (2 ^ b.bit) else m) (firedEv s n) := rfl

theorem sourceHolds_kept (h : OthersKept s u n) (hr : RestKept s u) (i : Nat) : sourceHolds u n i = sourceHolds s n i := by
  simp only [sourceHolds, h.bindsOf hr, h.levelHolds hr]

theorem events_kept (h : OthersKept s u n) (hr : RestKept s u) (he : firedEv u n = firedEv s n) : u.events n = s.events n := by
  simp only [events_eq_foldl, h.bindsOf hr, h.levelHolds hr, he]

theorem timerDue_kept (hr : RestKept s u) (ht : (u.thr n).timer = (s.thr n).timer) : u.timerDue n = s.timerDue n := by
  rw [State.timerDue, State.timerDue, ht, hr.ictNs]

theorem timerDue_none (h : (s.thr n).timer = none) : s.timerDue n = false := by rw [State.timerDue, h]

theorem timerFire_kept (h : OthersKept s u n) (hr : RestKept s u) : OthersKept s (u.timerFire n) n ∧ RestKept s (u.timerFire n) := by
  rw [State.timerFire]
  split
  · exact ⟨h.modThr _, hr.modThr n _⟩
  · exact ⟨h, hr⟩

theorem thr_timerFire (s : State) (n : Nat) :
    (s.timerFire n).thr n = { s.thr n with timer := timerLeft s n, ev := firedEv s n } := by
  rw [State.timerFire, timerLeft, firedEv]
  split
  · exact State.thr_modThr_self _ _ _
  · rfl

/-- Once the timer has fired it is not due. -/
theorem timerDue_of_left (hr : RestKept s u) (ht : (u.thr n).timer = timerLeft s n) : u.timerDue n = false := by
  by_cases hd : s.timerDue n = true
  · exact timerDue_none (by rw [ht, timerLeft, if_pos hd])
  · rw [timerDue_kept hr (by rw [ht, timerLeft, if_neg hd])]
    exact Bool.eq_false_iff.mpr hd

theorem firedEv_of_left (hr : RestKept s u) (ht : (u.thr n).timer = timerLeft s n) : firedEv u n = (u.thr n).ev := by
  rw [firedEv, timerDue_of_left hr ht]
  rfl

theorem timerDue_noteIssue (s : State) (n : Nat) : (s.noteIssue n).timerDue n = s.timerDue n :=
  timerDue_kept (restKept_noteIssue s n) (by rw [State.thr_noteIssue_self])

theorem timerLeft_noteIssue (s : State) (n : Nat) : timerLeft (s.noteIssue n) n = timerLeft s n := by
  rw [timerLeft, timerLeft, timerDue_noteIssue, State.thr_noteIssue_self]

theorem firedEv_noteIssue (s : State) (n : Nat) : firedEv (s.noteIssue n) n = firedEv s n := by
  rw [firedEv, firedEv, timerDue_noteIssue, State.thr_noteIssue_self]

theorem events_noteIssue (s : State) (n : Nat) : (s.noteIssue n).events n = s.events n :=
  events_kept (othersKept_noteIssue s n) (restKept_noteIssue s n) (firedEv_noteIssue s n)

/-- Taking masked event bits: those whose source still holds are set again (R86, R87). -/
theorem takeEvents_kept (h : OthersKept s u n) (hr : RestKept s u) (mask : W64) :
    OthersKept s (u.takeEvents n mask) n ∧ RestKept s (u.takeEvents n mask) := by
  obtain ⟨ho, hr'⟩ := timerFire_kept h hr
  exact ⟨(ho.modThr _).modThr _, (hr'.modThr n _).modThr n _⟩

theorem thr_takeEvents (s : State) (n : Nat) (mask : W64) : ∃ ev : W64,
    (s.takeEvents n mask).thr n = { s.thr n with timer := timerLeft s n, ev := ev } ∧
    ∀ i, i < 64 → ev.getLsbD i = (((s.events n).getLsbD i && !mask.getLsbD i) || sourceHolds s n i) := by
  obtain ⟨ho, hr⟩ := timerFire_kept (OthersKept.refl s n) (RestKept.refl s)
  have hthr : ((s.timerFire n).modThr n fun t => { t with ev := t.ev &&& ~~~mask }).thr n =
      { s.thr n with timer := timerLeft s n, ev := firedEv s n &&& ~~~mask } := by
    rw [State.thr_modThr_self, thr_timerFire]
  refine ⟨_, by rw [State.takeEvents, State.thr_modThr_self, hthr], fun i hi => ?_⟩
  rw [getLsbD_events _ _ hi, firedEv_of_left (hr.modThr n _) (by rw [hthr]), sourceHolds_kept (ho.modThr _) (hr.modThr n _), hthr,
    getLsbD_events _ _ hi, BitVec.getLsbD_and, BitVec.getLsbD_not, decide_eq_true hi, Bool.true_and]
  cases (firedEv s n).getLsbD i <;> cases sourceHolds s n i <;> simp

end

/-! ### Instructions on events (R87, R88) -/

section
variable {who : Agent} {n : Nat} {pr : BitVec 3} {rd ra rb : BitVec 5} {s : State}

/-- The thread as an instruction that ends `.ok` leaves it. -/
theorem thr_apply_ok {u : State} (g : List (BitVec 5 × W64)) (p : List (BitVec 3 × Bool)) (pc : Nat) :
    ((Res.ok u g p).apply n pc).thr n = { u.thr n with r := (u.thr n).r.writes g p, pc := (u.thr n).pc + 1 } := by
  rw [Res.apply_ok_thr, if_pos rfl]

theorem wrote_of_thr {t : State} {rd : BitVec 5} {v : W64} (h : (t.thr n).r = (s.thr n).r.set rd v) : Wrote s t n rd v :=
  ⟨fun r => by rw [reg, h, Regs.get_set]; rfl, fun p => by rw [pred, h, Regs.pred_set]; rfl⟩

theorem raises_sige (h : agentNum who = some n) (hc : CanIssue s n pr [rd, ra, rb] [])
    (hb : 0x803 < (reg s n ra).toNat ∨ 15 < (reg s n rb).toNat) : Raises (.sige who pr ra rb) s n 9 0 := by
  refine raises_of_fault h hc (a := .sige ra rb) rfl (by simp [Afv.regs]) (List.Subset.refl _) rfl ?_
  rw [← reg_noteIssue s n ra, ← reg_noteIssue s n rb] at hb
  rw [State.insn_sige]
  exact if_pos hb

theorem ends_sige (h : agentNum who = some n) (hc : CanIssue s n pr [rd, ra, rb] []) (hd : (reg s n ra).toNat ≤ 0x803)
    (hb : (reg s n rb).toNat ≤ 15) : Ends (.sige who pr ra rb) s fun t =>
      t.signals = s.signals ++ [⟨n, (reg s n ra).toNat, (reg s n rb).toNat⟩] ∧ RegsKept s t n ∧ Advanced s t n ∧ OthersKept s t n ∧
      RestKept { s with signals := t.signals } t := by
  have hs : (s.noteIssue n).signals = s.signals := (congrArg State.signals (s.noteIssue_only n) :)
  generalize hu : ({ s.noteIssue n with signals := s.signals ++ [⟨n, (reg s n ra).toNat, (reg s n rb).toNat⟩] } : State) = u
  have hi : (s.noteIssue n).insn n (.sige ra rb) = .ok u [] [] := by
    rw [← hu, ← reg_noteIssue s n ra, ← reg_noteIssue s n rb, ← hs, State.insn_sige]
    exact if_neg (by rw [← reg_noteIssue] at hd hb; exact not_or.mpr ⟨Nat.not_lt.mpr hd, Nat.not_lt.mpr hb⟩)
  have hsig : (goesOn u n).signals = s.signals ++ [⟨n, (reg s n ra).toNat, (reg s n rb).toNat⟩] := by
    rw [goesOn, State.modThr_signals, ← hu]
  have ho : OthersKept s u n := by
    rw [← hu]
    exact (othersKept_noteIssue s n).congr rfl rfl rfl
  have hr : RestKept { s with signals := s.signals ++ [⟨n, (reg s n ra).toNat, (reg s n rb).toNat⟩] } u := by
    rw [← hu]
    exact (congrArg (fun t : State => { t with signals := s.signals ++ [SigMsg.mk n (reg s n ra).toNat (reg s n rb).toNat] })
      (restKept_noteIssue s n) :)
  obtain ⟨hregs, hadv⟩ := advanced_goesOn (s := s) (n := n) (u := u) (by rw [← hu]; rfl)
  refine ⟨_, exec_issued h hc (a := .sige ra rb) rfl (by simp [Afv.regs]) (List.Subset.refl _) rfl, ?_⟩
  rw [hi, Res.apply_ok_nil]
  refine ⟨hsig, hregs, hadv, ho.modThr _, ?_⟩
  rw [hsig]
  exact hr.modThr n _

theorem ends_sett (h : agentNum who = some n) (hc : CanIssue s n pr [rd, ra, rb] []) : Ends (.sett who pr ra) s fun t =>
    t.thr n = { s.thr n with timer := some (s.ictNs + (reg s n ra).toNat), ev := firedEv s n, pc := (s.thr n).pc + 1,
                             issued := (s.thr n).issued + 1 } ∧ OthersKept s t n ∧ RestKept s t := by
  obtain ⟨ho, hr⟩ := timerFire_kept (othersKept_noteIssue s n) (restKept_noteIssue s n)
  refine ⟨_, exec_issued h hc (a := .sett ra) rfl (by simp [Afv.regs]) (List.Subset.refl _) rfl, ?_⟩
  rw [State.insn_sett]
  refine ⟨?_, (ho.modThr _).modThr _, (hr.modThr n _).modThr n _⟩
  rw [thr_apply_ok, State.thr_modThr_self, thr_timerFire, firedEv_noteIssue, State.thr_noteIssue_self, (restKept_noteIssue s n).ictNs]
  rfl

theorem ends_clrt (h : agentNum who = some n) (hc : CanIssue s n pr [rd, ra, rb] []) : Ends (.clrt who pr) s fun t =>
    t.thr n = { s.thr n with timer := none, ev := (s.thr n).ev &&& 0xFFFFFFFFFFFEFFFF, pc := (s.thr n).pc + 1,
                             issued := (s.thr n).issued + 1 } ∧ OthersKept s t n ∧ RestKept s t := by
  refine ⟨_, exec_issued h hc (a := .clrt) rfl (List.nil_subset _) (List.Subset.refl _) rfl, ?_⟩
  rw [State.insn_clrt]
  refine ⟨?_, ((othersKept_noteIssue s n).modThr _).modThr _, ((restKept_noteIssue s n).modThr n _).modThr n _⟩
  rw [thr_apply_ok, State.thr_modThr_self, State.thr_noteIssue_self]
  rfl

theorem ends_evrd (h : agentNum who = some n) (hc : CanIssue s n pr [rd, ra, rb] []) : Ends (.evrd who pr rd) s fun t =>
    Wrote s t n rd (s.events n) ∧
    t.thr n = { s.thr n with r := (t.thr n).r, ev := s.events n, timer := timerLeft s n, pc := (s.thr n).pc + 1,
                             issued := (s.thr n).issued + 1 } ∧ OthersKept s t n ∧ RestKept s t := by
  obtain ⟨ho, hr⟩ := timerFire_kept (othersKept_noteIssue s n) (restKept_noteIssue s n)
  have hthr : ((s.noteIssue n).timerFire n).thr n =
      { s.thr n with timer := timerLeft s n, ev := firedEv s n, issued := (s.thr n).issued + 1 } := by
    rw [thr_timerFire, timerLeft_noteIssue, firedEv_noteIssue, State.thr_noteIssue_self]
  refine ⟨_, exec_issued h hc (a := .evrd rd) rfl (by simp [Afv.regs]) (List.Subset.refl _) rfl, ?_⟩
  rw [State.insn_evrd, events_noteIssue]
  refine ⟨wrote_of_thr ?_, ?_, (ho.modThr _).modThr _, (hr.modThr n _).modThr n _⟩
  · rw [thr_apply_ok, State.thr_modThr_self, hthr]
    rfl
  · rw [thr_apply_ok, State.thr_modThr_self, hthr]

theorem exec_timerFire (h : agentNum who = some n) (hs : s.stopped = false) : exec (.timerFire who) s = .next (s.timerFire n) := by
  show execTimerFire who s = _
  rw [execTimerFire, hs, h]
  rfl

theorem exec_timerFire_none (h : agentNum who = some n) (hd : s.timerDue n = false) : exec (.timerFire who) s = .next s := by
  cases hs : s.stopped with
  | false =>
    rw [exec_timerFire h hs, State.timerFire, hd]
    rfl
  | true =>
    show execTimerFire who s = _
    rw [execTimerFire, hs]
    rfl

end

/-! ### WAITE (R87, R116) -/

section
variable {who : Agent} {n : Nat} {pr : BitVec 3} {rd ra : BitVec 5} {s : State}

/-- A wait that nothing from outside ends: no bound bit and no pending timer is in the mask. -/
theorem disciplined_eq_false (s : State) (n : Nat) (mask : W64) : s.disciplined n mask = false ↔
    (∀ b ∈ s.bindsOf n, mask.getLsbD b.bit = false) ∧ ¬(mask.getLsbD 16 = true ∧ ∃ d, (s.thr n).timer = some d ∧ s.ictNs < d) := by
  rw [State.disciplined, Bool.or_eq_false_iff, List.any_eq_false]
  refine and_congr (by simp) ?_
  cases ht : (s.thr n).timer <;> simp

theorem disciplined_kept {u : State} (h : OthersKept s u n) (hr : RestKept s u) (ht : (u.thr n).timer = timerLeft s n) (mask : W64) :
    u.disciplined n mask = s.disciplined n mask := by
  have hd : (∃ d, (u.thr n).timer = some d ∧ u.ictNs < d) ↔ ∃ d, (s.thr n).timer = some d ∧ s.ictNs < d := by
    rw [ht, hr.ictNs, timerLeft]
    split
    · next due =>
      refine ⟨fun ⟨_, e, _⟩ => (nomatch e), fun ⟨d, e, hlt⟩ => ?_⟩
      rw [State.timerDue, e] at due
      simp at due
      omega
    · rfl
  rw [Bool.eq_iff_iff, ← not_iff_not, Bool.not_eq_true, Bool.not_eq_true, disciplined_eq_false, disciplined_eq_false, h.bindsOf hr, hd]

theorem ends_waite_taken (h : agentNum who = some n) (hc : CanIssue s n pr [rd, ra] [])
    (hm : reg s n ra = 0 ∨ s.events n &&& reg s n ra ≠ 0) : Ends (.waite who pr rd ra) s fun t =>
    Wrote s t n rd (s.events n &&& reg s n ra) ∧
    (∀ i, i < 64 → (t.thr n).ev.getLsbD i = (((s.events n).getLsbD i && !(reg s n ra).getLsbD i) || sourceHolds s n i)) ∧
    t.thr n = { s.thr n with r := (t.thr n).r, ev := (t.thr n).ev, timer := timerLeft s n, pc := (s.thr n).pc + 1,
                             issued := (s.thr n).issued + 1 } ∧ OthersKept s t n ∧ RestKept s t := by
  obtain ⟨ho, hr⟩ := takeEvents_kept (othersKept_noteIssue s n) (restKept_noteIssue s n) (reg s n ra)
  obtain ⟨ev, hthr, hev⟩ := thr_takeEvents (s.noteIssue n) n (reg s n ra)
  rw [timerLeft_noteIssue, State.thr_noteIssue_self] at hthr
  have hi : (s.noteIssue n).insn n (.waite rd ra) =
      .ok ((s.noteIssue n).takeEvents n (reg s n ra)) [(rd, s.events n &&& reg s n ra)] [] := by
    rw [State.insn_waite, ← reg_noteIssue, ← events_noteIssue]
    exact if_pos (by rw [← reg_noteIssue, ← events_noteIssue] at hm; exact hm)
  refine ⟨_, exec_issued h hc (a := .waite rd ra) rfl (List.Subset.refl _) (List.Subset.refl _) rfl, ?_⟩
  rw [hi]
  refine ⟨wrote_of_thr ?_, fun i hi => ?_, ?_, ho.modThr _, hr.modThr n _⟩
  · rw [thr_apply_ok, hthr]
    rfl
  · rw [thr_apply_ok, hthr, ← events_noteIssue, ← sourceHolds_kept (othersKept_noteIssue s n) (restKept_noteIssue s n)]
    exact hev i hi
  · rw [thr_apply_ok, hthr]

/-- The state of a thread that has begun to wait. -/
def waitingState (s : State) (n : Nat) (mask : W64) (rd : BitVec 5) : State :=
  ((s.noteIssue n).timerFire n).modThr n fun t => { t with run := .waiting mask rd, ev := (s.noteIssue n).events n }

theorem waitingState_kept (s : State) (n : Nat) (mask : W64) (rd : BitVec 5) :
    OthersKept s (waitingState s n mask rd) n ∧ RestKept s (waitingState s n mask rd) := by
  obtain ⟨ho, hr⟩ := timerFire_kept (othersKept_noteIssue s n) (restKept_noteIssue s n)
  exact ⟨ho.modThr _, hr.modThr n _⟩

theorem thr_waitingState (s : State) (n : Nat) (mask : W64) (rd : BitVec 5) : (waitingState s n mask rd).thr n =
    { s.thr n with run := .waiting mask rd, ev := s.events n, timer := timerLeft s n, issued := (s.thr n).issued + 1 } := by
  rw [waitingState, State.thr_modThr_self, thr_timerFire, timerLeft_noteIssue, State.thr_noteIssue_self, events_noteIssue]

/-- An undisciplined wait of a worker is counted (R116). -/
def countWait (s : State) (n pc : Nat) : State :=
  (s.wr (Reg.waitUndisc (n / 128)) (s.rd (Reg.waitUndisc (n / 128)) + 1)).wr (Reg.waitUndiscLast (n / 128))
    (BitVec.ofNat 32 (n % 128 + 2 ^ 7 + pc % 2 ^ 13 * 2 ^ 8))

theorem thr_countWait (u : State) (n pc m : Nat) : (countWait u n pc).thr m = u.thr m :=
  State.thr_congr (by rw [countWait, State.wr_threads, State.wr_threads]) (by rw [countWait, State.wr_stewards, State.wr_stewards]) m
theorem stw_countWait (u : State) (n pc k : Nat) : (countWait u n pc).stw k = u.stw k :=
  State.stw_congr (by rw [countWait, State.wr_stewards, State.wr_stewards]) k
theorem restKept_countWait {s u : State} (h : RestKept s u) (n pc : Nat) : RestKept s (countWait u n pc) := by
  rw [RestKept, countWait, State.wr, State.wr]
  exact h

theorem exec_waite_waits (h : agentNum who = some n) (hc : CanIssue s n pr [rd, ra] []) (hm : reg s n ra ≠ 0)
    (hg : s.events n &&& reg s n ra = 0) : exec (.waite who pr rd ra) s = .next
      (if n < 2048 ∧ s.disciplined n (reg s n ra) = false then countWait (waitingState s n (reg s n ra) rd) n (s.thr n).pc
      else waitingState s n (reg s n ra) rd) := by
  obtain ⟨ho, hr⟩ := waitingState_kept s n (reg s n ra) rd
  have hd : (waitingState s n (reg s n ra) rd).disciplined n (reg s n ra) = s.disciplined n (reg s n ra) :=
    disciplined_kept ho hr (by rw [thr_waitingState]) _
  have hc' : ¬((((s.noteIssue n).thr n).r.get ra = 0) ∨ (s.noteIssue n).events n &&& ((s.noteIssue n).thr n).r.get ra ≠ 0) := by
    rw [events_noteIssue, State.thr_noteIssue_self]
    exact not_or.mpr ⟨hm, not_not.mpr hg⟩
  have hrun : (s.noteIssue n).runWaite n rd ra =
      if n < 2048 ∧ (!(waitingState s n (reg s n ra) rd).disciplined n (reg s n ra)) = true then
        .stay (countWait (waitingState s n (reg s n ra) rd) n (s.thr n).pc)
      else .stay (waitingState s n (reg s n ra) rd) := by
    rw [State.runWaite, if_neg hc', State.thr_noteIssue_self]
    rfl
  rw [exec_issued h hc (a := .waite rd ra) rfl (List.Subset.refl _) (List.Subset.refl _) rfl, State.insn_waite, hrun, hd]
  by_cases hs : n < 2048 ∧ s.disciplined n (reg s n ra) = false
  · rw [if_pos hs, if_pos ⟨hs.1, by rw [hs.2]; rfl⟩]
    rfl
  · rw [if_neg hs, if_neg (by rw [Bool.not_eq_true']; exact hs)]
    rfl

theorem ends_waite_waits (h : agentNum who = some n) (hc : CanIssue s n pr [rd, ra] []) (hm : reg s n ra ≠ 0)
    (hg : s.events n &&& reg s n ra = 0) :
    let silent := n < 2048 ∧ (∀ b ∈ s.bindsOf n, (reg s n ra).getLsbD b.bit = false) ∧
      ¬((reg s n ra).getLsbD 16 = true ∧ ∃ d, (s.thr n).timer = some d ∧ s.ictNs < d)
    Ends (.waite who pr rd ra) s fun t =>
      t.thr n = { s.thr n with run := .waiting (reg s n ra) rd, ev := s.events n, timer := timerLeft s n, issued := (s.thr n).issued + 1 } ∧
      (silent → t.rd (Reg.waitUndisc (n / 128)) = s.rd (Reg.waitUndisc (n / 128)) + 1 ∧
        t.rd (Reg.waitUndiscLast (n / 128)) = BitVec.ofNat 32 (n % 128 + 2 ^ 7 + (s.thr n).pc % 2 ^ 13 * 2 ^ 8)) ∧
      (∀ a, t.rd a = s.rd a ∨ (n < 2048 ∧ a = Reg.staleStatus (n / 128)) ∨
        (silent ∧ (a = Reg.waitUndisc (n / 128) ∨ a = Reg.waitUndiscLast (n / 128)))) ∧
      (∀ m, m ≠ n → t.thr m = s.thr m) ∧ (∀ k, { t.stw k with t := {} } = { s.stw k with t := {} }) ∧ RestKept s t := by
  intro silent
  obtain ⟨⟨hothers, hstw, hrd⟩, hr⟩ := waitingState_kept s n (reg s n ra) rd
  have hsilent : (n < 2048 ∧ s.disciplined n (reg s n ra) = false) ↔ silent := and_congr_right fun _ => disciplined_eq_false s n _
  refine ⟨_, exec_waite_waits h hc hm hg, ?_⟩
  by_cases hs : n < 2048 ∧ s.disciplined n (reg s n ra) = false
  · rw [if_pos hs]
    have hne : Reg.waitUndisc (n / 128) ≠ Reg.waitUndiscLast (n / 128) := by rw [Reg.waitUndisc, Reg.waitUndiscLast, ctlAddr, ctlAddr]; omega
    have hst : Reg.waitUndisc (n / 128) ≠ Reg.staleStatus (n / 128) := by rw [Reg.waitUndisc, Reg.staleStatus, ctlAddr, ctlAddr]; omega
    have hu : (waitingState s n (reg s n ra) rd).rd (Reg.waitUndisc (n / 128)) = s.rd (Reg.waitUndisc (n / 128)) :=
      (hrd _).resolve_left fun e => hst e.2
    refine ⟨(thr_countWait _ _ _ _).trans (thr_waitingState s n _ rd), fun _ => ⟨?_, ?_⟩, fun a => ?_,
      fun m hm => (thr_countWait _ _ _ _).trans (hothers m hm), fun k => by rw [stw_countWait]; exact hstw k,
      restKept_countWait hr _ _⟩
    · rw [countWait, State.rd_wr_ne _ _ hne, State.rd_wr_self, hu]
    · rw [countWait, State.rd_wr_self]
    · by_cases h1 : a = Reg.waitUndisc (n / 128)
      · exact .inr (.inr ⟨hsilent.mp hs, .inl h1⟩)
      by_cases h2 : a = Reg.waitUndiscLast (n / 128)
      · exact .inr (.inr ⟨hsilent.mp hs, .inr h2⟩)
      rw [countWait, State.rd_wr_ne _ _ h2, State.rd_wr_ne _ _ h1]
      exact (hrd a).symm.imp_right .inl
  · rw [if_neg hs]
    exact ⟨thr_waitingState s n _ rd, fun e => absurd (hsilent.mpr e) hs, fun a => (hrd a).symm.imp_right .inl, hothers, hstw, hr⟩

theorem exec_waiteWake (h : agentNum who = some n) (hs : s.stopped = false) : exec (.waiteWake who) s = .next (s.wake n) := by
  show execWaiteWake who s = _
  rw [execWaiteWake, hs, h]
  rfl

theorem ends_waiteWake {m : W64} {r : BitVec 5} (h : agentNum who = some n) (hs : s.stopped = false)
    (hw : (s.thr n).run = .waiting m r) (hg : s.events n &&& m ≠ 0) (hh : n < 2048 → (s.cluster (n / 128)).halted = false) :
    Ends (.waiteWake who) s fun t =>
      Wrote s t n r (s.events n &&& m) ∧
      (∀ i, i < 64 → (t.thr n).ev.getLsbD i = (((s.events n).getLsbD i && !m.getLsbD i) || sourceHolds s n i)) ∧
      t.thr n = { s.thr n with r := (t.thr n).r, ev := (t.thr n).ev, timer := timerLeft s n, pc := (s.thr n).pc + 1, run := .ready } ∧
      (∀ k, k ≠ n → t.thr k = s.thr k) ∧ (∀ k, { t.stw k with t := {} } = { s.stw k with t := {} }) ∧
      RestKept { s with regs := t.regs } t ∧ t.regs = s.regs := by
  obtain ⟨⟨hothers, hstw, -⟩, hr⟩ := takeEvents_kept (OthersKept.refl s n) (RestKept.refl s) m
  obtain ⟨ev, hthr, hev⟩ := thr_takeEvents s n m
  have hwake : s.wake n = (s.takeEvents n m).modThr n fun t =>
      { t with run := .ready, r := t.r.set r (s.events n &&& m), pc := t.pc + 1 } := by
    rw [State.wake, hw]
    exact if_neg (not_or.mpr ⟨hg, fun e => by simp [hh e.1] at e⟩)
  have hregs : (s.wake n).regs = s.regs := by
    rw [hwake, State.modThr_regs, State.takeEvents, State.modThr_regs, State.modThr_regs, State.timerFire]
    split
    · exact State.modThr_regs _ _ _
    · rfl
  refine ⟨_, exec_waiteWake h hs, ?_⟩
  refine ⟨wrote_of_thr ?_, fun i hi => ?_, ?_, fun k hk => ?_, fun k => ?_, ?_, hregs⟩
  · rw [hwake, State.thr_modThr_self, hthr]
  · rw [hwake, State.thr_modThr_self, hthr]
    exact hev i hi
  · rw [hwake, State.thr_modThr_self, hthr]
  · rw [hwake, State.thr_modThr, if_neg hk, hothers k hk]
  · rw [hwake]
    exact (State.stw_setThr _ _ _ _).trans (hstw k)
  · rw [hregs, hwake]
    exact hr.modThr n _

theorem exec_waiteWake_none {m : W64} {r : BitVec 5} (h : agentNum who = some n) (hw : (s.thr n).run = .waiting m r)
    (hg : s.events n &&& m = 0 ∨ (n < 2048 ∧ (s.cluster (n / 128)).halted = true)) : exec (.waiteWake who) s = .next s := by
  cases hs : s.stopped with
  | false =>
    rw [exec_waiteWake h hs, State.wake, hw]
    exact congrArg Host.Outcome.next (if_pos hg)
  | true =>
    show execWaiteWake who s = _
    rw [execWaiteWake, hs]
    rfl

end

/-! ### The delivery of signals (R88) -/

section
variable {src dst : Fin 2052} {s : State}

theorem exec_sigeDeliver_some {m : SigMsg} (hs : s.stopped = false)
    (hf : s.signals.find? (fun x => x.src = src.val && x.dst = dst.val) = some m) : exec (.sigeDeliver src dst) s =
      .next (if dst.val < 2048 ∧ (s.entryOf dst.val).parked = true then { s with signals := s.signals.erase m }
        else ({ s with signals := s.signals.erase m } : State).setEv dst.val (BitVec.ofNat 64 (2 ^ m.bit))) := by
  show execSigeDeliver src dst s = _
  rw [execSigeDeliver, hs, if_neg Bool.false_ne_true, hf]
  rfl

theorem exec_sigeDeliver_none (hs : s.stopped = false) (hf : ∀ x ∈ s.signals, ¬(x.src = src.val ∧ x.dst = dst.val)) :
    exec (.sigeDeliver src dst) s = .next s := by
  have hn : s.signals.find? (fun x => x.src = src.val && x.dst = dst.val) = none :=
    List.find?_eq_none.mpr fun x hx => by simpa using hf x hx
  show execSigeDeliver src dst s = _
  rw [execSigeDeliver, hs, if_neg Bool.false_ne_true, hn]

theorem ends_sigeDeliver {m : SigMsg} (hs : s.stopped = false)
    (hf : s.signals.find? (fun x => x.src = src.val && x.dst = dst.val) = some m) : Ends (.sigeDeliver src dst) s fun t =>
      t.signals = s.signals.erase m ∧
      t.thr dst.val = (if dst.val < 2048 ∧ (s.entryOf dst.val).parked = true then s.thr dst.val
        else { s.thr dst.val with ev := (s.thr dst.val).ev ||| BitVec.ofNat 64 (2 ^ m.bit) }) ∧
      (∀ k, k ≠ dst.val → t.thr k = s.thr k) ∧ (∀ a, t.rd a = s.rd a) ∧ RestKept { s with signals := t.signals } t := by
  refine ⟨_, exec_sigeDeliver_some hs hf, ?_⟩
  by_cases hp : dst.val < 2048 ∧ (s.entryOf dst.val).parked = true
  · rw [if_pos hp, if_pos hp]
    exact ⟨rfl, rfl, fun _ _ => rfl, fun _ => rfl, rfl⟩
  · rw [if_neg hp, if_neg hp]
    refine ⟨State.modThr_signals _ _ _, State.thr_modThr_self _ _ _, fun k hk => ?_, fun a => State.rd_congr (State.modThr_regs _ _ _) a, ?_⟩
    · rw [State.setEv, State.thr_modThr, if_neg hk]
      rfl
    · rw [State.setEv, State.modThr_signals]
      exact (RestKept.refl { s with signals := s.signals.erase m }).modThr _ _

end

/-- Settles O18: the instructions, WAITE and the delivery of signals by the lemmas above. A source that still holds sets its bit
again (R86). -/
theorem eventInstructions : Obligations.EventInstructions := by
  refine ⟨fun who n pr rd ra rb s h => ⟨fun hc => ?_, fun d hs ht hd => ?_, exec_timerFire_none h⟩, ?_, ?_⟩
  · exact ⟨raises_sige h hc, ends_sige h hc, ends_sett h hc, ends_clrt h hc, ends_evrd h hc⟩
  · have hdue : s.timerDue n = true := by
      rw [State.timerDue, ht]
      exact decide_eq_true hd
    refine ⟨_, exec_timerFire h hs, ?_, fun m hm => ?_, fun a => ?_, (timerFire_kept (OthersKept.refl s n) (RestKept.refl s)).2⟩
    · rw [thr_timerFire, timerLeft, firedEv, if_pos hdue, if_pos hdue]
    · exact (timerFire_kept (OthersKept.refl s n) (RestKept.refl s)).1.1 m hm
    · rw [State.timerFire, if_pos hdue]
      exact State.rd_congr (State.modThr_regs _ _ _) a
  · intro who n pr rd ra s h mask got taken silent
    exact ⟨fun hc hm => ends_waite_taken h hc hm, fun hc hm hg => ends_waite_waits h hc hm hg,
      fun m r hs hw hg hh => ends_waiteWake h hs hw hg hh, fun m r hw hg => exec_waiteWake_none h hw hg⟩
  · exact fun src dst s hs => ⟨fun m hf => ends_sigeDeliver hs hf, exec_sigeDeliver_none hs⟩

end Sys2Proof.Machine
end

section
/-! Proofs about the mailbox and work instructions (R41, R89, R90), and obligation O19. -/

namespace Sys2Proof.Machine

open Sys2Proof.Safety

/-! ### Mailboxes (R89) -/

section
variable (s : State)

theorem State.mbEnd_noteIssue (n m c : Nat) : (s.noteIssue n).mbEnd m c = s.mbEnd m c := by
  rw [(restKept_noteIssue s n).eq]
  rfl

theorem State.mbox_noteIssue (n c : Nat) : (s.noteIssue n).mbox c = s.mbox c := by
  rw [(restKept_noteIssue s n).eq]
  rfl

theorem State.mbox_setMbox (c : Nat) (b : Mbox) (d : Nat) : (s.setMbox c b).mbox d = if d = c then b else s.mbox d :=
  Tab.get_set _ _ _ _ _

theorem State.mbox_modThr (n : Nat) (g : Thread → Thread) (c : Nat) : (s.modThr n g).mbox c = s.mbox c := by
  rw [State.mbox, State.mbox, State.modThr_mboxes]

/-- A state that differs from the one after the issue in the mailboxes alone. -/
theorem mbox_kept (n c : Nat) (b : Mbox) : ((s.noteIssue n).setMbox c b).thr n = (s.noteIssue n).thr n ∧
    OthersKept s ((s.noteIssue n).setMbox c b) n ∧
    RestKept { s with mboxes := ((s.noteIssue n).setMbox c b).mboxes } ((s.noteIssue n).setMbox c b) :=
  ⟨State.thr_congr rfl rfl n, (othersKept_noteIssue s n).congr rfl rfl rfl,
    (congrArg (fun t : State => { t with mboxes := ((s.noteIssue n).setMbox c b).mboxes }) (restKept_noteIssue s n) :)⟩

end

/-- The outbound queue of an end and its count of open words; the inbound queue. -/
def Mbox.outQ (b : Mbox) (a : Bool) : List MbWord := if a then b.ab else b.ba
def Mbox.openN (b : Mbox) (a : Bool) : Nat := if a then b.openA else b.openB
def Mbox.inQ (b : Mbox) (a : Bool) : List MbWord := if a then b.ba else b.ab

theorem Mbox.inQ_eq_iff (b b' : Mbox) (a : Bool) : b'.inQ a = b.inQ a ↔ if a then b'.ba = b.ba else b'.ab = b.ab := by
  cases a <;> simp [Mbox.inQ]

theorem Mbox.post_full {b : Mbox} {a : Bool} (w : Nat) (fin : Bool) (h : 16 ≤ (b.outQ a).length ∨ 16 ≤ b.openN a) :
    b.post a w fin = none := if_pos h

theorem Mbox.post_some {b : Mbox} {a : Bool} (w : Nat) (fin : Bool) (hq : (b.outQ a).length < 16) (hn : b.openN a < 16) :
    ∃ b', b.post a w fin = some b' ∧ b'.outQ a = b.outQ a ++ [⟨w % 2 ^ 32, fin, false⟩] ∧
      b'.openN a = (if fin then 0 else b.openN a + 1) ∧ b'.inQ a = b.inQ a := by
  have hc : ¬(16 ≤ (b.outQ a).length ∨ 16 ≤ b.openN a) := by omega
  refine ⟨_, if_neg hc, ?_⟩
  cases a with
  | true => exact ⟨rfl, rfl, rfl⟩
  | false => exact ⟨rfl, rfl, rfl⟩

theorem Mbox.take_none {b : Mbox} {a : Bool} (h : b.inQ a = [] ∨ ∃ x r, b.inQ a = x :: r ∧ x.seen = false) : b.take a = none := by
  simp only [Mbox.inQ] at h
  rw [Mbox.take]
  rcases h with h | ⟨x, r, h, hs⟩
  · rw [h]
  · rw [h]
    simp [hs]

theorem Mbox.take_some {b : Mbox} {a : Bool} {x : MbWord} {r : List MbWord} (h : b.inQ a = x :: r) (hs : x.seen = true) :
    ∃ b', b.take a = some (x, b') ∧ b'.inQ a = r := by
  simp only [Mbox.inQ] at h
  rw [Mbox.take, h]
  simp only [hs, Bool.not_true, Bool.false_eq_true, if_false]
  cases a with
  | true => exact ⟨_, rfl, rfl⟩
  | false => exact ⟨_, rfl, rfl⟩

section
variable {who : Agent} {n : Nat} {pr : BitVec 3} {rd ra rb : BitVec 5} {pd pe : BitVec 3} {s : State}

theorem raises_mail_end (h : agentNum who = some n) (hc : CanIssue s n pr [rd, ra, rb] [pd, pe])
    (hm : s.mbEnd n (reg s n ra).toNat = none) : Raises (.post who pr ra rb) s n 5 0 ∧ Raises (.postEnd who pr ra rb) s n 5 0 ∧
      Raises (.take who pr rd ra pd pe) s n 5 0 := by
  have hm' : (s.noteIssue n).mbEnd n (((s.noteIssue n).thr n).r.get ra).toNat = none := by
    rw [State.mbEnd_noteIssue, State.thr_noteIssue_self]
    exact hm
  have hpost (fin : Bool) : (s.noteIssue n).insn n (.post fin ra rb) = .fault (s.noteIssue n) 5 0 := by
    rw [State.insn_post]
    simp only [State.runPost, hm']
  refine ⟨raises_of_fault (a := .post false ra rb) h hc rfl (by simp [Afv.regs]) (List.nil_subset _) rfl (hpost false),
    raises_of_fault (a := .post true ra rb) h hc rfl (by simp [Afv.regs]) (List.nil_subset _) rfl (hpost true),
    raises_of_fault (a := .take rd ra pd pe) h hc rfl (by simp [Afv.regs]) (List.Subset.refl _) rfl ?_⟩
  rw [State.insn_take]
  simp only [State.runTake, hm']

variable {a : Bool} (hm : s.mbEnd n (reg s n ra).toNat = some a)
include hm

theorem insn_post_end (fin : Bool) : (s.noteIssue n).insn n (.post fin ra rb) =
    match (s.mbox (reg s n ra).toNat).post a ((reg s n rb).toNat % 2 ^ 32) fin with
    | none => .fault (s.noteIssue n) 6 0
    | some b => .ok ((s.noteIssue n).setMbox (reg s n ra).toNat b) [] [] := by
  rw [← State.mbEnd_noteIssue s n, ← reg_noteIssue s n ra] at hm
  rw [← State.mbox_noteIssue s n, ← reg_noteIssue s n ra, ← reg_noteIssue s n rb, State.insn_post]
  rw [reg] at hm
  simp only [State.runPost, hm, State.mbPost, reg]
  cases ((s.noteIssue n).mbox (((s.noteIssue n).thr n).r.get ra).toNat).post a ((((s.noteIssue n).thr n).r.get rb).toNat % 2 ^ 32) fin <;>
    rfl

theorem raises_post_full (h : agentNum who = some n) (hc : CanIssue s n pr [rd, ra, rb] [pd, pe])
    (hf : 16 ≤ ((s.mbox (reg s n ra).toNat).outQ a).length ∨ 16 ≤ (s.mbox (reg s n ra).toNat).openN a) :
    Raises (.post who pr ra rb) s n 6 0 ∧ Raises (.postEnd who pr ra rb) s n 6 0 := by
  have hpost (fin : Bool) : (s.noteIssue n).insn n (.post fin ra rb) = .fault (s.noteIssue n) 6 0 := by
    rw [insn_post_end hm, Mbox.post_full _ _ hf]
  exact ⟨raises_of_fault (a := .post false ra rb) h hc rfl (by simp [Afv.regs]) (List.nil_subset _) rfl (hpost false),
    raises_of_fault (a := .post true ra rb) h hc rfl (by simp [Afv.regs]) (List.nil_subset _) rfl (hpost true)⟩

theorem ends_post (h : agentNum who = some n) (hc : CanIssue s n pr [rd, ra, rb] [pd, pe])
    (hq : ((s.mbox (reg s n ra).toNat).outQ a).length < 16) (hn : (s.mbox (reg s n ra).toNat).openN a < 16) (fin : Bool) :
    Ends (if fin then .postEnd who pr ra rb else .post who pr ra rb) s fun t =>
      (t.mbox (reg s n ra).toNat).outQ a =
        (s.mbox (reg s n ra).toNat).outQ a ++ [⟨(reg s n rb).toNat % 2 ^ 32, fin, false⟩] ∧
      (t.mbox (reg s n ra).toNat).openN a = (if fin then 0 else (s.mbox (reg s n ra).toNat).openN a + 1) ∧
      (t.mbox (reg s n ra).toNat).inQ a = (s.mbox (reg s n ra).toNat).inQ a ∧
      (∀ d, d ≠ (reg s n ra).toNat → t.mbox d = s.mbox d) ∧
      RegsKept s t n ∧ Advanced s t n ∧ OthersKept s t n ∧ RestKept { s with mboxes := t.mboxes } t := by
  obtain ⟨b, hb, hout, hopen, hin⟩ := Mbox.post_some (b := s.mbox (reg s n ra).toNat) ((reg s n rb).toNat % 2 ^ 32) fin hq hn
  rw [Nat.mod_mod] at hout
  have he : exec (if fin then .postEnd who pr ra rb else .post who pr ra rb) s = execAfv who pr (.post fin ra rb) s := by
    cases fin <;> rfl
  obtain ⟨hthr, ho, hr⟩ := mbox_kept s n (reg s n ra).toNat b
  obtain ⟨hregs, hadv⟩ := advanced_goesOn hthr
  refine ⟨_, exec_issued h hc he (by simp [Afv.regs]) (List.nil_subset _) rfl, ?_⟩
  rw [insn_post_end hm, hb, Res.apply_ok_nil]
  have hself : (goesOn ((s.noteIssue n).setMbox (reg s n ra).toNat b) n).mbox (reg s n ra).toNat = b := by
    rw [goesOn, State.mbox_modThr, State.mbox_setMbox, if_pos rfl]
  refine ⟨by rw [hself, hout], by rw [hself, hopen], by rw [hself, hin], fun d hd => ?_, hregs, hadv, ho.modThr _, ?_⟩
  · rw [goesOn, State.mbox_modThr, State.mbox_setMbox, if_neg hd, State.mbox_noteIssue]
  · rw [goesOn, State.modThr_mboxes]
    exact hr.modThr n _

theorem decides_take (h : agentNum who = some n) (hc : CanIssue s n pr [rd, ra, rb] [pd, pe])
    (hq : (s.mbox (reg s n ra).toNat).inQ a = [] ∨ ∃ x r, (s.mbox (reg s n ra).toNat).inQ a = x :: r ∧ x.seen = false) :
    Decides (.take who pr rd ra pd pe) s n fun p => if p = pd ∨ p = pe then false else pred s n p := by
  have hi : (s.noteIssue n).insn n (.take rd ra pd pe) = .ok (s.noteIssue n) [] [(pd, false), (pe, false)] := by
    have ht : (s.noteIssue n).mbTake (reg s n ra).toNat a = none := by
      rw [State.mbTake, State.mbox_noteIssue, Mbox.take_none hq]
    rw [← State.mbEnd_noteIssue s n, ← reg_noteIssue s n ra] at hm
    rw [← reg_noteIssue s n ra] at ht
    rw [reg] at hm ht
    rw [State.insn_take]
    simp only [State.runTake, hm, ht]
  refine decides_of_ok ((exec_issued h hc rfl (a := .take rd ra pd pe) (by simp [Afv.regs]) (List.Subset.refl _) rfl).trans (by rw [hi]))
    fun p => ?_
  simp only [Regs.writes, List.foldl_cons, List.foldl_nil, Regs.pred_setPred]
  by_cases h0 : p = 0
  · rw [if_pos h0, if_pos h0]
  · rw [if_neg h0, if_neg h0, if_neg h0]
    by_cases h1 : p = pe
    · rw [if_pos h1, if_pos (.inr h1)]
    · rw [if_neg h1]
      exact if_congr (by simp [h1]) rfl rfl

theorem ends_take {x y : MbWord} {r : List MbWord} (h : agentNum who = some n) (hc : CanIssue s n pr [rd, ra, rb] [pd, pe])
    (hq : (s.mbox (reg s n ra).toNat).inQ a = x :: y :: r) (hs : x.seen = true)
    (hch : ¬(16 ≤ (reg s n ra).toNat ∧ (reg s n ra).toNat < 32)) : Ends (.take who pr rd ra pd pe) s fun t =>
      (t.mbox (reg s n ra).toNat).inQ a = y :: r ∧ (∀ d, d ≠ (reg s n ra).toNat → t.mbox d = s.mbox d) ∧
      (∀ g, reg t n g = if g = 0 then 0 else if g = rd then BitVec.ofNat 64 x.word else reg s n g) ∧
      (∀ p, pred t n p = if p = 0 then true else if p = pe then x.fin else if p = pd then true else pred s n p) ∧
      Advanced s t n ∧ OthersKept s t n ∧ RestKept { s with mboxes := t.mboxes } t := by
  obtain ⟨b, hb, hin⟩ := Mbox.take_some hq hs
  obtain ⟨hthr, ho, hr⟩ := mbox_kept s n (reg s n ra).toNat b
  have hi : (s.noteIssue n).insn n (.take rd ra pd pe) =
      .ok ((s.noteIssue n).setMbox (reg s n ra).toNat b) [(rd, BitVec.ofNat 64 x.word)] [(pd, true), (pe, x.fin)] := by
    have he : (if a then b.ba else b.ab).isEmpty = false := by
      show (b.inQ a).isEmpty = false
      rw [hin]
      rfl
    have ht : (s.noteIssue n).mbTake (reg s n ra).toNat a = some (x, (s.noteIssue n).setMbox (reg s n ra).toNat b) := by
      rw [State.mbTake, State.mbox_noteIssue, hb]
      simp only [he, Bool.false_eq_true, if_false, if_neg hch]
    rw [← State.mbEnd_noteIssue s n, ← reg_noteIssue s n ra] at hm
    rw [← reg_noteIssue s n ra] at ht ⊢
    rw [reg] at hm ht ⊢
    rw [State.insn_take]
    simp only [State.runTake, hm, ht]
  refine ⟨_, exec_issued h hc rfl (a := .take rd ra pd pe) (by simp [Afv.regs]) (List.Subset.refl _) rfl, ?_⟩
  rw [hi]
  generalize hu : (s.noteIssue n).setMbox (reg s n ra).toNat b = u at hthr ho hr
  rw [State.thr_noteIssue_self] at hthr
  refine ⟨?_, fun d hd => ?_, fun g => ?_, fun p => ?_, ?_, ho.modThr _, ?_⟩
  · rw [Res.apply, State.mbox_modThr, ← hu, State.mbox_setMbox, if_pos rfl, hin]
  · rw [Res.apply, State.mbox_modThr, ← hu, State.mbox_setMbox, if_neg hd, State.mbox_noteIssue]
  · rw [reg, thr_apply_ok, hthr]
    simp only [Regs.writes, List.foldl_cons, List.foldl_nil, Regs.get_setPred, Regs.get_set]
    rfl
  · rw [pred, thr_apply_ok, hthr]
    simp only [Regs.writes, List.foldl_cons, List.foldl_nil, Regs.pred_setPred, Regs.pred_set]
    by_cases h0 : p = 0
    · rw [if_pos h0, if_pos h0]
    · rw [if_neg h0, if_neg h0, if_neg h0]
      rfl
  · simp [Advanced, Res.apply_ok_thr, hthr]
  · rw [Res.apply, State.modThr_mboxes]
    exact hr.modThr n _

end

/-! ### Work groups and dispositions (R90) -/

section
variable {who : Agent} {n : Nat} {pr : BitVec 3} {rd ra rb : BitVec 5} {pd : BitVec 3} {s : State}

theorem State.groupQ_noteIssue (s : State) (n g : Nat) : (s.noteIssue n).groupQ g = s.groupQ g := by
  rw [(restKept_noteIssue s n).eq]
  rfl

theorem State.groupQ_setGroupQ (s : State) (g : Nat) (q : List Nat) (k : Nat) :
    (s.setGroupQ g q).groupQ k = if k = g then q else s.groupQ k := Tab.get_set _ _ _ _ _

theorem State.bindsOf_noteIssue (s : State) (n m : Nat) : (s.noteIssue n).bindsOf m = s.bindsOf m :=
  (othersKept_noteIssue s n).bindsOf (restKept_noteIssue s n) m

/-- A group bound to the thread (R86). -/
def groupBound (s : State) (n g : Nat) : Bool := (s.bindsOf n).any fun b => b.type = 1 && b.index = g

theorem runGetw_noteIssue (s : State) (n : Nat) (rd ra : BitVec 5) (pd : BitVec 3) : (s.noteIssue n).runGetw n rd ra pd =
    if (s.thr n).held.isSome then .fault (s.noteIssue n) 8 0
    else if !groupBound s n (reg s n ra).toNat then .fault (s.noteIssue n) 9 0
    else match s.groupQ (reg s n ra).toNat with
      | [] => .ok (s.noteIssue n) [] [(pd, false)]
      | fid :: rest => .ok (((s.noteIssue n).setGroupQ (reg s n ra).toNat rest).modThr n fun t => { t with held := some fid })
          [(rd, Config.frameHandle fid)] [(pd, true)] := by
  rw [State.runGetw, State.thr_noteIssue_self, State.bindsOf_noteIssue, State.groupQ_noteIssue]
  rfl

theorem exec_getw (h : agentNum who = some n) (hc : CanIssue s n pr [rd, ra, rb] [pd]) :
    exec (.getw who pr rd ra pd) s = .next (((s.noteIssue n).runGetw n rd ra pd).apply n (s.thr n).pc) :=
  exec_issued (a := .getw rd ra pd) h hc rfl (by simp [Afv.regs]) (List.Subset.refl _) rfl

theorem raises_getw_held (h : agentNum who = some n) (hc : CanIssue s n pr [rd, ra, rb] [pd]) (hh : (s.thr n).held ≠ none) :
    Raises (.getw who pr rd ra pd) s n 8 0 := by
  rw [Raises, exec_getw h hc, runGetw_noteIssue, if_pos (Option.isSome_iff_ne_none.mpr hh)]
  rfl

variable (hh : (s.thr n).held = none)
include hh

theorem raises_getw_unbound (h : agentNum who = some n) (hc : CanIssue s n pr [rd, ra, rb] [pd])
    (hb : groupBound s n (reg s n ra).toNat = false) : Raises (.getw who pr rd ra pd) s n 9 0 := by
  rw [Raises, exec_getw h hc, runGetw_noteIssue, hh, hb]
  rfl

theorem decides_getw (h : agentNum who = some n) (hc : CanIssue s n pr [rd, ra, rb] [pd])
    (hb : groupBound s n (reg s n ra).toNat = true) (hq : s.groupQ (reg s n ra).toNat = []) :
    Decides (.getw who pr rd ra pd) s n fun p => if p = pd then false else pred s n p := by
  refine decides_of_ok (p := [(pd, false)]) ?_ fun p => Regs.pred_setPred _ _ _ p
  rw [exec_getw h hc, runGetw_noteIssue, hh, hb, hq]
  rfl

theorem ends_getw {fid : Nat} {rest : List Nat} (h : agentNum who = some n) (hc : CanIssue s n pr [rd, ra, rb] [pd])
    (hb : groupBound s n (reg s n ra).toNat = true) (hq : s.groupQ (reg s n ra).toNat = fid :: rest) :
    Ends (.getw who pr rd ra pd) s fun t =>
      t.groupQ (reg s n ra).toNat = rest ∧ (t.thr n).held = some fid ∧ (∀ k, k ≠ (reg s n ra).toNat → t.groupQ k = s.groupQ k) ∧
      (∀ r, reg t n r = if r = 0 then 0 else if r = rd then Config.frameHandle fid else reg s n r) ∧
      (∀ p, pred t n p = if p = 0 ∨ p = pd then true else pred s n p) ∧ (t.thr n).pc = (s.thr n).pc + 1 ∧
      OthersKept s t n ∧ RestKept { s with groups := t.groups } t := by
  generalize hu : (s.noteIssue n).setGroupQ (reg s n ra).toNat rest = u
  have hi : (s.noteIssue n).runGetw n rd ra pd =
      .ok (u.modThr n fun t => { t with held := some fid }) [(rd, Config.frameHandle fid)] [(pd, true)] := by
    rw [runGetw_noteIssue, hh, hb, hq, ← hu]
    rfl
  have hthr : u.thr n = (s.noteIssue n).thr n := State.thr_congr (by rw [← hu]; rfl) (by rw [← hu]; rfl) n
  have ho : OthersKept s u n := (othersKept_noteIssue s n).congr (by rw [← hu]; rfl) (by rw [← hu]; rfl) (by rw [← hu]; rfl)
  have hr : RestKept { s with groups := u.groups } u := by
    subst hu
    exact (congrArg (fun t : State => { t with groups := ((s.noteIssue n).setGroupQ (reg s n ra).toNat rest).groups })
      (restKept_noteIssue s n) :)
  have hg (v : State) (g : Thread → Thread) (k : Nat) : (v.modThr n g).groupQ k = v.groupQ k := by
    rw [State.groupQ, State.groupQ, State.modThr_groups]
  rw [State.thr_noteIssue_self] at hthr
  refine ⟨_, exec_getw h hc, ?_⟩
  rw [hi]
  refine ⟨?_, ?_, fun k hk => ?_, fun r => ?_, fun p => ?_, ?_, (ho.modThr _).modThr _, ?_⟩
  · rw [Res.apply, hg, hg, ← hu, State.groupQ_setGroupQ, if_pos rfl]
  · rw [thr_apply_ok, State.thr_modThr_self]
  · rw [Res.apply, hg, hg, ← hu, State.groupQ_setGroupQ, if_neg hk, State.groupQ_noteIssue]
  · rw [reg, thr_apply_ok, State.thr_modThr_self, hthr]
    simp only [Regs.writes, List.foldl_cons, List.foldl_nil, Regs.get_setPred, Regs.get_set]
    rfl
  · rw [pred, thr_apply_ok, State.thr_modThr_self, hthr]
    simp only [Regs.writes, List.foldl_cons, List.foldl_nil, Regs.pred_setPred, Regs.pred_set]
    by_cases h0 : p = 0
    · rw [if_pos h0, if_pos (.inl h0)]
    · rw [if_neg h0]
      exact if_congr ⟨.inr, fun e => e.resolve_left h0⟩ rfl rfl
  · rw [thr_apply_ok, State.thr_modThr_self, hthr]
  · rw [Res.apply, State.modThr_groups, State.modThr_groups]
    exact (hr.modThr n _).modThr n _

end

section
variable {who : Agent} {n : Nat} {pr : BitVec 3} {rs : List (BitVec 5)} {ps : List (BitVec 3)} {s : State} {c : Instr} {a : Afv}
  {go : State → Nat → State}

theorem raises_disp (h : agentNum who = some n) (hc : CanIssue s n pr rs ps) (he : exec c s = execAfv who pr a s)
    (hr : a.regs ⊆ rs) (hp : a.preds ⊆ ps) (hroom : s.roomFor n a = true) (hi : (s.noteIssue n).insn n a = (s.noteIssue n).runDisp n go)
    (hh : (s.thr n).held = none) : Raises c s n 8 0 := by
  refine raises_of_fault h hc he hr hp hroom (hi.trans ?_)
  simp only [State.runDisp, State.thr_noteIssue_self, hh]

/-- A disposition takes the satchel from the thread, which goes on. -/
theorem exec_disp {fid : Nat} (h : agentNum who = some n) (hc : CanIssue s n pr rs ps) (he : exec c s = execAfv who pr a s)
    (hr : a.regs ⊆ rs) (hp : a.preds ⊆ ps) (hroom : s.roomFor n a = true) (hi : (s.noteIssue n).insn n a = (s.noteIssue n).runDisp n go)
    (hh : (s.thr n).held = some fid) :
    exec c s = .next (goesOn (go ((s.noteIssue n).modThr n fun t => { t with held := none }) fid).settle n) := by
  rw [exec_issued h hc he hr hp hroom, hi]
  simp only [State.runDisp, State.thr_noteIssue_self, hh, Res.apply_ok_nil]

theorem insn_dispGroup_none {ra : BitVec 5} (hh : (s.thr n).held = none) :
    (s.noteIssue n).insn n (.dispGroup ra) = .fault (s.noteIssue n) 8 0 := by
  rw [State.insn_dispGroup, State.runDispGroup, State.thr_noteIssue_self]
  simp only [hh, Option.isNone_none, if_true]

theorem insn_dispGroup_bad {ra : BitVec 5} (hh : (s.thr n).held ≠ none) (hg : 255 < (reg s n ra).toNat) :
    (s.noteIssue n).insn n (.dispGroup ra) = .fault (s.noteIssue n) 9 0 := by
  rw [State.insn_dispGroup, State.runDispGroup, State.thr_noteIssue_self, if_neg (by simpa using hh)]
  exact if_pos hg

theorem insn_dispGroup {ra : BitVec 5} (hh : (s.thr n).held ≠ none) (hg : (reg s n ra).toNat ≤ 255) :
    (s.noteIssue n).insn n (.dispGroup ra) =
      (s.noteIssue n).runDisp n fun s' fid => (s'.leaveWindow fid).toGroup (reg s n ra).toNat fid := by
  rw [State.insn_dispGroup, State.runDispGroup, State.thr_noteIssue_self, if_neg (by simpa using hh)]
  exact if_neg (Nat.not_lt.mpr hg)

end

/-! ### NEWS (R41, R90) -/

section
variable (f : Frame) {x y : SatField} (v : Nat)

theorem Frame.gf_sf_same (hw : x.w < 16) (hn : x.lo + x.n ≤ 32) : (f.sf x v).gf x = v % 2 ^ x.n := by
  rw [Frame.gf_eq, Frame.sf_eq _ _ _ hn, Frame.word_setWord _ hw, if_pos rfl, BitVec.toNat_ofNat,
    Nat.mod_eq_of_lt (setFld_lt _ _ _ _ 32 (BitVec.isLt _) hn), fld_setFld]

theorem Frame.gf_sf_apart (hw : x.w < 16) (hn : x.lo + x.n ≤ 32) (h : y.w ≠ x.w ∨ y.lo + y.n ≤ x.lo ∨ x.lo + x.n ≤ y.lo) :
    (f.sf x v).gf y = f.gf y := by
  rw [Frame.gf_eq, Frame.gf_eq, Frame.sf_eq _ _ _ hn, Frame.word_setWord _ hw]
  by_cases he : y.w = x.w
  · rw [if_pos he, BitVec.toNat_ofNat, Nat.mod_eq_of_lt (setFld_lt _ _ _ _ 32 (BitVec.isLt _) hn),
      fld_setFld_ne _ _ _ _ _ _ (h.resolve_left fun e => e he), he]
  · rw [if_neg he]

end

theorem Frame.gf_setWord_apart (f : Frame) {k : Nat} (hk : k < 16) (v : W32) {y : SatField} (h : y.w ≠ k) :
    (f.setWord k v).gf y = f.gf y := by
  rw [Frame.gf_eq, Frame.gf_eq, Frame.word_setWord _ hk, if_neg h]

@[simp] theorem Frame.data_sf (f : Frame) (x : SatField) (v : Nat) : (f.sf x v).data = f.data := rfl
@[simp] theorem Frame.data_setWord (f : Frame) (k : Nat) (v : W32) : (f.setWord k v).data = f.data := rfl

/-- The satchel that an attach point makes (R41). -/
def attachedFrame (s : State) (src inst ts seq : Nat) (data : List Byte) : Frame :=
  (((((((((((((({ data := data } : Frame).sf sfInstance inst).sf sfInstGen (s.inst inst).gen).sf sfFmtGen (s.rf Reg.fmtGen fmtGen_CUR)).sf sfSvc
    (if s.rf Reg.flowClass0 flowClass0_VALID = 1 then s.rf Reg.flowClass0 flowClass0_SVC else 0)).sf sfSrc src).sf sfDst 0x3FF).sf
    sfTsLo ts).sf sfTsHi (ts / 2 ^ 32)).sf sfSeq seq).sf sfLen data.length).sf sfNextHop 0xFFFF).sf sfCtx 0xFFFFF).setWord 10 0xFFFFFFFF)

theorem State.attach_eq (s : State) (src inst ts k : Nat) (data : List Byte) : s.attach src inst ts k data =
    (s.nextSeq k).1.newFrame (attachedFrame (s.nextSeq k).1 src inst ts (s.nextSeq k).2 data) := by
  rw [State.attach, attachedFrame]
  rfl

/-- Its bytes, and the fields that say where they come from. -/
theorem attachedFrame_fields (s : State) (src inst ts seq : Nat) (data : List Byte) :
    let f := attachedFrame s src inst ts seq data
    f.data = data ∧ f.gf sfLen = data.length % 2 ^ 16 ∧ f.gf sfSrc = src % 2 ^ 10 ∧ f.gf sfInstance = inst % 2 ^ 12 ∧ f.gf sfExc = 0 := by
  intro f
  have h0 : ({ data := data } : Frame).gf sfExc = 0 := congrArg (fld · 28 1) (by decide : satWord (Vector.replicate 16 0) 2 = 0)
  refine ⟨rfl, ?_, ?_, ?_, ?_⟩
  · simp (disch := decide) only [f, attachedFrame, Frame.gf_setWord_apart, Frame.gf_sf_same, Frame.gf_sf_apart]
  · simp (disch := decide) only [f, attachedFrame, Frame.gf_setWord_apart, Frame.gf_sf_same, Frame.gf_sf_apart]
  · simp (disch := decide) only [f, attachedFrame, Frame.gf_setWord_apart, Frame.gf_sf_same, Frame.gf_sf_apart]
  · simp (disch := decide) only [f, attachedFrame, Frame.gf_setWord_apart, Frame.gf_sf_apart, h0]

/-- A new frame takes the next number; the others stay. -/
theorem State.attach_frame (s : State) (src inst ts k : Nat) (data : List Byte) :
    (s.attach src inst ts k data).2 = s.nextFrame ∧ (s.attach src inst ts k data).1.nextFrame = s.nextFrame + 1 ∧
    ∀ j, (s.attach src inst ts k data).1.frame j =
      if j = s.nextFrame then attachedFrame (s.nextSeq k).1 src inst ts (s.nextSeq k).2 data else s.frame j := by
  rw [State.attach_eq]
  exact ⟨rfl, rfl, fun j => Tab.get_put _ _ _ _ _⟩

/-- What an attach point leaves alone. -/
theorem State.attach_kept (s : State) (src inst ts k : Nat) (data : List Byte) :
    (s.attach src inst ts k data).1.threads = s.threads ∧ (s.attach src inst ts k data).1.stewards = s.stewards ∧
    (s.attach src inst ts k data).1.regs = s.regs ∧ (s.attach src inst ts k data).1.mem = s.mem := by
  rw [State.attach_eq]
  exact ⟨rfl, rfl, rfl, rfl⟩

section
variable {who : Agent} {n : Nat} {pr : BitVec 3} {rd ra rb : BitVec 5} {ps : List (BitVec 3)} {s : State}

theorem raises_news_length (h : agentNum who = some n) (hc : CanIssue s n pr [rd, ra, rb] ps)
    (hl : (reg s n rb).toNat = 0 ∨ 65535 < (reg s n rb).toNat) : Raises (.news who pr rd ra rb) s n 1 0 := by
  refine raises_of_fault (a := .news rd ra rb) h hc rfl (List.Subset.refl _) (List.nil_subset _) rfl ?_
  rw [State.insn_news, State.runNews, State.thr_noteIssue_self]
  exact if_pos hl

theorem runNews_noteIssue (hl : (reg s n rb).toNat ≠ 0) (hl' : (reg s n rb).toNat ≤ 65535) :
    (s.noteIssue n).runNews n rd ra rb =
      if (s.thr n).held.isSome then .fault (s.noteIssue n) 8 0
      else match firstReserved (reg s n ra).toNat (reg s n rb).toNat with
        | some x => .fault (s.noteIssue n) 4 x
        | none =>
          let r := (s.noteIssue n).attach (agentEnd n) 0 (s.noteIssue n).ictHalf (if n < 2048 then 200 + n / 128 else 216)
            ((s.noteIssue n).ldBytes (reg s n ra).toNat (reg s n rb).toNat)
          .ok (r.1.modThr n fun t => { t with held := some r.2 }) [(rd, Config.frameHandle r.2)] [] := by
  have hc : ¬((reg s n rb).toNat = 0 ∨ 65535 < (reg s n rb).toNat) := by omega
  rw [State.runNews, State.thr_noteIssue_self]
  exact if_neg hc

theorem exec_news (h : agentNum who = some n) (hc : CanIssue s n pr [rd, ra, rb] ps) :
    exec (.news who pr rd ra rb) s = .next (((s.noteIssue n).runNews n rd ra rb).apply n (s.thr n).pc) :=
  exec_issued (a := .news rd ra rb) h hc rfl (List.Subset.refl _) (List.nil_subset _) rfl

theorem raises_news_held (h : agentNum who = some n) (hc : CanIssue s n pr [rd, ra, rb] ps) (hh : (s.thr n).held ≠ none)
    (hl : (reg s n rb).toNat ≠ 0) (hl' : (reg s n rb).toNat ≤ 65535) : Raises (.news who pr rd ra rb) s n 8 0 := by
  rw [Raises, exec_news h hc, runNews_noteIssue hl hl', if_pos (Option.isSome_iff_ne_none.mpr hh)]
  rfl

theorem raises_news_reserved {x : Nat} (h : agentNum who = some n) (hc : CanIssue s n pr [rd, ra, rb] ps) (hh : (s.thr n).held = none)
    (hl : (reg s n rb).toNat ≠ 0) (hl' : (reg s n rb).toNat ≤ 65535)
    (hf : firstReserved (reg s n ra).toNat (reg s n rb).toNat = some x) : Raises (.news who pr rd ra rb) s n 4 x := by
  rw [Raises, exec_news h hc, runNews_noteIssue hl hl', hh, hf]
  rfl

theorem agentEnd_mod (n : Nat) : agentEnd n % 2 ^ 10 = if n < 2048 then 0x110 + n / 128 else 0x120 := by
  rw [agentEnd, epSteward]
  split <;> omega

theorem State.ldBytes_congr {s t : State} (h : t.mem = s.mem) (a n : Nat) : t.ldBytes a n = s.ldBytes a n := by
  induction n generalizing a with
  | zero => rfl
  | succ n ih => rw [State.ldBytes, State.ldBytes, ih, State.ldByte_congr h]

theorem ends_news (h : agentNum who = some n) (hc : CanIssue s n pr [rd, ra, rb] ps) (hh : (s.thr n).held = none)
    (hl : (reg s n rb).toNat ≠ 0) (hl' : (reg s n rb).toNat ≤ 65535)
    (hf : firstReserved (reg s n ra).toNat (reg s n rb).toNat = none) : Ends (.news who pr rd ra rb) s fun t =>
      (t.thr n).held = some s.nextFrame ∧ (t.frame s.nextFrame).data = s.ldBytes (reg s n ra).toNat (reg s n rb).toNat ∧
      (t.frame s.nextFrame).gf sfLen = (reg s n rb).toNat ∧
      (t.frame s.nextFrame).gf sfSrc = (if n < 2048 then 0x110 + n / 128 else 0x120) ∧
      (t.frame s.nextFrame).gf sfInstance = 0 ∧ (t.frame s.nextFrame).gf sfExc = 0 ∧
      (∀ k, k ≠ s.nextFrame → t.frame k = s.frame k) ∧ t.nextFrame = s.nextFrame + 1 ∧
      Wrote s t n rd (Config.frameHandle s.nextFrame) ∧ (t.thr n).pc = (s.thr n).pc + 1 ∧ OthersKept s t n ∧ t.mem = s.mem := by
  have hkept := restKept_noteIssue s n
  have hnext : (s.noteIssue n).nextFrame = s.nextFrame := (congrArg State.nextFrame hkept :)
  have hmem : (s.noteIssue n).mem = s.mem := (congrArg State.mem hkept :)
  generalize hr : (s.noteIssue n).attach (agentEnd n) 0 (s.noteIssue n).ictHalf (if n < 2048 then 200 + n / 128 else 216)
    ((s.noteIssue n).ldBytes (reg s n ra).toNat (reg s n rb).toNat) = r
  obtain ⟨hid, hnf, hframe⟩ := (s.noteIssue n).attach_frame (agentEnd n) 0 (s.noteIssue n).ictHalf
    (if n < 2048 then 200 + n / 128 else 216) ((s.noteIssue n).ldBytes (reg s n ra).toNat (reg s n rb).toNat)
  obtain ⟨hth, hst, hrg, hme⟩ := (s.noteIssue n).attach_kept (agentEnd n) 0 (s.noteIssue n).ictHalf
    (if n < 2048 then 200 + n / 128 else 216) ((s.noteIssue n).ldBytes (reg s n ra).toNat (reg s n rb).toNat)
  rw [hr, hnext] at hid hnf
  rw [hr] at hframe hth hst hrg hme
  have hthr : r.1.thr n = { s.thr n with issued := (s.thr n).issued + 1 } := by
    rw [← State.thr_noteIssue_self]
    exact State.thr_congr hth hst n
  have ho : OthersKept s r.1 n := (othersKept_noteIssue s n).congr hth hst hrg
  have hself := (hframe s.nextFrame).trans (if_pos hnext.symm)
  have hne {j : Nat} (hj : j ≠ s.nextFrame) : r.1.frame j = s.frame j := by
    rw [hframe, hnext, if_neg hj, State.frame_noteIssue]
  obtain ⟨hdata, hlen, hsrc, hinst, hexc⟩ := attachedFrame_fields ((s.noteIssue n).nextSeq (if n < 2048 then 200 + n / 128 else 216)).1
    (agentEnd n) 0 (s.noteIssue n).ictHalf ((s.noteIssue n).nextSeq (if n < 2048 then 200 + n / 128 else 216)).2
    ((s.noteIssue n).ldBytes (reg s n ra).toNat (reg s n rb).toNat)
  rw [← hself] at hdata hlen hsrc hinst hexc
  have hfr (g : Thread → Thread) (v : State) (j : Nat) : (v.modThr n g).frame j = v.frame j := State.frame_congr (State.modThr_frames _ _ _) j
  refine ⟨_, exec_news h hc, ?_⟩
  rw [runNews_noteIssue hl hl', hh, hf]
  simp only [hr, hid, Option.isSome_none, Bool.false_eq_true, if_false]
  refine ⟨?_, ?_, ?_, ?_, ?_, ?_, fun k hk => ?_, ?_, wrote_of_thr ?_, ?_, (ho.modThr _).modThr _, ?_⟩
  · rw [thr_apply_ok, State.thr_modThr_self]
  · rw [Res.apply, hfr, hfr, hdata, State.ldBytes_congr hmem]
  · rw [Res.apply, hfr, hfr, hlen, State.ldBytes_length, Nat.mod_eq_of_lt (by omega)]
  · rw [Res.apply, hfr, hfr, hsrc, agentEnd_mod]
  · rw [Res.apply, hfr, hfr, hinst]
    rfl
  · rw [Res.apply, hfr, hfr, hexc]
  · rw [Res.apply, hfr, hfr, hne hk]
  · rw [Res.apply, State.modThr_nextFrame, State.modThr_nextFrame, hnf]
  · rw [thr_apply_ok, State.thr_modThr_self, hthr]
    rfl
  · rw [thr_apply_ok, State.thr_modThr_self, hthr]
  · rw [Res.apply, State.modThr_mem, State.modThr_mem]
    exact hme.trans hmem

end

/-- Settles O19: mailboxes by `Mbox.post` and `Mbox.take`, the work instructions by their cases. TAKE with pd = pe writes pe last
(the model's choice, log entry 137); the handle of a satchel is log entry 39. -/
theorem mailInstructions : Obligations.MailInstructions := by
  refine ⟨fun who n pr rd ra rb pd pe s h hc => ⟨raises_mail_end h hc, fun a hm => ?_⟩, fun who n pr rd ra rb pd s h hc => ?_⟩
  · refine ⟨raises_post_full hm h hc, fun hq hn fin => ?_, decides_take hm h hc, fun x y r hq hs hch => ends_take hm h hc hq hs hch⟩
    obtain ⟨t, he, hout, hopen, hin, hrest⟩ := ends_post hm h hc hq hn fin
    exact ⟨t, he, hout, hopen, (Mbox.inQ_eq_iff _ _ a).mp hin, hrest⟩
  · intro g len bound drop
    refine ⟨fun hh => ⟨raises_getw_held h hc hh, fun hl hl' => raises_news_held h hc hh hl hl'⟩,
      fun hh hb => raises_getw_unbound hh h hc hb, fun hh hb hq => decides_getw hh h hc hb hq,
      fun fid rest hh hb hq => ends_getw hh h hc hb hq, fun hh => ⟨?_, ?_, ?_⟩, fun fid hh => ⟨?_, ?_, fun hg => ?_, fun hg => ?_⟩,
      raises_news_length h hc, fun hh hl hl' => ⟨fun x hf => raises_news_reserved h hc hh (by omega) hl' hf,
        ends_news h hc hh (by omega) hl'⟩⟩
    · exact raises_disp (a := .dispCont) (go := fun s fid => s.dispContinue (agentEnd n) fid) h hc rfl
        (List.nil_subset _) (List.nil_subset _) rfl (State.insn_dispCont _ _) hh
    · exact raises_disp (a := .dispDrop) (go := fun s fid => s.discard fid) h hc rfl (List.nil_subset _) (List.nil_subset _) rfl (State.insn_dispDrop _ _) hh
    · exact raises_of_fault (a := .dispGroup ra) h hc rfl (by simp [Afv.regs]) (List.nil_subset _) rfl (insn_dispGroup_none hh)
    · exact exec_disp (a := .dispCont) (go := fun s fid => s.dispContinue (agentEnd n) fid) h hc rfl
        (List.nil_subset _) (List.nil_subset _) rfl (State.insn_dispCont _ _) hh
    · exact exec_disp (a := .dispDrop) (go := fun s fid => s.discard fid) h hc rfl (List.nil_subset _) (List.nil_subset _) rfl (State.insn_dispDrop _ _) hh
    · exact raises_of_fault (a := .dispGroup ra) h hc rfl (by simp [Afv.regs]) (List.nil_subset _) rfl
        (insn_dispGroup_bad (by simp [hh]) hg)
    · exact exec_disp (a := .dispGroup ra) (go := fun s' fid => (s'.leaveWindow fid).toGroup (reg s n ra).toNat fid) h hc rfl
        (by simp [Afv.regs]) (List.nil_subset _) rfl (insn_dispGroup (by simp [hh]) hg) hh

end Sys2Proof.Machine
end

section
/-! The privileged instructions, the restart of threads, and the crypto queues. -/

namespace Sys2Proof.Machine

open Sys2Proof.Safety

/-! ### What a change of a steward leaves alone -/

section
variable {s u : State} {n k : Nat}

theorem State.thr_setStw (s : State) (k : Nat) (x : Steward) (m : Nat) :
    (s.setStw k x).thr m = if m = 2048 + k then x.t else s.thr m := by
  by_cases hm : m < 2048
  · rw [State.thr, State.thr, if_pos hm, if_pos hm, if_neg (by omega), State.setStw_threads]
  · have hk : m - 2048 = k ↔ m = 2048 + k := by omega
    rw [State.thr, if_neg hm, State.thr, if_neg hm]
    change ((s.setStw k x).stw (m - 2048)).t = _
    rw [State.stw_setStw, apply_ite Steward.t]
    exact if_congr hk rfl rfl

/-- A steward's thread is part of the steward. -/
theorem State.stw_t (s : State) (hn : 2048 ≤ n) : (s.stw (n - 2048)).t = s.thr n := by
  rw [State.thr, if_neg (by omega)]
  rfl

/-- A steward is its thread and the rest. -/
theorem State.stw_eq_of_thr {t : State} (ht : t.thr (2048 + k) = s.thr (2048 + k))
    (hs : { t.stw k with t := {} } = { s.stw k with t := {} }) : t.stw k = s.stw k := by
  have hk : 2048 + k - 2048 = k := by omega
  rw [← t.stw_t (by omega), ← s.stw_t (by omega), hk] at ht
  calc t.stw k = { s.stw k with t := (t.stw k).t } := (congrArg (fun y : Steward => { y with t := (t.stw k).t }) hs :)
    _ = s.stw k := by rw [ht]

/-- The count of an issue changes a steward in its thread alone. -/
theorem State.stw_noteIssue (s : State) (n k : Nat) :
    (s.noteIssue n).stw k = { s.stw k with t := ((s.noteIssue n).stw k).t } :=
  (congrArg (fun x : Steward => { x with t := ((s.noteIssue n).stw k).t }) (s.noteIssue_stw n k) :)

/-- What does not read the thread of a steward reads the same after the issue has been counted. -/
theorem State.stw_noteIssue_apply {α : Type} (g : Steward → α) (hg : ∀ (x : Steward) (t : Thread), g { x with t := t } = g x)
    (s : State) (n k : Nat) : g ((s.noteIssue n).stw k) = g (s.stw k) := by
  rw [State.stw_noteIssue, hg]

end

/-! ### SYSR and SYSW (R91; logs 41 and 42) -/

section
variable {who : Agent} {n : Nat} {pr : BitVec 3} {rd ra rb : BitVec 5} {s : State}

theorem exec_sysr (h : agentNum who = some n) (hc : CanIssue s n pr [rd, ra, rb] []) :
    exec (.sysr who pr rd ra) s = .next (((s.noteIssue n).runSysr n rd ra).apply n (s.thr n).pc) :=
  exec_issued (a := .sysr rd ra) h hc rfl (by simp [Afv.regs]) (List.nil_subset _) rfl

theorem exec_sysw {c : Instr} (he : exec c s = execAfv who pr (.sysw ra rb) s) (h : agentNum who = some n)
    (hc : CanIssue s n pr [rd, ra, rb] []) :
    exec c s = .next (((s.noteIssue n).runSysw n ra rb).apply n (s.thr n).pc) :=
  exec_issued (a := .sysw ra rb) h hc he (by simp [Afv.regs]) (List.nil_subset _) rfl

/-- The registers that every thread reads. -/
theorem computes_sysr_any {v : W64} (h : agentNum who = some n) (hc : CanIssue s n pr [rd, ra, rb] [])
    (hv : (s.noteIssue n).runSysr n rd ra = .ok (s.noteIssue n) [(rd, v)] []) : Computes (.sysr who pr rd ra) s n rd v :=
  computes_of_ok (by rw [exec_sysr h hc, hv])

theorem State.runSysr_worker (hn : n < 2048) (hi : 0x10 ≤ (reg s n ra).toNat) :
    (s.noteIssue n).runSysr n rd ra = .fault (s.noteIssue n) 2 0 := by
  have hr : ((s.noteIssue n).thr n).r.get ra = reg s n ra := by rw [State.thr_noteIssue_self]; rfl
  rw [State.runSysr, hr, if_neg (by omega), if_neg (by omega), if_neg (by omega), if_neg (by omega), if_pos hn]

theorem State.runSysr_steward {v : W64} (hn : 2048 ≤ n) (hi : 0x10 ≤ (reg s n ra).toNat)
    (hv : (s.stw (n - 2048)).sysr (reg s n ra).toNat = some v) :
    (s.noteIssue n).runSysr n rd ra = .ok (s.noteIssue n) [(rd, v)] [] := by
  have hr : ((s.noteIssue n).thr n).r.get ra = reg s n ra := by rw [State.thr_noteIssue_self]; rfl
  have hx := State.stw_noteIssue_apply (fun x => x.sysr (reg s n ra).toNat) (fun _ _ => rfl) s n (n - 2048)
  rw [State.runSysr, hr, if_neg (by omega), if_neg (by omega), if_neg (by omega), if_neg (by omega), if_neg (by omega)]
  simp only [hx, hv]

theorem State.runSysr_steward_none (hn : 2048 ≤ n) (hi : 0x10 ≤ (reg s n ra).toNat)
    (hv : (s.stw (n - 2048)).sysr (reg s n ra).toNat = none) :
    (s.noteIssue n).runSysr n rd ra = .fault (s.noteIssue n) 1 0 := by
  have hr : ((s.noteIssue n).thr n).r.get ra = reg s n ra := by rw [State.thr_noteIssue_self]; rfl
  have hx := State.stw_noteIssue_apply (fun x => x.sysr (reg s n ra).toNat) (fun _ _ => rfl) s n (n - 2048)
  rw [State.runSysr, hr, if_neg (by omega), if_neg (by omega), if_neg (by omega), if_neg (by omega), if_neg (by omega)]
  simp only [hx, hv]

theorem computes_sysr {v : W64} (h : agentNum who = some n) (hc : CanIssue s n pr [rd, ra, rb] []) (hn : 2048 ≤ n)
    (hi : 0x10 ≤ (reg s n ra).toNat) (hv : (s.stw (n - 2048)).sysr (reg s n ra).toNat = some v) :
    Computes (.sysr who pr rd ra) s n rd v :=
  computes_sysr_any h hc (State.runSysr_steward hn hi hv)

theorem raises_sysr {code : Nat} (h : agentNum who = some n) (hc : CanIssue s n pr [rd, ra, rb] [])
    (hv : (s.noteIssue n).runSysr n rd ra = .fault (s.noteIssue n) code 0) : Raises (.sysr who pr rd ra) s n code 0 := by
  rw [Raises, exec_sysr h hc, hv]
  rfl

/-- The registers that no steward has. -/
theorem Steward.sysr_unassigned (x : Steward) {i : Nat} (ha : ¬(i ≤ 0x15 ∨ i = 0x20 ∨ (0x51 ≤ i ∧ i ≤ 0x7F))) :
    x.sysr i = none := by
  rw [Steward.sysr, if_neg (by omega), if_neg (by omega), if_neg (by omega), if_neg (by omega), if_neg (by omega),
    if_neg (by omega), if_neg (by omega), if_neg (by omega)]

theorem Steward.sysw_unassigned (x : Steward) {i : Nat} (v : W64)
    (ha : ¬(i ≤ 0x15 ∨ i = 0x20 ∨ (0x51 ≤ i ∧ i ≤ 0x7F))) : x.sysw i v = none := by
  rw [Steward.sysw, if_neg (by omega), if_neg (by omega), if_neg (by omega), if_neg (by omega), if_neg (by omega),
    if_neg (by omega), if_neg (by omega), if_neg (by omega)]

/-- EVBIND: a source that exists is bound (log 42: the bits as written). -/
theorem Steward.sysw_evbind (x : Steward) {i : Nat} (v : W64) (hi : 0x51 ≤ i) (hi' : i ≤ 0x7F) :
    x.sysw i v = some (if bindOk (fld v.toNat 6 4) (fld v.toNat 10 16) then
      { x with evbind := Tab.set 0 x.evbind (i - 0x40) (BitVec.ofNat 32 (v.toNat % 2 ^ 26)) } else x) := by
  rw [Steward.sysw, if_neg (by omega), if_neg (by omega), if_neg (by omega), if_neg (by omega), if_neg (by omega),
    if_neg (by omega), if_neg (by omega), if_pos ⟨hi, hi'⟩]
  exact (apply_ite some _ _ _).symm

theorem Steward.sysr_evbind (x : Steward) {i : Nat} (hi : 0x51 ≤ i) (hi' : i ≤ 0x7F) :
    x.sysr i = some ((Tab.get 0 x.evbind (i - 0x40)).setWidth 64) := by
  rw [Steward.sysr, if_neg (by omega), if_neg (by omega), if_neg (by omega), if_neg (by omega), if_neg (by omega),
    if_neg (by omega), if_neg (by omega), if_pos ⟨hi, hi'⟩]

/-- The registers that SYSW leaves as they are (log 41). -/
theorem Steward.sysw_readOnly (x : Steward) {i : Nat} (v : W64) (hi : i < 0x10 ∨ i = 0x12 ∨ i = 0x13) : x.sysw i v = some x := by
  rw [Steward.sysw]
  by_cases h0 : i < 0x10
  · rw [if_pos h0]
  · rw [if_neg h0, if_neg (by omega), if_neg (by omega), if_pos (by omega)]

/-- A write of a system register neither reads nor changes the thread. -/
theorem Steward.sysw_withThread (x : Steward) (t : Thread) (i : Nat) (v : W64) :
    ({ x with t := t } : Steward).sysw i v = (x.sysw i v).map fun y => { y with t := t } := by
  unfold Steward.sysw
  split_ifs <;> rfl

theorem State.runSysw_steward {x : Steward} (hn : 2048 ≤ n)
    (hv : (s.stw (n - 2048)).sysw (reg s n ra).toNat (reg s n rb) = some x) :
    (s.noteIssue n).runSysw n ra rb = .ok ((s.noteIssue n).setStw (n - 2048) { x with t := (s.noteIssue n).thr n }) [] [] := by
  have hr : ((s.noteIssue n).thr n).r = (s.thr n).r := by rw [State.thr_noteIssue_self]
  rw [reg, reg] at hv
  rw [State.runSysw, if_neg (by omega), State.stw_noteIssue, Steward.sysw_withThread, hr, State.stw_t _ hn, hv]
  rfl

theorem State.runSysw_steward_none (hn : 2048 ≤ n)
    (hv : (s.stw (n - 2048)).sysw (reg s n ra).toNat (reg s n rb) = none) :
    (s.noteIssue n).runSysw n ra rb = .fault (s.noteIssue n) 1 0 := by
  have hr : ((s.noteIssue n).thr n).r = (s.thr n).r := by rw [State.thr_noteIssue_self]
  rw [reg, reg] at hv
  rw [State.runSysw, if_neg (by omega), State.stw_noteIssue, Steward.sysw_withThread, hr, hv]
  rfl

theorem raises_sysw {c : Instr} {code : Nat} (he : exec c s = execAfv who pr (.sysw ra rb) s) (h : agentNum who = some n)
    (hc : CanIssue s n pr [rd, ra, rb] []) (hv : (s.noteIssue n).runSysw n ra rb = .fault (s.noteIssue n) code 0) :
    Raises c s n code 0 := by
  rw [Raises, exec_sysw he h hc, hv]
  rfl

theorem State.runSysw_worker (hn : n < 2048) : (s.noteIssue n).runSysw n ra rb = .fault (s.noteIssue n) 2 0 := if_pos hn

/-- SYSW of a register that the steward has. -/
theorem ends_sysw {c : Instr} {x : Steward} (he : exec c s = execAfv who pr (.sysw ra rb) s) (h : agentNum who = some n)
    (hc : CanIssue s n pr [rd, ra, rb] []) (hn : 2048 ≤ n)
    (hv : (s.stw (n - 2048)).sysw (reg s n ra).toNat (reg s n rb) = some x) :
    Ends c s fun t => { t.stw (n - 2048) with t := {} } = { x with t := {} } ∧ RegsKept s t n ∧ Advanced s t n ∧
      (∀ m, m ≠ n → t.thr m = s.thr m) ∧ (∀ j, j ≠ n - 2048 → t.stw j = s.stw j) ∧ RestKept s t := by
  let u := (s.noteIssue n).setStw (n - 2048) { x with t := (s.noteIssue n).thr n }
  have hk : n = 2048 + (n - 2048) := by omega
  have hthr : ∀ m, u.thr m = (s.noteIssue n).thr m := fun m => by
    rw [State.thr_setStw, ← hk]
    exact ite_eq_right_iff.2 fun e => by rw [e]
  have hend : exec c s = .next (goesOn u n) := by
    rw [exec_sysw he h hc, State.runSysw_steward hn hv, Res.apply_ok_nil]
  obtain ⟨hregs, hadv⟩ := advanced_goesOn (hthr n)
  refine ⟨goesOn u n, hend, ?_, hregs, hadv, fun m hm => ?_, fun j hj => ?_, ?_⟩
  · refine (State.stw_setThr _ _ _ _).trans ?_
    rw [State.stw_setStw, if_pos rfl]
  · rw [goesOn, State.thr_modThr, if_neg hm, hthr, State.thr_noteIssue, if_neg hm]
  · have hne : 2048 + j ≠ n := by omega
    refine State.stw_eq_of_thr ?_ ?_
    · rw [goesOn, State.thr_modThr, if_neg hne, hthr, State.thr_noteIssue, if_neg hne]
    · refine (State.stw_setThr _ _ _ _).trans ?_
      rw [State.stw_setStw, if_neg hj, State.noteIssue_stw]
  · exact RestKept.modThr (u := u) (restKept_noteIssue s n) n _

end

/-! ### ERET, CLCTL, TRESTART and WAIT.PWR (R91, R93, R94) -/

section
variable {who : Agent} {n : Nat} {pr : BitVec 3} {rd ra rb : BitVec 5} {s : State} {c : Instr}

theorem State.runClctl_noteIssue : (s.noteIssue n).runClctl n ra rb =
    if 15 < (reg s n ra).toNat ∨ 2 < (reg s n rb).toNat then .fault (s.noteIssue n) 1 0
    else if n < 2048 then .fault (s.noteIssue n) 2 0
    else .ok ((s.noteIssue n).clctl (reg s n ra).toNat (reg s n rb).toNat).settle [] [] := by
  rw [State.runClctl, State.thr_noteIssue_self]
  rfl

theorem State.runTrestart_noteIssue : (s.noteIssue n).runTrestart n ra =
    if 0x7FF < (reg s n ra).toNat then .fault (s.noteIssue n) 1 0
    else if n < 2048 then .fault (s.noteIssue n) 2 0
    else .ok ((s.noteIssue n).restartThread (reg s n ra).toNat).settle [] [] := by
  rw [State.runTrestart, State.thr_noteIssue_self]
  rfl

theorem raises_clctl_illegal (he : exec c s = execAfv who pr (.clctl ra rb) s) (h : agentNum who = some n)
    (hc : CanIssue s n pr [rd, ra, rb] []) (hx : 15 < (reg s n ra).toNat ∨ 2 < (reg s n rb).toNat) : Raises c s n 1 0 :=
  raises_of_fault h hc he (by simp [Afv.regs]) (List.nil_subset _) rfl
    ((State.insn_clctl ..).trans (State.runClctl_noteIssue.trans (if_pos hx)))

theorem raises_clctl_worker (he : exec c s = execAfv who pr (.clctl ra rb) s) (h : agentNum who = some n)
    (hc : CanIssue s n pr [rd, ra, rb] []) (hn : n < 2048) (hx : (reg s n ra).toNat ≤ 15) (ho : (reg s n rb).toNat ≤ 2) :
    Raises c s n 2 0 :=
  raises_of_fault h hc he (by simp [Afv.regs]) (List.nil_subset _) rfl
    ((State.insn_clctl ..).trans (State.runClctl_noteIssue.trans ((if_neg (by omega)).trans (if_pos hn))))

theorem exec_clctl {op : Nat} (he : exec c s = execAfv who pr (.clctl ra rb) s) (h : agentNum who = some n)
    (hc : CanIssue s n pr [rd, ra, rb] []) (hn : 2048 ≤ n) (hx : (reg s n ra).toNat ≤ 15) (ho : (reg s n rb).toNat = op)
    (ho' : op ≤ 2) : exec c s = .next (goesOn ((s.noteIssue n).clctl (reg s n ra).toNat op).settle n) := by
  subst ho
  rw [exec_issued h hc he (by simp [Afv.regs]) (List.nil_subset _) rfl, State.insn_clctl, State.runClctl_noteIssue,
    if_neg (by omega), if_neg (by omega), Res.apply_ok_nil]

theorem raises_trestart_illegal (h : agentNum who = some n) (hc : CanIssue s n pr [rd, ra, rb] [])
    (hx : 0x7FF < (reg s n ra).toNat) : Raises (.trestart who pr ra) s n 1 0 :=
  raises_of_fault (a := .trestart ra) h hc rfl (by simp [Afv.regs]) (List.nil_subset _) rfl
    ((State.insn_trestart ..).trans (State.runTrestart_noteIssue.trans (if_pos hx)))

theorem raises_trestart_worker (h : agentNum who = some n) (hc : CanIssue s n pr [rd, ra, rb] []) (hn : n < 2048)
    (hx : (reg s n ra).toNat ≤ 0x7FF) : Raises (.trestart who pr ra) s n 2 0 :=
  raises_of_fault (a := .trestart ra) h hc rfl (by simp [Afv.regs]) (List.nil_subset _) rfl
    ((State.insn_trestart ..).trans (State.runTrestart_noteIssue.trans ((if_neg (by omega)).trans (if_pos hn))))

theorem exec_trestart (h : agentNum who = some n) (hc : CanIssue s n pr [rd, ra, rb] []) (hn : 2048 ≤ n)
    (hx : (reg s n ra).toNat ≤ 0x7FF) :
    exec (.trestart who pr ra) s = .next (goesOn ((s.noteIssue n).restartThread (reg s n ra).toNat).settle n) := by
  rw [exec_issued (a := .trestart ra) h hc rfl (by simp [Afv.regs]) (List.nil_subset _) rfl, State.insn_trestart,
    State.runTrestart_noteIssue, if_neg (by omega), if_neg (by omega), Res.apply_ok_nil]

theorem raises_eret (h : agentNum who = some n) (hc : CanIssue s n pr [rd, ra, rb] []) (hn : n < 2048) :
    Raises (.eret who pr) s n 2 0 :=
  raises_of_fault (a := .eret) h hc rfl (List.nil_subset _) (List.nil_subset _) rfl (if_pos hn)

theorem raises_waitPwr (h : agentNum who = some n) (hc : CanIssue s n pr [rd, ra, rb] []) (hn : n < 2048) :
    Raises (.waitPwr who pr rd) s n 2 0 :=
  raises_of_fault (a := .waitPwr rd) h hc rfl (by simp [Afv.regs]) (List.nil_subset _) rfl (if_pos hn)

theorem exec_waitPwr (h : agentNum who = some n) (hc : CanIssue s n pr [rd, ra, rb] []) (hn : 2048 ≤ n) :
    exec (.waitPwr who pr rd) s = .next ((((s.noteIssue n).modThr n fun t =>
      { t with run := .waitPwr rd, pc := t.pc + 1 }).powerRequest (n - 2048)).settle) := by
  rw [exec_issued (a := .waitPwr rd) h hc rfl (by simp [Afv.regs]) (List.nil_subset _) rfl, State.insn_waitPwr,
    State.runWaitPwr, if_neg (by omega), Res.apply]

theorem ends_eret (h : agentNum who = some n) (hc : CanIssue s n pr [rd, ra, rb] []) (hn : 2048 ≤ n) :
    Ends (.eret who pr) s fun t => (t.thr n).pc = (s.stw (n - 2048)).epc.toNat ∧ (t.stw (n - 2048)).estatus = 0 ∧
      RegsKept s t n ∧ (t.stw (n - 2048)).epc = (s.stw (n - 2048)).epc ∧ (∀ m, m ≠ n → t.thr m = s.thr m) ∧ RestKept s t := by
  have hk : n = 2048 + (n - 2048) := by omega
  have hepc : ((s.noteIssue n).stw (n - 2048)).epc = (s.stw (n - 2048)).epc :=
    State.stw_noteIssue_apply Steward.epc (fun _ _ => rfl) s n _
  have hend : exec (.eret who pr) s = .next ((s.noteIssue n).returnException (n - 2048)) := by
    rw [exec_issued (a := .eret) h hc rfl (List.nil_subset _) (List.nil_subset _) rfl, State.insn_eret, if_neg (by omega), Res.apply]
  have hthr : ((s.noteIssue n).returnException (n - 2048)).thr n =
      { (s.noteIssue n).thr n with pc := (s.stw (n - 2048)).epc.toNat } := by
    rw [State.returnException, State.thr_setStw, if_pos hk, hepc, State.stw_t _ hn]
  refine ⟨_, hend, by rw [hthr], ?_, ?_, ?_, fun m hm => ?_, restKept_noteIssue s n⟩
  · rw [State.returnException, State.stw_setStw, if_pos rfl]
  · rw [RegsKept, hthr, State.thr_noteIssue_self]
  · rw [State.returnException, State.stw_setStw, if_pos rfl, hepc]
  · rw [State.returnException, State.thr_setStw, if_neg (by omega), State.thr_noteIssue, if_neg hm]

end

section
variable {who : Agent} {n : Nat} {pr : BitVec 3} {rd ra rb : BitVec 5} {s : State}

/-- The registers below 0x10, which every thread has: its number, the clock, the issue count with this issue, and zeros. -/
theorem runSysr_low (s : State) (n : Nat) (rd ra : BitVec 5) (hi : (reg s n ra).toNat < 0x10) :
    (s.noteIssue n).runSysr n rd ra = .ok (s.noteIssue n) [(rd,
      if (reg s n ra).toNat = 0 then BitVec.ofNat 64 n else if (reg s n ra).toNat = 1 then BitVec.ofNat 64 s.ictNs
      else if (reg s n ra).toNat = 2 then (s.thr n).issued + 1 else 0)] [] := by
  have hr : ((s.noteIssue n).thr n).r.get ra = reg s n ra := by rw [State.thr_noteIssue_self]; rfl
  have hict : (s.noteIssue n).ictNs = s.ictNs := RestKept.ictNs (restKept_noteIssue s n)
  rw [State.runSysr, hr, hict, State.thr_noteIssue_self, if_pos hi]
  split_ifs <;> rfl

theorem computes_sysr_low (h : agentNum who = some n) (hc : CanIssue s n pr [rd, ra, rb] []) :
    let i := (reg s n ra).toNat
    (i = 0 → Computes (.sysr who pr rd ra) s n rd (BitVec.ofNat 64 n)) ∧
    (i = 1 → Computes (.sysr who pr rd ra) s n rd (BitVec.ofNat 64 s.ictNs)) ∧
    (i = 2 → Computes (.sysr who pr rd ra) s n rd ((s.thr n).issued + 1)) ∧
    (3 ≤ i → i < 0x10 → Computes (.sysr who pr rd ra) s n rd 0) := by
  intro i
  have hlow : ∀ hi : i < 0x10, Computes (.sysr who pr rd ra) s n rd _ := fun hi => computes_sysr_any h hc (runSysr_low s n rd ra hi)
  refine ⟨fun hi => ?_, fun hi => ?_, fun hi => ?_, fun hi hi' => ?_⟩
  · simpa [i, hi] using hlow (by omega)
  · simpa [i, hi] using hlow (by omega)
  · simpa [i, hi] using hlow (by omega)
  · have h3 := hlow hi'
    rwa [if_neg (show i ≠ 0 by omega), if_neg (show i ≠ 1 by omega), if_neg (show i ≠ 2 by omega)] at h3

/-- SYSR of each register that a steward has beside. -/
theorem sysr_steward (h : agentNum who = some n) (hc : CanIssue s n pr [rd, ra, rb] []) (hn : 2048 ≤ n) :
    let i := (reg s n ra).toNat
    let k := n - 2048
    (i = 0x10 → Computes (.sysr who pr rd ra) s n rd (s.stw k).evec) ∧
    (i = 0x11 → Computes (.sysr who pr rd ra) s n rd (s.stw k).epc) ∧
    (i = 0x12 → Computes (.sysr who pr rd ra) s n rd (s.stw k).ecause) ∧
    (i = 0x13 → Computes (.sysr who pr rd ra) s n rd (s.stw k).eaddr) ∧
    (i = 0x14 → Computes (.sysr who pr rd ra) s n rd (s.stw k).estatus) ∧
    (i = 0x15 → Computes (.sysr who pr rd ra) s n rd (s.stw k).escratch) ∧
    (i = 0x20 → Computes (.sysr who pr rd ra) s n rd 0) := by
  intro i k
  have hreg : ∀ (v : W64), 0x10 ≤ i → (s.stw k).sysr i = some v → Computes (.sysr who pr rd ra) s n rd v :=
    fun v hi hv => computes_sysr h hc hn hi hv
  exact ⟨fun hi => hreg _ (by omega) (by rw [hi]; rfl), fun hi => hreg _ (by omega) (by rw [hi]; rfl),
    fun hi => hreg _ (by omega) (by rw [hi]; rfl), fun hi => hreg _ (by omega) (by rw [hi]; rfl),
    fun hi => hreg _ (by omega) (by rw [hi]; rfl), fun hi => hreg _ (by omega) (by rw [hi]; rfl),
    fun hi => hreg _ (by omega) (by rw [hi]; rfl)⟩

theorem raises_unassigned (h : agentNum who = some n) (hc : CanIssue s n pr [rd, ra, rb] []) (hn : 2048 ≤ n)
    (hi : 0x10 ≤ (reg s n ra).toNat)
    (ha : ¬((reg s n ra).toNat ≤ 0x15 ∨ (reg s n ra).toNat = 0x20 ∨ (0x51 ≤ (reg s n ra).toNat ∧ (reg s n ra).toNat ≤ 0x7F))) :
    Raises (.sysr who pr rd ra) s n 1 0 ∧ Raises (.sysw who pr ra rb) s n 1 0 :=
  ⟨raises_sysr h hc (State.runSysr_steward_none hn hi (Steward.sysr_unassigned _ ha)),
    raises_sysw rfl h hc (State.runSysw_steward_none hn (Steward.sysw_unassigned _ _ ha))⟩

end

/-- Settles O20: each instruction and each register by its own case, as the logs 41 (SYSW of a register that is only read) and
42 (EVBIND) have them. -/
theorem privilegedInstructions : Obligations.PrivilegedInstructions := by
  refine ⟨fun who n pr rd ra rb s h hc => ⟨fun hn => ⟨raises_eret h hc hn, raises_waitPwr h hc hn, fun hx ho => ?_,
    raises_trestart_worker h hc hn⟩, fun hx => ?_, raises_trestart_illegal h hc, fun hn => ⟨ends_eret h hc hn, fun hx => ?_,
    exec_trestart h hc hn, exec_waitPwr h hc hn⟩⟩, fun who n pr rd ra rb s h hc => ?_⟩
  · exact ⟨raises_clctl_worker rfl h hc hn hx ho, raises_clctl_worker rfl h hc hn hx ho, raises_clctl_worker rfl h hc hn hx ho⟩
  · exact ⟨raises_clctl_illegal rfl h hc hx, raises_clctl_illegal rfl h hc hx, raises_clctl_illegal rfl h hc hx⟩
  · exact ⟨fun ho => exec_clctl rfl h hc hn hx ho (by decide), fun ho => exec_clctl rfl h hc hn hx ho (by decide),
      fun ho => exec_clctl rfl h hc hn hx ho (by decide)⟩
  · intro i v k
    obtain ⟨h0, h1, h2, h3⟩ := computes_sysr_low h hc
    refine ⟨h0, h1, h2, h3, fun hn hi => raises_sysr h hc (State.runSysr_worker hn hi), fun hn => ?_, fun hn => ?_⟩
    · exact ⟨raises_sysw rfl h hc (State.runSysw_worker hn), raises_sysw rfl h hc (State.runSysw_worker hn)⟩
    · obtain ⟨r0, r1, r2, r3, r4, r5, r6⟩ := sysr_steward h hc hn
      refine ⟨r0, r1, r2, r3, r4, r5, r6, fun hi hi' => computes_sysr h hc hn (show 0x10 ≤ i by omega) (Steward.sysr_evbind _ hi hi'),
        raises_unassigned h hc hn, ?_⟩
      exact ⟨fun hi => ends_sysw rfl h hc hn (Steward.sysw_readOnly _ _ hi),
        fun hi => ends_sysw rfl h hc hn (by rw [show (reg s n ra).toNat = _ from hi]; rfl),
        fun hi => ends_sysw rfl h hc hn (by rw [show (reg s n ra).toNat = _ from hi]; rfl),
        fun hi => ends_sysw rfl h hc hn (by rw [show (reg s n ra).toNat = _ from hi]; rfl),
        fun hi => ends_sysw rfl h hc hn (by rw [show (reg s n ra).toNat = _ from hi]; rfl),
        fun hi => ends_sysw rfl h hc hn (by rw [show (reg s n ra).toNat = _ from hi]; rfl),
        fun hi hi' => ends_sysw rfl h hc hn (Steward.sysw_evbind _ _ hi hi')⟩

/-! ### HALT, RELEASE and restart (R60, R94; log 138) -/

section
variable {s t : State} {n k x : Nat}

theorem State.cluster_setCluster (s : State) (k : Nat) (c : Cluster) (j : Nat) :
    (s.setCluster k c).cluster j = if j = k then c else s.cluster j := Tab.get_put _ _ _ _ _

theorem State.cluster_congr (h : t.clusters = s.clusters) (k : Nat) : t.cluster k = s.cluster k := by
  rw [State.cluster, State.cluster, h]

theorem State.cluster_setRf (s : State) (a : Nat) (f : Fld) (v k : Nat) : (s.setRf a f v).cluster k = s.cluster k :=
  State.cluster_congr (State.wrN_clusters ..) k

theorem State.thr_setRf (s : State) (a : Nat) (f : Fld) (v n : Nat) : (s.setRf a f v).thr n = s.thr n :=
  State.thr_congr (State.wrN_threads ..) (State.wrN_stewards ..) n

/-- New round-robin states change the cores alone. -/
theorem State.setCores_only (s : State) (f : Nat → Nat) (g : Nat → CoreSt) (l : List Nat) :
    { l.foldl (fun s i => s.setCore (f i) (g i)) s with cores := s.cores } = s := by
  induction l generalizing s with
  | nil => rfl
  | cons i l ih => exact (congrArg (fun u : State => { u with cores := s.cores }) (ih (s.setCore (f i) (g i))) :)

/-- RELEASE changes the state of the cluster and of its cores alone. -/
theorem clctl_release (s : State) (k : Nat) :
    { s.clctl k 1 with cores := s.cores } = s.setCluster k { s.cluster k with halted := false } := by
  rw [State.clctl, if_neg Nat.one_ne_zero, if_pos rfl]
  exact State.setCores_only (s.setCluster k { s.cluster k with halted := false }) (fun i => 16 * k + i) (fun _ => {}) _

/-- States that differ in their cores at most. -/
theorem State.eq_but_cores {t u : State} {c : Tab CoreSt} (h : { t with cores := c } = u) :
    t.clusters = u.clusters ∧ t.threads = u.threads ∧ t.stewards = u.stewards := by
  subst h
  exact ⟨rfl, rfl, rfl⟩

theorem cluster_clctl_release (s : State) (k j : Nat) :
    (s.clctl k 1).cluster j = (s.setCluster k { s.cluster k with halted := false }).cluster j :=
  State.cluster_congr (State.eq_but_cores (clctl_release s k)).1 j

theorem thr_clctl_release (s : State) (k m : Nat) : (s.clctl k 1).thr m = s.thr m := by
  obtain ⟨-, hthr, hstw⟩ := State.eq_but_cores (clctl_release s k)
  exact State.thr_congr hthr hstw m

theorem cluster_clctl_halt (s : State) (k j : Nat) :
    (s.clctl k 0).cluster j = (s.setCluster k { s.cluster k with halted := true }).cluster j := by
  rw [State.clctl, if_pos rfl, State.cluster_setRf, State.cluster_setRf]

theorem thr_clctl_halt (s : State) (k m : Nat) : (s.clctl k 0).thr m = s.thr m := by
  rw [State.clctl, if_pos rfl, State.thr_setRf, State.thr_setRf]
  exact State.thr_congr rfl rfl m

theorem Regs.get_init (r : BitVec 5) : ({} : Regs).get r = 0 := by
  by_cases hr : r = 0
  · rw [Regs.get, if_pos hr]
  · rw [Regs.get, if_neg hr]
    exact Vector.getElem_replicate ..

theorem Regs.pred_init : ∀ p : BitVec 3, ({} : Regs).pred p = decide (p = 0) := by decide

/-- g1 and g2 of the entry, and zeros (R60). -/
theorem get_startThread (e : ThreadEntry) (i : W64) (r : BitVec 5) :
    (startThread e i).r.get r = if r = 1 then e.g1 else if r = 2 then e.g2 else 0 := by
  rw [startThread, Regs.get_set, Regs.get_set, Regs.get_init]
  by_cases h0 : r = 0
  · subst h0
    rfl
  · rw [if_neg h0, if_neg h0]
    by_cases h1 : r = 1
    · subst h1
      rfl
    · rw [if_neg h1, if_neg h1]

/-- A thread that is neither parked nor holds a satchel starts anew. -/
theorem restartThread_eq (hp : (s.entryOf x).parked = false) (hh : (s.thr x).held = none) :
    s.restartThread x = s.setThr x (startThread (s.entryOf x) (s.thr x).issued) := by
  rw [State.restartThread, hp, if_neg Bool.false_ne_true]
  simp only [hh]

end

/-- Settles O21: the two commands of a cluster and the restart of one thread; its outstanding operations are discarded, as log
138 has it. -/
theorem clusterOperations : Obligations.ClusterOperations := by
  refine ⟨fun s k => ⟨?_, ?_, fun j hj => ⟨?_, ?_⟩, fun m => ⟨thr_clctl_halt s k m, thr_clctl_release s k m⟩⟩, fun s x hp hh => ?_⟩
  · rw [cluster_clctl_halt, State.cluster_setCluster, if_pos rfl]
  · rw [cluster_clctl_release, State.cluster_setCluster, if_pos rfl]
  · rw [cluster_clctl_halt, State.cluster_setCluster, if_neg hj]
  · rw [cluster_clctl_release, State.cluster_setCluster, if_neg hj]
  · intro t e
    have ht : t = s.setThr x (startThread e (s.thr x).issued) := restartThread_eq hp hh
    have hx : t.thr x = startThread e (s.thr x).issued := by rw [ht, State.thr_setThr_self]
    refine ⟨fun r => ?_, fun p => ?_, by rw [hx]; rfl, by rw [hx]; rfl, by rw [hx]; rfl, by rw [hx]; rfl, by rw [hx]; rfl,
      by rw [hx]; rfl, fun m hm => ?_, ?_, fun a => ?_⟩
    · rw [reg, hx, get_startThread]
    · rw [pred, hx, startThread, Regs.pred_set, Regs.pred_set, Regs.pred_init]
    · rw [ht, State.thr_setThr, if_neg hm]
    · rw [ht]
      exact (RestKept.refl s).setThr x _
    · rw [ht]
      exact State.rd_congr (State.modThr_regs s x fun _ => startThread e (s.thr x).issued) a

/-! ### O26: the crypto queues (R235, R249) -/

/-- An operation of SEC that reads one unit: it waits on island 0 and is of no queue (its `cq` is 0). -/
def secRead : CiphJob :=
  { id := 0, isl := 0, op := 9, cq := 0, worker := false, desc := 0, sec := some ⟨5, false, true, 0, 0, 512, 0, [], none, 0⟩ }

/-- Steward 0 runs, crypto queue 0 is in use with 16 places, all of them free, and 16 operations of SEC wait on island 0. -/
def secWaits : State :=
  { State.reset.wr (cqAddr 0 4) (BitVec.ofNat 32 (4 * 2 ^ 16 + 2 ^ 21)) with
    boot := { phase := .running }, ciphJobs := List.replicate 16 secRead }

theorem canIssue_secWaits : CanIssue secWaits 2048 0 [1, 0, 0] [] where
  booted := rfl
  powered := by decide
  ready := rfl
  worker := by decide
  inside := by decide
  true_ := by decide
  regs := by decide
  preds := by decide

/-- The model counts no operation of SEC among the entries of a queue: GCM_ENC to queue 0 is accepted. -/
theorem secWaits_accepts {t : State} (h : exec (.gcmEnc (.steward 0) 0 1 0 0) secWaits = .next t) : reg t 2048 1 = 1 := by
  have ha : (match exec (.gcmEnc (.steward 0) 0 1 0 0) secWaits with | .next t => reg t 2048 1 | _ => 0) = 1 := by decide
  rwa [h] at ha

/-- Refutes O26: the statement counts the operations of SEC that wait on the island among the entries of the queue that is
numbered 0, as they name it, and asks that the queue refuse; the model leaves them out of the count and accepts the job. -/
theorem not_ciphJobs : ¬ Obligations.CiphJobs := by
  intro h
  obtain ⟨-, hrefused, -⟩ := h (.steward 0) 2048 0 1 0 0 secWaits _ rfl canIssue_secWaits (List.mem_cons_self ..)
  obtain ⟨t, ht, hw, -⟩ := hrefused (by decide) (.inr (.inr (by decide)))
  have h0 : reg t 2048 1 = 0 := hw.1 1
  exact absurd (h0.symm.trans (secWaits_accepts ht)) (by decide)

end Sys2Proof.Machine
end

section
/-! Exceptions: what a record and a source that is raised leave alone, and the fault of a thread and the exception of a steward
(R91, R95 to R97). -/

namespace Sys2Proof.Machine

open Sys2Proof.Safety

/-! ### Sources that are raised -/

section
variable {s t u : State}

/-- The states differ in the event bits of threads and stewards at most. -/
structure OnlyEvents (s t : State) : Prop where
  thr : ∀ m, { t.thr m with ev := 0 } = { s.thr m with ev := 0 }
  stw : ∀ k, { t.stw k with t := {} } = { s.stw k with t := {} }
  rest : { t with threads := s.threads, stewards := s.stewards } = s

theorem OnlyEvents.refl (s : State) : OnlyEvents s s := ⟨fun _ => rfl, fun _ => rfl, rfl⟩

theorem OnlyEvents.trans (h : OnlyEvents s t) (h' : OnlyEvents t u) : OnlyEvents s u :=
  ⟨fun m => (h'.thr m).trans (h.thr m), fun k => (h'.stw k).trans (h.stw k),
    (congrArg (fun x : State => { x with threads := s.threads, stewards := s.stewards }) h'.rest :).trans h.rest⟩

theorem onlyEvents_setEv (s : State) (n : Nat) (m : W64) : OnlyEvents s (s.setEv n m) := by
  refine ⟨fun j => ?_, fun k => State.stw_setThr _ _ _ _, State.setThr_only _ _ _⟩
  rw [State.setEv, State.thr_modThr]
  split
  · next h => rw [h]
  · rfl

/-- Steps that change only event bits, one after the other. -/
theorem onlyEvents_foldl {α : Type} (g : State → α → State) (hg : ∀ s x, OnlyEvents s (g s x)) (l : List α) (s : State) :
    OnlyEvents s (l.foldl g s) := by
  induction l generalizing s with
  | nil => exact OnlyEvents.refl s
  | cons x l ih => exact (hg s x).trans (ih (g s x))

theorem onlyEvents_ite (s : State) (p : Prop) [Decidable p] (h : OnlyEvents s t) : OnlyEvents s (if p then s else t) := by
  split
  · exact OnlyEvents.refl s
  · exact h

theorem onlyEvents_raiseSource (s : State) (type index : Nat) : OnlyEvents s (s.raiseSource type index) :=
  (onlyEvents_foldl _ (fun _ _ => onlyEvents_ite _ _ (onlyEvents_setEv _ _ _)) _ s).trans
    (onlyEvents_foldl _ (fun _ _ => onlyEvents_ite _ _ (onlyEvents_setEv _ _ _)) _ _)

theorem onlyEvents_raiseOthers (s : State) (type index but : Nat) : OnlyEvents s (s.raiseOthers type index but) :=
  onlyEvents_foldl _ (fun _ _ => onlyEvents_ite _ _ (onlyEvents_ite _ _ (onlyEvents_setEv _ _ _))) _ s

theorem OnlyEvents.r (h : OnlyEvents s t) (m : Nat) : (t.thr m).r = (s.thr m).r := (congrArg Thread.r (h.thr m) :)
theorem OnlyEvents.pc (h : OnlyEvents s t) (m : Nat) : (t.thr m).pc = (s.thr m).pc := (congrArg Thread.pc (h.thr m) :)
theorem OnlyEvents.run (h : OnlyEvents s t) (m : Nat) : (t.thr m).run = (s.thr m).run := (congrArg Thread.run (h.thr m) :)
theorem OnlyEvents.held (h : OnlyEvents s t) (m : Nat) : (t.thr m).held = (s.thr m).held := (congrArg Thread.held (h.thr m) :)
theorem OnlyEvents.epc (h : OnlyEvents s t) (k : Nat) : (t.stw k).epc = (s.stw k).epc := (congrArg Steward.epc (h.stw k) :)
theorem OnlyEvents.ecause (h : OnlyEvents s t) (k : Nat) : (t.stw k).ecause = (s.stw k).ecause :=
  (congrArg Steward.ecause (h.stw k) :)
theorem OnlyEvents.eaddr (h : OnlyEvents s t) (k : Nat) : (t.stw k).eaddr = (s.stw k).eaddr :=
  (congrArg Steward.eaddr (h.stw k) :)
theorem OnlyEvents.regs (h : OnlyEvents s t) : t.regs = s.regs := (congrArg State.regs h.rest :)
theorem OnlyEvents.mem (h : OnlyEvents s t) : t.mem = s.mem := (congrArg State.mem h.rest :)
theorem OnlyEvents.tb (h : OnlyEvents s t) : t.tb = s.tb := (congrArg State.tb h.rest :)
theorem OnlyEvents.clusters (h : OnlyEvents s t) : t.clusters = s.clusters := (congrArg State.clusters h.rest :)

end

/-! ### Records (R435) -/

section
variable {s : State} {code island : Nat} {data : List Byte}

theorem recData_length (items : List (Nat × Nat × Nat)) : (recData items).length = 40 := leBytes_length _ _

/-- A record changes the Trailbook's queue and bucket, and a counter. -/
theorem recordFlags_only (s : State) (code island flags : Nat) (data : List Byte) :
    { s.recordFlags code island flags data with tb := s.tb, regs := s.regs } = s := by
  unfold State.recordFlags
  dsimp only
  split_ifs <;> rfl

/-- The counter is TB.LOST. -/
theorem rd_recordFlags (s : State) (code island flags : Nat) (data : List Byte) {a : Nat} (ha : a ≠ Reg.tbLost) :
    (s.recordFlags code island flags data).rd a = s.rd a := by
  unfold State.recordFlags
  dsimp only
  split_ifs
  · rfl
  · rfl
  · rw [State.count32, State.rd_wr_ne _ _ ha]
    rfl

/-- A FATAL record is never refused. -/
theorem recordFatal_queue (s : State) (code island : Nat) (items : List (Nat × Nat × Nat)) :
    (s.recordFatal code island items).tb.queue = s.tb.queue ++ [⟨s.clock.tod, code, island, 1, recData items⟩] := rfl

/-- Another record is taken while the bucket holds one and the queue has a place. -/
theorem record_queue {items : List (Nat × Nat × Nat)} (ht : recToken ≤ s.tb.tokens) (hq : s.tb.queue.length < 240) :
    (s.record code island items).tb.queue = s.tb.queue ++ [⟨s.clock.tod, code, island, 0, recData items⟩] := by
  have hfilter : (s.tb.queue.filter fun x => !bit x.flags 0).length < 240 := (List.length_filter_le ..).trans_lt hq
  have htok : recToken ≤ s.tbRefill.tb.tokens := by
    simp only [State.tbRefill, recToken] at ht ⊢
    omega
  have hroom : recToken ≤ s.tbRefill.tb.tokens ∧ (s.tbRefill.tb.queue.filter fun x => !bit x.flags 0).length < 240 ∧
      s.tbRefill.tb.queue.length < 256 := ⟨htok, hfilter, hq.trans (by decide)⟩
  rw [State.record, State.recordFlags, if_neg (by decide), if_pos hroom]
  rfl

end

/-! ### The fault of a worker thread (R96) -/

section
variable {s : State} {n code pc addr : Nat}

/-- The thread is faulted at its PC, and its cluster queues the fault or sets LOST. -/
def faultQueued (s : State) (n code pc addr : Nat) : State :=
  let u := s.modThr n fun t => { t with run := .faulted, pc := pc }
  if (s.cluster (n / 128)).faults.length < 128 then
    u.setCluster (n / 128) { s.cluster (n / 128) with
      faults := (s.cluster (n / 128)).faults ++ [⟨n % 128, code, pc, addr % 2 ^ 48⟩] }
  else u.setRf (Reg.threadFault (n / 128)) threadFault_LOST 1

/-- The record of a fault. -/
def faultItems (n code pc addr : Nat) : List (Nat × Nat × Nat) := [(0, 2, n), (2, 1, code), (4, 2, pc), (8, 8, addr % 2 ^ 48)]

theorem takeException_thread (hn : n < 2048) : s.takeException n code pc addr =
    ((faultQueued s n code pc addr).record 0x50 (0x42 + n / 128) (faultItems n code pc addr)).raiseSource 8 (n / 128) :=
  if_pos hn

theorem setRf_keeps (s : State) (a : Nat) (f : Fld) (v : Nat) : (s.setRf a f v).threads = s.threads ∧
    (s.setRf a f v).stewards = s.stewards ∧ (s.setRf a f v).tb = s.tb ∧ (s.setRf a f v).mem = s.mem ∧
    (s.setRf a f v).clock = s.clock ∧ (s.setRf a f v).clusters = s.clusters :=
  ⟨State.wrN_threads .., State.wrN_stewards .., State.wrN_tb .., State.wrN_mem .., State.wrN_clock .., State.wrN_clusters ..⟩

theorem modThr_keeps (s : State) (n : Nat) (g : Thread → Thread) : (s.modThr n g).tb = s.tb ∧ (s.modThr n g).mem = s.mem ∧
    (s.modThr n g).clock = s.clock ∧ (s.modThr n g).clusters = s.clusters :=
  ⟨State.modThr_tb .., State.modThr_mem .., State.modThr_clock .., State.modThr_clusters ..⟩

/-- Beside the cluster and LOST a fault that is queued changes its thread. -/
theorem faultQueued_keeps (s : State) (n code pc addr : Nat) :
    (∀ m, (faultQueued s n code pc addr).thr m = (s.modThr n fun t => { t with run := .faulted, pc := pc }).thr m) ∧
    (faultQueued s n code pc addr).tb = s.tb ∧ (faultQueued s n code pc addr).mem = s.mem ∧
    (faultQueued s n code pc addr).clock = s.clock := by
  obtain ⟨htb, hmem, hclock, -⟩ := modThr_keeps s n fun t => { t with run := .faulted, pc := pc }
  unfold faultQueued
  dsimp only
  split
  · exact ⟨fun m => State.thr_congr rfl rfl m, htb, hmem, hclock⟩
  · obtain ⟨h1, h2, h3, h4, h5, -⟩ := setRf_keeps (s.modThr n fun t => { t with run := .faulted, pc := pc })
      (Reg.threadFault (n / 128)) threadFault_LOST 1
    exact ⟨fun m => State.thr_congr h1 h2 m, h3.trans htb, h4.trans hmem, h5.trans hclock⟩

theorem faults_faultQueued (s : State) (n code pc addr : Nat) : ((faultQueued s n code pc addr).cluster (n / 128)).faults =
    if (s.cluster (n / 128)).faults.length < 128 then
      (s.cluster (n / 128)).faults ++ [⟨n % 128, code, pc, addr % 2 ^ 48⟩] else (s.cluster (n / 128)).faults := by
  unfold faultQueued
  dsimp only
  split
  · rw [State.cluster_setCluster, if_pos rfl]
  · rw [State.cluster_setRf, State.cluster_congr (State.modThr_clusters ..)]

theorem lost_faultQueued (hq : 128 ≤ (s.cluster (n / 128)).faults.length) :
    (faultQueued s n code pc addr).rf (Reg.threadFault (n / 128)) threadFault_LOST = 1 := by
  rw [faultQueued]
  dsimp only
  rw [if_neg (by omega), State.rf_setRf_same]
  rfl

theorem threadFault_ne_tbLost (k : Nat) : Reg.threadFault k ≠ Reg.tbLost := by
  rw [Reg.threadFault, Reg.tbLost, ctlAddr, ctlAddr]
  omega

/-- R96: what becomes of the thread, its cluster, the Trailbook and the rest. -/
theorem takeException_worker (hn : n < 2048) :
    let t := s.takeException n code pc addr
    (∀ m, ∃ ev, t.thr m = { (if m = n then { s.thr n with run := .faulted, pc := pc } else s.thr m) with ev := ev }) ∧
    (t.cluster (n / 128)).faults = (if (s.cluster (n / 128)).faults.length < 128 then
      (s.cluster (n / 128)).faults ++ [⟨n % 128, code, pc, addr % 2 ^ 48⟩] else (s.cluster (n / 128)).faults) ∧
    (128 ≤ (s.cluster (n / 128)).faults.length → t.rf (Reg.threadFault (n / 128)) threadFault_LOST = 1) ∧
    (recToken ≤ s.tb.tokens → s.tb.queue.length < 240 →
      t.tb.queue = s.tb.queue ++ [⟨s.clock.tod, 0x50, 0x42 + n / 128, 0, recData (faultItems n code pc addr)⟩]) ∧
    t.mem = s.mem := by
  intro t
  let q := faultQueued s n code pc addr
  let u := q.record 0x50 (0x42 + n / 128) (faultItems n code pc addr)
  have hu : { u with tb := q.tb, regs := q.regs } = q := recordFlags_only q _ _ _ _
  have ht : OnlyEvents u t := by
    rw [show t = u.raiseSource 8 (n / 128) from takeException_thread hn]
    exact onlyEvents_raiseSource u 8 (n / 128)
  obtain ⟨hthr, htb, hmem, hclock⟩ := faultQueued_keeps s n code pc addr
  refine ⟨fun m => ⟨(t.thr m).ev, ?_⟩, ?_, fun hq => ?_, fun htok hlen => ?_, ?_⟩
  · have h1 : { t.thr m with ev := (t.thr m).ev } = { u.thr m with ev := (t.thr m).ev } :=
      (congrArg (fun x : Thread => { x with ev := (t.thr m).ev }) (ht.thr m) :)
    have h2 : u.thr m = if m = n then { s.thr n with run := .faulted, pc := pc } else s.thr m := by
      rw [State.thr_congr (t := u) (s := q) (congrArg State.threads hu :) (congrArg State.stewards hu :), hthr, State.thr_modThr]
    rw [← h2]
    exact h1
  · rw [State.cluster_congr (t := t) (s := q) (ht.clusters.trans (congrArg State.clusters hu :)), faults_faultQueued]
  · have hrd : t.rd (Reg.threadFault (n / 128)) = q.rd (Reg.threadFault (n / 128)) := by
      rw [State.rd_congr ht.regs, show u = q.recordFlags _ _ _ _ from rfl, rd_recordFlags _ _ _ _ _ (threadFault_ne_tbLost _)]
    rw [State.rf_congr (by decide) (by decide) hrd, lost_faultQueued hq]
  · rw [ht.tb, show u = q.record _ _ _ from rfl, record_queue (by rw [htb]; exact htok) (by rw [htb]; exact hlen), htb, hclock]
  · exact ht.mem.trans ((congrArg State.mem hu :).trans hmem)

end

/-! ### The exception of a steward (R97) -/

section
variable {s : State} {k code pc addr : Nat}

/-- EPC, ECAUSE and EADDR are written. -/
def Steward.excepted (x : Steward) (code pc addr : Nat) : Steward :=
  { x with epc := BitVec.ofNat 64 pc, ecause := BitVec.ofNat 64 code, eaddr := BitVec.ofNat 64 addr }

theorem takeException_steward (s : State) (k code pc addr : Nat) :
    s.takeException (2048 + k) code pc addr = s.faultSteward k code pc addr := by
  rw [State.takeException, if_neg (by omega), show 2048 + k - 2048 = k by omega]

/-- With IN_EXC clear the steward goes on at EVEC with IN_EXC set. -/
theorem takeException_clear (he : (s.stw k).estatus.getLsbD 0 = false) :
    s.takeException (2048 + k) code pc addr =
      s.setStw k { (s.stw k).excepted code pc addr with
        estatus := 1, t := { (s.stw k).t with run := .ready, pc := (s.stw k).evec.toNat } } := by
  rw [takeException_steward, State.faultSteward]
  exact if_neg (by rw [bit_toNat, he]; exact Bool.false_ne_true)

/-- With IN_EXC set it halts. -/
theorem takeException_set (he : (s.stw k).estatus.getLsbD 0 = true) :
    s.takeException (2048 + k) code pc addr =
      ((s.setStw k { (s.stw k).excepted code pc addr with t := { (s.stw k).t with run := .faulted, pc := pc } }).recordFatal
        0x51 0x52 [(0, 1, k), (1, 1, code), (4, 4, pc), (8, 8, addr)]).raiseOthers 0xB k k := by
  rw [takeException_steward, State.faultSteward]
  exact if_pos (by rw [bit_toNat, he])

theorem halts_steward (he : (s.stw k).estatus.getLsbD 0 = true) :
    let t := s.takeException (2048 + k) code pc addr
    (t.thr (2048 + k)).run = .faulted ∧ (t.thr (2048 + k)).pc = pc ∧
      (t.stw k).epc = BitVec.ofNat 64 pc ∧ (t.stw k).ecause = BitVec.ofNat 64 code ∧ (t.stw k).eaddr = BitVec.ofNat 64 addr ∧
      ∃ d : List Byte, d.length = 40 ∧ t.tb.queue = s.tb.queue ++ [⟨s.clock.tod, 0x0051, 0x52, 1, d⟩] := by
  intro t
  let y : Steward := { (s.stw k).excepted code pc addr with t := { (s.stw k).t with run := .faulted, pc := pc } }
  let u := (s.setStw k y).recordFatal 0x51 0x52 [(0, 1, k), (1, 1, code), (4, 4, pc), (8, 8, addr)]
  have hu : { u with tb := s.tb, regs := s.regs } = s.setStw k y := recordFlags_only (s.setStw k y) _ _ _ _
  have ht : OnlyEvents u t := by
    rw [show t = u.raiseOthers 0xB k k from takeException_set he]
    exact onlyEvents_raiseOthers u 0xB k k
  have hthr : u.thr (2048 + k) = y.t := by
    rw [State.thr_congr (t := u) (s := s.setStw k y) (congrArg State.threads hu :) (congrArg State.stewards hu :),
      State.thr_setStw, if_pos rfl]
  have hstw : u.stw k = y := by
    rw [State.stw_congr (t := u) (s := s.setStw k y) (congrArg State.stewards hu :), State.stw_setStw, if_pos rfl]
  refine ⟨?_, ?_, ?_, ?_, ?_, _, recData_length [(0, 1, k), (1, 1, code), (4, 4, pc), (8, 8, addr)], ?_⟩
  · rw [ht.run, hthr]
  · rw [ht.pc, hthr]
  · rw [ht.epc, hstw]
    rfl
  · rw [ht.ecause, hstw]
    rfl
  · rw [ht.eaddr, hstw]
    rfl
  · rw [ht.tb]
    exact recordFatal_queue ..

end

/-- Settles O22: TRAP at its issue, and the two ends of an exception, at a worker thread and at a steward. -/
theorem exceptionsTaken : Obligations.ExceptionsTaken := by
  refine ⟨fun who n pr code s h hc => ?_, fun s n code pc addr hn => ?_, fun s k code pc addr => ⟨fun he => ?_, halts_steward⟩⟩
  · exact raises_of_fault (a := .trap code) h hc rfl (List.nil_subset _) (List.nil_subset _) rfl (State.insn_trap _ _ code)
  · obtain ⟨hthr, hfaults, hlost, hrec, hmem⟩ := takeException_worker (s := s) (code := code) (pc := pc) (addr := addr) hn
    obtain ⟨ev, hself⟩ := hthr n
    rw [if_pos rfl] at hself
    refine ⟨by rw [hself], by rw [hself], by rw [hself], by rw [hself], hfaults, hlost,
      fun htok hlen => ⟨_, recData_length _, hrec htok hlen⟩, fun m hm => ?_, hmem⟩
    obtain ⟨e, hother⟩ := hthr m
    rw [if_neg hm] at hother
    exact ⟨by rw [hother], by rw [hother], by rw [hother]⟩
  · rw [takeException_clear he, State.stw_setStw, if_pos rfl, State.thr_setStw, if_pos rfl]
    exact ⟨rfl, rfl, rfl, rfl, rfl, rfl, rfl, rfl, fun m hm => by rw [State.thr_setStw, if_neg hm], rfl⟩

end Sys2Proof.Machine
end

section
/-! The issue of instructions: under a predicate that reads 0, in the frame of a core, and with an error of its fetch or load (R64,
R92, R95, R111, R121). -/

namespace Sys2Proof.Machine

open Sys2Proof.Safety

/-! ### The row of an instruction -/

/-- An instruction row is executed as the instruction that it names, by the agent that it names. -/
theorem exec_of_rowOf {c : Instr} {who : Agent} {pr : BitVec 3} {a : Afv} (h : rowOf c = some (who, pr, a)) (s : State) :
    exec c s = execAfv who pr a s := by
  cases c <;> cases h <;> rfl

section
variable {s : State} {n : Nat} {pr : BitVec 3} {a : Afv}

/-! ### A predicate that reads 0 (R64) -/

theorem mayIssue_off (hops : ∀ x ∈ (s.thr n).ops, ∀ p ∈ x.act.preds, p = 0 ∨ p ≠ pr) (hpred : pred s n pr = false) :
    s.mayIssue n pr a = true := by
  have hclash : clash ((s.thr n).ops.flatMap fun x => x.act.preds) [pr] = false := clash_eq_false _ _ fun p hp => by
    obtain ⟨x, hx, hpx⟩ := List.mem_flatMap.1 hp
    exact (hops x hx p hpx).imp id fun h => by simpa using h
  rw [pred] at hpred
  rw [State.mayIssue, hclash, hpred]
  rfl

/-- Nothing is done but the issue. -/
theorem issue_off (hpc : (s.thr n).pc < pcLimit n) (hpred : pred s n pr = false) (d : Option Afv) :
    s.issue n pr d = goesOn (s.noteIssue n) n := by
  have hpc' : ¬pcLimit n ≤ ((s.noteIssue n).thr n).pc := by
    rw [State.thr_noteIssue_self]
    exact Nat.not_le.2 hpc
  have hpred' : ((s.noteIssue n).thr n).r.pred pr = false := by rwa [State.thr_noteIssue_self]
  unfold State.issue
  dsimp only
  rw [if_neg hpc', hpred', if_pos (by decide)]
  rfl

theorem threadExec_off (hready : s.threadReady n = true) (hpc : (s.thr n).pc < pcLimit n)
    (hops : ∀ x ∈ (s.thr n).ops, ∀ p ∈ x.act.preds, p = 0 ∨ p ≠ pr) (hpred : pred s n pr = false) :
    s.threadExec n pr a = goesOn (s.noteIssue n) n := by
  rw [State.threadExec, hready, mayIssue_off hops hpred]
  exact (if_pos rfl).trans (issue_off hpc hpred _)

theorem goesOn_noteIssue (s : State) (n : Nat) : RegsKept s (goesOn (s.noteIssue n) n) n ∧
    Advanced s (goesOn (s.noteIssue n) n) n ∧ OthersKept s (goesOn (s.noteIssue n) n) n ∧
    RestKept s (goesOn (s.noteIssue n) n) := by
  obtain ⟨hregs, hadv⟩ := advanced_goesOn (s := s) (n := n) rfl
  exact ⟨hregs, hadv, (othersKept_noteIssue s n).modThr _, (restKept_noteIssue s n).modThr n _⟩

/-! ### The stalemate is cleared (R121) -/

theorem cleared_noteIssue (hn : n < 2048) : (s.noteIssue n).rf (Reg.staleStatus (n / 128)) staleStatus_CLEARED = 1 := by
  have hlt : ∀ u : State, u.rf (Reg.staleStatus (n / 128)) staleStatus_CLEARED < 2 := fun u => Nat.mod_lt _ (by decide)
  unfold State.noteIssue
  dsimp only
  split
  · rw [State.rf_setRf_same]
    rfl
  · next h =>
    have := hlt (s.modThr n fun t => { t with issued := t.issued + 1 })
    omega

/-! ### The frame of a worker core (R111) -/

section
variable {core t rr j : Nat} {x : CoreSt} {ecc : EccHit}

theorem find?_map_range {f : Nat → Nat} {p : Nat → Bool} {k : Nat} (hj : j < k) (hbefore : ∀ i, i < j → p (f i) = false)
    (hp : p (f j) = true) : ((List.range k).map f).find? p = some (f j) := by
  rw [List.find?_map]
  have hfind : (List.range k).find? (p ∘ f) = some j := by
    rw [List.find?_range_eq_some]
    exact ⟨hp, List.mem_range.2 hj, fun i hi => by simpa using hbefore i hi⟩
  rw [hfind]
  rfl

theorem nextReady_eq (hj : j < 8) (hbefore : ∀ i, i < j → s.ready (8 * core + (rr + 1 + i) % 8) = false)
    (hready : s.ready (8 * core + (rr + 1 + j) % 8) = true) : s.nextReady core rr = some ((rr + 1 + j) % 8) :=
  find?_map_range (f := fun i => (rr + 1 + i) % 8) (p := fun t => s.ready (8 * core + t)) hj hbefore hready

theorem nextReady_none (h : ∀ t, t < 8 → s.ready (8 * core + t) = false) : s.nextReady core rr = none := by
  refine List.find?_eq_none.2 fun t ht => ?_
  obtain ⟨i, -, rfl⟩ := List.mem_map.1 ht
  rw [h _ (Nat.mod_lt _ (by decide))]
  exact Bool.false_ne_true

theorem chooseThread_own (h : x.n % 2 = 1 ∧ s.ready (8 * core + x.n / 2) = true) :
    s.chooseThread core x = (some (x.n / 2), false) := if_pos h

theorem chooseThread_high (h : ¬(x.n % 2 = 1 ∧ s.ready (8 * core + x.n / 2) = true))
    (hp : (s.entryOf (8 * core)).hipri = true ∧ s.ready (8 * core) = true) : s.chooseThread core x = (some 0, false) := by
  rw [State.chooseThread, if_neg h, hp.1, hp.2]
  rfl

theorem chooseThread_next (h : ¬(x.n % 2 = 1 ∧ s.ready (8 * core + x.n / 2) = true))
    (hp : ¬((s.entryOf (8 * core)).hipri = true ∧ s.ready (8 * core) = true)) :
    s.chooseThread core x = (s.nextReady core x.rr, true) := by
  rw [State.chooseThread, if_neg h, if_neg (by rwa [Bool.and_eq_true])]

theorem exec_issueCycle_eq (core : Fin 260) (ecc : EccHit) (s : State) :
    exec (.issueCycle core ecc) s = .next (s.issueCycle core.val ecc) := rfl

theorem issueCycle_worker (hc : core < 256) (s : State) (ecc : EccHit) : s.issueCycle core ecc =
    let c := s.chooseThread core (s.core core)
    let x := s.core core
    let u := s.setCore core { n := (x.n + 1) % 16, rr := if c.2 then c.1.getD x.rr else x.rr, grant := c.1 }
    match c.1 with
    | some t => u.issueNext (8 * core + t) ecc
    | none => u := if_pos hc

theorem issueCycle_steward (hc : 256 ≤ core) (s : State) (ecc : EccHit) :
    s.issueCycle core ecc = if s.ready (2048 + (core - 256)) then s.issueNext (2048 + (core - 256)) ecc else s :=
  if_neg (by omega)

end

/-! ### The word that is issued (R92, R95) -/

theorem cacheFill_worker (hn : n < 2048) : s.cacheFill n = s := if_pos hn

theorem threadReady_of_ready (h : s.ready n = true) : s.threadReady n = true := (Bool.and_eq_true_iff.1 h).1

theorem mayIssue_of_ready (h : s.ready n = true) (hpc : (s.thr n).pc < pcLimit n) (ha : afvDecode (s.fetchWord n) = some a) :
    s.mayIssue n (afvPred (s.fetchWord n)) a = true := by
  have h2 := (Bool.and_eq_true_iff.1 h).2
  rw [decide_eq_false (by omega), Bool.false_or] at h2
  simpa only [ha] using h2

/-- A fetch without an error issues the instruction of its word. -/
theorem issueNext_decoded (hn : n < 2048) (hpc : (s.thr n).pc < pcLimit n) (ha : afvDecode (s.fetchWord n) = some a) :
    s.issueNext n .none = s.issue n (afvPred (s.fetchWord n)) (some a) := by
  unfold State.issueNext
  dsimp only
  rw [if_neg (by omega), ha, cacheFill_worker hn]

theorem issueNext_fetch (hpc : (s.thr n).pc < pcLimit n) : s.issueNext n .fetch =
    (s.noteIssue n).eccError.takeException n 7 (s.thr n).pc
      (if n < 2048 then coreBase (n / 8) + 4 * (s.thr n).pc else s.boot.codeBase + 4 * (s.thr n).pc) := by
  rw [State.issueNext, if_neg (by omega)]
  rfl

/-- An instruction that would complete with the bytes that it loads ends in ECC. -/
theorem issueBadLoad_ok {ea : Nat} {u : State} {g : List (BitVec 5 × W64)} {p : List (BitVec 3 × Bool)}
    (hpred : pred s n pr = true) (hl : s.localAddr n a = some ea) (hi : (s.noteIssue n).insn n a = .ok u g p) :
    s.issueBadLoad n pr a = (s.noteIssue n).eccError.takeException n 7 (s.thr n).pc ea := by
  rw [pred] at hpred
  rw [State.issueBadLoad, hpred, if_pos rfl, hl, hi]

/-- A load of data memory whose bytes have an uncorrectable error. -/
theorem issueNext_load {k : LoadKind} {rd ra : BitVec 5} {size : BitVec 2} {off : BitVec 9} (hn : n < 2048)
    (hpc : (s.thr n).pc < pcLimit n) (ha : afvDecode (s.fetchWord n) = some (.load k rd ra 0 size off))
    (hpred : pred s n (afvPred (s.fetchWord n)) = true)
    (hf : localFault (effAddr (reg s n ra) off) (accBytes size) = none) : s.issueNext n .load =
      (s.noteIssue n).eccError.takeException n 7 (s.thr n).pc (effAddr (reg s n ra) off) := by
  have hinsn : ∃ g, (s.noteIssue n).insn n (.load k rd ra 0 size off) = .ok (s.noteIssue n) g [] := by
    rw [← reg_noteIssue, reg] at hf
    rw [State.insn_load, State.runLoad, if_pos rfl, hf]
    exact ⟨_, rfl⟩
  obtain ⟨g, hg⟩ := hinsn
  unfold State.issueNext
  dsimp only
  rw [if_neg (by omega), ha]
  dsimp only
  rw [cacheFill_worker hn]
  exact issueBadLoad_ok hpred rfl hg

end

/-- Settles O23: the predicate that reads 0 at every instruction row, and the frame of a core case by case; the address of a
fetch that fails is the word's device address, as log 37 has it, and an instruction under a predicate that reads 0 counts as
issued (log 33). -/
theorem issueRules : Obligations.IssueRules := by
  refine ⟨fun c who n pr a s hrow h hready hpc hops hpred => ?_, fun n s hn => ⟨cleared_noteIssue hn, ?_⟩,
    fun core ecc s hcore => ?_, fun core ecc s hcore => ?_, fun c who n s a hn hpc hready ha h hrow => ?_,
    fun n s hpc => ⟨issueNext_fetch hpc, fun k rd ra size off hn ha hpred hea hal => ?_⟩⟩
  · refine ⟨_, ?_, goesOn_noteIssue s n⟩
    rw [exec_of_rowOf hrow, agentNum_execAfv h, threadExec_off hready hpc hops hpred]
  · rw [State.thr_noteIssue_self]
  · rw [exec_issueCycle_eq, issueCycle_worker hcore]
    refine ⟨fun hown => ?_, fun hown hhigh => ?_, fun j hown hhigh hj hbefore hready => ?_, fun hnone hlt => ?_⟩
    · rw [chooseThread_own hown]
      rfl
    · rw [chooseThread_high hown hhigh]
      rfl
    · rw [chooseThread_next hown hhigh, nextReady_eq hj (fun i hi => Bool.eq_false_of_not_eq_true (hbefore i hi)) hready]
      rfl
    · have hoff : ∀ t, t < 8 → s.ready (8 * core.val + t) = false := fun t ht => Bool.eq_false_of_not_eq_true (hnone t ht)
      rw [chooseThread_next (fun h => hnone _ (by omega) h.2) (fun h => hnone 0 (by decide) h.2), nextReady_none hoff]
      rfl
  · rw [exec_issueCycle_eq, issueCycle_steward hcore]
    exact ⟨fun hr => by rw [hr, if_pos rfl], fun hr => by rw [hr]; rfl⟩
  · have hmay := mayIssue_of_ready hready (show _ < pcLimit n by rwa [pcLimit, if_pos hn]) ha
    rw [exec_of_rowOf hrow, agentNum_execAfv h, issueNext_decoded hn (show _ < pcLimit n by rwa [pcLimit, if_pos hn]) ha,
      State.threadExec, threadReady_of_ready hready, hmay]
    rfl
  · exact issueNext_load hn hpc ha hpred (localFault_none hea hal)

end Sys2Proof.Machine
end

section
/-! The fault queue and the stalemate detector of a cluster (R96, R119 to R122). -/

namespace Sys2Proof.Machine

open Sys2Proof.Safety

/-! ### Fields of one word -/

section
variable {s : State} {a b v : Nat} {f g : Fld}

/-- A field of one word that is set leaves every other word alone. -/
theorem State.rd_setRf_word (s : State) (v : Nat) (hf : f.lo < 32) (hw : f.words = 1) (h : b ≠ a) :
    (s.setRf a f v).rd b = s.rd b :=
  s.rd_setRf_ne a f v b fun j hj => by
    have h0 : f.lo / 32 = 0 := Nat.div_eq_of_lt hf
    omega

/-- Two fields of one word that do not meet. -/
theorem State.rf_setRf_beside (s : State) (a v : Nat) (hf : f.lo < 32) (hfw : f.words = 1) (hg : g.lo < 32) (hgw : g.words = 1)
    (h : g.lo + g.width ≤ f.lo ∨ f.lo + f.width ≤ g.lo) : (s.setRf a f v).rf a g = s.rf a g := by
  have hle := f.le_words
  have h0 : f.lo / 32 = 0 := Nat.div_eq_of_lt hf
  have hlo : f.lo % 32 = f.lo := Nat.mod_eq_of_lt hf
  have hword : (s.setRf a f v).rd a = BitVec.ofNat 32 (setFld (s.rd a).toNat f.lo f.width v) := by
    simp only [State.setRf, hfw, h0, hlo, State.wrN, State.rdN, Nat.mul_zero, Nat.add_zero, State.rd_wr_self]
  rw [State.rf_word _ _ hg hgw, State.rf_word _ _ hg hgw, hword, BitVec.toNat_ofNat,
    Nat.mod_eq_of_lt (setFld_lt _ _ _ _ 32 (BitVec.isLt _) (by omega)), fld_setFld_ne _ _ _ _ _ _ h]

end

/-! ### The fault queue (R96) -/

section
variable {s : State} {cl : Fin 16}

theorem exec_threadFaultPop (h : Open s (Reg.threadFault cl.val)) : exec (.threadFaultPop cl) s =
    .next ((s.dropHeld (Reg.threadFault cl.val) 1).setCluster cl.val
      { s.cluster cl.val with faults := (s.cluster cl.val).faults.drop 1 }) := by
  rw [show exec (.threadFaultPop cl) s = .next (s.rowWrite (Reg.threadFault cl.val) 4 0x80 fun s => s.threadFaultSet cl.val 0x80)
    from rfl, State.rowWrite_open _ _ h, State.threadFaultSet, if_neg (by decide), if_pos (by decide)]
  rfl

theorem exec_threadFaultLostClear (h : Open s (Reg.threadFault cl.val)) : exec (.threadFaultLostClear cl) s =
    .next ((s.dropHeld (Reg.threadFault cl.val) 1).setRf (Reg.threadFault cl.val) threadFault_LOST 0) := by
  rw [show exec (.threadFaultLostClear cl) s =
    .next (s.rowWrite (Reg.threadFault cl.val) 4 0x40000000 fun s => s.threadFaultSet cl.val 0x40000000) from rfl,
    State.rowWrite_open _ _ h, State.threadFaultSet, if_pos (by decide), if_neg (by decide)]

theorem exec_stalemateDetectedClear (h : Open s (Reg.staleStatus cl.val)) : exec (.stalemateDetectedClear cl) s =
    .next ((s.dropHeld (Reg.staleStatus cl.val) 1).setRf (Reg.staleStatus cl.val) staleStatus_DETECTED 0) := by
  rw [show exec (.stalemateDetectedClear cl) s = .next (s.rowWrite (Reg.staleStatus cl.val) 4 (2 ^ staleStatus_DETECTED.lo)
    fun s => s.setRf (Reg.staleStatus cl.val) staleStatus_DETECTED 0) from rfl, State.rowWrite_open _ _ h]

/-- A field that is set after the held words of its register have been forgotten. -/
theorem dropHeld_setRf_only (s : State) (a n : Nat) (f : Fld) (v : Nat) :
    { (s.dropHeld a n).setRf a f v with regs := s.regs, held := s.held } = s := by
  have h : { (s.dropHeld a n).setRf a f v with regs := s.regs } = s.dropHeld a n := by
    rw [← s.dropHeld_regs a n]
    exact State.setRf_only _ _ _ _
  exact (congrArg (fun t : State => { t with held := s.held }) h :).trans (s.dropHeld_only a n)

theorem rf_dropHeld (s : State) (a n b : Nat) (f : Fld) : (s.dropHeld a n).rf b f = s.rf b f := by
  rw [State.rf, State.rf, State.rdN_congr fun i _ => s.rd_dropHeld a n _]

end

/-! ### What a detection leaves alone -/

section
variable {s t u : State} {k : Nat}

/-- What the result of a detection at cluster `k` is told of, its status and count among it, is the same in both states. -/
structure DetectKept (k : Nat) (s t : State) : Prop where
  status : t.rd (Reg.staleStatus k) = s.rd (Reg.staleStatus k)
  count : t.rd (Reg.staleCount k) = s.rd (Reg.staleCount k)
  clusters : t.clusters = s.clusters
  clock : t.clock = s.clock
  mem : t.mem = s.mem
  frames : t.frames = s.frames
  thr : ∀ n, (t.thr n).r = (s.thr n).r ∧ (t.thr n).pc = (s.thr n).pc ∧ (t.thr n).run = (s.thr n).run

theorem DetectKept.refl (k : Nat) (s : State) : DetectKept k s s := ⟨rfl, rfl, rfl, rfl, rfl, rfl, fun _ => ⟨rfl, rfl, rfl⟩⟩

theorem DetectKept.trans (h : DetectKept k s t) (h' : DetectKept k t u) : DetectKept k s u where
  status := h'.status.trans h.status
  count := h'.count.trans h.count
  clusters := h'.clusters.trans h.clusters
  clock := h'.clock.trans h.clock
  mem := h'.mem.trans h.mem
  frames := h'.frames.trans h.frames
  thr n := ⟨(h'.thr n).1.trans (h.thr n).1, (h'.thr n).2.1.trans (h.thr n).2.1, (h'.thr n).2.2.trans (h.thr n).2.2⟩

/-- One such step after the other. -/
theorem detectKept_foldl {α : Type} (g : State → α → State) (l : List α) (hg : ∀ s x, x ∈ l → DetectKept k s (g s x)) (s : State) :
    DetectKept k s (l.foldl g s) := by
  induction l generalizing s with
  | nil => exact DetectKept.refl k s
  | cons x l ih =>
    exact (hg s x (List.mem_cons_self ..)).trans (ih (fun s y hy => hg s y (List.mem_cons_of_mem x hy)) (g s x))

theorem State.onlyRegs_trans (h : { t with regs := s.regs } = s) (h' : { u with regs := t.regs } = t) :
    { u with regs := s.regs } = s := (congrArg (fun x : State => { x with regs := s.regs }) h' :).trans h

theorem State.onlyRegs_wr (s : State) (a : Nat) (v : W32) : { s.wr a v with regs := s.regs } = s := rfl

theorem clusters_of_onlyRegs (h : { t with regs := s.regs } = s) : t.clusters = s.clusters := (congrArg State.clusters h :)
theorem mem_of_onlyRegs (h : { t with regs := s.regs } = s) : t.mem = s.mem := (congrArg State.mem h :)
theorem frames_of_onlyRegs (h : { t with regs := s.regs } = s) : t.frames = s.frames := (congrArg State.frames h :)
theorem thr_of_onlyRegs (h : { t with regs := s.regs } = s) (n : Nat) : t.thr n = s.thr n :=
  State.thr_congr (congrArg State.threads h :) (congrArg State.stewards h :) n
theorem held_of_onlyRegs (h : { t with regs := s.regs } = s) : { t with regs := s.regs, held := s.held } = s :=
  (congrArg (fun x : State => { x with held := s.held }) h :)
theorem clock_of_onlyRegs (h : { t with regs := s.regs } = s) : t.clock = s.clock := (congrArg State.clock h :)

/-- A change of the registers outside the status and the count. -/
theorem detectKept_of_regs (h : { t with regs := s.regs } = s)
    (hr : ∀ a, a = Reg.staleStatus k ∨ a = Reg.staleCount k → t.rd a = s.rd a) : DetectKept k s t where
  status := hr _ (.inl rfl)
  count := hr _ (.inr rfl)
  clusters := clusters_of_onlyRegs h
  clock := clock_of_onlyRegs h
  mem := mem_of_onlyRegs h
  frames := frames_of_onlyRegs h
  thr n := by
    rw [thr_of_onlyRegs h]
    exact ⟨rfl, rfl, rfl⟩

theorem OnlyEvents.detectKept (h : OnlyEvents s t) : DetectKept k s t where
  status := State.rd_congr h.regs _
  count := State.rd_congr h.regs _
  clusters := h.clusters
  clock := (congrArg State.clock h.rest :)
  mem := h.mem
  frames := (congrArg State.frames h.rest :)
  thr n := ⟨h.r n, h.pc n, h.run n⟩

theorem detectKept_recordFlags (s : State) (code island flags : Nat) (data : List Byte) :
    DetectKept k s (s.recordFlags code island flags data) := by
  have h := recordFlags_only s code island flags data
  refine ⟨rd_recordFlags _ _ _ _ _ ?_, rd_recordFlags _ _ _ _ _ ?_, (congrArg State.clusters h :), (congrArg State.clock h :),
    (congrArg State.mem h :), (congrArg State.frames h :), fun n => ?_⟩
  · rw [Reg.staleStatus, Reg.tbLost, ctlAddr, ctlAddr]
    omega
  · rw [Reg.staleCount, Reg.tbLost, ctlAddr, ctlAddr]
    omega
  · rw [State.thr_congr (t := s.recordFlags code island flags data) (s := s) (congrArg State.threads h :)
      (congrArg State.stewards h :)]
    exact ⟨rfl, rfl, rfl⟩

theorem detectKept_waitSnap (s : State) (k i v : Nat) : DetectKept k s (s.wrN (Reg.waitSnap k i) 4 v) :=
  detectKept_of_regs (s.wrN_only _ _ _) fun a ha => s.rd_wrN_ne _ _ _ _ fun j hj => by
    simp only [Reg.staleStatus, Reg.staleCount, Reg.waitSnap, ctlAddr] at ha ⊢
    omega

theorem detectKept_captureSnap (s : State) (k : Nat) : DetectKept k s (s.captureSnap k) := by
  unfold State.captureSnap
  exact detectKept_foldl _ _ (fun s i _ => detectKept_waitSnap s k i _) s

theorem detectKept_staleRecords (s : State) (k : Nat) : DetectKept k s (s.staleRecords k) := by
  unfold State.staleRecords
  exact (detectKept_recordFlags _ _ _ _ _).trans (detectKept_foldl _ _ (fun s _ _ => detectKept_recordFlags s _ _ _ _) _)

/-! ### A detection (R119 to R122) -/

/-- The status and the count after a detection. -/
def staleCounted (s : State) (k : Nat) : State :=
  let a := Reg.staleStatus k
  ((((s.setRf a staleStatus_RUN 4096).setRf a staleStatus_HOLDING 1).setRf a staleStatus_DETECTED 1).setRf a
    staleStatus_CLEARED 0).count32 (Reg.staleCount k)

theorem staleCounted_only (s : State) (k : Nat) : { staleCounted s k with regs := s.regs } = s :=
  State.onlyRegs_trans (State.onlyRegs_trans (State.onlyRegs_trans (State.onlyRegs_trans
    (State.setRf_only _ _ _ _) (State.setRf_only _ _ _ _)) (State.setRf_only _ _ _ _)) (State.setRf_only _ _ _ _))
    (State.onlyRegs_wr _ _ _)

/-- The first detection since DETECTED was cleared captures the threads. -/
def staleSnapped (s : State) (k : Nat) : State :=
  if decide (s.rf (Reg.staleStatus k) staleStatus_DETECTED = 0) then (staleCounted s k).captureSnap k else staleCounted s k

/-- A detection up to its entry in the cluster's list of detections. -/
def staleShown (s : State) (k : Nat) : State := ((staleSnapped s k).raiseSource 9 k).staleRecords k

theorem detectKept_staleSnapped (s : State) (k : Nat) : DetectKept k (staleCounted s k) (staleSnapped s k) := by
  unfold staleSnapped
  split
  · exact detectKept_captureSnap _ k
  · exact DetectKept.refl k _

theorem detectKept_staleShown (s : State) (k : Nat) : DetectKept k (staleCounted s k) (staleShown s k) :=
  (detectKept_staleSnapped s k).trans
    ((onlyEvents_raiseSource (staleSnapped s k) 9 k).detectKept.trans (detectKept_staleRecords _ k))

/-- With fewer than two detections before it the cluster goes on (R125). -/
theorem detect_few (h : (s.cluster k).detections.length < 2) : s.detect k =
    (staleShown s k).setCluster k { (staleShown s k).cluster k with
      detections := (s.cluster k).detections ++ [s.ictNs] } := by
  have hkept := detectKept_staleShown s k
  have hcl : ((staleShown s k).cluster k).detections = (s.cluster k).detections := by
    rw [State.cluster_congr (hkept.clusters.trans (clusters_of_onlyRegs (staleCounted_only s k)))]
  have hict : (staleShown s k).ictNs = s.ictNs := by
    rw [State.ictNs, hkept.clock, clock_of_onlyRegs (staleCounted_only s k)]
    rfl
  have hlen : ((s.cluster k).detections ++ [s.ictNs]).length < 3 := by
    rw [List.length_append, List.length_singleton]
    omega
  have hdrop : ((s.cluster k).detections ++ [s.ictNs]).length - 3 = 0 := by omega
  have hd : s.detect k =
      let ts := ((staleShown s k).cluster k).detections ++ [(staleShown s k).ictNs]
      let ts := ts.drop (ts.length - 3)
      let t := (staleShown s k).setCluster k { (staleShown s k).cluster k with detections := ts }
      if ts.length = 3 ∧ t.ictNs < ts.getD 0 0 + 10000000000 then t.clusterFailed k ts else t := rfl
  rw [hd, hcl, hict]
  dsimp only
  rw [hdrop, List.drop_zero, if_neg (by omega)]

end

/-! ### The fields of the status (R119 to R122) -/

section
variable {s t u : State} {k : Nat}

/-- What is set in the status by a cycle that detects nothing. -/
def staleRun (s : State) (k run holding : Nat) : State :=
  (s.setRf (Reg.staleStatus k) staleStatus_RUN run).setRf (Reg.staleStatus k) staleStatus_HOLDING holding

/-- RUN and HOLDING are set; the other fields, the other registers and the rest of the state are as they were. -/
theorem staleRun_fields (s : State) (k : Nat) {run holding : Nat} (hr : run < 2 ^ 13) (hh : holding < 2) :
    let t := staleRun s k run holding
    let a := Reg.staleStatus k
    t.rf a staleStatus_RUN = run ∧ t.rf a staleStatus_HOLDING = holding ∧
      t.rf a staleStatus_DETECTED = s.rf a staleStatus_DETECTED ∧ t.rf a staleStatus_CLEARED = s.rf a staleStatus_CLEARED ∧
      { t with regs := s.regs, held := s.held } = s ∧ ∀ b, b ≠ a → t.rd b = s.rd b := by
  have honly : { staleRun s k run holding with regs := s.regs } = s :=
    State.onlyRegs_trans (State.setRf_only _ _ _ _) (State.setRf_only _ _ _ _)
  refine ⟨?_, ?_, ?_, ?_, held_of_onlyRegs honly, fun b hb => ?_⟩
  · rw [staleRun, State.rf_setRf_beside _ _ _ (by decide) (by decide) (by decide) (by decide) (by decide), State.rf_setRf_same,
      Nat.mod_eq_of_lt hr]
  · rw [staleRun, State.rf_setRf_same]
    exact Nat.mod_eq_of_lt hh
  · simp (disch := decide) only [staleRun, State.rf_setRf_beside]
  · simp (disch := decide) only [staleRun, State.rf_setRf_beside]
  · rw [staleRun, State.rd_setRf_word _ _ (by decide) (by decide) hb, State.rd_setRf_word _ _ (by decide) (by decide) hb]

/-- The four fields after a detection. -/
theorem staleCounted_fields (s : State) (k : Nat) :
    let t := staleCounted s k
    let a := Reg.staleStatus k
    t.rf a staleStatus_RUN = 4096 ∧ t.rf a staleStatus_HOLDING = 1 ∧ t.rf a staleStatus_DETECTED = 1 ∧
      t.rf a staleStatus_CLEARED = 0 ∧ t.rd (Reg.staleCount k) = s.rd (Reg.staleCount k) + 1 := by
  intro t a
  have hne : Reg.staleStatus k ≠ Reg.staleCount k := by
    rw [Reg.staleStatus, Reg.staleCount, ctlAddr, ctlAddr]
    omega
  let u := ((((s.setRf a staleStatus_RUN 4096).setRf a staleStatus_HOLDING 1).setRf a staleStatus_DETECTED 1).setRf a
    staleStatus_CLEARED 0)
  have hrd : t.rd a = u.rd a := State.rd_wr_ne _ _ hne
  have hcount : u.rd (Reg.staleCount k) = s.rd (Reg.staleCount k) := by
    have hset : ∀ (x : State) (f : Fld) (v : Nat), f.lo < 32 → f.words = 1 →
        (x.setRf a f v).rd (Reg.staleCount k) = x.rd (Reg.staleCount k) := fun x f v hf hw => x.rd_setRf_word v hf hw hne.symm
    simp (disch := decide) only [u, hset]
  refine ⟨?_, ?_, ?_, ?_, ?_⟩
  · rw [State.rf_congr (by decide) (by decide) hrd]
    simp (disch := decide) only [u, State.rf_setRf_beside, State.rf_setRf_same]
    rfl
  · rw [State.rf_congr (by decide) (by decide) hrd]
    simp (disch := decide) only [u, State.rf_setRf_beside, State.rf_setRf_same]
    rfl
  · rw [State.rf_congr (by decide) (by decide) hrd]
    simp (disch := decide) only [u, State.rf_setRf_beside, State.rf_setRf_same]
    rfl
  · rw [State.rf_congr (by decide) (by decide) hrd]
    simp (disch := decide) only [u, State.rf_setRf_same]
    rfl
  · rw [show t = u.count32 (Reg.staleCount k) from rfl, State.count32, State.rd_wr_self, hcount]
    exact BitVec.eq_of_toNat_eq (by simp)

/-- R119 to R122: what a detection, after which the cluster goes on, makes of the state. -/
theorem detect_result (h : (s.cluster k).detections.length < 2) :
    let t := s.detect k
    let a := Reg.staleStatus k
    t.rf a staleStatus_RUN = 4096 ∧ t.rf a staleStatus_HOLDING = 1 ∧ t.rf a staleStatus_DETECTED = 1 ∧
      t.rf a staleStatus_CLEARED = 0 ∧ t.rd (Reg.staleCount k) = s.rd (Reg.staleCount k) + 1 ∧
      (t.cluster k).detections = (s.cluster k).detections ++ [s.ictNs] ∧ t.mem = s.mem ∧ t.frames = s.frames ∧
      ∀ n, (t.thr n).r = (s.thr n).r ∧ (t.thr n).pc = (s.thr n).pc ∧ (t.thr n).run = (s.thr n).run := by
  intro t a
  have honly := staleCounted_only s k
  have hkept : DetectKept k (staleCounted s k) (staleShown s k) := detectKept_staleShown s k
  obtain ⟨h1, h2, h3, h4, h5⟩ := staleCounted_fields s k
  have ht : t = (staleShown s k).setCluster k _ := detect_few h
  have hrd : ∀ b, t.rd b = (staleShown s k).rd b := fun b => by
    rw [ht]
    exact State.rd_congr (State.setCluster_regs ..) b
  have hrf : ∀ f : Fld, f.lo < 32 → f.words = 1 → t.rf a f = (staleCounted s k).rf a f := fun f hf hw =>
    State.rf_congr hf hw ((hrd a).trans hkept.status)
  refine ⟨?_, ?_, ?_, ?_, ?_, ?_, ?_, ?_, fun n => ?_⟩
  · rw [hrf _ (by decide) (by decide), h1]
  · rw [hrf _ (by decide) (by decide), h2]
  · rw [hrf _ (by decide) (by decide), h3]
  · rw [hrf _ (by decide) (by decide), h4]
  · rw [hrd, hkept.count, h5]
  · rw [ht, State.cluster_setCluster, if_pos rfl]
  · rw [ht, State.setCluster_mem, hkept.mem]
    exact mem_of_onlyRegs honly
  · rw [ht, State.setCluster_frames, hkept.frames]
    exact frames_of_onlyRegs honly
  · have hn := hkept.thr n
    rw [ht, State.thr_congr (State.setCluster_threads ..) (State.setCluster_stewards ..)]
    rwa [thr_of_onlyRegs honly] at hn

/-! ### A cycle of the detector -/

theorem exec_stalemateCycle (cl : Fin 16) (h : s.stopped = false) :
    exec (.stalemateCycle cl) s = .next (s.staleCycle cl.val).settle := by
  rw [show exec (.stalemateCycle cl) s = if s.stopped then .next s else done (s.staleCycle cl.val) from rfl, h]
  rfl

theorem exec_stalemate_detects (cl : Fin 16) (h : s.stopped = false)
    (hd : s.rf (Reg.staleCtl cl.val) staleCtl_ENABLE = 1 ∧ s.rf (Reg.staleStatus cl.val) staleStatus_RUN = 4095 ∧
      s.stale cl.val = true) : exec (.stalemate cl) s = .next (s.detect cl.val).settle :=
  (if_neg (by rw [h]; exact Bool.false_ne_true)).trans (if_pos hd)

theorem exec_stalemate_idle (cl : Fin 16) (h : s.stopped = false)
    (hd : ¬(s.rf (Reg.staleCtl cl.val) staleCtl_ENABLE = 1 ∧ s.rf (Reg.staleStatus cl.val) staleStatus_RUN = 4095 ∧
      s.stale cl.val = true)) : exec (.stalemate cl) s = .next s :=
  (if_neg (by rw [h]; exact Bool.false_ne_true)).trans (if_neg hd)

theorem staleCycle_off (h : s.rf (Reg.staleCtl k) staleCtl_ENABLE = 0 ∨ s.stale k = false) :
    s.staleCycle k = staleRun s k 0 (b2n (s.stale k)) :=
  if_pos (by rcases h with h | h <;> simp [h])

theorem staleCycle_on (h : s.rf (Reg.staleCtl k) staleCtl_ENABLE ≠ 0) (hs : s.stale k = true) :
    s.staleCycle k = if s.rf (Reg.staleStatus k) staleStatus_RUN = 4095 then s.detect k
      else staleRun s k (min 4096 (s.rf (Reg.staleStatus k) staleStatus_RUN + 1)) 1 :=
  if_neg (by simp [h, hs])

end

/-- Settles O30: the three writes, and a cycle of the detector by whether it counts, starts over or detects. -/
theorem stalemateDetector : Obligations.StalemateDetector := by
  intro cl s k a kept run on
  refine ⟨fun hopen => ⟨_, exec_threadFaultPop hopen, ?_, fun j hj => ?_, ?_⟩,
    fun hopen => ⟨_, exec_threadFaultLostClear hopen, ?_, dropHeld_setRf_only _ _ _ _ _, fun b hb => ?_⟩,
    fun hopen => ⟨_, exec_stalemateDetectedClear hopen, ?_, ?_, ?_, ?_, dropHeld_setRf_only _ _ _ _ _, fun b hb => ?_⟩,
    fun hrun => ⟨fun hoff => ?_, fun hon hstale hne => ?_, fun hidle => ?_, fun c hc hon h4095 hstale hlen => ?_⟩⟩
  · rw [State.cluster_setCluster, if_pos rfl]
  · rw [State.cluster_setCluster, if_neg hj]
    exact State.cluster_congr (t := s.dropHeld (Reg.threadFault k) 1) (congrArg State.clusters (s.dropHeld_only (Reg.threadFault k) 1) :) j
  · exact s.dropHeld_only _ _
  · rw [State.rf_setRf_same]
    rfl
  · rw [State.rd_setRf_word _ _ (by decide) (by decide) hb, State.rd_dropHeld]
  · rw [State.rf_setRf_same]
    rfl
  · rw [State.rf_setRf_beside _ _ _ (by decide) (by decide) (by decide) (by decide) (by decide), rf_dropHeld]
  · rw [State.rf_setRf_beside _ _ _ (by decide) (by decide) (by decide) (by decide) (by decide), rf_dropHeld]
  · rw [State.rf_setRf_beside _ _ _ (by decide) (by decide) (by decide) (by decide) (by decide), rf_dropHeld]
  · rw [State.rd_setRf_word _ _ (by decide) (by decide) hb, State.rd_dropHeld]
  · obtain ⟨h1, h2, h3, h4, hkept⟩ := staleRun_fields s k (run := 0) (holding := b2n (s.stale k)) (by decide)
      (by cases s.stale k <;> decide)
    refine ⟨_, exec_stalemateCycle cl hrun, ?_⟩
    rw [staleCycle_off hoff]
    exact ⟨h1, h2.trans (by cases s.stale k <;> rfl), h3, h4, hkept⟩
  · obtain ⟨h1, h2, h3, h4, hkept⟩ := staleRun_fields s k (run := min 4096 (run + 1)) (holding := 1) (by omega) (by decide)
    refine ⟨_, exec_stalemateCycle cl hrun, ?_⟩
    rw [staleCycle_on hon hstale, if_neg hne]
    exact ⟨h1, h2, h3, h4, hkept⟩
  · exact exec_stalemate_idle cl hrun hidle
  · have hresult := detect_result hlen
    rcases hc with rfl | rfl
    · exact ⟨_, exec_stalemate_detects cl hrun ⟨hon, h4095, hstale⟩, hresult⟩
    · refine ⟨_, exec_stalemateCycle cl hrun, ?_⟩
      rw [staleCycle_on (by omega) hstale, if_pos h4095]
      exact hresult

end Sys2Proof.Machine
end

section
/-! The stage profile: what an instruction does to the oldest pass of a lane, when its results are readable, and one cycle of a
lane (R64 to R66, R98 to R102, R156, R163). -/

namespace Sys2Proof.Machine

open Sys2Proof.Safety

/-! ### An instruction row at a lane -/

section
variable {c : Instr} {l : Fin 64} {pr : BitVec 3} {a : Afv} {s u : State} {p q : Pass} {rest : List Pass} {n : Nat}

/-- A cycle of a lane takes of its step what it makes of the oldest pass. -/
theorem laneCycle_congr {f g : State → Pass → State × Pass} (h : (s.lane n).passes = p :: rest) (hfg : f s p = g s p) :
    s.laneCycle n f = s.laneCycle n g := by
  unfold State.laneCycle
  simp only [h, hfg]

theorem exec_lane (hrow : rowOf c = some (.lane l, pr, a)) (hp : (s.lane l.val).passes = p :: rest) (hs : p.stage < 12)
    (h : s.slotInsn l.val pr a p = (u, q)) : exec c s = .next (s.laneCycle l.val fun _ _ => (u, q)) := by
  have hcycle : s.stageInsn l.val pr a = s.laneCycle l.val fun s p => s.slotInsn l.val pr a p := by
    unfold State.stageInsn
    simp only [hp, Nat.not_le.2 hs, if_false]
  rw [exec_of_rowOf hrow, show execAfv (.lane l) pr a s = .next (s.stageInsn l.val pr a) from rfl, hcycle,
    laneCycle_congr hp (g := fun _ _ => (u, q)) h]

/-- The pass runs the instruction of its slot. -/
def Pass.Runs (p : Pass) (pr : BitVec 3) : Prop := p.exc = none ∧ p.skip ≤ p.slot ∧ p.r.pred pr = true

theorem slotInsn_empty (hs : p.stage < 12) (hrun : ¬p.Runs pr) : s.slotInsn n pr a p = (s, p.step) := by
  unfold State.slotInsn
  rw [if_neg (by omega), if_pos]
  by_contra h
  simp only [Pass.empty, Bool.or_eq_true, Bool.not_eq_true', decide_eq_true_eq, not_or, Option.not_isSome_iff_eq_none,
    Bool.not_eq_false, Nat.not_lt] at h
  exact hrun ⟨h.1.1, h.1.2, h.2⟩

theorem slotInsn_runs (hs : p.stage < 12) (hrun : p.Runs pr) (h : s.stageRun (n / 2) p a = (u, q)) :
    s.slotInsn n pr a p = (u, q.step) := by
  obtain ⟨hexc, hskip, hpred⟩ := hrun
  have hempty : (p.empty || !p.r.pred pr) = false := by
    simp [Pass.empty, hexc, hpred, hskip]
  unfold State.slotInsn
  rw [if_neg (by omega), hempty, if_neg Bool.false_ne_true, h]

/-! ### What an instruction makes of the pass -/

/-- The instructions that act on the pass or its frame themselves. -/
def stageOwn (a : Afv) : Bool :=
  match a with
  | .sput .. | .sget .. | .load .. | .store .. | .branch .. | .look .. | .rcmp .. | .dispCont | .dispDrop | .dispGroup _ => true
  | _ => false

/-- What a computing instruction makes of the pass, by its delay and its writes. -/
def Pass.result (p : Pass) : Option Nat → Pure → Pass
  | some d, .ok g w => p.later d g w
  | _, _ => p.raise 0x21

theorem stageRun_result (h : stageOwn a = false) : s.stageRun n p a = (s, p.result (stageDelay a) (pureVal a p.r)) := by
  cases a with
  | sput | sget | load | store | branch | look | rcmp | dispCont | dispDrop | dispGroup => cases h
  | _ => rfl

theorem pureVal_own (h : stageOwn a = true) (r : Regs) : pureVal a r = .no := by
  cases a with
  | sput | sget | load | store | branch | look | rcmp | dispCont | dispDrop | dispGroup => rfl
  | _ => cases h

/-- What the stage profile has not has no delay. -/
theorem stageDelay_of_lacks (h : stageLacks a = true) : stageDelay a = none := by
  cases a with
  | mul op =>
    have hop : op = .divu ∨ op = .remu ∨ op = .divs ∨ op = .rems := of_decide_eq_true h
    exact if_neg (by rcases hop with rfl | rfl | rfl | rfl <;> decide)
  | help op => exact if_neg (of_decide_eq_true h)
  | alu | cmp | pred | imm | shift | ext | ins | cmpi => cases h
  | _ => rfl

theorem stageDelay_of_ok {r : Regs} {g : List (BitVec 5 × W64)} {w : List (BitVec 3 × Bool)} (h : stageLacks a = false)
    (hv : pureVal a r = .ok g w) : stageDelay a = some (slotsToResult a) := by
  cases a with
  | alu | cmp | pred | imm | shift | ext | ins | cmpi => rfl
  | mul op =>
    have hop : ¬(op = .divu ∨ op = .remu ∨ op = .divs ∨ op = .rems) := of_decide_eq_false h
    exact if_pos (by cases op <;> simp at hop ⊢)
  | help op => exact if_pos (not_not.1 (of_decide_eq_false h))
  | _ => cases hv

theorem stageRun_load (k : LoadKind) (rd ra : BitVec 5) (space size : BitVec 2) (off : BitVec 9) :
    s.stageRun n p (.load k rd ra space size off) = (s, if space ≠ 2 then p.raise 0x21
      else if windowMiss (effAddr (p.r.get ra) off) (accBytes size) then p.raise 0x01
      else p.later 2 [(rd, loadVal k ((s.frame p.fid).windowLoad (effAddr (p.r.get ra) off) (accBytes size)))] []) := rfl

theorem stageRun_store (be : Bool) (rs ra : BitVec 5) (space size : BitVec 2) (off : BitVec 9) :
    s.stageRun n p (.store be rs ra space size off) = if space ≠ 2 then (s, p.raise 0x21)
      else if windowMiss (effAddr (p.r.get ra) off) (accBytes size) then (s, p.raise 0x01)
      else (s.modFrame p.fid fun f => f.windowStore (effAddr (p.r.get ra) off) (storeVal be (p.r.get rs) (accBytes size)), p) := rfl

theorem stageRun_lacks (h : stageLacks a = true) : s.stageRun n p a = (s, p.raise 0x21) := by
  cases hown : stageOwn a with
  | false => rw [stageRun_result hown, stageDelay_of_lacks h]; rfl
  | true =>
    cases a with
    | load => rw [stageRun_load, if_pos (of_decide_eq_true h)]
    | store => rw [stageRun_store, if_pos (of_decide_eq_true h)]
    | sput | sget | branch | look | rcmp | dispCont | dispDrop | dispGroup => cases h
    | _ => cases hown

theorem stageOwn_of_pure {r : Regs} (hv : pureVal a r ≠ .no) : stageOwn a = false :=
  Bool.eq_false_of_not_eq_true fun h => hv (pureVal_own h r)

theorem stageRun_ok {g : List (BitVec 5 × W64)} {w : List (BitVec 3 × Bool)} (h : stageLacks a = false)
    (hv : pureVal a p.r = .ok g w) : s.stageRun n p a = (s, p.later (slotsToResult a) g w) := by
  rw [stageRun_result (stageOwn_of_pure (by rw [hv]; exact Pure.noConfusion)), stageDelay_of_ok h hv, hv]
  rfl

theorem stageRun_bad (hv : pureVal a p.r = .bad) : s.stageRun n p a = (s, p.raise 0x21) := by
  rw [stageRun_result (stageOwn_of_pure (by rw [hv]; exact Pure.noConfusion)), hv]
  cases stageDelay a <;> rfl

end

section
variable {s : State} {p : Pass} {n : Nat}

/-! ### Loads, stores and SGET (R71, R75, R76, R102) -/

theorem windowMiss_iff {a m : Nat} : windowMiss a m = true ↔ 256 < a + m := decide_eq_true_iff

theorem stageRun_load_miss {k : LoadKind} {rd ra : BitVec 5} {size : BitVec 2} {off : BitVec 9}
    (h : 256 < effAddr (p.r.get ra) off + accBytes size) :
    s.stageRun n p (.load k rd ra 2 size off) = (s, p.raise 0x01) := by
  rw [stageRun_load, if_neg (by decide), if_pos (windowMiss_iff.2 h)]

theorem stageRun_load_hit {k : LoadKind} {rd ra : BitVec 5} {size : BitVec 2} {off : BitVec 9}
    (h : effAddr (p.r.get ra) off + accBytes size ≤ 256) :
    ∃ v, Loaded k (accBytes size) (fun i => frameByte s p.fid (effAddr (p.r.get ra) off + i)) v ∧
      s.stageRun n p (.load k rd ra 2 size off) = (s, p.later 2 [(rd, v)] []) := by
  have hmiss : ¬windowMiss (effAddr (p.r.get ra) off) (accBytes size) = true :=
    fun hw => Nat.not_lt.2 h (windowMiss_iff.1 hw)
  refine ⟨_, loaded_loadVal k (accBytes_pos size) (accBytes_le size) (by simp)
    fun i hi => map_range_getD _ _ hi, ?_⟩
  rw [stageRun_load, if_neg (by decide), if_neg hmiss]
  rfl

theorem stageRun_store_miss {be : Bool} {rs ra : BitVec 5} {size : BitVec 2} {off : BitVec 9}
    (h : 256 < effAddr (p.r.get ra) off + accBytes size) :
    s.stageRun n p (.store be rs ra 2 size off) = (s, p.raise 0x01) := by
  rw [stageRun_store, if_neg (by decide), if_pos (windowMiss_iff.2 h)]

theorem stageRun_store_hit {be : Bool} {rs ra : BitVec 5} {size : BitVec 2} {off : BitVec 9}
    (h : effAddr (p.r.get ra) off + accBytes size ≤ 256) : s.stageRun n p (.store be rs ra 2 size off) =
      (s.setFrame p.fid ((s.frame p.fid).windowStore (effAddr (p.r.get ra) off) (storeVal be (p.r.get rs) (accBytes size))), p) := by
  have hmiss : ¬windowMiss (effAddr (p.r.get ra) off) (accBytes size) = true :=
    fun hw => Nat.not_lt.2 h (windowMiss_iff.1 hw)
  rw [stageRun_store, if_neg (by decide), if_neg hmiss]
  rfl

/-- The bytes of the frame after a store (R75). -/
theorem windowStore_bytes (be : Bool) (v : W64) (ea : Nat) (size : BitVec 2) (f : Frame) :
    (f.windowStore ea (storeVal be v (accBytes size))).s = f.s ∧
    (f.windowStore ea (storeVal be v (accBytes size))).data.length = f.data.length ∧
    ∀ j, j < (f.windowStore ea (storeVal be v (accBytes size))).data.length →
      (f.windowStore ea (storeVal be v (accBytes size))).data.getD j 0 =
        if ea ≤ j ∧ j < ea + accBytes size then stored be (accBytes size) v (j - ea) else f.data.getD j 0 := by
  refine ⟨rfl, Frame.windowStore_length _ _ _, fun j hj => ?_⟩
  rw [Frame.windowStore_length] at hj
  rw [Frame.windowStore_getD _ _ _ hj, storeVal_length]
  split
  · next h => rw [storeVal_getD _ _ (by omega)]
  · rfl

/-- The pass after SGET, by the value that SGET has. -/
def Pass.sgetResult (p : Pass) (rd : BitVec 5) : Option W64 → Pass
  | some v => p.later 1 [(rd, v)] []
  | none => p.raise 0x21

theorem stageRun_sget (rd : BitVec 5) (imm : BitVec 14) :
    s.stageRun n p (.sget rd imm) = (s, p.sgetResult rd (sgetVal (s.frame p.fid) imm)) := rfl

/-! ### SPUT of a word without loads and without EXC (R72) -/

/-- K, the one bit that a lane writes beside, is in word 0. -/
theorem satMask_lane {k : Nat} (hk : k ≠ 0) (b : Bool) : satMask k b = satMask k false := by
  obtain ⟨j, rfl⟩ := Nat.exists_eq_succ_of_ne_zero hk
  rfl

theorem sput_lane {fid k : Nat} (a m : W64) (hk : k ≠ 0) (b : Bool) : s.sput fid k a m b = s.sput fid k a m false := by
  unfold State.sput sputFrame
  simp only [satMask_lane hk b]

/-- The pass after SPUT, by what SPUT meant to EXC. -/
def Pass.sputResult (p : Pass) : ExcWrite → Pass
  | .raise c => p.raise c
  | _ => p

theorem stageRun_sput (w : BitVec 4) (ra rb : BitVec 5) : s.stageRun n p (.sput w ra rb) =
    ((s.sput p.fid w.toNat (p.r.get ra) (p.r.get rb) (n < 16 && p.stage = 0)).1,
      p.sputResult (s.sput p.fid w.toNat (p.r.get ra) (p.r.get rb) (n < 16 && p.stage = 0)).2) := rfl

theorem stageRun_sput_plain {w : BitVec 4} {ra rb : BitVec 5} (h0 : w ≠ 0) (h1 : w ≠ 1) (h2 : w ≠ 2) :
    s.stageRun n p (.sput w ra rb) =
      (s.setFrame p.fid ((s.frame p.fid).put w.toNat ((p.r.get ra).setWidth 32) ((p.r.get rb).setWidth 32)), p) := by
  have hne : w.toNat ≠ 0 ∧ w.toNat ≠ 1 ∧ w.toNat ≠ 2 := ⟨fun e => h0 (BitVec.eq_of_toNat_eq e), fun e => h1 (BitVec.eq_of_toNat_eq e),
    fun e => h2 (BitVec.eq_of_toNat_eq e)⟩
  have hput := s.sput_plain p.fid (p.r.get ra) (p.r.get rb) w.isLt (fun e => absurd e hne.1) (fun e => absurd e hne.2.1)
    (fun e => absurd e hne.2.2)
  rw [stageRun_sput, sput_lane _ _ hne.1, hput]
  rfl

theorem put_word {f : Frame} {w : Nat} (hw : w < 16) (h2 : w ≠ 2) (a m : W32) (i : Nat) :
    (f.put w a m).word i = if i = w then (f.word i &&& ~~~(m &&& writable i)) ||| (a &&& m &&& writable i) else f.word i := by
  rw [Frame.word_put f hw]
  split
  · next h => rw [h, putWord, if_neg h2]
  · rfl

/-! ### LOOK (R82, R161) -/

/-- What the running slot of a stage binds a table to. -/
def boundTable (s : State) (q : Nat) (p : Pass) (table : Nat) : Nat :=
  s.rdN (ctlAddr (pipeIsland q) (0x4000 + 0x100 * p.stage + 0x10 * (p.profile / 2 ^ (4 * p.stage) % 16))) 4 / 2 ^ (8 * table) % 256

/-- The pass after a lookup. -/
def Pass.lookResult (p : Pass) (rd : BitVec 5) (pd : BitVec 3) : Option (List W64) → Pass
  | some ws => p.later 12 (lookWrites rd ws) [(pd, true)]
  | none => p.later 12 [] [(pd, false)]

theorem boundTable_bit (s : State) (q : Nat) (p : Pass) (table : Nat) :
    (decide (table ≠ 15) && bit (boundTable s q p table) 7) = decide (table ≠ 15 ∧ 128 ≤ boundTable s q p table) := by
  have hlt : boundTable s q p table < 256 := Nat.mod_lt _ (by decide)
  rw [Bool.decide_and, bit]
  congr 1
  rw [decide_eq_decide]
  omega

theorem stageLook_bad {rd ra : BitVec 5} {table : Nat} {klen rcnt : BitVec 2} {pd : BitVec 3}
    (h : 31 < ra.toNat + klen.toNat ∨ 31 < rd.toNat + rcnt.toNat) :
    s.stageLook n p rd ra table klen rcnt pd = p.raise 0x21 :=
  if_pos (by simpa [lookBad] using h)

section
variable {rd ra : BitVec 5} {table : Nat} {klen rcnt : BitVec 2} {pd : BitVec 3} (hk : ra.toNat + klen.toNat ≤ 31)
  (hr : rd.toNat + rcnt.toNat ≤ 31)
include hk hr

theorem lookBad_false : ¬lookBad rd ra klen rcnt = true := by
  simp only [lookBad, Bool.or_eq_true, decide_eq_true_eq]
  omega

theorem stageLook_eq : s.stageLook n p rd ra table klen rcnt pd =
    let b := boundTable s n p table
    let bound := decide (table ≠ 15) && bit b 7
    if bound && s.lookLost n (b % 32) then (p.later 12 [] [(pd, false)]).raise 0x1F
    else p.lookResult rd pd (if bound then s.lookup n (b % 32) (lookKey p.r ra (klen.toNat + 1)) (rcnt.toNat + 1) else none) :=
  if_neg (lookBad_false hk hr)

theorem stageLook_unbound (h : ¬(table ≠ 15 ∧ 128 ≤ boundTable s n p table)) :
    s.stageLook n p rd ra table klen rcnt pd = p.later 12 [] [(pd, false)] := by
  rw [stageLook_eq hk hr]
  dsimp only
  rw [boundTable_bit, decide_eq_false h]
  rfl

theorem stageLook_lost (h : table ≠ 15 ∧ 128 ≤ boundTable s n p table)
    (hl : s.lookLost n (boundTable s n p table % 32) = true) :
    s.stageLook n p rd ra table klen rcnt pd = (p.later 12 [] [(pd, false)]).raise 0x1F := by
  rw [stageLook_eq hk hr]
  dsimp only
  rw [boundTable_bit, decide_eq_true h, hl]
  rfl

/-- The table is bound and its bank is not marked LOST: the lookup decides. -/
theorem stageLook_bound (h : table ≠ 15 ∧ 128 ≤ boundTable s n p table)
    (hl : s.lookLost n (boundTable s n p table % 32) = false) : s.stageLook n p rd ra table klen rcnt pd =
      p.lookResult rd pd (s.lookup n (boundTable s n p table % 32) (lookKey p.r ra (klen.toNat + 1)) (rcnt.toNat + 1)) := by
  rw [stageLook_eq hk hr]
  dsimp only
  rw [boundTable_bit, decide_eq_true h, hl]
  rfl

end

end

/-! ### When results are readable (R98, R100, R163) -/

section
variable {p : Pass} {rd : BitVec 5} {v : W64} {t : Nat}

theorem Pass.commit_nil (h : p.pend = []) : p.commit t = p := by
  obtain ⟨⟩ := p
  cases h
  rfl

/-- A result that is not yet due waits. -/
theorem Pass.commit_before {x : StageWrite} (h : p.pend = [x]) (hx : t < x.at_) : p.commit t = p := by
  obtain ⟨⟩ := p
  cases h
  simp [Pass.commit, Nat.not_le.2 hx]

theorem Pass.commit_due {x : StageWrite} (h : p.pend = [x]) (hx : x.at_ ≤ t) :
    p.commit t = { p with r := p.r.writes x.g x.p, pend := [] } := by
  simp [Pass.commit, h, hx]

/-- The pass at its next slot of the stage. -/
def Pass.next (p : Pass) : Pass := { p with slot := p.slot + 1 }

@[simp] theorem Pass.next_slot (p : Pass) : p.next.slot = p.slot + 1 := rfl
@[simp] theorem Pass.next_now (p : Pass) : p.next.now = p.now + 1 := rfl

theorem Pass.step_within (h : p.slot < 31) : p.step = p.next.commit (p.now + 1) := if_pos (by omega)

theorem Pass.step_last (h : p.slot = 31) :
    p.step = (({ p with stage := p.stage + 1, slot := 0, skip := 0 } : Pass).commit (p.now + 1)).enter :=
  if_neg (by omega)

/-- The step into the slot at which a result is readable writes it. -/
theorem Pass.step_due {x : Nat} (h : p.slot < 31) (hp : p.pend = [⟨x, [(rd, v)], []⟩]) (hx : x ≤ p.now + 1) :
    p.step.r = p.r.set rd v := by
  rw [Pass.step_within h, Pass.commit_due (p := p.next) hp hx]
  rfl

/-- A result that waits for a later slot waits through the step. -/
theorem Pass.step_before {x : StageWrite} (h : p.slot < 31) (hp : p.pend = [x]) (hx : p.now + 1 < x.at_) : p.step = p.next := by
  rw [Pass.step_within h, Pass.commit_before (p := p.next) hp hx]

theorem Pass.later_pend {d : Nat} (hp : p.pend = []) : (p.later d [(rd, v)] []).pend = [⟨p.now + d, [(rd, v)], []⟩] := by
  simp [Pass.later, hp]

@[simp] theorem Pass.later_slot (d : Nat) (g : List (BitVec 5 × W64)) (w : List (BitVec 3 × Bool)) : (p.later d g w).slot = p.slot := rfl
@[simp] theorem Pass.later_now (d : Nat) (g : List (BitVec 5 × W64)) (w : List (BitVec 3 × Bool)) : (p.later d g w).now = p.now := rfl

theorem Regs.get_set_same (r : Regs) (hrd : rd ≠ 0) : (r.set rd v).get rd = v := by
  rw [Regs.get_set, if_neg hrd, if_pos rfl]

theorem Regs.get_set_other (r : Regs) {q : BitVec 5} (hq : q ≠ rd) : (r.set rd v).get q = r.get q := by
  rw [Regs.get_set, if_neg hq]
  split
  · next h => rw [h, Regs.get_zero]
  · rfl

/-- Latency 1: readable in the next slot. -/
theorem Pass.r_later_one (h : p.slot < 31) (hp : p.pend = []) : (p.later 1 [(rd, v)] []).step.r = p.r.set rd v :=
  Pass.step_due (p := p.later 1 [(rd, v)] []) h (Pass.later_pend hp) (Nat.le_refl _)

theorem Pass.r_later_two (h : p.slot < 30) (hp : p.pend = []) : (p.later 2 [(rd, v)] []).step.step.r = p.r.set rd v := by
  have hpend : (p.later 2 [(rd, v)] []).pend = _ := Pass.later_pend hp
  rw [Pass.step_before (p := p.later 2 [(rd, v)] []) (by simp; omega) hpend (by simp)]
  exact Pass.step_due (p := (p.later 2 [(rd, v)] []).next) (by simp; omega) hpend (by simp)

theorem Pass.r_later_three (h : p.slot < 29) (hp : p.pend = []) : (p.later 3 [(rd, v)] []).step.step.step.r = p.r.set rd v := by
  have hpend : (p.later 3 [(rd, v)] []).pend = _ := Pass.later_pend hp
  rw [Pass.step_before (p := p.later 3 [(rd, v)] []) (by simp; omega) hpend (by simp),
    Pass.step_before (p := (p.later 3 [(rd, v)] []).next) (by simp; omega) hpend (by simp)]
  exact Pass.step_due (p := (p.later 3 [(rd, v)] []).next.next) (by simp; omega) hpend (by simp)

/-- The registers as a stage begins. -/
theorem Pass.get_enter (p : Pass) (r : BitVec 5) : p.enter.r.get r = if r.toNat < 16 then p.r.get r else 0 := by
  by_cases h0 : r = 0
  · rw [h0, Regs.get_zero, Regs.get_zero, ite_self]
  · rw [Regs.get, if_neg h0, Regs.get, if_neg h0]
    exact Vector.getElem_ofFn _

theorem Pass.pred_enter (p : Pass) (q : BitVec 3) : p.enter.r.pred q = decide (q = 0) := by
  rw [Regs.pred, show p.enter.r.p = 1 from rfl]
  revert q
  decide

theorem Pass.enter_keeps (p : Pass) : p.enter.stage = p.stage ∧ p.enter.slot = p.slot ∧ p.enter.skip = p.skip ∧
    p.enter.verdict = p.verdict ∧ p.enter.exc = p.exc ∧ p.enter.fid = p.fid := by
  unfold Pass.enter
  exact ⟨rfl, rfl, rfl, rfl, rfl, rfl⟩

theorem Pass.step_last_nil (h : p.slot = 31) (hp : p.pend = []) :
    p.step = ({ p with stage := p.stage + 1, slot := 0, skip := 0 } : Pass).enter := by
  rw [Pass.step_last h, Pass.commit_nil (p := { p with stage := p.stage + 1, slot := 0, skip := 0 }) hp]

end

/-- R98, R100 and R163 of one pass. -/
theorem stage_latencies (p : Pass) (rd : BitVec 5) (v : W64) (hp : p.pend = []) (hrd : rd ≠ 0) :
    (p.slot < 31 →
      (p.later 1 [(rd, v)] []).step.r.get rd = v ∧ p.step.slot = p.slot + 1 ∧ p.step.stage = p.stage ∧
      (∀ r, r ≠ rd → (p.later 1 [(rd, v)] []).step.r.get r = p.r.get r) ∧
      (∀ d, 2 ≤ d → (p.later d [(rd, v)] []).step.r.get rd = p.r.get rd)) ∧
    (p.slot < 30 → (p.later 2 [(rd, v)] []).step.step.r.get rd = v) ∧
    (p.slot < 29 → (p.later 3 [(rd, v)] []).step.step.step.r.get rd = v) ∧
    (p.slot = 31 → p.step.stage = p.stage + 1 ∧ p.step.slot = 0 ∧ p.step.skip = 0 ∧ p.step.verdict = p.verdict ∧ p.step.exc = p.exc ∧
      (∀ r, p.step.r.get r = if r.toNat < 16 then p.r.get r else 0) ∧ (∀ q, p.step.r.pred q = decide (q = 0))) := by
  refine ⟨fun h => ⟨?_, ?_, ?_, fun r hr => ?_, fun d hd => ?_⟩, fun h => ?_, fun h => ?_, fun h => ?_⟩
  · rw [Pass.r_later_one h hp, Regs.get_set_same _ hrd]
  · rw [Pass.step_within h]
    rfl
  · rw [Pass.step_within h]
    rfl
  · rw [Pass.r_later_one h hp, Regs.get_set_other _ hr]
  · rw [Pass.step_before (p := p.later d [(rd, v)] []) h (Pass.later_pend hp) (by simp; omega)]
    rfl
  · rw [Pass.r_later_two h hp, Regs.get_set_same _ hrd]
  · rw [Pass.r_later_three h hp, Regs.get_set_same _ hrd]
  · rw [Pass.step_last_nil h hp]
    obtain ⟨hstage, hslot, hskip, hverdict, hexc, -⟩ :=
      Pass.enter_keeps { p with stage := p.stage + 1, slot := 0, skip := 0 }
    exact ⟨hstage, hslot, hskip, hverdict, hexc, Pass.get_enter _, Pass.pred_enter _⟩

/-! ### A cycle of a lane (R99, R156) -/

section
variable {s u : State} {p q : Pass} {n : Nat} {a : Afv} {pr : BitVec 3}

/-- SPUT before its write of EXC: the word and the loads. -/
def sputLoaded (s : State) (fid k : Nat) (a m : W64) (b : Bool) : State :=
  let s := s.modFrame fid fun f => sputFrame f k (a.toNat % 2 ^ 32) (m.toNat % 2 ^ 32) b
  let s := if k = 0 ∧ fld (m.toNat % 2 ^ 32) 0 12 ≠ 0 then s.loadGen fid else s
  if k = 1 ∧ fld (m.toNat % 2 ^ 32) 12 10 ≠ 0 then s.loadSvc fid else s

theorem lanes_loadSvc (s : State) (fid : Nat) : (s.loadSvc fid).lanes = s.lanes :=
  (congrArg State.lanes (s.loadSvc_only fid) :).trans (State.modFrame_lanes ..)

theorem lanes_sputLoaded (s : State) (fid k : Nat) (a m : W64) (b : Bool) : (sputLoaded s fid k a m b).lanes = s.lanes := by
  unfold sputLoaded
  dsimp only
  rw [apply_ite State.lanes, lanes_loadSvc, ite_self, apply_ite State.lanes, State.loadGen, State.modFrame_lanes, ite_self,
    State.modFrame_lanes]

theorem sput_fst (s : State) (fid k : Nat) (a m : W64) (b : Bool) :
    (s.sput fid k a m b).1 = sputLoaded s fid k a m b ∨ ∃ f, (s.sput fid k a m b).1 = (sputLoaded s fid k a m b).setFrame fid f := by
  have h : s.sput fid k a m b =
      let u := sputLoaded s fid k a m b
      let f := u.frame fid
      if k ≠ 2 ∨ !bit (m.toNat % 2 ^ 32) 28 ∨ f.gf sfExc = fld (a.toNat % 2 ^ 32) 28 1 then (u, .keep)
      else if bit (a.toNat % 2 ^ 32) 28 then (u, .raise (fwReason (f.gf sfReason)))
      else (u.setFrame fid ((f.sf sfExc 0).sf sfReason 0), .resume) := rfl
  rw [h]
  dsimp only
  split_ifs
  · exact .inl rfl
  · exact .inl rfl
  · exact .inr ⟨_, rfl⟩

theorem lanes_sput (s : State) (fid k : Nat) (a m : W64) (b : Bool) : (s.sput fid k a m b).1.lanes = s.lanes := by
  rcases sput_fst s fid k a m b with h | ⟨f, h⟩
  · rw [h, lanes_sputLoaded]
  · rw [h, State.setFrame_lanes, lanes_sputLoaded]

/-- An instruction of a stage leaves the lanes alone. -/
theorem lanes_stageRun : (s.stageRun n p a).1.lanes = s.lanes := by
  cases a with
  | sput w ra rb => rw [stageRun_sput]; exact lanes_sput _ _ _ _ _ _
  | store be rs ra space size off =>
    rw [stageRun_store]
    split_ifs
    · rfl
    · rfl
    · exact State.modFrame_lanes ..
  | _ => rfl

theorem lanes_slotInsn : (s.slotInsn n pr a p).1.lanes = s.lanes := by
  unfold State.slotInsn
  split_ifs
  · rfl
  · rfl
  · exact lanes_stageRun

theorem slotWord_none (s : State) (n : Nat) (p : Pass) : s.slotWord n none p =
    if 12 ≤ p.stage then (s, p)
    else if p.empty || !bit p.profile (48 + p.stage) then (s, p.step)
    else
      let w := s.rd (Reg.pipeProg (n / 2) p.stage (fld p.profile (4 * p.stage) 4) p.slot)
      (afvDecode w).elim (s, (if p.r.pred (afvPred w) then p.raise 0x21 else p).step) fun a => s.slotInsn n (afvPred w) a p := by
  unfold State.slotWord
  rw [if_neg (show ¬(none : Option Nat) = some p.now from nofun)]
  dsimp only
  cases afvDecode _ <;> rfl

end

/-! ### The place of a pass -/

section
variable {s u : State} {p q : Pass} {n : Nat} {a : Afv} {pr : BitVec 3}

/-- The pass of the same frame, at the same slot. -/
structure Pass.Placed (p q : Pass) : Prop where
  fid : q.fid = p.fid
  stage : q.stage = p.stage
  slot : q.slot = p.slot

theorem Pass.placed_refl (p : Pass) : p.Placed p := ⟨rfl, rfl, rfl⟩
theorem Pass.placed_later (p : Pass) (d : Nat) (g : List (BitVec 5 × W64)) (w : List (BitVec 3 × Bool)) : p.Placed (p.later d g w) :=
  ⟨rfl, rfl, rfl⟩
theorem Pass.placed_raise (p : Pass) (reason : Nat) : p.Placed (p.raise reason) := ⟨rfl, rfl, rfl⟩

theorem placed_lookResult (rd : BitVec 5) (pd : BitVec 3) (r : Option (List W64)) : p.Placed (p.lookResult rd pd r) := by
  cases r with
  | none => exact p.placed_later _ _ _
  | some ws => exact p.placed_later _ _ _

theorem placed_stageLook (rd ra : BitVec 5) (table : Nat) (klen rcnt : BitVec 2) (pd : BitVec 3) :
    p.Placed (s.stageLook n p rd ra table klen rcnt pd) := by
  by_cases hbad : 31 < ra.toNat + klen.toNat ∨ 31 < rd.toNat + rcnt.toNat
  · rw [stageLook_bad hbad]
    exact p.placed_raise _
  · rw [stageLook_eq (by omega) (by omega)]
    dsimp only
    split
    · exact ⟨rfl, rfl, rfl⟩
    · exact placed_lookResult rd pd _

theorem placed_result (d : Option Nat) (x : Pure) : p.Placed (p.result d x) := by
  cases d with
  | none => exact p.placed_raise _
  | some d =>
    cases x with
    | ok g w => exact p.placed_later _ _ _
    | bad => exact p.placed_raise _
    | no => exact p.placed_raise _

theorem stageRun_branch (off : BitVec 20) : s.stageRun n p (.branch off) = (s,
    if 1 ≤ off.toInt ∧ (p.slot : Int) + off.toInt ≤ 32 then { p with skip := ((p.slot : Int) + off.toInt).toNat }
    else p.raise 0x21) := rfl

theorem placed_stageRun_other (h : stageOwn a = false) : p.Placed (s.stageRun n p a).2 := by
  rw [stageRun_result h]
  exact placed_result _ _

/-- An instruction of a stage leaves the pass at its slot. -/
theorem placed_stageRun : p.Placed (s.stageRun n p a).2 := by
  cases a with
  | sput w ra rb =>
    rw [stageRun_sput]
    generalize (s.sput _ _ _ _ _).2 = x
    cases x with
    | raise c => exact p.placed_raise c
    | keep => exact p.placed_refl
    | resume => exact p.placed_refl
  | sget rd imm =>
    rw [stageRun_sget]
    cases sgetVal (s.frame p.fid) imm with
    | none => exact p.placed_raise _
    | some v => exact p.placed_later _ _ _
  | load k rd ra space size off =>
    rw [stageRun_load]
    split_ifs
    · exact p.placed_raise _
    · exact p.placed_raise _
    · exact p.placed_later _ _ _
  | store be rs ra space size off =>
    rw [stageRun_store]
    split_ifs
    · exact p.placed_raise _
    · exact p.placed_raise _
    · exact p.placed_refl
  | branch off =>
    rw [stageRun_branch]
    split_ifs
    · exact ⟨rfl, rfl, rfl⟩
    · exact p.placed_raise _
  | look => exact placed_stageLook _ _ _ _ _ _
  | rcmp | dispCont | dispDrop | dispGroup => exact ⟨rfl, rfl, rfl⟩
  | _ => exact placed_stageRun_other rfl

theorem Pass.commit_keeps (p : Pass) (t : Nat) : (p.commit t).stage = p.stage ∧ (p.commit t).slot = p.slot ∧ (p.commit t).fid = p.fid := by
  unfold Pass.commit
  exact ⟨rfl, rfl, rfl⟩

theorem Pass.now_step (h : p.slot < 32) : p.step.fid = p.fid ∧ p.step.now = p.now + 1 := by
  by_cases hs : p.slot < 31
  · obtain ⟨hstage, hslot, hfid⟩ := p.next.commit_keeps (p.now + 1)
    rw [Pass.step_within hs]
    refine ⟨hfid, ?_⟩
    rw [Pass.now, hstage, hslot]
    rfl
  · have h31 : p.slot = 31 := by omega
    let x : Pass := { p with stage := p.stage + 1, slot := 0, skip := 0 }
    obtain ⟨hstage, hslot, hfid⟩ := x.commit_keeps (p.now + 1)
    obtain ⟨hstage', hslot', -, -, -, hfid'⟩ := (x.commit (p.now + 1)).enter_keeps
    rw [Pass.step_last h31]
    refine ⟨hfid'.trans hfid, ?_⟩
    rw [Pass.now, hstage', hslot', hstage, hslot, Pass.now, h31]
    show 32 * (p.stage + 1) + 0 = _
    omega

/-- Which slot of the pipeline a pass is at after a cycle in which it runs on (R99). -/
theorem Pass.Placed.step_now (h : p.Placed q) (hs : p.slot < 32) : q.step.fid = p.fid ∧ q.step.now = p.now + 1 := by
  obtain ⟨hfid, hnow⟩ := Pass.now_step (p := q) (by rw [h.slot]; exact hs)
  refine ⟨hfid.trans h.fid, ?_⟩
  rw [hnow, Pass.now, h.stage, h.slot, Pass.now]

theorem slotInsn_moves (hp : p.stage < 12) (hs : p.slot < 32) :
    (s.slotInsn n pr a p).2.fid = p.fid ∧ (s.slotInsn n pr a p).2.now = p.now + 1 := by
  unfold State.slotInsn
  rw [if_neg (by omega)]
  split
  · exact Pass.now_step hs
  · exact placed_stageRun.step_now hs

theorem slotWord_stays (hp : 12 ≤ p.stage) : s.slotWord n none p = (s, p) := if_pos hp

theorem slotWord_moves (hp : p.stage < 12) (hs : p.slot < 32) : (s.slotWord n none p).1.lanes = s.lanes ∧
    (s.slotWord n none p).2.fid = p.fid ∧ (s.slotWord n none p).2.now = p.now + 1 := by
  rw [slotWord_none, if_neg (by omega)]
  split
  · exact ⟨rfl, Pass.now_step hs⟩
  · dsimp only
    cases afvDecode _ with
    | some a => exact ⟨lanes_slotInsn, slotInsn_moves hp hs⟩
    | none =>
      refine ⟨rfl, ?_⟩
      show (if _ then p.raise 0x21 else p).step.fid = _ ∧ (if _ then p.raise 0x21 else p).step.now = _
      split
      · exact (p.placed_raise _).step_now hs
      · exact Pass.now_step hs

theorem restCycle_moves (n : Nat) (ps : List Pass) (h : ∀ x ∈ ps, x.slot < 32) (s : State) :
    (s.restCycle n ps).1.lanes = s.lanes ∧ (s.restCycle n ps).2.map (fun x => x.fid) = ps.map (fun x => x.fid) ∧
    (s.restCycle n ps).2.map Pass.now = ps.map fun x => x.now + if x.stage < 12 then 1 else 0 := by
  induction ps generalizing s with
  | nil => exact ⟨rfl, rfl, rfl⟩
  | cons p ps ih =>
    obtain ⟨hlanes, hfids, hnows⟩ := ih (fun x hx => h x (List.mem_cons_of_mem p hx)) (s.slotWord n none p).1
    have hp : (s.slotWord n none p).1.lanes = s.lanes ∧ (s.slotWord n none p).2.fid = p.fid ∧
        (s.slotWord n none p).2.now = p.now + if p.stage < 12 then 1 else 0 := by
      by_cases h12 : p.stage < 12
      · rw [if_pos h12]
        exact slotWord_moves h12 (h p (List.mem_cons_self ..))
      · rw [if_neg h12, slotWord_stays (by omega)]
        exact ⟨rfl, rfl, rfl⟩
    rw [State.restCycle]
    exact ⟨hlanes.trans hp.1, congrArg₂ List.cons hp.2.1 hfids, congrArg₂ List.cons hp.2.2 hnows⟩

theorem State.lane_congr (h : u.lanes = s.lanes) (n : Nat) : u.lane n = s.lane n := by rw [State.lane, State.lane, h]

theorem State.lane_setLane (s : State) (n : Nat) (l : Lane) : (s.setLane n l).lane n = l := Tab.get_put_self _ _ _ _

/-- R99 and R156: the oldest pass goes to `q`, each younger one takes a slot. -/
theorem laneCycle_moves {rest : List Pass} (hp : (s.lane n).passes = p :: rest) (hu : u.lane n = s.lane n)
    (h : ∀ x ∈ rest, x.slot < 32) :
    ∃ ys, ((s.laneCycle n fun _ _ => (u, q)).lane n).passes = q :: ys ∧ ys.map (fun x => x.fid) = rest.map (fun x => x.fid) ∧
      ys.map Pass.now = (rest.map fun x => x.now + if x.stage < 12 then 1 else 0) ∧
      ((s.laneCycle n fun _ _ => (u, q)).lane n).cycle = ((s.lane n).cycle + 1) % 16 := by
  obtain ⟨hlanes, hfids, hnows⟩ := restCycle_moves n rest h u
  have hcycle : s.laneCycle n (fun _ _ => (u, q)) = (u.restCycle n rest).1.setLane n
      { (u.restCycle n rest).1.lane n with
        passes := q :: (u.restCycle n rest).2, cycle := (((u.restCycle n rest).1.lane n).cycle + 1) % 16 } := by
    unfold State.laneCycle
    simp only [hp]
  rw [hcycle, State.lane_setLane, State.lane_congr hlanes, hu]
  exact ⟨_, rfl, hfids, hnows, rfl⟩

end

/-! ### Every instruction row at a lane -/

/-- The state and the pass that an instruction of a stage leads to, as one cycle of the lane. -/
def LaneRuns (c : Instr) (l : Fin 64) (s u : State) (q : Pass) : Prop :=
  exec c s = .next (s.laneCycle l.val fun _ _ => (u, q.step))

section
variable {c : Instr} {l : Fin 64} {pr : BitVec 3} {s : State} {p : Pass}

theorem laneRuns_load {k : LoadKind} {rd ra : BitVec 5} {size : BitVec 2} {off : BitVec 9}
    (run : ∀ {u q}, s.stageRun (l.val / 2) p (.load k rd ra 2 size off) = (u, q) → LaneRuns c l s u q) :
    let ea := (p.r.get ra + off.signExtend 64).toNat
    if 256 < ea + 2 ^ size.toNat then LaneRuns c l s s (p.raise 0x01)
    else ∃ v, Loaded k (2 ^ size.toNat) (fun i => frameByte s p.fid (ea + i)) v ∧ LaneRuns c l s s (p.later 2 [(rd, v)] []) := by
  intro ea
  by_cases h : 256 < ea + 2 ^ size.toNat
  · rw [if_pos h]
    exact run (stageRun_load_miss h)
  · rw [if_neg h]
    obtain ⟨v, hv, hrun⟩ := stageRun_load_hit (s := s) (p := p) (n := l.val / 2) (k := k) (rd := rd) (ra := ra) (size := size)
      (off := off) (Nat.not_lt.1 h)
    exact ⟨v, hv, run hrun⟩

theorem laneRuns_store {be : Bool} {rs ra : BitVec 5} {size : BitVec 2} {off : BitVec 9}
    (run : ∀ {u q}, s.stageRun (l.val / 2) p (.store be rs ra 2 size off) = (u, q) → LaneRuns c l s u q) :
    let ea := (p.r.get ra + off.signExtend 64).toNat
    if 256 < ea + 2 ^ size.toNat then LaneRuns c l s s (p.raise 0x01)
    else ∃ f : Frame, LaneRuns c l s (s.setFrame p.fid f) p ∧ f.s = (s.frame p.fid).s ∧
      f.data.length = (s.frame p.fid).data.length ∧
      ∀ j, j < f.data.length → f.data.getD j 0 =
        if ea ≤ j ∧ j < ea + 2 ^ size.toNat then stored be (2 ^ size.toNat) (p.r.get rs) (j - ea) else frameByte s p.fid j := by
  intro ea
  by_cases h : 256 < ea + 2 ^ size.toNat
  · rw [if_pos h]
    exact run (stageRun_store_miss h)
  · rw [if_neg h]
    exact ⟨_, run (stageRun_store_hit (Nat.not_lt.1 h)), windowStore_bytes be (p.r.get rs) ea size (s.frame p.fid)⟩

theorem laneRuns_branch {off : BitVec 20} (run : ∀ {u q}, s.stageRun (l.val / 2) p (.branch off) = (u, q) → LaneRuns c l s u q) :
    if 1 ≤ off.toInt ∧ (p.slot : Int) + off.toInt ≤ 32 then
      LaneRuns c l s s { p with skip := ((p.slot : Int) + off.toInt).toNat }
    else LaneRuns c l s s (p.raise 0x21) := by
  by_cases h : 1 ≤ off.toInt ∧ (p.slot : Int) + off.toInt ≤ 32
  · rw [if_pos h]
    exact run (by rw [stageRun_branch, if_pos h])
  · rw [if_neg h]
    exact run (by rw [stageRun_branch, if_neg h])

theorem laneRuns_look {rd ra : BitVec 5} {table : BitVec 4} {klen rcnt : BitVec 2} {pd : BitVec 3}
    (run : ∀ {u q}, s.stageRun (l.val / 2) p (.look rd ra table klen rcnt pd) = (u, q) → LaneRuns c l s u q) :
    let q := l.val / 2
    let b := boundTable s q p table.toNat
    let bound := table ≠ 15 ∧ 128 ≤ b
    let key := lookKey p.r ra (klen.toNat + 1)
    let missed := p.later 12 [] [(pd, false)]
    (31 < ra.toNat + klen.toNat ∨ 31 < rd.toNat + rcnt.toNat → LaneRuns c l s s (p.raise 0x21)) ∧
    (ra.toNat + klen.toNat ≤ 31 → rd.toNat + rcnt.toNat ≤ 31 →
      (¬bound → LaneRuns c l s s missed) ∧
      (bound → s.lookLost q (b % 32) = true → LaneRuns c l s s (missed.raise 0x1F)) ∧
      (bound → s.lookLost q (b % 32) = false → s.lookup q (b % 32) key (rcnt.toNat + 1) = none → LaneRuns c l s s missed) ∧
      (∀ ws, bound → s.lookLost q (b % 32) = false → s.lookup q (b % 32) key (rcnt.toNat + 1) = some ws →
        LaneRuns c l s s (p.later 12 (lookWrites rd ws) [(pd, true)]))) := by
  intro q b bound key missed
  have runs : ∀ x, s.stageLook q p rd ra table.toNat klen rcnt pd = x → LaneRuns c l s s x := fun x hx =>
    run (by rw [← hx]; rfl)
  have htable : table.toNat ≠ 15 ↔ table ≠ 15 := not_congr ⟨fun e => BitVec.eq_of_toNat_eq e, fun e => by rw [e]; rfl⟩
  have hbound : bound ↔ table.toNat ≠ 15 ∧ 128 ≤ b := and_congr_left' htable.symm
  refine ⟨fun h => runs _ (stageLook_bad h), fun hk hr => ⟨fun hb => runs _ (stageLook_unbound hk hr (hbound.not.1 hb)),
    fun hb hl => runs _ (stageLook_lost hk hr (hbound.1 hb) hl), fun hb hl hm => runs _ ?_, fun ws hb hl hm => runs _ ?_⟩⟩
  · rw [stageLook_bound hk hr (hbound.1 hb) hl, hm]
    rfl
  · rw [stageLook_bound hk hr (hbound.1 hb) hl, hm]
    rfl

theorem laneRuns_sget {rd : BitVec 5} {imm : BitVec 14}
    (run : ∀ {u q}, s.stageRun (l.val / 2) p (.sget rd imm) = (u, q) → LaneRuns c l s u q) :
    let k := (imm.extractLsb' 0 4).toNat
    if imm.extractLsb' 5 9 ≠ 0 ∨ (imm.getLsbD 4 = true ∧ k % 2 = 1) then LaneRuns c l s s (p.raise 0x21)
    else LaneRuns c l s s (p.later 1 [(rd, if imm.getLsbD 4 then word s p.fid (k + 1) ++ word s p.fid k
      else (word s p.fid k).setWidth 64)] []) := by
  intro k
  by_cases h : imm.extractLsb' 5 9 ≠ 0 ∨ (imm.getLsbD 4 = true ∧ k % 2 = 1)
  · rw [if_pos h]
    exact run (by rw [stageRun_sget, sgetVal_none _ imm h]; rfl)
  · rw [if_neg h]
    exact run (by rw [stageRun_sget, sgetVal_some s p.fid imm h]; rfl)

theorem laneRuns_sput {w : BitVec 4} {ra rb : BitVec 5}
    (run : ∀ {u q}, s.stageRun (l.val / 2) p (.sput w ra rb) = (u, q) → LaneRuns c l s u q) (h0 : w ≠ 0) (h1 : w ≠ 1) (h2 : w ≠ 2) :
    ∃ f : Frame, LaneRuns c l s (s.setFrame p.fid f) p ∧
      f.data = (s.frame p.fid).data ∧ ∀ i, i < 16 → f.s[i]?.getD 0 = if i = w.toNat then
        (word s p.fid i &&& ~~~((p.r.get rb).setWidth 32 &&& writable i)) |||
          ((p.r.get ra).setWidth 32 &&& (p.r.get rb).setWidth 32 &&& writable i) else word s p.fid i :=
  ⟨_, run (stageRun_sput_plain h0 h1 h2), rfl, fun i _ =>
    put_word w.isLt (fun e => h2 (BitVec.eq_of_toNat_eq e)) _ _ i⟩

end

/-- Settles O27: each instruction row by the equation of its arm of `stageRun`, the steps of a pass with one result that waits, and
the younger passes by induction. -/
theorem stageInstructions : Obligations.StageInstructions := by
  refine ⟨fun c l pr a s p rest hrow hp hs => ?_, stage_latencies, fun n s u p q rest hp hu h => laneCycle_moves hp hu h⟩
  intro put runs
  have run : runs → ∀ {u q}, s.stageRun (l.val / 2) p a = (u, q) → LaneRuns c l s u q := fun hruns u q hrun =>
    exec_lane hrow hp hs (slotInsn_runs hs hruns hrun)
  refine ⟨fun h => exec_lane hrow hp hs (slotInsn_empty hs h), fun h hl => run h (stageRun_lacks hl),
    fun h g q hl hv => run h (stageRun_ok hl hv), fun h hv => run h (stageRun_bad hv), ?_, ?_, ?_, ?_, ?_, ?_, ?_, ?_, ?_, ?_⟩
  · rintro h k rd ra size off rfl
    exact laneRuns_load (run h)
  · rintro h be rs ra size off rfl
    exact laneRuns_store (run h)
  · rintro h off rfl
    exact laneRuns_branch (run h)
  · rintro h rfl
    exact run h rfl
  · rintro h rfl
    exact run h rfl
  · rintro h ra rfl
    exact run h rfl
  · rintro h rd ra tag rfl
    exact run h rfl
  · rintro h rd ra table klen rcnt pd rfl
    exact laneRuns_look (run h)
  · rintro h rd imm rfl
    exact laneRuns_sget (run h)
  · rintro h w ra rb rfl h0 h1 h2
    exact laneRuns_sput (run h) h0 h1 h2

end Sys2Proof.Machine
end

section
/-! Host commands: what the mailbox leaves alone, the response of a command, and the commands on the device (R348 to R354,
R368 to R371, R427). -/

namespace Sys2Proof.Machine

open Sys2Proof.Safety

/-! ### What a message that is taken or answered leaves alone -/

section
variable {s t u : State} {c h : Nat}

theorem State.host_setHost (s : State) (k : Nat) (x : HostLink) (h : Nat) :
    (s.setHost k x).host h = if h = k then x else s.host h := Tab.get_put _ _ _ _ _

theorem State.host_congr (h : t.hosts = s.hosts) (k : Nat) : t.host k = s.host k := by rw [State.host, State.host, h]

/-- The part of a host link that decides what its functions may issue. -/
def HostLink.gate (x : HostLink) : Tab W32 × Bool × BitVec 2 := (x.cfg, x.up, x.flr)

/-- What the mailbox and its causes may change: the channels and responses, what has been shown to the outside, the interrupt
state of the links, and the registers of the links' islands but their first words. -/
structure MailKept (s t : State) : Prop where
  only : { t with regs := s.regs, hosts := s.hosts, out := s.out, mboxes := s.mboxes, replies := s.replies } = s
  rd : ∀ b, b ≤ Reg.devStatus 0 ∨ b = Reg.devStatus 1 ∨ Reg.devStatus 2 ≤ b → t.rd b = s.rd b
  gate : ∀ h, (t.host h).gate = (s.host h).gate

theorem MailKept.refl (s : State) : MailKept s s := ⟨rfl, fun _ _ => rfl, fun _ => rfl⟩

theorem MailKept.trans (h : MailKept s t) (h' : MailKept t u) : MailKept s u where
  only := (congrArg (fun x : State => { x with
    regs := s.regs, hosts := s.hosts, out := s.out, mboxes := s.mboxes, replies := s.replies }) h'.only :).trans h.only
  rd b hb := (h'.rd b hb).trans (h.rd b hb)
  gate k := (h'.gate k).trans (h.gate k)

theorem MailKept.ite {p : Prop} [Decidable p] (h : MailKept s t) (h' : MailKept s u) : MailKept s (if p then t else u) := by
  split
  · exact h
  · exact h'

theorem mailKept_setMbox (s : State) (c : Nat) (b : Mbox) : MailKept s (s.setMbox c b) := ⟨rfl, fun _ _ => rfl, fun _ => rfl⟩

theorem mailKept_replies (s : State) (r : List (Nat × Nat × Bool)) : MailKept s { s with replies := r } :=
  ⟨rfl, fun _ _ => rfl, fun _ => rfl⟩

/-! ### A cause changes no gate -/

theorem gate_setHost {x : HostLink} (hx : x.gate = (s.host h).gate) (k : Nat) : ((s.setHost h x).host k).gate = (s.host k).gate := by
  rw [State.host_setHost]
  split
  · next e => rw [e, hx]
  · rfl

theorem hosts_hostCount (s : State) (h c : Nat) : (s.hostCount h c).hosts = s.hosts := State.wrN_hosts ..

theorem hosts_sendEntry (s : State) (h fn : Nat) (table : Bool) (e : IrqEntry) : (s.sendEntry h fn table e).1.hosts = s.hosts := by
  unfold State.sendEntry
  split
  · split
    · rfl
    · exact hosts_hostCount _ _ _
  · split
    · rfl
    · exact hosts_hostCount _ _ _

theorem gate_fireMsix0 (s : State) (h i k : Nat) : ((s.fireMsix0 h i).host k).gate = (s.host k).gate := by
  unfold State.fireMsix0
  dsimp only
  refine (gate_setHost ?_ k).trans (congrArg HostLink.gate (State.host_congr (hosts_sendEntry ..) k))
  rfl

theorem gate_updateInta (s : State) (h k : Nat) : ((s.updateInta h).host k).gate = (s.host k).gate := by
  have hs : ∀ (w : Bool) (o : Output), (((s.setHost h { s.host h with inta := w }).emit o).host k).gate = (s.host k).gate :=
    fun w o => gate_setHost (s := s) (x := { s.host h with inta := w }) rfl k
  unfold State.updateInta
  dsimp only
  split
  · rfl
  · split
    · rw [State.host_congr (hosts_hostCount ..)]
      exact hs _ _
    · exact hs _ _

theorem gate_setCause (s : State) (h i k : Nat) : ((s.setCause h i).host k).gate = (s.host k).gate := by
  have hset : ∀ v, ((s.setRf (Reg.intCause h) ⟨i, 1⟩ v).host k).gate = (s.host k).gate := fun v =>
    congrArg HostLink.gate (State.host_congr (State.wrN_hosts ..) k)
  unfold State.setCause
  dsimp only
  rw [gate_updateInta]
  split
  · rw [gate_fireMsix0, hset]
  · exact hset 1

theorem mailKept_setCause (s : State) {h i : Nat} (hh : h < 2) (hi : i < 32) : MailKept s (s.setCause h i) := by
  have hk := causeKept_setCause s h i hi
  refine ⟨(congrArg (fun x : State => { x with mboxes := s.mboxes, replies := s.replies }) hk.only :), fun b hb => hk.rd b ?_,
    gate_setCause s h i⟩
  have h01 : Reg.devStatus 0 ≤ Reg.devStatus 1 := by decide
  have h12 : Reg.devStatus 1 ≤ Reg.devStatus 2 := by decide
  obtain rfl | rfl : h = 0 ∨ h = 1 := by omega
  · show b ≤ Reg.devStatus 0 ∨ Reg.devStatus 1 ≤ b
    omega
  · show b ≤ Reg.devStatus 1 ∨ Reg.devStatus 2 ≤ b
    omega

/-- The link's cause MBOX is set while a condition of its channels holds. -/
def State.mbCause (s : State) (h : Nat) : State := if (List.range 16).any (s.mbCond h) then s.setCause h 0 else s

theorem mbCheck_eq (s : State) : s.mbCheck = (s.mbCause 0).mbCause 1 := rfl

theorem mailKept_mbCause (s : State) (hh : h < 2) : MailKept s (s.mbCause h) := by
  unfold State.mbCause
  generalize (List.range 16).any (s.mbCond h) = b
  cases b with
  | true => exact mailKept_setCause s hh (by decide)
  | false => exact MailKept.refl s

theorem mailKept_mbCheck (s : State) : MailKept s s.mbCheck := by
  rw [mbCheck_eq]
  exact (mailKept_mbCause s (by decide)).trans (mailKept_mbCause _ (by decide))

/-! ### Responses and messages -/

theorem mailKept_postReplies (fuel c : Nat) (s : State) : MailKept s (State.postReplies fuel c s) := by
  induction fuel generalizing s with
  | zero => exact MailKept.refl s
  | succ fuel ih =>
    unfold State.postReplies
    split
    · exact MailKept.refl s
    · next r _ =>
      unfold State.mbPost
      cases (s.mbox c).post true r.2.1 r.2.2 with
      | none => exact MailKept.refl s
      | some b => exact (mailKept_setMbox s c b).trans ((mailKept_replies _ _).trans (ih _))

theorem mailKept_respond (s : State) (c : Nat) (ws : List Nat) : MailKept s (s.respond c ws) :=
  (mailKept_replies s _).trans (mailKept_postReplies _ _ _)

theorem mailKept_answerUnknown (fuel ch : Nat) (s : State) : MailKept s (State.answerUnknown fuel ch s) := by
  induction fuel generalizing s with
  | zero => exact MailKept.refl s
  | succ fuel ih =>
    unfold State.answerUnknown
    dsimp only
    cases firstIdx (fun w : MbWord => w.fin) (s.mbox (16 + ch)).ba with
    | none => exact MailKept.refl s
    | some i =>
      have hgo : ∀ w, MailKept s (State.answerUnknown fuel ch (((s.setMbox (16 + ch)
            { s.mbox (16 + ch) with
              ba := (s.mbox (16 + ch)).ba.drop (i + 1)
              emptyB := (s.mbox (16 + ch)).emptyB || ((s.mbox (16 + ch)).ba.drop (i + 1)).isEmpty
              drained := (s.mbox (16 + ch)).drained || ((s.mbox (16 + ch)).ba.drop (i + 1)).isEmpty }).respond (16 + ch) w).mbCheck)) :=
        fun w => (mailKept_setMbox s _ _).trans ((mailKept_respond _ _ _).trans ((mailKept_mbCheck _).trans (ih _)))
      exact MailKept.ite (MailKept.refl s) (hgo _)

theorem mailKept_takeMessage (s : State) (ch : Nat) (msg : List Nat) : MailKept s (s.takeMessage ch msg) := by
  unfold State.takeMessage
  dsimp only
  exact MailKept.ite ((mailKept_setMbox s _ _).trans ((mailKept_mbCheck _).trans (mailKept_answerUnknown _ _ _))) (MailKept.refl s)

end

/-! ### The response of a command -/

section
variable {s t u v : State} {c ch op : Nat}

theorem LinksOnly.mboxes (h : LinksOnly s t) : t.mboxes = s.mboxes := (congrArg State.mboxes h :)
theorem LinksOnly.replies (h : LinksOnly s t) : t.replies = s.replies := (congrArg State.replies h :)

theorem find?_append_of_none {α : Type} {p : α → Bool} {a l : List α} (h : ∀ x ∈ a, p x = false) :
    (a ++ l).find? p = l.find? p := by
  rw [List.find?_append, List.find?_eq_none.mpr fun x hx => by simp [h x hx]]
  rfl

/-- The words that firmware holds for a channel follow into its queue while both the queue and the open message have room. -/
theorem postReplies_posts {old : List (Nat × Nat × Bool)} (hold : ∀ r ∈ old, r.1 ≠ c) (rs : List (Nat × Bool)) :
    ∀ (fuel : Nat) (s : State), rs.length ≤ fuel → s.replies = old ++ rs.map (fun r => (c, r)) →
      (s.mbox c).ab.length + rs.length ≤ 16 → (s.mbox c).openA + rs.length ≤ 16 →
      ((State.postReplies fuel c s).mbox c).ab = (s.mbox c).ab ++ rs.map (fun r => ⟨r.1 % 2 ^ 32, r.2, false⟩) ∧
        ((State.postReplies fuel c s).mbox c).ba = (s.mbox c).ba ∧ (State.postReplies fuel c s).replies = old := by
  induction rs with
  | nil =>
    intro fuel s _ hr _ _
    have hn : s.replies.find? (fun r => decide (r.1 = c)) = none := by
      rw [hr, List.find?_eq_none]
      intro x hx
      simpa using hold x (by simpa using hx)
    have hs : State.postReplies fuel c s = s := by
      cases fuel with
      | zero => rfl
      | succ fuel =>
        unfold State.postReplies
        rw [hn]
    rw [hs]
    simpa using hr
  | cons r rs ih =>
    intro fuel s hf hr ha ho
    rw [List.length_cons] at hf ha ho
    obtain ⟨f, rfl⟩ : ∃ f, fuel = f + 1 := ⟨fuel - 1, by omega⟩
    have hd : ∀ x ∈ old, decide (x.1 = c) = false := fun x hx => decide_eq_false (hold x hx)
    have hfind : s.replies.find? (fun r => decide (r.1 = c)) = some (c, r) := by
      rw [hr, find?_append_of_none hd, List.map_cons, List.find?_cons_of_pos (by simp)]
    have herase : s.replies.erase (c, r) = old ++ rs.map (fun r => (c, r)) := by
      rw [hr, List.erase_append_right _ fun hx => hold _ hx rfl, List.map_cons, List.erase_cons_head]
    have hq : ((s.mbox c).outQ true).length < 16 := by
      show (s.mbox c).ab.length < 16
      omega
    have hn : (s.mbox c).openN true < 16 := by
      show (s.mbox c).openA < 16
      omega
    obtain ⟨b, hb, hab, hop, hba⟩ := Mbox.post_some r.1 r.2 hq hn
    have hab' : b.ab = (s.mbox c).ab ++ [⟨r.1 % 2 ^ 32, r.2, false⟩] := hab
    have hop' : b.openA = if r.2 then 0 else (s.mbox c).openA + 1 := hop
    have hba' : b.ba = (s.mbox c).ba := hba
    have hle : b.openA ≤ (s.mbox c).openA + 1 := by rw [hop']; split <;> omega
    have hstep : State.postReplies (f + 1) c s =
        State.postReplies f c { s.setMbox c b with replies := old ++ rs.map (fun r => (c, r)) } := by
      conv_lhs => unfold State.postReplies
      rw [hfind]
      simp only [State.mbPost]
      rw [hb]
      dsimp only
      rw [← herase]
      rfl
    have hmb : State.mbox { s.setMbox c b with replies := old ++ rs.map (fun r => (c, r)) } c = b :=
      (State.mbox_setMbox s c b c).trans (if_pos rfl)
    have := ih f { s.setMbox c b with replies := old ++ rs.map (fun r => (c, r)) } (by omega) rfl
      (by rw [hmb, hab', List.length_append, List.length_singleton]; omega) (by rw [hmb]; omega)
    rw [hstep]
    rw [hmb, hab', hba'] at this
    simpa using this

/-- The words of a response as they stand in the queue. -/
def respWords (ws : List Nat) : List MbWord :=
  (List.range ws.length).map fun i => ⟨ws.getD i 0 % 2 ^ 32, decide (i + 1 = ws.length), false⟩

theorem respWords_word (ws : List Nat) : (respWords ws).map (fun w => w.word) = ws.map (· % 2 ^ 32) := by
  rw [respWords, List.map_map]
  refine List.ext_getElem (by simp) fun i h1 h2 => ?_
  have hi : i < ws.length := by simpa using h1
  simp [hi]

theorem respWords_last {ws : List Nat} (h : ws ≠ []) : (respWords ws).getLast?.map (fun w => w.fin) = some true := by
  obtain ⟨n, hn⟩ : ∃ n, ws.length = n + 1 := ⟨ws.length - 1, by have := List.length_pos_iff.mpr h; omega⟩
  rw [respWords, hn, List.range_succ]
  simp

theorem respWords_ne {ws : List Nat} (h : ws ≠ []) : respWords ws ≠ [] := by
  intro he
  have := respWords_last h
  rw [he] at this
  exact absurd this (by decide)

theorem respond_posts (s : State) (c : Nat) (ws : List Nat) (hr : ∀ r ∈ s.replies, r.1 ≠ c)
    (ha : (s.mbox c).ab.length + ws.length ≤ 16) (ho : (s.mbox c).openA + ws.length ≤ 16) :
    ((s.respond c ws).mbox c).ab = (s.mbox c).ab ++ respWords ws ∧ ((s.respond c ws).mbox c).ba = (s.mbox c).ba ∧
      (s.respond c ws).replies = s.replies := by
  have := postReplies_posts hr ((List.range ws.length).map fun i => (ws.getD i 0, decide (i + 1 = ws.length))) 16
    { s with replies := s.replies ++ (List.range ws.length).map fun i => (c, ws.getD i 0, decide (i + 1 = ws.length)) }
    (by simp; omega) (by rw [List.map_map]; rfl) (by rw [List.length_map, List.length_range]; exact ha)
    (by rw [List.length_map, List.length_range]; exact ho)
  rw [List.map_map] at this
  exact this

theorem cmdFinish_mboxes (s : State) (ch op tag st : Nat) (ws : List Nat) :
    (s.cmdFinish ch op tag st ws).mboxes = (s.respond (16 + ch) ((op + 256 * tag + 65536 * st) :: ws)).mboxes ∧
      (s.cmdFinish ch op tag st ws).replies = (s.respond (16 + ch) ((op + 256 * tag + 65536 * st) :: ws)).replies := by
  unfold State.cmdFinish
  dsimp only
  split
  · have hk := (causeKept_setCause (s.respond (16 + ch) ((op + 256 * tag + 65536 * st) :: ws)) (cmdLink ch) 5 (by decide)).only
    exact ⟨hk.mboxes, hk.replies⟩
  · exact ⟨rfl, rfl⟩

theorem answered_cmdFinish (u : State) (ch op tag st : Nat) (ws : List Nat) :
    Answered u (u.cmdFinish ch op tag st ws) ch op tag st ws := by
  refine ⟨rfl, fun ha ho hr => ?_⟩
  obtain ⟨hm, hrep⟩ := cmdFinish_mboxes u ch op tag st ws
  obtain ⟨hab, -, hre⟩ := respond_posts u (16 + ch) ((op + 256 * tag + 65536 * st) :: ws) hr
    (by rw [List.length_cons]; omega) (by rw [List.length_cons]; omega)
  have hmb : (u.cmdFinish ch op tag st ws).mbox (16 + ch) =
      (u.respond (16 + ch) ((op + 256 * tag + 65536 * st) :: ws)).mbox (16 + ch) := by rw [State.mbox, hm]; rfl
  rw [hmb, hab, hrep, hre, List.map_append, respWords_word, List.getLast?_append_of_ne_nil _ (respWords_ne (by simp)),
    respWords_last (by simp)]
  exact ⟨rfl, rfl, rfl⟩

/-! ### Commands on the device as a whole -/

theorem MailKept.hostCmds (h : MailKept s t) : t.hostCmds = s.hostCmds := (congrArg State.hostCmds h.only :)
theorem MailKept.cmdWait (h : MailKept s t) : t.cmdWait = s.cmdWait := (congrArg State.cmdWait h.only :)
theorem MailKept.boot (h : MailKept s t) : t.boot = s.boot := (congrArg State.boot h.only :)
theorem MailKept.qps (h : MailKept s t) : t.qps = s.qps := (congrArg State.qps h.only :)
theorem MailKept.mem (h : MailKept s t) : t.mem = s.mem := (congrArg State.mem h.only :)
theorem MailKept.free (h : MailKept s t) : t.free = s.free := (congrArg State.free h.only :)
theorem MailKept.clock (h : MailKept s t) : t.clock = s.clock := (congrArg State.clock h.only :)
theorem MailKept.nextXfer (h : MailKept s t) : t.nextXfer = s.nextXfer := (congrArg State.nextXfer h.only :)
theorem MailKept.fuses (h : MailKept s t) : t.fuses = s.fuses := (congrArg State.fuses h.only :)
theorem MailKept.loaded (h : MailKept s t) : t.loaded = s.loaded := (congrArg State.loaded h.only :)

theorem MailKept.rf (h : MailKept s t) {a : Nat} {f : Fld} (hl : f.lo < 32) (hw : f.words = 1)
    (ha : a ≤ Reg.devStatus 0 ∨ a = Reg.devStatus 1 ∨ Reg.devStatus 2 ≤ a) : t.rf a f = s.rf a f :=
  State.rf_congr hl hw (h.rd a ha)

theorem MailKept.canIssue (h : MailKept s t) (k fn : Nat) : t.canIssue k fn 0 = s.canIssue k fn 0 := by
  obtain ⟨hcfg, hup, hflr⟩ := Prod.mk.injEq .. ▸ (Prod.mk.injEq .. ▸ h.gate k)
  simp only [State.canIssue, State.bme, State.cfg, hcfg, hup, hflr]
  rfl

/-- With no command waiting or outstanding, a command on the device is performed on the state without its message:
it is answered, or stays outstanding. -/
theorem hostCommand_now (hs : Serves s ch) (hop : ¬(0x10 ≤ op ∧ op ≤ 0x26)) {tag : Byte} {ws : List W32}
    {perform : State → Nat → (Nat → Nat) → State × CmdEnd} {st : Nat} {rs : List Nat}
    (hp : perform (s.takeMessage ch (cmdMsg op tag ws)) (ch / 8) (fun n => (cmdMsg op tag ws).getD n 0) = (v, .now st rs)) :
    s.hostCommand ch op tag.toNat ws perform = v.cmdFinish ch op tag.toNat st rs := by
  obtain ⟨hrun, hready, hcmd, hwait⟩ := hs
  have hk := mailKept_takeMessage s ch (cmdMsg op tag ws)
  have hc := hk.hostCmds.trans hcmd
  have hw := hk.cmdWait.trans hwait
  unfold State.hostCommand
  dsimp only [cmdMsg, cmdLink] at hc hw hp ⊢
  rw [hrun, hready, if_neg (by decide), hc, hw, if_neg (by simp), if_neg hop, hp]

theorem hostCommand_later (hs : Serves s ch) (hop : ¬(0x10 ≤ op ∧ op ≤ 0x26)) {tag : Byte} {ws : List W32}
    {perform : State → Nat → (Nat → Nat) → State × CmdEnd} {loc till : Nat}
    (hp : perform (s.takeMessage ch (cmdMsg op tag ws)) (ch / 8) (fun n => (cmdMsg op tag ws).getD n 0) = (v, .later loc till)) :
    s.hostCommand ch op tag.toNat ws perform =
      { v with hostCmds := v.hostCmds ++ [⟨ch, op, tag.toNat, 4096, loc, till⟩] } := by
  obtain ⟨hrun, hready, hcmd, hwait⟩ := hs
  have hk := mailKept_takeMessage s ch (cmdMsg op tag ws)
  have hc := hk.hostCmds.trans hcmd
  have hw := hk.cmdWait.trans hwait
  unfold State.hostCommand
  dsimp only [cmdMsg, cmdLink] at hc hw hp ⊢
  rw [hrun, hready, if_neg (by decide), hc, hw, if_neg (by simp), if_neg hop, hp]

end

/-! ### The commands on the device -/

section
variable {s t u : State} {ch : Fin 16} {tag : Byte} {ws : List W32}

theorem cmdMsg_getD (op : Nat) (tag : Byte) (ws : List W32) (n : Nat) : (cmdMsg op tag ws).getD (n + 1) 0 = cmdWord ws (n + 1) := by
  rw [cmdMsg, List.getD_cons_succ, cmdWord, Nat.add_sub_cancel]
  exact List.getD_map ws (0 : W32) BitVec.toNat

theorem cmdWord_lt (ws : List W32) (n : Nat) : cmdWord ws n < 2 ^ 32 := BitVec.isLt _

theorem devInfo_served (hs : Serves s ch.val) : Ends (.devInfo ch tag) s fun t =>
    Answered (s.takeMessage ch.val [1 + 256 * tag.toNat]) t ch.val 1 tag.toNat 0
      [s.boot.buildId, (s.rd Reg.fmtGen).toNat % 2 ^ 24, 65536 - s.qps.length] := by
  have hk := mailKept_takeMessage s ch.val (cmdMsg 1 tag [])
  refine ⟨_, congrArg (fun t => (.next t : Out)) (hostCommand_now (op := 1) (tag := tag) (ws := []) (perform := fun s _ _ => s.devInfo) hs
    (by decide) rfl), ?_⟩
  rw [hk.boot, hk.qps, hk.rd Reg.fmtGen (by decide)]
  exact answered_cmdFinish _ _ _ _ _ _

theorem clusterRestart_served (hs : Serves s ch.val) : EndsSettled (.clusterRestart ch tag ws) s fun t =>
    Answered ((s.takeMessage ch.val (cmdMsg 0x30 tag ws)).clusterRestart (cmdWord ws 1 % 16)) t ch.val 0x30 tag.toNat 0 [] := by
  have hw : fld ((cmdMsg 0x30 tag ws).getD 1 0) 0 4 = cmdWord ws 1 % 16 := by
    rw [cmdMsg_getD, fld, Nat.pow_zero, Nat.div_one]
    rfl
  refine ⟨_, congrArg done (hostCommand_now (op := 0x30) (tag := tag) (ws := ws)
    (perform := fun s _ w => (s.clusterRestart (fld (w 1) 0 4), .now csOk [])) hs (by decide) rfl), ?_⟩
  dsimp only
  rw [hw]
  exact answered_cmdFinish _ _ _ _ _ _

/-! CAPTURE_EXPORT -/

theorem mem_hostWrite (s : State) (h fn pasid : Nat) (payload : Bool) (addr : Nat) (bs : List Byte) :
    (s.hostWrite h fn pasid payload addr bs).mem = s.mem := by
  have hgo : ∀ mps n (s : State) a bs, (State.hostWrite.go h fn pasid payload mps n s a bs).mem = s.mem := by
    intro mps n
    induction n with
    | zero => intros; rfl
    | succ n ih =>
      intro s a bs
      unfold State.hostWrite.go
      split
      · rfl
      · exact (ih _ _ _).trans (State.wrN_mem _ _ _ _)
  unfold State.hostWrite
  split
  · rfl
  · split
    · rfl
    · exact hgo _ _ _ _ _

/-- The records of the capture ring that exist and are not overwritten: how many of them, and the first. -/
def State.capLeft (s : State) : Nat := (s.rf Reg.capProd capProd_PROD + 2 ^ 32 - s.rf Reg.capCons capCons_CONS) % 2 ^ 32
def State.capSize (s : State) : Nat := 2 ^ s.rf Reg.capCfg capCfg_LOG2_RECORDS
def State.capFirst (s : State) : Nat :=
  if s.capSize < s.capLeft then (s.rf Reg.capProd capProd_PROD + 2 ^ 32 - s.capSize) % 2 ^ 32 else s.rf Reg.capCons capCons_CONS

theorem MailKept.capLeft (h : MailKept s t) : t.capLeft = s.capLeft := by
  rw [State.capLeft, State.capLeft, h.rf (by decide) (by decide) (by decide), h.rf (by decide) (by decide) (by decide)]

theorem MailKept.capSize (h : MailKept s t) : t.capSize = s.capSize := by
  rw [State.capSize, State.capSize, h.rf (by decide) (by decide) (by decide)]

theorem MailKept.capFirst (h : MailKept s t) : t.capFirst = s.capFirst := by
  rw [State.capFirst, State.capFirst, h.capLeft, h.capSize, h.rf (by decide) (by decide) (by decide),
    h.rf (by decide) (by decide) (by decide)]

theorem captureExport_idle (w : Nat → Nat) {h : Nat} (hc : s.canIssue h 0 0 = false) :
    s.captureExport h w = (s, .now 0 [0, s.capFirst]) := by
  unfold State.captureExport
  dsimp only
  rw [hc]
  rfl

theorem captureExport_sends (w : Nat → Nat) {h : Nat} (hc : s.canIssue h 0 0 = true) : ∃ x : State,
    s.captureExport h w = (x, .now 0 [min (min s.capLeft s.capSize) (fld (w 3) 0 24), s.capFirst]) ∧
      x.rf Reg.capCons capCons_CONS = (s.capFirst + min (min s.capLeft s.capSize) (fld (w 3) 0 24)) % 2 ^ 32 ∧ x.mem = s.mem := by
  unfold State.captureExport
  dsimp only
  rw [hc]
  refine ⟨_, rfl, State.rf_setRf_same _ _ _ _, ?_⟩
  exact (State.setRf_mem _ _ _ _).trans (mem_hostWrite _ _ _ _ _ _ _)

/-- CAPTURE_EXPORT with the words of its message. -/
theorem captureExport_served (hs : Serves s ch.val) :
    let v := s.takeMessage ch.val (cmdMsg 0x31 tag ws)
    let num := min (min s.capLeft s.capSize) (cmdWord ws 3 % 2 ^ 24)
    (s.canIssue (ch.val / 8) 0 0 = false → Ends (.captureExport ch tag ws) s fun t =>
      Answered v t ch.val 0x31 tag.toNat 0 [0, s.capFirst]) ∧
    (s.canIssue (ch.val / 8) 0 0 = true → Ends (.captureExport ch tag ws) s fun t => ∃ x : State,
      Answered x t ch.val 0x31 tag.toNat 0 [num, s.capFirst] ∧
        x.rf Reg.capCons capCons_CONS = (s.capFirst + num) % 2 ^ 32 ∧ x.mem = s.mem) := by
  intro v num
  have hk : MailKept s v := mailKept_takeMessage s ch.val (cmdMsg 0x31 tag ws)
  have hnum : min (min v.capLeft v.capSize) (fld ((cmdMsg 0x31 tag ws).getD 3 0) 0 24) = num := by
    rw [hk.capLeft, hk.capSize, cmdMsg_getD, fld, Nat.pow_zero, Nat.div_one]
  refine ⟨fun hc => ?_, fun hc => ?_⟩
  · have hx := captureExport_idle (fun n => (cmdMsg 0x31 tag ws).getD n 0) ((hk.canIssue (ch.val / 8) 0).trans hc)
    refine ⟨_, congrArg (fun t => (.next t : Out)) (hostCommand_now (op := 0x31) (tag := tag) (ws := ws)
      (perform := fun s h w => s.captureExport h w) hs (by decide) hx), ?_⟩
    rw [hk.capFirst]
    exact answered_cmdFinish _ _ _ _ _ _
  · obtain ⟨x, hx, hcons, hmem⟩ := captureExport_sends (fun n => (cmdMsg 0x31 tag ws).getD n 0)
      ((hk.canIssue (ch.val / 8) 0).trans hc)
    rw [hnum, hk.capFirst] at hx hcons
    exact ⟨_, congrArg (fun t => (.next t : Out)) (hostCommand_now (op := 0x31) (tag := tag) (ws := ws)
      (perform := fun s h w => s.captureExport h w) hs (by decide) hx), x, answered_cmdFinish _ _ _ _ _ _, hcons,
      hmem.trans hk.mem⟩

/-! IMG_WRITE -/

/-- The issue of a piece leaves the reads and the outstanding commands as they were. -/
def ReadsKept (s t : State) : Prop := t.xfers = s.xfers ∧ t.hostCmds = s.hostCmds

theorem ReadsKept.trans (h : ReadsKept s t) (h' : ReadsKept t u) : ReadsKept s u := ⟨h'.1.trans h.1, h'.2.trans h.2⟩

theorem readsKept_of_onlyRegs (h : { t with regs := s.regs } = s) : ReadsKept s t :=
  ⟨(congrArg State.xfers h :), (congrArg State.hostCmds h :)⟩

theorem readsKept_hostCount (s : State) (h c : Nat) : ReadsKept s (s.hostCount h c) :=
  readsKept_of_onlyRegs (State.wrN_only _ _ _ _)

theorem readsKept_issuePiece (s : State) (x : Nat) : ReadsKept s (s.issuePiece x) := by
  unfold State.issuePiece
  cases Tab.find s.xfers x with
  | none => exact ⟨rfl, rfl⟩
  | some r =>
    dsimp only
    by_cases hi : (!s.issuable r.h r.fn r.pasid) = true
    · rw [if_pos hi]
      exact ⟨rfl, rfl⟩
    · rw [if_neg hi]
      by_cases ht : s.tagLimit r.h r.fn ≤ ((s.host r.h).tags.filter fun e => decide (e.2.fn = r.fn)).length
      · rw [if_pos ht]
        exact ⟨rfl, rfl⟩
      · rw [if_neg ht]
        cases (if (s.host r.h).tags.length < 2048 then freeTag 2049 0 (s.host r.h).tags else none) with
        | none => exact ⟨rfl, rfl⟩
        | some tag => exact ReadsKept.trans ⟨rfl, rfl⟩ (readsKept_hostCount _ _ _)

theorem hostRead_barred {h fn : Nat} (hc : s.canIssue h fn 0 = false) (kind : ReadKind) (key addr len : Nat) :
    s.hostRead kind key h fn 0 addr len = (s, none) := by
  rw [State.hostRead, hc]
  rfl

theorem hostRead_started {h fn : Nat} (hc : s.canIssue h fn 0 = true) (kind : ReadKind) (key addr len : Nat) :
    ∃ t, s.hostRead kind key h fn 0 addr len = (t, some s.nextXfer) ∧
      Tab.find t.xfers s.nextXfer = some ⟨h, fn, 0, addr, len, [], kind, key⟩ ∧ t.hostCmds = s.hostCmds := by
  obtain ⟨hx, hh⟩ := readsKept_issuePiece
    { s with nextXfer := s.nextXfer + 1, xfers := Tab.put s.xfers s.nextXfer ⟨h, fn, 0, addr, len, [], kind, key⟩ } s.nextXfer
  refine ⟨_, ?_, ?_, hh⟩
  · rw [State.hostRead, hc]
    rfl
  · rw [hx]
    exact (Tab.find_put _ _ _ _).trans (if_pos rfl)

/-- What IMG_WRITE accepts: at most 1,048,576 bytes that stay inside a slot. -/
def ImgFits (w : Nat → Nat) : Prop := 1 ≤ w 5 ∧ w 5 ≤ 1048576 ∧ w 2 + w 5 ≤ 0x4000000

theorem imgWrite_unfit {w : Nat → Nat} (h k tag : Nat) (hf : ¬ImgFits w) : s.imgWrite h k tag w = (s, .now 2 []) := by
  rw [ImgFits] at hf
  exact if_pos (by omega)

theorem imgWrite_running {w : Nat → Nat} (h k tag : Nat) (hf : ImgFits w)
    (hslot : w 1 % 2 = s.rf Reg.bootStatus bootStatus_SLOT) : s.imgWrite h k tag w = (s, .now 3 []) := by
  obtain ⟨h1, h2, h3⟩ := hf
  exact (if_neg (by omega)).trans (if_pos hslot)

theorem imgWrite_barred {w : Nat → Nat} {h k tag : Nat} (hf : ImgFits w)
    (hslot : w 1 % 2 ≠ s.rf Reg.bootStatus bootStatus_SLOT) (hc : s.canIssue h 0 0 = false) :
    s.imgWrite h k tag w = ({ s with free := s.free + 1 }, .now (Config.freeByte s.free).toNat []) := by
  obtain ⟨h1, h2, h3⟩ := hf
  refine (if_neg (by omega)).trans ((if_neg hslot).trans ?_)
  rw [hostRead_barred hc]

theorem imgWrite_reads {w : Nat → Nat} {h k tag : Nat} (hf : ImgFits w)
    (hslot : w 1 % 2 ≠ s.rf Reg.bootStatus bootStatus_SLOT) (hc : s.canIssue h 0 0 = true) :
    ∃ t, s.imgWrite h k tag w = (t, .later (w 1 % 2) (s.ictNs + 10000000000)) ∧ t.hostCmds = s.hostCmds ∧
      Tab.find t.xfers s.nextXfer = some ⟨h, 0, 0, iova w 3, w 5, [], .imgWrite, 4096 * w 2 + 256 * k + tag⟩ := by
  obtain ⟨h1, h2, h3⟩ := hf
  obtain ⟨t, ht, hx, hh⟩ := hostRead_started hc .imgWrite (4096 * w 2 + 256 * k + tag) (iova w 3) (w 5)
  refine ⟨t, (if_neg (by omega)).trans ((if_neg hslot).trans ?_), hh, hx⟩
  rw [ht]

/-- The words that a command's perform function is given. -/
def msgWords (op : Nat) (tag : Byte) (ws : List W32) (n : Nat) : Nat := (cmdMsg op tag ws).getD n 0

theorem iova_msgWords (op : Nat) (tag : Byte) (ws : List W32) :
    iova (msgWords op tag ws) 3 = cmdWord ws 3 + 2 ^ 32 * cmdWord ws 4 := by
  rw [iova, msgWords, msgWords, cmdMsg_getD, cmdMsg_getD, Nat.mod_eq_of_lt (cmdWord_lt ws _), Nat.mod_eq_of_lt (cmdWord_lt ws _)]

theorem imgFits_msgWords (op : Nat) (tag : Byte) (ws : List W32) : ImgFits (msgWords op tag ws) ↔
    1 ≤ cmdWord ws 5 ∧ cmdWord ws 5 ≤ 1048576 ∧ cmdWord ws 2 + cmdWord ws 5 ≤ 0x4000000 := by
  rw [ImgFits, msgWords, msgWords, cmdMsg_getD, cmdMsg_getD]

theorem MailKept.ictNs (h : MailKept s t) : t.ictNs = s.ictNs := by rw [State.ictNs, State.ictNs, h.clock]

theorem imgWrite_now (hs : Serves s ch.val) {v : State} {st : Nat}
    (hp : (s.takeMessage ch.val (cmdMsg 0x40 tag ws)).imgWrite (ch.val / 8) ch.val tag.toNat (msgWords 0x40 tag ws) =
      (v, .now st [])) : EndsSettled (.imgWrite ch tag ws) s fun t => Answered v t ch.val 0x40 tag.toNat st [] :=
  ⟨_, congrArg done (hostCommand_now (op := 0x40) (tag := tag) (ws := ws)
    (perform := fun s h w => s.imgWrite h ch.val tag.toNat w) hs (by decide) hp), answered_cmdFinish _ _ _ _ _ _⟩

theorem imgWrite_served (hs : Serves s ch.val) :
    let u := s.takeMessage ch.val (cmdMsg 0x40 tag ws)
    let w := cmdWord ws
    let valid := 1 ≤ w 5 ∧ w 5 ≤ 1048576 ∧ w 2 + w 5 ≤ 0x4000000
    (¬valid → EndsSettled (.imgWrite ch tag ws) s fun t => Answered u t ch.val 0x40 tag.toNat 2 []) ∧
    (valid → w 1 % 2 = s.rf Reg.bootStatus bootStatus_SLOT → EndsSettled (.imgWrite ch tag ws) s fun t =>
      Answered u t ch.val 0x40 tag.toNat 3 []) ∧
    (valid → w 1 % 2 ≠ s.rf Reg.bootStatus bootStatus_SLOT → s.canIssue (ch.val / 8) 0 0 = true →
      EndsSettled (.imgWrite ch tag ws) s fun t =>
        t.hostCmds = [⟨ch.val, 0x40, tag.toNat, 4096, w 1 % 2, s.ictNs + 10000000000⟩] ∧ Tab.find t.xfers s.nextXfer =
          some ⟨ch.val / 8, 0, 0, w 3 + 2 ^ 32 * w 4, w 5, [], .imgWrite, 4096 * w 2 + 256 * ch.val + tag.toNat⟩) ∧
    (valid → w 1 % 2 ≠ s.rf Reg.bootStatus bootStatus_SLOT → s.canIssue (ch.val / 8) 0 0 = false →
      EndsSettled (.imgWrite ch tag ws) s fun t => Answered { u with free := s.free + 1 } t ch.val 0x40 tag.toNat
        (Config.freeByte s.free).toNat []) := by
  intro u w valid
  have hk : MailKept s u := mailKept_takeMessage s ch.val (cmdMsg 0x40 tag ws)
  have hslot : u.rf Reg.bootStatus bootStatus_SLOT = s.rf Reg.bootStatus bootStatus_SLOT :=
    hk.rf (by decide) (by decide) (by decide)
  have hw : ∀ n, msgWords 0x40 tag ws (n + 1) = w (n + 1) := cmdMsg_getD 0x40 tag ws
  refine ⟨fun hv => ?_, fun hv he => ?_, fun hv he hc => ?_, fun hv he hc => ?_⟩
  · exact imgWrite_now hs (imgWrite_unfit _ _ _ fun h => hv ((imgFits_msgWords 0x40 tag ws).mp h))
  · exact imgWrite_now hs (imgWrite_running _ _ _ ((imgFits_msgWords 0x40 tag ws).mpr hv) (by rw [hw, hslot]; exact he))
  · obtain ⟨t, ht, hh, hx⟩ := imgWrite_reads (k := ch.val) (tag := tag.toNat) ((imgFits_msgWords 0x40 tag ws).mpr hv)
      (by rw [hw, hslot]; exact he) ((hk.canIssue (ch.val / 8) 0).trans hc)
    refine ⟨_, congrArg done (hostCommand_later (op := 0x40) (tag := tag) (ws := ws)
      (perform := fun s h w => s.imgWrite h ch.val tag.toNat w) hs (by decide) ht), ?_, ?_⟩
    · show t.hostCmds ++ _ = _
      rw [hh, hk.hostCmds, hs.noCmd, hk.ictNs, hw]
      rfl
    · show Tab.find t.xfers _ = _
      rw [← hk.nextXfer, hx, iova_msgWords, hw, hw]
  · have hp := imgWrite_barred (k := ch.val) (tag := tag.toNat) ((imgFits_msgWords 0x40 tag ws).mpr hv)
      (by rw [hw, hslot]; exact he) ((hk.canIssue (ch.val / 8) 0).trans hc)
    rw [hk.free] at hp
    exact imgWrite_now hs hp

/-! IMG_ACTIVATE -/

theorem State.fuseBits_congr (h : t.loaded = s.loaded) (b n : Nat) : t.fuseBits b n = s.fuseBits b n := by
  simp only [State.fuseBits, State.fuseRow, h]

theorem State.rollbackCounter_congr (h : t.fuses = s.fuses) : t.rollbackCounter = s.rollbackCounter := by
  simp only [State.rollbackCounter, State.fuseProg, h]

theorem State.keyUsed_congr (h : t.loaded = s.loaded) : t.keyUsed = s.keyUsed :=
  funext fun i => by rw [State.keyUsed, State.keyUsed, State.fuseBits_congr h]

theorem State.keyHash_congr (h : t.loaded = s.loaded) : t.keyHash = s.keyHash :=
  funext fun i => by rw [State.keyHash, State.keyHash, State.fuseBits_congr h]

theorem State.provisioned_congr (h : t.loaded = s.loaded) : t.provisioned = s.provisioned := by
  rw [State.provisioned, State.provisioned, State.keyUsed_congr h]

theorem State.fuseProg_congr (h : t.fuses = s.fuses) : t.fuseProg = s.fuseProg :=
  funext fun i => by rw [State.fuseProg, State.fuseProg, h]

theorem State.imageFault_congr (hl : t.loaded = s.loaded) (hf : t.fuses = s.fuses) (img : List Byte) :
    t.imageFault img = s.imageFault img := by
  rw [State.imageFault, State.imageFault, State.provisioned_congr hl, State.keyUsed_congr hl, State.keyHash_congr hl,
    State.fuseProg_congr hf, State.rollbackCounter_congr hf]

theorem imgActivate_bad {img : List Byte} {ok : Bool} (h : ok = false ∨ (s.imageFault img).isSome = true) (w : Nat → Nat) :
    s.imgActivate img ok w = (s, .now 2 []) := by
  refine if_pos ?_
  rcases h with h | h
  · rw [h]
    rfl
  · rw [h, Bool.or_true]

/-- The state in which an activation is answered: the slot is selected in the flash and at the next boot. -/
def State.selectSlot (s : State) (slot : Nat) : State :=
  { s.emit (.flash 2 0 (selectorBytes slot)) with boot := { s.boot with force := some slot } }

theorem imgActivate_good {img : List Byte} (hf : s.imageFault img = none) (hb : s.rf Reg.pwrStatus pwrStatus_BUSY = 0)
    (w : Nat → Nat) : s.imgActivate img true w = ((s.selectSlot (w 1 % 2)).restart, .now 0 []) := by
  unfold State.imgActivate
  dsimp only
  rw [hf, if_neg (by decide)]
  exact if_pos hb

theorem imgActivate_served (hs : Serves s ch.val) (img : List Byte) (ok : Bool) :
    let u := s.takeMessage ch.val (cmdMsg 0x41 tag ws)
    let slot := cmdWord ws 1 % 2
    let c := Instr.imgActivate ch tag ws img ok
    (ok = false ∨ (s.imageFault img).isSome = true → EndsSettled c s fun t => Answered u t ch.val 0x41 tag.toNat 2 []) ∧
    (ok = true → s.imageFault img = none → s.rf Reg.pwrStatus pwrStatus_BUSY = 0 → EndsSettled c s fun t => ∃ v : State,
      v.boot = { s.boot with force := some slot } ∧ v.out.getLast? = some (.flash 2 0 (selectorBytes slot)) ∧
      Answered v.restart t ch.val 0x41 tag.toNat 0 []) := by
  intro u slot c
  have hk : MailKept s u := mailKept_takeMessage s ch.val (cmdMsg 0x41 tag ws)
  have hi := State.imageFault_congr hk.loaded hk.fuses img
  have hw : msgWords 0x41 tag ws 1 = cmdWord ws 1 := cmdMsg_getD 0x41 tag ws 0
  refine ⟨fun h => ?_, fun hok hf hb => ?_⟩
  · exact ⟨_, congrArg done (hostCommand_now (op := 0x41) (tag := tag) (ws := ws)
      (perform := fun s _ w => s.imgActivate img ok w) hs (by decide) (imgActivate_bad (by rw [hi]; exact h) _)),
      answered_cmdFinish _ _ _ _ _ _⟩
  · subst hok
    have hp := imgActivate_good (hi.trans hf) ((hk.rf (by decide) (by decide) (by decide)).trans hb) (msgWords 0x41 tag ws)
    rw [hw] at hp
    refine ⟨_, congrArg done (hostCommand_now (op := 0x41) (tag := tag) (ws := ws)
      (perform := fun s _ w => s.imgActivate img true w) hs (by decide) hp), u.selectSlot slot, ?_, ?_,
      answered_cmdFinish _ _ _ _ _ _⟩
    · rw [← hk.boot]
      rfl
    · exact List.getLast?_concat

/-! ROLLBACK_COMMIT -/

theorem rollbackCommit_busy (hb : s.rf Reg.fuseResult fuseResult_BUSY = 1) :
    s.rollbackCommit = ({ s with free := s.free + 1 }, .now (Config.freeByte s.free).toNat []) := if_pos hb

/-- The code a fuse operation will end with, unless its read-back fails (R430). -/
def State.fuseCode (s : State) (op row : Nat) : Nat :=
  let d := (s.rd Reg.fuseData).toNat
  if op = 1 then if 2 ≤ row ∧ row ≤ 5 then 2 else if d &&& s.fuseLocked row ≠ 0 then 1 else 0
  else if op = 2 then if d % 256 > s.boot.rollback ∨ d % 256 ≤ s.rollbackCounter ∨ d % 256 > 128 then 2 else 0
  else if s.pairSecret = 0 then 2 else 0

theorem fuseCmdWrite_begins {op : Nat} (hop : op ≠ 0) (row : Nat) (hb : s.rf Reg.fuseResult fuseResult_BUSY = 0) :
    s.fuseCmdWrite op row = State.setRf { s with
      fuseOp := some ⟨op, if op = 1 then row else 0, (s.rd Reg.fuseData).toNat, s.fuseCode op row⟩ }
      Reg.fuseResult fuseResult_BUSY 1 := if_neg (by rw [hb]; simp [hop])

theorem fuseCmdWrite_rollback (hb : s.rf Reg.fuseResult fuseResult_BUSY = 0) :
    (s.fuseCmdWrite 2 0).hostCmds = s.hostCmds ∧ (s.fuseCmdWrite 2 0).rd Reg.fuseData = s.rd Reg.fuseData := by
  rw [fuseCmdWrite_begins (by decide) 0 hb]
  exact ⟨State.setRf_hostCmds _ _ _ _,
    State.rd_setRf_word _ _ (by decide) (by decide) (by decide)⟩

theorem rollbackCommit_begins (hb : s.rf Reg.fuseResult fuseResult_BUSY = 0) : ∃ t,
    s.rollbackCommit = (t, .later 0 (s.ictNs + 2000000)) ∧ t.hostCmds = s.hostCmds ∧
      t.rd Reg.fuseData = BitVec.ofNat 32 s.boot.rollback := by
  have hb' : (s.wr Reg.fuseData (BitVec.ofNat 32 s.boot.rollback)).rf Reg.fuseResult fuseResult_BUSY = 0 :=
    (State.rf_congr (by decide) (by decide) (State.rd_wr_ne _ _ (by decide))).trans hb
  obtain ⟨hh, hd⟩ := fuseCmdWrite_rollback hb'
  exact ⟨_, if_neg (by rw [hb]; decide), hh, hd.trans (State.rd_wr_self _ _ _)⟩

theorem rollbackCommit_served (hs : Serves s ch.val) :
    (s.rf Reg.fuseResult fuseResult_BUSY = 1 → EndsSettled (.rollbackCommit ch tag ws) s fun t =>
      Answered { s.takeMessage ch.val (cmdMsg 0x42 tag ws) with free := s.free + 1 } t ch.val 0x42 tag.toNat
        (Config.freeByte s.free).toNat []) ∧
    (s.rf Reg.fuseResult fuseResult_BUSY = 0 → EndsSettled (.rollbackCommit ch tag ws) s fun t =>
      t.hostCmds = [⟨ch.val, 0x42, tag.toNat, 4096, 0, s.ictNs + 2000000⟩] ∧ t.rd Reg.fuseData = BitVec.ofNat 32 s.boot.rollback) := by
  have hk := mailKept_takeMessage s ch.val (cmdMsg 0x42 tag ws)
  have hb : (s.takeMessage ch.val (cmdMsg 0x42 tag ws)).rf Reg.fuseResult fuseResult_BUSY = s.rf Reg.fuseResult fuseResult_BUSY :=
    hk.rf (by decide) (by decide) (by decide)
  refine ⟨fun h => ?_, fun h => ?_⟩
  · have hp := rollbackCommit_busy (hb.trans h)
    rw [hk.free] at hp
    exact ⟨_, congrArg done (hostCommand_now (op := 0x42) (tag := tag) (ws := ws)
      (perform := fun s _ _ => s.rollbackCommit) hs (by decide) hp), answered_cmdFinish _ _ _ _ _ _⟩
  · obtain ⟨t, ht, hh, hd⟩ := rollbackCommit_begins (hb.trans h)
    refine ⟨_, congrArg done (hostCommand_later (op := 0x42) (tag := tag) (ws := ws)
      (perform := fun s _ _ => s.rollbackCommit) hs (by decide) ht), ?_, ?_⟩
    · show t.hostCmds ++ _ = _
      rw [hh, hk.hostCmds, hs.noCmd, hk.ictNs]
      rfl
    · rw [← hk.boot]
      exact hd

end

end Sys2Proof.Machine
end

section
/-! The end of a VI_RESET, the delivery of a message whose OP firmware does not know, and the statement on the commands
on the device (R350, R352, R369). -/

namespace Sys2Proof.Machine

open Sys2Proof.Safety

/-! ### The end of a VI_RESET (R352) -/

section
variable {s t : State} {i : Nat} {c : HostCmd}

theorem endOutstanding_found {l : List HostCmd} {op st : Nat} {ws : List Nat} (hl : s.hostCmds = l) (hw : s.cmdWait = [])
    (hf : (l.find? fun c => c.inst = i ∧ c.op = op) = some c) :
    s.endOutstanding i op st ws = ({ s with hostCmds := l.erase c }).cmdFinish c.ch op c.tag st ws := by
  subst hl
  unfold State.endOutstanding
  rw [hf, hw, List.length_nil]
  dsimp only
  rw [State.runWaiting]

theorem resetDrained_waits (h : (s.inst i).st ≠ .resetting ∨ s.staleWork i ≠ 0) : s.resetDrained i = s :=
  if_neg (by rintro ⟨h1, h2⟩; exact h.elim (· h1) (· h2))

theorem resetDrained_ends (hst : (s.inst i).st = .resetting) (hd : s.staleWork i = 0) (hw : s.cmdWait = [])
    (hf : (s.hostCmds.find? fun c => c.inst = i ∧ c.op = 0x14) = some c) :
    s.resetDrained i = State.cmdFinish { s.setInst i { s.inst i with st := (s.inst i).back, resetAt := none, hold := false } with
      hostCmds := s.hostCmds.erase c } c.ch 0x14 c.tag 0 [(s.inst i).gen, 0] := by
  have he : s.resetDrained i = (s.setInst i { s.inst i with st := (s.inst i).back, resetAt := none, hold := false }).endOutstanding
      i 0x14 0 [(s.inst i).gen, 0] := if_pos ⟨hst, hd⟩
  rw [he]
  exact endOutstanding_found rfl hw hf

theorem resetLate_unset (h : (s.inst i).resetAt = none) : s.resetLate i = s := by
  unfold State.resetLate
  dsimp only
  rw [h]

theorem resetLate_waits {t0 : Nat} (ht : (s.inst i).resetAt = some t0) (h : (s.inst i).st ≠ .resetting ∨ s.ictNs < t0 + 1000000) :
    s.resetLate i = s := by
  unfold State.resetLate
  dsimp only
  rw [ht]
  refine if_neg fun ⟨hst, he, _⟩ => ?_
  have := of_decide_eq_true he
  exact h.elim (· hst) fun h => by omega

theorem resetLate_ends {t0 : Nat} (hst : (s.inst i).st = .resetting) (ht : (s.inst i).resetAt = some t0)
    (h : t0 + 1000000 ≤ s.ictNs) (hd : s.staleWork i ≠ 0) (hw : s.cmdWait = [])
    (hf : (s.hostCmds.find? fun c => c.inst = i ∧ c.op = 0x14) = some c) :
    s.resetLate i = State.cmdFinish { s.setInst i { s.inst i with st := (s.inst i).back, resetAt := none, resetSlow := true } with
      hostCmds := s.hostCmds.erase c } c.ch 0x14 c.tag 6 [(s.inst i).gen, s.blocks i] := by
  have hany : (s.hostCmds.any fun c => c.inst = i ∧ c.op = 0x14) = true :=
    List.any_eq_true.mpr ⟨c, List.mem_of_find?_eq_some hf, (List.find?_some hf :)⟩
  have he : s.resetLate i = (s.setInst i { s.inst i with st := (s.inst i).back, resetAt := none, resetSlow := true }).endOutstanding
      i 0x14 6 [(s.inst i).gen, s.blocks i] := by
    unfold State.resetLate
    dsimp only
    rw [ht]
    exact (if_pos ⟨hst, decide_eq_true h, hd⟩).trans (if_pos hany)
  rw [he]
  exact endOutstanding_found rfl hw hf

end

/-! ### A message whose OP firmware does not know -/

section
variable {s t : State} {ch : Nat} {ms : List MbWord} {f w : MbWord}

theorem firstIdx_append_cons {α : Type} {p : α → Bool} {l : List α} {x : α} (hl : ∀ y ∈ l, p y = false) (hx : p x = true)
    (r : List α) : firstIdx p (l ++ x :: r) = some l.length := by
  induction l with
  | nil => exact if_pos hx
  | cons y l ih =>
    obtain ⟨hy, hl⟩ := List.forall_mem_cons.mp hl
    rw [List.cons_append, firstIdx, if_neg (by rw [hy]; decide), ih hl]
    rfl

/-- One thread or steward at the raising of a source of a channel end. -/
def State.raiseEndAt (type c : Nat) (a : Bool) (s : State) (n : Nat) : State :=
  if bindMask (s.bindsOf n) type c ≠ 0 ∧ s.mbEnd n c = some a then s.setEv n (bindMask (s.bindsOf n) type c) else s

theorem raiseEnd_eq (s : State) (type c : Nat) (a : Bool) : s.raiseEnd type c a =
    [2048, 2049, 2050, 2051].foldl (State.raiseEndAt type c a) (s.entries.foldl (fun s e => State.raiseEndAt type c a s e.1) s) := rfl

theorem onlyEvents_raiseEndAt (type c : Nat) (a : Bool) (s : State) (n : Nat) : OnlyEvents s (State.raiseEndAt type c a s n) := by
  unfold State.raiseEndAt
  split
  · exact onlyEvents_setEv _ _ _
  · exact OnlyEvents.refl s

theorem onlyEvents_raiseEnd (s : State) (type c : Nat) (a : Bool) : OnlyEvents s (s.raiseEnd type c a) := by
  have h := onlyEvents_foldl (fun s e => State.raiseEndAt type c a s e.1) (fun s e => onlyEvents_raiseEndAt type c a s e.1)
    s.entries s
  rw [raiseEnd_eq]
  exact h.trans (onlyEvents_foldl (State.raiseEndAt type c a) (onlyEvents_raiseEndAt type c a) _ _)

theorem OnlyEvents.mboxes (h : OnlyEvents s t) : t.mboxes = s.mboxes := (congrArg State.mboxes h.rest :)
theorem OnlyEvents.replies (h : OnlyEvents s t) : t.replies = s.replies := (congrArg State.replies h.rest :)
theorem OnlyEvents.boot (h : OnlyEvents s t) : t.boot = s.boot := (congrArg State.boot h.rest :)


/-- Firmware serves the host channel. -/
def Listens (s : State) (ch : Nat) : Prop := s.stopped = false ∧ s.rf (Reg.devStatus (ch / 8)) devStatus_READY = 1

theorem Listens.congr (h : Listens s ch) (hb : t.boot = s.boot) (hr : t.regs = s.regs) : Listens t ch := by
  rw [Listens, State.stopped, State.pstate, hb, State.rf_congr (s := s) (by decide) (by decide) (State.rd_congr hr _),
    State.rf_congr (s := s) (by decide) (by decide) (State.rd_congr hr _)]
  exact h

theorem Listens.mailKept (h : Listens s ch) (hch : ch < 16) (hk : MailKept s t) : Listens t ch := by
  have hd : t.rf (Reg.devStatus (ch / 8)) devStatus_READY = s.rf (Reg.devStatus (ch / 8)) devStatus_READY := by
    obtain h0 | h1 : ch / 8 = 0 ∨ ch / 8 = 1 := by omega
    · rw [h0]
      exact hk.rf (by decide) (by decide) (by decide)
    · rw [h1]
      exact hk.rf (by decide) (by decide) (by decide)
  rw [Listens, State.stopped, State.pstate, hk.boot, hk.rf (by decide) (by decide) (by decide), hd]
  exact h

theorem linksOnly_mbCause (s : State) (h : Nat) : LinksOnly s (s.mbCause h) := by
  unfold State.mbCause
  generalize (List.range 16).any (s.mbCond h) = b
  cases b with
  | true => exact (causeKept_setCause s h 0 (by decide)).only
  | false => exact (CauseKept.refl h s).only

theorem mbox_mbCheck (s : State) (c : Nat) : s.mbCheck.mbox c = s.mbox c := by
  rw [mbCheck_eq, State.mbox, (linksOnly_mbCause _ 1).mboxes, (linksOnly_mbCause _ 0).mboxes]
  rfl

theorem replies_mbCheck (s : State) : s.mbCheck.replies = s.replies := by
  rw [mbCheck_eq, (linksOnly_mbCause _ 1).replies, (linksOnly_mbCause _ 0).replies]

theorem answerUnknown_empty (fuel : Nat) (h : (s.mbox (16 + ch)).ba = []) : State.answerUnknown fuel ch s = s := by
  cases fuel with
  | zero => rfl
  | succ fuel =>
    unfold State.answerUnknown
    dsimp only
    rw [h]
    rfl

/-- Firmware takes a visible message that is all its queue holds, and answers an OP that it does not know with BAD_OP. -/
theorem answerUnknown_takes {l : List MbWord} {i : Nat} (fuel : Nat) (hl : Listens s ch) (hba : (s.mbox (16 + ch)).ba = f :: l)
    (hfin : firstIdx (fun w : MbWord => w.fin) (f :: l) = some i) (hlen : (f :: l).length = i + 1)
    (hseen : ∀ y ∈ f :: l, y.seen = true) (hop : f.word % 256 ∉ hostOps) : ∃ b : Mbox,
    State.answerUnknown (fuel + 1) ch s =
      State.answerUnknown fuel ch (((s.setMbox (16 + ch) b).respond (16 + ch) [f.word % 65536 + 65536]).mbCheck) ∧
      b.ba = [] ∧ b.ab = (s.mbox (16 + ch)).ab ∧ b.openA = (s.mbox (16 + ch)).openA := by
  have htake : (f :: l).take (i + 1) = f :: l := by rw [← hlen, List.take_length]
  have hdrop : (f :: l).drop (i + 1) = [] := by rw [← hlen, List.drop_length]
  have hall : ((f :: l).all fun x => x.seen) = true := List.all_eq_true.mpr hseen
  have hknown : hostOps.contains (f.word % 256) = false := by simpa using hop
  refine ⟨{ s.mbox (16 + ch) with
    ba := [], emptyB := (s.mbox (16 + ch)).emptyB || true, drained := (s.mbox (16 + ch)).drained || true }, ?_, rfl, rfl, rfl⟩
  conv_lhs => unfold State.answerUnknown
  dsimp only
  rw [hba, hfin]
  dsimp only
  rw [htake, hdrop]
  dsimp only
  rw [hknown, hall, hl.1, hl.2]
  rfl

/-- What the far end makes of a word that becomes visible. -/
def MbWord.see (w : MbWord) : MbWord := { w with seen := true }

theorem mbDeliver_host (hch : ch < 16) (hba : (s.mbox (16 + ch)).ba = ms ++ [w]) (hms : ∀ y ∈ ms, y.seen = true) (hw : w.seen = false) :
    s.mbDeliver (16 + ch) false = State.answerUnknown 16 ch (((s.setMbox (16 + ch)
      { s.mbox (16 + ch) with ba := (ms ++ [w]).map MbWord.see }).raiseEnd 2 (16 + ch) true).mbCheck) := by
  have hidx : firstIdx (fun w : MbWord => !w.seen) (ms ++ [w]) = some ms.length :=
    firstIdx_append_cons (fun y hy => by simp [hms y hy]) (by simp [hw]) []
  have hq : (ms ++ [w]).take ms.length ++ ((ms ++ [w]).drop ms.length).take 1 = ms ++ [w] := by simp
  have hrest : (ms ++ [w]).drop (ms.length + 1) = [] := by simp
  unfold State.mbDeliver
  simp only [Bool.false_eq_true, if_false, hba, hidx, hq, hrest, List.append_nil]
  rw [if_pos (by refine ⟨rfl, ?_, ?_⟩ <;> omega), Nat.add_sub_cancel_left]
  rfl

theorem mbox_respond_one {b : Mbox} {c v : Nat} (hr : ∀ r ∈ s.replies, r.1 ≠ c) (ha : b.ab.length < 16) (ho : b.openA < 16) :
    (((s.setMbox c b).respond c [v]).mbCheck.mbox c).ab = b.ab ++ [⟨v % 2 ^ 32, true, false⟩] ∧
      (((s.setMbox c b).respond c [v]).mbCheck.mbox c).ba = b.ba := by
  have hb : (s.setMbox c b).mbox c = b := (State.mbox_setMbox s c b c).trans (if_pos rfl)
  obtain ⟨hab, hba, -⟩ := respond_posts (s.setMbox c b) c [v] hr (by rw [hb]; exact ha) (by rw [hb]; exact ho)
  rw [hb] at hab hba
  rw [mbox_mbCheck]
  exact ⟨hab, hba⟩

/-- The last word of a message whose OP firmware does not know becomes visible: the message is taken and answered. -/
theorem mbDeliver_unknown (hch : ch < 16) (hl : Listens s ch) (hba : (s.mbox (16 + ch)).ba = ms ++ [w])
    (hf : (ms ++ [w]).head? = some f) (hms : ∀ y ∈ ms, y.seen = true ∧ y.fin = false) (hw : w.seen = false) (hwf : w.fin = true)
    (hop : f.word % 256 ∉ hostOps) (ha : (s.mbox (16 + ch)).ab.length < 16) (ho : (s.mbox (16 + ch)).openA < 16)
    (hr : ∀ r ∈ s.replies, r.1 ≠ 16 + ch) :
    ((s.mbDeliver (16 + ch) false).mbox (16 + ch)).ba = [] ∧
      ((s.mbDeliver (16 + ch) false).mbox (16 + ch)).ab = (s.mbox (16 + ch)).ab ++
        [⟨f.word % 256 + 256 * (f.word / 256 % 256) + 65536 * 1, true, false⟩] := by
  let b : Mbox := { s.mbox (16 + ch) with ba := (ms ++ [w]).map MbWord.see }
  have hev := onlyEvents_raiseEnd (s.setMbox (16 + ch) b) 2 (16 + ch) true
  rw [mbDeliver_host hch hba (fun y hy => (hms y hy).1) hw]
  have hlis : Listens ((s.setMbox (16 + ch) b).raiseEnd 2 (16 + ch) true).mbCheck ch :=
    (Listens.congr (s := s) hl hev.boot hev.regs).mailKept hch (mailKept_mbCheck _)
  have hrep : ((s.setMbox (16 + ch) b).raiseEnd 2 (16 + ch) true).mbCheck.replies = s.replies :=
    (replies_mbCheck _).trans hev.replies
  have hmb : ((s.setMbox (16 + ch) b).raiseEnd 2 (16 + ch) true).mbCheck.mbox (16 + ch) = b := by
    rw [mbox_mbCheck, State.mbox, hev.mboxes]
    exact (State.mbox_setMbox s _ b _).trans (if_pos rfl)
  generalize ((s.setMbox (16 + ch) b).raiseEnd 2 (16 + ch) true).mbCheck = u at hlis hrep hmb ⊢
  obtain ⟨l, hsee⟩ : ∃ l, (ms ++ [w]).map MbWord.see = f.see :: l := by
    cases ms with
    | nil =>
      obtain rfl : w = f := by simpa using hf
      exact ⟨[], rfl⟩
    | cons x ms =>
      obtain rfl : x = f := by simpa using hf
      exact ⟨_, rfl⟩
  have hfin : firstIdx (fun w : MbWord => w.fin) (f.see :: l) = some ms.length := by
    rw [← hsee, List.map_append]
    refine (firstIdx_append_cons (l := ms.map MbWord.see) (x := w.see) ?_ hwf []).trans (congrArg some (List.length_map _))
    intro y hy
    obtain ⟨x, hx, rfl⟩ := List.mem_map.mp hy
    exact (hms x hx).2
  have hlen : (f.see :: l).length = ms.length + 1 := by rw [← hsee]; simp
  have hall : ∀ y ∈ f.see :: l, y.seen = true := by
    rw [← hsee]
    intro y hy
    obtain ⟨x, -, rfl⟩ := List.mem_map.mp hy
    rfl
  obtain ⟨b', hstep, hba', hab', ho'⟩ := answerUnknown_takes (f := f.see) 15 hlis (by rw [hmb]; exact hsee) hfin hlen hall hop
  rw [hmb] at hab' ho'
  obtain ⟨hab'', hba''⟩ := mbox_respond_one (s := u) (b := b') (v := f.see.word % 65536 + 65536)
    (by rw [hrep]; exact hr) (by rw [hab']; exact ha) (by rw [ho']; exact ho)
  rw [hstep, answerUnknown_empty 15 (hba''.trans hba')]
  refine ⟨hba''.trans hba', hab''.trans ?_⟩
  have hword : (f.see.word % 65536 + 65536) % 2 ^ 32 = f.word % 256 + 256 * (f.word / 256 % 256) + 65536 * 1 := by
    show (f.word % 65536 + 65536) % 2 ^ 32 = _
    omega
  rw [hab', hword]

end

/-- Settles O46 (R107, R348 to R354, R427): a command on the device is performed on the state without its message. Rests
on log entries 90 (the free statuses), 93 (a CAPTURE_EXPORT of 0 records), 94 (the answer of IMG_ACTIVATE after the restart) and 155
(BAD_OP at the delivery of the last word). -/
theorem deviceCommands : Obligations.DeviceCommands := by
  refine ⟨fun ch tag ws s hs => ?_, fun inst s hrun hw => ?_, fun ch ms f w s => ?_⟩
  · refine ⟨devInfo_served hs, clusterRestart_served hs, captureExport_served hs, imgWrite_served hs,
      fun img ok => imgActivate_served hs img ok, (rollbackCommit_served hs).1, (rollbackCommit_served hs).2⟩
  · have hd : ∀ t, s.resetDrained inst.val = t → exec (.resetStaleDrained inst) s = .next t := fun t h => by
      show execResetStaleDrained inst s = _
      rw [execResetStaleDrained, hrun, h]
      rfl
    have hl : ∀ t, s.resetLate inst.val = t → exec (.resetSlow inst) s = .next t := fun t h => by
      show execResetSlow inst s = _
      rw [execResetSlow, hrun, h]
      rfl
    refine ⟨fun hst => ⟨hd _ (resetDrained_waits (.inl hst)), hl _ ?_⟩, fun hst => hd _ (resetDrained_waits (.inr hst)),
      fun c hst hdr hf => ⟨_, hd _ (resetDrained_ends hst hdr hw hf), answered_cmdFinish _ _ _ _ _ _⟩,
      fun c t0 hst ht hdr => ⟨fun he => hl _ (resetLate_waits ht (.inr he)),
        fun he hf => ⟨_, hl _ (resetLate_ends hst ht he hdr hw hf), answered_cmdFinish _ _ _ _ _ _⟩⟩⟩
    cases ht : (s.inst inst.val).resetAt with
    | none => exact resetLate_unset ht
    | some t0 => exact resetLate_waits ht (.inl hst)
  · intro b hrun hready hba hf hms hw hwf hop ha ho hr
    obtain ⟨h1, h2⟩ := mbDeliver_unknown ch.isLt ⟨hrun, hready⟩ hba hf hms hw hwf hop ha ho hr
    refine ⟨_, ?_, h1, ?_⟩
    · show execMailboxDeliver _ false s = _
      rw [execMailboxDeliver, hrun]
      rfl
    · rw [h2, List.map_append]
      rfl

end Sys2Proof.Machine
end

section
/-! PORST_N, boot, the checks of an image, and the fuse operations (R107, R421, R424 to R426, R428 to R430, R446). -/

namespace Sys2Proof.Machine

open Sys2Proof.Safety

/-! ### Fields of DEV_STATUS (R306) -/

section
variable {s t u : State} {f : Fld} {v : Nat}

/-- One link of a change of PF0.DEV_STATUS. -/
def State.devStatusAt (f : Fld) (v : Nat) (s : State) (h : Nat) : State :=
  if s.rf (Reg.devStatus h) f = v then s else (s.setRf (Reg.devStatus h) f v).setCause h 1

theorem setDevStatus_eq (s : State) (f : Fld) (v : Nat) : s.setDevStatus f v = State.devStatusAt f v (State.devStatusAt f v s 0) 1 := rfl

theorem linksOnly_devStatusAt (f : Fld) (v : Nat) (s : State) (h : Nat) : LinksOnly s (State.devStatusAt f v s h) := by
  unfold State.devStatusAt
  split
  · exact (CauseKept.refl h s).only
  · exact (LinksOnly.of_regs (s.setRf_only _ _ _)).trans (causeKept_setCause _ h 1 (by decide)).only

theorem linksOnly_setDevStatus (s : State) (f : Fld) (v : Nat) : LinksOnly s (s.setDevStatus f v) :=
  (linksOnly_devStatusAt f v s 0).trans (linksOnly_devStatusAt f v _ 1)

theorem rf_devStatusAt (hl : f.lo < 32) (hw : f.words = 1) (hv : v < 2 ^ f.width) (s : State) (h : Nat) :
    (State.devStatusAt f v s h).rf (Reg.devStatus h) f = v := by
  unfold State.devStatusAt
  split
  · next e => exact e
  · rw [State.rf_congr hl hw ((causeKept_setCause _ h 1 (by decide)).rd _ (.inl (Nat.le_refl _))), State.rf_setRf_same,
      Nat.mod_eq_of_lt hv]

theorem rd_devStatusAt (hl : f.lo < 32) (hw : f.words = 1) (s : State) (h : Nat) {b : Nat}
    (hb : b < Reg.devStatus h ∨ Reg.devStatus (h + 1) ≤ b) (hne : b ≠ Reg.devStatus h) :
    (State.devStatusAt f v s h).rd b = s.rd b := by
  unfold State.devStatusAt
  split
  · rfl
  · rw [(causeKept_setCause _ h 1 (by decide)).rd _ (hb.imp Nat.le_of_lt id)]
    exact State.rd_setRf_word _ _ hl hw hne

/-- A field of PF0.DEV_STATUS reads the same at both links after its change. -/
theorem rf_setDevStatus (hl : f.lo < 32) (hw : f.words = 1) (hv : v < 2 ^ f.width) (s : State) :
    (s.setDevStatus f v).rf (Reg.devStatus 0) f = v ∧ (s.setDevStatus f v).rf (Reg.devStatus 1) f = v := by
  rw [setDevStatus_eq]
  refine ⟨?_, rf_devStatusAt hl hw hv _ 1⟩
  rw [State.rf_congr hl hw (rd_devStatusAt hl hw _ 1 (.inl (by decide)) (by decide))]
  exact rf_devStatusAt hl hw hv s 0

theorem LinksOnly.fuses (h : LinksOnly s t) : t.fuses = s.fuses := (congrArg State.fuses h :)
theorem LinksOnly.pins (h : LinksOnly s t) : t.pins = s.pins := (congrArg State.pins h :)
theorem LinksOnly.pending (h : LinksOnly s t) : t.pending = s.pending := (congrArg State.pending h :)
theorem LinksOnly.boot (h : LinksOnly s t) : t.boot = s.boot := (congrArg State.boot h :)
theorem LinksOnly.threads (h : LinksOnly s t) : t.threads = s.threads := (congrArg State.threads h :)

/-! ### PORST_N (R446) -/

theorem linksOnly_setCauses (s : State) (i : Nat) (hi : i < 32) : LinksOnly s (s.setCauses i) :=
  (causeKept_setCause s 0 i hi).only.trans (causeKept_setCause _ 1 i hi).only

theorem linksOnly_count32 (s : State) (a : Nat) : LinksOnly s (s.count32 a) := LinksOnly.of_regs rfl

/-- What the writing of a record may change. -/
def RecordOnly (s t : State) : Prop := LinksOnly s { t with tb := s.tb }

theorem recordOnly_tbWrite (s : State) (torn : Bool) : RecordOnly s (s.tbWrite torn) := by
  have hof : ∀ {tb : Trailbook} {u : State}, LinksOnly { s with tb := tb } u → RecordOnly s u := fun h =>
    (congrArg (fun x : State => { x with tb := s.tb }) h :)
  unfold State.tbWrite
  split
  · exact (CauseKept.refl 0 s).only
  · dsimp only
    split
    · exact hof ((linksOnly_setDevStatus _ _ _).trans (linksOnly_setCauses _ _ (by decide)))
    · split
      · exact hof (linksOnly_count32 _ _)
      · exact hof (CauseKept.refl 0 _).only

theorem porstAssert_ends (torn : Bool) (s : State) : Ends (.porstAssert torn) s fun t =>
    t.boot.phase = .off ∧ t.pins.porstN = false ∧ t.pins.perstN = s.pins.perstN ∧
    t.pins.holdIn = s.pins.holdIn ∧ t.regs = [] ∧ t.mem = [] ∧ t.threads = [] ∧ t.frames = [] ∧ t.slots = [] ∧ t.loaded = [] ∧
    t.fuses = s.fuses ∧ t.tb.queue = [] ∧ (torn = false → t.tb.recs = s.tb.recs ∧ t.tb.index = s.tb.index) ∧ t.pending = s.pending := by
  have hr := recordOnly_tbWrite s true
  cases torn with
  | false => exact ⟨_, rfl, rfl, rfl, rfl, rfl, rfl, rfl, rfl, rfl, rfl, rfl, rfl, rfl, fun _ => ⟨rfl, rfl⟩, rfl⟩
  | true =>
    have hp : (s.tbWrite true).pins = s.pins := hr.pins
    have hperst : (s.tbWrite true).pins.perstN = s.pins.perstN := by rw [hp]
    have hhold : (s.tbWrite true).pins.holdIn = s.pins.holdIn := by rw [hp]
    exact ⟨_, rfl, rfl, rfl, hperst, hhold, rfl, rfl, rfl, rfl, rfl, rfl, hr.fuses, rfl,
      fun h => absurd h (by decide), hr.pending⟩

/-! ### The monitors and the first slot (R421, R424, R425) -/

theorem regsTb_record (s : State) (code island : Nat) (items : List (Nat × Nat × Nat)) :
    { s.record code island items with tb := s.tb, regs := s.regs } = s := recordFlags_only s code island 0 _

theorem rd_record (s : State) (code island : Nat) (items : List (Nat × Nat × Nat)) {a : Nat} (ha : a ≠ Reg.tbLost) :
    (s.record code island items).rd a = s.rd a := rd_recordFlags s code island 0 _ ha

theorem envOutOfSpec_ends (m : Fin 10) (reading : W32) (s : State) :
    let late := s.boot.phase = .monitors ∧ s.boot.reboot = false ∧ s.boot.envRecorded = false ∧ 100000000 ≤ s.ictNs
    (¬late → exec (.envOutOfSpec m reading) s = .next s) ∧
    (late → Ends (.envOutOfSpec m reading) s fun t => t.boot = { s.boot with envRecorded := true } ∧
      { t with boot := s.boot, tb := s.tb, regs := s.regs } = s) := by
  intro late
  have hl : (s.boot.phase = .monitors ∧ (!s.boot.reboot) = true ∧ (!s.boot.envRecorded) = true ∧ s.elapsed 0 100000000 = true) ↔
      late := by
    simp only [late, State.elapsed, Bool.not_eq_true', decide_eq_true_eq, Nat.zero_add]
  refine ⟨fun h => congrArg (fun t => (.next t : Out)) (if_neg (mt hl.mp h)), fun h =>
    ⟨_, congrArg (fun t => (.next t : Out)) (if_pos (hl.mpr h)), ?_⟩⟩
  have hr := regsTb_record { s with boot := { s.boot with envRecorded := true } } 0x0006 0 [(0, 1, m.val), (4, 4, reading.toNat)]
  exact ⟨(congrArg State.boot hr :), (congrArg (fun x : State => { x with boot := s.boot }) hr :)⟩

/-- Each of the first `n` stewards takes a new state in turn. -/
def State.mapStws (F : Nat → Steward → Steward) (n : Nat) (s : State) : State :=
  (List.range n).foldl (fun s k => s.setStw k (F k (s.stw k))) s

theorem mapStws_succ (F : Nat → Steward → Steward) (n : Nat) (s : State) :
    s.mapStws F (n + 1) = (s.mapStws F n).setStw n (F n ((s.mapStws F n).stw n)) := by
  rw [State.mapStws, List.range_succ, List.foldl_append]
  rfl

theorem stw_mapStws (F : Nat → Steward → Steward) (n : Nat) (s : State) (k : Nat) :
    (s.mapStws F n).stw k = if k < n then F k (s.stw k) else s.stw k := by
  induction n with
  | zero => rfl
  | succ n ih =>
    rw [mapStws_succ, State.stw_setStw]
    by_cases h : k = n
    · subst h
      rw [if_pos rfl, if_pos (Nat.lt_succ_self k), ih, if_neg (Nat.lt_irrefl k)]
    · rw [if_neg h, ih]
      exact if_congr (by omega) rfl rfl

theorem mapStws_only (F : Nat → Steward → Steward) (n : Nat) (s : State) : { s.mapStws F n with stewards := s.stewards } = s := by
  induction n with
  | zero => rfl
  | succ n ih =>
    rw [mapStws_succ]
    exact ih

/-- The stewards continue in the boot ROM at their exceptions (R91). -/
def State.setEvecs (s : State) : State := s.mapStws (fun _ x => { x with evec := Config.bootEvec.setWidth 64 }) 4

/-- The fuses are loaded, with the resets they give. -/
def State.loadFuses (s : State) : State :=
  let u : State := { s.record 0x0001 0 [(0, 1, b2n s.boot.reboot)] with loaded := (s.record 0x0001 0 [(0, 1, b2n s.boot.reboot)]).fuses }
  let w := u.setRf Reg.pairCfg pairCfg_MODE (min 2 (u.fuseBits 2 2))
  w.setRf Reg.bootStatus bootStatus_COUNTER w.rollbackCounter

theorem setEvecs_eq (s : State) : s.setEvecs =
    [0, 1, 2, 3].foldl (fun s k => s.setStw k { s.stw k with evec := Config.bootEvec.setWidth 64 }) s := rfl

theorem bootFuses_eq (pref : Option Nat) (h : s.boot.phase = .monitors) :
    s.bootFuses pref none = s.loadFuses.setEvecs.tryFirst pref := by
  rw [setEvecs_eq]
  unfold State.bootFuses State.loadFuses
  rw [if_neg (not_not_intro h)]

/-- The slot that boot tries first, as R421 gives it. -/
def State.bootSlot (s : State) (pref : Option (Fin 2)) : Nat :=
  s.boot.force.getD (if s.rf Reg.bootCtl bootCtl_SLOT_OVERRIDE ≠ 0 then s.rf Reg.bootCtl bootCtl_SLOT_OVERRIDE - 1
    else (pref.map Fin.val).getD 0)

theorem firstSlot_eq (s : State) (pref : Option (Fin 2)) : s.firstSlot (pref.map Fin.val) = s.bootSlot pref := by
  unfold State.firstSlot State.bootSlot
  cases s.boot.force with
  | none => rfl
  | some n => rfl

theorem tryFirst_boot (s : State) (pref : Option (Fin 2)) : (s.tryFirst (pref.map Fin.val)).boot =
    { s.boot with phase := .copying, first := s.bootSlot pref, slot := s.bootSlot pref, reasons := [] } := by
  rw [← firstSlot_eq]
  exact State.setRf_boot _ _ _ _

theorem tryFirst_only (s : State) (pref : Option Nat) : { s.tryFirst pref with boot := s.boot, regs := s.regs } = s :=
  (congrArg (fun x : State => { x with boot := s.boot }) (State.setRf_only { s with boot := { s.boot with
    phase := .copying, first := s.firstSlot pref, slot := s.firstSlot pref, reasons := [] } } Reg.bootStatus bootStatus_FALLBACK 0) :)

theorem rf_fallback_tryFirst (s : State) (pref : Option Nat) : (s.tryFirst pref).rf Reg.bootStatus bootStatus_FALLBACK = 0 :=
  State.rf_setRf_same _ _ _ _

theorem rf_counter_tryFirst (s : State) (pref : Option Nat) :
    (s.tryFirst pref).rf Reg.bootStatus bootStatus_COUNTER = s.rf Reg.bootStatus bootStatus_COUNTER :=
  State.rf_setRf_beside _ _ _ (by decide) (by decide) (by decide) (by decide) (by decide)

/-- The load of the fuses changes them as loaded, the Trailbook and registers alone. -/
def LoadKept (s t : State) : Prop := { t with loaded := s.loaded, tb := s.tb, regs := s.regs } = s

theorem LoadKept.setRf (h : LoadKept s t) (a : Nat) (f : Fld) (v : Nat) : LoadKept s (t.setRf a f v) :=
  (congrArg (fun x : State => { x with loaded := s.loaded, tb := s.tb, regs := s.regs }) (t.setRf_only a f v) :).trans h

theorem LoadKept.loaded {x : Tab W32} (h : { t with tb := s.tb, regs := s.regs } = s) : LoadKept s { t with loaded := x } :=
  (congrArg (fun x : State => { x with loaded := s.loaded }) h :)

theorem loadKept_loadFuses (s : State) : LoadKept s s.loadFuses :=
  ((LoadKept.loaded (regsTb_record s 0x0001 0 [(0, 1, b2n s.boot.reboot)])).setRf _ _ _).setRf _ _ _

theorem LoadKept.boot (h : LoadKept s t) : t.boot = s.boot := (congrArg State.boot h :)
theorem LoadKept.mem (h : LoadKept s t) : t.mem = s.mem := (congrArg State.mem h :)
theorem LoadKept.fuses (h : LoadKept s t) : t.fuses = s.fuses := (congrArg State.fuses h :)

theorem loaded_loadFuses (s : State) : s.loadFuses.loaded = s.fuses := by
  have h : (s.record 0x0001 0 [(0, 1, b2n s.boot.reboot)]).fuses = s.fuses :=
    (congrArg State.fuses (regsTb_record s 0x0001 0 [(0, 1, b2n s.boot.reboot)]) :)
  unfold State.loadFuses
  dsimp only
  rw [State.setRf_loaded, State.setRf_loaded]
  exact h

theorem rf_counter_loadFuses (s : State) : s.loadFuses.rf Reg.bootStatus bootStatus_COUNTER = s.rollbackCounter % 256 := by
  have hk := (LoadKept.loaded (x := (s.record 0x0001 0 [(0, 1, b2n s.boot.reboot)]).fuses)
    (regsTb_record s 0x0001 0 [(0, 1, b2n s.boot.reboot)]))
  unfold State.loadFuses
  dsimp only
  rw [State.rf_setRf_same, State.rollbackCounter_congr (hk.setRf _ _ _).fuses]
  rfl

theorem rd_bootCtl_loadFuses (s : State) : s.loadFuses.rd Reg.bootCtl = s.rd Reg.bootCtl := by
  unfold State.loadFuses
  dsimp only
  rw [State.rd_setRf_word _ _ (by decide) (by decide) (by decide), State.rd_setRf_word _ _ (by decide) (by decide) (by decide)]
  exact rd_record s _ _ _ (by decide)

/-- A change of the stewards alone. -/
def StwKept (s t : State) : Prop := { t with stewards := s.stewards } = s

theorem StwKept.loaded (h : StwKept s t) : t.loaded = s.loaded := (congrArg State.loaded h :)
theorem StwKept.boot (h : StwKept s t) : t.boot = s.boot := (congrArg State.boot h :)
theorem StwKept.mem (h : StwKept s t) : t.mem = s.mem := (congrArg State.mem h :)
theorem StwKept.fuses (h : StwKept s t) : t.fuses = s.fuses := (congrArg State.fuses h :)
theorem StwKept.regs (h : StwKept s t) : t.regs = s.regs := (congrArg State.regs h :)

/-- A change of the boot's state and of registers alone. -/
def BootRegs (s t : State) : Prop := { t with boot := s.boot, regs := s.regs } = s

theorem BootRegs.loaded (h : BootRegs s t) : t.loaded = s.loaded := (congrArg State.loaded h :)
theorem BootRegs.mem (h : BootRegs s t) : t.mem = s.mem := (congrArg State.mem h :)
theorem BootRegs.fuses (h : BootRegs s t) : t.fuses = s.fuses := (congrArg State.fuses h :)
theorem BootRegs.stw (h : BootRegs s t) (k : Nat) : t.stw k = s.stw k := State.stw_congr (congrArg State.stewards h :) k

theorem stwKept_setEvecs (s : State) : StwKept s s.setEvecs := mapStws_only _ 4 s

theorem evec_setEvecs (s : State) {k : Nat} (hk : k < 4) : (s.setEvecs.stw k).evec = Config.bootEvec.setWidth 64 := by
  rw [State.setEvecs, stw_mapStws, if_pos hk]

theorem bootSlot_congr (hb : t.boot = s.boot) (hr : t.rd Reg.bootCtl = s.rd Reg.bootCtl) (pref : Option (Fin 2)) :
    t.bootSlot pref = s.bootSlot pref := by
  rw [State.bootSlot, State.bootSlot, hb, State.rf_congr (s := s) (by decide) (by decide) hr]

theorem exec_bootMonitorsReady (pref : Option (Fin 2)) (h : s.boot.phase = .monitors) :
    exec (.bootMonitorsReady pref none) s = .next (s.loadFuses.setEvecs.tryFirst (pref.map Fin.val)) := by
  rw [← bootFuses_eq (pref.map Fin.val) h]
  rfl

theorem bootMonitorsReady_ends (pref : Option (Fin 2)) (h : s.boot.phase = .monitors) :
    Ends (.bootMonitorsReady pref none) s fun t => t.loaded = s.fuses ∧ t.boot.phase = .copying ∧
      t.boot.slot = s.bootSlot pref ∧ t.boot.reasons = [] ∧ t.rf Reg.bootStatus bootStatus_FALLBACK = 0 ∧
      t.rf Reg.bootStatus bootStatus_COUNTER = s.rollbackCounter % 256 ∧ (∀ k, k < 4 → (t.stw k).evec = Config.bootEvec.setWidth 64) ∧
      t.mem = s.mem ∧ t.fuses = s.fuses := by
  refine ⟨_, exec_bootMonitorsReady pref h, ?_⟩
  have hs := stwKept_setEvecs s.loadFuses
  have hv := fun k (hk : k < 4) => evec_setEvecs s.loadFuses hk
  have hk := loadKept_loadFuses s
  have hregs := hs.regs
  have hslot := bootSlot_congr (hs.boot.trans hk.boot) ((State.rd_congr hregs _).trans (rd_bootCtl_loadFuses s)) pref
  have hcount : s.loadFuses.setEvecs.rf Reg.bootStatus bootStatus_COUNTER = s.rollbackCounter % 256 :=
    (State.rf_congr (by decide) (by decide) (State.rd_congr hregs _)).trans (rf_counter_loadFuses s)
  have hload := hs.loaded.trans (loaded_loadFuses s)
  have hmem := hs.mem.trans hk.mem
  have hfuses := hs.fuses.trans hk.fuses
  beta_reduce
  generalize s.loadFuses.setEvecs = u at hv hslot hcount hload hmem hfuses ⊢
  have hb := tryFirst_boot u pref
  have ho : BootRegs u (u.tryFirst (pref.map Fin.val)) := tryFirst_only u (pref.map Fin.val)
  refine ⟨ho.loaded.trans hload, congrArg Boot.phase hb, (congrArg Boot.slot hb).trans hslot, congrArg Boot.reasons hb,
    rf_fallback_tryFirst u _, (rf_counter_tryFirst u _).trans hcount, fun k hk => ?_, ho.mem.trans hmem, ho.fuses.trans hfuses⟩
  rw [ho.stw]
  exact hv k hk

theorem bootMonitorsReady_past (pref : Option (Fin 2)) (h : s.boot.phase ≠ .monitors) :
    exec (.bootMonitorsReady pref none) s = .next s := congrArg (fun t => (.next t : Out)) (if_pos h)

theorem bootRetry_waits (pref : Option (Fin 2)) (h : s.boot.phase ≠ .failed ∨ s.ictNs < s.boot.failedAt + 10000000000) :
    exec (.bootRetry pref) s = .next s := by
  refine congrArg (fun t => (.next t : Out)) (if_neg fun ⟨hf, he⟩ => ?_)
  have he' : s.boot.failedAt + 10000000000 ≤ s.ictNs := of_decide_eq_true he
  exact h.elim (· hf) fun h => by omega

theorem bootRetry_ends (pref : Option (Fin 2)) (h : s.boot.phase = .failed) (ht : s.boot.failedAt + 10000000000 ≤ s.ictNs) :
    Ends (.bootRetry pref) s fun t => t.boot.phase = .copying ∧ t.boot.slot = s.bootSlot pref ∧ t.boot.reasons = [] ∧
      { t with boot := s.boot, regs := s.regs } = s := by
  have hb := tryFirst_boot s pref
  exact ⟨_, congrArg (fun t => (.next t : Out)) (if_pos ⟨h, decide_eq_true ht⟩), congrArg Boot.phase hb, congrArg Boot.slot hb,
    congrArg Boot.reasons hb, tryFirst_only s _⟩

/-! ### The checks of an image (R107, R425) -/

theorem imageCopied_past (img : List Byte) (ok : Bool) (h : s.boot.phase ≠ .copying) : s.imageCopied img ok = s := if_pos h

theorem imageCopied_unread (img : List Byte) (h : s.boot.phase = .copying) :
    s.imageCopied img false = s.rejectImage 6 0xFFFF := (if_neg (not_not_intro h)).trans (if_pos rfl)

/-- The image as it was copied. -/
def State.imageAt (s : State) (img : List Byte) : State := s.stBytes imageCopyBase (img.take 0x4000000)

theorem imageFault_imageAt (s : State) (img : List Byte) : (s.imageAt img).imageFault img = s.imageFault img :=
  State.imageFault_congr (State.stBytes_loaded _ _ _) (State.stBytes_fuses _ _ _) img

theorem imageCopied_faulty {img : List Byte} {r : Nat × Nat} (h : s.boot.phase = .copying) (hf : s.imageFault img = some r) :
    s.imageCopied img true = (s.imageAt img).rejectImage r.1 r.2 := by
  rw [← imageFault_imageAt] at hf
  refine (if_neg (not_not_intro h)).trans ((if_neg (by decide)).trans ?_)
  change (match (s.imageAt img).imageFault img with
    | some r => (s.imageAt img).rejectImage r.1 r.2
    | none => (s.imageAt img).acceptImage img) = _
  rw [hf]

theorem imageCopied_good {img : List Byte} (h : s.boot.phase = .copying) (hf : s.imageFault img = none) :
    s.imageCopied img true = (s.imageAt img).acceptImage img := by
  rw [← imageFault_imageAt] at hf
  refine (if_neg (not_not_intro h)).trans ((if_neg (by decide)).trans ?_)
  change (match (s.imageAt img).imageFault img with
    | some r => (s.imageAt img).rejectImage r.1 r.2
    | none => (s.imageAt img).acceptImage img) = _
  rw [hf]

/-- A rejection as it is recorded. -/
def State.noteReject (s : State) (reason idx : Nat) : State :=
  (s.record 0x0003 0x52 [(0, 1, s.boot.slot), (1, 1, reason), (2, 2, idx)]).setRf Reg.bootStatus bootStatus_REASON reason

/-- A change of the Trailbook and of registers alone. -/
def TbRegs (s t : State) : Prop := { t with tb := s.tb, regs := s.regs } = s

theorem TbRegs.setRf (h : TbRegs s t) (a : Nat) (f : Fld) (v : Nat) : TbRegs s (t.setRf a f v) :=
  (congrArg (fun x : State => { x with tb := s.tb, regs := s.regs }) (t.setRf_only a f v) :).trans h

theorem TbRegs.boot (h : TbRegs s t) : t.boot = s.boot := (congrArg State.boot h :)
theorem TbRegs.mem (h : TbRegs s t) : t.mem = s.mem := (congrArg State.mem h :)
theorem TbRegs.clock (h : TbRegs s t) : t.clock = s.clock := (congrArg State.clock h :)
theorem TbRegs.ictNs (h : TbRegs s t) : t.ictNs = s.ictNs := by rw [State.ictNs, State.ictNs, h.clock]

theorem tbRegs_noteReject (s : State) (reason idx : Nat) : TbRegs s (s.noteReject reason idx) :=
  TbRegs.setRf (regsTb_record s 0x0003 0x52 _) _ _ _

theorem rf_reason_noteReject (s : State) (reason idx : Nat) :
    (s.noteReject reason idx).rf Reg.bootStatus bootStatus_REASON = reason % 2 ^ 4 := State.rf_setRf_same _ _ _ _

/-- The reasons of both slots, as the record of a failed boot gives them. -/
def reasonItems (rs : List (Nat × Nat)) : List (Nat × Nat × Nat) :=
  [(0, 1, ((rs.find? fun r => r.1 = 0).map Prod.snd).getD 0), (1, 1, ((rs.find? fun r => r.1 = 1).map Prod.snd).getD 0)]

/-- Boot has failed. -/
def State.failBoot (s : State) (rs : List (Nat × Nat)) : State :=
  { s with boot := { s.boot with phase := .failed, reasons := rs, failedAt := s.ictNs } }

/-- Both slots have been rejected. -/
theorem rejectImage_second (h : s.boot.reasons.length = 1) (reason idx : Nat) : ∃ rs, s.rejectImage reason idx =
    (((s.noteReject reason idx).failBoot rs).setDevStatus devStatus_BOOT_FAILED 1).recordFatal 0x0004 0x52 (reasonItems rs) := by
  have hr : ¬((s.noteReject reason idx).boot.reasons ++ [(s.boot.slot, reason)]).length < 2 := by
    rw [(tbRegs_noteReject s reason idx).boot, List.length_append, h, List.length_singleton]
    decide
  refine ⟨(s.noteReject reason idx).boot.reasons ++ [(s.boot.slot, reason)], ?_⟩
  unfold State.rejectImage
  unfold State.noteReject at hr ⊢
  exact if_neg hr

/-- The other slot is to be tried. -/
def State.tryOther (s : State) (slot : Nat) (rs : List (Nat × Nat)) : State :=
  State.setRf { s with boot := { s.boot with slot := slot, reasons := rs } } Reg.bootStatus bootStatus_FALLBACK 1

theorem boot_tryOther (s : State) (slot : Nat) (rs : List (Nat × Nat)) :
    (s.tryOther slot rs).boot = { s.boot with slot := slot, reasons := rs } := State.setRf_boot _ _ _ _

theorem mem_tryOther (s : State) (slot : Nat) (rs : List (Nat × Nat)) : (s.tryOther slot rs).mem = s.mem :=
  State.setRf_mem _ _ _ _

theorem rf_fallback_tryOther (s : State) (slot : Nat) (rs : List (Nat × Nat)) :
    (s.tryOther slot rs).rf Reg.bootStatus bootStatus_FALLBACK = 1 := State.rf_setRf_same _ _ _ _

theorem rf_reason_tryOther (s : State) (slot : Nat) (rs : List (Nat × Nat)) :
    (s.tryOther slot rs).rf Reg.bootStatus bootStatus_REASON = s.rf Reg.bootStatus bootStatus_REASON :=
  State.rf_setRf_beside _ _ _ (by decide) (by decide) (by decide) (by decide) (by decide)

theorem rejectImage_first (h : s.boot.reasons = []) (reason idx : Nat) :
    s.rejectImage reason idx = (s.noteReject reason idx).tryOther (1 - s.boot.slot) [(s.boot.slot, reason)] := by
  have hr : (s.noteReject reason idx).boot.reasons = [] := by rw [(tbRegs_noteReject s reason idx).boot, h]
  unfold State.rejectImage
  unfold State.noteReject at hr ⊢
  dsimp only
  rw [hr]
  rfl

theorem imageCopyComplete_first {img : List Byte} (h : s.boot.phase = .copying) (hr : s.boot.reasons = []) :
    EndsSettled (.imageCopyComplete img false) s fun t => t.boot.phase = .copying ∧
      t.boot.slot = 1 - s.boot.slot ∧ t.boot.reasons = [(s.boot.slot, 6)] ∧ t.rf Reg.bootStatus bootStatus_REASON = 6 ∧
      t.rf Reg.bootStatus bootStatus_FALLBACK = 1 ∧ t.mem = s.mem := by
  have hk := tbRegs_noteReject s 6 0xFFFF
  refine ⟨_, congrArg done (imageCopied_unread img h), ?_⟩
  rw [rejectImage_first hr]
  beta_reduce
  rw [boot_tryOther, rf_reason_tryOther, rf_fallback_tryOther, rf_reason_noteReject, mem_tryOther, hk.boot,
    hk.mem]
  exact ⟨h, rfl, rfl, rfl, rfl, rfl⟩

theorem imageCopyComplete_second {img : List Byte} (h : s.boot.phase = .copying) (hr : s.boot.reasons.length = 1) :
    EndsSettled (.imageCopyComplete img false) s fun t => t.boot.phase = .failed ∧
      t.boot.failedAt = s.ictNs ∧ t.rf (Reg.devStatus 0) devStatus_BOOT_FAILED = 1 ∧
      t.rf (Reg.devStatus 1) devStatus_BOOT_FAILED = 1 := by
  refine ⟨_, congrArg done (imageCopied_unread img h), ?_⟩
  obtain ⟨rs, he⟩ := rejectImage_second hr 6 0xFFFF
  rw [he]
  have hw : ((s.noteReject 6 0xFFFF).failBoot rs).boot =
      { s.boot with phase := .failed, reasons := rs, failedAt := s.ictNs } := by
    rw [← (tbRegs_noteReject s 6 0xFFFF).boot, ← (tbRegs_noteReject s 6 0xFFFF).ictNs]
    rfl
  generalize (s.noteReject 6 0xFFFF).failBoot rs = w at hw ⊢
  obtain ⟨h0, h1⟩ := rf_setDevStatus (f := devStatus_BOOT_FAILED) (v := 1) (by decide) (by decide) (by decide) w
  have hb : (w.setDevStatus devStatus_BOOT_FAILED 1).boot = w.boot := (linksOnly_setDevStatus _ _ _).boot
  generalize w.setDevStatus devStatus_BOOT_FAILED 1 = u at h0 h1 hb ⊢
  have hk : TbRegs u (u.recordFatal 0x0004 0x52 (reasonItems rs)) := recordFlags_only u 0x0004 0x52 1 _
  have hbt := hk.boot.trans (hb.trans hw)
  refine ⟨congrArg Boot.phase hbt, congrArg Boot.failedAt hbt, ?_, ?_⟩
  · exact (State.rf_congr (by decide) (by decide) (rd_recordFlags u _ _ _ _ (by decide))).trans h0
  · exact (State.rf_congr (by decide) (by decide) (rd_recordFlags u _ _ _ _ (by decide))).trans h1

/-! ### An image that boots -/

/-- The threads and clusters as an image starts them. -/
def State.startThreads (s : State) : State :=
  (List.range 16).foldl (fun s k => s.setCluster k { released := true })
    { s with cores := [], threads := (List.range 2048).map fun n => (n, startThread (s.entryOf n) 0) }

theorem startAll_eq (s : State) (img : List Byte) : s.startAll img =
    s.startThreads.mapStws (fun k x => { x with t := { pc := imgNat img (0x18 + 4 * k) 4 }, icache := [] }) 4 := rfl

theorem foldl_setCluster_regs (g : Nat → Cluster) (l : List Nat) (s : State) :
    (l.foldl (fun s k => s.setCluster k (g k)) s).regs = s.regs := by
  induction l generalizing s with
  | nil => rfl
  | cons k l ih => exact ih _

theorem regs_startAll (s : State) (img : List Byte) : (s.startAll img).regs = s.regs := by
  have hs : StwKept s.startThreads (s.startThreads.mapStws
    (fun k x => { x with t := { pc := imgNat img (0x18 + 4 * k) 4 }, icache := [] }) 4) := mapStws_only _ _ _
  rw [startAll_eq, hs.regs]
  exact foldl_setCluster_regs _ _ _

theorem stw_startAll (s : State) (img : List Byte) {k : Nat} (hk : k < 4) :
    ((s.startAll img).stw k).t = { pc := imgNat img (0x18 + 4 * k) 4 } := by
  rw [startAll_eq, stw_mapStws, if_pos hk]

theorem acceptImage_ends (s : State) (img : List Byte) : ∃ (w : State) (items : List (Nat × Nat × Nat)),
    s.acceptImage img =
      { ((w.setDevStatus devStatus_BOOT_FAILED 0).record 0x0002 0x52 items).startAll img with
        boot := { (((w.setDevStatus devStatus_BOOT_FAILED 0).record 0x0002 0x52 items).startAll img).boot with
          phase := .running, force := none, rollback := imgNat img 0x0C 1, buildId := imgNat img 0x10 4,
          faultSteward := imgNat img 0x14 1 } } := ⟨_, _, rfl⟩

theorem imageCopyComplete_good {img : List Byte} (h : s.boot.phase = .copying) (hf : s.imageFault img = none) :
    EndsSettled (.imageCopyComplete img true) s fun t => t.boot.phase = .running ∧
      t.rf (Reg.devStatus 0) devStatus_BOOT_FAILED = 0 ∧ t.rf (Reg.devStatus 1) devStatus_BOOT_FAILED = 0 ∧
      t.boot.rollback = imgNat img 0x0C 1 ∧ t.boot.buildId = imgNat img 0x10 4 ∧
      (∀ k, k < 4 → (t.stw k).t.pc = imgNat img (0x18 + 4 * k) 4 ∧ (t.stw k).t.run = .ready) := by
  refine ⟨_, congrArg done (imageCopied_good h hf), ?_⟩
  obtain ⟨w, items, he⟩ := acceptImage_ends (s.imageAt img) img
  rw [he]
  obtain ⟨h0, h1⟩ := rf_setDevStatus (f := devStatus_BOOT_FAILED) (v := 0) (by decide) (by decide) (by decide) w
  generalize w.setDevStatus devStatus_BOOT_FAILED 0 = u at h0 h1 ⊢
  have hd : ∀ a, a ≠ Reg.tbLost → ((u.record 0x0002 0x52 items).startAll img).rd a = u.rd a := fun a ha =>
    (State.rd_congr (regs_startAll _ img) a).trans (rd_record u _ _ _ ha)
  have hs := fun k (hk : k < 4) => stw_startAll (u.record 0x0002 0x52 items) img hk
  generalize (u.record 0x0002 0x52 items).startAll img = x at hd hs ⊢
  refine ⟨rfl, ?_, ?_, rfl, rfl, fun k hk => ?_⟩
  · exact (State.rf_congr (t := x) (by decide) (by decide) (hd _ (by decide))).trans h0
  · exact (State.rf_congr (t := x) (by decide) (by decide) (hd _ (by decide))).trans h1
  · have ht : (x.stw k).t = _ := hs k hk
    exact ⟨congrArg Thread.pc ht, congrArg Thread.run ht⟩

end

end Sys2Proof.Machine
end

section
/-! The fuse operations, the restart, and the statement on boot and fuses (R426, R428 to R430). -/

namespace Sys2Proof.Machine

open Sys2Proof.Safety

section
variable {s t u : State} {k a v : Nat} {f : State → State}

/-! ### Writes of the stewards' secure registers (R19) -/

theorem canWrite_steward (s : State) (k a : Nat) :
    s.canWrite (.steward k) a = (decide (s.boot.phase ≠ .off) && s.threadReady (2048 + k)) := rfl

theorem writeBy_steward_idle (h : s.threadReady (2048 + k) = false) : s.writeBy (.steward k) a 4 v f = s :=
  State.writeBy_not_canWrite v f (by rw [canWrite_steward, h, Bool.and_false])

theorem thr_secureDenied (s : State) (who : Initiator) (a n : Nat) : (s.secureDenied who a).thr n = s.thr n := by
  have h := regsTb_record s 0x0040 (a / 0x1000000) [(0, 2, who.code), (4, 4, a)]
  exact State.thr_congr (congrArg State.threads h :) (congrArg State.stewards h :) n

/-- A steward other than St0 and St1 is refused, with the record and the control-access exception. -/
theorem writeBy_steward_refused (hk : 2 ≤ k) (hr : s.threadReady (2048 + k) = true) (hp : s.boot.phase ≠ .off)
    (hi : islandAssigned (a / 0x1000000) = true) (ha : a % 4 = 0) (hs : 0x800000 ≤ a % 0x1000000) :
    s.writeBy (.steward k) a 4 v f =
      (s.secureDenied (.steward k) a).takeException (2048 + k) excCtlAccess (s.stw k).t.pc a := by
  have hc : s.canWrite (.steward k) a = true := by rw [canWrite_steward, hr, decide_eq_true hp]; rfl
  have hd : s.ctlDenied (.steward k) a 4 = false := by simp [State.ctlDenied, hi, ha]
  have hsec : s.secureOk (.steward k) = false := by
    simp only [State.secureOk, Initiator.secure, decide_eq_false (show ¬k < 2 by omega)]
    rfl
  have hpc : ((s.secureDenied (.steward k) a).thr (2048 + k)).pc = (s.stw k).t.pc := by
    rw [thr_secureDenied, ← State.stw_t s (by omega), Nat.add_sub_cancel_left]
  rw [State.writeBy_secure v f hc hd ⟨hs, hsec⟩, ← hpc]
  rfl

/-! ### The beginning of a fuse operation (R430) -/

theorem fuseCmdWrite_busy (op row : Nat) (h : s.rf Reg.fuseResult fuseResult_BUSY = 1) : s.fuseCmdWrite op row = s := if_pos (.inl h)

/-- A fuse operation has begun. -/
def FuseBegun (s t : State) (o : FuseOp) : Prop :=
  t.fuseOp = some o ∧ t.rf Reg.fuseResult fuseResult_BUSY = 1 ∧ { t with fuseOp := s.fuseOp, regs := s.regs } = s

theorem fuseBegun_setRf (s : State) (o : FuseOp) :
    FuseBegun s (State.setRf { s with fuseOp := some o } Reg.fuseResult fuseResult_BUSY 1) o :=
  ⟨State.setRf_fuseOp _ _ _ _, State.rf_setRf_same _ _ _ _,
    (congrArg (fun x : State => { x with fuseOp := s.fuseOp })
      (State.setRf_only { s with fuseOp := some o } Reg.fuseResult fuseResult_BUSY 1) :)⟩

theorem fuseRequest_begins {op : Nat} (hop : op ≠ 0) (row : Nat) (ho : OpenTo s (.steward k) Reg.fuseCmd 4)
    (hb : s.rf Reg.fuseResult fuseResult_BUSY = 0) :
    FuseBegun s (s.fuseRequest k op row) ⟨op, if op = 1 then row else 0, (s.rd Reg.fuseData).toNat, s.fuseCode op row⟩ := by
  rw [State.fuseRequest, State.writeBy_openTo _ _ ho, fuseCmdWrite_begins hop row hb]
  exact fuseBegun_setRf s _

/-! ### The restart (R426) -/

theorem restart_ends (s : State) : s.restart.boot.phase = .monitors ∧ s.restart.boot.reboot = true ∧ s.restart.threads = [] := by
  obtain ⟨r, hr, hp, hb, ht⟩ : ∃ r : State, s.restart = (((r.setRf Reg.pwrStatus pwrStatus_CUR 0).setRf Reg.pwrStatus
      pwrStatus_BUSY 0).setRf Reg.pwrStatus pwrStatus_PEND_VALID 0).setDevStatus devStatus_READY 0 ∧
      r.boot.phase = .monitors ∧ r.boot.reboot = true ∧ r.threads = [] := ⟨_, rfl, rfl, rfl, rfl⟩
  have hk := linksOnly_setDevStatus (((r.setRf Reg.pwrStatus pwrStatus_CUR 0).setRf Reg.pwrStatus
      pwrStatus_BUSY 0).setRf Reg.pwrStatus pwrStatus_PEND_VALID 0) devStatus_READY 0
  rw [hr, hk.boot, hk.threads, State.setRf_boot, State.setRf_boot, State.setRf_boot, State.setRf_threads, State.setRf_threads,
    State.setRf_threads]
  exact ⟨hp, hb, ht⟩

theorem bootCtlWrite_reboot {o : Nat} (ho : o < 3) : s.bootCtlWrite (o + 4) =
    if s.rf Reg.pwrStatus pwrStatus_BUSY = 0 then (s.setRf Reg.bootCtl bootCtl_SLOT_OVERRIDE o).restart
    else s.setRf Reg.bootCtl bootCtl_SLOT_OVERRIDE o := by
  have hm : (o + 4) % 4 = o := by omega
  have hbit : bit (o + 4) 2 = true := by
    obtain rfl | rfl | rfl : o = 0 ∨ o = 1 ∨ o = 2 := by omega
    · rfl
    · rfl
    · rfl
  have hbusy : (s.setRf Reg.bootCtl bootCtl_SLOT_OVERRIDE o).rf Reg.pwrStatus pwrStatus_BUSY = s.rf Reg.pwrStatus pwrStatus_BUSY :=
    State.rf_congr (by decide) (by decide) (State.rd_setRf_word _ _ (by decide) (by decide) (by decide))
  unfold State.bootCtlWrite
  dsimp only
  rw [hm, if_neg (show ¬o = 3 by omega), hbit, hbusy]
  exact if_congr (by simp) rfl rfl

/-! ### The end of a fuse operation (R430) -/

/-- What the end of an operation leaves in the registers. -/
def State.fuseDone (s : State) (code : Nat) : State :=
  ((s.setRf Reg.fuseResult fuseResult_BUSY 0).setRf Reg.fuseResult fuseResult_CODE code).setRf Reg.bootStatus bootStatus_COUNTER
    (((s.setRf Reg.fuseResult fuseResult_BUSY 0).setRf Reg.fuseResult fuseResult_CODE code).rollbackCounter)

theorem fuseDone_only (s : State) (code : Nat) : { s.fuseDone code with regs := s.regs } = s :=
  State.onlyRegs_trans (State.onlyRegs_trans (State.setRf_only _ _ _ _) (State.setRf_only _ _ _ _)) (State.setRf_only _ _ _ _)

theorem rf_fuseDone (s : State) {code : Nat} (hc : code < 4) : (s.fuseDone code).rf Reg.fuseResult fuseResult_BUSY = 0 ∧
    (s.fuseDone code).rf Reg.fuseResult fuseResult_CODE = code := by
  have hd : ∀ t : State, ∀ v, (t.setRf Reg.bootStatus bootStatus_COUNTER v).rd Reg.fuseResult = t.rd Reg.fuseResult := fun t v =>
    State.rd_setRf_word _ _ (by decide) (by decide) (by decide)
  unfold State.fuseDone
  refine ⟨?_, ?_⟩
  · rw [State.rf_congr (by decide) (by decide) (hd _ _), State.rf_setRf_beside _ _ _ (by decide) (by decide) (by decide) (by decide)
      (by decide), State.rf_setRf_same]
    rfl
  · rw [State.rf_congr (by decide) (by decide) (hd _ _), State.rf_setRf_same]
    exact Nat.mod_eq_of_lt hc

theorem commitDone_other {op : Nat} (h : op ≠ 2) (code : Nat) : s.commitDone op code = s := by
  unfold State.commitDone
  rw [if_neg h]

/-- The fuses after PROGRAM_ROW: the row takes the bits of an operation that ends DONE. -/
def State.programmed (s : State) (good : Bool) (r d : Nat) : State :=
  if good then ({ s with fuseOp := none }).orFuse r d else { s with fuseOp := none }

/-- The code that PROGRAM_ROW ends with. -/
def programCode (code : Nat) (ok : Bool) : Nat := if code = 0 ∧ ok = false then 3 else code

theorem fuseEnd_program {r d code : Nat} (ok : Bool) (h : s.fuseOp = some ⟨1, r, d, code⟩) : ∃ items,
    s.fuseEnd ok = ((s.programmed (decide (code = 0) && ok) r d).fuseDone (programCode code ok)).record 0x0005 0 items := by
  unfold State.fuseEnd
  rw [h]
  dsimp only
  rw [if_neg (show ¬(1 : Nat) = 3 by decide), if_neg (show ¬(1 : Nat) = 3 by decide), commitDone_other (by decide)]
  by_cases hc : code = 0
  · subst hc
    cases ok with
    | true => exact ⟨_, rfl⟩
    | false => exact ⟨_, rfl⟩
  · have hg : (decide (code = 0) && ok) = false := by rw [decide_eq_false hc, Bool.false_and]
    have hp : programCode code ok = code := if_neg fun h => hc h.1
    rw [hg, hp, if_pos hc, if_neg fun h => hc h.1]
    exact ⟨_, rfl⟩

theorem programmed_only (s : State) (good : Bool) (r d : Nat) :
    { s.programmed good r d with fuseOp := s.fuseOp, fuses := s.fuses } = s ∧ (s.programmed good r d).fuseOp = none := by
  cases good with
  | true => exact ⟨rfl, rfl⟩
  | false => exact ⟨rfl, rfl⟩

theorem fuses_programmed (s : State) (good : Bool) (r d x : Nat) : Tab.get 0 (s.programmed good r d).fuses x =
    if good = true ∧ x = r then Tab.get 0 s.fuses x ||| BitVec.ofNat 32 d else Tab.get 0 s.fuses x := by
  cases good with
  | false => rfl
  | true =>
    refine (Tab.get_set _ _ _ _ _).trans ?_
    by_cases hx : x = r
    · subst hx
      rw [if_pos rfl, if_pos ⟨rfl, rfl⟩]
    · rw [if_neg hx, if_neg fun h => hx h.2]

theorem fuseKept_trans {w : State} (hw : { w with fuseOp := s.fuseOp, fuses := s.fuses } = s)
    (hu : { u with regs := w.regs } = w) (ht : { t with tb := u.tb, regs := u.regs } = u) :
    { t with fuseOp := s.fuseOp, fuses := s.fuses, regs := s.regs, tb := s.tb } = s :=
  (congrArg (fun x : State => { x with fuseOp := s.fuseOp, fuses := s.fuses, regs := s.regs, tb := s.tb }) ht :).trans
    ((congrArg (fun x : State => { x with fuseOp := s.fuseOp, fuses := s.fuses, regs := s.regs, tb := s.tb }) hu :).trans
      (congrArg (fun x : State => { x with regs := s.regs, tb := s.tb }) hw :))

theorem TbRegs.fuses (h : TbRegs s t) : t.fuses = s.fuses := (congrArg State.fuses h :)
theorem TbRegs.fuseOp (h : TbRegs s t) : t.fuseOp = s.fuseOp := (congrArg State.fuseOp h :)
theorem fuses_of_onlyRegs (h : { t with regs := s.regs } = s) : t.fuses = s.fuses := (congrArg State.fuses h :)
theorem fuseOp_of_onlyRegs (h : { t with regs := s.regs } = s) : t.fuseOp = s.fuseOp := (congrArg State.fuseOp h :)

theorem programCode_lt {code : Nat} (ok : Bool) (hc : code < 4) : programCode code ok < 4 := by
  unfold programCode
  split <;> omega

theorem fuseEnd_program_ends {r d code : Nat} (ok : Bool) (h : s.fuseOp = some ⟨1, r, d, code⟩) (hc : code < 4) :
    (s.fuseEnd ok).fuseOp = none ∧ (s.fuseEnd ok).rf Reg.fuseResult fuseResult_BUSY = 0 ∧
      (s.fuseEnd ok).rf Reg.fuseResult fuseResult_CODE = programCode code ok ∧
      (∀ x, Tab.get 0 (s.fuseEnd ok).fuses x = if (code = 0 ∧ ok = true) ∧ x = r then Tab.get 0 s.fuses x ||| BitVec.ofNat 32 d
        else Tab.get 0 s.fuses x) ∧
      { s.fuseEnd ok with fuseOp := s.fuseOp, fuses := s.fuses, regs := s.regs, tb := s.tb } = s := by
  obtain ⟨items, he⟩ := fuseEnd_program ok h
  obtain ⟨hw, hop⟩ := programmed_only s (decide (code = 0) && ok) r d
  have hf := fuses_programmed s (decide (code = 0) && ok) r d
  rw [he]
  generalize s.programmed (decide (code = 0) && ok) r d = w at hw hop hf ⊢
  have hu := fuseDone_only w (programCode code ok)
  obtain ⟨hbusy, hcode⟩ := rf_fuseDone w (programCode_lt ok hc)
  generalize w.fuseDone (programCode code ok) = u at hu hbusy hcode ⊢
  have ht : TbRegs u (u.record 0x0005 0 items) := regsTb_record u 0x0005 0 items
  have hr : (u.record 0x0005 0 items).rd Reg.fuseResult = u.rd Reg.fuseResult := rd_record u _ _ _ (by decide)
  refine ⟨ht.fuseOp.trans ((fuseOp_of_onlyRegs hu).trans hop), (State.rf_congr (by decide) (by decide) hr).trans hbusy,
    (State.rf_congr (by decide) (by decide) hr).trans hcode, fun x => ?_, fuseKept_trans hw hu ht⟩
  rw [ht.fuses, fuses_of_onlyRegs hu, hf]
  exact if_congr (by simp) rfl rfl

theorem fuseEnd_idle (ok : Bool) (h : s.fuseOp = none) : s.fuseEnd ok = s := by
  unfold State.fuseEnd
  rw [h]

/-- No operation is in progress. -/
def State.noFuseOp (s : State) : State := { s with fuseOp := none }

theorem noFuseOp_only (s : State) : { s.noFuseOp with fuseOp := s.fuseOp } = s := rfl

theorem fuseOpRegs_trans (hu : { u with fuseOp := s.fuseOp } = s) (ht : { t with regs := u.regs } = u) :
    { t with fuseOp := s.fuseOp, regs := s.regs } = s :=
  (congrArg (fun x : State => { x with fuseOp := s.fuseOp, regs := s.regs }) ht :).trans
    (congrArg (fun x : State => { x with regs := s.regs }) hu :)

theorem fuseEnd_pairKey {d : Nat} (ok : Bool) (h : s.fuseOp = some ⟨3, 0, d, 2⟩) :
    s.fuseEnd ok = s.noFuseOp.fuseDone 2 := by
  unfold State.fuseEnd
  rw [h]
  rfl

end

/-! ### The rows -/

theorem fuseCode_programRow (s : State) (row : Nat) : s.fuseCode 1 row = if 2 ≤ row ∧ row ≤ 5 then 2
    else if (s.rd Reg.fuseData).toNat &&& s.fuseLocked row ≠ 0 then 1 else 0 := by
  unfold State.fuseCode
  dsimp only
  rw [if_pos (rfl : 1 = 1)]

theorem fuseCode_rollbackSet (s : State) (row : Nat) : s.fuseCode 2 row =
    if s.boot.rollback < (s.rd Reg.fuseData).toNat % 256 ∨ (s.rd Reg.fuseData).toNat % 256 ≤ s.rollbackCounter ∨
      128 < (s.rd Reg.fuseData).toNat % 256 then 2 else 0 := by
  unfold State.fuseCode
  dsimp only
  rw [if_neg (show ¬2 = 1 by decide), if_pos (rfl : 2 = 2)]

theorem fuseCode_loadPairKey (s : State) (row : Nat) : s.fuseCode 3 row = if s.pairSecret = 0 then 2 else 0 := by
  unfold State.fuseCode
  dsimp only
  rw [if_neg (show ¬3 = 1 by decide), if_neg (show ¬3 = 2 by decide)]

/-- Each row is a write of four bytes of the Lantern's secure half by its steward. -/
theorem fuseRows_write (st : Fin 4) (row : Fin 256) (s : State) :
    ∀ p ∈ [(Instr.programRow st row, Reg.fuseCmd), (.rollbackSet st, Reg.fuseCmd), (.loadPairKey st, Reg.fuseCmd),
      (.reboot st, Reg.bootCtl)], ∃ v f, exec p.1 s = .next (s.writeBy (.steward st.val) p.2 4 v f) ∧
        islandAssigned (p.2 / 0x1000000) = true ∧ p.2 % 4 = 0 ∧ 0x800000 ≤ p.2 % 0x1000000 := by
  simp only [List.forall_mem_cons]
  exact ⟨⟨_, _, rfl, by decide, by decide, by decide⟩, ⟨_, _, rfl, by decide, by decide, by decide⟩,
    ⟨_, _, rfl, by decide, by decide, by decide⟩, ⟨_, _, rfl, by decide, by decide, by decide⟩, by simp⟩

section
variable {s : State} {st : Fin 4}

theorem fuseRequests_busy (ho : OpenTo s (.steward st.val) Reg.fuseCmd 4) (hb : s.rf Reg.fuseResult fuseResult_BUSY = 1)
    (row : Fin 256) : ∀ c ∈ [Instr.programRow st row, .rollbackSet st, .loadPairKey st], exec c s = .next s := by
  have h : ∀ op r, s.fuseRequest st.val op r = s := fun op r => by
    rw [State.fuseRequest, State.writeBy_openTo _ _ ho, fuseCmdWrite_busy op r hb]
  have hn : ∀ op r, (.next (s.fuseRequest st.val op r) : Out) = .next s := fun op r => by rw [h]
  simp only [List.forall_mem_cons]
  exact ⟨hn 1 row.val, hn 2 0, hn 3 0, by simp⟩

theorem reboot_ends (ho : OpenTo s (.steward st.val) Reg.bootCtl 4) (hv : s.rf Reg.bootCtl bootCtl_SLOT_OVERRIDE < 3) :
    (s.rf Reg.pwrStatus pwrStatus_BUSY = 1 → Ends (.reboot st) s fun t => { t with regs := s.regs } = s) ∧
      (s.rf Reg.pwrStatus pwrStatus_BUSY = 0 → Ends (.reboot st) s fun t => ∃ u : State, { u with regs := s.regs } = s ∧
        t = u.restart ∧ t.boot.phase = .monitors ∧ t.boot.reboot = true ∧ t.threads = []) := by
  have he : exec (.reboot st) s = .next (s.bootCtlWrite (s.rf Reg.bootCtl bootCtl_SLOT_OVERRIDE + 4)) :=
    congrArg (fun t => (.next t : Out)) (State.writeBy_openTo _ _ ho)
  rw [bootCtlWrite_reboot hv] at he
  refine ⟨fun hb => ⟨_, he, ?_⟩, fun hb => ⟨_, he, _, State.setRf_only _ _ _ _, if_pos hb, ?_⟩⟩
  · rw [if_neg (by rw [hb]; decide)]
    exact State.setRf_only _ _ _ _
  · rw [if_pos hb]
    exact restart_ends _

end

/-! ### The statement -/

/-- Settles O57 (R107, R421, R424 to R426, R428 to R430, R446), one lemma per command. Rests on log entries 11 (memory is empty
after PORST_N), 19 (EVEC of the boot ROM) and 159 (a successful boot clears BOOT_FAILED). -/
theorem bootAndFuses : Obligations.BootAndFuses := by
  refine ⟨porstAssert_ends, fun mode addr s => ⟨fun h => ?_, fun h => ?_⟩, envOutOfSpec_ends, fun pref s =>
    ⟨bootMonitorsReady_past pref, bootMonitorsReady_ends pref, bootRetry_waits pref, bootRetry_ends pref⟩, fun img ok s => ?_,
    fun st row s => ?_, fun ok s => ?_⟩
  · exact if_pos h
  · exact if_neg (show ¬s.pins.porstN = true by rw [h]; decide)
  · refine ⟨fun h => ⟨s, congrArg done (imageCopied_past img ok h), rfl⟩, fun h hok hr => ?_, fun h hok hr => ?_,
      fun r h hok hf => ?_, fun h hok hf => ?_⟩
    · subst hok
      exact imageCopyComplete_first h hr
    · subst hok
      exact imageCopyComplete_second h hr
    · subst hok
      exact ⟨_, congrArg done (imageCopied_faulty h hf), rfl⟩
    · subst hok
      exact imageCopyComplete_good h hf
  · refine ⟨fun h p hp => ?_, fun hk hr hoff p hp => ?_, fun ho => ⟨fun hb c hc => ?_, fun hb => ?_⟩, fun ho hv => ?_⟩
    · obtain ⟨v, f, he, -⟩ := fuseRows_write st row s p hp
      rw [he, writeBy_steward_idle h]
    · obtain ⟨v, f, he, hi, ha, hs⟩ := fuseRows_write st row s p hp
      rw [he, writeBy_steward_refused hk hr hoff hi ha hs]
    · exact fuseRequests_busy ho hb row c hc
    · have h1 := fuseRequest_begins (op := 1) (by decide) row.val ho hb
      have h2 := fuseRequest_begins (op := 2) (by decide) 0 ho hb
      have h3 := fuseRequest_begins (op := 3) (by decide) 0 ho hb
      rw [fuseCode_programRow, if_pos rfl] at h1
      rw [fuseCode_rollbackSet, if_neg (by decide)] at h2
      rw [fuseCode_loadPairKey, if_neg (by decide)] at h3
      exact ⟨⟨_, rfl, h1⟩, ⟨_, rfl, h2⟩, ⟨_, rfl, h3⟩⟩
    · exact reboot_ends ho hv
  · refine ⟨fun h => ?_, fun r d code h hc => ⟨_, rfl, fuseEnd_program_ends ok h hc⟩, fun d h => ⟨_, rfl, ?_⟩⟩
    · exact congrArg (fun t => (.next t : Out)) (fuseEnd_idle ok h)
    · rw [fuseEnd_pairKey ok h]
      obtain ⟨hbusy, hcode⟩ := rf_fuseDone s.noFuseOp (code := 2) (by decide)
      exact ⟨hcode, hbusy, fuseOpRegs_trans (noFuseOp_only s) (fuseDone_only s.noFuseOp 2)⟩

end Sys2Proof.Machine
end

section
/-! The counters of ports and their HALF bits (R140, R141): what counting changes, what it leaves alone, and that what has been
shown to the outside only grows by it. -/

namespace Sys2Proof.Machine

open Sys2Proof.Safety

/-! ### What a cause shows (R306 to R309) -/

section
variable (s : State)

theorem out_hostCount (h c : Nat) : (s.hostCount h c).out = s.out := State.wrN_out ..

theorem out_emit (o : Output) : s.out <+: (s.emit o).out := List.prefix_append _ _

theorem out_sendEntry (h fn : Nat) (table : Bool) (e : IrqEntry) : s.out <+: (s.sendEntry h fn table e).1.out := by
  unfold State.sendEntry
  split
  · split
    · exact List.prefix_rfl
    · rw [out_hostCount]
  · split
    · exact List.prefix_rfl
    · rw [out_hostCount]
      exact out_emit s _

theorem out_updateInta (h : Nat) : s.out <+: (s.updateInta h).out := by
  unfold State.updateInta
  dsimp only
  split
  · exact List.prefix_rfl
  · split
    · rw [out_hostCount]
      exact List.prefix_append _ _
    · exact List.prefix_append _ _

theorem out_setCause (h i : Nat) : s.out <+: (s.setCause h i).out := by
  have hset : (s.setRf (Reg.intCause h) ⟨i, 1⟩ 1).out = s.out := State.setRf_out ..
  unfold State.setCause
  refine List.IsPrefix.trans ?_ (out_updateInta _ h)
  split
  · exact hset ▸ out_sendEntry (s.setRf (Reg.intCause h) ⟨i, 1⟩ 1) h 0 true _
  · rw [hset]

end

/-! ### What counting leaves alone -/

section
variable {s t u : State} {p k : Nat}

/-- The address is that of a counter of a port or of its HALF bits (R142), if of a port's register at all. -/
def InCounters (b : Nat) : Prop := 0x2000 ≤ b % 0x1000000 ∧ b % 0x1000000 < 0x2820

/-- The registers below the host islands, the counters of ports apart, are as they were. -/
def SetupKept (s t : State) : Prop := ∀ b, b ≤ Reg.devStatus 0 → ¬InCounters b → t.rd b = s.rd b

/-- What counting at a port may change: counters and HALF bits, what has been shown to the outside, the interrupt state of the
links, and the registers of their islands. -/
structure Counting (s t : State) : Prop where
  links : LinksOnly s t
  out : s.out <+: t.out
  setup : SetupKept s t

theorem SetupKept.trans (h : SetupKept s t) (h' : SetupKept t u) : SetupKept s u :=
  fun b hb hc => (h' b hb hc).trans (h b hb hc)

theorem SetupKept.of_regs (h : t.regs = s.regs) : SetupKept s t := fun b _ _ => State.rd_congr h b

theorem Counting.refl (s : State) : Counting s s := ⟨rfl, List.prefix_rfl, fun _ _ _ => rfl⟩

theorem Counting.trans (h : Counting s t) (h' : Counting t u) : Counting s u :=
  ⟨h.links.trans h'.links, h.out.trans h'.out, h.setup.trans h'.setup⟩

/-- Such steps, one after the other. -/
theorem counting_foldl {α : Type} (g : State → α → State) (l : List α) (hg : ∀ s x, x ∈ l → Counting s (g s x)) (s : State) :
    Counting s (l.foldl g s) := by
  induction l generalizing s with
  | nil => exact Counting.refl s
  | cons x l ih => exact (hg s x List.mem_cons_self).trans (ih (fun s y hy => hg s y (List.mem_cons_of_mem x hy)) _)

theorem counting_emit (s : State) (o : Output) : Counting s (s.emit o) := ⟨rfl, out_emit s o, fun _ _ _ => rfl⟩

theorem devStatus_zero : Reg.devStatus 0 = 0x61000000 := by simp only [Reg.devStatus, ctlAddr]

theorem rd_setCauses (s : State) {i b : Nat} (hi : i < 32) (hb : b ≤ Reg.devStatus 0) : (s.setCauses i).rd b = s.rd b := by
  have h1 : Reg.devStatus 0 ≤ Reg.devStatus 1 := by decide
  exact ((causeKept_setCause _ 1 i hi).rd b (.inl (hb.trans h1))).trans ((causeKept_setCause s 0 i hi).rd b (.inl hb))

theorem counting_setCauses (s : State) {i : Nat} (hi : i < 32) : Counting s (s.setCauses i) :=
  ⟨linksOnly_setCauses s i hi, (out_setCause s 0 i).trans (out_setCause _ 1 i), fun _ hb _ => rd_setCauses s hi hb⟩

/-- A HALF bit that is set leaves the registers apart from its own word alone. -/
theorem rd_setHalf (s : State) {c b : Nat} (hc : c < 32) (hb : b ≤ Reg.devStatus 0) (hne : b ≠ Reg.portCntHalf p k) :
    (s.setHalf p k c).rd b = s.rd b := by
  rw [State.setHalf, rd_setCauses _ (by decide) hb]
  exact State.rd_setRf_word _ _ hc (by simp only [Fld.words]; omega) hne

theorem counting_setHalf (s : State) {c : Nat} (hk : k < 8) (hc : c < 32) : Counting s (s.setHalf p k c) where
  links := (LinksOnly.of_regs (s.setRf_only _ _ _)).trans
    ((counting_emit _ (.counterInt p)).trans (counting_setCauses _ (by decide))).links
  out := by
    rw [← State.setRf_out s (Reg.portCntHalf p k) ⟨c, 1⟩ 1]
    exact ((counting_emit _ (.counterInt p)).trans (counting_setCauses _ (by decide))).out
  setup b hb hq := rd_setHalf s hc hb fun e => hq (by
    rw [e, InCounters]
    simp only [Reg.portCntHalf, ctlAddr]
    omega)

theorem counting_count (s : State) {c : Nat} (hk : k < 8) (hc : c < 32) (n : Nat) : Counting s (s.count (Reg.portCnt p k c) n) where
  links := LinksOnly.of_regs (s.wrN_only _ _ _)
  out := by rw [State.count, State.wrN_out]
  setup b _ hq := s.rd_wrN_ne _ _ _ _ fun i hi e => hq (by
    rw [e, InCounters]
    simp only [Reg.portCnt, ctlAddr]
    omega)

/-- Counting is an addition to the counter, after which its HALF bit may be set. -/
theorem pCount_cases (s : State) (p k c n : Nat) : s.pCount p k c n = s.count (Reg.portCnt p k c) n ∨
    s.pCount p k c n = (s.count (Reg.portCnt p k c) n).setHalf p k c := ite_eq_or_eq ..

theorem counting_pCount (s : State) {c : Nat} (hk : k < 8) (hc : c < 32) (n : Nat) : Counting s (s.pCount p k c n) := by
  obtain h | h := pCount_cases s p k c n
  · exact h ▸ counting_count s hk hc n
  · exact h ▸ (counting_count s hk hc n).trans (counting_setHalf _ hk hc)

end

/-! ### The counters (R140) -/

section
variable {p k c : Nat} (hp : p < 32) (hk : k < 8) (hc : c < 32)
include hp hk hc

/-- The words of a counter lie below the host islands. -/
theorem portCnt_le {i : Nat} (hi : i < 2) : Reg.portCnt p k c + 4 * i ≤ Reg.devStatus 0 := by
  simp only [devStatus_zero, Reg.portCnt, ctlAddr]
  omega

theorem rdN_setHalf (s : State) {p' k' c' : Nat} (hk' : k' < 8) (hc' : c' < 32) :
    (s.setHalf p' k' c').rdN (Reg.portCnt p k c) 2 = s.rdN (Reg.portCnt p k c) 2 :=
  State.rdN_congr fun i hi => rd_setHalf s hc' (portCnt_le hp hk hc hi) (by
    simp only [Reg.portCnt, Reg.portCntHalf, ctlAddr]
    omega)

/-- A counter after it has counted. -/
theorem counted_pCount (s : State) (n : Nat) : Counted s (s.pCount p k c n) p k c n := by
  have h : (s.count (Reg.portCnt p k c) n).rdN (Reg.portCnt p k c) 2 = (s.rdN (Reg.portCnt p k c) 2 + n) % 2 ^ 40 := by
    rw [State.count, State.rdN_wrN_self]
    omega
  obtain e | e := pCount_cases s p k c n
  · rw [e]
    exact h
  · rw [e]
    exact (rdN_setHalf hp hk hc _ hk hc).trans h

/-- Another counter, of whatever sub-port, leaves it alone. -/
theorem rdN_pCount_ne (s : State) {p' k' c' : Nat} (hk' : k' < 8) (hc' : c' < 32) (hne : c ≠ c') (n : Nat) :
    (s.pCount p' k' c' n).rdN (Reg.portCnt p k c) 2 = s.rdN (Reg.portCnt p k c) 2 := by
  have h : (s.count (Reg.portCnt p' k' c') n).rdN (Reg.portCnt p k c) 2 = s.rdN (Reg.portCnt p k c) 2 :=
    State.rdN_congr fun i hi => s.rd_wrN_ne _ _ _ _ fun j hj => by
      simp only [Reg.portCnt, ctlAddr]
      omega
  obtain e | e := pCount_cases s p' k' c' n
  · rw [e, h]
  · rw [e, rdN_setHalf hp hk hc _ hk' hc', h]

/-- A counter after its sub-port has counted under the same number or another. -/
theorem rdN_pCount (s : State) {c' : Nat} (hc' : c' < 32) (n : Nat) : (s.pCount p k c' n).rdN (Reg.portCnt p k c) 2 =
    if c = c' then (s.rdN (Reg.portCnt p k c) 2 + n) % 2 ^ 40 else s.rdN (Reg.portCnt p k c) 2 := by
  split
  · next h =>
    subst h
    exact counted_pCount hp hk hc s n
  · next h => exact rdN_pCount_ne hp hk hc s hk hc' h n

end

theorem rdN_of_regs {s t : State} (h : t.regs = s.regs) (a n : Nat) : t.rdN a n = s.rdN a n :=
  State.rdN_congr fun _ _ => State.rd_congr h _

/-- A counter that later steps leave alone has counted all the same. -/
theorem counted_of_kept {s t u : State} {p k c n : Nat} (h : Counted s t p k c n)
    (hu : u.rdN (Reg.portCnt p k c) 2 = t.rdN (Reg.portCnt p k c) 2) : Counted s u p k c n := hu.trans h

/-- A counter that earlier steps left alone. -/
theorem counted_after {s t u : State} {p k c n : Nat} (ht : t.rdN (Reg.portCnt p k c) 2 = s.rdN (Reg.portCnt p k c) 2)
    (h : Counted t u p k c n) : Counted s u p k c n := by
  rw [Counted, ← ht]
  exact h

end Sys2Proof.Machine
end

section
/-! What the work of a port leaves alone: the registers that set it up, and what pauses, PFC frames and counts change (R135,
R140, R143, R144). -/

namespace Sys2Proof.Machine

open Sys2Proof.Safety

/-! ### The registers that set a port up -/

section
variable {s t u : State} {p k : Nat} (h : SetupKept s t)
include h

theorem SetupKept.rf {a : Nat} {f : Fld} (hf : ∀ i, i < f.words → a + 4 * (f.lo / 32) + 4 * i ≤ Reg.devStatus 0 ∧
    ¬InCounters (a + 4 * (f.lo / 32) + 4 * i)) : t.rf a f = s.rf a f := by
  rw [State.rf, State.rf, State.rdN_congr fun i hi => h _ (hf i hi).1 (hf i hi).2]

/-- A field of a port's register below its counters. -/
theorem SetupKept.rf_port (hp : p < 32) {o : Nat} {f : Fld} (ho : o + 4 * (f.lo / 32) + 4 * f.words ≤ 0x2000) :
    t.rf (ctlAddr (1 + p) o) f = s.rf (ctlAddr (1 + p) o) f :=
  h.rf fun i hi => by
    simp only [devStatus_zero, InCounters, ctlAddr]
    omega

theorem SetupKept.subCfg (hp : p < 32) (hk : k < 8) {f : Fld} (hf : 4 * (f.lo / 32) + 4 * f.words ≤ 8) :
    t.rf (Reg.portSubCfg p k) f = s.rf (Reg.portSubCfg p k) f := h.rf_port hp (by omega)

theorem SetupKept.subOn (hp : p < 32) : t.subOn p k = s.subOn p k := by
  have hsplit : t.rf (Reg.portMode p) portMode_SPLIT = s.rf (Reg.portMode p) portMode_SPLIT := h.rf_port hp (by decide)
  have hen : t.rf (Reg.portMode p) portMode_SUB_EN = s.rf (Reg.portMode p) portMode_SUB_EN := h.rf_port hp (by decide)
  rw [State.subOn, State.subOn, State.subPorts, State.subPorts, hsplit, hen]

theorem SetupKept.linked (hp : p < 32) : t.linked p k = s.linked p k := by
  have hlink : t.rf (Reg.portStatus p) portStatus_LINK = s.rf (Reg.portStatus p) portStatus_LINK := h.rf_port hp (by decide)
  rw [State.linked, State.linked, h.subOn hp, hlink]

theorem SetupKept.stalled (hp : p < 32) (hk : k < 8) (tc : Nat) : t.stalled p k tc = s.stalled p k tc := by
  have hw : portPfcStall_STALLED.lo / 32 = 0 ∧ portPfcStall_STALLED.words = 1 := by decide
  have hst : t.rf (Reg.portPfcStall p k) portPfcStall_STALLED = s.rf (Reg.portPfcStall p k) portPfcStall_STALLED :=
    h.rf_port hp (by omega)
  rw [State.stalled, State.stalled, hst]

theorem SetupKept.quanta (hp : p < 32) (n : Nat) : t.quanta p n = s.quanta p n := by
  have hsplit : t.rf (Reg.portMode p) portMode_SPLIT = s.rf (Reg.portMode p) portMode_SPLIT := h.rf_port hp (by decide)
  rw [State.quanta, State.quanta, State.subPorts, State.subPorts, hsplit]

theorem SetupKept.pstate : t.pstate = s.pstate :=
  State.rf_congr (by decide) (by decide) (h _ (by decide) (by unfold InCounters; decide))

theorem SetupKept.curGen : t.rf Reg.fmtGen fmtGen_CUR = s.rf Reg.fmtGen fmtGen_CUR :=
  State.rf_congr (by decide) (by decide) (h _ (by decide) (by unfold InCounters; decide))

end

theorem rf_of_regs {s t : State} (h : t.regs = s.regs) (a : Nat) (f : Fld) : t.rf a f = s.rf a f := by
  rw [State.rf, State.rf, rdN_of_regs h]

theorem subPresent_iff (s : State) (p k : Nat) : s.subPresent p k = true ↔ k < 2 ^ s.rf (Reg.portMode p) portMode_SPLIT :=
  decide_eq_true_iff

theorem accepts_congr {s t : State} (h : t.isl = s.isl) (i : Nat) : t.accepts i = s.accepts i := by
  rw [State.accepts, State.accepts, State.island, State.island, h]

theorem mac_congr {s t : State} (h : t.macs = s.macs) (p k : Nat) : t.mac p k = s.mac p k := by
  rw [State.mac, State.mac, h]

theorem pause_congr {s t : State} (h : t.pauses = s.pauses) (e : Nat) : t.pause e = s.pause e := by
  rw [State.pause, State.pause, h]

theorem LinksOnly.isl {s t : State} (h : LinksOnly s t) : t.isl = s.isl := (congrArg State.isl h :)
theorem LinksOnly.clock {s t : State} (h : LinksOnly s t) : t.clock = s.clock := (congrArg State.clock h :)
theorem LinksOnly.pauses {s t : State} (h : LinksOnly s t) : t.pauses = s.pauses := (congrArg State.pauses h :)
theorem LinksOnly.macs {s t : State} (h : LinksOnly s t) : t.macs = s.macs := (congrArg State.macs h :)
theorem LinksOnly.ptp {s t : State} (h : LinksOnly s t) : t.ptp = s.ptp := (congrArg State.ptp h :)
theorem LinksOnly.mem {s t : State} (h : LinksOnly s t) : t.mem = s.mem := (congrArg State.mem h :)
theorem LinksOnly.frames {s t : State} (h : LinksOnly s t) : t.frames = s.frames := (congrArg State.frames h :)
theorem LinksOnly.nextFrame {s t : State} (h : LinksOnly s t) : t.nextFrame = s.nextFrame := (congrArg State.nextFrame h :)
theorem LinksOnly.lanes {s t : State} (h : LinksOnly s t) : t.lanes = s.lanes := (congrArg State.lanes h :)

/-! ### MACs and pauses -/

theorem mac_setMac (s : State) (p k : Nat) (m : Mac) (p' k' : Nat) :
    (s.setMac p k m).mac p' k' = if 8 * p' + k' = 8 * p + k then m else s.mac p' k' := Tab.get_put _ _ _ _ _

@[simp] theorem mac_setMac_self (s : State) (p k : Nat) (m : Mac) : (s.setMac p k m).mac p k = m := by
  rw [mac_setMac, if_pos rfl]

theorem pause_setPause (s : State) (e : Nat) (x : PauseSt) (e' : Nat) :
    (s.setPause e x).pause e' = if e' = e then x else s.pause e' := Tab.get_put _ _ _ _ _

@[simp] theorem pause_setPause_self (s : State) (e : Nat) (x : PauseSt) : (s.setPause e x).pause e = x := by
  rw [pause_setPause, if_pos rfl]

/-- Nothing but the flow control state of traffic classes has changed. -/
def PausesOnly (s t : State) : Prop := { t with pauses := s.pauses } = s

section
variable {s t u : State} {p k : Nat}

theorem PausesOnly.refl (s : State) : PausesOnly s s := rfl

theorem PausesOnly.trans (h : PausesOnly s t) (h' : PausesOnly t u) : PausesOnly s u :=
  (congrArg (fun x : State => { x with pauses := s.pauses }) h' :).trans h

theorem PausesOnly.regs (h : PausesOnly s t) : t.regs = s.regs := (congrArg State.regs h :)
theorem PausesOnly.setup (h : PausesOnly s t) : SetupKept s t := .of_regs h.regs
theorem PausesOnly.macs (h : PausesOnly s t) : t.macs = s.macs := (congrArg State.macs h :)
theorem PausesOnly.clock (h : PausesOnly s t) : t.clock = s.clock := (congrArg State.clock h :)

theorem pausesOnly_foldl {α : Type} (g : State → α → State) (hg : ∀ s x, PausesOnly s (g s x)) (l : List α) (s : State) :
    PausesOnly s (l.foldl g s) := by
  induction l generalizing s with
  | nil => exact PausesOnly.refl s
  | cons x l ih => exact (hg s x).trans (ih _)

/-! ### The work of a port -/

/-- What a port's work on PFC and its counters may change: counters, of the port counters those numbered in `cs`, what has been
shown to the outside, the interrupt state of the links, pauses, and the PFC frames that wait at MACs. -/
structure PortWork (cs : List Nat) (s t : State) : Prop where
  rest : { t with regs := s.regs, hosts := s.hosts, out := s.out, pauses := s.pauses, macs := s.macs } = s
  out : s.out <+: t.out
  mac : ∀ p k, { t.mac p k with pfc := (s.mac p k).pfc } = s.mac p k
  counter : ∀ p k c, p < 32 → k < 8 → c < 32 → c ∉ cs → t.rdN (Reg.portCnt p k c) 2 = s.rdN (Reg.portCnt p k c) 2

variable {cs : List Nat}

theorem PortWork.refl (s : State) : PortWork cs s s := ⟨rfl, List.prefix_rfl, fun _ _ => rfl, fun _ _ _ _ _ _ _ => rfl⟩

theorem PortWork.trans (h : PortWork cs s t) (h' : PortWork cs t u) : PortWork cs s u where
  rest := (congrArg (fun x : State => { x with
    regs := s.regs, hosts := s.hosts, out := s.out, pauses := s.pauses, macs := s.macs }) h'.rest :).trans h.rest
  out := h.out.trans h'.out
  mac p k := (congrArg (fun m : Mac => { m with pfc := (s.mac p k).pfc }) (h'.mac p k) :).trans (h.mac p k)
  counter p k c hp hk hc hn := (h'.counter p k c hp hk hc hn).trans (h.counter p k c hp hk hc hn)

theorem PortWork.mono {cs' : List Nat} (h : PortWork cs s t) (hc : ∀ c, c ∈ cs → c ∈ cs') : PortWork cs' s t :=
  ⟨h.rest, h.out, h.mac, fun p k c hp hk hc' hn => h.counter p k c hp hk hc' fun hm => hn (hc c hm)⟩

theorem portWork_foldl {α : Type} (g : State → α → State) (l : List α) (hg : ∀ s x, x ∈ l → PortWork cs s (g s x)) (s : State) :
    PortWork cs s (l.foldl g s) := by
  induction l generalizing s with
  | nil => exact PortWork.refl s
  | cons x l ih => exact (hg s x List.mem_cons_self).trans (ih (fun s y hy => hg s y (List.mem_cons_of_mem x hy)) _)

/-- A change of registers and pauses that leaves the counters of ports alone. -/
theorem portWork_of_setup (hr : { t with regs := s.regs, pauses := s.pauses } = s)
    (hc : ∀ p k c, p < 32 → k < 8 → c < 32 → t.rdN (Reg.portCnt p k c) 2 = s.rdN (Reg.portCnt p k c) 2) : PortWork cs s t := by
  have hout : t.out = s.out := (congrArg State.out hr :)
  have hmacs : t.macs = s.macs := (congrArg State.macs hr :)
  refine ⟨(congrArg (fun x : State => { x with hosts := s.hosts, out := s.out, macs := s.macs }) hr :), ?_, fun p k => ?_,
    fun p k c hp hk hc' _ => hc p k c hp hk hc'⟩
  · rw [hout]
  · rw [mac_congr hmacs]

theorem PausesOnly.portWork (h : PausesOnly s t) : PortWork cs s t :=
  portWork_of_setup (congrArg (fun x : State => { x with regs := s.regs }) h :) fun _ _ _ _ _ _ => rdN_of_regs h.regs _ _

theorem portWork_pCount (s : State) {p k c : Nat} (hk : k < 8) (hc : c < 32) (hm : c ∈ cs) (n : Nat) :
    PortWork cs s (s.pCount p k c n) := by
  have hcount := counting_pCount (p := p) s hk hc n
  refine ⟨(congrArg (fun x : State => { x with pauses := s.pauses, macs := s.macs }) hcount.links :), hcount.out, fun p' k' => ?_,
    fun p' k' c' hp' hk' hc' hn => rdN_pCount_ne hp' hk' hc' s hk hc (fun e => hn (e ▸ hm)) n⟩
  rw [mac_congr hcount.links.macs]

/-- A change of the PFC frames that wait at a MAC. -/
theorem portWork_setMac (s : State) (p k : Nat) (l : List (Nat × Nat)) :
    PortWork cs s (s.setMac p k { s.mac p k with pfc := l }) := by
  refine ⟨rfl, List.prefix_rfl, fun p' k' => ?_, fun _ _ _ _ _ _ _ => rfl⟩
  rw [mac_setMac]
  split
  · next e => rw [State.mac, State.mac, e]
  · rfl

theorem framesKept_of_links (h : LinksOnly s t) : FramesKept s t := by
  refine ⟨h.frames, h.nextFrame, h.lanes, fun p k => ?_, h.mem, h.threads, (congrArg State.stewards h :)⟩
  rw [mac_congr h.macs]

theorem PortWork.framesKept (h : PortWork cs s t) : FramesKept s t :=
  ⟨(congrArg State.frames h.rest :), (congrArg State.nextFrame h.rest :), (congrArg State.lanes h.rest :), h.mac,
    (congrArg State.mem h.rest :), (congrArg State.threads h.rest :), (congrArg State.stewards h.rest :)⟩

theorem PortWork.ptp (h : PortWork cs s t) : t.ptp = s.ptp := (congrArg State.ptp h.rest :)

theorem framesKept_trans (h : FramesKept s t) (h' : FramesKept t u) : FramesKept s u := by
  obtain ⟨hf, hn, hl, hm, hb, ht, hs⟩ := h
  obtain ⟨hf', hn', hl', hm', hb', ht', hs'⟩ := h'
  exact ⟨hf'.trans hf, hn'.trans hn, hl'.trans hl,
    fun p k => (congrArg (fun m : Mac => { m with pfc := (s.mac p k).pfc }) (hm' p k) :).trans (hm p k),
    hb'.trans hb, ht'.trans ht, hs'.trans hs⟩

end

/-! ### Pauses of one traffic class (R143) -/

section
variable {s : State} {p k tc : Nat}

theorem pauseClass_pausesOnly (s : State) (p k tc n : Nat) : PausesOnly s (s.pauseClass p k tc n) := by
  unfold State.pauseClass
  dsimp only
  split_ifs <;> rfl

/-- The pause of another class stays. -/
theorem pause_pauseClass_ne (s : State) (n : Nat) {e : Nat} (he : e ≠ classKey p k tc) :
    (s.pauseClass p k tc n).pause e = s.pause e := by
  unfold State.pauseClass
  dsimp only
  split_ifs
  · rfl
  · rw [pause_setPause, if_neg he]
  · rw [pause_setPause, if_neg he]
  · rw [pause_setPause, if_neg he]

/-- A class that is not stalled is paused for the time, and zero resumes it. -/
theorem till_pauseClass (n : Nat) (h : s.stalled p k tc = false) : ((s.pauseClass p k tc n).pause (classKey p k tc)).till =
    if n = 0 then none else some (s.clock.ict + s.quanta p n) := by
  simp only [State.pauseClass, h, Bool.false_eq_true, if_false]
  split
  · rw [pause_setPause_self]
  · rw [pause_setPause_self]

theorem classKey_inj {tc' : Nat} (h : classKey p k tc' = classKey p k tc) : tc' = tc := by
  simpa [classKey] using h

/-- Steps for one class after the other, of which each changes the pause of its own class alone: a class is left as its own step
leaves it. -/
theorem pause_foldl {g : State → Nat → State} (hg : ∀ s j, PausesOnly s (g s j))
    (hne : ∀ s j e, e ≠ classKey p k j → (g s j).pause e = s.pause e) {l : List Nat} (hl : l.Nodup) (hm : tc ∈ l) (s : State) :
    ∃ u, PausesOnly s u ∧ u.pause (classKey p k tc) = s.pause (classKey p k tc) ∧
      (l.foldl g s).pause (classKey p k tc) = (g u tc).pause (classKey p k tc) := by
  have hkeep : ∀ (l : List Nat) s, tc ∉ l → (l.foldl g s).pause (classKey p k tc) = s.pause (classKey p k tc) := by
    intro l
    induction l with
    | nil => exact fun _ _ => rfl
    | cons j l ih =>
      intro s hj
      have hjl := List.ne_and_not_mem_of_not_mem_cons hj
      exact (ih _ hjl.2).trans (hne _ _ _ fun e => hjl.1 (classKey_inj e))
  induction l generalizing s with
  | nil => cases hm
  | cons j l ih =>
    obtain ⟨hj, hl⟩ := List.nodup_cons.mp hl
    by_cases e : tc = j
    · subst e
      exact ⟨s, PausesOnly.refl s, rfl, hkeep l _ hj⟩
    · obtain ⟨u, hu, hp, hf⟩ := ih hl (List.mem_of_ne_of_mem e hm) (g s j)
      exact ⟨u, (hg s j).trans hu, hp.trans (hne _ _ _ fun e' => e (classKey_inj e')), hf⟩

end

end Sys2Proof.Machine
end

section
/-! PFC and PAUSE (R143, R144, R146): received frames, pauses that run out, XOFF repetition, the watchdog, and obligation O32. -/

namespace Sys2Proof.Machine

open Sys2Proof.Safety

/-! ### Received PFC and PAUSE frames (R143) -/

section
variable {s : State} {p k tc : Nat}

/-- What a PFC frame does to one class. -/
def State.pfcClass (p k enable times : Nat) (s : State) (tc : Nat) : State :=
  if bit enable tc && bit (s.rf (Reg.portSubCfg p k) portSubCfg_PFC_RX) tc then s.pauseClass p k tc (fld times (16 * tc) 16) else s

theorem pfcRx_eq (s : State) (p k enable times : Nat) : s.pfcRx p k enable times =
    (List.range 8).foldl (State.pfcClass p k enable times) (s.pCount p k 10) := rfl

theorem pfcClass_pausesOnly (p k enable times : Nat) (s : State) (j : Nat) : PausesOnly s (s.pfcClass p k enable times j) := by
  unfold State.pfcClass
  split
  · exact pauseClass_pausesOnly _ _ _ _ _
  · exact PausesOnly.refl s

theorem pause_pfcClass_ne (p k enable times : Nat) (s : State) (j e : Nat) (he : e ≠ classKey p k j) :
    (s.pfcClass p k enable times j).pause e = s.pause e := by
  unfold State.pfcClass
  split
  · exact pause_pauseClass_ne s _ he
  · rfl

theorem pfcFold_pausesOnly (p k enable times : Nat) (s : State) :
    PausesOnly s ((List.range 8).foldl (State.pfcClass p k enable times) s) :=
  pausesOnly_foldl _ (pfcClass_pausesOnly p k enable times) _ s

theorem pauseFold_pausesOnly (p k n : Nat) (s : State) :
    PausesOnly s ((List.range 8).foldl (fun s tc => s.pauseClass p k tc n) s) :=
  pausesOnly_foldl _ (fun s j => pauseClass_pausesOnly s p k j n) _ s

theorem portWork_pfcRx (s : State) (hk : k < 8) (enable times : Nat) : PortWork [10] s (s.pfcRx p k enable times) :=
  (portWork_pCount s hk (by decide) (by decide) 1).trans (pfcFold_pausesOnly p k enable times _).portWork

theorem portWork_pauseRx (s : State) (hk : k < 8) (n : Nat) : PortWork [9] s (s.pauseRx p k n) := by
  have hcount : PortWork [9] s (s.pCount p k 9) := portWork_pCount s hk (by decide) (by decide) 1
  unfold State.pauseRx
  dsimp only
  split
  · exact hcount.trans (pauseFold_pausesOnly p k n _).portWork
  · exact hcount

variable (hp : p < 32) (hk : k < 8)

section
include hp hk

theorem counted_pfcRx (s : State) (enable times : Nat) : Counted s (s.pfcRx p k enable times) p k 10 1 :=
  counted_of_kept (counted_pCount hp hk (by decide) s 1)
    ((pfcFold_pausesOnly p k enable times (s.pCount p k 10)).portWork.counter (cs := []) p k 10 hp hk (by decide) (by decide))

theorem counted_pauseRx (s : State) (n : Nat) : Counted s (s.pauseRx p k n) p k 9 1 := by
  have hcount := counted_pCount hp hk (by decide : 9 < 32) s 1
  unfold State.pauseRx
  dsimp only
  split
  · exact counted_of_kept hcount
      ((pauseFold_pausesOnly p k n (s.pCount p k 9)).portWork.counter (cs := []) p k 9 hp hk (by decide) (by decide))
  · exact hcount

end

include hk in
/-- After the count of a frame and the steps of other classes, a class and what decides its pause are as they were. -/
theorem pause_pCount_foldl {g : State → Nat → State} (hg : ∀ s j, PausesOnly s (g s j))
    (hne : ∀ s j e, e ≠ classKey p k j → (g s j).pause e = s.pause e) (htc : tc < 8) {c : Nat} (hc : c < 32) (s : State) :
    ∃ u, SetupKept s u ∧ u.clock = s.clock ∧ u.pause (classKey p k tc) = s.pause (classKey p k tc) ∧
      ((List.range 8).foldl g (s.pCount p k c)).pause (classKey p k tc) = (g u tc).pause (classKey p k tc) := by
  have hcount := counting_pCount (p := p) s hk hc 1
  obtain ⟨u, hu, hpause, hfold⟩ := pause_foldl hg hne List.nodup_range (List.mem_range.mpr htc) (s.pCount p k c)
  exact ⟨u, hcount.setup.trans hu.setup, hu.clock.trans hcount.links.clock,
    hpause.trans (pause_congr hcount.links.pauses _), hfold⟩

include hp hk

/-- The class takes the time of the frame where the frame and PFC_RX enable it, and otherwise stays. -/
theorem pause_pfcRx (htc : tc < 8) (s : State) (enable times : Nat) :
    (s.stalled p k tc = false → bit enable tc = true → bit (s.rf (Reg.portSubCfg p k) portSubCfg_PFC_RX) tc = true →
      ((s.pfcRx p k enable times).pause (classKey p k tc)).till =
        if fld times (16 * tc) 16 = 0 then none else some (s.clock.ict + s.quanta p (fld times (16 * tc) 16))) ∧
    (bit enable tc = false ∨ bit (s.rf (Reg.portSubCfg p k) portSubCfg_PFC_RX) tc = false →
      (s.pfcRx p k enable times).pause (classKey p k tc) = s.pause (classKey p k tc)) := by
  obtain ⟨u, hset, hclock, hpause, hfold⟩ :=
    pause_pCount_foldl hk (pfcClass_pausesOnly p k enable times) (pause_pfcClass_ne p k enable times) htc (by decide : 10 < 32) s
  have hrx : u.rf (Reg.portSubCfg p k) portSubCfg_PFC_RX = s.rf (Reg.portSubCfg p k) portSubCfg_PFC_RX :=
    hset.subCfg hp hk (by decide)
  rw [pfcRx_eq, hfold, State.pfcClass, hrx]
  refine ⟨fun hst hen hon => ?_, fun hoff => ?_⟩
  · rw [hen, hon, Bool.and_self, if_pos rfl, till_pauseClass _ ((hset.stalled hp hk tc).trans hst), hclock, hset.quanta hp]
  · rw [Bool.and_eq_false_iff.mpr hoff, if_neg Bool.false_ne_true, hpause]

/-- PAUSE is honoured while PAUSE_RX is 1 and PFC_RX is zero. -/
def Honours (s : State) (p k : Nat) : Prop :=
  s.rf (Reg.portSubCfg p k) portSubCfg_PAUSE_RX = 1 ∧ s.rf (Reg.portSubCfg p k) portSubCfg_PFC_RX = 0

theorem pause_pauseRx (htc : tc < 8) (s : State) (n : Nat) :
    (Honours s p k → s.stalled p k tc = false → ((s.pauseRx p k n).pause (classKey p k tc)).till =
      if n = 0 then none else some (s.clock.ict + s.quanta p n)) ∧
    (¬Honours s p k → (s.pauseRx p k n).pause (classKey p k tc) = s.pause (classKey p k tc)) := by
  have hcount := counting_pCount (p := p) s hk (by decide : 9 < 32) 1
  have hon : Honours (s.pCount p k 9) p k ↔ Honours s p k := by
    rw [Honours, Honours, hcount.setup.subCfg hp hk (f := portSubCfg_PAUSE_RX) (by decide), hcount.setup.subCfg hp hk (f := portSubCfg_PFC_RX) (by decide)]
  refine ⟨fun h hst => ?_, fun h => ?_⟩
  · obtain ⟨u, hset, hclock, -, hfold⟩ := pause_pCount_foldl hk (fun s j => pauseClass_pausesOnly s p k j n)
      (fun s _ _ he => pause_pauseClass_ne s n he) htc (by decide : 9 < 32) s
    have hrx : s.pauseRx p k n = (List.range 8).foldl (fun s tc => s.pauseClass p k tc n) (s.pCount p k 9) := if_pos (hon.mpr h)
    rw [hrx, hfold, till_pauseClass _ ((hset.stalled hp hk tc).trans hst), hclock, hset.quanta hp]
  · have hrx : s.pauseRx p k n = s.pCount p k 9 := if_neg fun h' => h (hon.mp h')
    rw [hrx, pause_congr hcount.links.pauses]

end

/-! ### PFC frames that are sent (R144) -/

section
variable {s t u : State}

/-- PFC frames have been sent or wait at MACs that send; a MAC that is idle is as it was. -/
structure PfcSent (s t : State) : Prop where
  work : PortWork [18] s t
  idle : ∀ p k, (s.mac p k).tx = none → t.mac p k = s.mac p k

theorem PfcSent.refl (s : State) : PfcSent s s := ⟨PortWork.refl s, fun _ _ _ => rfl⟩

theorem PfcSent.trans (h : PfcSent s t) (h' : PfcSent t u) : PfcSent s u :=
  ⟨h.work.trans h'.work, fun p k hm => (h'.idle p k ((h.idle p k hm).symm ▸ hm)).trans (h.idle p k hm)⟩

/-- A change of registers and pauses that leaves the counters of ports alone. -/
theorem PfcSent.of_setup (hr : { t with regs := s.regs, pauses := s.pauses } = s)
    (hc : ∀ p k c, p < 32 → k < 8 → c < 32 → t.rdN (Reg.portCnt p k c) 2 = s.rdN (Reg.portCnt p k c) 2) : PfcSent s t :=
  ⟨portWork_of_setup hr hc, fun p k _ => mac_congr (congrArg State.macs hr :) p k⟩

theorem pfcSent_emitPfc (s : State) (p : Nat) {k : Nat} (hk : k < 8) (tc time : Nat) : PfcSent s (s.emitPfc p k tc time) where
  work := (⟨rfl, out_emit s _, fun _ _ => rfl, fun _ _ _ _ _ _ _ => rfl⟩ : PortWork [18] s (s.emit (.pfc p k tc time))).trans
    (portWork_pCount _ hk (by decide) (by decide) 1)
  idle p' k' _ := mac_congr (counting_pCount (s.emit (.pfc p k tc time)) hk (by decide) 1).links.macs p' k'

/-- May the class send PFC: PFC_TX, no stall, LINK (R144, R146)? -/
def State.maySend (s : State) (p k tc : Nat) : Bool :=
  bit (s.rf (Reg.portSubCfg p k) portSubCfg_PFC_TX) tc && !s.stalled p k tc && s.linked p k

/-- The class has a PFC frame of the time under way. -/
def State.markPfc (s : State) (e time : Nat) : State :=
  s.setPause e { s.pause e with xoff := decide (time ≠ 0), sentAt := s.clock.ict }

/-- A PFC frame waits for the frame boundary of the MAC. -/
def State.waitPfc (s : State) (p k tc time : Nat) : State :=
  s.setMac p k { s.mac p k with pfc := ((s.mac p k).pfc.filter fun x => x.1 ≠ tc) ++ [(tc, time)] }

theorem sendPfc_eq (s : State) (e time : Nat) : s.sendPfc e time =
    if s.maySend (e / 64) (e / 8 % 8) (e % 8) then
      (if (s.mac (e / 64) (e / 8 % 8)).tx.isNone then (s.markPfc e time).emitPfc (e / 64) (e / 8 % 8) (e % 8) time
        else (s.markPfc e time).waitPfc (e / 64) (e / 8 % 8) (e % 8) time)
    else s := rfl

theorem pfcSent_waitPfc {p k : Nat} (h : (s.mac p k).tx ≠ none) (tc time : Nat) : PfcSent s (s.waitPfc p k tc time) where
  work := portWork_setMac s p k _
  idle p' k' hm := by
    rw [State.waitPfc, mac_setMac, if_neg]
    intro e
    rw [State.mac, e] at hm
    exact h hm

theorem pfcSent_sendPfc (s : State) (e time : Nat) : PfcSent s (s.sendPfc e time) := by
  have hmark : PfcSent s (s.markPfc e time) := .of_setup rfl fun _ _ _ _ _ _ => rfl
  rw [sendPfc_eq]
  split
  · split
    · exact hmark.trans (pfcSent_emitPfc _ _ (Nat.mod_lt _ (by decide)) _ _)
    · next h => exact hmark.trans (pfcSent_waitPfc (s := s.markPfc e time) (fun e' => h (by rw [show (s.mac _ _).tx = none from e']; rfl)) _ _)
  · exact PfcSent.refl s

end

/-! ### XOFF repetition (R144) -/

section
variable {s : State} {port : Fin 32} {sub tc : Fin 8}

theorem classKey_decode (p : Nat) {k tc : Nat} (hk : k < 8) (htc : tc < 8) :
    classKey p k tc / 64 = p ∧ classKey p k tc / 8 % 8 = k ∧ classKey p k tc % 8 = tc := by
  unfold classKey
  omega

section
variable {p k tc : Nat} (hk : k < 8) (htc : tc < 8) (time : Nat)
include hk htc

theorem sendPfc_off (h : s.maySend p k tc = false) : s.sendPfc (classKey p k tc) time = s := by
  obtain ⟨h1, h2, h3⟩ := classKey_decode p hk htc
  rw [sendPfc_eq, h1, h2, h3, h, if_neg Bool.false_ne_true]

theorem sendPfc_idle (h : s.maySend p k tc = true) (hm : (s.mac p k).tx = none) :
    s.sendPfc (classKey p k tc) time = (s.markPfc (classKey p k tc) time).emitPfc p k tc time := by
  obtain ⟨h1, h2, h3⟩ := classKey_decode p hk htc
  rw [sendPfc_eq, h1, h2, h3, if_pos h, hm, if_pos Option.isNone_none]

theorem sendPfc_busy (h : s.maySend p k tc = true) (hm : (s.mac p k).tx ≠ none) :
    s.sendPfc (classKey p k tc) time = (s.markPfc (classKey p k tc) time).waitPfc p k tc time := by
  obtain ⟨h1, h2, h3⟩ := classKey_decode p hk htc
  rw [sendPfc_eq, h1, h2, h3, if_pos h, if_neg fun e => hm (Option.isNone_iff_eq_none.mp e)]

end

/-- XOFF holds for the class and 32,768 quanta have passed since its last PFC frame. -/
def RepeatDue (s : State) (p k tc : Nat) : Prop :=
  s.stopped = false ∧ s.rf (Reg.iaccUse (classKey p k tc)) iaccUse_XOFF_STATE = 1 ∧
    (s.pause (classKey p k tc)).sentAt + s.quanta p 32768 ≤ s.clock.ict

theorem exec_pfcRepeat_idle (h : ¬(RepeatDue s port.val sub.val tc.val ∧ s.maySend port.val sub.val tc.val = true)) :
    exec (.pfcRepeat port sub tc) s = .next s := by
  show execPfcRepeat port sub tc s = _
  refine congrArg Host.Outcome.next ?_
  split
  · next hd => exact sendPfc_off sub.isLt tc.isLt _ (Bool.eq_false_iff.mpr fun hm => h ⟨⟨by simpa using hd.1, hd.2⟩, hm⟩)
  · rfl

theorem exec_pfcRepeat_due (h : RepeatDue s port.val sub.val tc.val) :
    exec (.pfcRepeat port sub tc) s = .next (s.sendPfc (classKey port.val sub.val tc.val) 0xFFFF) := by
  show execPfcRepeat port sub tc s = _
  rw [execPfcRepeat, if_pos ⟨by simpa using h.1, h.2⟩]

/-- What is sent at once by an idle MAC. -/
theorem emitPfc_sent (u : State) {p k : Nat} (hp : p < 32) (hk : k < 8) (tc time : Nat) :
    (.pfc p k tc time) ∈ (u.emitPfc p k tc time).out ∧ Counted u (u.emitPfc p k tc time) p k 18 1 ∧
      (u.emitPfc p k tc time).pauses = u.pauses := by
  have hcount := counting_pCount (p := p) (u.emit (.pfc p k tc time)) hk (by decide : 18 < 32) 1
  exact ⟨hcount.out.subset (List.mem_append_right _ List.mem_cons_self), counted_pCount hp hk (by decide) (u.emit _) 1,
    hcount.links.pauses⟩

theorem pfcRepeat_ends (hdue : RepeatDue s port.val sub.val tc.val) (hmay : s.maySend port.val sub.val tc.val = true) :
    Ends (.pfcRepeat port sub tc) s fun t =>
      t.pause (classKey port.val sub.val tc.val) =
        { s.pause (classKey port.val sub.val tc.val) with xoff := true, sentAt := s.clock.ict } ∧ FramesKept s t ∧
      ((s.mac port.val sub.val).tx = none → .pfc port.val sub.val tc.val 0xFFFF ∈ t.out ∧ Counted s t port.val sub.val 18 1) ∧
      ((s.mac port.val sub.val).tx ≠ none → t.out = s.out ∧ (tc.val, 0xFFFF) ∈ (t.mac port.val sub.val).pfc) := by
  have hkept := (pfcSent_sendPfc s (classKey port.val sub.val tc.val) 0xFFFF).work.framesKept
  refine ⟨_, exec_pfcRepeat_due hdue, ?_⟩
  by_cases htx : (s.mac port.val sub.val).tx = none
  · rw [sendPfc_idle sub.isLt tc.isLt _ hmay htx] at hkept ⊢
    obtain ⟨hout, hcnt, hpause⟩ := emitPfc_sent (s.markPfc (classKey port.val sub.val tc.val) 0xFFFF) port.isLt sub.isLt tc.val 0xFFFF
    exact ⟨(pause_congr hpause _).trans (pause_setPause_self _ _ _), hkept, fun _ => ⟨hout, hcnt⟩, fun h => absurd htx h⟩
  · rw [sendPfc_busy sub.isLt tc.isLt _ hmay htx] at hkept ⊢
    refine ⟨pause_setPause_self _ _ _, hkept, fun h => absurd h htx, fun _ => ⟨rfl, ?_⟩⟩
    rw [State.waitPfc, mac_setMac_self]
    exact List.mem_append_right _ List.mem_cons_self

end

/-! ### Bits of a register's word -/

section
variable (s : State) (a : Nat) {f : Fld} {i j : Nat}

theorem testBit_rf_word (hf : f.lo < 32) (hw : f.words = 1) :
    (s.rf a f).testBit i = (decide (i < f.width) && (s.rd a).getLsbD (f.lo + i)) := by
  rw [State.rf_word s a hf hw, testBit_fld, BitVec.testBit_toNat]

/-- A bit that is set or cleared changes no other bit of its word. -/
theorem getLsbD_setRf_bit (v : Nat) (hi : i < 32) (hj : j < 32) :
    ((s.setRf a ⟨i, 1⟩ v).rd a).getLsbD j = if j = i then v.testBit 0 else (s.rd a).getLsbD j := by
  have hw : (⟨i, 1⟩ : Fld).words = 1 := by simp only [Fld.words]; omega
  have hword : (s.setRf a ⟨i, 1⟩ v).rd a = BitVec.ofNat 32 (setFld (s.rd a).toNat i 1 v) := by
    simp only [State.setRf, hw, Nat.div_eq_of_lt hi, Nat.mod_eq_of_lt hi, State.wrN, State.rdN, Nat.mul_zero, Nat.add_zero,
      State.rd_wr_self]
  rw [hword, BitVec.getLsbD_ofNat, testBit_setFld, BitVec.testBit_toNat, decide_eq_true hj, Bool.true_and]
  by_cases h : j = i
  · rw [if_pos h, if_pos (by omega), h, Nat.sub_self]
  · rw [if_neg h, if_neg (by omega)]

end

/-! ### The watchdog (R146) -/

section
variable {s t : State} {port : Fin 32} {sub tc : Fin 8}

/-- A change of the Trailbook and of registers. -/
theorem framesKept_of_tbRegs (h : TbRegs s t) : FramesKept s t := by
  refine ⟨(congrArg State.frames h :), (congrArg State.nextFrame h :), (congrArg State.lanes h :), fun p k => ?_, h.mem,
    (congrArg State.threads h :), (congrArg State.stewards h :)⟩
  rw [mac_congr (show t.macs = s.macs from (congrArg State.macs h :))]

/-- The watchdog's stall of a class: STALLED and STALL_SEEN. -/
def State.stall (s : State) (p k tc : Nat) : State :=
  (s.setRf (Reg.portPfcStall p k) ⟨tc, 1⟩ 1).setRf (Reg.portPfcStall p k) ⟨8 + tc, 1⟩ 1

theorem stalled_stall (s : State) (p k : Nat) {tc : Nat} (htc : tc < 8) :
    ((s.stall p k tc).rf (Reg.portPfcStall p k) portPfcStall_STALLED).testBit tc = true := by
  rw [testBit_rf_word _ _ (by decide) (by decide), State.stall, getLsbD_setRf_bit _ _ _ (by omega) (by simp only; omega),
    getLsbD_setRf_bit _ _ _ (by omega) (by simp only; omega), if_neg (by simp only; omega), if_pos (by simp only; omega)]
  exact Bool.and_eq_true_iff.mpr ⟨decide_eq_true htc, rfl⟩

theorem portPfcStall_ne_tbLost (p k : Nat) : Reg.portPfcStall p k ≠ Reg.tbLost := by
  simp only [Reg.portPfcStall, Reg.tbLost, ctlAddr]
  omega

/-- The record of the stall. -/
def State.stallRecorded (s : State) (p k tc : Nat) : State :=
  (s.stall p k tc).record 0x0060 (1 + p) [(0, 1, k), (1, 1, tc)]

theorem TbRegs.record (h : TbRegs s t) (code island : Nat) (items : List (Nat × Nat × Nat)) :
    TbRegs s (t.record code island items) :=
  (congrArg (fun x : State => { x with tb := s.tb, regs := s.regs }) (t.record_only code island items) :).trans h

theorem tbRegs_stallRecorded (s : State) (p k tc : Nat) : TbRegs s (s.stallRecorded p k tc) := by
  have hself : TbRegs s s := rfl
  exact ((hself.setRf (Reg.portPfcStall p k) ⟨tc, 1⟩ 1).setRf (Reg.portPfcStall p k) ⟨8 + tc, 1⟩ 1).record _ _ _

theorem stalled_stallRecorded (s : State) (p k : Nat) {tc : Nat} (htc : tc < 8) :
    ((s.stallRecorded p k tc).rf (Reg.portPfcStall p k) portPfcStall_STALLED).testBit tc = true := by
  rw [State.stallRecorded, State.rf_congr (by decide) (by decide) (rd_record (s.stall p k tc) _ _ _ (portPfcStall_ne_tbLost p k))]
  exact stalled_stall s p k htc

/-- The class has been paused without interruption for LIMIT. -/
def WatchdogFires (s : State) (p k tc since till : Nat) : Prop :=
  let limit := s.rf (Reg.portPfcWd p k) portPfcWd_LIMIT * 100000 * nsUnit
  s.subPresent p k ∧ limit ≠ 0 ∧ since + limit ≤ s.clock.ict ∧ since + limit ≤ till ∧ !s.stalled p k tc

theorem exec_pfcWatchdog {since till : Nat} (h0 : (s.pause (classKey port.val sub.val tc.val)).since = some since)
    (h1 : (s.pause (classKey port.val sub.val tc.val)).till = some till) :
    (¬WatchdogFires s port.val sub.val tc.val since till → exec (.pfcWatchdog port sub tc) s = .next s) ∧
    (WatchdogFires s port.val sub.val tc.val since till →
      exec (.pfcWatchdog port sub tc) s = .next (s.stallRecorded port.val sub.val tc.val)) := by
  have he : exec (.pfcWatchdog port sub tc) s = execPfcWatchdog port sub tc s := rfl
  rw [he, execPfcWatchdog]
  simp only [h0, h1]
  exact ⟨fun h => congrArg Host.Outcome.next (if_neg h), fun h => congrArg Host.Outcome.next (if_pos h)⟩

theorem pausesOnly_setPause (s : State) (e : Nat) (x : PauseSt) : PausesOnly s (s.setPause e x) := rfl

/-- The end of a stall. -/
def State.unstall (s : State) (p k tc : Nat) : State :=
  (s.setRf (Reg.portPfcStall p k) ⟨tc, 1⟩ 0).setPause (classKey p k tc)
    { s.pause (classKey p k tc) with till := none, since := none }

theorem exec_pfcWdRestore (port : Fin 32) (sub tc : Fin 8) (s : State) : exec (.pfcWdRestore port sub tc) s =
    .next (if s.stalled port.val sub.val tc.val ∧ (s.pause (classKey port.val sub.val tc.val)).last +
      s.rf (Reg.portPfcWd port.val sub.val) portPfcWd_RESTORE * 100000 * nsUnit ≤ s.clock.ict
      then s.unstall port.val sub.val tc.val else s) := rfl

theorem unstall_ends (s : State) (p k : Nat) {tc : Nat} (htc : tc < 8) :
    ((s.unstall p k tc).rf (Reg.portPfcStall p k) portPfcStall_STALLED).testBit tc = false ∧
    (s.unstall p k tc).pause (classKey p k tc) = { s.pause (classKey p k tc) with till := none, since := none } ∧
    FramesKept s (s.unstall p k tc) := by
  have hregs : FramesKept s (s.setRf (Reg.portPfcStall p k) ⟨tc, 1⟩ 0) :=
    framesKept_of_links (.of_regs (s.setRf_only _ _ _))
  refine ⟨?_, pause_setPause_self _ _ _, framesKept_trans hregs ((pausesOnly_setPause _ _ _).portWork (cs := [])).framesKept⟩
  rw [State.unstall, rf_of_regs (pausesOnly_setPause _ _ _).regs, testBit_rf_word _ _ (by decide) (by decide), getLsbD_setRf_bit _ _ _ (by omega) (by simp only; omega),
    if_pos (by simp only; omega)]
  exact Bool.and_false _

end

/-! ### The statement -/

section
variable {s : State} {port : Fin 32} {sub tc : Fin 8}

theorem exec_pfcReceive (port : Fin 32) (sub : Fin 8) (en : BitVec 8) (times : BitVec 128) (s : State) :
    exec (.pfcReceive port sub en times) s = .next (if s.linked port.val sub.val && s.accepts (1 + port.val) then
      s.pfcRx port.val sub.val en.toNat times.toNat else s) := rfl

theorem exec_pauseReceive (port : Fin 32) (sub : Fin 8) (time : BitVec 16) (s : State) :
    exec (.pauseReceive port sub time) s = .next (if s.linked port.val sub.val && s.accepts (1 + port.val) then
      s.pauseRx port.val sub.val time.toNat else s) := rfl

theorem exec_pauseExpire_some {t : Nat} (h : (s.pause (classKey port.val sub.val tc.val)).till = some t) :
    exec (.pauseExpire port sub tc) s = .next (if t ≤ s.clock.ict then s.setPause (classKey port.val sub.val tc.val)
      { s.pause (classKey port.val sub.val tc.val) with till := none, since := none } else s) := by
  show execPauseExpire port sub tc s = _
  simp only [execPauseExpire, h]

theorem exec_pauseExpire_none (h : (s.pause (classKey port.val sub.val tc.val)).till = none) :
    exec (.pauseExpire port sub tc) s = .next s := by
  show execPauseExpire port sub tc s = _
  simp only [execPauseExpire, h]

theorem maySend_iff (s : State) (p k tc : Nat) : s.maySend p k tc = true ↔
    (s.rf (Reg.portSubCfg p k) portSubCfg_PFC_TX).testBit tc = true ∧
      ¬(s.rf (Reg.portPfcStall p k) portPfcStall_STALLED).testBit tc = true ∧ s.linked p k = true := by
  rw [State.maySend, State.stalled, bit_eq_testBit, bit_eq_testBit]
  simp [and_assoc]

end

/-- Settles O32: each command has one lemma for what it does to the class, of which the conditions of the statement are the
readings; that a PFC frame waits for a sending MAC's frame boundary is log entry 147. -/
theorem flowControl : Obligations.FlowControl := by
  unfold Obligations.FlowControl
  intro port sub tc s p k e x now quanta stalled paused
  have hstall : stalled ↔ s.stalled p k tc.val = true := by rw [State.stalled, bit_eq_testBit]
  have hfree : ¬stalled → s.stalled p k tc.val = false := fun h => Bool.eq_false_iff.mpr fun h' => h (hstall.mpr h')
  have hrx := fun en times => exec_pfcReceive port sub en times s
  have hpr := fun time => exec_pauseReceive port sub time s
  refine ⟨fun en times h => ?_, fun time h => ?_, fun en times hl ha => ?_, fun time hl ha => ?_, fun _ => exec_pauseExpire_some, exec_pauseExpire_none,
    ⟨fun h => ?_, fun hd hm => ?_⟩, fun since till h0 h1 => ?_, ⟨fun h => ?_, fun h hq => ?_⟩⟩
  · rw [hrx, Bool.and_eq_false_iff.mpr h, if_neg Bool.false_ne_true]
  · rw [hpr, Bool.and_eq_false_iff.mpr h, if_neg Bool.false_ne_true]
  · have hpause := pause_pfcRx port.isLt sub.isLt tc.isLt s en.toNat times.toNat
    rw [bit_toNat, bit_eq_testBit, fld_toNat] at hpause
    refine ⟨_, (hrx en times).trans (by rw [hl, ha, Bool.and_self, if_pos rfl]), counted_pfcRx port.isLt sub.isLt s _ _,
      (portWork_pfcRx s sub.isLt _ _).framesKept, fun hs => hpause.1 (hfree hs), hpause.2⟩
  · obtain ⟨hon, hoff⟩ := pause_pauseRx (tc := tc.val) port.isLt sub.isLt tc.isLt s time.toNat
    exact ⟨_, (hpr time).trans (by rw [hl, ha, Bool.and_self, if_pos rfl]), counted_pauseRx port.isLt sub.isLt s _,
      (portWork_pauseRx s sub.isLt _).framesKept, fun h hs => hon h (hfree hs), hoff⟩
  · exact exec_pfcRepeat_idle fun ⟨hd, hm⟩ => h ⟨hd, (maySend_iff s p k tc.val).mp hm⟩
  · exact pfcRepeat_ends hd ((maySend_iff s p k tc.val).mpr hm)
  · obtain ⟨hidle, hfires⟩ := exec_pfcWatchdog h0 h1
    have hiff (limit : Nat) : (limit ≠ 0 ∧ since + limit ≤ now ∧ since + limit ≤ till ∧ ¬stalled ∧
        k < 2 ^ s.rf (Reg.portMode p) portMode_SPLIT) ↔
        (s.subPresent p k ∧ limit ≠ 0 ∧ since + limit ≤ now ∧ since + limit ≤ till ∧ !s.stalled p k tc.val) := by
      rw [hstall, subPresent_iff, Bool.not_eq_true, Bool.not_eq_true']
      exact ⟨fun ⟨h0, hnow, htill, hst, hk⟩ => ⟨hk, h0, hnow, htill, hst⟩, fun ⟨hk, h0, hnow, htill, hst⟩ => ⟨h0, hnow, htill, hst, hk⟩⟩
    refine ⟨fun h => hidle fun h' => h ((hiff _).mpr h'), fun h => ⟨_, hfires ((hiff _).mp h), ?_⟩⟩
    have hkept := tbRegs_stallRecorded s p k tc.val
    exact ⟨stalled_stallRecorded s p k tc.isLt, framesKept_of_tbRegs hkept, (congrArg State.pauses hkept :)⟩
  · rw [exec_pfcWdRestore, if_neg]
    rintro ⟨hs, hq⟩
    exact h.elim (fun h => h (hstall.mpr hs)) fun h => absurd hq (Nat.not_le.mpr h)
  · rw [Ends, exec_pfcWdRestore, if_pos ⟨hstall.mp h, hq⟩]
    exact ⟨_, rfl, unstall_ends s p k tc.isLt⟩

end Sys2Proof.Machine
end

section
/-! Reception of frames (R136 to R140): the checks of the receive MAC, the satchel of a frame that is taken, and obligation O31. -/

namespace Sys2Proof.Machine

open Sys2Proof.Safety

/-! ### A new satchel at a port (R41, R136) -/

section
variable {s t u : State} {p k : Nat}

/-- The fields of a new satchel that say where it stands. -/
theorem attachedFrame_stands (s : State) (src inst ts seq : Nat) (data : List Byte) :
    let f := attachedFrame s src inst ts seq data
    f.gf sfPhase = 0 ∧ f.gf sfDst = 0x3FF ∧ f.gf sfNextHop = 0xFFFF ∧ f.gf sfFmtGen = s.rf Reg.fmtGen fmtGen_CUR := by
  intro f
  have h0 : ({ data := data } : Frame).gf sfPhase = 0 := congrArg (fld · 28 1) (by decide : satWord (Vector.replicate 16 0) 0 = 0)
  have hgen : s.rf Reg.fmtGen fmtGen_CUR < 2 ^ 8 := fld_lt _ _ _
  refine ⟨?_, ?_, ?_, ?_⟩
  · simp (disch := decide) only [f, attachedFrame, Frame.gf_setWord_apart, Frame.gf_sf_apart, h0]
  · simp (disch := decide) only [f, attachedFrame, Frame.gf_setWord_apart, Frame.gf_sf_same, Frame.gf_sf_apart]
    rfl
  · simp (disch := decide) only [f, attachedFrame, Frame.gf_setWord_apart, Frame.gf_sf_same, Frame.gf_sf_apart]
    rfl
  · simp (disch := decide) only [f, attachedFrame, Frame.gf_setWord_apart, Frame.gf_sf_same, Frame.gf_sf_apart]
    exact Nat.mod_eq_of_lt hgen

/-- A frame with these bytes has arrived at the sub-port: it waits last in the port's lane under a new satchel. -/
def Arrived (s t : State) (p k : Nat) (bytes : List Byte) (trunc : Nat) : Prop :=
  (t.frame s.nextFrame).data = bytes ∧ (t.frame s.nextFrame).gf sfSrc = 8 * p + k ∧
  (t.frame s.nextFrame).gf sfTrunc = trunc ∧ (t.frame s.nextFrame).gf sfPhase = 0 ∧
  (t.frame s.nextFrame).gf sfDst = 0x3FF ∧ (t.frame s.nextFrame).gf sfNextHop = 0xFFFF ∧
  (t.frame s.nextFrame).gf sfExc = 0 ∧ (t.frame s.nextFrame).gf sfFmtGen = s.rf Reg.fmtGen fmtGen_CUR ∧
  (∀ f, f ≠ s.nextFrame → t.frame f = s.frame f) ∧ t.nextFrame = s.nextFrame + 1 ∧
  (t.lane p).arrivals = (s.lane p).arrivals ++ [s.nextFrame] ∧ (t.lane p).passes = (s.lane p).passes ∧
  (∀ l, l ≠ p → t.lane l = s.lane l) ∧ t.mem = s.mem ∧ t.threads = s.threads

/-- The frame waits in the port's lane. -/
def State.laneTake (s : State) (p fid : Nat) : State :=
  s.setLane p { s.lane p with arrivals := (s.lane p).arrivals ++ [fid] }

theorem frame_laneTake (s : State) (p fid j : Nat) : (s.laneTake p fid).frame j = s.frame j := State.frame_congr rfl j

theorem lane_laneTake (s : State) (p fid l : Nat) : (s.laneTake p fid).lane l =
    if l = p then { s.lane p with arrivals := (s.lane p).arrivals ++ [fid] } else s.lane l := Tab.get_put _ _ _ _ _

/-- The new satchel of a received frame. -/
def State.portSatchel (s : State) (p k : Nat) (d : List Byte) : State × Nat :=
  s.attach (8 * p + k) (s.rf (Reg.pipeSubportCfg (p / 2) (p % 2) k) pipeSubportCfg_DEF_INSTANCE)
    (s.ictHalf - s.rf (Reg.portPtpCfg p) portPtpCfg_RX_DELAY) (p / 2) d

theorem portAttach_eq (s : State) (p k : Nat) (d : List Byte) (trunc : Bool) : s.portAttach p k d trunc =
    ((s.portSatchel p k d).1.modFrame (s.portSatchel p k d).2 fun f => f.sf sfTrunc (b2n trunc)).laneTake p
      (s.portSatchel p k d).2 := rfl

theorem lanes_attach (s : State) (src inst ts j : Nat) (d : List Byte) : (s.attach src inst ts j d).1.lanes = s.lanes := by
  rw [State.attach_eq]
  rfl

theorem regs_portAttach (s : State) (p k : Nat) (d : List Byte) (trunc : Bool) : (s.portAttach p k d trunc).regs = s.regs := by
  obtain ⟨-, -, hregs, -⟩ := s.attach_kept (8 * p + k) (s.rf (Reg.pipeSubportCfg (p / 2) (p % 2) k) pipeSubportCfg_DEF_INSTANCE)
    (s.ictHalf - s.rf (Reg.portPtpCfg p) portPtpCfg_RX_DELAY) (p / 2) d
  rw [portAttach_eq]
  exact hregs

theorem arrived_portAttach (hp : p < 32) (hk : k < 8) (s : State) (d : List Byte) (trunc : Bool) :
    Arrived s (s.portAttach p k d trunc) p k d (b2n trunc) := by
  rw [portAttach_eq, State.portSatchel]
  generalize s.rf (Reg.pipeSubportCfg (p / 2) (p % 2) k) pipeSubportCfg_DEF_INSTANCE = inst
  generalize s.ictHalf - s.rf (Reg.portPtpCfg p) portPtpCfg_RX_DELAY = ts
  obtain ⟨hfid, hnext, hframe⟩ := s.attach_frame (8 * p + k) inst ts (p / 2) d
  obtain ⟨hthreads, -, -, hmem⟩ := s.attach_kept (8 * p + k) inst ts (p / 2) d
  have hlanes := lanes_attach s (8 * p + k) inst ts (p / 2) d
  have hgen : (s.nextSeq (p / 2)).1.rf Reg.fmtGen fmtGen_CUR = s.rf Reg.fmtGen fmtGen_CUR := rf_of_regs rfl _ _
  obtain ⟨hdata, -, hsrc, -, hexc⟩ := attachedFrame_fields (s.nextSeq (p / 2)).1 (8 * p + k) inst ts (s.nextSeq (p / 2)).2 d
  obtain ⟨hphase, hdst, hhop, hfmt⟩ := attachedFrame_stands (s.nextSeq (p / 2)).1 (8 * p + k) inst ts (s.nextSeq (p / 2)).2 d
  generalize attachedFrame (s.nextSeq (p / 2)).1 (8 * p + k) inst ts (s.nextSeq (p / 2)).2 d = f at *
  generalize s.attach (8 * p + k) inst ts (p / 2) d = r at *
  rw [hfid]
  have hlane (l : Nat) : (r.1.modFrame s.nextFrame fun f => f.sf sfTrunc (b2n trunc)).lane l = s.lane l := by
    rw [State.lane, State.modFrame_lanes, hlanes, State.lane]
  have hself : ((r.1.modFrame s.nextFrame fun f => f.sf sfTrunc (b2n trunc)).laneTake p s.nextFrame).frame s.nextFrame =
      f.sf sfTrunc (b2n trunc) := by
    rw [frame_laneTake, State.frame_modFrame, if_pos rfl, hframe, if_pos rfl]
  have hapart {y : SatField} (hy : y.w ≠ sfTrunc.w ∨ y.lo + y.n ≤ sfTrunc.lo ∨ sfTrunc.lo + sfTrunc.n ≤ y.lo) :
      (f.sf sfTrunc (b2n trunc)).gf y = f.gf y := Frame.gf_sf_apart _ _ (by decide) (by decide) hy
  unfold Arrived
  rw [hself]
  refine ⟨hdata, ?_, ?_, ?_, ?_, ?_, ?_, ?_, fun j hj => ?_, hnext, ?_, ?_, fun l hl => ?_, hmem, hthreads⟩
  · exact (hapart (by decide)).trans (hsrc.trans (Nat.mod_eq_of_lt (by omega)))
  · rw [Frame.gf_sf_same _ _ (by decide) (by decide)]
    cases trunc <;> rfl
  · exact (hapart (by decide)).trans hphase
  · exact (hapart (by decide)).trans hdst
  · exact (hapart (by decide)).trans hhop
  · exact (hapart (by decide)).trans hexc
  · exact (hapart (by decide)).trans (hfmt.trans hgen)
  · rw [frame_laneTake, State.frame_modFrame, if_neg hj, hframe, if_neg hj]
  · rw [lane_laneTake, if_pos rfl, hlane]
  · rw [lane_laneTake, if_pos rfl, hlane]
  · rw [lane_laneTake, if_neg hl, hlane]

/-- Counts before the arrival change nothing of it. -/
theorem Counting.arrived {bytes : List Byte} {trunc : Nat} (h : Counting s u) (ha : Arrived u t p k bytes trunc) :
    Arrived s t p k bytes trunc := by
  have hlane (l : Nat) : u.lane l = s.lane l := by rw [State.lane, State.lane, h.links.lanes]
  unfold Arrived at ha ⊢
  rw [h.links.nextFrame, h.setup.curGen, h.links.mem, h.links.threads] at ha
  simpa only [hlane, State.frame_congr h.links.frames] using ha

end

/-! ### The checks of the receive MAC (R136) -/

section
variable {s t : State} {p k : Nat}

/-- The sub-port receives frames, in P0 or P1 and without wake patterns. -/
structure Receives (s : State) (p k : Nat) : Prop where
  on : s.boot.phase ≠ .off
  linked : s.linked p k = true
  accepts : s.accepts (1 + p) = true
  awake : s.pstate < 2
  plain : s.rf (Reg.portWakeCfg p) portWakeCfg_PAT_EN = 0

theorem Counting.receives (hp : p < 32) (hc : Counting s t) (h : Receives s p k) : Receives t p k where
  on := hc.links.boot ▸ h.on
  linked := (hc.setup.linked hp).trans h.linked
  accepts := (accepts_congr hc.links.isl _).trans h.accepts
  awake := hc.setup.pstate ▸ h.awake
  plain := (hc.setup.rf_port hp (by decide)).trans h.plain

theorem wakeFilter_plain (h : Receives s p k) (d : List Byte) : s.wakeFilter p k d = (s, true) := by
  have hlow : ¬2 ≤ s.pstate := Nat.not_le.mpr h.awake
  simp [State.wakeFilter, h.plain, hlow]

/-- The counts of a frame that is taken. -/
def State.frameCounted (s : State) (p k : Nat) (d : List Byte) : State :=
  ((s.pCount p k 0).pCount p k 1 (d.length + 4)).pCount p k (castCounter d)

/-- A frame that is taken whole. -/
def State.frameTaken (s : State) (p k : Nat) (d : List Byte) : State := (s.frameCounted p k d).portAttach p k d false

/-- An oversize frame that is taken with its first bytes. -/
def State.frameCut (s : State) (p k : Nat) (d : List Byte) : State :=
  let u := (s.pCount p k 8).frameCounted p k d
  u.portAttach p k ((d ++ leBytes 4 (ethFcs d)).take (u.truncLen p k)) true

/-- What becomes of a frame that is neither a runt nor of bad FCS. -/
def State.frameJudged (s : State) (p k : Nat) (d : List Byte) : State :=
  if s.rf (Reg.portSubCfg p k) portSubCfg_MAXFRAME < d.length + 4 then
    if s.rf (Reg.portSubCfg p k) portSubCfg_OVS_MODE = 0 then s.pCount p k 7
    else if beNat (slice d 12 2) = 0x8808 then s.macControl p k d
    else s.frameCut p k d
  else if beNat (slice d 12 2) = 0x8808 then s.macControl p k d
  else s.frameTaken p k d

/-- The checks in their order. -/
theorem frameRx_eq (h : Receives s p k) (d : List Byte) (fcsOk : Bool) : s.frameRx p k d fcsOk =
    if d.length + 4 < 64 then s.pCount p k 6 else if !fcsOk then s.pCount p k 5 else s.frameJudged p k d := by
  have hon : (decide (s.boot.phase = .off) || !s.linked p k) = false := by simp [h.on, h.linked]
  have hp3 : s.pstate ≠ 3 := by have := h.awake; omega
  simp only [State.frameRx, hon, hp3, h.accepts, wakeFilter_plain h, Bool.false_eq_true, Bool.not_true, if_false]
  rfl

theorem castCounter_range (d : List Byte) : 2 ≤ castCounter d ∧ castCounter d ≤ 4 := by
  unfold castCounter
  split_ifs <;> decide

variable (hp : p < 32) (hk : k < 8)

section
include hk

theorem counting_frameCounted (s : State) (d : List Byte) : Counting s (s.frameCounted p k d) :=
  ((counting_pCount s hk (by decide) 1).trans (counting_pCount _ hk (by decide) _)).trans
    (counting_pCount _ hk ((castCounter_range d).2.trans_lt (by decide)) 1)

theorem portWork_macControl (s : State) (d : List Byte) : PortWork [9, 10] s (s.macControl p k d) := by
  simp only [State.macControl]
  split
  · exact (portWork_pfcRx s hk _ _).mono (by decide)
  · split
    · exact (portWork_pauseRx s hk _).mono (by decide)
    · exact portWork_pCount s hk (by decide) (by decide) 1

end

include hp hk

/-- RX_FRAMES and RX_BYTES have counted the frame, and no counter from 5 on has changed. -/
theorem counted_frameCounted (s : State) (d : List Byte) : Counted s (s.frameCounted p k d) p k 0 1 ∧
    Counted s (s.frameCounted p k d) p k 1 (d.length + 4) ∧ ∀ c, c < 32 → 5 ≤ c →
      (s.frameCounted p k d).rdN (Reg.portCnt p k c) 2 = s.rdN (Reg.portCnt p k c) 2 := by
  obtain ⟨hlo, hhi⟩ := castCounter_range d
  have hcast : castCounter d < 32 := hhi.trans_lt (by decide)
  have h0 : 0 ≠ castCounter d := by omega
  have h1 : 1 ≠ castCounter d := by omega
  refine ⟨?_, ?_, fun c hc h5 => ?_⟩
  · simp [Counted, State.frameCounted, rdN_pCount hp hk, hcast, h0]
  · simp [Counted, State.frameCounted, rdN_pCount hp hk, hcast, h1]
  · have hne : c ≠ 0 ∧ c ≠ 1 ∧ c ≠ castCounter d := by omega
    simp [State.frameCounted, rdN_pCount hp hk, hc, hcast, hne]

theorem truncLen_counting {t : State} (h : Counting s t) : t.truncLen p k = s.truncLen p k := by
  rw [State.truncLen, State.truncLen, h.setup.subCfg hp hk (f := portSubCfg_TRUNC_LEN) (by decide),
    h.setup.subCfg hp hk (f := portSubCfg_MAXFRAME) (by decide)]

/-- A frame that is counted and arrives, an oversize one with its first bytes. -/
theorem arrived_frameCounted (s : State) (d bytes : List Byte) (trunc : Bool) :
    let t := (s.frameCounted p k d).portAttach p k bytes trunc
    Counted s t p k 0 1 ∧ Counted s t p k 1 (d.length + 4) ∧ Arrived s t p k bytes (b2n trunc) ∧
      ∀ c, c < 32 → 5 ≤ c → t.rdN (Reg.portCnt p k c) 2 = s.rdN (Reg.portCnt p k c) 2 := by
  obtain ⟨h0, h1, h5⟩ := counted_frameCounted hp hk s d
  have hregs (c : Nat) := rdN_of_regs (regs_portAttach (s.frameCounted p k d) p k bytes trunc) (Reg.portCnt p k c) 2
  exact ⟨counted_of_kept h0 (hregs 0), counted_of_kept h1 (hregs 1),
    (counting_frameCounted hk s d).arrived (arrived_portAttach hp hk _ bytes trunc), fun c hc hl => (hregs c).trans (h5 c hc hl)⟩

end

/-! ### FRAME_RECEIVE -/

section
variable {s t : State} {p k : Nat}

/-- What FEC reports of a reception is counted (R140). -/
def State.fecCounted (s : State) (p k : Nat) (rx : Reception) : State :=
  ((s.pCount p k 11 rx.corr.toNat).pCount p k 12 rx.uncorr.toNat).pCount p k 13 rx.syms.toNat

theorem exec_frameReceive (port : Fin 32) (sub : Fin 8) (data : List Byte) (rx : Reception) (s : State) :
    exec (.frameReceive port sub data rx) s =
      .next (if s.linked port.val sub.val && s.accepts (1 + port.val) && decide (s.pstate ≠ 3) then
        (s.fecCounted port.val sub.val rx).frameRx port.val sub.val data rx.fcsOk
      else s.frameRx port.val sub.val data rx.fcsOk) := rfl

theorem frameRx_unlinked (h : s.linked p k = false) (d : List Byte) (fcsOk : Bool) : s.frameRx p k d fcsOk = s := by
  simp [State.frameRx, h]

theorem frameRx_deaf (h : s.accepts (1 + p) = false) (h3 : s.pstate ≠ 3) (d : List Byte) (fcsOk : Bool) :
    s.frameRx p k d fcsOk = s := by
  simp [State.frameRx, h, h3]

/-- The reports of FEC have been counted, and no frame has come. -/
def FecKept (s t : State) (p k : Nat) (rx : Reception) : Prop :=
  Counted s t p k 11 rx.corr.toNat ∧ Counted s t p k 12 rx.uncorr.toNat ∧ Counted s t p k 13 rx.syms.toNat ∧ FramesKept s t

section
variable (hp : p < 32) (hk : k < 8)

section
include hk

theorem counting_fecCounted (s : State) (rx : Reception) : Counting s (s.fecCounted p k rx) :=
  ((counting_pCount s hk (by decide) _).trans (counting_pCount _ hk (by decide) _)).trans (counting_pCount _ hk (by decide) _)

theorem portWork_fecCounted (s : State) (rx : Reception) : PortWork [11, 12, 13] s (s.fecCounted p k rx) :=
  ((portWork_pCount s hk (by decide) (by decide) _).trans (portWork_pCount _ hk (by decide) (by decide) _)).trans
    (portWork_pCount _ hk (by decide) (by decide) _)

end

include hp hk

theorem fecKept_fecCounted (s : State) (rx : Reception) : FecKept s (s.fecCounted p k rx) p k rx := by
  refine ⟨?_, ?_, ?_, (portWork_fecCounted hk s rx).framesKept⟩
  · simp [Counted, State.fecCounted, rdN_pCount hp hk]
  · simp [Counted, State.fecCounted, rdN_pCount hp hk]
  · simp [Counted, State.fecCounted, rdN_pCount hp hk]

theorem FecKept.work {rx : Reception} {cs : List Nat} (h : FecKept s t p k rx) {u : State} (hw : PortWork cs t u)
    (hcs : 11 ∉ cs ∧ 12 ∉ cs ∧ 13 ∉ cs) : FecKept s u p k rx := by
  obtain ⟨h11, h12, h13, hf⟩ := h
  obtain ⟨hn11, hn12, hn13⟩ := hcs
  exact ⟨counted_of_kept h11 (hw.counter _ _ _ hp hk (by decide) hn11), counted_of_kept h12 (hw.counter _ _ _ hp hk (by decide) hn12),
    counted_of_kept h13 (hw.counter _ _ _ hp hk (by decide) hn13), framesKept_trans hf hw.framesKept⟩

/-- Another counter counts on from before the reports of FEC. -/
theorem counted_of_fecCounted {rx : Reception} {c n : Nat} (hc : c < 32) (hn : c ∉ [11, 12, 13])
    (h : Counted (s.fecCounted p k rx) t p k c n) : Counted s t p k c n :=
  counted_after ((portWork_fecCounted hk s rx).counter _ _ _ hp hk hc hn) h

/-- A frame that is dropped under one count. -/
theorem dropped_ends (s : State) (rx : Reception) {c : Nat} (hc : c < 32) (hn : c ∉ [11, 12, 13]) :
    Counted s ((s.fecCounted p k rx).pCount p k c) p k c 1 ∧ FecKept s ((s.fecCounted p k rx).pCount p k c) p k rx := by
  refine ⟨counted_of_fecCounted hp hk hc hn (counted_pCount hp hk hc _ 1),
    (fecKept_fecCounted hp hk s rx).work hp hk (portWork_pCount (cs := [c]) _ hk hc List.mem_cons_self 1) ?_⟩
  simp only [List.mem_cons, List.not_mem_nil, or_false, not_or] at hn ⊢
  omega

theorem taken_ends (s : State) (rx : Reception) (d : List Byte) :
    let t := (s.fecCounted p k rx).frameTaken p k d
    Counted s t p k 0 1 ∧ Counted s t p k 1 (d.length + 4) ∧ Arrived s t p k d 0 := by
  obtain ⟨h0, h1, harr, -⟩ := arrived_frameCounted hp hk (s.fecCounted p k rx) d d false
  exact ⟨counted_of_fecCounted hp hk (by decide) (by decide) h0, counted_of_fecCounted hp hk (by decide) (by decide) h1,
    (counting_fecCounted hk s rx).arrived harr⟩

theorem cut_ends (s : State) (rx : Reception) (d : List Byte) :
    let t := (s.fecCounted p k rx).frameCut p k d
    Counted s t p k 8 1 ∧ Counted s t p k 0 1 ∧ Counted s t p k 1 (d.length + 4) ∧
      Arrived s t p k ((d ++ leBytes 4 (ethFcs d)).take (s.truncLen p k)) 1 := by
  have h8 := counting_pCount (p := p) (s.fecCounted p k rx) hk (by decide : 8 < 32) 1
  have hlen := truncLen_counting hp hk ((counting_fecCounted hk s rx).trans (h8.trans (counting_frameCounted (p := p) hk _ d)))
  rw [State.frameCut, hlen]
  obtain ⟨h0, h1, harr, hkept⟩ := arrived_frameCounted hp hk ((s.fecCounted p k rx).pCount p k 8) d
    ((d ++ leBytes 4 (ethFcs d)).take (s.truncLen p k)) true
  have hbefore {c : Nat} (hc : c < 8) := rdN_pCount_ne (p' := p) hp hk (by omega : c < 32) (s.fecCounted p k rx) hk
    (by decide : 8 < 32) hc.ne 1
  exact ⟨counted_of_fecCounted hp hk (by decide) (by decide)
      (counted_of_kept (counted_pCount hp hk (by decide) _ 1) (hkept 8 (by decide) (by decide))),
    counted_of_fecCounted hp hk (by decide) (by decide) (counted_after (hbefore (by decide)) h0),
    counted_of_fecCounted hp hk (by decide) (by decide) (counted_after (hbefore (by decide)) h1),
    ((counting_fecCounted hk s rx).trans h8).arrived harr⟩

theorem control_ends (s : State) (rx : Reception) (d : List Byte) :
    FecKept s ((s.fecCounted p k rx).macControl p k d) p k rx :=
  (fecKept_fecCounted hp hk s rx).work hp hk (portWork_macControl hk _ d) (by decide)

end

end

/-- Settles O31: FRAME_RECEIVE is the counts of FEC and then the checks of R136 in their order (`frameRx_eq`); a truncated frame
is taken from data and FCS together, which is log entry 142. -/
theorem frameReception : Obligations.FrameReception := by
  unfold Obligations.FrameReception
  intro port sub data rx s p k c len max kept cut arrived
  have hp : p < 32 := port.isLt
  have hk : k < 8 := sub.isLt
  have hexec := exec_frameReceive port sub data rx s
  refine ⟨fun h => ?_, fun h h3 => ?_, fun hon hl ha hlow hplain => ?_⟩
  · rw [hexec, h, Bool.false_and, Bool.false_and, if_neg Bool.false_ne_true, frameRx_unlinked h]
  · rw [hexec, h, Bool.and_false, Bool.false_and, if_neg Bool.false_ne_true, frameRx_deaf h h3]
  have hrecv : Receives s p k := ⟨hon, hl, ha, hlow, hplain⟩
  have hfec := counting_fecCounted (p := p) hk s rx
  have hmax : (s.fecCounted p k rx).rf (Reg.portSubCfg p k) portSubCfg_MAXFRAME = max := hfec.setup.subCfg hp hk (by decide)
  have hovs : (s.fecCounted p k rx).rf (Reg.portSubCfg p k) portSubCfg_OVS_MODE =
      s.rf (Reg.portSubCfg p k) portSubCfg_OVS_MODE := hfec.setup.subCfg hp hk (by decide)
  have hrun : exec c s = .next (if len < 64 then (s.fecCounted p k rx).pCount p k 6
      else if !rx.fcsOk then (s.fecCounted p k rx).pCount p k 5 else (s.fecCounted p k rx).frameJudged p k data) := by
    have h3 : decide (s.pstate ≠ 3) = true := decide_eq_true (by omega)
    rw [hexec, hl, ha, h3, Bool.and_self, Bool.and_self, if_pos rfl, frameRx_eq (hfec.receives hp hrecv)]
  refine ⟨fun h => ⟨_, hrun.trans (by rw [if_pos h]), dropped_ends hp hk s rx (by decide) (by decide)⟩,
    fun h hbad => ⟨_, hrun.trans (by rw [if_neg (Nat.not_lt.mpr h), hbad, Bool.not_false, if_pos rfl]),
      dropped_ends hp hk s rx (by decide) (by decide)⟩, fun hlen hok => ?_⟩
  have hjudged : exec c s = .next (if max < len then
        (if s.rf (Reg.portSubCfg p k) portSubCfg_OVS_MODE = 0 then (s.fecCounted p k rx).pCount p k 7
        else if beNat (slice data 12 2) = 0x8808 then (s.fecCounted p k rx).macControl p k data
        else (s.fecCounted p k rx).frameCut p k data)
      else if beNat (slice data 12 2) = 0x8808 then (s.fecCounted p k rx).macControl p k data
      else (s.fecCounted p k rx).frameTaken p k data) := by
    rw [hrun, if_neg (Nat.not_lt.mpr hlen), hok, Bool.not_true, if_neg Bool.false_ne_true, State.frameJudged, hmax, hovs]
  refine ⟨fun h h0 => ⟨_, hjudged.trans (by rw [if_pos h, if_pos h0]), dropped_ends hp hk s rx (by decide) (by decide)⟩,
    fun h h1 hctl => ⟨_, hjudged.trans (by rw [if_pos h, if_neg h1, if_pos hctl]), control_ends hp hk s rx data⟩,
    fun h h1 hctl => ⟨_, hjudged.trans (by rw [if_pos h, if_neg h1, if_neg hctl]), ?_⟩,
    fun h hctl => ⟨_, hjudged.trans (by rw [if_neg (Nat.not_lt.mpr h), if_pos hctl]), control_ends hp hk s rx data⟩,
    fun h hctl => ⟨_, hjudged.trans (by rw [if_neg (Nat.not_lt.mpr h), if_neg hctl]), taken_ends hp hk s rx data⟩⟩
  exact cut_ends hp hk s rx data

end Sys2Proof.Machine
end

section
/-! LINK and PORT.MODE of ports (R132, R133, R135, R155): what a change of LINK and a write of PORT.MODE do. -/

namespace Sys2Proof.Machine

open Sys2Proof.Safety

/-! ### LINK (R135) -/

section
variable {s t u : State} {p k : Nat} {cs : List Nat}

theorem inCounters_portCnt {c i : Nat} (p : Nat) (hk : k < 8) (hc : c < 32) (hi : i < 2) : InCounters (Reg.portCnt p k c + 4 * i) := by
  simp only [InCounters, Reg.portCnt, ctlAddr]
  omega

theorem portStatus_apart (p : Nat) : ¬InCounters (Reg.portStatus p) := by
  simp only [InCounters, Reg.portStatus, ctlAddr]
  omega

theorem portStatus_le (hp : p < 32) : Reg.portStatus p ≤ Reg.devStatus 0 := by
  simp only [devStatus_zero, Reg.portStatus, ctlAddr]
  omega

theorem portMode_le (hp : p < 32) : Reg.portMode p ≤ Reg.devStatus 0 ∧ ¬InCounters (Reg.portMode p) ∧ Reg.portMode p ≠ Reg.portStatus p := by
  simp only [InCounters, devStatus_zero, Reg.portMode, Reg.portStatus, ctlAddr]
  omega

/-- A field within one word apart from the counters. -/
theorem portWork_setRf (s : State) {a : Nat} {f : Fld} (hf : f.lo < 32) (hw : f.words = 1) (ha : ¬InCounters a) (v : Nat) :
    PortWork cs s (s.setRf a f v) :=
  portWork_of_setup (congrArg (fun x : State => { x with pauses := s.pauses }) (s.setRf_only a f v) :) fun p _ _ _ hk hc =>
    State.rdN_congr fun _ hi => State.rd_setRf_word _ v hf hw fun e => ha (e ▸ inCounters_portCnt p hk hc hi)

/-- LINK and FEC_LOCK of a sub-port are set. -/
def State.linkRise (s : State) (p k : Nat) : State :=
  (s.setRf (Reg.portStatus p) ⟨k, 1⟩ 1).setRf (Reg.portStatus p) ⟨8 + k, 1⟩ 1

theorem bit_words {i : Nat} (h : i < 32) : (⟨i, 1⟩ : Fld).words = 1 := by
  simp only [Fld.words]
  omega

theorem linkRise_ends (s : State) (p : Nat) (hk : k < 8) :
    ((s.linkRise p k).rd (Reg.portStatus p)).getLsbD k = true ∧ ((s.linkRise p k).rd (Reg.portStatus p)).getLsbD (8 + k) = true ∧
    (∀ i, i < 32 → i ≠ k → i ≠ 8 + k → ((s.linkRise p k).rd (Reg.portStatus p)).getLsbD i = (s.rd (Reg.portStatus p)).getLsbD i) ∧
    (∀ b, b ≠ Reg.portStatus p → (s.linkRise p k).rd b = s.rd b) ∧ { s.linkRise p k with regs := s.regs } = s := by
  have hbit {i : Nat} (hi : i < 32) : ((s.linkRise p k).rd (Reg.portStatus p)).getLsbD i =
      if i = 8 + k then true else if i = k then true else (s.rd (Reg.portStatus p)).getLsbD i := by
    rw [State.linkRise, getLsbD_setRf_bit _ _ _ (by omega) hi, getLsbD_setRf_bit _ _ _ (by omega) hi]
    rfl
  refine ⟨?_, ?_, fun i hi h1 h2 => ?_, fun b hb => ?_, State.onlyRegs_trans (s.setRf_only _ _ _) (State.setRf_only _ _ _ _)⟩
  · rw [hbit (by omega), if_neg (by omega), if_pos rfl]
  · rw [hbit (by omega), if_pos rfl]
  · rw [hbit hi, if_neg h2, if_neg h1]
  · rw [State.linkRise, State.rd_setRf_word _ _ (by simp only; omega) (bit_words (by omega)) hb,
      State.rd_setRf_word _ _ (by simp only; omega) (bit_words (by omega)) hb]

/-- The PFC frames that wait at the MAC are given up. -/
def State.dropPfc (s : State) (p k : Nat) : State := s.setMac p k { s.mac p k with pfc := [] }

/-- LINK and FEC_LOCK of a sub-port fall, and LINK_LOST is set. -/
def State.linkLost (s : State) (p k : Nat) : State :=
  ((s.setRf (Reg.portStatus p) ⟨k, 1⟩ 0).setRf (Reg.portStatus p) ⟨8 + k, 1⟩ 0).setRf (Reg.portStatus p) ⟨16 + k, 1⟩ 1

theorem linkFall_eq (s : State) (p : Nat) (hk : k < 8) : s.linkFall p k =
    if (s.rd (Reg.portStatus p)).getLsbD k then ((s.dropPfc p k).linkLost p k).pCount p k 30
    else (s.dropPfc p k).setRf (Reg.portStatus p) ⟨8 + k, 1⟩ 0 := by
  have hbit : bit ((s.dropPfc p k).rf (Reg.portStatus p) portStatus_LINK) k = (s.rd (Reg.portStatus p)).getLsbD k := by
    rw [bit_eq_testBit, testBit_rf_word _ _ (by decide) (by decide), decide_eq_true (by exact hk : k < portStatus_LINK.width),
      Bool.true_and, Nat.zero_add]
    rfl
  rw [← hbit]
  rfl

section
variable (hk : k < 8)
include hk

theorem portWork_linkLost (s : State) (p : Nat) : PortWork cs s (s.linkLost p k) := by
  have hset {i v : Nat} (hi : i < 32) (s : State) : PortWork cs s (s.setRf (Reg.portStatus p) ⟨i, 1⟩ v) :=
    portWork_setRf s hi (bit_words hi) (portStatus_apart p) v
  exact ((hset (by omega) s).trans (hset (by omega) _)).trans (hset (by omega) _)

theorem portWork_linkFall (s : State) (p : Nat) : PortWork [30] s (s.linkFall p k) := by
  have hdrop : PortWork [30] s (s.dropPfc p k) := portWork_setMac s p k []
  rw [linkFall_eq s p hk]
  split
  · exact (hdrop.trans (portWork_linkLost hk _ p)).trans (portWork_pCount _ hk (by decide) (by decide) 1)
  · exact hdrop.trans (portWork_setRf _ (by simp only; omega) (bit_words (by omega)) (portStatus_apart p) 0)

theorem pfc_linkFall (s : State) (p : Nat) : ((s.linkFall p k).mac p k).pfc = [] := by
  have hmac : ((s.dropPfc p k).mac p k).pfc = [] := by rw [State.dropPfc, mac_setMac_self]
  rw [linkFall_eq s p hk]
  split
  · have hcount := counting_pCount (p := p) ((s.dropPfc p k).linkLost p k) hk (by decide : 30 < 32) 1
    rw [mac_congr (hcount.links.macs.trans (show ((s.dropPfc p k).linkLost p k).macs = (s.dropPfc p k).macs by
      simp only [State.linkLost, State.setRf_macs])), hmac]
  · rw [mac_congr (State.setRf_macs ..), hmac]

/-- Registers apart from the port's status and the counters. -/
theorem rd_linkFall (s : State) {b : Nat} (hb : b ≤ Reg.devStatus 0) (hq : ¬InCounters b) (hne : b ≠ Reg.portStatus p) :
    (s.linkFall p k).rd b = s.rd b := by
  have hset {i v : Nat} (hi : i < 32) (s : State) : (s.setRf (Reg.portStatus p) ⟨i, 1⟩ v).rd b = s.rd b :=
    State.rd_setRf_word _ v hi (bit_words hi) hne
  rw [linkFall_eq s p hk]
  split
  · rw [(counting_pCount (p := p) ((s.dropPfc p k).linkLost p k) hk (by decide) 1).setup b hb hq, State.linkLost, hset (by omega),
      hset (by omega), hset (by omega)]
    rfl
  · rw [hset (by omega)]
    rfl

/-- The bits of the sub-port after LINK has fallen. -/
theorem status_linkFall (hp : p < 32) (s : State) :
    ((s.linkFall p k).rd (Reg.portStatus p)).getLsbD k = false ∧ ((s.linkFall p k).rd (Reg.portStatus p)).getLsbD (8 + k) = false ∧
    ((s.rd (Reg.portStatus p)).getLsbD k = true → ((s.linkFall p k).rd (Reg.portStatus p)).getLsbD (16 + k) = true ∧
      Counted s (s.linkFall p k) p k 30 1) := by
  rw [linkFall_eq s p hk]
  split
  · next h =>
    have hlost {i : Nat} (hi : i < 32) : (((s.dropPfc p k).linkLost p k).rd (Reg.portStatus p)).getLsbD i =
        if i = 16 + k then true else if i = 8 + k then false else if i = k then false else (s.rd (Reg.portStatus p)).getLsbD i := by
      rw [State.linkLost, getLsbD_setRf_bit _ _ _ (by omega) hi, getLsbD_setRf_bit _ _ _ (by omega) hi,
        getLsbD_setRf_bit _ _ _ (by omega) hi]
      rfl
    rw [(counting_pCount (p := p) ((s.dropPfc p k).linkLost p k) hk (by decide) 1).setup _ (portStatus_le hp) (portStatus_apart p), hlost (by omega), hlost (by omega),
      hlost (by omega), if_neg (by omega), if_neg (by omega), if_pos rfl, if_neg (by omega), if_pos rfl, if_pos rfl]
    refine ⟨rfl, rfl, fun _ => ⟨rfl, ?_⟩⟩
    have hwork : PortWork [] s ((s.dropPfc p k).linkLost p k) := (portWork_setMac s p k []).trans (portWork_linkLost hk _ p)
    exact counted_after (hwork.counter p k 30 hp hk (by decide) (by decide)) (counted_pCount hp hk (by decide) _ 1)
  · next h =>
    have hbit {i : Nat} (hi : i < 32) : (((s.dropPfc p k).setRf (Reg.portStatus p) ⟨8 + k, 1⟩ 0).rd (Reg.portStatus p)).getLsbD i =
        if i = 8 + k then false else (s.rd (Reg.portStatus p)).getLsbD i := by
      rw [getLsbD_setRf_bit _ _ _ (by omega) hi]
      rfl
    rw [hbit (by omega), hbit (by omega), if_neg (by omega), if_pos rfl]
    exact ⟨Bool.eq_false_iff.mpr h, rfl, fun h' => absurd h' h⟩

end

/-- What the fall of LINK begins from: a frame that it cuts off has been counted as an FCS error (R155). -/
def State.cutOff (s : State) (p k : Nat) (mid : Bool) : State :=
  if mid && s.linked p k && s.accepts (1 + p) then s.pCount p k 5 else s

theorem counting_cutOff (s : State) (p : Nat) (hk : k < 8) (mid : Bool) : Counting s (s.cutOff p k mid) := by
  unfold State.cutOff
  split
  · exact counting_pCount s hk (by decide) 1
  · exact Counting.refl s

theorem portWork_cutOff (s : State) (p : Nat) (hk : k < 8) (mid : Bool) : PortWork [5] s (s.cutOff p k mid) := by
  unfold State.cutOff
  split
  · exact portWork_pCount s hk (by decide) (by decide) 1
  · exact PortWork.refl s

end

/-! ### PORT.MODE (R133) -/

section
variable {p : Nat}

theorem Tab.get_filter {α : Type} (d : α) (keep : Nat → Bool) (t : Tab α) (j : Nat) :
    Tab.get d (t.filter fun e => keep e.1) j = if keep j then Tab.get d t j else d := by
  induction t with
  | nil => simp
  | cons e t ih =>
    obtain ⟨a, v⟩ := e
    by_cases ha : keep a = true
    · rw [List.filter_cons_of_pos (p := fun e : Nat × α => keep e.1) ha]
      by_cases hj : j = a
      · subst hj
        simp [Tab.get, ha]
      · simp only [Tab.get, hj, if_false, ih]
    · rw [List.filter_cons_of_neg (p := fun e : Nat × α => keep e.1) ha, ih]
      by_cases hj : j = a
      · subst hj
        simp [ha]
      · simp only [Tab.get, hj, if_false]

/-- All words of the row stand below offset `m` of its island. -/
def RegDesc.below (d : RegDesc) (m : Nat) : Bool :=
  match d.dims with
  | [] => decide (d.offset + 4 * d.words ≤ m)
  | (st, n) :: _ => decide (0 < st) && decide (d.offset + st * n ≤ m)

theorem wordAt_below {d : RegDesc} {m a : Nat} (h : d.below m = true) (ha : m ≤ a % 0x1000000) : d.wordAt a = none := by
  unfold RegDesc.wordAt
  split
  · unfold RegDesc.below at h
    split at h
    · next hd =>
      rw [hd]
      have h := of_decide_eq_true h
      exact if_neg (by omega)
    · next st n ds hd =>
      rw [hd]
      simp only [Bool.and_eq_true, decide_eq_true_eq] at h
      refine if_neg fun hlt => ?_
      have := (Nat.div_lt_iff_lt_mul h.1).mp hlt
      rw [Nat.mul_comm] at this
      omega
  · rfl

/-- A word all of whose rows either have no reset value or stand elsewhere resets to zero. -/
theorem resetWord_zero {d : RegDesc} (h : ∀ f ∈ d.fields, f.reset = 0) (w : Nat) : d.resetWord w = 0 := by
  have hfold : ∀ (fs : List FieldDesc), (∀ f ∈ fs, f.reset = 0) → fs.foldl (fun m f => m ||| f.resetIn w) 0 = 0 := by
    intro fs
    induction fs with
    | nil => exact fun _ => rfl
    | cons f fs ih =>
      intro hf
      obtain ⟨h0, hfs⟩ := List.forall_mem_cons.mp hf
      have hreset : f.resetIn w = 0 := by simp [FieldDesc.resetIn, h0]
      rw [List.foldl_cons, hreset]
      exact ih hfs
  rw [RegDesc.resetWord, hfold _ h]
  rfl

theorem findReg_resets {ds : List RegDesc} {m a : Nat} (ha : m ≤ a % 0x1000000)
    (h : ∀ d ∈ ds, (∀ f ∈ d.fields, f.reset = 0) ∨ d.below m = true) {d : RegDesc} {w : Nat} (hd : findReg ds a = some (d, w)) :
    d.resetWord w = 0 := by
  induction ds with
  | nil => cases hd
  | cons x ds ih =>
    obtain ⟨hx, hds⟩ := List.forall_mem_cons.mp h
    rw [findReg] at hd
    split at hd
    · next hw =>
      cases hd
      exact resetWord_zero (hx.resolve_right fun hb => by rw [wordAt_below hb ha] at hw; cases hw) w
    · exact ih hds hd

/-- The rows of a port from its counters on reset to zero (R142). -/
theorem regReset_port {a : Nat} (hi : 0x1000000 ≤ a ∧ a < 0x21000000) (ha : 0x2000 ≤ a % 0x1000000) : regReset a = 0 := by
  have hport : regsOf (a / 0x1000000) = regsPort := by
    rw [regsOf, if_neg (by omega), if_pos (by omega)]
  rw [regReset, regAt, hport]
  split
  · next h => exact findReg_resets ha (by decide) h
  · rfl

/-- HALF is set for each counter of the port whose bit 39 falls (R141). -/
def State.halvesSet (s : State) (p : Nat) : State :=
  (List.range 256).foldl (fun s i =>
    if bit (s.rdN (Reg.portCnt p (i / 32) (i % 32)) 2) 39 then s.setHalf p (i / 32) (i % 32) else s) s

/-- Does an address stand apart from the counters of port `p`? -/
def apartFromCounters (p a : Nat) : Bool := !decide (ctlAddr (1 + p) 0x2000 ≤ a ∧ a < ctlAddr (1 + p) 0x2000 + 0x800)

theorem framesKept_settings {s t : State} (h : FramesKept s t) (r : Tab W32) (q : Tab (List PtpRec)) :
    FramesKept s { t with regs := r, ptp := q } := h

/-- A change of SPLIT zeroes the counters and empties the queue of timestamps. -/
def State.splitChanged (s : State) (p : Nat) : State :=
  let u := s.halvesSet p
  { u with regs := u.regs.filter fun e => apartFromCounters p e.1, ptp := Tab.del u.ptp p }

/-- LINK falls at the sub-ports that are not enabled. -/
def State.linkFalls (s : State) (p : Nat) : State :=
  (List.range 8).foldl (fun s k => if s.subOn p k then s else s.linkFall p k) s

/-- PORT.MODE takes the bits of its fields. -/
def State.modeWritten (s : State) (p v : Nat) : State := s.wr (Reg.portMode p) (BitVec.ofNat 32 (v &&& 0xFF0F))

theorem modeWritten_ends (s : State) (p v : Nat) : (s.modeWritten p v).rd (Reg.portMode p) = BitVec.ofNat 32 (v &&& 0xFF0F) ∧
    (s.modeWritten p v).ptp = s.ptp ∧ FramesKept s (s.modeWritten p v) := by
  rw [State.modeWritten]
  exact ⟨State.rd_wr_self _ _ _, State.wr_ptp _ _ _, framesKept_of_links (.of_regs (State.onlyRegs_wr _ _ _))⟩

section
variable (s : State) {v : Nat}

theorem portModeSet_ignored (h : fld v 0 2 ≠ s.rf (Reg.portMode p) portMode_SPLIT) (hen : s.rf (Reg.portMode p) portMode_SUB_EN ≠ 0) :
    s.portModeSet p v = s := by
  simp [State.portModeSet, h, hen]

theorem portModeSet_split (h : fld v 0 2 ≠ s.rf (Reg.portMode p) portMode_SPLIT) (hen : s.rf (Reg.portMode p) portMode_SUB_EN = 0) :
    s.portModeSet p v = ((s.modeWritten p v).splitChanged p).linkFalls p := by
  simp only [State.portModeSet, decide_eq_true h, hen, Bool.true_and, ne_eq, not_true_eq_false, decide_false, Bool.false_eq_true,
    if_false, if_true]
  rfl

theorem portModeSet_same (h : fld v 0 2 = s.rf (Reg.portMode p) portMode_SPLIT) :
    s.portModeSet p v = (s.modeWritten p v).linkFalls p := by
  simp only [State.portModeSet, h, ne_eq, not_true_eq_false, decide_false, Bool.false_and, Bool.false_eq_true, if_false]
  rfl

theorem portWork_linkFalls (p : Nat) : PortWork [30] s (s.linkFalls p) :=
  portWork_foldl _ _ (fun s k hk => by
    split
    · exact PortWork.refl s
    · exact portWork_linkFall (List.mem_range.mp hk) s p) s

theorem counting_halvesSet (p : Nat) : Counting s (s.halvesSet p) :=
  counting_foldl _ _ (fun s i hi => by
    split
    · exact counting_setHalf s (by have := List.mem_range.mp hi; omega) (Nat.mod_lt _ (by decide))
    · exact Counting.refl s) s

theorem rd_splitChanged (p b : Nat) : (s.splitChanged p).rd b = if apartFromCounters p b then (s.halvesSet p).rd b else regReset b :=
  Tab.get_filter _ (apartFromCounters p) _ _

variable (hp : p < 32)
include hp

theorem rd_linkFalls (s : State) : (s.linkFalls p).rd (Reg.portMode p) = s.rd (Reg.portMode p) := by
  obtain ⟨hle, hq, hne⟩ := portMode_le hp
  have hfold : ∀ (l : List Nat) (s : State), (∀ k ∈ l, k < 8) →
      (l.foldl (fun s k => if s.subOn p k then s else s.linkFall p k) s).rd (Reg.portMode p) = s.rd (Reg.portMode p) := by
    intro l
    induction l with
    | nil => exact fun _ _ => rfl
    | cons k l ih =>
      intro s hl
      obtain ⟨hk, hl⟩ := List.forall_mem_cons.mp hl
      rw [List.foldl_cons, ih _ hl]
      split
      · rfl
      · exact rd_linkFall hk s hle hq hne
  exact hfold _ s fun k hk => List.mem_range.mp hk

/-- After a change of SPLIT PORT.MODE is as written, the counters read zero, and no timestamp waits. -/
theorem splitChanged_ends (s : State) : (s.splitChanged p).rd (Reg.portMode p) = s.rd (Reg.portMode p) ∧
    Tab.get [] (s.splitChanged p).ptp p = [] ∧
    (∀ k c, k < 8 → c < 32 → (s.splitChanged p).rdN (Reg.portCnt p k c) 2 = 0) ∧ FramesKept s (s.splitChanged p) := by
  obtain ⟨hle, hq, -⟩ := portMode_le hp
  have hhalves := counting_halvesSet s p
  refine ⟨?_, ?_, fun k c hk hc => ?_, framesKept_settings (framesKept_of_links hhalves.links) _ _⟩
  · have happ : apartFromCounters p (Reg.portMode p) = true := by
      rw [apartFromCounters, Bool.not_eq_true', decide_eq_false_iff_not]
      simp only [Reg.portMode, ctlAddr]
      omega
    rw [rd_splitChanged, if_pos happ, hhalves.setup _ hle hq]
  · exact (Tab.get_del _ _ _ _).trans (if_pos rfl)
  · have hzero {i : Nat} (hi : i < 2) : (s.splitChanged p).rd (Reg.portCnt p k c + 4 * i) = 0 := by
      have happ : apartFromCounters p (Reg.portCnt p k c + 4 * i) = false := by
        rw [apartFromCounters, Bool.not_eq_false', decide_eq_true_eq]
        simp only [Reg.portCnt, ctlAddr]
        omega
      rw [rd_splitChanged, happ, if_neg Bool.false_ne_true]
      refine regReset_port ?_ (inCounters_portCnt p hk hc hi).1
      simp only [Reg.portCnt, ctlAddr]
      omega
    have h0 : (s.splitChanged p).rd (Reg.portCnt p k c) = 0 := by simpa using hzero (i := 0) (by decide)
    have h1 : (s.splitChanged p).rd (Reg.portCnt p k c + 4) = 0 := by simpa using hzero (i := 1) (by decide)
    rw [State.rdN, State.rdN, State.rdN, h0, h1]
    rfl

end

end

end Sys2Proof.Machine
end

section
/-! Transmission (R138, R140, R144, R149 to R151): the frame that the MAC takes, the end of its transmission, the queue of
timestamps, and obligation O33. -/

namespace Sys2Proof.Machine

open Sys2Proof.Safety

/-! ### The end of a frame's charges (R196) -/

section
variable {s t u : State}

/-- The fabric's accounting is apart from the counters of ports. -/
theorem pfcSent_setIaccUse (s : State) (e : Nat) (f : Fld) (v : Nat) : PfcSent s (s.setRf (Reg.iaccUse e) f v) :=
  .of_setup (congrArg (fun x : State => { x with pauses := s.pauses }) (s.setRf_only _ _ _) :) fun p k c hp hk hc =>
    State.rdN_congr fun i hi => s.rd_setRf_ne _ _ _ _ fun j hj => by
      simp only [Reg.portCnt, Reg.iaccUse, ctlAddr]
      omega

theorem pfcSent_iaccReport (s : State) (e : Nat) (on : Bool) : PfcSent s (s.iaccReport e on) := by
  unfold State.iaccReport
  dsimp only
  split
  · exact PfcSent.refl s
  · exact (pfcSent_setIaccUse s e _ _).trans (pfcSent_sendPfc _ _ _)

theorem pfcSent_iaccRelease (s : State) (e n : Nat) : PfcSent s (s.iaccRelease e n) := by
  have hused := pfcSent_setIaccUse s e iaccUse_USED (s.rf (Reg.iaccUse e) iaccUse_USED - n)
  unfold State.iaccRelease
  dsimp only
  split
  · exact hused.trans (pfcSent_iaccReport _ _ _)
  · exact hused

/-- A frame that goes ends its charge, which may send PFC frames; beside that frames alone change. -/
theorem removeFrame_eq (s : State) (fid : Nat) : ∃ u fs, PfcSent s u ∧ s.removeFrame fid = { u with frames := fs } := by
  have hun : ∃ u fs, PfcSent s u ∧ s.uncharge fid = { u with frames := fs } := by
    unfold State.uncharge
    dsimp only
    split
    · exact ⟨_, _, pfcSent_iaccRelease s _ _, rfl⟩
    · exact ⟨s, _, PfcSent.refl s, rfl⟩
  obtain ⟨u, fs, hu, he⟩ := hun
  unfold State.removeFrame
  dsimp only
  rw [he]
  split
  · exact ⟨u, _, hu, rfl⟩
  · exact ⟨u, _, hu, rfl⟩

/-! ### What transmission leaves alone -/

/-- At a sub-port's MAC nothing has changed, of the port counters only those numbered in `cs` have, memory has not, and what was
shown to the outside still is. -/
structure TxKept (p k : Nat) (cs : List Nat) (s t : State) : Prop where
  out : s.out <+: t.out
  mac : t.mac p k = s.mac p k
  mem : t.mem = s.mem
  counter : ∀ c, c < 32 → c ∉ cs → t.rdN (Reg.portCnt p k c) 2 = s.rdN (Reg.portCnt p k c) 2

variable {p k : Nat} {cs : List Nat}

theorem TxKept.refl (s : State) : TxKept p k cs s s := ⟨List.prefix_rfl, rfl, rfl, fun _ _ _ => rfl⟩

theorem TxKept.trans {cs' : List Nat} (h : TxKept p k cs s t) (h' : TxKept p k cs' t u) : TxKept p k (cs ++ cs') s u where
  out := h.out.trans h'.out
  mac := h'.mac.trans h.mac
  mem := h'.mem.trans h.mem
  counter c hc hn := by
    rw [List.mem_append, not_or] at hn
    exact (h'.counter c hc hn.2).trans (h.counter c hc hn.1)

variable (hp : p < 32) (hk : k < 8)
include hp hk

theorem txKept_pCount (s : State) {c : Nat} (hc : c < 32) (n : Nat) : TxKept p k [c] s (s.pCount p k c n) := by
  have h := counting_pCount (p := p) s hk hc n
  exact ⟨h.out, mac_congr h.links.macs p k, h.links.mem,
    fun c' hc' hn => rdN_pCount_ne hp hk hc' s hk hc (List.ne_of_not_mem_cons hn) n⟩

theorem txKept_removeFrame (fid : Nat) (h : (s.mac p k).tx = none) :
    TxKept p k [18] s (s.removeFrame fid) ∧ (s.removeFrame fid).ptp = s.ptp := by
  obtain ⟨u, fs, hu, he⟩ := removeFrame_eq s fid
  rw [he]
  exact ⟨⟨hu.work.out, hu.idle p k h, (congrArg State.mem hu.work.rest :), fun c hc hn => hu.work.counter p k c hp hk hc hn⟩,
    (congrArg State.ptp hu.work.rest :)⟩

theorem txKept_emitPfc (s : State) (tc time : Nat) :
    TxKept p k [18] s (s.emitPfc p k tc time) ∧ (s.emitPfc p k tc time).ptp = s.ptp :=
  have hcount := counting_pCount (p := p) (s.emit (.pfc p k tc time)) hk (by decide : 18 < 32) 1
  ⟨(⟨out_emit s _, rfl, rfl, fun _ _ _ => rfl⟩ : TxKept p k [] s (s.emit (.pfc p k tc time))).trans
    (txKept_pCount hp hk _ (by decide) 1), hcount.links.ptp⟩

/-- PFC frames sent one after the other. -/
theorem foldl_emitPfc_ends (l : List (Nat × Nat)) (s : State) :
    let t := l.foldl (fun s x => s.emitPfc p k x.1 x.2) s
    (∀ y ∈ l, .pfc p k y.1 y.2 ∈ t.out) ∧ TxKept p k [18] s t ∧ t.ptp = s.ptp := by
  induction l generalizing s with
  | nil => exact ⟨fun _ hy => absurd hy List.not_mem_nil, TxKept.refl s, rfl⟩
  | cons x l ih =>
    obtain ⟨hx, hptp⟩ := txKept_emitPfc hp hk s x.1 x.2
    obtain ⟨hin, hkept, hptp'⟩ := ih (s.emitPfc p k x.1 x.2)
    obtain ⟨hsent, -, -⟩ := emitPfc_sent s hp hk x.1 x.2
    refine ⟨List.forall_mem_cons.mpr ⟨hkept.out.subset hsent, hin⟩, ?_, hptp'.trans hptp⟩
    exact ⟨hx.out.trans hkept.out, hkept.mac.trans hx.mac, hkept.mem.trans hx.mem,
      fun c hc hn => (hkept.counter c hc hn).trans (hx.counter c hc hn)⟩

/-- The PFC frames that waited have been sent. -/
theorem flushPfc_ends (s : State) :
    let t := s.flushPfc p k
    t.mac p k = { s.mac p k with pfc := [] } ∧ (∀ y ∈ (s.mac p k).pfc, .pfc p k y.1 y.2 ∈ t.out) ∧ s.out <+: t.out ∧
      t.mem = s.mem ∧ t.ptp = s.ptp ∧
      ∀ c, c < 32 → c ≠ 18 → t.rdN (Reg.portCnt p k c) 2 = s.rdN (Reg.portCnt p k c) 2 := by
  obtain ⟨hin, hkept, hptp⟩ := foldl_emitPfc_ends hp hk (s.mac p k).pfc (s.dropPfc p k)
  exact ⟨hkept.mac.trans (mac_setMac_self _ _ _ _), hin, hkept.out, hkept.mem, hptp,
    fun c hc hn => hkept.counter c hc fun h => hn (List.mem_singleton.mp h)⟩

end

/-! ### FRAME_TRANSMIT (R138) -/

section
variable {s : State} {port : Fin 32} {sub : Fin 8}

theorem exec_frameTransmit_stays (h : s.stopped = false) (hn : (s.mac port.val sub.val).tx ≠ none ∨
    (∀ fid ∈ (s.mac port.val sub.val).waiting, s.txReady port.val sub.val fid = false) ∨ s.linked port.val sub.val = false) :
    exec (.frameTransmit port sub) s = .next s := by
  show execFrameTransmit port sub s = _
  rw [execFrameTransmit, h, if_neg Bool.false_ne_true]
  refine congrArg Host.Outcome.next ?_
  split
  · next fid htx hfind =>
    obtain hn | hn | hn := hn
    · exact absurd htx hn
    · have := hn fid (List.mem_of_find?_eq_some hfind)
      rw [List.find?_some hfind] at this
      cases this
    · rw [hn, Bool.not_false, if_pos rfl]
  · rfl

/-- The frame as the MAC takes it, padded to 60 bytes. -/
def State.padded (s : State) (fid : Nat) : List Byte :=
  (s.frame fid).data ++ List.replicate (60 - (s.frame fid).data.length) 0

/-- The first frame that no pause holds back. -/
theorem exec_frameTransmit {held rest : List Nat} {fid : Nat} (h : s.stopped = false) (htx : (s.mac port.val sub.val).tx = none)
    (hw : (s.mac port.val sub.val).waiting = held ++ fid :: rest) (hheld : ∀ x ∈ held, s.txReady port.val sub.val x = false)
    (hready : s.txReady port.val sub.val fid = true) (hl : s.linked port.val sub.val = true) :
    let m := s.mac port.val sub.val
    exec (.frameTransmit port sub) s = .next
      (if s.rf (Reg.portSubCfg port.val sub.val) portSubCfg_MAXFRAME < (s.padded fid).length + 4 then
        ((s.setMac port.val sub.val { m with waiting := held ++ rest }).removeFrame fid).pCount port.val sub.val 31
      else s.setMac port.val sub.val { m with
        waiting := held ++ rest
        tx := some ⟨fid, (s.ptpSend port.val sub.val (s.padded fid)).1, (s.ptpSend port.val sub.val (s.padded fid)).2⟩ }) := by
  have hfind : (s.mac port.val sub.val).waiting.find? (s.txReady port.val sub.val) = some fid := by
    rw [List.find?_eq_some_iff_append]
    exact ⟨hready, held, rest, hw, fun x hx => by rw [hheld x hx]; rfl⟩
  have hnot : fid ∉ held := fun hm => by
    rw [hheld fid hm] at hready
    cases hready
  have herase : (s.mac port.val sub.val).waiting.erase fid = held ++ rest := by
    rw [hw, List.erase_append_right _ hnot, List.erase_cons_head]
  show execFrameTransmit port sub s = _
  simp only [execFrameTransmit, h, htx, hfind, herase, hl, Bool.false_eq_true, if_false, Bool.not_true]
  rfl

/-- A frame that is too long is discarded and counted. -/
theorem discarded_ends {p k : Nat} (hp : p < 32) (hk : k < 8) (fid : Nat) {l : List Nat} (htx : (s.mac p k).tx = none) :
    let t := ((s.setMac p k { s.mac p k with waiting := l }).removeFrame fid).pCount p k 31
    (t.mac p k).waiting = l ∧ (t.mac p k).tx = none ∧ Counted s t p k 31 1 ∧ t.mem = s.mem := by
  have hmac := mac_setMac_self s p k { s.mac p k with waiting := l }
  obtain ⟨hgone, -⟩ := txKept_removeFrame hp hk fid (s := s.setMac p k { s.mac p k with waiting := l }) (by rw [hmac]; exact htx)
  have hcount := counting_pCount (p := p) ((s.setMac p k { s.mac p k with waiting := l }).removeFrame fid) hk (by decide : 31 < 32) 1
  dsimp only
  rw [mac_congr hcount.links.macs, hgone.mac, hmac]
  exact ⟨rfl, htx, counted_after (hgone.counter 31 (by decide) (by decide)) (counted_pCount hp hk (by decide) _ 1),
    hcount.links.mem.trans hgone.mem⟩

theorem ptpSend_none {d : List Byte} (p k : Nat) (h : ptpHeader d = none) : s.ptpSend p k d = (d, none) := by
  rw [State.ptpSend, h]

end

/-! ### FRAME_TX_COMPLETE (R140, R144, R150) -/

section
variable {s : State} {p k : Nat}

/-- A two-step record waits in the port's queue, or is lost and counted. -/
def State.ptpQueue (s : State) (p k : Nat) : Option PtpRec → State
  | some r => if (Tab.get [] s.ptp p).length < 64 then { s with ptp := Tab.put s.ptp p (Tab.get [] s.ptp p ++ [r]) } else s.pCount p k 29
  | none => s

/-- The frame has been shown and counted. -/
def State.frameShown (s : State) (p k : Nat) (x : TxFrame) : State :=
  let u := (s.setMac p k { s.mac p k with tx := none }).emit (.portFrame p k x.bytes (decide ((s.frame x.fid).gf sfStomp = 1)))
  let u := (u.pCount p k 15).pCount p k 16 (x.bytes.length + 4)
  if (s.frame x.fid).gf sfStomp = 1 then u.pCount p k 17 else u

theorem exec_frameTxComplete_idle {port : Fin 32} {sub : Fin 8} (h : (s.mac port.val sub.val).tx = none) :
    exec (.frameTxComplete port sub) s = .next s := by
  show execFrameTxComplete port sub s = _
  simp only [execFrameTxComplete, h]

theorem exec_frameTxComplete {port : Fin 32} {sub : Fin 8} {x : TxFrame} (h : (s.mac port.val sub.val).tx = some x) :
    exec (.frameTxComplete port sub) s = .next ((((s.frameShown port.val sub.val x).ptpQueue port.val sub.val x.ptp).removeFrame
      x.fid).flushPfc port.val sub.val) := by
  show execFrameTxComplete port sub s = _
  rw [execFrameTxComplete]
  simp only [h, State.frameShown, decide_eq_true_eq]
  cases x.ptp <;> rfl

variable (hp : p < 32) (hk : k < 8)
include hp hk

theorem frameShown_ends (s : State) (x : TxFrame) :
    let t := s.frameShown p k x
    .portFrame p k x.bytes (decide ((s.frame x.fid).gf sfStomp = 1)) ∈ t.out ∧ t.mac p k = { s.mac p k with tx := none } ∧
    Counted s t p k 15 1 ∧ Counted s t p k 16 (x.bytes.length + 4) ∧ t.rdN (Reg.portCnt p k 29) 2 = s.rdN (Reg.portCnt p k 29) 2 ∧
    t.ptp = s.ptp ∧ t.mem = s.mem := by
  generalize hstart : (s.setMac p k { s.mac p k with tx := none }).emit
    (.portFrame p k x.bytes (decide ((s.frame x.fid).gf sfStomp = 1))) = u
  have hout : .portFrame p k x.bytes (decide ((s.frame x.fid).gf sfStomp = 1)) ∈ u.out := by
    rw [← hstart]
    exact List.mem_append_right _ List.mem_cons_self
  have hmac : u.mac p k = { s.mac p k with tx := none } := by
    rw [← hstart]
    exact mac_setMac_self _ _ _ _
  have hregs : u.regs = s.regs ∧ u.ptp = s.ptp ∧ u.mem = s.mem := by
    rw [← hstart]
    exact ⟨rfl, rfl, rfl⟩
  obtain ⟨hregs, hptp, hmem⟩ := hregs
  have hshown : s.frameShown p k x = if (s.frame x.fid).gf sfStomp = 1 then
      ((u.pCount p k 15).pCount p k 16 (x.bytes.length + 4)).pCount p k 17
      else (u.pCount p k 15).pCount p k 16 (x.bytes.length + 4) := by
    rw [← hstart]
    rfl
  have hcount : Counting u ((u.pCount p k 15).pCount p k 16 (x.bytes.length + 4)) :=
    (counting_pCount u hk (by decide) 1).trans (counting_pCount _ hk (by decide) _)
  have hall : Counting u (s.frameShown p k x) := by
    rw [hshown]
    split
    · exact hcount.trans (counting_pCount _ hk (by decide) 1)
    · exact hcount
  refine ⟨hall.out.subset hout, (mac_congr hall.links.macs _ _).trans hmac, ?_, ?_, ?_, hall.links.ptp.trans hptp,
    hall.links.mem.trans hmem⟩
  · rw [hshown, Counted]
    split <;> simp [rdN_pCount hp hk, rdN_of_regs hregs]
  · rw [hshown, Counted]
    split <;> simp [rdN_pCount hp hk, rdN_of_regs hregs]
  · rw [hshown]
    split <;> simp [rdN_pCount hp hk, rdN_of_regs hregs]

theorem txKept_ptpQueue (s : State) (r : Option PtpRec) : TxKept p k [29] s (s.ptpQueue p k r) := by
  cases r with
  | none => exact TxKept.refl s
  | some r =>
    rw [State.ptpQueue]
    split
    · exact ⟨List.prefix_rfl, rfl, rfl, fun _ _ _ => rdN_of_regs rfl _ _⟩
    · exact txKept_pCount hp hk s (by decide) 1

theorem ptpQueue_full (s : State) (r : PtpRec) (h : 64 ≤ (Tab.get [] s.ptp p).length) :
    (s.ptpQueue p k (some r)).ptp = s.ptp ∧ Counted s (s.ptpQueue p k (some r)) p k 29 1 := by
  rw [State.ptpQueue, if_neg (Nat.not_lt.mpr h)]
  exact ⟨(counting_pCount (p := p) s hk (by decide) 1).links.ptp, counted_pCount hp hk (by decide) s 1⟩

omit hp hk in
theorem ptpQueue_room (s : State) (r : PtpRec) (h : (Tab.get [] s.ptp p).length < 64) :
    Tab.get [] (s.ptpQueue p k (some r)).ptp p = Tab.get [] s.ptp p ++ [r] := by
  rw [State.ptpQueue, if_pos h]
  exact Tab.get_put_self _ _ _ _

/-- The end of a transmission. -/
theorem frameTxComplete_ends (s : State) (x : TxFrame) :
    let m := s.mac p k
    let t := (((s.frameShown p k x).ptpQueue p k x.ptp).removeFrame x.fid).flushPfc p k
    .portFrame p k x.bytes (decide ((s.frame x.fid).gf sfStomp = 1)) ∈ t.out ∧ t.mac p k = { m with tx := none, pfc := [] } ∧
      (∀ y ∈ m.pfc, .pfc p k y.1 y.2 ∈ t.out) ∧
      Counted s t p k 15 1 ∧ Counted s t p k 16 (x.bytes.length + 4) ∧ (x.ptp = none → t.ptp = s.ptp) ∧
      (∀ r, x.ptp = some r → (Tab.get [] s.ptp p).length < 64 → Tab.get [] t.ptp p = Tab.get [] s.ptp p ++ [r]) ∧
      (∀ r, x.ptp = some r → 64 ≤ (Tab.get [] s.ptp p).length → t.ptp = s.ptp ∧ Counted s t p k 29 1) ∧ t.mem = s.mem := by
  intro m t
  obtain ⟨hframe, hmac, h15, h16, h29, hptp, hmem⟩ := frameShown_ends hp hk s x
  have hqueue := txKept_ptpQueue hp hk (s.frameShown p k x) x.ptp
  have hidle : (((s.frameShown p k x).ptpQueue p k x.ptp).mac p k).tx = none := by rw [hqueue.mac, hmac]
  obtain ⟨hgone, hgoneptp⟩ := txKept_removeFrame hp hk x.fid hidle
  obtain ⟨hfmac, hfpfc, hfout, hfmem, hfptp, hfcnt⟩ := flushPfc_ends hp hk (((s.frameShown p k x).ptpQueue p k x.ptp).removeFrame x.fid)
  have hmacs : (((s.frameShown p k x).ptpQueue p k x.ptp).removeFrame x.fid).mac p k = { m with tx := none } :=
    hgone.mac.trans (hqueue.mac.trans hmac)
  have hqptp : t.ptp = ((s.frameShown p k x).ptpQueue p k x.ptp).ptp := hfptp.trans hgoneptp
  have hlast {c : Nat} (hc : c < 32) (hn : c ≠ 18) : t.rdN (Reg.portCnt p k c) 2 =
      ((s.frameShown p k x).ptpQueue p k x.ptp).rdN (Reg.portCnt p k c) 2 :=
    (hfcnt c hc hn).trans (hgone.counter c hc fun h => hn (List.mem_singleton.mp h))
  rw [hmacs] at hfmac hfpfc
  refine ⟨(hqueue.out.trans (hgone.out.trans hfout)).subset hframe, hfmac, hfpfc, ?_, ?_, fun h => ?_, fun r h hroom => ?_,
    fun r h hfull => ?_, hfmem.trans (hgone.mem.trans (hqueue.mem.trans hmem))⟩
  · exact counted_of_kept h15 ((hlast (by decide) (by decide)).trans (hqueue.counter 15 (by decide) (by decide)))
  · exact counted_of_kept h16 ((hlast (by decide) (by decide)).trans (hqueue.counter 16 (by decide) (by decide)))
  · rw [hqptp, h]
    exact hptp
  · rw [hqptp, h, ptpQueue_room _ _ (hptp.symm ▸ hroom), hptp]
  · rw [h] at hqptp hlast
    obtain ⟨hq, hcount⟩ := ptpQueue_full hp hk (s.frameShown p k x) r (hptp.symm ▸ hfull)
    exact ⟨hqptp.trans (hq.trans hptp), counted_of_kept (counted_after h29 hcount) (hlast (by decide) (by decide))⟩

end

/-! ### PTP_POP (R151) -/

section
variable {p : Nat}

theorem ptpPop_ends (s : State) : Tab.get [] (s.ptpPop p).ptp p = (Tab.get [] s.ptp p).drop 1 ∧
    (∀ q, q ≠ p → Tab.get [] (s.ptpPop p).ptp q = Tab.get [] s.ptp q) ∧ { s.ptpPop p with ptp := s.ptp } = s := by
  unfold State.ptpPop
  split
  · next h => exact ⟨by rw [h]; rfl, fun _ _ => rfl, rfl⟩
  · next x q h =>
    rw [h]
    refine ⟨?_, fun j hj => ?_, rfl⟩
    · split
      · next hq =>
        subst hq
        exact (Tab.get_del _ _ _ _).trans (if_pos rfl)
      · exact Tab.get_put_self _ _ _ _
    · split
      · exact (Tab.get_del _ _ _ _).trans (if_neg hj)
      · exact Tab.get_put_ne _ _ _ hj

end

/-! ### The statement -/

section
variable {s : State} {port : Fin 32} {sub : Fin 8}

theorem exec_linkUp (port : Fin 32) (sub : Fin 8) (s : State) : exec (.linkUp port sub) s =
    .next (if s.subOn port.val sub.val then s.linkRise port.val sub.val else s) := rfl

theorem linkUp_ends (h : s.subOn port.val sub.val = true) : exec (.linkUp port sub) s = .next (s.linkRise port.val sub.val) := by
  rw [exec_linkUp, if_pos h]

theorem linkUp_stays (h : s.subOn port.val sub.val = false) : exec (.linkUp port sub) s = .next s := by
  rw [exec_linkUp, h, if_neg Bool.false_ne_true]

theorem linkDown_ends (port : Fin 32) (sub : Fin 8) (s : State) (mid : Bool) :
    let p := port.val
    let k := sub.val
    Ends (.linkDown port ⟨sub, mid⟩) s fun t =>
      (t.rd (Reg.portStatus p)).getLsbD k = false ∧ (t.rd (Reg.portStatus p)).getLsbD (8 + k) = false ∧ FramesKept s t ∧
      (t.mac p k).pfc = [] ∧
      ((s.rd (Reg.portStatus p)).getLsbD k = true → (t.rd (Reg.portStatus p)).getLsbD (16 + k) = true ∧ Counted s t p k 30 1) ∧
      (mid = true → s.linked p k = true → s.accepts (1 + p) = true → Counted s t p k 5 1) := by
  intro p k
  have hp : p < 32 := port.isLt
  have hk : k < 8 := sub.isLt
  have hcut := portWork_cutOff s p hk mid
  have hfall := portWork_linkFall hk (s.cutOff p k mid) p
  obtain ⟨hlink, hlock, hlost⟩ := status_linkFall hk hp (s.cutOff p k mid)
  rw [(counting_cutOff s p hk mid).setup _ (portStatus_le hp) (portStatus_apart p)] at hlost
  refine ⟨(s.cutOff p k mid).linkFall p k, rfl, hlink, hlock, framesKept_trans hcut.framesKept hfall.framesKept,
    pfc_linkFall hk _ p, fun h => ?_, fun hm hl ha => ?_⟩
  · obtain ⟨hbit, hcount⟩ := hlost h
    exact ⟨hbit, counted_after (hcut.counter p k 30 hp hk (by decide) (by decide)) hcount⟩
  · have hcutoff : s.cutOff p k mid = s.pCount p k 5 := by
      rw [State.cutOff, hm, hl, ha, Bool.and_self, Bool.and_self, if_pos rfl]
    rw [hcutoff] at hfall ⊢
    exact counted_of_kept (counted_pCount hp hk (by decide) s 1) (hfall.counter p k 5 hp hk (by decide) (by decide))

theorem exec_portModeWrite (v : W32) (h : Open s (Reg.portMode port.val)) :
    exec (.portModeWrite port v) s = .next ((s.dropHeld (Reg.portMode port.val) 1).portModeSet port.val v.toNat) :=
  congrArg Host.Outcome.next (State.rowWrite_open v.toNat (fun s => s.portModeSet port.val v.toNat) h)

theorem framesKept_dropHeld (s : State) (a n : Nat) : FramesKept s (s.dropHeld a n) := by
  have h := s.dropHeld_only a n
  refine ⟨(congrArg State.frames h :), (congrArg State.nextFrame h :), (congrArg State.lanes h :), fun p k => ?_,
    (congrArg State.mem h :), (congrArg State.threads h :), (congrArg State.stewards h :)⟩
  rw [mac_congr (show (s.dropHeld a n).macs = s.macs from (congrArg State.macs h :))]

/-- A write of PORT.MODE that keeps SPLIT. -/
theorem portModeSet_same_ends {p v : Nat} (hp : p < 32) (s : State) (h : fld v 0 2 = s.rf (Reg.portMode p) portMode_SPLIT) :
    (s.portModeSet p v).rd (Reg.portMode p) = BitVec.ofNat 32 (v &&& 0xFF0F) ∧ (s.portModeSet p v).ptp = s.ptp ∧
      FramesKept s (s.portModeSet p v) := by
  obtain ⟨hmode, hptp, hkept⟩ := modeWritten_ends s p v
  have hwork := portWork_linkFalls (s.modeWritten p v) p
  rw [portModeSet_same s h]
  exact ⟨(rd_linkFalls hp _).trans hmode, hwork.ptp.trans hptp, framesKept_trans hkept hwork.framesKept⟩

/-- A write of PORT.MODE that changes SPLIT while no sub-port is enabled. -/
theorem portModeSet_split_ends {p v : Nat} (hp : p < 32) (s : State) (h : fld v 0 2 ≠ s.rf (Reg.portMode p) portMode_SPLIT)
    (hen : s.rf (Reg.portMode p) portMode_SUB_EN = 0) :
    (s.portModeSet p v).rd (Reg.portMode p) = BitVec.ofNat 32 (v &&& 0xFF0F) ∧ Tab.get [] (s.portModeSet p v).ptp p = [] ∧
      (∀ j c, j < 8 → c < 30 → (s.portModeSet p v).rdN (Reg.portCnt p j c) 2 = 0) ∧ FramesKept s (s.portModeSet p v) := by
  obtain ⟨hmode, -, hkept⟩ := modeWritten_ends s p v
  obtain ⟨hmode', hptp, hzero, hkept'⟩ := splitChanged_ends hp (s.modeWritten p v)
  have hwork := portWork_linkFalls ((s.modeWritten p v).splitChanged p) p
  rw [portModeSet_split s h hen]
  refine ⟨(rd_linkFalls hp _).trans (hmode'.trans hmode), by rw [hwork.ptp, hptp], fun j c hj hc => ?_,
    framesKept_trans hkept (framesKept_trans hkept' hwork.framesKept)⟩
  have hc30 : c ∉ [30] := fun hm => absurd (List.mem_singleton.mp hm) (by omega)
  rw [hwork.counter p j c hp hj (by omega) hc30, hzero j c hj (by omega)]

/-- The part of PORT.MODE that its fields cover. -/
theorem ofNat_modeBits (v : W32) : BitVec.ofNat 32 (v.toNat &&& 0xFF0F) = v &&& 0xFF0F :=
  BitVec.eq_of_toNat_eq (by
    rw [BitVec.toNat_ofNat, BitVec.toNat_and, Nat.mod_eq_of_lt (Nat.and_lt_two_pow _ (by decide))]
    rfl)

theorem exec_ptpPop (h : Open s (Reg.portPtpPop port.val)) :
    exec (.ptpPop port) s = .next ((s.dropHeld (Reg.portPtpPop port.val) 1).ptpPop port.val) :=
  congrArg Host.Outcome.next (State.rowWrite_open 1 (fun s => s.ptpPop port.val) h)

theorem exec_signalDetect (port : Fin 32) (sub : Fin 8) (s : State) : exec (.signalDetect port sub) s =
    .next (if s.rf (Reg.portWakeCfg port.val) portWakeCfg_SD_EN = 1 && s.wakePort port.val && s.subPresent port.val sub.val
      && !bit (Tab.get 0 s.power.linksAt port.val) sub.val then s.latchWake 1 port.val sub.val 0 else s) := rfl

end

/-- Settles O33: that the MAC passes over the frames of paused classes to the first that no pause holds is log entry 126. -/
theorem portTransmission : Obligations.PortTransmission := by
  unfold Obligations.PortTransmission
  intro port sub s p k m bit
  have hp : p < 32 := port.isLt
  have hk : k < 8 := sub.isLt
  refine ⟨fun h => ⟨_, linkUp_ends h, linkRise_ends s p hk⟩, linkUp_stays, linkDown_ends port sub s, fun ho => ?_,
    fun hs => ⟨exec_frameTransmit_stays hs, ?_⟩, exec_frameTxComplete_idle,
    fun x hx => ⟨_, exec_frameTxComplete hx, frameTxComplete_ends hp hk s x⟩, fun ho => ⟨_, exec_ptpPop ho, ?_⟩, ?_⟩
  · intro split taken v
    have hf : fld v.toNat 0 2 = (v.extractLsb' 0 2).toNat := fld_toNat v 0 2
    have hrf (f : Fld) := rf_dropHeld s (Reg.portMode p) 1 (Reg.portMode p) f
    refine ⟨fun hn => ?_, fun ht => ⟨_, exec_portModeWrite v ho, ?_⟩⟩
    · obtain ⟨hne, hen⟩ := not_or.mp hn
      rw [exec_portModeWrite v ho, portModeSet_ignored _ (by rw [hf, hrf]; exact hne) (by rw [hrf]; exact hen)]
    · have hdrop := framesKept_dropHeld s (Reg.portMode p) 1
      rw [← ofNat_modeBits]
      by_cases hsame : (v.extractLsb' 0 2).toNat = split
      · obtain ⟨hmode, hptp, hkept⟩ := portModeSet_same_ends hp (s.dropHeld (Reg.portMode p) 1) (by rw [hf, hrf]; exact hsame)
        exact ⟨hmode, fun h => absurd hsame h, fun _ => hptp.trans (congrArg State.ptp (s.dropHeld_only (Reg.portMode p) 1) :),
          framesKept_trans hdrop hkept⟩
      · obtain ⟨hmode, hptp, hzero, hkept⟩ := portModeSet_split_ends hp (s.dropHeld (Reg.portMode p) 1)
          (by rw [hf, hrf]; exact hsame) (by rw [hrf]; exact ht.resolve_left hsame)
        exact ⟨hmode, fun _ => ⟨hptp, hzero⟩, fun h => absurd h hsame, framesKept_trans hdrop hkept⟩
  · intro held fid rest htx hw hheld hready hl d
    have hrun := exec_frameTransmit hs htx hw hheld hready hl
    refine ⟨fun hlong => ⟨_, hrun.trans (congrArg Host.Outcome.next (if_pos hlong)), ?_⟩,
      fun hfit => ⟨_, hrun.trans (congrArg Host.Outcome.next (if_neg (Nat.not_lt.mpr hfit))), ?_, rfl,
        ⟨⟨fid, (s.ptpSend p k (s.padded fid)).1, (s.ptpSend p k (s.padded fid)).2⟩, ?_, rfl, fun hnone => ?_⟩⟩⟩
    · exact discarded_ends hp hk fid htx
    · rw [mac_setMac_self]
    · rw [mac_setMac_self]
    · have hsend : s.ptpSend p k (s.padded fid) = (d, none) := ptpSend_none p k hnone
      exact ⟨congrArg Prod.fst hsend, congrArg Prod.snd hsend⟩
  · have hd := s.dropHeld_only (Reg.portPtpPop p) 1
    obtain ⟨hpop, hother, honly⟩ := ptpPop_ends (p := p) (s.dropHeld (Reg.portPtpPop p) 1)
    rw [show (s.dropHeld (Reg.portPtpPop p) 1).ptp = s.ptp from (congrArg State.ptp hd :)] at hpop hother
    exact ⟨hpop, hother, (congrArg (fun x : State => { x with ptp := s.ptp, held := s.held }) honly :).trans
      (congrArg (fun x : State => { x with ptp := s.ptp }) hd :)⟩
  · rw [exec_signalDetect]
    refine congrArg Host.Outcome.next (if_congr ?_ rfl rfl)
    simp [subPresent_iff, bit_eq_testBit, and_assoc, p, k]

end Sys2Proof.Machine
end

section
/-! What a cycle of a lane leaves alone, and when a pass is through (R99, R102, R156). -/

namespace Sys2Proof.Machine

open Sys2Proof.Safety

/-! ### What a slot of a stage leaves alone -/

/-- What no slot of a stage changes: the lanes, the boot, and the registers of the islands below the fabric. -/
structure StageKept (s t : State) : Prop where
  lanes : t.lanes = s.lanes
  boot : t.boot = s.boot
  rd : ∀ b, b < 0x41000000 → t.rd b = s.rd b

section
variable {s t u : State} {p q : Pass} {n : Nat} {ecc : Option Nat} {a : Afv} {pr : BitVec 3}

theorem StageKept.refl (s : State) : StageKept s s := ⟨rfl, rfl, fun _ _ => rfl⟩

theorem StageKept.trans (h : StageKept s t) (h' : StageKept t u) : StageKept s u :=
  ⟨h'.lanes.trans h.lanes, h'.boot.trans h.boot, fun b hb => (h'.rd b hb).trans (h.rd b hb)⟩

theorem StageKept.ite {c : Prop} [Decidable c] (ht : StageKept s t) (hu : StageKept s u) : StageKept s (if c then t else u) := by
  split <;> assumption

/-- The clocks run on. -/
theorem StageKept.stopped (h : StageKept s t) : t.stopped = s.stopped := by
  have hp : t.pstate = s.pstate := State.rf_congr (by decide) (by decide) (h.rd _ (by decide))
  rw [State.stopped, State.stopped, h.boot, hp]

theorem stageKept_modFrame (s : State) (fid : Nat) (g : Frame → Frame) : StageKept s (s.modFrame fid g) :=
  ⟨State.modFrame_lanes .., State.modFrame_boot .., fun _ _ => rfl⟩

theorem stageKept_setFrame (s : State) (fid : Nat) (f : Frame) : StageKept s (s.setFrame fid f) :=
  ⟨State.setFrame_lanes .., State.setFrame_boot .., fun _ _ => rfl⟩

theorem stageKept_eccError (s : State) : StageKept s s.eccError := by
  unfold State.eccError State.eccRoll
  dsimp only
  split <;> exact ⟨rfl, rfl, fun _ _ => rfl⟩

/-- The counters of no-ops are the fabric's. -/
theorem stageKept_noop (s : State) (ph b : Nat) : StageKept s (s.noop ph b) := by
  refine ⟨State.count_lanes .., State.count_boot .., fun x hx => State.rd_wrN_ne _ _ _ _ _ fun i _ => ?_⟩
  split <;> simp only [Reg.svcNoopIn, Reg.svcNoopOut, ctlAddr] <;> omega

theorem stageKept_noops (ph : Nat) (f : Frame) (l : List Nat) (s : State) :
    StageKept s (l.foldl (fun s p => if f.wants (orderOf ph p) then s.noop ph (orderOf ph p) else s) s) := by
  induction l generalizing s with
  | nil => exact StageKept.refl s
  | cons p l ih => exact (StageKept.ite (stageKept_noop s _ _) (StageKept.refl s)).trans (ih _)

theorem stageKept_loadSvc (s : State) (fid : Nat) : StageKept s (s.loadSvc fid) :=
  (stageKept_modFrame s fid _).trans (stageKept_noops _ _ _ _)

theorem stageKept_sput (s : State) (fid k : Nat) (a m : W64) (b : Bool) : StageKept s (s.sput fid k a m b).1 := by
  have hload : StageKept s (sputLoaded s fid k a m b) :=
    (stageKept_modFrame s fid _).trans ((StageKept.ite (stageKept_modFrame _ _ _) (StageKept.refl _)).trans
      (StageKept.ite (stageKept_loadSvc _ _) (StageKept.refl _)))
  obtain h | ⟨f, h⟩ := sput_fst s fid k a m b
  · rw [h]
    exact hload
  · rw [h]
    exact hload.trans (stageKept_setFrame _ _ _)

theorem stageKept_stageRun : StageKept s (s.stageRun n p a).1 := by
  cases a with
  | sput w ra rb => exact stageKept_sput ..
  | store be rs ra space size off =>
    rw [stageRun_store]
    split_ifs
    · exact StageKept.refl s
    · exact StageKept.refl s
    · dsimp only
      exact stageKept_modFrame ..
  | _ => exact StageKept.refl s

/-- A pass in its stages takes its slot: it steps on from that place. -/
theorem slotInsn_steps (hp : p.stage < 12) :
    StageKept s (s.slotInsn n pr a p).1 ∧ ∃ q, p.Placed q ∧ (s.slotInsn n pr a p).2 = q.step := by
  unfold State.slotInsn
  rw [if_neg (by omega)]
  split
  · exact ⟨StageKept.refl s, p, p.placed_refl, rfl⟩
  · exact ⟨stageKept_stageRun, _, placed_stageRun, rfl⟩

theorem slotWord_none_steps (hp : p.stage < 12) :
    StageKept s (s.slotWord n none p).1 ∧ ∃ q, p.Placed q ∧ (s.slotWord n none p).2 = q.step := by
  rw [slotWord_none, if_neg (by omega)]
  split
  · exact ⟨StageKept.refl s, p, p.placed_refl, rfl⟩
  · dsimp only
    cases afvDecode _ with
    | some a => exact slotInsn_steps hp
    | none =>
      refine ⟨StageKept.refl s, _, ?_, rfl⟩
      split
      · exact p.placed_raise _
      · exact p.placed_refl

/-- The slot at which an error strikes apart, a slot runs as without one (R102). -/
theorem slotWord_ecc (s : State) (n : Nat) (ecc : Option Nat) (p : Pass) : s.slotWord n ecc p = s.slotWord n none p ∨
    p.stage < 12 ∧ s.slotWord n ecc p = (s.eccError, (p.raise 0x21).step) := by
  by_cases hp : 12 ≤ p.stage
  · exact .inl ((if_pos hp).trans (if_pos hp).symm)
  · unfold State.slotWord
    rw [if_neg hp, if_neg hp, if_neg (c := none = some p.now) nofun]
    split_ifs
    · exact .inl rfl
    · exact .inr ⟨Nat.not_le.1 hp, rfl⟩
    · exact .inl rfl

theorem slotWord_steps (hp : p.stage < 12) :
    StageKept s (s.slotWord n ecc p).1 ∧ ∃ q, p.Placed q ∧ (s.slotWord n ecc p).2 = q.step := by
  obtain h | ⟨-, h⟩ := slotWord_ecc s n ecc p
  · rw [h]
    exact slotWord_none_steps hp
  · rw [h]
    exact ⟨stageKept_eccError s, _, p.placed_raise _, rfl⟩

theorem stageKept_slotWord (s : State) (n : Nat) (ecc : Option Nat) (p : Pass) : StageKept s (s.slotWord n ecc p).1 := by
  by_cases hp : p.stage < 12
  · exact (slotWord_steps hp).1
  · rw [State.slotWord, if_pos (by omega)]
    exact StageKept.refl s

theorem stageKept_restCycle (n : Nat) (ps : List Pass) (s : State) : StageKept s (s.restCycle n ps).1 := by
  induction ps generalizing s with
  | nil => exact StageKept.refl s
  | cons p ps ih => exact (stageKept_slotWord s n none p).trans (ih _)

/-! ### A cycle of a lane -/

theorem State.lane_setLane_ne (s : State) {n j : Nat} (l : Lane) (h : j ≠ n) : (s.setLane n l).lane j = s.lane j :=
  Tab.get_put_ne _ _ _ h

/-- Of the lanes a cycle moves the passes of its own alone, the oldest one by its slot. -/
theorem laneCycle_runs (s : State) (n : Nat) (ecc : Option Nat) :
    ∃ u qs, s.laneCycle n (fun s p => s.slotWord n ecc p) =
        u.setLane n { s.lane n with passes := qs, cycle := ((s.lane n).cycle + 1) % 16 } ∧
      StageKept s u ∧ ((s.lane n).passes = [] → qs = []) ∧
      ∀ p ps, (s.lane n).passes = p :: ps → ∃ rest, qs = (s.slotWord n ecc p).2 :: rest := by
  unfold State.laneCycle
  cases hl : (s.lane n).passes with
  | nil => exact ⟨s, [], rfl, StageKept.refl s, fun _ => rfl, nofun⟩
  | cons p ps =>
    have hk : StageKept s ((s.slotWord n ecc p).1.restCycle n ps).1 :=
      (stageKept_slotWord s n ecc p).trans (stageKept_restCycle n ps _)
    refine ⟨_, (s.slotWord n ecc p).2 :: ((s.slotWord n ecc p).1.restCycle n ps).2, ?_, hk, nofun, fun p' ps' h => ?_⟩
    · dsimp only
      rw [State.lane_congr hk.lanes]
    · obtain ⟨rfl, rfl⟩ := List.cons.inj h
      exact ⟨_, rfl⟩

theorem stopped_laneCycle (s : State) (n : Nat) (ecc : Option Nat) :
    (s.laneCycle n fun s p => s.slotWord n ecc p).stopped = s.stopped := by
  obtain ⟨u, qs, h, hk, -, -⟩ := laneCycle_runs s n ecc
  rw [h]
  exact hk.stopped

/-! ### A pass runs to its end (R156, R164) -/

theorem Pass.step_slot_lt (p : Pass) : p.step.slot < 32 := by
  unfold Pass.step
  split
  · assumption
  · exact Nat.zero_lt_succ _

/-- Cycles enough for the oldest pass: those that it still needs are no more than `fuel`. -/
def State.cyclesEnough (s : State) (n fuel : Nat) : Prop :=
  ∀ p rest, (s.lane n).passes = p :: rest → p.stage < 12 → p.slot < 32 ∧ 384 ≤ p.now + fuel

theorem cyclesEnough_laneCycle {fuel : Nat} {rest : List Pass} (h : (s.lane n).passes = p :: rest) (hp : p.stage < 12)
    (hs : p.slot < 32) (hf : 384 ≤ p.now + (fuel + 1)) : (s.laneCycle n fun s p => s.slotWord n ecc p).cyclesEnough n fuel := by
  obtain ⟨u, qs, hu, -, -, hq⟩ := laneCycle_runs s n ecc
  obtain ⟨rest', rfl⟩ := hq p rest h
  obtain ⟨-, q, hplaced, hstep⟩ := slotWord_steps (s := s) (n := n) (ecc := ecc) hp
  intro p' ps' hp' _
  rw [hu, State.lane_setLane] at hp'
  obtain ⟨rfl, -⟩ := List.cons.inj hp'
  rw [hstep]
  refine ⟨q.step_slot_lt, ?_⟩
  rw [(hplaced.step_now hs).2]
  omega

theorem stagesRest_stays {fuel : Nat} (h : ∀ p rest, (s.lane n).passes = p :: rest → 12 ≤ p.stage) :
    State.stagesRest fuel n ecc s = s := by
  cases fuel with
  | zero => rfl
  | succ fuel =>
    rw [State.stagesRest]
    split
    · rfl
    · next p rest hl => exact if_pos (h p rest hl)

theorem stagesRest_runs {fuel : Nat} {rest : List Pass} (h : (s.lane n).passes = p :: rest) (hp : p.stage < 12) :
    State.stagesRest (fuel + 1) n ecc s = State.stagesRest fuel n ecc (s.laneCycle n fun s p => s.slotWord n ecc p) := by
  rw [State.stagesRest]
  simp only [h, Nat.not_le.2 hp, if_false]

/-- One cycle more changes nothing once the oldest pass has left stage 11. -/
theorem stagesRest_succ (n : Nat) (ecc : Option Nat) (fuel : Nat) (s : State) (h : s.cyclesEnough n fuel) :
    State.stagesRest (fuel + 1) n ecc s = State.stagesRest fuel n ecc s := by
  induction fuel generalizing s with
  | zero =>
    refine stagesRest_stays fun p rest hl => Nat.not_lt.1 fun hp => ?_
    obtain ⟨hs, hf⟩ := h p rest hl hp
    rw [Pass.now] at hf
    omega
  | succ fuel ih =>
    by_cases hstays : ∀ p rest, (s.lane n).passes = p :: rest → 12 ≤ p.stage
    · rw [stagesRest_stays hstays, stagesRest_stays hstays]
    · push Not at hstays
      obtain ⟨p, rest, hl, hp⟩ := hstays
      obtain ⟨hs, hf⟩ := h p rest hl hp
      rw [stagesRest_runs hl hp, stagesRest_runs hl hp]
      exact ih _ (cyclesEnough_laneCycle hl hp hs hf)

/-- The oldest pass runs its slot first, and then the rest. -/
theorem finishPass_cycle {rest : List Pass} (h : (s.lane n).passes = p :: rest) (hp : p.stage < 12) (hs : p.slot < 32) :
    s.finishPass n ecc = (s.laneCycle n fun s p => s.slotWord n ecc p).finishPass n ecc := by
  have hrun : State.stagesRest 400 n ecc s = State.stagesRest 400 n ecc (s.laneCycle n fun s p => s.slotWord n ecc p) :=
    (stagesRest_runs h hp).trans (stagesRest_succ n ecc 399 _ (cyclesEnough_laneCycle h hp hs (by omega))).symm
  rw [State.finishPass, hrun, State.finishPass]

theorem finishPass_idle (h : (s.lane n).passes = []) : s.finishPass n ecc = (s, none) := by
  have hrun : State.stagesRest 400 n ecc s = s := stagesRest_stays fun p rest hl => absurd (h.symm.trans hl) nofun
  rw [State.finishPass]
  simp only [hrun, h]

theorem finishPass_through {rest : List Pass} (h : (s.lane n).passes = p :: rest) (hp : p.stage = 12) :
    s.finishPass n ecc = (s.setLane n { s.lane n with passes := rest }, some p) := by
  have hrun : State.stagesRest 400 n ecc s = s := stagesRest_stays fun p' ps hl => by
    obtain ⟨rfl, -⟩ := List.cons.inj (h.symm.trans hl)
    exact hp.ge
  rw [State.finishPass]
  simp only [hrun, h]

end

end Sys2Proof.Machine
end

section
/-! Starts, recirculation and ends of passes (R156 to R158, R160, R161, R164, R167, R175), the words of a stage program (R102,
R162, R163), and obligation O34. -/

namespace Sys2Proof.Machine

open Sys2Proof.Safety

/-! ### Counters of a pipeline (R181) -/

section
variable {s : State} {n : Nat}

theorem State.pipeCount_only (s : State) (n c k : Nat) : { s.pipeCount n c k with regs := s.regs } = s := s.wrN_only _ _ _

/-- A pipeline's counters stand from 0x800 on in its island. -/
theorem State.rd_pipeCount (s : State) (n c k : Nat) {b : Nat}
    (h : b < ctlAddr (pipeIsland n) (0x800 + 8 * c) ∨ ctlAddr (pipeIsland n) (0x800 + 8 * c) + 8 ≤ b) :
    (s.pipeCount n c k).rd b = s.rd b := by
  have ha : (if n < 16 then 0x21 + n else 0x31 + (n - 16)) = pipeIsland n := by unfold pipeIsland; split <;> omega
  rw [State.pipeCount, ha]
  exact s.rd_wrN_ne _ _ _ _ fun i hi => by omega

/-- The settings of sub-ports stand below the counters. -/
theorem rf_pipeCount_subportCfg (s : State) {n c i j : Nat} (hi : i < 2) (hj : j < 8) {f : Fld} (hl : f.lo < 32) (hw : f.words = 1) :
    (s.pipeCount n c).rf (Reg.pipeSubportCfg n i j) f = s.rf (Reg.pipeSubportCfg n i j) f :=
  State.rf_congr hl hw (s.rd_pipeCount n c 1 (.inl (by simp only [Reg.pipeSubportCfg, pipeIsland, ctlAddr]; omega)))

/-! ### Starts (R156 to R158, R160, R161) -/

theorem State.pipeCount_lanes (s : State) (n c k : Nat) : (s.pipeCount n c k).lanes = s.lanes := State.count_lanes ..
theorem State.pipeCount_frames (s : State) (n c k : Nat) : (s.pipeCount n c k).frames = s.frames := State.count_frames ..

theorem State.wrN_regs_congr {t : State} (h : t.regs = s.regs) (a n v : Nat) : (t.wrN a n v).regs = (s.wrN a n v).regs := by
  induction n generalizing s t a v with
  | zero => exact h
  | succ n ih => exact ih (by rw [State.wr, State.wr, h]) _ _

theorem State.pipeCount_regs_congr {t : State} (h : t.regs = s.regs) (n c k : Nat) :
    (t.pipeCount n c k).regs = (s.pipeCount n c k).regs := by
  rw [State.pipeCount, State.pipeCount, State.count, State.count, rdN_of_regs h, State.wrN_regs_congr h]

/-- A frame has entered stage 0, and the start has been counted. -/
theorem startPass_ends (u : State) (n pipe c fid v : Nat) (l : Lane) :
    let t := ((u.setLane n l).pipeCount pipe c).startPass n fid v
    t.lane n = { l with passes := l.passes ++ [{ fid := fid, profile := v }] } ∧ t.regs = (u.pipeCount pipe c).regs ∧
      (∀ j, j ≠ n → t.lane j = u.lane j) ∧ RestKept { u with lanes := t.lanes } t := by
  have hlane (j : Nat) : ((u.setLane n l).pipeCount pipe c).lane j = (u.setLane n l).lane j :=
    State.lane_congr (State.pipeCount_lanes ..) j
  have honly := (u.setLane n l).pipeCount_only pipe c 1
  have hregs : ((u.setLane n l).pipeCount pipe c).regs = (u.pipeCount pipe c).regs := State.pipeCount_regs_congr rfl ..
  generalize (u.setLane n l).pipeCount pipe c = x at *
  refine ⟨?_, hregs, fun j hj => ?_, ?_⟩
  · rw [State.startPass, State.lane_setLane, hlane, State.lane_setLane]
  · rw [State.startPass, State.lane_setLane_ne _ _ hj, hlane, State.lane_setLane_ne _ _ hj]
  · exact (congrArg (fun y : State => { y with lanes := (x.startPass n fid v).lanes, threads := u.threads, stewards := u.stewards }) honly :)

/-- The lane after the cycle of a start. -/
theorem startCycle_lane (s : State) (n : Nat) : ((s.startCycle n).lane n).arrivals = (s.lane n).arrivals ∧
    ((s.startCycle n).lane n).recirc = (s.lane n).recirc ∧ ((s.startCycle n).lane n).returning = (s.lane n).returning ∧
    ((s.startCycle n).lane n).cycle = ((s.lane n).cycle + 1) % 16 ∧ ((s.lane n).passes = [] → ((s.startCycle n).lane n).passes = []) := by
  obtain ⟨u, qs, hu, -, hnil, -⟩ := laneCycle_runs s n none
  rw [State.startCycle, hu, State.lane_setLane]
  exact ⟨rfl, rfl, rfl, rfl, hnil⟩

/-- A frame that has arrived starts. -/
theorem passStart_fresh {fid : Nat} {rest : List Nat} (h : (s.lane n).cycle ≠ 0 ∨ (s.lane n).recirc = [])
    (ha : (s.lane n).arrivals = fid :: rest) :
    let u := s.startCycle n
    s.passStart n = ((u.setLane n { u.lane n with arrivals := rest }).pipeCount (n / 2) 0).startPass n fid
      (u.profile (n / 2) (u.subProfile ((u.frame fid).gf sfSrc))) := by
  obtain ⟨harr, hrec, -⟩ := startCycle_lane s n
  unfold State.passStart
  dsimp only
  rw [harr, ha, hrec]
  obtain h | h := h
  · rw [decide_eq_false h]
    rfl
  · rw [show State.pickRecirc _ (s.lane n).recirc = none by rw [h]; rfl]
    cases decide ((s.lane n).cycle = 0) <;> rfl

/-- A frame that waits to recirculate starts. -/
theorem passStart_recirc {x : Recirc} (h : (s.lane n).cycle = 0 ∨ (s.lane n).arrivals = [])
    (hx : (s.startCycle n).pickRecirc (s.lane n).recirc = some x) :
    let u := s.startCycle n
    s.passStart n = ((u.setLane n { u.lane n with recirc := (s.lane n).recirc.erase x }).pipeCount (n / 2) 1).startPass n x.fid
      (u.profile (n / 2) (x.next.getD (u.subProfile ((u.frame x.fid).gf sfSrc)))) := by
  obtain ⟨harr, hrec, -⟩ := startCycle_lane s n
  obtain ⟨fid, next⟩ := x
  unfold State.passStart
  dsimp only
  rw [harr, hrec, hx]
  obtain h | h := h
  · rw [decide_eq_true h]
    cases next <;> rfl
  · rw [h]
    cases decide ((s.lane n).cycle = 0) <;> cases next <;> rfl

theorem passStart_idle (ha : (s.lane n).arrivals = []) (hr : (s.lane n).recirc = []) : s.passStart n = s.startCycle n := by
  obtain ⟨harr, hrec, -⟩ := startCycle_lane s n
  unfold State.passStart
  dsimp only
  rw [harr, ha, hrec, hr]
  cases decide ((s.lane n).cycle = 0) <;> rfl

/-- The first frame of class K of a recirculation queue, else its first frame (R158). -/
theorem pickRecirc_eq {x : Recirc} {q : List Recirc} (h : q.find? (fun y => decide ((s.frame y.fid).gf sfK = 1)) = some x ∨
    (q.find? (fun y => decide ((s.frame y.fid).gf sfK = 1)) = none ∧ q.head? = some x)) : s.pickRecirc q = some x := by
  unfold State.pickRecirc
  obtain h | ⟨h, hq⟩ := h
  · rw [h]
  · rw [h]
    exact hq

theorem exec_ingressPassStart_refused {pipe : Fin 16} {lane : Fin 2} (h : s.accepts (0x21 + pipe.val) = false) :
    exec (.ingressPassStart pipe lane) s = .next s := by
  show execIngressPassStart pipe lane s = _
  rw [execIngressPassStart, h, Bool.not_false, Bool.or_true, if_pos rfl]

theorem exec_ingressPassStart {pipe : Fin 16} {lane : Fin 2} (hs : s.stopped = false) (h : s.accepts (0x21 + pipe.val) = true) :
    exec (.ingressPassStart pipe lane) s = .next (s.passStart (2 * pipe.val + lane.val)) := by
  show execIngressPassStart pipe lane s = _
  rw [execIngressPassStart, h, hs]
  rfl

/-! ### A frame that is discarded (R180, R196) -/

theorem State.passOver_only (fuel n : Nat) (s : State) : { State.passOver fuel n s with reorder := s.reorder } = s := by
  induction fuel generalizing s with
  | zero => rfl
  | succ fuel ih =>
    rw [State.passOver]
    split
    · split
      · exact (congrArg (fun x : State => { x with reorder := s.reorder }) (ih _) :)
      · rfl
    · rfl

/-- What leaves a reorder window changes the window and a counter. -/
theorem State.leaveWindow_only (s : State) (fid : Nat) : { s.leaveWindow fid with reorder := s.reorder, regs := s.regs } = s := by
  have hover : ∃ u : State, { u with reorder := s.reorder } = s ∧ s.leaveWindow fid =
      match u.lateOf fid with
      | some n => (u.releaseSlot fid).pipeCount n 7
      | none => u.releaseSlot fid := by
    unfold State.leaveWindow
    cases s.slotOf fid with
    | none => exact ⟨s, rfl, rfl⟩
    | some n => exact ⟨s.passOverDue n, State.passOver_only _ n s, rfl⟩
  obtain ⟨u, hu, h⟩ := hover
  rw [h]
  split
  · next n _ =>
    exact (congrArg (fun x : State => { x with reorder := s.reorder, regs := s.regs }) ((u.releaseSlot fid).pipeCount_only n 7 1) :).trans
      (congrArg (fun x : State => { x with regs := s.regs }) hu :)
  · exact (congrArg (fun x : State => { x with regs := s.regs }) hu :)

theorem State.updateSpilling_only (s : State) (m : Nat) : { s.updateSpilling m with regs := s.regs } = s := by
  unfold State.updateSpilling
  dsimp only
  split_ifs
  · exact s.setRf_only _ _ _
  · exact s.setRf_only _ _ _
  · rfl

theorem State.foldl_updateSpilling_only (ms : List Nat) (s : State) : { ms.foldl State.updateSpilling s with regs := s.regs } = s := by
  induction ms generalizing s with
  | nil => rfl
  | cons m ms ih => exact (congrArg (fun x : State => { x with regs := s.regs }) (ih (s.updateSpilling m)) :).trans (s.updateSpilling_only m)

theorem State.freePlaces_only (s : State) (fid : Nat) : { s.freePlaces fid with fabric := s.fabric, regs := s.regs } = s := by
  unfold State.freePlaces
  exact (congrArg (fun x : State => { x with fabric := s.fabric }) (State.foldl_updateSpilling_only _ _) :)

/-- The end of a frame's charges leaves the lanes alone, and the frames but for the marks of the charges. -/
theorem uncharge_eq (s : State) (fid : Nat) : ∃ u : State, u.frames = s.frames ∧ u.lanes = s.lanes ∧
    s.uncharge fid = u.modFrame fid fun f => { f with iacc := none, mirror := none } := by
  unfold State.uncharge
  dsimp only
  split
  · next e n _ =>
    obtain ⟨hframes, -, hlanes, -⟩ := (pfcSent_iaccRelease s e n).work.framesKept
    exact ⟨s.iaccRelease e n, hframes, hlanes, rfl⟩
  · exact ⟨s, rfl, rfl, rfl⟩

theorem removeFrame_ends (s : State) (fid : Nat) : (s.removeFrame fid).lanes = s.lanes ∧
    ((s.frame fid).names = 0 → (s.removeFrame fid).frame fid = {}) ∧ ∀ f, f ≠ fid → (s.removeFrame fid).frame f = s.frame f := by
  obtain ⟨u, hf, hl, h⟩ := uncharge_eq s fid
  have hnames : ((s.uncharge fid).frame fid).names = (s.frame fid).names := by
    rw [h, State.frame_modFrame, if_pos rfl, State.frame_congr hf]
  have hother (f : Nat) (hne : f ≠ fid) : (s.uncharge fid).frame f = s.frame f := by
    rw [h, State.frame_modFrame, if_neg hne, State.frame_congr hf]
  have hlanes : (s.uncharge fid).lanes = s.lanes := by rw [h, State.modFrame_lanes, hl]
  unfold State.removeFrame
  dsimp only
  rw [hnames]
  split
  · refine ⟨hlanes, fun _ => ?_, fun f hne => ?_⟩
    · exact (Tab.get_del _ _ _ _).trans (if_pos rfl)
    · exact ((Tab.get_del _ _ _ _).trans (if_neg hne)).trans (hother f hne)
  · next hn =>
    refine ⟨(State.modFrame_lanes ..).trans hlanes, fun h0 => absurd h0 hn, fun f hne => ?_⟩
    rw [State.frame_modFrame, if_neg hne, hother f hne]

theorem discard_ends (s : State) (fid : Nat) : (s.discard fid).lanes = s.lanes ∧
    ((s.frame fid).names = 0 → (s.discard fid).frame fid = {}) ∧ ∀ f, f ≠ fid → (s.discard fid).frame f = s.frame f := by
  have hw := s.leaveWindow_only fid
  have hp := (s.leaveWindow fid).freePlaces_only fid
  obtain ⟨hlanes, hgone, hother⟩ := removeFrame_ends ((s.leaveWindow fid).freePlaces fid) fid
  have hframe (f : Nat) : ((s.leaveWindow fid).freePlaces fid).frame f = s.frame f :=
    State.frame_congr ((congrArg State.frames hp :).trans (congrArg State.frames hw :)) f
  rw [hframe] at hgone
  exact ⟨hlanes.trans ((congrArg State.lanes hp :).trans (congrArg State.lanes hw :)), hgone,
    fun f hne => (hother f hne).trans (hframe f)⟩

/-! ### Recirculation (R158) -/

section
variable {pipe : Fin 16} {lane : Fin 2}

theorem exec_recirculation_idle (h : (s.lane (2 * pipe.val + lane.val)).returning = []) :
    exec (.recirculation pipe lane) s = .next s := by
  show execRecirculation pipe lane s = _
  simp only [execRecirculation, h, ite_self]

theorem exec_recirculation {x : Recirc} {rest : List Recirc} (hs : s.stopped = false)
    (h : (s.lane (2 * pipe.val + lane.val)).returning = x :: rest) :
    let n := 2 * pipe.val + lane.val
    let l := s.lane n
    exec (.recirculation pipe lane) s = .next (if l.recirc.length < (if (s.frame x.fid).gf sfK = 1 then 512 else 480) then
        s.setLane n { l with returning := rest, recirc := l.recirc ++ [x] }
      else ((s.setLane n { l with returning := rest }).pipeCount pipe.val 2).discard x.fid).settle := by
  show execRecirculation pipe lane s = _
  simp only [execRecirculation, hs, h, Bool.false_eq_true, if_false, decide_eq_true_eq]
  rfl

/-- A frame that finds no room is discarded and counted. -/
theorem recirc_full_ends (s : State) (n pipe fid : Nat) (l : Lane) :
    let u := ((s.setLane n l).pipeCount pipe 2).discard fid
    u.lane n = l ∧ ((s.frame fid).names = 0 → u.frame fid = {}) ∧ ∀ f, f ≠ fid → u.frame f = s.frame f := by
  have hframe (f : Nat) : ((s.setLane n l).pipeCount pipe 2).frame f = s.frame f :=
    State.frame_congr (State.pipeCount_frames ..) f
  obtain ⟨hlanes, hgone, hother⟩ := discard_ends ((s.setLane n l).pipeCount pipe 2) fid
  rw [hframe] at hgone
  refine ⟨?_, hgone, fun f hne => (hother f hne).trans (hframe f)⟩
  rw [State.lane_congr (hlanes.trans (State.pipeCount_lanes ..)), State.lane_setLane]

end

end

/-! ### Ends of passes (R164, R167, R175) -/

section
variable {s : State} {pipe : Fin 16} {fin : LaneEnd} {p : Pass} {rest : List Pass} {n : Nat}

section
variable (hn : n = 2 * pipe.val + fin.lane.val)
include hn

theorem exec_ingressPassEnd_idle (h : (s.lane n).passes = []) : exec (.ingressPassEnd pipe fin) s = .next s := by
  subst hn
  show execIngressPassEnd pipe fin s = _
  simp only [execIngressPassEnd, finishPass_idle h, ite_self]

variable (hs : s.stopped = false) (h : (s.lane n).passes = p :: rest)
include hs h

/-- A pass still in its stages runs its slot first. -/
theorem exec_ingressPassEnd_runs (hp : p.stage < 12) (hslot : p.slot < 32) : exec (.ingressPassEnd pipe fin) s =
    exec (.ingressPassEnd pipe fin) (s.laneCycle n fun s p => s.slotWord n (fin.ecc.map Fin.val) p) := by
  subst hn
  show execIngressPassEnd pipe fin s = execIngressPassEnd pipe fin _
  simp only [execIngressPassEnd, hs, stopped_laneCycle, ← finishPass_cycle h hp hslot, Bool.false_eq_true, if_false]

/-- A pass that has left stage 11 leaves the lane. -/
theorem exec_ingressPassEnd_through (hp : p.stage = 12) :
    exec (.ingressPassEnd pipe fin) s = .next ((s.setLane n { s.lane n with passes := rest }).ingressEnd n p).settle := by
  subst hn
  show execIngressPassEnd pipe fin s = _
  simp only [execIngressPassEnd, hs, finishPass_through h hp, Bool.false_eq_true, if_false]
  rfl

end

section
variable (hn : n = 32 + (2 * pipe.val + fin.lane.val))
include hn

theorem exec_egressPassEnd_idle (h : (s.lane n).passes = []) : exec (.egressPassEnd pipe fin) s = .next s := by
  rw [← Nat.add_assoc] at hn
  subst hn
  show execEgressPassEnd pipe fin s = _
  simp only [execEgressPassEnd, finishPass_idle h, ite_self]

variable (hs : s.stopped = false) (h : (s.lane n).passes = p :: rest)
include hs h

theorem exec_egressPassEnd_runs (hp : p.stage < 12) (hslot : p.slot < 32) : exec (.egressPassEnd pipe fin) s =
    exec (.egressPassEnd pipe fin) (s.laneCycle n fun s p => s.slotWord n (fin.ecc.map Fin.val) p) := by
  rw [← Nat.add_assoc] at hn
  subst hn
  show execEgressPassEnd pipe fin s = execEgressPassEnd pipe fin _
  simp only [execEgressPassEnd, hs, stopped_laneCycle, ← finishPass_cycle h hp hslot, Bool.false_eq_true, if_false]

theorem exec_egressPassEnd_through (hp : p.stage = 12) :
    exec (.egressPassEnd pipe fin) s = .next ((s.setLane n { s.lane n with passes := rest }).egressEnd n p).settle := by
  rw [← Nat.add_assoc] at hn
  subst hn
  show execEgressPassEnd pipe fin s = _
  simp only [execEgressPassEnd, hs, finishPass_through h hp, Bool.false_eq_true, if_false]
  rfl

end

theorem ingressEnd_exc {r : Nat} (h : p.exc = some r) : s.ingressEnd n p = s.raiseExc p.fid r := by
  simp only [State.ingressEnd, h]

theorem egressEnd_exc {r : Nat} (h : p.exc = some r) : s.egressEnd n p = s.raiseExc p.fid r := by
  simp only [State.egressEnd, h]

/-- What stepping is told of an ingress pass that has ended: its g12 to g15 (R165). -/
def Pass.ctx (p : Pass) : StepCtx where
  via := none
  g12 := (p.r.get 12).toNat
  g13 := (p.r.get 13).toNat
  g14 := (p.r.get 14).toNat
  next := if bit (p.r.get 15).toNat 4 then some ((p.r.get 15).toNat % 16) else none

/-- What an ingress verdict does with the frame of a pass. -/
def State.ingressVerdict (s : State) (pipe : Nat) (p : Pass) : Verdict → State
  | .drop => (s.pipeCount pipe 4).discard p.fid
  | .group t => s.applyGroup pipe t p.fid
  | .cont => s.arrive p.ctx p.fid

section
variable (h : p.exc = none)
include h

theorem ingressEnd_verdict {v : Verdict} (hv : p.verdict = some v) : s.ingressEnd n p = s.ingressVerdict (n / 2) p v := by
  simp only [State.ingressEnd, h, hv]
  cases v <;> rfl

/-- A pass without a verdict is counted and takes its sub-port's (R175). -/
theorem ingressEnd_default (hv : p.verdict = none) :
    let src := (s.frame p.fid).gf sfSrc
    let a := Reg.pipeSubportCfg (n / 2) (src / 8 % 2) (src % 8)
    s.ingressEnd n p = (s.pipeCount (n / 2) 3).ingressVerdict (n / 2) p
      (defVerdict (s.rf a pipeSubportCfg_DEF_VERDICT) (s.rf a pipeSubportCfg_DEF_TARGET)) := by
  intro src a
  have hrf (f : Fld) (hl : f.lo < 32) (hw : f.words = 1) : (s.pipeCount (n / 2) 3).rf a f = s.rf a f :=
    rf_pipeCount_subportCfg s (Nat.mod_lt _ (by decide)) (Nat.mod_lt _ (by decide)) hl hw
  rw [← hrf pipeSubportCfg_DEF_VERDICT (by decide) (by decide), ← hrf pipeSubportCfg_DEF_TARGET (by decide) (by decide)]
  have hcount : (if p.verdict.isNone then s.pipeCount (n / 2) 3 else s) = s.pipeCount (n / 2) 3 := if_pos (by rw [hv]; rfl)
  unfold State.ingressEnd
  rw [h]
  dsimp only
  rw [hcount]
  generalize s.pipeCount (n / 2) 3 = u
  rw [hv, Option.getD_none]
  cases defVerdict _ _ <;> rfl

theorem egressEnd_none (hv : p.verdict = none) : s.egressEnd n p = (s.pipeCount (n / 2) 3).depart p.fid := by
  simp only [State.egressEnd, h, hv]

theorem egressEnd_cont (hv : p.verdict = some .cont) : s.egressEnd n p = s.depart p.fid := by
  simp only [State.egressEnd, h, hv]

theorem egressEnd_drop (hv : p.verdict = some .drop) : s.egressEnd n p = (s.pipeCount (n / 2) 4).discard p.fid := by
  simp only [State.egressEnd, h, hv]

theorem egressEnd_group {g : Nat} (hv : p.verdict = some (.group g)) : s.egressEnd n p = (s.pipeCount (n / 2) 5).discard p.fid := by
  simp only [State.egressEnd, h, hv]

end

/-! ### The words of a stage program (R102, R160 to R163) -/

/-- The word of a pass's slot in the program that its profile names. -/
def State.slotProg (s : State) (n : Nat) (p : Pass) : W32 :=
  s.rd (Reg.pipeProg (n / 2) p.stage (p.profile / 2 ^ (4 * p.stage) % 16) p.slot)

section
theorem Pass.empty_false (hexc : p.exc = none) (hskip : p.skip ≤ p.slot) : p.empty = false := by
  rw [Pass.empty, hexc, decide_eq_false (Nat.not_lt.2 hskip)]
  rfl

variable (hp : p.stage < 12)
include hp

/-- A stage that its profile does not run executes as empty. -/
theorem slotWord_off (hrun : p.profile.testBit (48 + p.stage) = false) (ecc : Option Nat) : s.slotWord n ecc p = (s, p.step) := by
  rw [State.slotWord, if_neg (Nat.not_le.2 hp), bit_eq_testBit, hrun, Bool.not_false, Bool.or_true, if_pos rfl]

variable (hexc : p.exc = none) (hskip : p.skip ≤ p.slot) (hrun : p.profile.testBit (48 + p.stage) = true)
include hexc hskip hrun

theorem slotWord_struck : s.slotWord n (some (32 * p.stage + p.slot)) p = (s.eccError, (p.raise 0x21).step) := by
  rw [State.slotWord, if_neg (Nat.not_le.2 hp), bit_eq_testBit, hrun, Pass.empty_false hexc hskip, if_neg (by decide), Pass.now, if_pos rfl]

theorem slotWord_runs : s.slotWord n none p =
    (afvDecode (s.slotProg n p)).elim (s, (if p.r.pred (afvPred (s.slotProg n p)) then p.raise 0x21 else p).step)
      fun a => s.slotInsn n (afvPred (s.slotProg n p)) a p := by
  rw [slotWord_none, if_neg (Nat.not_le.2 hp), bit_eq_testBit, hrun, Pass.empty_false hexc hskip, if_neg (by decide)]
  rfl

/-- A word of no instruction raises STAGE_FAULT. -/
theorem slotWord_undecoded (hd : afvDecode (s.slotProg n p) = none) (hpred : p.r.pred (afvPred (s.slotProg n p)) = true) :
    s.slotWord n none p = (s, (p.raise 0x21).step) := by
  rw [slotWord_runs hp hexc hskip hrun, hd, Option.elim_none, if_pos hpred]

/-- The word's instruction, issued at the lane, is the slot. -/
theorem exec_slotWord {l : Fin 64} {c : Instr} {a : Afv} (hl : (s.lane l.val).passes = p :: rest)
    (hd : afvDecode (s.slotProg l.val p) = some a) (hrow : rowOf c = some (.lane l, afvPred (s.slotProg l.val p), a)) :
    exec c s = .next (s.laneCycle l.val fun s p => s.slotWord l.val none p) := by
  have hword : s.slotWord l.val none p = s.slotInsn l.val (afvPred (s.slotProg l.val p)) a p := by
    rw [slotWord_runs hp hexc hskip hrun, hd, Option.elim_some]
  rw [exec_lane hrow hl hp rfl]
  exact congrArg Host.Outcome.next (laneCycle_congr hl hword.symm)

end

end

/-- Settles O34: a start by the lane's cycle, recirculation by its room, the ends of passes by their verdicts; that the cycles in
which an end lets its pass run on (log entry 59) are more than a pass can need is `stagesRest_succ`. -/
theorem pipelinePasses : Obligations.PipelinePasses := by
  unfold Obligations.PipelinePasses
  intro pipe lane s hs n m l u started profile k start
  have hn : n / 2 = pipe.val := by omega
  have hm : m / 2 = 16 + pipe.val := by omega
  refine ⟨startCycle_lane s n, exec_ingressPassStart_refused, fun hacc => ⟨fun fid rest hturn harr => ?_, fun x hturn hx => ?_,
    fun harr hrec => ?_⟩, exec_recirculation_idle, fun x rest hret => ?_, fun ecc h => ?_, fun p rest ecc h hp hslot => ?_,
    fun p rest ecc h hp => ?_, fun ecc h => ?_, fun p rest ecc h hp hslot => ?_, fun p rest ecc h hp => ?_,
    fun l p hp hexc hskip => ?_⟩
  · refine ⟨_, exec_ingressPassStart hs hacc, ?_⟩
    rw [passStart_fresh hturn harr, hn]
    exact startPass_ends u n pipe.val 0 fid _ _
  · refine ⟨_, exec_ingressPassStart hs hacc, ?_⟩
    rw [passStart_recirc hturn (pickRecirc_eq hx), hn]
    exact startPass_ends u n pipe.val 1 x.fid _ _
  · rw [exec_ingressPassStart hs hacc, passStart_idle harr hrec]
  · have hexec := exec_recirculation hs hret
    refine ⟨fun hroom => ⟨_, hexec.trans (congrArg (fun t : State => Host.Outcome.next t.settle) (if_pos hroom)), ?_⟩,
      fun hfull => ⟨_, hexec.trans (congrArg (fun t : State => Host.Outcome.next t.settle) (if_neg hfull)), ?_⟩⟩
    · exact ⟨State.lane_setLane .., fun j hj => State.lane_setLane_ne _ _ hj, rfl⟩
    · exact recirc_full_ends s n pipe.val x.fid _
  · exact exec_ingressPassEnd_idle rfl h
  · exact exec_ingressPassEnd_runs rfl hs h hp hslot
  · intro u c
    have ends {P : State → Prop} (hP : P (u.ingressEnd n p)) : EndsSettled c s P := ⟨_, exec_ingressPassEnd_through rfl hs h hp, hP⟩
    have hend (hexc : p.exc = none) (v : Verdict) (hv : p.verdict = some v) : u.ingressEnd n p = u.ingressVerdict pipe.val p v := by
      rw [ingressEnd_verdict hexc hv, hn]
    refine ⟨fun r hexc => ends (ingressEnd_exc hexc), fun hexc hv => ends (hend hexc .drop hv),
      fun g hexc hv => ends (hend hexc (.group g) hv), fun hexc hv => ends ⟨p.ctx, rfl, rfl, rfl, rfl, ?_, hend hexc .cont hv⟩,
      fun hexc hv => ?_⟩
    · rw [Pass.ctx, bit_toNat]
    · intro a
      have hdefault : u.ingressEnd n p = (u.pipeCount pipe.val 3).ingressVerdict pipe.val p
          (defVerdict (s.rf a pipeSubportCfg_DEF_VERDICT) (s.rf a pipeSubportCfg_DEF_TARGET)) := by
        rw [ingressEnd_default hexc hv, hn]
        rfl
      exact ⟨fun hd => ends (by rw [hdefault, hd]; rfl), fun hd => ends (by rw [hdefault, hd]; rfl)⟩
  · exact exec_egressPassEnd_idle rfl h
  · exact exec_egressPassEnd_runs rfl hs h hp hslot
  · intro u c e
    have ends {P : State → Prop} (hP : P (u.egressEnd m p)) : EndsSettled c s P := ⟨_, exec_egressPassEnd_through rfl hs h hp, hP⟩
    refine ⟨fun r hexc => ends (egressEnd_exc hexc), fun hexc => ⟨fun hv => ends ?_, fun hv => ends (egressEnd_cont hexc hv),
      fun hv => ends ?_, fun g hv => ends ?_⟩⟩
    · rw [egressEnd_none hexc hv, hm]
    · rw [egressEnd_drop hexc hv, hm]
    · rw [egressEnd_group hexc hv, hm]
  · exact ⟨slotWord_off hp, fun hrun => ⟨slotWord_struck hp hexc hskip hrun, slotWord_undecoded hp hexc hskip hrun,
      fun c a rest hl hd hrow => exec_slotWord hp hexc hskip hrun hl hd hrow⟩⟩

end Sys2Proof.Machine
end

section
/-! Writes of profiles, programs, slot bindings and table descriptors, the release of program slots (R160 to R162, R168, R171),
the reorder window (R180), and obligation O35. -/

namespace Sys2Proof.Machine

open Sys2Proof.Safety

/-! ### Slots in use (R162) -/

section
variable {s t : State}

theorem State.slotNamed_congr (h : t.regs = s.regs) (n k m : Nat) : t.slotNamed n k m = s.slotNamed n k m := by
  simp only [State.slotNamed, State.profile, rdN_of_regs h]

theorem State.slotInUse_congr (h : t.regs = s.regs) (hu : t.slotUntil = s.slotUntil) (n k m : Nat) :
    t.slotInUse n k m = s.slotInUse n k m := by
  rw [State.slotInUse, State.slotInUse, State.slotNamed_congr h, hu]

theorem State.slotNamed_iff (s : State) (n k m : Nat) :
    s.slotNamed n k m = true ↔ ∃ q, q < 16 ∧ profileRuns (s.profile n q) k m = true := by
  simp [State.slotNamed]

theorem State.slotInUse_iff (s : State) (n k m : Nat) :
    s.slotInUse n k m = true ↔ s.slotNamed n k m = true ∨ (Tab.find s.slotUntil (slotKey n k m)).isSome = true := by
  simp [State.slotInUse]

theorem profileRuns_iff (v k m : Nat) : profileRuns v k m = true ↔ bit v (48 + k) = true ∧ fld v (4 * k) 4 = m := by
  simp [profileRuns]

/-! ### Writes of profiles (R160 to R162) -/

/-- The slot that the profile named at stage `k` before the write stays in use for 1 µs if the write ended its last naming. -/
def State.namingEnds (old n : Nat) (s : State) (k : Nat) : State :=
  let m := fld old (4 * k) 4
  if bit old (48 + k) && !s.slotNamed n k m then { s with slotUntil := Tab.put s.slotUntil (slotKey n k m) (s.ictNs + 1000) }
  else s

theorem profileSet_eq (s : State) (n p v : Nat) : s.profileSet n p v =
    (List.range 12).foldl (State.namingEnds (s.profile n p) n) (s.wrN (ctlAddr (pipeIsland n) (0x200 + 8 * p)) 2 (v % 2 ^ 60)) := rfl

theorem namingEnds_only (old n : Nat) (s : State) (k : Nat) : { State.namingEnds old n s k with slotUntil := s.slotUntil } = s := by
  unfold State.namingEnds
  dsimp only
  split <;> rfl

theorem namingEnds_keeps (old n : Nat) (s : State) (k : Nat) {key : Nat} (h : (Tab.find s.slotUntil key).isSome = true) :
    (Tab.find (State.namingEnds old n s k).slotUntil key).isSome = true := by
  unfold State.namingEnds
  dsimp only
  split
  · rw [Tab.find_put]
    split
    · rfl
    · exact h
  · exact h

theorem namingEnds_lists {old n k : Nat} {s : State} (hb : bit old (48 + k) = true) (hn : s.slotNamed n k (fld old (4 * k) 4) = false) :
    (Tab.find (State.namingEnds old n s k).slotUntil (slotKey n k (fld old (4 * k) 4))).isSome = true := by
  unfold State.namingEnds
  dsimp only
  rw [hb, hn, if_pos (by decide), Tab.find_put, if_pos rfl]
  rfl

/-- The stages one after the other. -/
theorem foldl_namingEnds (old n : Nat) (ks : List Nat) (s : State) :
    let t := ks.foldl (State.namingEnds old n) s
    { t with slotUntil := s.slotUntil } = s ∧
    (∀ key, (Tab.find s.slotUntil key).isSome = true → (Tab.find t.slotUntil key).isSome = true) ∧
    ∀ k ∈ ks, bit old (48 + k) = true → s.slotNamed n k (fld old (4 * k) 4) = false →
      (Tab.find t.slotUntil (slotKey n k (fld old (4 * k) 4))).isSome = true := by
  induction ks generalizing s with
  | nil => exact ⟨rfl, fun _ h => h, nofun⟩
  | cons k ks ih =>
    have hk := namingEnds_only old n s k
    obtain ⟨honly, hkeeps, hlists⟩ := ih (State.namingEnds old n s k)
    refine ⟨(congrArg (fun x : State => { x with slotUntil := s.slotUntil }) honly :).trans hk,
      fun key h => hkeeps key (namingEnds_keeps old n s k h), fun j hj hb hn => ?_⟩
    obtain rfl | hj := List.mem_cons.1 hj
    · exact hkeeps _ (namingEnds_lists hb hn)
    · exact hlists j hj hb ((State.slotNamed_congr (congrArg State.regs hk :) n j _).trans hn)

theorem profile_ne (s : State) (n v : Nat) {p q : Nat} (h : q ≠ p) :
    (s.wrN (ctlAddr (pipeIsland n) (0x200 + 8 * p)) 2 v).profile n q = s.profile n q :=
  State.rdN_congr fun i hi => s.rd_wrN_ne _ _ _ _ fun j hj => by
    simp only [ctlAddr]
    omega

/-- What a write of a profile does. -/
theorem profileSet_ends (s : State) (n p v : Nat) :
    let t := s.profileSet n p v
    t.profile n p = v % 2 ^ 60 ∧ (∀ q, q ≠ p → t.profile n q = s.profile n q) ∧
    { t with regs := s.regs, slotUntil := s.slotUntil } = s ∧
    (∀ k m, k < 12 → s.slotInUse n k m = true → t.slotInUse n k m = true) := by
  dsimp only
  have hother (q : Nat) (h : q ≠ p) := profile_ne s n (v % 2 ^ 60) h
  have hself : (s.wrN (ctlAddr (pipeIsland n) (0x200 + 8 * p)) 2 (v % 2 ^ 60)).profile n p = v % 2 ^ 60 := by
    rw [State.profile, State.rdN_wrN_self]
    omega
  have hwr := s.wrN_only (ctlAddr (pipeIsland n) (0x200 + 8 * p)) 2 (v % 2 ^ 60)
  rw [profileSet_eq]
  generalize s.wrN (ctlAddr (pipeIsland n) (0x200 + 8 * p)) 2 (v % 2 ^ 60) = w at *
  obtain ⟨honly, hkeeps, hlists⟩ := foldl_namingEnds (s.profile n p) n (List.range 12) w
  generalize (List.range 12).foldl (State.namingEnds (s.profile n p) n) w = t at *
  have hregs : t.regs = w.regs := (congrArg State.regs honly :)
  have huntil : w.slotUntil = s.slotUntil := (congrArg State.slotUntil hwr :)
  have hprofile (q : Nat) : t.profile n q = w.profile n q := rdN_of_regs hregs _ _
  refine ⟨(hprofile p).trans hself, fun q hq => (hprofile q).trans (hother q hq),
    (congrArg (fun x : State => { x with regs := s.regs, slotUntil := s.slotUntil }) honly :).trans
      (congrArg (fun x : State => { x with slotUntil := s.slotUntil }) hwr :), fun k m hk h => ?_⟩
  rw [State.slotInUse_iff] at h ⊢
  obtain hnamed | hlisted := h
  · by_cases hw : w.slotNamed n k m = true
    · exact .inl ((State.slotNamed_congr hregs n k m).trans hw)
    · right
      obtain ⟨q, hq, hruns⟩ := (s.slotNamed_iff n k m).1 hnamed
      have hqp : q = p := by
        by_contra hne
        exact hw ((w.slotNamed_iff n k m).2 ⟨q, hq, by rw [hother q hne]; exact hruns⟩)
      subst hqp
      obtain ⟨hb, rfl⟩ := (profileRuns_iff _ _ _).1 hruns
      exact hlists k (List.mem_range.2 hk) hb (Bool.eq_false_of_not_eq_true hw)
  · exact .inr (hkeeps _ (huntil ▸ hlisted))

theorem exec_pipeProfileWrite {pipe : Fin 32} {p : Fin 16} (v : W64) (h : Open s (Reg.pipeProfile pipe.val p.val)) :
    exec (.pipeProfileWrite pipe p v) s =
      .next ((s.dropHeld (Reg.pipeProfile pipe.val p.val) 2).profileSet pipe.val p.val v.toNat) :=
  congrArg Host.Outcome.next (State.rowWrite_open v.toNat (fun s => s.profileSet pipe.val p.val v.toNat) h)

theorem pipeProfileWrite_ends {pipe : Fin 32} {p : Fin 16} (v : W64) (h : Open s (Reg.pipeProfile pipe.val p.val)) :
    Ends (.pipeProfileWrite pipe p v) s fun t =>
      t.profile pipe.val p.val = v.toNat % 2 ^ 60 ∧ (∀ q, q < 16 → q ≠ p.val → t.profile pipe.val q = s.profile pipe.val q) ∧
      { t with regs := s.regs, slotUntil := s.slotUntil, held := s.held } = s ∧
      (∀ k m, k < 12 → m < 16 → s.slotInUse pipe.val k m = true → t.slotInUse pipe.val k m = true) := by
  refine ⟨_, exec_pipeProfileWrite v h, ?_⟩
  have hregs := s.dropHeld_regs (Reg.pipeProfile pipe.val p.val) 2
  have hd := s.dropHeld_only (Reg.pipeProfile pipe.val p.val) 2
  generalize s.dropHeld (Reg.pipeProfile pipe.val p.val) 2 = u at *
  obtain ⟨hself, hother, honly, hused⟩ := profileSet_ends u pipe.val p.val v.toNat
  generalize u.profileSet pipe.val p.val v.toNat = t at *
  refine ⟨hself, fun q _ hq => (hother q hq).trans (rdN_of_regs hregs _ _), ?_, fun k m hk _ hs => hused k m hk ?_⟩
  · exact (congrArg (fun x : State => { x with regs := s.regs, slotUntil := s.slotUntil, held := s.held }) honly :).trans
      (congrArg (fun x : State => { x with regs := s.regs, slotUntil := s.slotUntil }) hd :)
  · rw [State.slotInUse_congr hregs (congrArg State.slotUntil hd :)]
    exact hs

/-! ### The release of a slot (R162) -/

theorem slotRelease_ends (pipe : Fin 32) (k : Fin 12) (m : Fin 16) (s : State) : Ends (.slotRelease pipe k m) s fun t =>
    { t with slotUntil := s.slotUntil } = s ∧
    (∀ d, Tab.find s.slotUntil (slotKey pipe.val k.val m.val) = some d →
      (d ≤ s.ictNs → Tab.find t.slotUntil (slotKey pipe.val k.val m.val) = none) ∧ (s.ictNs < d → t = s)) := by
  refine ⟨_, rfl, ?_⟩
  cases hd : Tab.find s.slotUntil (slotKey pipe.val k.val m.val) with
  | none => exact ⟨rfl, nofun⟩
  | some d =>
    by_cases hdue : d ≤ s.ictNs
    · dsimp only
      rw [if_pos hdue]
      refine ⟨rfl, fun d' hd' => ⟨fun _ => by rw [Tab.find_del, if_pos rfl], fun hlt => ?_⟩⟩
      cases hd'
      omega
    · dsimp only
      rw [if_neg hdue]
      refine ⟨rfl, fun d' hd' => ⟨fun hle => ?_, fun _ => rfl⟩⟩
      cases hd'
      exact absurd hle hdue

end

/-! ### Writes of program words and slot bindings (R160 to R162) -/

section
variable {s : State} {st : Fin 4} {pipe : Fin 32} {k : Fin 12} {m : Fin 16} {i : Fin 32} {v : W32}

theorem pipeSlotTbl_word (n k m w : Nat) :
    Reg.pipeSlotTbl n k m + 4 * w = ctlAddr (0x21 + n) (0x4000 + 0x100 * k + 0x10 * m + 4 * w) := by
  simp only [Reg.pipeSlotTbl, ctlAddr]
  omega

theorem exec_pipeProgWrite_prog : exec (.pipeProgWrite st pipe k m false i v) s =
    .next (s.writeBy (.steward st.val) (Reg.pipeProg pipe.val k.val m.val i.val) 4 v.toNat
      fun s => s.progSet pipe.val k.val m.val i.val v.toNat) := by
  show execPipeProgWrite st pipe k m false i v s = _
  rw [execPipeProgWrite, if_neg Bool.false_ne_true]

theorem exec_pipeProgWrite_bind : exec (.pipeProgWrite st pipe k m true i v) s =
    .next (s.writeBy (.steward st.val) (Reg.pipeSlotTbl pipe.val k.val m.val + 4 * (i.val % 4)) 4 v.toNat
      fun s => s.slotTblSet pipe.val k.val m.val (i.val % 4) v.toNat) := by
  show execPipeProgWrite st pipe k m true i v s = _
  rw [execPipeProgWrite, if_pos rfl]

/-- A steward other than St0 and St1 is refused the program (R19). -/
theorem writeBy_prog_refused {f : State → State} (hst : 2 ≤ st.val)
    (hc : s.canWrite (.steward st.val) (Reg.pipeProg pipe.val k.val m.val i.val) = true) :
    s.writeBy (.steward st.val) (Reg.pipeProg pipe.val k.val m.val i.val) 4 v.toNat f =
      (s.secureDenied (.steward st.val) (Reg.pipeProg pipe.val k.val m.val i.val)).denyWrite (.steward st.val)
        (Reg.pipeProg pipe.val k.val m.val i.val) := by
  have hsec : s.secureOk (.steward st.val) = false := by
    rw [State.secureOk, Initiator.secure, decide_eq_false (Nat.not_lt.2 hst)]
    rfl
  have hisland : Reg.pipeProg pipe.val k.val m.val i.val / 0x1000000 = 0x21 + pipe.val := by
    simp only [Reg.pipeProg, ctlAddr]
    omega
  have hden : s.ctlDenied (.steward st.val) (Reg.pipeProg pipe.val k.val m.val i.val) 4 = false := by
    have hin : islandAssigned (0x21 + pipe.val) = true := decide_eq_true (by omega)
    have hal : Reg.pipeProg pipe.val k.val m.val i.val % 4 = 0 := by
      simp only [Reg.pipeProg, ctlAddr]
      omega
    simp only [State.ctlDenied, hisland, hin, hal]
    rfl
  refine State.writeBy_secure _ _ hc hden ⟨?_, hsec⟩
  simp only [Reg.pipeProg, ctlAddr]
  omega

/-- A write that finds its slot in use is counted alone. -/
theorem slotUse_counted (s : State) (n k m i : Nat) :
    let t := s.pipeCount n 10
    { t with regs := s.regs } = s ∧
      t.rd (ctlAddr (0x21 + n) (0x800000 + 0x1000 * k + 0x80 * m + 4 * i)) =
        s.rd (ctlAddr (0x21 + n) (0x800000 + 0x1000 * k + 0x80 * m + 4 * i)) ∧
      t.rd (ctlAddr (0x21 + n) (0x4000 + 0x100 * k + 0x10 * m + 4 * (i % 4))) =
        s.rd (ctlAddr (0x21 + n) (0x4000 + 0x100 * k + 0x10 * m + 4 * (i % 4))) := by
  refine ⟨s.pipeCount_only n 10 1, s.rd_pipeCount n 10 1 (.inr ?_), s.rd_pipeCount n 10 1 (.inr ?_)⟩
  · simp only [pipeIsland, ctlAddr]
    omega
  · simp only [pipeIsland, ctlAddr]
    omega

/-- A word that is written. -/
theorem wr_ends (s : State) (a : Nat) (v : W32) :
    { s.wr a v with regs := s.regs } = s ∧ (s.wr a v).rd a = v ∧ ∀ b, b ≠ a → (s.wr a v).rd b = s.rd b :=
  ⟨rfl, s.rd_wr_self a v, fun _ hb => s.rd_wr_ne v hb⟩

theorem slotTblSet_free {n k m w : Nat} (h : s.slotInUse n k m = false) (v : W32) : s.slotTblSet n k m w v.toNat =
    s.wr (ctlAddr (0x21 + n) (0x4000 + 0x100 * k + 0x10 * m + 4 * w)) (v &&& (if w = 3 then 0x9F9F9F else 0x9F9F9F9F)) := by
  have hmask : BitVec.ofNat 32 (v.toNat &&& (if w = 3 then 0x9F9F9F else 0x9F9F9F9F)) = v &&& (if w = 3 then 0x9F9F9F else 0x9F9F9F9F) :=
    BitVec.eq_of_toNat_eq (by
      rw [BitVec.toNat_ofNat, BitVec.toNat_and, Nat.mod_eq_of_lt (Nat.lt_of_le_of_lt Nat.and_le_left v.isLt)]
      split <;> rfl)
  rw [State.slotTblSet, h, if_neg Bool.false_ne_true, hmask]
  rfl

theorem progSet_free {n k m i : Nat} (h : s.slotInUse n k m = false) (v : W32) : s.progSet n k m i v.toNat =
    s.wr (ctlAddr (0x21 + n) (0x800000 + 0x1000 * k + 0x80 * m + 4 * i)) v := by
  rw [State.progSet, h, if_neg Bool.false_ne_true, BitVec.ofNat_toNat, BitVec.setWidth_eq]
  rfl

end

/-! ### Table descriptors (R162, R168, R172) -/

section
variable {s t : State} {n q : Nat}

theorem State.tableLocked_congr (h : t.regs = s.regs) (hu : t.slotUntil = s.slotUntil) (n i : Nat) :
    t.tableLocked n i = s.tableLocked n i := by
  simp only [State.tableLocked, State.slotInUse_congr h hu, rdN_of_regs h, State.rd_congr h]

theorem State.tdesc_congr (h : t.regs = s.regs) (n i : Nat) : t.tdesc n i = s.tdesc n i := by
  rw [State.tdesc, State.tdesc, rdN_of_regs h]

/-- Table descriptors stand below the counters. -/
theorem tdesc_pipeCount (s : State) (n c k : Nat) {i : Nat} (hi : i < 32) : (s.pipeCount n c k).tdesc n i = s.tdesc n i :=
  congrArg tdescOf (State.rdN_congr fun j hj => s.rd_pipeCount n c k (.inl (by simp only [ctlAddr]; omega)))

/-- The bits of a descriptor. -/
theorem tdescOf_stored (v : Nat) :
    tdescOf ((fld v 0 13 + 2 ^ 16 * fld v 16 11 + 2 ^ 32 * fld v 32 32) % 2 ^ 64) = tdescOf v := by
  have hlt : fld v 0 13 + 2 ^ 16 * fld v 16 11 + 2 ^ 32 * fld v 32 32 < 2 ^ 64 := by
    have h0 := fld_lt v 0 13
    have h1 := fld_lt v 16 11
    have h2 := fld_lt v 32 32
    omega
  rw [Nat.mod_eq_of_lt hlt]
  simp only [tdescOf, bit, fld, Tdesc.mk.injEq, Nat.reducePow]
  refine ⟨?_, ?_, ?_, ?_, decide_eq_decide.2 ?_, decide_eq_decide.2 ?_, ?_⟩ <;> omega

/-! ### Staging buffers (R171) -/

theorem Tab.mem_of_find {α : Type} {t : Tab α} {k : Nat} (h : Tab.find t k ≠ none) : ∃ e ∈ t, e.1 = k := by
  induction t with
  | nil => exact absurd rfl h
  | cons e t ih =>
    by_cases hk : k = e.1
    · exact ⟨e, List.mem_cons_self, hk.symm⟩
    · rw [Tab.find, if_neg hk] at h
      obtain ⟨e', he', hk'⟩ := ih h
      exact ⟨e', List.mem_cons_of_mem _ he', hk'⟩

/-- What the emptying of staging buffers changes: the buffers and the counter of their words. -/
structure StagingOnly (q : Nat) (s t : State) : Prop where
  only : { t with regs := s.regs, staging := s.staging } = s
  tdesc : ∀ i, i < 32 → t.tdesc q i = s.tdesc q i

theorem StagingOnly.refl (q : Nat) (s : State) : StagingOnly q s s := ⟨rfl, fun _ _ => rfl⟩

theorem StagingOnly.trans {u : State} (h : StagingOnly q s t) (h' : StagingOnly q t u) : StagingOnly q s u :=
  ⟨(congrArg (fun x : State => { x with regs := s.regs, staging := s.staging }) h'.only :).trans h.only,
    fun i hi => (h'.tdesc i hi).trans (h.tdesc i hi)⟩

theorem dropStaging_none {key : Nat} (q : Nat) (h : Tab.find s.staging key = none) : s.dropStaging q key = s := by
  simp only [State.dropStaging, h]

theorem dropStaging_some {key : Nat} {b : Staging} (q : Nat) (h : Tab.find s.staging key = some b) :
    s.dropStaging q key = ({ s with staging := Tab.del s.staging key } : State).pipeCount q 9 b.words := by
  simp only [State.dropStaging, h]

theorem dropStaging_ends (s : State) (q key : Nat) : StagingOnly q s (s.dropStaging q key) ∧
    ∀ e, Tab.find (s.dropStaging q key).staging e = if e = key then none else Tab.find s.staging e := by
  cases hb : Tab.find s.staging key with
  | none =>
    rw [dropStaging_none q hb]
    refine ⟨StagingOnly.refl q s, fun e => ?_⟩
    split
    · next h => rw [h, hb]
    · rfl
  | some b =>
    rw [dropStaging_some q hb]
    have honly := ({ s with staging := Tab.del s.staging key } : State).pipeCount_only q 9 b.words
    have hdesc (i : Nat) (hi : i < 32) :
        (({ s with staging := Tab.del s.staging key } : State).pipeCount q 9 b.words).tdesc q i = s.tdesc q i :=
      tdesc_pipeCount _ q 9 b.words hi
    generalize ({ s with staging := Tab.del s.staging key } : State).pipeCount q 9 b.words = t at *
    refine ⟨⟨(congrArg (fun x : State => { x with staging := s.staging }) honly :), hdesc⟩, fun e => ?_⟩
    rw [← Tab.find_del, show t.staging = Tab.del s.staging key from congrArg State.staging honly]

/-- After the buffers of a list of keys none of the partition's is left that the list names. -/
theorem foldl_dropStaging_ends (q : Nat) (l : List (Nat × Staging)) (s : State) :
    let t := l.foldl (fun s e => if e.1 / 260 = q then s.dropStaging q e.1 else s) s
    StagingOnly q s t ∧ ∀ e, e / 260 = q → (Tab.find s.staging e ≠ none → ∃ x ∈ l, x.1 = e) → Tab.find t.staging e = none := by
  induction l generalizing s with
  | nil =>
    refine ⟨StagingOnly.refl q s, fun e _ h => ?_⟩
    cases hf : Tab.find s.staging e with
    | none => exact hf
    | some b =>
      obtain ⟨x, hx, -⟩ := h (by rw [hf]; exact Option.some_ne_none b)
      exact absurd hx List.not_mem_nil
  | cons x l ih =>
    have hstep : StagingOnly q s (if x.1 / 260 = q then s.dropStaging q x.1 else s) ∧ ∀ e, e / 260 = q →
        Tab.find (if x.1 / 260 = q then s.dropStaging q x.1 else s).staging e = if e = x.1 then none else Tab.find s.staging e := by
      split
      · obtain ⟨honly, hfind⟩ := dropStaging_ends s q x.1
        exact ⟨honly, fun e _ => hfind e⟩
      · next hx => exact ⟨StagingOnly.refl q s, fun e he => (if_neg fun h => hx (by rw [← h]; exact he)).symm⟩
    obtain ⟨honly, hfind⟩ := hstep
    obtain ⟨hrest, hnone⟩ := ih (if x.1 / 260 = q then s.dropStaging q x.1 else s)
    refine ⟨honly.trans hrest, fun e he h => hnone e he fun hne => ?_⟩
    rw [hfind e he] at hne
    by_cases hx : e = x.1
    · rw [if_pos hx] at hne
      exact absurd rfl hne
    · rw [if_neg hx] at hne
      obtain ⟨y, hy, hye⟩ := h hne
      obtain rfl | hy := List.mem_cons.1 hy
      · exact absurd hye.symm hx
      · exact ⟨y, hy, hye⟩

theorem dropStagings_ends (s : State) (q : Nat) :
    StagingOnly q s (s.dropStagings q) ∧ ∀ e, e / 260 = q → Tab.find (s.dropStagings q).staging e = none :=
  (foldl_dropStaging_ends q s.staging s).imp_right fun h e he => h e he Tab.mem_of_find

/-! ### Writes of table descriptors (R162, R168, R172) -/

theorem tableSet_locked {i v : Nat} (h : s.tableLocked n i = true) : s.tableSet n i v = s.pipeCount n 10 := if_pos h

theorem tableSet_outside {i v : Nat} (h : s.tableLocked n i = false)
    (hv : 16 < (tdescOf v).log2 ∨ 0x80000 < (tdescOf v).base + (tdescOf v).size) : s.tableSet n i v = s := by
  unfold State.tableSet
  rw [h, if_neg Bool.false_ne_true]
  exact if_pos hv

/-- The registers of a descriptor with the value that a write stores. -/
def State.tableWritten (s : State) (n i v : Nat) : State :=
  s.wrN (ctlAddr (pipeIsland n) (0x600 + 8 * i)) 2 (fld v 0 13 + 2 ^ 16 * fld v 16 11 + 2 ^ 32 * fld v 32 32)

theorem tableWritten_ends (s : State) (n i v : Nat) : { s.tableWritten n i v with regs := s.regs } = s ∧
    (s.tableWritten n i v).tdesc n i = tdescOf v ∧ ∀ j, j ≠ i → (s.tableWritten n i v).tdesc n j = s.tdesc n j := by
  refine ⟨s.wrN_only _ _ _, ?_, fun j hj => congrArg tdescOf (State.rdN_congr fun x hx => s.rd_wrN_ne _ _ _ _ fun y hy => ?_)⟩
  · rw [State.tdesc, State.tableWritten, State.rdN_wrN_self]
    exact tdescOf_stored v
  · simp only [ctlAddr]
    omega

/-- A descriptor that fits is written; one that becomes valid empties the partition's staging buffers. -/
theorem tableSet_fits {i v : Nat} (h : s.tableLocked n i = false) (hlog : (tdescOf v).log2 ≤ 16)
    (hfit : (tdescOf v).base + (tdescOf v).size ≤ 0x80000) :
    (s.tableSet n i v = s.tableWritten n i v ∨ s.tableSet n i v = (s.tableWritten n i v).dropStagings n) ∧
    ((tdescOf v).valid = true → (s.tdesc n i).valid = false → s.tableSet n i v = (s.tableWritten n i v).dropStagings n) := by
  have heq : s.tableSet n i v =
      let d := tdescOf v
      let old := s.tdesc n i
      let changed := old.base ≠ d.base || old.log2 ≠ d.log2 || old.klen ≠ d.klen || old.res ≠ d.res || old.direct != d.direct
      if (d.valid && !old.valid) || (old.valid && changed) then (s.tableWritten n i v).dropStagings n else s.tableWritten n i v := by
    unfold State.tableSet
    rw [h, if_neg Bool.false_ne_true]
    exact if_neg (by omega)
  rw [heq]
  dsimp only
  refine ⟨?_, fun hnew hold => ?_⟩
  · split
    · exact .inr rfl
    · exact .inl rfl
  · rw [hnew, hold]
    exact if_pos rfl

theorem tableSet_ends {i v : Nat} (hi : i < 32) (h : s.tableLocked n i = false) (hlog : (tdescOf v).log2 ≤ 16)
    (hfit : (tdescOf v).base + (tdescOf v).size ≤ 0x80000) :
    let t := s.tableSet n i v
    t.tdesc n i = tdescOf v ∧ (∀ j, j < 32 → j ≠ i → t.tdesc n j = s.tdesc n j) ∧
    { t with regs := s.regs, staging := s.staging } = s ∧
    (∀ e, e / 260 = n → (tdescOf v).valid = true → s.tdesc n i = { tdescOf v with valid := false } → Tab.find t.staging e = none) := by
  obtain ⟨hcases, hnew⟩ := tableSet_fits h hlog hfit
  obtain ⟨honly, hself, hother⟩ := tableWritten_ends s n i v
  obtain ⟨hdrop, hnone⟩ := dropStagings_ends (s.tableWritten n i v) n
  have hstaging : StagingOnly n (s.tableWritten n i v) (s.tableSet n i v) := by
    obtain e | e := hcases
    · rw [e]
      exact StagingOnly.refl n _
    · rw [e]
      exact hdrop
  refine ⟨(hstaging.tdesc i hi).trans hself, fun j hj hne => (hstaging.tdesc j hj).trans (hother j hne), ?_, fun e he hv hold => ?_⟩
  · exact (congrArg (fun x : State => { x with regs := s.regs, staging := s.staging }) hstaging.only :).trans
      (congrArg (fun x : State => { x with staging := s.staging }) honly :)
  · rw [hnew hv (by rw [hold])]
    exact hnone e he

theorem exec_pipeTableWrite {pipe i : Fin 32} (v : W64) (h : Open s (Reg.pipeTable pipe.val i.val)) :
    exec (.pipeTableWrite pipe i v) s = .next ((s.dropHeld (Reg.pipeTable pipe.val i.val) 2).tableSet pipe.val i.val v.toNat) :=
  congrArg Host.Outcome.next (State.rowWrite_open v.toNat (fun s => s.tableSet pipe.val i.val v.toNat) h)

end

/-! ### Slots passed over (R180) -/

section
variable {s : State}

/-- The slots at the front of a window that are passed over: not released, and their WAIT has ended. -/
def dueSlots (now : Nat) (l : List ReorderSlot) : List ReorderSlot := l.takeWhile fun x => x.released.isNone && decide (x.due ≤ now)

/-- A window after it has passed over what is due. -/
def Reorder.passed (w : Reorder) (now : Nat) : Reorder where
  slots := w.slots.drop (dueSlots now w.slots).length
  late := w.late ++ (dueSlots now w.slots).map (·.fid)

theorem Reorder.passed_none {w : Reorder} {now : Nat} (h : dueSlots now w.slots = []) : w.passed now = w := by
  rw [Reorder.passed, h, List.map_nil, List.append_nil]
  rfl

theorem Reorder.passed_due {now : Nat} {x : ReorderSlot} {rest : List ReorderSlot} {late : List Nat}
    (h : (x.released.isNone && decide (x.due ≤ now)) = true) :
    Reorder.passed ⟨x :: rest, late⟩ now = Reorder.passed ⟨rest, late ++ [x.fid]⟩ now := by
  simp only [Reorder.passed, dueSlots,
    List.takeWhile_cons_of_pos (p := fun x : ReorderSlot => x.released.isNone && decide (x.due ≤ now)) h, List.length_cons, List.drop_succ_cons, List.map_cons, List.append_assoc, List.singleton_append]

theorem window_setWindow (s : State) (n : Nat) (w : Reorder) : (s.setWindow n w).window n = w := Tab.get_put_self _ _ _ _

theorem window_setWindow_ne (s : State) {n q : Nat} (w : Reorder) (h : q ≠ n) : (s.setWindow n w).window q = s.window q :=
  Tab.get_put_ne _ _ _ h

theorem passOver_window (fuel n : Nat) (s : State) (h : (s.window n).slots.length ≤ fuel) :
    (State.passOver fuel n s).window n = (s.window n).passed s.ictNs := by
  induction fuel generalizing s with
  | zero =>
    have hnil := List.length_eq_zero_iff.1 (Nat.le_zero.1 h)
    exact (Reorder.passed_none (w := s.window n) (by rw [hnil]; rfl)).symm
  | succ fuel ih =>
    rw [State.passOver]
    cases hw : s.window n with
    | mk slots late =>
      rw [hw] at h
      cases slots with
      | nil => exact hw.trans (Reorder.passed_none rfl).symm
      | cons x rest =>
        dsimp only
        split
        · next hx =>
          rw [ih _ (by rw [window_setWindow]; exact Nat.le_of_succ_le_succ h), window_setWindow, Reorder.passed_due hx]
          rfl
        · next hx =>
          refine hw.trans (Reorder.passed_none ?_).symm
          exact List.takeWhile_cons_of_neg hx

theorem passOver_others (fuel : Nat) {n q : Nat} (hq : q ≠ n) (s : State) : (State.passOver fuel n s).window q = s.window q := by
  induction fuel generalizing s with
  | zero => rfl
  | succ fuel ih =>
    rw [State.passOver]
    split
    · split
      · exact (ih _).trans (window_setWindow_ne _ _ hq)
      · rfl
    · rfl

theorem exec_reorderPassOver {pipe : Fin 16} (h : s.stopped = false) :
    exec (.reorderPassOver pipe) s = .next (s.passOverDue pipe.val).settle := by
  show execReorderPassOver pipe s = _
  rw [execReorderPassOver, h, if_neg Bool.false_ne_true]
  rfl

end

/-- Settles O35: the writes by whether what they change is in use or locked, and the slots passed over by induction on the
window's length. -/
theorem pipelineRegisters : Obligations.PipelineRegisters := by
  unfold Obligations.PipelineRegisters
  refine ⟨⟨fun pipe p v s h => pipeProfileWrite_ends v h, slotRelease_ends, fun st pipe k m tbl i v s => ?_, fun pipe i v s => ?_⟩,
    fun pipe s hs => ⟨_, exec_reorderPassOver hs, passOver_window _ _ s le_rfl, fun q hq => passOver_others _ hq s,
      State.passOver_only _ _ s⟩⟩
  · intro c prog bind x a
    cases tbl with
    | false =>
      have hexec : exec c s = _ := exec_pipeProgWrite_prog
      refine ⟨fun hc => ?_, fun hc _ hst => ?_, fun ho => ⟨fun hu => ?_, fun hu => ?_⟩⟩
      · exact hexec.trans (congrArg Host.Outcome.next (State.writeBy_not_canWrite _ _ hc))
      · exact hexec.trans (congrArg Host.Outcome.next (writeBy_prog_refused hst hc))
      · refine ⟨_, hexec.trans (congrArg Host.Outcome.next (State.writeBy_openTo _ _ ho)), ?_⟩
        rw [State.progSet, if_pos hu]
        exact slotUse_counted s _ _ _ _
      · refine ⟨_, hexec.trans (congrArg Host.Outcome.next (State.writeBy_openTo _ _ ho)), ?_⟩
        rw [progSet_free hu]
        exact wr_ends s _ _
    | true =>
      have hexec : exec c s = _ := exec_pipeProgWrite_bind
      rw [pipeSlotTbl_word] at hexec
      refine ⟨fun hc => ?_, nofun, fun ho => ⟨fun hu => ?_, fun hu => ?_⟩⟩
      · exact hexec.trans (congrArg Host.Outcome.next (State.writeBy_not_canWrite _ _ hc))
      · refine ⟨_, hexec.trans (congrArg Host.Outcome.next (State.writeBy_openTo _ _ ho)), ?_⟩
        rw [State.slotTblSet, if_pos hu]
        exact slotUse_counted s _ _ _ _
      · refine ⟨_, hexec.trans (congrArg Host.Outcome.next (State.writeBy_openTo _ _ ho)), ?_⟩
        rw [slotTblSet_free hu]
        exact wr_ends s _ _
  · intro c d ho
    have hexec : exec c s = _ := exec_pipeTableWrite v ho
    have hregs := s.dropHeld_regs (Reg.pipeTable pipe.val i.val) 2
    have hd := s.dropHeld_only (Reg.pipeTable pipe.val i.val) 2
    generalize s.dropHeld (Reg.pipeTable pipe.val i.val) 2 = u at *
    have hlock : u.tableLocked pipe.val i.val = s.tableLocked pipe.val i.val :=
      State.tableLocked_congr hregs (congrArg State.slotUntil hd :) _ _
    have hdesc (q : Nat) : u.tdesc pipe.val q = s.tdesc pipe.val q := State.tdesc_congr hregs _ _
    refine ⟨fun h => ⟨_, hexec, ?_⟩, fun h hv => ?_, fun h hlog hfit => ⟨_, hexec, ?_⟩⟩
    · rw [tableSet_locked (hlock.trans h)]
      exact ⟨(congrArg (fun x : State => { x with regs := s.regs, held := s.held }) (u.pipeCount_only pipe.val 10 1) :).trans
        (congrArg (fun x : State => { x with regs := s.regs }) hd :), (tdesc_pipeCount u _ _ _ i.isLt).trans (hdesc _)⟩
    · rw [hexec, tableSet_outside (hlock.trans h) hv]
    · obtain ⟨hself, hother, honly, hnone⟩ := tableSet_ends i.isLt (hlock.trans h) hlog hfit
      generalize u.tableSet pipe.val i.val v.toNat = t at *
      exact ⟨hself, fun q hq hne => (hother q hq hne).trans (hdesc q),
        (congrArg (fun x : State => { x with regs := s.regs, staging := s.staging, held := s.held }) honly :).trans
          (congrArg (fun x : State => { x with regs := s.regs, staging := s.staging }) hd :),
        fun e he hv hold => hnone e he hv ((hdesc _).trans hold)⟩

end Sys2Proof.Machine
end

section
/-! Proofs about a prefetched head that has outlived its age limit (R196, R201, R203), and the refutation of obligation O36. -/

namespace Sys2Proof.Machine

open Sys2Proof.Safety

/-- A head past its age limit leaves the Coolbox segment, is counted in AGE_DROP and AGE_DROP_CB, and is discarded; the discard,
which ends its charges, comes last. -/
theorem exec_prefetchComplete_expired {m : Fin 32} {q : W32} {s : State} {e : QEnt} {rest : List QEnt} (hs : s.stopped = false)
    (hcool : (s.outQ q.toNat).cool = e :: rest) (hmem : e.mem = m.val)
    (hroom : (s.outQ q.toNat).onChip < s.rf Reg.spillCfg spillCfg_PREFETCH * 4096) (hage : s.expired (s.frame e.fid) e.mem = true) :
    exec (.prefetchComplete m q false) s = .next ((((s.setOutQ q.toNat ({ s.outQ q.toNat with cool := rest } : OutQ).settle).fabCount
      7).fabCount 8).discard e.fid) := by
  have hreads : ¬(e.mem ≠ m.val ∨ s.rf Reg.spillCfg spillCfg_PREFETCH * 4096 ≤ (s.outQ q.toNat).onChip) := by
    rintro (h | h)
    · exact h hmem
    · exact absurd hroom (Nat.not_lt.mpr h)
  show execPrefetchComplete m q false s = _
  simp only [execPrefetchComplete, hs, hcool, if_neg hreads, hage, Bool.false_eq_true, if_false, if_true]

/-- Ingress accounting has 2,048 entries; the use of an entry numbered 3,591 would stand where AGE_DROP does. -/
theorem iaccUse_beyond_table : Reg.iaccUse 3591 = Reg.fabCnt 7 := rfl

/-- A frame of 64 bytes of which one byte is charged to ingress accounting entry 3,591, and nothing to another. -/
def strayFrame : Frame := { ({ data := List.replicate 64 7 } : Frame).sf sfLen 64 with iacc := some (3591, 1) }

/-- At 1 µs with an age limit of 1 µs in memory 0, the frame is the head of the Coolbox segment of queue 0. -/
def strayAged : State :=
  { State.reset.setRf (Reg.fabAge 0 0) fabAge_LIMIT 1 with
    boot := { phase := .running }, clock := { ict := 2 ^ 24 * 1000 }, frames := [(1, strayFrame)]
    outQs := [(0, { spill := true, cool := [⟨1, 0, 64, [(7, 0)]⟩] })] }

theorem strayAged_expired : strayAged.expired (strayAged.frame 1) 0 = true := by decide

theorem strayAged_reads : (strayAged.outQ 0).onChip < strayAged.rf Reg.spillCfg spillCfg_PREFETCH * 4096 := by decide

/-- The end of the stray charge takes its byte from AGE_DROP, which has just counted the frame. -/
theorem strayAged_ageDrop {t : State} (h : exec (.prefetchComplete 0 0 false) strayAged = .next t) : t.rdN (Reg.fabCnt 7) 2 = 0 := by
  rw [exec_prefetchComplete_expired (by decide) rfl rfl strayAged_reads strayAged_expired] at h
  cases h
  decide

/-- Refutes O36 in its clause on a prefetched head past its age limit (R203): the statement puts no bound on the entry of ingress
accounting that a frame is charged to, and the use of an entry beyond the 2,048 of R196 may be the very word that counts the
drop. The counterexample is a state that such a charge has been put into: R196 numbers the entries 8 (8 n + s) + TC, which
stays below 2,048. -/
theorem not_fabricAndStore : ¬ Obligations.FabricAndStore := by
  intro h
  obtain ⟨-, -, hspill, -⟩ := h
  obtain ⟨-, -, -, -, -, hhead⟩ := hspill 0 0 strayAged (by decide)
  obtain ⟨-, hexpired, -⟩ := hhead _ [] rfl rfl strayAged_reads
  obtain ⟨t, ht, -, -, -, hdrop, -⟩ := hexpired strayAged_expired
  exact absurd ((strayAged_ageDrop ht).symm.trans hdrop) (by decide)

end Sys2Proof.Machine
end

section
/-! SUPPORT. Numbers written in a row of words and read in part, keys that a table does not list, and the reset values of registers
that stand one after the other. -/

namespace Sys2Proof.Machine

/-! ### Words in a row -/

/-- A word of a number that has been written in a row of words. -/
theorem State.rd_wrN_at (s : State) (a : Nat) {n i : Nat} (v : Nat) (h : i < n) :
    (s.wrN a n v).rd (a + 4 * i) = BitVec.ofNat 32 (v / 2 ^ (32 * i)) := by
  induction n generalizing s a v i with
  | zero => omega
  | succ n ih =>
    cases i with
    | zero =>
      simp only [Nat.mul_zero, Nat.add_zero, Nat.pow_zero, Nat.div_one]
      rw [State.wrN, State.rd_wrN_ne _ _ _ _ _ fun i _ => by omega, State.rd_wr_self]
    | succ i =>
      rw [State.wrN, show a + 4 * (i + 1) = a + 4 + 4 * i by omega, ih _ _ _ (by omega), Nat.div_div_eq_div_mul, ← Nat.pow_add,
        show 32 + 32 * i = 32 * (i + 1) by omega]

/-- A part of a number that has been written in a row of words. -/
theorem State.rdN_wrN_within (s : State) (a : Nat) {n j m : Nat} (v : Nat) (h : j + m ≤ n) :
    (s.wrN a n v).rdN (a + 4 * j) m = v / 2 ^ (32 * j) % 2 ^ (32 * m) := by
  induction m generalizing j with
  | zero => rw [State.rdN, Nat.mul_zero, Nat.pow_zero, Nat.mod_one]
  | succ m ih =>
    rw [State.rdN, State.rd_wrN_at _ _ _ (by omega), show a + 4 * j + 4 = a + 4 * (j + 1) by omega, ih (by omega), BitVec.toNat_ofNat,
      show 32 * (m + 1) = 32 + 32 * m by omega, Nat.pow_add, Nat.mod_mul, Nat.div_div_eq_div_mul, ← Nat.pow_add,
      show 32 * j + 32 = 32 * (j + 1) by omega]

/-- A field of a register whose words have been written. -/
theorem State.rf_wrN (s : State) (a : Nat) {n : Nat} (v : Nat) {f : Fld} (h : f.lo / 32 + f.words ≤ n) :
    (s.wrN a n v).rf a f = fld v f.lo f.width := by
  rw [State.rf, State.rdN_wrN_within _ _ _ h, fld_mod_two_pow _ _ _ _ f.le_words, fld, fld, Nat.div_div_eq_div_mul, ← Nat.pow_add,
    Nat.div_add_mod]

/-- A field within the first `m` bytes of a register, where these are as they were. -/
theorem State.rf_of_rd {s t : State} {a m : Nat} {f : Fld} (hf : 4 * (f.lo / 32) + 4 * f.words ≤ m)
    (h : ∀ b, a ≤ b → b < a + m → t.rd b = s.rd b) : t.rf a f = s.rf a f := by
  rw [State.rf, State.rf, State.rdN_congr fun i hi => h _ (by omega) (by omega)]

/-! ### Lists and tables -/

/-- A key that is not listed reads as its default. -/
theorem Tab.get_unlisted {α : Type} (d : α) {t : Tab α} {k : Nat} (h : ∀ e ∈ t, e.1 ≠ k) : Tab.get d t k = d := by
  induction t with
  | nil => rfl
  | cons e t ih =>
    obtain ⟨he, ht⟩ := List.forall_mem_cons.mp h
    rw [Tab.get, if_neg (Ne.symm he), ih ht]

theorem nodup_eraseDups (l : List Nat) : l.eraseDups.Nodup := by
  induction hn : l.length using Nat.strong_induction_on generalizing l with
  | _ n ih =>
    cases l with
    | nil => exact List.nodup_nil
    | cons a l =>
      have hlen := List.length_filter_le (fun b => !b == a) l
      rw [List.length_cons] at hn
      rw [List.eraseDups_cons]
      exact List.nodup_cons.mpr ⟨by simp, ih _ (by omega) _ rfl⟩

/-! ### Registers one after the other -/

theorem findReg_mem {ds : List RegDesc} {a : Nat} {d : RegDesc} {w : Nat} (h : findReg ds a = some (d, w)) : d ∈ ds := by
  induction ds with
  | nil => cases h
  | cons x ds ih =>
    rw [findReg] at h
    split at h
    · cases h
      exact List.mem_cons_self
    · exact List.mem_cons_of_mem _ (ih h)

/-- Elements of `n` words stand one after the other, from a multiple of their size on. -/
def RegDesc.packed (d : RegDesc) (n : Nat) : Bool :=
  decide (d.words = n) && decide (d.offset % (4 * n) = 0) && match d.dims with
    | [] => true
    | [x] => decide (x.1 = 4 * n)
    | _ => false

/-- Which word of its element an address is, where elements of `n` words stand one after the other. -/
theorem packed_word {d : RegDesc} {n a w : Nat} (hp : d.packed n = true) (h : d.wordAt a = some w) :
    w = a % 0x1000000 % (4 * n) / 4 := by
  unfold RegDesc.packed at hp
  unfold RegDesc.wordAt at h
  simp only [Bool.and_eq_true, decide_eq_true_eq] at hp
  obtain ⟨⟨hw, ho⟩, hd⟩ := hp
  split at h
  · next hin =>
    obtain ⟨c, hc⟩ := Nat.dvd_of_mod_eq_zero ho
    obtain ⟨r, hr⟩ := Nat.exists_eq_add_of_le hin.2.2.1
    rw [hr, Nat.add_sub_cancel_left, hw] at h
    rw [hr, hc, Nat.mul_add_mod]
    split at hd
    · next hnil =>
      rw [hnil, wordIn] at h
      split at h
      · next hlt =>
        cases h
        rw [Nat.mod_eq_of_lt hlt]
      · cases h
    · next x hone =>
      rw [hone, wordIn, of_decide_eq_true hd] at h
      split at h
      · rw [wordIn] at h
        split at h
        · cases h
          rfl
        · cases h
      · cases h
    · cases hd
  · cases h

theorem wordAt_offset_le {d : RegDesc} {a w : Nat} (h : d.wordAt a = some w) : d.offset ≤ a % 0x1000000 := by
  unfold RegDesc.wordAt at h
  split at h
  · next hin => exact hin.2.2.1
  · cases h

/-- What is true of the reset value of word `j` of every element, in a part of an island where elements of `n` words stand one
after the other. -/
theorem regReset_packed {a n lo hi j : Nat} {P : W32 → Prop} (h0 : P 0)
    (hrows : ∀ d ∈ regsOf (a / 0x1000000), d.below lo = true ∨ hi ≤ d.offset ∨ d.packed n = true ∧ P (d.resetWord j))
    (hlo : lo ≤ a % 0x1000000) (hhi : a % 0x1000000 < hi) (ha : a % 0x1000000 % (4 * n) / 4 = j) : P (regReset a) := by
  unfold regReset
  split
  · next d w h =>
    have hw := findReg_wordAt h
    obtain hb | ho | ⟨hp, hq⟩ := hrows d (findReg_mem h)
    · rw [wordAt_below hb hlo] at hw
      cases hw
    · exact absurd (wordAt_offset_le hw) (by omega)
    · rw [packed_word hp hw, ha]
      exact hq
  · exact h0

end Sys2Proof.Machine
end

section
/-! Shapers (R219 to R223): the boundaries that are due, the refills of an island, and writes of configurations. -/

namespace Sys2Proof.Machine

open Sys2Proof.Safety

/-! ### Where the registers of shapers stand -/

section
variable {i x y : Nat}

/-- The islands that hold shapers, and how many they hold (R219, R225, R279). -/
theorem shaperExists_cases (h : shaperExists i x = true) :
    (0x31 ≤ i ∧ i ≤ 0x40 ∨ 0x61 ≤ i ∧ i ≤ 0x68) ∧ x < 12384 ∨ (i = 0x5B ∨ i = 0x5C) ∧ x < 256 := by
  unfold shaperExists at h
  split_ifs at h <;> simp only [Bool.and_eq_true, Bool.or_eq_true, decide_eq_true_eq] at h <;> omega

/-- The configuration of a shaper stands below the balances of its island. -/
theorem shaperCfg_below (h : shaperExists i y = true) (x : Nat) : shaperCfgAddr i y + 8 ≤ shaperBalAddr i x := by
  have hi := shaperExists_cases h
  simp only [shaperCfgAddr, shaperBalAddr, ctlAddr]
  split <;> omega

theorem shaperBal_apart (h : x ≠ y) :
    shaperBalAddr i y + 8 ≤ shaperBalAddr i x ∨ shaperBalAddr i x + 8 ≤ shaperBalAddr i y := by
  simp only [shaperBalAddr]
  split <;> simp only [ctlAddr] <;> omega

theorem shaperBal_first (i x : Nat) : shaperBalAddr i 0 ≤ shaperBalAddr i x := by
  simp only [shaperBalAddr]
  split <;> simp only [ctlAddr] <;> omega

theorem regsOf_egress (h : 0x31 ≤ i ∧ i ≤ 0x40) : regsOf i = regsEgress := by
  rw [regsOf, if_neg (by omega), if_neg (by omega), if_neg (by omega), if_pos (by omega)]

theorem regsOf_ingest (h : i = 0x5B ∨ i = 0x5C) : regsOf i = regsIngest := by
  obtain rfl | rfl := h <;> rfl

/-- The islands of host links and of Hamper links. -/
theorem regsOf_side (h : 0x61 ≤ i ∧ i ≤ 0x68) : regsOf i = regsHost ∨ regsOf i = regsHamper := by
  obtain ⟨k, rfl⟩ := Nat.exists_eq_add_of_le h.1
  by_cases hk : k < 2
  · left
    interval_cases k <;> rfl
  · right
    have : k < 8 := by omega
    interval_cases k <;> rfl

/-- RATE and EN of a shaper of no class K reset to zero (R222). -/
theorem regReset_shaperCfg (h : shaperExists i x = true) (hk : shaperIsK i x = false) : regReset (shaperCfgAddr i x) = 0 := by
  obtain ⟨hi, hx⟩ | ⟨hi, hx⟩ := shaperExists_cases h
  · have hx' : x < 12368 := by
      simp only [shaperIsK, Bool.and_eq_false_iff, decide_eq_false_iff_not] at hk
      omega
    have ha : shaperCfgAddr i x = i * 0x1000000 + (0x100000 + 8 * x) := by rw [shaperCfgAddr, if_neg (by omega), ctlAddr]
    have hisl : shaperCfgAddr i x / 0x1000000 = i := by omega
    refine regReset_packed (n := 2) (j := 0) (lo := 0x100000) (hi := 0x118280) (P := (· = 0)) rfl ?_ (by omega) (by omega) (by omega)
    rw [hisl]
    obtain hi | hi := hi
    · rw [regsOf_egress hi]
      decide
    · obtain hr | hr := regsOf_side hi
      · rw [hr]
        decide
      · rw [hr]
        decide
  · have ha : shaperCfgAddr i x = i * 0x1000000 + (0x10000 + 8 * x) := by rw [shaperCfgAddr, if_pos hi, ctlAddr]
    have hisl : shaperCfgAddr i x / 0x1000000 = i := by omega
    refine regReset_packed (n := 2) (j := 0) (lo := 0x10000) (hi := 0x10800) (P := (· = 0)) rfl ?_ (by omega) (by omega) (by omega)
    rw [hisl, regsOf_ingest hi]
    decide

end
/-! ### Balances and limits -/

section
variable {s t u : State} {i n x y : Nat}

/-- A balance is a signed number of 48 bits. -/
theorem shaperBal_ge (s : State) (i x : Nat) : -(2 ^ 47) ≤ s.shaperBal i x := by
  have h : s.rf (shaperBalAddr i x) tmShaperBal_BAL < 2 ^ 48 := fld_lt _ _ _
  unfold State.shaperBal sgn
  split <;> omega

/-- A limit is far below the largest balance. -/
theorem shaperLimit_range (s : State) (i x : Nat) : 0 ≤ s.shaperLimit i x ∧ s.shaperLimit i x < 2 ^ 47 := by
  have h : s.rf (shaperCfgAddr i x) tmShaperCfg_BURST < 2 ^ 24 := fld_lt _ _ _
  unfold State.shaperLimit
  omega

theorem shaperBal_setShaperBal (s : State) (i x : Nat) {v : Int} (hlo : -(2 ^ 47) ≤ v) (hhi : v < 2 ^ 47) :
    (s.setShaperBal i x v).shaperBal i x = v := by
  rw [State.shaperBal, State.setShaperBal, State.rf_setRf_same]
  show sgn 48 ((v % 2 ^ 48).toNat % 2 ^ 48) = v
  unfold sgn
  split <;> omega

theorem setShaperBal_only (s : State) (i x : Nat) (v : Int) : { s.setShaperBal i x v with regs := s.regs } = s := s.setRf_only _ _ _

/-- A balance that is set leaves every other word alone. -/
theorem rd_setShaperBal (s : State) (i x : Nat) (v : Int) {b : Nat} (h : b < shaperBalAddr i x ∨ shaperBalAddr i x + 8 ≤ b) :
    (s.setShaperBal i x v).rd b = s.rd b :=
  s.rd_setRf_ne _ _ _ _ fun j hj => by
    rw [show tmShaperBal_BAL.words = 2 from rfl] at hj
    rw [show tmShaperBal_BAL.lo = 0 from rfl]
    omega

/-- A field of a configuration whose words are as they were. -/
theorem shaperCfg_of_rd (hx : shaperExists i x = true) (h : ∀ b, b < shaperBalAddr i 0 → t.rd b = s.rd b) {f : Fld}
    (hf : 4 * (f.lo / 32) + 4 * f.words ≤ 8) : t.rf (shaperCfgAddr i x) f = s.rf (shaperCfgAddr i x) f :=
  State.rf_of_rd hf fun b _ hlt => h b (hlt.trans_le (shaperCfg_below hx 0))

theorem shaperBal_of_rd (h : ∀ b, shaperBalAddr i x ≤ b → b < shaperBalAddr i x + 8 → t.rd b = s.rd b) :
    t.shaperBal i x = s.shaperBal i x := by
  rw [State.shaperBal, State.shaperBal, State.rf_of_rd (by decide) h]

/-- Nothing but registers and the boundaries served has changed. -/
def RefillOnly (s t : State) : Prop := { t with regs := s.regs, served := s.served } = s

theorem RefillOnly.trans (h : RefillOnly s t) (h' : RefillOnly t u) : RefillOnly s u :=
  (congrArg (fun x : State => { x with regs := s.regs, served := s.served }) h' :).trans h

theorem RefillOnly.of_regs (h : { t with regs := s.regs } = s) : RefillOnly s t :=
  (congrArg (fun x : State => { x with served := s.served }) h :)

/-! ### Refills (R220) -/

/-- A balance after the refills of `n` boundaries. -/
def State.shaperRefilled (s : State) (i n x : Nat) : Int :=
  min (s.shaperBal i x + (n * (s.rf (shaperCfgAddr i x) tmShaperCfg_RATE * 32) : Nat)) (s.shaperLimit i x)

theorem shaperBal_refillShaper (s : State) (i n x : Nat) : (s.refillShaper i n x).shaperBal i x = s.shaperRefilled i n x := by
  have hb := shaperBal_ge s i x
  have hl := shaperLimit_range s i x
  refine shaperBal_setShaperBal s i x ?_ ?_
  · exact le_min (by omega) (by omega)
  · exact min_lt_of_right_lt hl.2

theorem shaperBal_refillShaper_ne (s : State) (i n : Nat) (h : y ≠ x) : (s.refillShaper i n x).shaperBal i y = s.shaperBal i y :=
  shaperBal_of_rd fun b hlo hhi => rd_setShaperBal s i x _ (by have := shaperBal_apart (i := i) h; omega)

theorem rd_refillShaper (s : State) (i n x : Nat) {b : Nat} (h : b < shaperBalAddr i 0) : (s.refillShaper i n x).rd b = s.rd b :=
  rd_setShaperBal s i x _ (.inl (h.trans_le (shaperBal_first i x)))

theorem shaperLimit_eq (s : State) (i x : Nat) :
    s.shaperLimit i x = (s.rf (shaperCfgAddr i x) tmShaperCfg_BURST * 16384 : Nat) := by
  rw [State.shaperLimit, Nat.mul_assoc]

/-- What a balance is refilled to depends on the balance and the configuration alone. -/
theorem shaperRefilled_congr (hx : shaperExists i x = true) (hr : ∀ b, b < shaperBalAddr i 0 → t.rd b = s.rd b)
    (hb : t.shaperBal i x = s.shaperBal i x) : t.shaperRefilled i n x = s.shaperRefilled i n x := by
  rw [State.shaperRefilled, State.shaperRefilled, State.shaperLimit, State.shaperLimit, hb, shaperCfg_of_rd hx hr (by decide),
    shaperCfg_of_rd hx hr (by decide)]

/-- Each shaper of a list is refilled once. -/
theorem foldl_refillShaper_ends (i n : Nat) {l : List Nat} (hl : l.Nodup) (s : State) :
    let t := l.foldl (fun s x => s.refillShaper i n x) s
    { t with regs := s.regs } = s ∧ (∀ b, b < shaperBalAddr i 0 → t.rd b = s.rd b) ∧
      ∀ y, shaperExists i y = true → t.shaperBal i y = if y ∈ l then s.shaperRefilled i n y else s.shaperBal i y := by
  induction l generalizing s with
  | nil => exact ⟨rfl, fun _ _ => rfl, fun y _ => (if_neg List.not_mem_nil).symm⟩
  | cons x l ih =>
    obtain ⟨hx, hl⟩ := List.nodup_cons.mp hl
    obtain ⟨honly, hrd, hbal⟩ := ih hl (s.refillShaper i n x)
    have hcfg (b : Nat) (hb : b < shaperBalAddr i 0) := rd_refillShaper s i n x hb
    refine ⟨(congrArg (fun t : State => { t with regs := s.regs }) honly :).trans (setShaperBal_only ..),
      fun b hb => (hrd b hb).trans (hcfg b hb), fun y hy => (hbal y hy).trans ?_⟩
    by_cases hyx : y = x
    · subst hyx
      rw [if_neg hx, if_pos List.mem_cons_self, shaperBal_refillShaper]
    · have hsame := shaperBal_refillShaper_ne s i n hyx
      rw [shaperRefilled_congr hy hcfg hsame, hsame]
      simp only [List.mem_cons, hyx, false_or]

/-- The class K shapers of an island are among those that are refilled. -/
def kShapers (i : Nat) : List Nat := if 0x31 ≤ i ∧ i ≤ 0x40 then (List.range 16).map (12368 + ·) else [12368]

theorem mem_liveShapers : x ∈ s.liveShapers i ↔
    ((∃ e ∈ s.regs, (shaperCfgAddr i 0 ≤ e.1 ∧ e.1 < shaperCfgAddr i 0 + 8 * 12384) ∧ (e.1 - shaperCfgAddr i 0) / 8 = x) ∨
      x ∈ kShapers i) ∧ shaperExists i x = true := by
  simp only [State.liveShapers, kShapers, List.mem_eraseDups, List.mem_filter, List.mem_append, List.mem_map, Bool.and_eq_true,
    decide_eq_true_eq, and_assoc]

theorem nodup_liveShapers (s : State) (i : Nat) : (s.liveShapers i).Nodup := nodup_eraseDups _

theorem mem_kShapers (hx : shaperExists i x = true) (hk : shaperIsK i x = true) : x ∈ kShapers i := by
  unfold shaperExists at hx
  simp only [shaperIsK, Bool.and_eq_true, decide_eq_true_eq] at hk
  unfold kShapers
  split_ifs at hx ⊢ with h1 h2
  · simp only [decide_eq_true_eq] at hx
    exact List.mem_map.mpr ⟨x - 12368, List.mem_range.mpr (by omega), by omega⟩
  · simp only [Bool.or_eq_true, Bool.and_eq_true, decide_eq_true_eq] at hx
    exact List.mem_singleton.mpr (by omega)
  · simp only [Bool.or_eq_true, Bool.and_eq_true, decide_eq_true_eq] at hx
    omega

/-- The configurations of an island's shapers stand one after the other. -/
theorem shaperCfg_step (i x : Nat) : shaperCfgAddr i x = shaperCfgAddr i 0 + 8 * x := by
  unfold shaperCfgAddr ctlAddr
  split <;> omega

/-- A shaper that is not refilled stands at its values from reset, with RATE zero (R222). -/
theorem rate_not_live (hx : shaperExists i x = true) (hm : x ∉ s.liveShapers i) :
    s.rf (shaperCfgAddr i x) tmShaperCfg_RATE = 0 := by
  have hcases := shaperExists_cases hx
  rw [mem_liveShapers, not_and_or, not_or] at hm
  obtain ⟨hlisted, hnk⟩ := hm.resolve_right fun h => h hx
  have hk : shaperIsK i x = false := by
    by_contra hk
    exact hnk (mem_kShapers hx (eq_true_of_ne_false hk))
  have hstep := shaperCfg_step i x
  have hrd : s.rd (shaperCfgAddr i x) = 0 := by
    refine (Tab.get_unlisted _ fun e he hkey => hlisted ⟨e, he, ?_, ?_⟩).trans (regReset_shaperCfg hx hk)
    · omega
    · omega
  rw [State.rf_word _ _ (by decide) (by decide), hrd]
  rfl

theorem refillsDue_markServed (s : State) (k : Nat) : (s.markServed k).refillsDue k = 0 := by
  rw [State.refillsDue, State.markServed]
  exact (congrArg _ (Tab.get_set_self _ _ _ _)).trans (Nat.sub_self _)

/-- What is due is refilled, each shaper once; nothing but registers and the boundaries served changes. -/
theorem refillShapers_ends (s : State) (i : Nat) :
    let t := s.refillShapers i
    RefillOnly s t ∧ t.refillsDue i = 0 ∧ (∀ b, b < shaperBalAddr i 0 → t.rd b = s.rd b) ∧
      ∀ x, shaperExists i x = true → s.shaperBal i x ≤ s.shaperLimit i x → t.shaperBal i x = s.shaperRefilled i (s.refillsDue i) x := by
  obtain ⟨honly, hrd, hbal⟩ := foldl_refillShaper_ends i (s.refillsDue i) (nodup_liveShapers s i) s
  unfold State.refillShapers
  dsimp only
  split
  · next hn =>
    refine ⟨rfl, hn, fun _ _ => rfl, fun x _ hle => ?_⟩
    rw [hn, State.shaperRefilled, Nat.zero_mul, Nat.cast_zero, add_zero, min_eq_left hle]
  · refine ⟨(congrArg (fun t : State => { t with served := s.served }) honly :), ?_, hrd, fun x hx hle => (hbal x hx).trans ?_⟩
    · exact refillsDue_markServed _ _
    · split
      · rfl
      · next hm =>
        rw [State.shaperRefilled, rate_not_live hx hm, Nat.zero_mul, Nat.mul_zero, Nat.cast_zero, add_zero, min_eq_left hle]

theorem refillShapers_regs_congr (hr : t.regs = s.regs) (hs : t.served = s.served) (hc : t.clock = s.clock) (i : Nat) :
    (t.refillShapers i).regs = (s.refillShapers i).regs := by
  have hdue : t.refillsDue i = s.refillsDue i := by
    rw [State.refillsDue, State.refillsDue, State.micros, State.micros, State.ictNs, State.ictNs, hs, hc]
  have hlive : t.liveShapers i = s.liveShapers i := by rw [State.liveShapers, State.liveShapers, hr]
  have hfold (l : List Nat) (n : Nat) : ∀ {s t : State}, t.regs = s.regs →
      (l.foldl (fun s x => s.refillShaper i n x) t).regs = (l.foldl (fun s x => s.refillShaper i n x) s).regs := by
    induction l with
    | nil => exact fun h => h
    | cons x l ih =>
      refine fun h => ih ?_
      simp only [State.refillShaper, State.setShaperBal, State.setRf, State.shaperBal, State.shaperLimit, rf_of_regs h, rdN_of_regs h]
      exact State.wrN_regs_congr h _ _ _
  unfold State.refillShapers
  dsimp only
  rw [hdue, hlive]
  split
  · exact hr
  · exact hfold _ _ hr

/-! ### SHAPER_REFILL (R220) -/

theorem shaperRefill_ends (k : Fin 256) (h : s.stopped = false) (hx : shaperExists k.val x = true)
    (hle : s.shaperBal k.val x ≤ s.shaperLimit k.val x) : Ends (.shaperRefill k) s fun t =>
      { t with regs := s.regs, served := s.served } = s ∧ t.refillsDue k.val = 0 ∧
        t.shaperBal k.val x = s.shaperRefilled k.val (s.refillsDue k.val) x := by
  obtain ⟨honly, hdue, -, hbal⟩ := refillShapers_ends s k.val
  refine ⟨s.refillShapers k.val, ?_, honly, hdue, hbal x hx hle⟩
  show execShaperRefill k s = _
  rw [execShaperRefill, h, if_neg Bool.false_ne_true]

/-! ### SHAPER_CFG_WRITE (R222, R223) -/

/-- The words of a configuration that is written (R222, R223). -/
def shaperCfgWord (i x v : Nat) : Nat :=
  (if shaperIsK i x then max (min (fld v 0 20) 800000) 1000 else min (fld v 0 20) 800000) + 2 ^ 20 * fld v 20 1 +
    2 ^ 32 * max (fld v 32 24) 1

theorem fld_shaperCfgWord (i x v : Nat) :
    fld (shaperCfgWord i x v) 0 20 = (if shaperIsK i x then max (min (fld v 0 20) 800000) 1000 else min (fld v 0 20) 800000) ∧
      fld (shaperCfgWord i x v) 20 1 = fld v 20 1 ∧ fld (shaperCfgWord i x v) 32 24 = max (fld v 32 24) 1 := by
  have hen := fld_lt v 20 1
  have hburst := fld_lt v 32 24
  have hrate : (if shaperIsK i x then max (min (fld v 0 20) 800000) 1000 else min (fld v 0 20) 800000) < 2 ^ 20 := by
    split <;> omega
  unfold shaperCfgWord
  generalize (if shaperIsK i x then max (min (fld v 0 20) 800000) 1000 else min (fld v 0 20) 800000) = rate at *
  generalize fld v 20 1 = en at *
  generalize fld v 32 24 = burst at *
  unfold fld
  omega

/-- The configuration as written, with the balance left alone. -/
def State.shaperCfgPut (s : State) (i x v : Nat) : State := s.wrN (shaperCfgAddr i x) 2 (shaperCfgWord i x v)

theorem shaperCfgPut_ends (hx : shaperExists i x = true) (s : State) (v : Nat) :
    let t := s.shaperCfgPut i x v
    RefillOnly s t ∧
      (∀ f : Fld, 4 * (f.lo / 32) + 4 * f.words ≤ 8 → t.rf (shaperCfgAddr i x) f = fld (shaperCfgWord i x v) f.lo f.width) ∧
      t.shaperBal i x = s.shaperBal i x ∧ t.shaperLimit i x = (max (fld v 32 24) 1 * 16384 : Nat) := by
  have hbelow := shaperCfg_below hx x
  have hrf (f : Fld) (hf : 4 * (f.lo / 32) + 4 * f.words ≤ 8) :
      (s.shaperCfgPut i x v).rf (shaperCfgAddr i x) f = fld (shaperCfgWord i x v) f.lo f.width :=
    State.rf_wrN _ _ _ (by omega)
  refine ⟨.of_regs (s.wrN_only _ _ _), hrf, shaperBal_of_rd fun b hb _ => s.rd_wrN_ne _ _ _ _ fun j hj => by omega, ?_⟩
  rw [shaperLimit_eq, hrf _ (by decide), (fld_shaperCfgWord i x v).2.2]

/-- A write comes after the refills that are due, and a balance above the new limit falls to it (R223). -/
theorem shaperCfgSet_eq (hx : shaperExists i x = true) (s : State) (v : Nat) : s.shaperCfgSet i x v =
    let t := (s.refillShapers i).shaperCfgPut i x v
    if t.shaperLimit i x < t.shaperBal i x then t.setShaperBal i x (t.shaperLimit i x) else t := by
  simp only [State.shaperCfgSet, hx, Bool.not_true, Bool.false_eq_true, if_false, State.shaperCfgPut, shaperCfgWord]
  rfl

theorem shaperCfgSet_ends (hx : shaperExists i x = true) (s : State) (v : Nat) :
    let t := s.shaperCfgSet i x v
    let a := shaperCfgAddr i x
    RefillOnly s t ∧
      (∀ f : Fld, 4 * (f.lo / 32) + 4 * f.words ≤ 8 → t.rf a f = fld (shaperCfgWord i x v) f.lo f.width) ∧
      t.shaperBal i x = min ((s.refillShapers i).shaperBal i x) (max (fld v 32 24) 1 * 16384 : Nat) := by
  obtain ⟨honly, -⟩ := refillShapers_ends s i
  obtain ⟨hput, hrf, hbal, hlimit⟩ := shaperCfgPut_ends hx (s.refillShapers i) v
  have hrange := shaperLimit_range ((s.refillShapers i).shaperCfgPut i x v) i x
  rw [shaperCfgSet_eq hx, ← hbal, ← hlimit]
  generalize (s.refillShapers i).shaperCfgPut i x v = w at *
  dsimp only
  split
  · next hlt =>
    refine ⟨(honly.trans hput).trans (.of_regs (setShaperBal_only ..)), fun f hf => ?_, ?_⟩
    · rw [shaperCfg_of_rd hx (fun b hb => rd_setShaperBal w i x _ (.inl (hb.trans_le (shaperBal_first i x)))) hf, hrf f hf]
    · rw [shaperBal_setShaperBal w i x (by omega) hrange.2, min_eq_right hlt.le]
  · next hge => exact ⟨honly.trans hput, hrf, (min_eq_left (not_lt.mp hge)).symm⟩

variable {k : Fin 256} {c : Fin 12384} {v : W64}

theorem exec_shaperCfgWrite (h : Open s (shaperCfgAddr k.val c.val)) : exec (.shaperCfgWrite k c v) s =
    .next ((s.dropHeld (shaperCfgAddr k.val c.val) 2).shaperCfgSet k.val c.val v.toNat) := by
  show execShaperCfgWrite k c v s = _
  rw [execShaperCfgWrite, State.rowWrite_open _ _ h]

theorem exec_shaperCfgWrite_absent (h : Open s (shaperCfgAddr k.val c.val)) (hx : shaperExists k.val c.val = false) :
    exec (.shaperCfgWrite k c v) s = .next (s.dropHeld (shaperCfgAddr k.val c.val) 2) := by
  rw [exec_shaperCfgWrite h, State.shaperCfgSet, hx]
  rfl

theorem shaperCfgWrite_ends (h : Open s (shaperCfgAddr k.val c.val)) (hx : shaperExists k.val c.val = true) :
    Ends (.shaperCfgWrite k c v) s fun t =>
      let a := shaperCfgAddr k.val c.val
      let rate := min (v.extractLsb' 0 20).toNat 800000
      t.rf a tmShaperCfg_RATE = (if shaperIsK k.val c.val then max rate 1000 else rate) ∧
      t.rf a tmShaperCfg_EN = (v.extractLsb' 20 1).toNat ∧ t.rf a tmShaperCfg_BURST = max (v.extractLsb' 32 24).toNat 1 ∧
      t.shaperBal k.val c.val = min ((s.refillShapers k.val).shaperBal k.val c.val) (max (v.extractLsb' 32 24).toNat 1 * 16384 : Nat) ∧
      { t with regs := s.regs, served := s.served, held := s.held } = s := by
  refine ⟨_, exec_shaperCfgWrite h, ?_⟩
  have hd := s.dropHeld_only (shaperCfgAddr k.val c.val) 2
  generalize s.dropHeld (shaperCfgAddr k.val c.val) 2 = d at *
  have hregs : (d.refillShapers k.val).regs = (s.refillShapers k.val).regs :=
    refillShapers_regs_congr (s := s) (t := d) (congrArg State.regs hd :) (congrArg State.served hd :) (congrArg State.clock hd :) k.val
  obtain ⟨honly, hrf, hbal⟩ := shaperCfgSet_ends hx d v.toNat
  obtain ⟨hrate, hen, hburst⟩ := fld_shaperCfgWord k.val c.val v.toNat
  simp only [← fld_toNat]
  refine ⟨(hrf _ (by decide)).trans hrate, (hrf _ (by decide)).trans hen, (hrf _ (by decide)).trans hburst, ?_,
    (congrArg (fun t : State => { t with regs := s.regs, served := s.served, held := s.held }) honly :).trans
      (congrArg (fun t : State => { t with regs := s.regs, served := s.served }) hd :)⟩
  rw [hbal, shaperBal_of_rd fun b _ _ => State.rd_congr hregs b]

end
end Sys2Proof.Machine
end

section
/-! Weights of queues (R217, R223) and policers (R226, R227, R230, R231): the boundaries that are due, the refills of a bank, and writes
of configurations. -/

namespace Sys2Proof.Machine

open Sys2Proof.Safety

/-! ### QUEUE_WEIGHT_WRITE (R217, R223) -/

section
variable {s : State} {i : Fin 256} {j : Fin 2} {q : Fin 4096} {w : BitVec 16} {o : Nat}

/-- The word that holds WEIGHT and SUBPORT, and the next, after a write of WEIGHT. -/
def weightWord (s : State) (a : Nat) (w : BitVec 16) : Nat := setFld (s.rdN a 2) 0 16 w.toNat

theorem exec_queueWeightWrite_absent (h : ownerAt i.val j.val = none) : exec (.queueWeightWrite i j q w) s = .next s := by
  show execQueueWeightWrite i j q w s = _
  rw [execQueueWeightWrite, h]

theorem exec_queueWeightWrite (h : ownerAt i.val j.val = some o) (ho : Open s (qCfgAddr o q.val)) :
    exec (.queueWeightWrite i j q w) s = .next ((s.dropHeld (qCfgAddr o q.val) 2).queueCfgSet o q.val
      (weightWord s (qCfgAddr o q.val) w)) := by
  show execQueueWeightWrite i j q w s = _
  rw [execQueueWeightWrite, h]
  exact congrArg Host.Outcome.next (State.rowWrite_open _ _ ho)

theorem State.setOutQ_regs (s : State) (q : Nat) (x : OutQ) : (s.setOutQ q x).regs = s.regs := rfl

theorem outQ_setOutQ (s : State) (q : Nat) (x : OutQ) (j : Nat) : (s.setOutQ q x).outQ j = if j = q then x else s.outQ j :=
  Tab.get_put _ _ _ _ _

@[simp] theorem outQ_setOutQ_self (s : State) (q : Nat) (x : OutQ) : (s.setOutQ q x).outQ q = x := by
  rw [outQ_setOutQ, if_pos rfl]

theorem outQ_congr {s t : State} (h : t.outQs = s.outQs) (q : Nat) : t.outQ q = s.outQ q := by rw [State.outQ, State.outQ, h]

theorem queueCfgSet_eq (s : State) (o q v : Nat) : s.queueCfgSet o q v =
    let t := s.wrN (qCfgAddr o q) 2 (setFld v 31 1 0)
    let x := t.outQ (qWeighted o q)
    if s.rf (qCfgAddr o q) tmQueueCfg_WEIGHT ≠ fld v 0 16 ∧ x.active = true then t.setOutQ (qWeighted o q) { x with retag := true }
    else t := by
  simp only [State.queueCfgSet]

/-- A configuration that is written marks the queue for new tags where its weight has changed. -/
theorem queueCfgSet_ends (s : State) (o q v : Nat) :
    let t := s.queueCfgSet o q v
    let x := s.outQ (qWeighted o q)
    { t with regs := s.regs, outQs := s.outQs } = s ∧
      (∀ f : Fld, f.lo + f.width ≤ 31 → t.rf (qCfgAddr o q) f = fld v f.lo f.width) ∧
      t.outQ (qWeighted o q) =
        if s.rf (qCfgAddr o q) tmQueueCfg_WEIGHT ≠ fld v 0 16 ∧ x.active = true then { x with retag := true } else x := by
  have honly := s.wrN_only (qCfgAddr o q) 2 (setFld v 31 1 0)
  have hrf (f : Fld) (hf : f.lo + f.width ≤ 31) :
      (s.wrN (qCfgAddr o q) 2 (setFld v 31 1 0)).rf (qCfgAddr o q) f = fld v f.lo f.width := by
    rw [State.rf_wrN _ _ _ (by unfold Fld.words; omega), fld_setFld_ne _ _ _ _ _ _ (.inl hf)]
  have hq : (s.wrN (qCfgAddr o q) 2 (setFld v 31 1 0)).outQ (qWeighted o q) = s.outQ (qWeighted o q) :=
    outQ_congr (State.wrN_outQs ..) _
  rw [queueCfgSet_eq]
  generalize s.wrN (qCfgAddr o q) 2 (setFld v 31 1 0) = u at *
  dsimp only
  rw [hq]
  split
  · exact ⟨(congrArg (fun t : State => { t with outQs := s.outQs }) honly :),
      fun f hf => (rf_of_regs (State.setOutQ_regs ..) _ _).trans (hrf f hf), outQ_setOutQ_self _ _ _⟩
  · exact ⟨(congrArg (fun t : State => { t with outQs := s.outQs }) honly :), hrf, hq⟩

/-- A field of a register of two words, read from both. -/
theorem State.rf_two (s : State) (a : Nat) {f : Fld} (h : f.lo + f.width ≤ 32) (hw : f.words = 1) (hl : f.lo < 32) :
    s.rf a f = fld (s.rdN a 2) f.lo f.width := by
  rw [State.rf_word _ _ hl hw, ← fld_mod_two_pow (s.rdN a 2) _ _ _ h]
  congr 1
  have := (s.rd a).isLt
  simp only [State.rdN]
  omega

theorem queueWeightWrite_ends (h : ownerAt i.val j.val = some o) (ho : Open s (qCfgAddr o q.val)) :
    Ends (.queueWeightWrite i j q w) s fun t =>
      let a := qCfgAddr o q.val
      let x := s.outQ (qWeighted o q.val)
      t.rf a tmQueueCfg_WEIGHT = w.toNat ∧ t.rf a tmQueueCfg_SUBPORT = s.rf a tmQueueCfg_SUBPORT ∧
      t.outQ (qWeighted o q.val) = (if s.rf a tmQueueCfg_WEIGHT ≠ w.toNat ∧ x.active = true then { x with retag := true } else x) ∧
      { t with regs := s.regs, outQs := s.outQs, held := s.held } = s := by
  refine ⟨_, exec_queueWeightWrite h ho, ?_⟩
  have hd := s.dropHeld_only (qCfgAddr o q.val) 2
  generalize s.dropHeld (qCfgAddr o q.val) 2 = d at *
  have hq : d.outQ (qWeighted o q.val) = s.outQ (qWeighted o q.val) := outQ_congr (congrArg State.outQs hd :) _
  have hr : d.regs = s.regs := (congrArg State.regs hd :)
  have hweight : fld (weightWord s (qCfgAddr o q.val) w) 0 16 = w.toNat := by
    rw [weightWord, fld_setFld, Nat.mod_eq_of_lt w.isLt]
  have hsub : fld (weightWord s (qCfgAddr o q.val) w) 16 3 = s.rf (qCfgAddr o q.val) tmQueueCfg_SUBPORT := by
    rw [weightWord, fld_setFld_ne _ _ _ _ _ _ (.inr (Nat.le_refl _)), State.rf_two _ _ (by decide) (by decide) (by decide)]
  obtain ⟨honly, hrf, hout⟩ := queueCfgSet_ends d o q.val (weightWord s (qCfgAddr o q.val) w)
  rw [hq, hweight, rf_of_regs hr] at hout
  exact ⟨(hrf _ (by decide)).trans hweight, (hrf _ (by decide)).trans hsub, hout,
    (congrArg (fun t : State => { t with regs := s.regs, outQs := s.outQs, held := s.held }) honly :).trans
      (congrArg (fun t : State => { t with regs := s.regs, outQs := s.outQs }) hd :)⟩

end

/-! ### The buckets of a policer (R227, R230) -/

section
variable {s t u : State} {i m n : Nat}

theorem State.setPol_regs (s : State) (i n : Nat) (b : PolBal) : (s.setPol i n b).regs = s.regs := rfl

theorem pol_congr (h : t.polBal = s.polBal) (i n : Nat) : t.pol i n = s.pol i n := by rw [State.pol, State.pol, h]

theorem State.markServed_polBal (s : State) (k : Nat) : (s.markServed k).polBal = s.polBal := rfl

theorem pol_setPol (s : State) (i n : Nat) (b : PolBal) (k : Nat) :
    (s.setPol i n b).pol i k = if k = n then b else s.pol i k := by
  rw [State.pol, State.setPol, Tab.get_set]
  simp only [Nat.add_left_cancel_iff]
  rfl

/-- The buckets after the refills of `m` boundaries. -/
def State.polRefilled (s : State) (i m n : Nat) : PolBal :=
  let a := polCfgAddr i n
  let b := s.pol i n
  let cbs := s.rf a polCfgI_CBS * 16384
  let ebs := s.rf a polCfgI_EBS * 16384
  let c := b.c + m * (s.rf a polCfgI_CIR * 32)
  if s.rf a polCfgI_MODE = 0 then ⟨min c cbs, if cbs < c then min (b.e + (c - cbs)) ebs else b.e⟩
  else ⟨min c cbs, min (b.e + m * (max (s.rf a polCfgI_CIR) (s.rf a polCfgI_PIR) * 32)) ebs⟩

theorem refillPol_eq (s : State) (i m n : Nat) : s.refillPol i m n = s.setPol i n (s.polRefilled i m n) := by
  unfold State.refillPol State.polRefilled
  dsimp only
  split <;> rfl

theorem polRefilled_congr (hr : t.regs = s.regs) (hp : t.pol i n = s.pol i n) : t.polRefilled i m n = s.polRefilled i m n := by
  simp only [State.polRefilled, rf_of_regs hr, hp]

/-- What the first bucket cannot take goes to the second, which takes nothing else; a second bucket within its limit stays so. -/
theorem polRefilled_eq (he : (s.pol i n).e ≤ s.rf (polCfgAddr i n) polCfgI_EBS * 16384) : s.polRefilled i m n =
    let a := polCfgAddr i n
    let b := s.pol i n
    let cbs := s.rf a polCfgI_CBS * 16384
    let ebs := s.rf a polCfgI_EBS * 16384
    let c := b.c + m * (s.rf a polCfgI_CIR * 32)
    if s.rf a polCfgI_MODE = 0 then ⟨min c cbs, min (b.e + (c - cbs)) ebs⟩
    else ⟨min c cbs, min (b.e + m * (max (s.rf a polCfgI_CIR) (s.rf a polCfgI_PIR) * 32)) ebs⟩ := by
  unfold State.polRefilled
  dsimp only
  generalize (s.pol i n).c + m * (s.rf (polCfgAddr i n) polCfgI_CIR * 32) = c
  split
  · split
    · rfl
    · next h => rw [Nat.sub_eq_zero_of_le (Nat.not_lt.mp h), Nat.add_zero, Nat.min_eq_left he]
  · rfl

/-- Each policer of a list is refilled once. -/
theorem foldl_refillPol_ends (i m : Nat) {l : List Nat} (hl : l.Nodup) (s : State) :
    let t := l.foldl (fun s n => s.refillPol i m n) s
    { t with polBal := s.polBal } = s ∧ ∀ n, t.pol i n = if n ∈ l then s.polRefilled i m n else s.pol i n := by
  induction l generalizing s with
  | nil => exact ⟨rfl, fun n => (if_neg List.not_mem_nil).symm⟩
  | cons x l ih =>
    obtain ⟨hx, hl⟩ := List.nodup_cons.mp hl
    obtain ⟨honly, hpol⟩ := ih hl (s.refillPol i m x)
    rw [refillPol_eq] at honly hpol
    rw [List.foldl_cons, refillPol_eq]
    refine ⟨(congrArg (fun t : State => { t with polBal := s.polBal }) honly :), fun n => (hpol n).trans ?_⟩
    by_cases hn : n = x
    · subst hn
      rw [if_neg hx, if_pos List.mem_cons_self, pol_setPol, if_pos rfl]
    · have hsame : (s.setPol i x (s.polRefilled i m x)).pol i n = s.pol i n := by rw [pol_setPol, if_neg hn]
      rw [polRefilled_congr (State.setPol_regs ..) hsame, hsame]
      simp only [List.mem_cons, hn, false_or]

/-! ### Refills of a bank (R227) -/

/-- The policers of a bank whose configuration is listed. -/
def State.livePolicers (s : State) (i : Nat) : List Nat :=
  ((s.regs.filter fun e => polCfgAddr i 0 ≤ e.1 && e.1 < polCfgAddr i 0 + 0x10000).map fun e => (e.1 - polCfgAddr i 0) / 16).eraseDups

theorem nodup_livePolicers (s : State) (i : Nat) : (s.livePolicers i).Nodup := nodup_eraseDups _

theorem refillPolicers_eq (s : State) (i : Nat) : s.refillPolicers i =
    if s.refillsDue (256 + i) = 0 ∨ (!polBank i) = true then s
    else ((s.livePolicers i).foldl (fun t n => t.refillPol i (s.refillsDue (256 + i)) n) s).markServed (256 + i) := rfl

/-- The configurations of a bank's policers stand one after the other. -/
theorem polCfg_step (i n : Nat) : polCfgAddr i n = polCfgAddr i 0 + 16 * n := by
  unfold polCfgAddr ctlAddr
  omega

/-- CIR and MODE of a policer reset to zero (R231). -/
theorem regReset_polCfg (hi : polBank i = true) (hn : n < 4096) :
    regReset (polCfgAddr i n) = 0 ∧ fld (regReset (polCfgAddr i n + 4)).toNat 8 1 = 0 := by
  simp only [polBank, Bool.or_eq_true, Bool.and_eq_true, decide_eq_true_eq] at hi
  have ha : polCfgAddr i n = i * 0x1000000 + (0x60000 + 16 * n) := by rw [polCfgAddr, ctlAddr]
  have hisl : polCfgAddr i n / 0x1000000 = i ∧ (polCfgAddr i n + 4) / 0x1000000 = i := by omega
  have hregs : regsOf i = regsIngress ∨ regsOf i = regsFabric ∨ regsOf i = regsHost ∨ regsOf i = regsHamper := by
    obtain (hi | rfl) | hi := hi
    · left
      rw [regsOf, if_neg (by omega), if_neg (by omega), if_pos (by omega)]
    · exact .inr (.inl rfl)
    · exact .inr (.inr (regsOf_side hi))
  constructor
  · refine regReset_packed (n := 4) (j := 0) (lo := 0x60000) (hi := 0x70000) (P := (· = 0)) rfl ?_ (by omega) (by omega) (by omega)
    rw [hisl.1]
    obtain hr | hr | hr | hr := hregs
    all_goals
      rw [hr]
      decide
  · refine regReset_packed (n := 4) (j := 1) (lo := 0x60000) (hi := 0x70000) (P := fun w => fld w.toNat 8 1 = 0) rfl ?_ (by omega)
      (by omega) (by omega)
    rw [hisl.2]
    obtain hr | hr | hr | hr := hregs
    all_goals
      rw [hr]
      decide

/-- A policer that is not refilled stands at its values from reset, with CIR and MODE zero (R231). -/
theorem cir_mode_not_live (hi : polBank i = true) (hn : n < 4096) (hm : n ∉ s.livePolicers i) :
    s.rf (polCfgAddr i n) polCfgI_CIR = 0 ∧ s.rf (polCfgAddr i n) polCfgI_MODE = 0 := by
  simp only [State.livePolicers, List.mem_eraseDups, List.mem_map, List.mem_filter, Bool.and_eq_true, decide_eq_true_eq, not_exists,
    not_and] at hm
  have hstep := polCfg_step i n
  have hrd (b : Nat) (hlo : polCfgAddr i n ≤ b) (hhi : b < polCfgAddr i n + 16) : s.rd b = regReset b :=
    Tab.get_unlisted _ fun e he hkey => hm e ⟨he, by omega, by omega⟩ (by omega)
  obtain ⟨h0, h1⟩ := regReset_polCfg hi hn
  constructor
  · rw [State.rf_word _ _ (by decide) (by decide), hrd _ (Nat.le_refl _) (by omega), h0]
    rfl
  · rw [← hrd (polCfgAddr i n + 4) (by omega) (by omega)] at h1
    rw [← h1]
    show fld (s.rdN (polCfgAddr i n + 4) 1) 8 1 = _
    simp only [State.rdN, Nat.mul_zero, Nat.add_zero]

/-- Nothing but buckets and the boundaries served has changed. -/
def PolicersOnly (s t : State) : Prop := { t with polBal := s.polBal, served := s.served } = s

/-- What is due is refilled, each policer once. -/
theorem refillPolicers_ends (s : State) {i : Nat} (hi : polBank i = true) :
    let t := s.refillPolicers i
    PolicersOnly s t ∧ t.refillsDue (256 + i) = 0 ∧
      ∀ n, n < 4096 → (s.pol i n).c ≤ s.rf (polCfgAddr i n) polCfgI_CBS * 16384 →
        (s.pol i n).e ≤ s.rf (polCfgAddr i n) polCfgI_EBS * 16384 →
        t.pol i n = s.polRefilled i (s.refillsDue (256 + i)) n := by
  obtain ⟨honly, hpol⟩ := foldl_refillPol_ends i (s.refillsDue (256 + i)) (nodup_livePolicers s i) s
  have hzero (m n : Nat) (hc : (s.pol i n).c ≤ s.rf (polCfgAddr i n) polCfgI_CBS * 16384)
      (he : (s.pol i n).e ≤ s.rf (polCfgAddr i n) polCfgI_EBS * 16384)
      (h : m = 0 ∨ s.rf (polCfgAddr i n) polCfgI_CIR = 0 ∧ s.rf (polCfgAddr i n) polCfgI_MODE = 0) :
      s.polRefilled i m n = s.pol i n := by
    rw [polRefilled_eq he]
    obtain rfl | ⟨hcir, hmode⟩ := h
    · simp only [Nat.zero_mul, Nat.add_zero, Nat.min_eq_left hc, Nat.min_eq_left he, Nat.sub_eq_zero_of_le hc, ite_self]
    · simp only [hcir, hmode, Nat.zero_mul, Nat.mul_zero, Nat.add_zero, Nat.min_eq_left hc, Nat.min_eq_left he,
        Nat.sub_eq_zero_of_le hc, if_true]
  rw [refillPolicers_eq, hi]
  split
  · next hn =>
    have hn := hn.resolve_right (by decide)
    exact ⟨rfl, hn, fun n _ hc he => (hzero _ n hc he (.inl hn)).symm⟩
  · refine ⟨(congrArg (fun t : State => { t with served := s.served }) honly :), ?_,
      fun n hn hc he => ((pol_congr (State.markServed_polBal ..) i n).trans (hpol n)).trans ?_⟩
    · exact refillsDue_markServed _ _
    · split
      · rfl
      · next hm => exact (hzero _ n hc he (.inr (cir_mode_not_live hi hn hm))).symm

theorem refillPolicers_pol_congr (hr : t.regs = s.regs) (hp : t.polBal = s.polBal) (hs : t.served = s.served) (hc : t.clock = s.clock)
    (i n : Nat) : (t.refillPolicers i).pol i n = (s.refillPolicers i).pol i n := by
  have hpol (k : Nat) : t.pol i k = s.pol i k := by rw [State.pol, State.pol, hp]
  have hdue : t.refillsDue (256 + i) = s.refillsDue (256 + i) := by
    rw [State.refillsDue, State.refillsDue, State.micros, State.micros, State.ictNs, State.ictNs, hs, hc]
  have hlive : t.livePolicers i = s.livePolicers i := by rw [State.livePolicers, State.livePolicers, hr]
  rw [refillPolicers_eq, refillPolicers_eq, hdue, hlive]
  split
  · exact hpol n
  · rw [pol_congr (State.markServed_polBal ..), pol_congr (State.markServed_polBal ..),
      (foldl_refillPol_ends i _ (nodup_livePolicers s i) t).2 n, (foldl_refillPol_ends i _ (nodup_livePolicers s i) s).2 n,
      polRefilled_congr hr (hpol n), hpol n]

/-! ### POLICER_REFILL and POLICER_CFG_WRITE (R227, R230, R231) -/

section
variable {k : Fin 256} {c : Fin 4096} {v : BitVec 128}

theorem exec_policerRefill (h : s.stopped = false) : exec (.policerRefill k) s = .next (s.refillPolicers k.val) := by
  show execPolicerRefill k s = _
  rw [execPolicerRefill, h, if_neg Bool.false_ne_true]

theorem exec_policerRefill_absent (h : polBank k.val = false) : exec (.policerRefill k) s = .next s := by
  have hsame : s.refillPolicers k.val = s := by rw [refillPolicers_eq, h, if_pos (.inr rfl)]
  show execPolicerRefill k s = _
  rw [execPolicerRefill, hsame, ite_self]

theorem policerRefill_ends (h : s.stopped = false) (hi : polBank k.val = true) (hn : n < 4096)
    (hc : (s.pol k.val n).c ≤ s.rf (polCfgAddr k.val n) polCfgI_CBS * 16384)
    (he : (s.pol k.val n).e ≤ s.rf (polCfgAddr k.val n) polCfgI_EBS * 16384) :
    Ends (.policerRefill k) s fun t => PolicersOnly s t ∧ t.refillsDue (256 + k.val) = 0 ∧
      t.pol k.val n = s.polRefilled k.val (s.refillsDue (256 + k.val)) n := by
  obtain ⟨honly, hdue, hpol⟩ := refillPolicers_ends s hi
  exact ⟨_, exec_policerRefill h, honly, hdue, hpol n hn hc he⟩

/-- OVERHEAD as it is stored: at least −64 (R230). -/
def polOverhead (v : Nat) : Nat := if sgn 8 (fld v 44 8) < -64 then 0xC0 else fld v 44 8

/-- The words of a configuration that is written (R230, R231). -/
def polCfgWord (v : Nat) : Nat :=
  fld v 0 44 + 2 ^ 44 * polOverhead v + 2 ^ 64 * max 1 (fld v 64 24) + 2 ^ 88 * fld v 88 24

theorem polCfgSet_eq (hi : polBank i = true) (s : State) (n v : Nat) : s.polCfgSet i n v =
    let t := (s.refillPolicers i).wrN (polCfgAddr i n) 4 (polCfgWord v)
    t.setPol i n ⟨min (t.pol i n).c (t.rf (polCfgAddr i n) polCfgI_CBS * 16384),
      min (t.pol i n).e (t.rf (polCfgAddr i n) polCfgI_EBS * 16384)⟩ := by
  simp only [State.polCfgSet, hi, Bool.not_true, Bool.false_eq_true, if_false, polCfgWord, polOverhead, State.polLimits]

theorem polOverhead_lt (v : Nat) : polOverhead v < 2 ^ 8 := by
  have := fld_lt v 44 8
  unfold polOverhead
  split <;> omega

/-- The parts of a configuration that is written. -/
theorem fld_polCfgWord (v : Nat) : (∀ lo n, lo + n ≤ 44 → fld (polCfgWord v) lo n = fld v lo n) ∧
    fld (polCfgWord v) 44 8 = polOverhead v ∧ fld (polCfgWord v) 64 24 = max 1 (fld v 64 24) ∧
    fld (polCfgWord v) 88 24 = fld v 88 24 := by
  have hov := polOverhead_lt v
  have hlow := fld_lt v 0 44
  have hcbs := fld_lt v 64 24
  have hebs := fld_lt v 88 24
  refine ⟨fun lo n h => ?_, ?_⟩
  · have hmod : polCfgWord v % 2 ^ 44 = v % 2 ^ 44 := by
      have h0 : fld v 0 44 = v % 2 ^ 44 := by rw [fld, Nat.pow_zero, Nat.div_one]
      unfold polCfgWord
      omega
    rw [← fld_mod_two_pow _ _ _ _ h, hmod, fld_mod_two_pow _ _ _ _ h]
  · unfold polCfgWord
    generalize polOverhead v = ov at *
    generalize fld v 0 44 = low at *
    generalize fld v 64 24 = cbs at *
    generalize fld v 88 24 = ebs at *
    unfold fld
    omega

theorem polCfgSet_ends (hi : polBank i = true) (s : State) (n v : Nat) :
    let t := s.polCfgSet i n v
    let b := (s.refillPolicers i).pol i n
    { t with regs := s.regs, polBal := s.polBal, served := s.served } = s ∧
      (∀ f : Fld, f.lo / 32 + f.words ≤ 4 → t.rf (polCfgAddr i n) f = fld (polCfgWord v) f.lo f.width) ∧
      t.pol i n = ⟨min b.c (max 1 (fld v 64 24) * 16384), min b.e (fld v 88 24 * 16384)⟩ := by
  obtain ⟨honly, -, -⟩ := refillPolicers_ends s hi
  obtain ⟨-, -, hcbs, hebs⟩ := fld_polCfgWord v
  rw [polCfgSet_eq hi]
  generalize s.refillPolicers i = u at *
  have hw := u.wrN_only (polCfgAddr i n) 4 (polCfgWord v)
  have hrf (f : Fld) (hf : f.lo / 32 + f.words ≤ 4) :
      (u.wrN (polCfgAddr i n) 4 (polCfgWord v)).rf (polCfgAddr i n) f = fld (polCfgWord v) f.lo f.width := State.rf_wrN _ _ _ hf
  have hpol : (u.wrN (polCfgAddr i n) 4 (polCfgWord v)).pol i n = u.pol i n := pol_congr (State.wrN_polBal ..) i n
  generalize u.wrN (polCfgAddr i n) 4 (polCfgWord v) = t at *
  dsimp only
  refine ⟨(congrArg (fun t : State => { t with regs := s.regs, polBal := s.polBal, served := s.served }) hw :).trans
    (congrArg (fun t : State => { t with regs := s.regs }) honly :), fun f hf => ?_, ?_⟩
  · exact (rf_of_regs (State.setPol_regs ..) _ _).trans (hrf f hf)
  · rw [pol_setPol, if_pos rfl, hpol, hrf _ (by decide), hrf _ (by decide), hcbs, hebs]

theorem exec_policerCfgWrite (h : Open s (polCfgAddr k.val c.val)) : exec (.policerCfgWrite k c v) s =
    .next ((s.dropHeld (polCfgAddr k.val c.val) 4).polCfgSet k.val c.val v.toNat) := by
  show execPolicerCfgWrite k c v s = _
  rw [execPolicerCfgWrite, State.rowWrite_open _ _ h]

theorem exec_policerCfgWrite_absent (h : Open s (polCfgAddr k.val c.val)) (hi : polBank k.val = false) :
    exec (.policerCfgWrite k c v) s = .next (s.dropHeld (polCfgAddr k.val c.val) 4) := by
  rw [exec_policerCfgWrite h, State.polCfgSet, hi]
  rfl

theorem polOverhead_toInt (v : BitVec 128) : polOverhead v.toNat =
    if (v.extractLsb' 44 8).toInt < -64 then 0xC0 else (v.extractLsb' 44 8).toNat := by
  have hsgn : sgn 8 (fld v.toNat 44 8) = (v.extractLsb' 44 8).toInt := by
    rw [sgn_eq_toInt 8 _ (by decide) (fld_lt _ _ _), fld_toNat, BitVec.ofNat_toNat, BitVec.setWidth_eq]
  rw [polOverhead, hsgn, fld_toNat]

theorem policerCfgWrite_ends (h : Open s (polCfgAddr k.val c.val)) (hi : polBank k.val = true) :
    Ends (.policerCfgWrite k c v) s fun t =>
      let a := polCfgAddr k.val c.val
      let ov := v.extractLsb' 44 8
      let cbs := max 1 (v.extractLsb' 64 24).toNat
      let b := (s.refillPolicers k.val).pol k.val c.val
      t.rf a polCfgI_CIR = (v.extractLsb' 0 20).toNat ∧ t.rf a polCfgI_PIR = (v.extractLsb' 20 20).toNat ∧
      t.rf a polCfgI_MODE = (v.extractLsb' 40 1).toNat ∧ t.rf a polCfgI_VALID = (v.extractLsb' 43 1).toNat ∧
      t.rf a polCfgI_OVERHEAD = (if ov.toInt < -64 then 0xC0 else ov.toNat) ∧
      t.rf a polCfgI_CBS = cbs ∧ t.rf a polCfgI_EBS = (v.extractLsb' 88 24).toNat ∧
      t.pol k.val c.val = ⟨min b.c (cbs * 16384), min b.e ((v.extractLsb' 88 24).toNat * 16384)⟩ ∧
      { t with regs := s.regs, polBal := s.polBal, served := s.served, held := s.held } = s := by
  refine ⟨_, exec_policerCfgWrite h, ?_⟩
  have hd := s.dropHeld_only (polCfgAddr k.val c.val) 4
  generalize s.dropHeld (polCfgAddr k.val c.val) 4 = d at *
  have hpol := refillPolicers_pol_congr (s := s) (t := d) (congrArg State.regs hd :) (congrArg State.polBal hd :)
    (congrArg State.served hd :) (congrArg State.clock hd :) k.val c.val
  obtain ⟨honly, hrf, hbuckets⟩ := polCfgSet_ends hi d c.val v.toNat
  obtain ⟨hlow, hov, hcbs, hebs⟩ := fld_polCfgWord v.toNat
  rw [hpol] at hbuckets
  simp only [← polOverhead_toInt]
  simp only [← fld_toNat]
  exact ⟨(hrf _ (by decide)).trans (hlow _ _ (by decide)), (hrf _ (by decide)).trans (hlow _ _ (by decide)),
    (hrf _ (by decide)).trans (hlow _ _ (by decide)), (hrf _ (by decide)).trans (hlow _ _ (by decide)),
    (hrf _ (by decide)).trans hov, (hrf _ (by decide)).trans hcbs, (hrf _ (by decide)).trans hebs, hbuckets,
    (congrArg (fun t : State => { t with regs := s.regs, polBal := s.polBal, served := s.served, held := s.held }) honly :).trans
      (congrArg (fun t : State => { t with regs := s.regs, polBal := s.polBal, served := s.served }) hd :)⟩

end

end
end Sys2Proof.Machine
end

section
/-! Decisions of schedulers (R212 to R216, R221, R232): the order in which a head is looked for, and what a head that is taken leaves
alone. -/

namespace Sys2Proof.Machine

open Sys2Proof.Safety

/-! ### The cycle of a lane in which a frame may start (R156) -/

/-- What the slots of a lane's stages may change: frames, registers and the lane. -/
def LaneWork (s t : State) : Prop := { t with frames := s.frames, regs := s.regs, lanes := s.lanes } = s

section
variable {s t u : State} {p : Pass} {n : Nat} {a : Afv} {pr : BitVec 3}

theorem LaneWork.refl (s : State) : LaneWork s s := rfl

theorem LaneWork.trans (h : LaneWork s t) (h' : LaneWork t u) : LaneWork s u :=
  (congrArg (fun x : State => { x with frames := s.frames, regs := s.regs, lanes := s.lanes }) h' :).trans h

theorem LaneWork.ite {c : Prop} [Decidable c] (ht : LaneWork s t) (hu : LaneWork s u) : LaneWork s (if c then t else u) := by
  split <;> assumption

theorem LaneWork.mem (h : LaneWork s t) : t.mem = s.mem := (congrArg State.mem h :)
theorem LaneWork.threads (h : LaneWork s t) : t.threads = s.threads := (congrArg State.threads h :)

theorem laneWork_modFrame (s : State) (fid : Nat) (g : Frame → Frame) : LaneWork s (s.modFrame fid g) := rfl

theorem laneWork_setFrame (s : State) (fid : Nat) (f : Frame) : LaneWork s (s.setFrame fid f) := rfl

theorem laneWork_loadSvc (s : State) (fid : Nat) : LaneWork s (s.loadSvc fid) :=
  (congrArg (fun x : State => { x with lanes := s.lanes }) (satchelEdited_loadSvc s fid).only :)

theorem laneWork_sput (s : State) (fid k : Nat) (a m : W64) (b : Bool) : LaneWork s (s.sput fid k a m b).1 := by
  have hload : LaneWork s (sputLoaded s fid k a m b) :=
    (laneWork_modFrame s fid _).trans ((LaneWork.ite (laneWork_modFrame _ _ _) (LaneWork.refl _)).trans
      (LaneWork.ite (laneWork_loadSvc _ _) (LaneWork.refl _)))
  obtain h | ⟨f, h⟩ := sput_fst s fid k a m b
  · rw [h]
    exact hload
  · rw [h]
    exact hload.trans (laneWork_setFrame _ _ _)

theorem laneWork_stageRun : LaneWork s (s.stageRun n p a).1 := by
  cases a with
  | sput w ra rb => exact laneWork_sput ..
  | store be rs ra space size off =>
    rw [stageRun_store]
    split_ifs
    · exact LaneWork.refl s
    · exact LaneWork.refl s
    · exact laneWork_modFrame ..
  | _ => exact LaneWork.refl s

theorem laneWork_slotInsn : LaneWork s (s.slotInsn n pr a p).1 := by
  unfold State.slotInsn
  split_ifs
  · exact LaneWork.refl s
  · exact LaneWork.refl s
  · exact laneWork_stageRun

theorem laneWork_slotWord (s : State) (n : Nat) (p : Pass) : LaneWork s (s.slotWord n none p).1 := by
  rw [slotWord_none]
  split_ifs
  · exact LaneWork.refl s
  · exact LaneWork.refl s
  all_goals
    dsimp only
    cases afvDecode _ with
    | some a => exact laneWork_slotInsn
    | none => exact LaneWork.refl s

theorem laneWork_restCycle (n : Nat) (ps : List Pass) (s : State) : LaneWork s (s.restCycle n ps).1 := by
  induction ps generalizing s with
  | nil => exact LaneWork.refl s
  | cons p ps ih => exact (laneWork_slotWord s n p).trans (ih _)

theorem laneWork_startCycle (s : State) (n : Nat) : LaneWork s (s.startCycle n) := by
  unfold State.startCycle State.laneCycle
  cases (s.lane n).passes with
  | nil => rfl
  | cons p ps =>
    have hset (t : State) (l : Lane) : LaneWork t (t.setLane n l) := rfl
    exact ((laneWork_slotWord s n p).trans (laneWork_restCycle n ps _)).trans (hset _ _)

end

/-! ### Tags (R216, R217) -/

section
variable {s t u : State}

/-- Nothing but queues of the output store has changed. -/
def QueuesOnly (s t : State) : Prop := { t with outQs := s.outQs } = s

theorem QueuesOnly.trans (h : QueuesOnly s t) (h' : QueuesOnly t u) : QueuesOnly s u :=
  (congrArg (fun x : State => { x with outQs := s.outQs }) h' :).trans h

theorem QueuesOnly.regs (h : QueuesOnly s t) : t.regs = s.regs := (congrArg State.regs h :)
theorem QueuesOnly.frames (h : QueuesOnly s t) : t.frames = s.frames := (congrArg State.frames h :)
theorem QueuesOnly.lanes (h : QueuesOnly s t) : t.lanes = s.lanes := (congrArg State.lanes h :)
theorem QueuesOnly.mem (h : QueuesOnly s t) : t.mem = s.mem := (congrArg State.mem h :)
theorem QueuesOnly.threads (h : QueuesOnly s t) : t.threads = s.threads := (congrArg State.threads h :)

/-- Nothing but queues of the output store has changed, and no head of them. -/
structure TagsOnly (s t : State) : Prop where
  only : QueuesOnly s t
  chip : ∀ q, (t.outQ q).chip = (s.outQ q).chip

theorem TagsOnly.refl (s : State) : TagsOnly s s := ⟨rfl, fun _ => rfl⟩

theorem TagsOnly.trans (h : TagsOnly s t) (h' : TagsOnly t u) : TagsOnly s u :=
  ⟨h.only.trans h'.only, fun q => (h'.chip q).trans (h.chip q)⟩

theorem tagsOnly_setOutQ (s : State) (q : Nat) {x : OutQ} (h : x.chip = (s.outQ q).chip) : TagsOnly s (s.setOutQ q x) := by
  refine ⟨rfl, fun j => ?_⟩
  rw [outQ_setOutQ]
  split
  · next hj => rw [hj, h]
  · rfl

theorem tagsOnly_retagHead (s : State) (q : Nat) : TagsOnly s (s.retagHead q) := by
  unfold State.retagHead
  dsimp only
  split
  · split
    · exact tagsOnly_setOutQ s q rfl
    · exact TagsOnly.refl s
  · exact TagsOnly.refl s

/-- New tags are given to queues one after the other. -/
theorem queuesOnly_retagQueues (s : State) (o k : Nat) : QueuesOnly s (s.retagQueues o k) := by
  unfold State.retagQueues
  generalize s.outQs = l
  induction l generalizing s with
  | nil => rfl
  | cons e l ih =>
    rw [List.foldl_cons]
    split
    · have hset : QueuesOnly s (s.setOutQ e.1 { e.2 with retag := false }) := rfl
      exact (hset.trans (tagsOnly_retagHead _ e.1).only).trans (ih _)
    · exact ih s

end

/-! ### The selection of a head (R212, R214) -/

section
variable {s t u : State} {o k qn : Nat}

theorem pickHead_classK (h : (s.outQ (qClassK o k)).chip ≠ []) (ho : s.kOpen o k = true) : s.pickHead o k = some (qClassK o k) := by
  rw [State.pickHead, List.isEmpty_eq_false_iff.mpr h, ho]
  rfl

/-- Without a class K head, the lowest strict level that is eligible comes before the weighted queues. -/
theorem pickHead_strict {l : Nat} (h : ¬((s.outQ (qClassK o k)).chip ≠ [] ∧ s.kOpen o k = true)) (hl : l < 4)
    (he : s.headEligible o k (4096 + 4 * k + l) = true) (hlow : ∀ j, j < l → ¬s.headEligible o k (4096 + 4 * k + j) = true) :
    s.pickHead o k = some (qStrict o k l) := by
  rw [← List.isEmpty_eq_false_iff, ← Bool.not_eq_true', ← Bool.and_eq_true] at h
  have hfind : (List.range 4).find? (fun l => s.headEligible o k (4096 + 4 * k + l)) = some l :=
    List.find?_range_eq_some.mpr ⟨he, List.mem_range.mpr hl, fun j hj => by simpa using hlow j hj⟩
  rw [State.pickHead, if_neg h, hfind]

theorem pickHead_weighted (h : ¬((s.outQ (qClassK o k)).chip ≠ [] ∧ s.kOpen o k = true))
    (hnone : ∀ l, l < 4 → ¬s.headEligible o k (4096 + 4 * k + l) = true) : s.pickHead o k = s.bestWeighted o k := by
  rw [← List.isEmpty_eq_false_iff, ← Bool.not_eq_true', ← Bool.and_eq_true] at h
  have hfind : (List.range 4).find? (fun l => s.headEligible o k (4096 + 4 * k + l)) = none :=
    List.find?_eq_none.mpr fun l hl => hnone l (List.mem_range.mp hl)
  rw [State.pickHead, if_neg h, hfind]

theorem dropSelected_none {m fid : Nat} (hage : s.expired (s.frame fid) m = false)
    (hst : (s.frame fid).gf sfK = 0 → s.stalled o k ((s.frame fid).gf sfTc) = false) (hf : s.fence (s.frame fid) = none) :
    s.dropSelected o k m fid = none := by
  have hst' : ¬((decide (o < 32) && (decide ((s.frame fid).gf sfK = 0) && s.stalled o k ((s.frame fid).gf sfTc))) = true) := by
    simp only [Bool.and_eq_true, decide_eq_true_eq, not_and]
    exact fun _ hk => by rw [hst hk]; decide
  simp only [State.dropSelected, hage, Bool.false_eq_true, if_false, Bool.and_assoc, if_neg hst', hf]

theorem schedule_none (h : ((s.refillShapers (tmIsland o)).retagQueues o k).pickHead o k = none) :
    s.schedule o k = ((s.refillShapers (tmIsland o)).retagQueues o k, none) := by
  unfold State.schedule State.decideLoop
  dsimp only
  rw [h]

theorem schedule_some {e : QEnt} {rest : List QEnt} (hu : (s.refillShapers (tmIsland o)).retagQueues o k = u)
    (h : u.pickHead o k = some qn) (hc : (u.outQ qn).chip = e :: rest) (hd : u.dropSelected o k e.mem e.fid = none) :
    s.schedule o k = ((u.dequeue o k qn e.fid).updateSpilling e.mem, some e.fid) := by
  unfold State.schedule State.decideLoop
  dsimp only
  rw [hu, h]
  dsimp only
  rw [hc]
  dsimp only
  rw [hd]

end
end Sys2Proof.Machine
end

section
/-! What the dequeue of a frame leaves alone (R159, R214, R216, R219, R221), TM_DECISION and SIDE_SCHED_DECISION, and obligation O37. -/

namespace Sys2Proof.Machine

open Sys2Proof.Safety

/-! ### The end of a frame's charges (R196) -/

section
variable {s t u : State} {b : Nat} (hb : b < 0x41000000) (hq : ¬InCounters b)
include hb hq

/-- The registers below the fabric's, the counters of ports apart, do not change with PFC frames. -/
theorem rd_sendPfc (s : State) (e time : Nat) : (s.sendPfc e time).rd b = s.rd b := by
  have hle : b ≤ Reg.devStatus 0 := by rw [devStatus_zero]; omega
  rw [sendPfc_eq]
  split
  · split
    · exact (counting_pCount (p := e / 64) _ (Nat.mod_lt _ (by decide) : e / 8 % 8 < 8) (by decide : 18 < 32) 1).setup b hle hq
    · exact State.rd_congr rfl b
  · rfl

omit hq in
theorem rd_setIaccUse (s : State) (e : Nat) (f : Fld) (v : Nat) : (s.setRf (Reg.iaccUse e) f v).rd b = s.rd b :=
  s.rd_setRf_ne _ _ _ _ fun j _ => by
    simp only [Reg.iaccUse, ctlAddr]
    omega

theorem rd_iaccRelease (s : State) (e n : Nat) : (s.iaccRelease e n).rd b = s.rd b := by
  have hreport (t : State) (on : Bool) : (t.iaccReport e on).rd b = t.rd b := by
    unfold State.iaccReport
    dsimp only
    split
    · rfl
    · exact (rd_sendPfc hb hq _ _ _).trans (rd_setIaccUse hb _ _ _ _)
  unfold State.iaccRelease
  dsimp only
  split
  · exact (hreport _ _).trans (rd_setIaccUse hb _ _ _ _)
  · exact rd_setIaccUse hb _ _ _ _

omit hq in
theorem rd_updateSpilling (s : State) (m : Nat) : (s.updateSpilling m).rd b = s.rd b := by
  have hset (v : Nat) : (s.setRf (Reg.spillStatus m) spillStatus_SPILLING v).rd b = s.rd b :=
    s.rd_setRf_ne _ _ _ _ fun j _ => by
      simp only [Reg.spillStatus, ctlAddr]
      omega
  unfold State.updateSpilling
  dsimp only
  split_ifs
  · exact hset 1
  · exact hset 0
  · rfl

omit hq in
theorem rd_freePlaces (s : State) (fid : Nat) : (s.freePlaces fid).rd b = s.rd b := by
  have hfold (l : List Nat) : ∀ s : State, (l.foldl State.updateSpilling s).rd b = s.rd b := by
    induction l with
    | nil => exact fun _ => rfl
    | cons m l ih => exact fun s => (ih _).trans (rd_updateSpilling hb s m)
  exact (hfold _ _).trans (State.rd_congr rfl b)

end

/-! ### What a dequeue leaves alone -/

/-- Memory, threads, lanes, the bytes of frame `fid`, the heads of queue `qn`, and the count of frames dequeued at a sub-port are
as they were. -/
structure HeadKept (p k qn fid : Nat) (s t : State) : Prop where
  mem : t.mem = s.mem
  threads : t.threads = s.threads
  lanes : t.lanes = s.lanes
  data : (t.frame fid).data = (s.frame fid).data
  chip : (t.outQ qn).chip = (s.outQ qn).chip
  counter : ∀ b, tmCntAddr p k 0 ≤ b → b < tmCntAddr p k 0 + 8 → t.rd b = s.rd b

section
variable {s t u : State} {p k qn fid : Nat}

theorem HeadKept.refl (s : State) : HeadKept p k qn fid s s := ⟨rfl, rfl, rfl, rfl, rfl, fun _ _ _ => rfl⟩

theorem HeadKept.trans (h : HeadKept p k qn fid s t) (h' : HeadKept p k qn fid t u) : HeadKept p k qn fid s u where
  mem := h'.mem.trans h.mem
  threads := h'.threads.trans h.threads
  lanes := h'.lanes.trans h.lanes
  data := h'.data.trans h.data
  chip := h'.chip.trans h.chip
  counter b hlo hhi := (h'.counter b hlo hhi).trans (h.counter b hlo hhi)

theorem HeadKept.ite {c : Prop} [Decidable c] (ht : HeadKept p k qn fid s t) (hu : HeadKept p k qn fid s u) :
    HeadKept p k qn fid s (if c then t else u) := by split <;> assumption

theorem headKept_foldl {α : Type} (g : State → α → State) (l : List α) (hg : ∀ s x, x ∈ l → HeadKept p k qn fid s (g s x)) (s : State) :
    HeadKept p k qn fid s (l.foldl g s) := by
  induction l generalizing s with
  | nil => exact HeadKept.refl s
  | cons x l ih => exact (hg s x List.mem_cons_self).trans (ih (fun s y hy => hg s y (List.mem_cons_of_mem x hy)) _)

theorem HeadKept.rdN (h : HeadKept p k qn fid s t) : t.rdN (tmCntAddr p k 0) 2 = s.rdN (tmCntAddr p k 0) 2 :=
  State.rdN_congr fun i hi => h.counter _ (by omega) (by omega)

/-- A change of registers other than the counter. -/
theorem headKept_of_regs (h : { t with regs := s.regs } = s)
    (hr : ∀ b, tmCntAddr p k 0 ≤ b → b < tmCntAddr p k 0 + 8 → t.rd b = s.rd b) : HeadKept p k qn fid s t where
  mem := (congrArg State.mem h :)
  threads := (congrArg State.threads h :)
  lanes := (congrArg State.lanes h :)
  data := congrArg Frame.data (State.frame_congr (congrArg State.frames h :) fid)
  chip := congrArg OutQ.chip (outQ_congr (congrArg State.outQs h :) qn)
  counter := hr

/-- The work of a port that leaves the counter alone. -/
theorem headKept_of_portWork {cs : List Nat} (h : PortWork cs s t)
    (hr : ∀ b, tmCntAddr p k 0 ≤ b → b < tmCntAddr p k 0 + 8 → t.rd b = s.rd b) : HeadKept p k qn fid s t where
  mem := (congrArg State.mem h.rest :)
  threads := (congrArg State.threads h.rest :)
  lanes := (congrArg State.lanes h.rest :)
  data := congrArg Frame.data (State.frame_congr (congrArg State.frames h.rest :) fid)
  chip := congrArg OutQ.chip (outQ_congr (congrArg State.outQs h.rest :) qn)
  counter := hr

/-- A change of queues that leaves their heads alone. -/
theorem TagsOnly.headKept (h : TagsOnly s t) : HeadKept p k qn fid s t :=
  ⟨h.only.mem, h.only.threads, h.only.lanes, congrArg Frame.data (State.frame_congr h.only.frames fid), h.chip qn,
    fun b _ _ => State.rd_congr h.only.regs b⟩

/-- A change of a frame that leaves its bytes alone. -/
theorem headKept_modFrame (s : State) (g : Frame → Frame) (hg : (g (s.frame fid)).data = (s.frame fid).data) :
    HeadKept p k qn fid s (s.modFrame fid g) :=
  ⟨rfl, rfl, rfl, by rw [State.frame_modFrame, if_pos rfl, hg], rfl, fun _ _ _ => rfl⟩

section
variable (hp : p < 32)
include hp

/-- The counters of a port's scheduler stand in its island behind the shapers. -/
theorem tmCnt_place (k c : Nat) :
    tmCntAddr p k c = (0x31 + p / 2) * 0x1000000 + (0x2A0000 + 0x400 * (p % 2) + 0x80 * k + 8 * c) := by
  rw [tmCntAddr, tmIsland, if_pos hp, tmJ, if_pos hp, ctlAddr]

theorem headKept_count (s : State) {c : Nat} (hc : c ≠ 0) (n : Nat) : HeadKept p k qn fid s (s.count (tmCntAddr p k c) n) :=
  headKept_of_regs (s.wrN_only _ _ _) fun b hlo hhi => s.rd_wrN_ne _ _ _ _ fun i hi => by
    rw [tmCnt_place hp] at hlo hhi ⊢
    omega

variable (hk : k < 8)
include hk

/-- The counter is a register below the fabric's and no counter of a port. -/
theorem tmCnt_below {b : Nat} (hlo : tmCntAddr p k 0 ≤ b) (hhi : b < tmCntAddr p k 0 + 8) : b < 0x41000000 ∧ ¬InCounters b := by
  rw [tmCnt_place hp] at hlo hhi
  unfold InCounters
  omega

theorem headKept_chargeShaper (s : State) (lc : Nat) {x : Nat} (hx : x < 12384) :
    HeadKept p k qn fid s (s.chargeShaper (tmIsland p) lc x) := by
  unfold State.chargeShaper
  split
  · exact HeadKept.refl s
  · have hplace : shaperBalAddr (tmIsland p) x = (0x31 + p / 2) * 0x1000000 + (0x120000 + 8 * x) := by
      rw [shaperBalAddr, tmIsland, if_pos hp, if_neg (by omega), ctlAddr]
    refine headKept_of_regs (setShaperBal_only ..) fun b hlo _ => rd_setShaperBal s _ x _ (.inr ?_)
    rw [tmCnt_place hp] at hlo
    omega

theorem headKept_chargeVtime (s : State) (f : Nat) : HeadKept p k qn fid s (s.chargeVtime p k qn f) := by
  have hset : HeadKept p k qn fid s (s.setRf (vtimeAddr p k) tmVtime_V f) :=
    headKept_of_regs (s.setRf_only _ _ _) fun b hlo _ => s.rd_setRf_ne _ _ _ _ fun i hi => by
      have hw : tmVtime_V.lo / 32 = 0 ∧ tmVtime_V.words = 2 := by decide
      rw [tmCnt_place hp] at hlo
      rw [vtimeAddr, tmIsland, if_pos hp, tmJ, if_pos hp, ctlAddr]
      omega
  have hstart (t : State) : TagsOnly t (t.setOutQ qn { t.outQ qn with s := f }) := tagsOnly_setOutQ t qn rfl
  unfold State.chargeVtime
  dsimp only
  refine .trans ?_ (tagsOnly_retagHead _ qn).headKept
  refine .trans ?_ (hstart _).headKept
  exact .ite hset (.refl s)

theorem headKept_updateSpilling (s : State) (m : Nat) : HeadKept p k qn fid s (s.updateSpilling m) :=
  headKept_of_regs (s.updateSpilling_only m) fun _ hlo hhi => rd_updateSpilling (tmCnt_below hp hk hlo hhi).1 s m

theorem headKept_freePlaces (s : State) : HeadKept p k qn fid s (s.freePlaces fid) := by
  have h := s.freePlaces_only fid
  exact ⟨(congrArg State.mem h :), (congrArg State.threads h :), (congrArg State.lanes h :),
    congrArg Frame.data (State.frame_congr (congrArg State.frames h :) fid),
    congrArg OutQ.chip (outQ_congr (congrArg State.outQs h :) qn),
    fun _ hlo hhi => rd_freePlaces (tmCnt_below hp hk hlo hhi).1 s fid⟩

theorem headKept_iaccRelease (s : State) (e n : Nat) : HeadKept p k qn fid s (s.iaccRelease e n) :=
  headKept_of_portWork (pfcSent_iaccRelease s e n).work fun _ hlo hhi =>
    rd_iaccRelease (tmCnt_below hp hk hlo hhi).1 (tmCnt_below hp hk hlo hhi).2 s e n

theorem headKept_uncharge (s : State) : HeadKept p k qn fid s (s.uncharge fid) := by
  have hmarks (t : State) : HeadKept p k qn fid t (t.modFrame fid fun f => { f with iacc := none, mirror := none }) :=
    headKept_modFrame t _ rfl
  unfold State.uncharge
  dsimp only
  split
  · exact (headKept_iaccRelease hp hk s _ _).trans (hmarks _)
  · exact hmarks s

/-- The shapers on a path are shapers of the island (R219). -/
theorem shaperPath_lt {q : Nat} (hq : q < 8192) (f : Frame) {x : Nat} (hx : x ∈ shaperPath p k q f) : x < 12384 := by
  have hinst : f.gf sfInstance < 2 ^ 12 := fld_lt _ _ _
  have hj : tmJ p < 2 := by rw [tmJ, if_pos hp]; omega
  rw [shaperPath, if_pos hp] at hx
  simp only [List.mem_cons, List.not_mem_nil, or_false] at hx
  obtain rfl | rfl | rfl := hx
  · split <;> omega
  · omega
  · omega

/-- What follows the removal of the head and its count leaves the rest alone. -/
theorem headKept_dequeue (s : State) :
    HeadKept p k qn fid ((s.popHead qn).count (tmCntAddr p k 0)) (s.dequeue p k qn fid) := by
  have hpath : ∀ x ∈ (if qIsK qn then [12368 + 8 * tmJ p + k] else shaperPath p k (qn % 8192) (s.frame fid)), x < 12384 := by
    split
    · have hj : tmJ p < 2 := by rw [tmJ, if_pos hp]; omega
      simp only [List.mem_singleton, forall_eq]
      omega
    · exact fun x hx => shaperPath_lt hp hk (Nat.mod_lt _ (by decide)) _ hx
  unfold State.dequeue
  dsimp only
  refine .trans ?_ (headKept_uncharge hp hk _)
  refine .trans ?_ (headKept_freePlaces hp hk _)
  refine .trans ?_ (.ite (headKept_chargeVtime hp hk _ _) (.refl _))
  refine .trans ?_ (.ite (headKept_modFrame _ _ rfl) (.refl _))
  refine .trans ?_ (.ite (headKept_foldl _ _ (fun t x hx => headKept_chargeShaper hp hk t _ (hpath x hx)) _) (.refl _))
  refine .trans ?_ (.ite (headKept_count hp _ (c := 5) (by decide) _) (.refl _))
  exact headKept_count hp _ (c := 1) (by decide) _

end
end

/-! ### TM_DECISION (R159, R212) -/

theorem OutQ.settle_chip (x : OutQ) : x.settle.chip = x.chip := by
  unfold OutQ.settle
  dsimp only
  split_ifs <;> rfl

theorem chip_popHead (s : State) (qn : Nat) : ((s.popHead qn).outQ qn).chip = (s.outQ qn).chip.tail := by
  rw [State.popHead, outQ_setOutQ_self, OutQ.settle_chip]

/-- The head that a dequeue takes is counted; memory, threads, lanes and the bytes of the frame stay. -/
theorem dequeue_ends {p k : Nat} (hp : p < 32) (hk : k < 8) (u : State) (qn fid mem : Nat) :
    let t := (u.dequeue p k qn fid).updateSpilling mem
    t.mem = u.mem ∧ t.threads = u.threads ∧ t.lanes = u.lanes ∧ (t.frame fid).data = (u.frame fid).data ∧
      (t.outQ qn).chip = (u.outQ qn).chip.tail ∧
      t.rdN (tmCntAddr p k 0) 2 = (u.rdN (tmCntAddr p k 0) 2 + 1) % 2 ^ 40 := by
  have hkept : HeadKept p k qn fid ((u.popHead qn).count (tmCntAddr p k 0)) ((u.dequeue p k qn fid).updateSpilling mem) :=
    (headKept_dequeue hp hk u).trans (headKept_updateSpilling hp hk _ mem)
  have hpop : QueuesOnly u (u.popHead qn) := rfl
  have hchip := chip_popHead u qn
  have hrd : (u.popHead qn).rdN (tmCntAddr p k 0) 2 = u.rdN (tmCntAddr p k 0) 2 := rdN_of_regs hpop.regs _ _
  generalize u.popHead qn = w at *
  have hcnt : (w.count (tmCntAddr p k 0)).rdN (tmCntAddr p k 0) 2 = (u.rdN (tmCntAddr p k 0) 2 + 1) % 2 ^ 40 := by
    rw [State.count, State.rdN_wrN_self, hrd]
    omega
  refine ⟨(hkept.mem.trans (State.wrN_mem ..)).trans hpop.mem, (hkept.threads.trans (State.wrN_threads ..)).trans hpop.threads,
    (hkept.lanes.trans (State.wrN_lanes ..)).trans hpop.lanes, hkept.data.trans ?_, hkept.chip.trans ?_, hkept.rdN.trans hcnt⟩
  · rw [State.count, State.frame_congr ((State.wrN_frames ..).trans hpop.frames) fid]
  · rw [← hchip, State.count, outQ_congr (State.wrN_outQs ..)]

section
variable {s t u : State} {port : Fin 32} {sub : Fin 8}

theorem State.startPass_frames (s : State) (n fid v : Nat) : (s.startPass n fid v).frames = s.frames := rfl
theorem State.startPass_regs (s : State) (n fid v : Nat) : (s.startPass n fid v).regs = s.regs := rfl

theorem exec_tmDecision_stays (hs : s.stopped = false) (h : s.linked port.val sub.val = false ∨
    (∃ fid ∈ (s.mac port.val sub.val).waiting, s.txReady port.val sub.val fid = true) ∨ s.accepts (0x31 + port.val / 2) = false) :
    exec (.tmDecision port sub) s = .next s := by
  show execTmDecision port sub s = _
  rw [execTmDecision, hs, Bool.false_or]
  split
  · rfl
  · next ha =>
    refine if_pos ?_
    obtain h | ⟨fid, hm, hr⟩ | h := h
    · rw [h]
      rfl
    · rw [List.any_eq_true.mpr ⟨fid, hm, hr⟩, Bool.or_true]
    · exact absurd (by rw [h]; rfl) ha

section
variable (hs : s.stopped = false) (hl : s.linked port.val sub.val = true)
  (hw : ¬∃ fid ∈ (s.mac port.val sub.val).waiting, s.txReady port.val sub.val fid = true) (ha : s.accepts (0x31 + port.val / 2) = true)
include hs hl hw ha

theorem exec_tmDecision_none (h : (s.startCycle (32 + port.val)).schedule port.val sub.val = (u, none)) :
    exec (.tmDecision port sub) s = .next u.settle := by
  rw [← List.any_eq_true, Bool.not_eq_true] at hw
  show execTmDecision port sub s = _
  rw [execTmDecision, hs, ha, if_neg (by decide)]
  dsimp only
  rw [hl, hw, if_neg (by decide), h]
  rfl

/-- A frame that is dequeued starts its pass in the lane of its port (R159). -/
theorem exec_tmDecision_some {fid : Nat} (h : (s.startCycle (32 + port.val)).schedule port.val sub.val = (t, some fid)) :
    ∃ v, exec (.tmDecision port sub) s =
      .next ((t.modFrame fid fun f => { f with sub := some sub.val }).startPass (32 + port.val) fid v).settle := by
  rw [← List.any_eq_true, Bool.not_eq_true] at hw
  refine ⟨t.profile (16 + port.val / 2) (t.rf (flowClassAddr ((t.frame fid).gf sfFlowClass)) flowClass_EG_PROFILE), ?_⟩
  show execTmDecision port sub s = _
  rw [execTmDecision, hs, ha, if_neg (by decide)]
  dsimp only
  rw [hl, hw, if_neg (by decide), h]
  rfl

/-- A head that survives its age, a stalled class and the fence goes to the egress lane of its port. -/
theorem tmDecision_ends {qn : Nat} {e : QEnt} {rest : List QEnt}
    (hu : ((s.startCycle (32 + port.val)).refillShapers (tmIsland port.val)).retagQueues port.val sub.val = u)
    (hpick : u.pickHead port.val sub.val = some qn) (hc : (u.outQ qn).chip = e :: rest)
    (hd : u.dropSelected port.val sub.val e.mem e.fid = none) :
    EndsSettled (.tmDecision port sub) s fun t => (t.outQ qn).chip = rest ∧
      (∃ q : Pass, (t.lane (32 + port.val)).passes = (u.lane (32 + port.val)).passes ++ [q] ∧ q.fid = e.fid ∧ q.stage = 0 ∧ q.slot = 0) ∧
      (t.frame e.fid).data = (u.frame e.fid).data ∧ t.mem = s.mem ∧ t.threads = s.threads ∧
      t.rdN (tmCntAddr port.val sub.val 0) 2 = (u.rdN (tmCntAddr port.val sub.val 0) 2 + 1) % 2 ^ 40 := by
  obtain ⟨v, hexec⟩ := exec_tmDecision_some hs hl hw ha (schedule_some hu hpick hc hd)
  refine ⟨_, hexec, ?_⟩
  obtain ⟨hmem, hthr, hlanes, hdata, hchip, hcnt⟩ := dequeue_ends port.isLt sub.isLt u qn e.fid e.mem
  have hstart := laneWork_startCycle s (32 + port.val)
  have hrefill := (refillShapers_ends (s.startCycle (32 + port.val)) (tmIsland port.val)).1
  have htags := queuesOnly_retagQueues ((s.startCycle (32 + port.val)).refillShapers (tmIsland port.val)) port.val sub.val
  rw [hu] at htags
  generalize s.startCycle (32 + port.val) = a at *
  generalize a.refillShapers (tmIsland port.val) = b at *
  generalize (u.dequeue port.val sub.val qn e.fid).updateSpilling e.mem = t at *
  have hbmem : b.mem = a.mem := (congrArg State.mem hrefill :)
  have hbthr : b.threads = a.threads := (congrArg State.threads hrefill :)
  rw [hc] at hchip
  refine ⟨hchip, ⟨{ fid := e.fid, profile := v }, ?_, rfl, rfl, rfl⟩, ?_, ?_, ?_, ?_⟩
  · rw [State.startPass, State.lane_setLane, State.lane_congr (State.modFrame_lanes ..), State.lane_congr hlanes]
  · rw [← hdata]
    refine (congrArg Frame.data (State.frame_congr (State.startPass_frames ..) e.fid)).trans ?_
    rw [State.frame_modFrame, if_pos rfl]
  · exact hmem.trans (htags.mem.trans (hbmem.trans hstart.mem))
  · exact hthr.trans (htags.threads.trans (hbthr.trans hstart.threads))
  · refine (rdN_of_regs ?_ _ _).trans hcnt
    exact (State.startPass_regs ..).trans (State.modFrame_regs ..)

end
end

/-! ### SIDE_SCHED_DECISION (R225) -/

section
variable {s : State} {ep : Fin 8}

/-- The side endpoint can take a frame: a host link, or a Hamper link that is up with a credit (R381). -/
def SideReady (s : State) (e : Nat) : Prop := e < 2 ∨ (s.hlUp (e - 2) = true ∧ 0 < (s.hvc (e - 2) 1).credits)

theorem sideReady_iff (s : State) (e : Nat) :
    (e < 2 || (s.hlUp (e - 2) && decide (0 < (s.hvc (e - 2) 1).credits))) = true ↔ SideReady s e := by
  rw [SideReady, Bool.or_eq_true, Bool.and_eq_true, decide_eq_true_eq, decide_eq_true_eq]

theorem exec_sideSchedDecision_stays (hs : s.stopped = false) (h : ¬SideReady s ep.val) :
    exec (.sideSchedDecision ep) s = .next s := by
  rw [← sideReady_iff, Bool.not_eq_true] at h
  show execSideSchedDecision ep s = _
  rw [execSideSchedDecision, hs, if_neg (by decide)]
  dsimp only
  rw [h]
  rfl

/-- The frame that the endpoint is given, if any, departs. -/
theorem exec_sideSchedDecision (hs : s.stopped = false) (h : SideReady s ep.val) :
    exec (.sideSchedDecision ep) s = .next (((s.schedule (32 + ep.val) 0).2.elim (s.schedule (32 + ep.val) 0).1
      (s.schedule (32 + ep.val) 0).1.depart).settle) := by
  rw [← sideReady_iff] at h
  show execSideSchedDecision ep s = _
  rw [execSideSchedDecision, hs, if_neg (by decide)]
  dsimp only
  rw [h, if_neg (by decide)]
  cases (s.schedule (32 + ep.val) 0).2 <;> rfl

end

/-- Settles O37. Its parts are the order of R212, what the dequeue of a head leaves alone, and that each shaper and each policer is
refilled once for the boundaries that are due. That no decision is taken while a frame of the MAC could start is log entry 126, and
that the count of frames takes in class K is log entry 68. -/
theorem schedulerDecisions : Obligations.SchedulerDecisions := by
  unfold Obligations.SchedulerDecisions
  refine ⟨⟨fun s o k => ⟨fun h => pickHead_classK h.1 h.2, fun l h hl he hlow => pickHead_strict h hl he hlow,
    fun h hnone => pickHead_weighted h hnone⟩, fun port sub s hs => ?_, fun ep s hs => ?_⟩,
    fun i x s hs hx hle => ?_, fun i x v s h => ?_, fun i j q w s => ⟨exec_queueWeightWrite_absent, fun o ho hopen =>
      queueWeightWrite_ends ho hopen⟩, fun i n s hs hi hn hc he => ?_, fun i s hi => exec_policerRefill_absent hi,
    fun i n v s h => ⟨exec_policerCfgWrite_absent h, policerCfgWrite_ends h⟩⟩
  · refine ⟨exec_tmDecision_stays hs, fun hl hw ha => ⟨fun hnone => exec_tmDecision_none hs hl hw ha (schedule_none hnone), ?_⟩⟩
    exact fun qn e rest hpick hc hage hst hf => tmDecision_ends hs hl hw ha rfl hpick hc (dropSelected_none hage hst hf)
  · refine ⟨exec_sideSchedDecision_stays hs, fun h hnone => ?_, fun fid h hsome => ?_⟩
    · rw [exec_sideSchedDecision hs h, hnone]
      rfl
    · rw [exec_sideSchedDecision hs h, hsome]
      rfl
  · obtain ⟨t, ht, honly, hdue, hbal⟩ := shaperRefill_ends i hs hx hle
    exact ⟨t, ht, honly, hdue, by rw [hbal, State.shaperRefilled, shaperLimit_eq]; rfl⟩
  · exact ⟨exec_shaperCfgWrite_absent h, shaperCfgWrite_ends h⟩
  · obtain ⟨t, ht, honly, hdue, hpol⟩ := policerRefill_ends hs hi hn hc he
    exact ⟨t, ht, honly, hdue, hpol.trans (polRefilled_eq he)⟩

end Sys2Proof.Machine
end
